-- ==== Sys2Proof/Word.lean ====
section
/-! DEFINITION. The bit-vector types of the model (R6) and their plainest helpers. -/

namespace Sys2Proof

/-- A 32-bit register word (R8). -/
abbrev Word := BitVec 32

/-- A 64-bit value. -/
abbrev DWord := BitVec 64

/-- A byte. -/
abbrev Byte := BitVec 8

/-- The bytes of a frame, a record or a memory range, first byte first (R7). -/
abbrev Bytes := List Byte

/-- `0` or `1`. -/
def b2n (b : Bool) : Nat := if b then 1 else 0

end Sys2Proof
end

