-- ==== Sys2Proof/Syntax.lean ====
section
/-! DEFINITION. The commands of the block: one constructor of `Instr` per row of the opcode table, with typed operands,
and the operand types. -/

namespace Sys2Proof

namespace Machine

/-- A lane's measured delays: lane number, RX and TX delay as the 32-bit words of WRS_LANE (R59–R61). -/
structure LaneCal where
  lane : Nat
  rx : Nat
  tx : Nat
  deriving DecidableEq, Repr

/-- The condition of link up that a port loses (R148). -/
inductive LinkCause where
  | alignment | hiBer | localFault | remoteFault
  deriving DecidableEq, Repr

/-- An alignment process of R163. -/
inductive AlignProc where
  | lane (i : Nat) | laneMarkers | fas | mfas | slice (i : Nat) | bdi | maint (c : Nat)
  deriving DecidableEq, Repr

/-- What the framer observed of one end of an entity in the second that ends (R168–R170). -/
structure PmObs where
  grp : Nat
  ent : Nat
  far : Bool
  bbe : Nat
  es : Bool
  ses : Bool
  deriving DecidableEq, Repr

/-- The header fields of a host command: SEQ, ARG_LEN, BUF_LEN, BUF_ADDR, the tether port and source address when it came in a
management frame, and whether the read of arguments from its buffer fails (R473, R475, R482). -/
structure CmdHdr where
  seq : BitVec 16
  argLen : Nat
  bufLen : Nat
  bufAddr : BitVec 64
  tether : Option (Fin 2 × BitVec 48)
  bufFault : Bool := false
  deriving DecidableEq, Repr

/-- Arguments of the table commands (R476). -/
structure TblArgs where
  table : BitVec 8
  static : Bool
  clearHit : Bool
  allOrNone : Bool
  batch : BitVec 8
  slice : BitVec 8
  index : BitVec 32
  tick : BitVec 64
  key : Bytes
  content : Bytes
  deriving DecidableEq, Repr

/-- Content writes (R240). -/
inductive OpKind where
  | insert | delete | modify
  deriving DecidableEq, Repr

/-- One content write. -/
structure BOp where
  kind : OpKind
  table : Nat
  slice : Nat
  key : Bytes
  content : Bytes
  static : Bool
  deriving DecidableEq, Repr

/-- What ECC found in the lines a lookup read (R250). -/
inductive EccOut where
  | none | corrected | uncorrectable
  deriving DecidableEq, Repr

/-- Soft errors one ACL search meets: rows of the TCAM that match falsely or fail to match, and entries whose verify copy,
and whose backing copy too, read uncorrectable (R259, R260). -/
structure AclEnv where
  upset : List Nat
  blind : List Nat
  copyUe : List Nat
  backUe : List Nat
  deriving DecidableEq, Repr

/-- What the scrubber finds in the row it compares: no difference, a difference, an uncorrectable copy, an uncorrectable copy and
backing copy (R260, R261). -/
inductive ScrubSees where
  | same | differs | copyUe | lost
  deriving DecidableEq, Repr

/-- An ACL search without soft errors. -/
def AclEnv.clean : AclEnv := ⟨[], [], [], []⟩

/-- What a lookup pass met: whether the pool's share fell short of what the slice's own credit left, what ECC found, and the soft
errors of its ACL searches (R250, R251, R259). -/
structure PassEnv where
  short : Bool
  ecc : EccOut
  acl0 : AclEnv
  acl1 : AclEnv
  deriving DecidableEq, Repr

/-- A thread of an engine: gallery, logical engine, thread (R274). -/
structure ThrId where
  g : Fin 8
  e : Fin 8
  t : Fin 8
  deriving DecidableEq, Repr

/-- What every engine instruction carries: the thread that issues it, its guard (R301), and whether one of its register or
memory reads meets an uncorrectable error (R299, cause 9). -/
structure Iss where
  c : ThrId
  pn : Bool
  pg : BitVec 3
  ecc : Bool
  deriving DecidableEq, Repr

/-- What the 32-byte descriptor in front of a packet says (R18, R58, R416); its layout is not given (log entry 30). -/
structure Descr where
  badFcs : Bool := false
  decision : Nat := 0
  tc : Nat
  colour : Nat
  stamp : Nat
  stamped : Bool
  stream : Option Nat
  queue : Nat
  port : Nat
  faults : Nat
  adjOver : Option Nat
  len : Nat
  deriving DecidableEq, Repr

/-- A failing word MBIST finds: memory instance, row, its failing bits (R493, R494). -/
structure FailWord where
  mem : Nat
  row : Nat
  bits : List Nat
  deriving DecidableEq, Repr

/-- The result of one partition's LBIST (R491). -/
structure LbRes where
  part : Nat
  pass : Bool
  misr : Nat
  deriving DecidableEq, Repr

/-- A failing HBM row: stack, pseudo-channel, bank, row, whether its bank has a post-package repair left and whether the
repaired row passes (R499). -/
structure HbmFail where
  stack : Fin 8
  pch : Fin 64
  bank : Fin 32
  row : BitVec 18
  ppr : Bool
  fixed : Bool
  deriving DecidableEq, Repr

/-- What a self-test found: LBIST results, failing words, instances that fail after their repair (R490–R493). -/
structure TestRes where
  lbist : List LbRes
  words : List FailWord
  retest : List Nat
  deriving DecidableEq, Repr

/-- What a step of ASCENT met (R80): its duration in µs, self-test results, failing Passage wires by direction, failing HBM
rows and stacks not trained, configuration slots field firmware rejects (bit 0 A, bit 1 B), the words it loads from each of
them, where it places the engine data windows, the Windrose time it sets (2⁻¹⁶ ns), the fabric links that trained. -/
structure StepEnv where
  us : Nat
  test : TestRes
  wiresFe : Nat
  wiresTm : Nat
  hbm : List HbmFail
  untrained : List (Fin 8)
  reject : BitVec 2
  loadsA : List (BitVec 26 × Word)
  loadsB : List (BitVec 26 × Word)
  wins : List (BitVec 40)
  time : Nat
  links : List (Fin 192)
  deriving DecidableEq, Repr

/-- What a PROBE step met (R501): self-test results, failing HBM rows, bit errors by lane. -/
structure ProbeEnv where
  test : TestRes
  hbm : List HbmFail
  lanes : List (Fin 338 × Nat)
  deriving DecidableEq, Repr

/-- Who makes a Keeper mailbox request (R136): the host through KPR_MBX_REQ, or a control core with its SEQ and payload. -/
inductive MbxSrc where
  | host | core (c : Fin 2) (seq : BitVec 16) (payload : Bytes)
  deriving DecidableEq, Repr

/-- A mailbox request: its source, and the NVM offset at which an erase or program of it fails (R138). -/
structure Mbx where
  src : MbxSrc
  nvm : Option Word
  deriving DecidableEq, Repr

/-- A counter kept in the table region (R437): word of the engine counters, ACL entry of a slice, counter `j` of a queue or
node (level × 2¹⁸ + index), counter `j` of a stream context, bin of a histogram context's bank (32 to 34: COUNT, SUM, NEG). -/
inductive CntRef where
  | engine (i : Nat) | acl (slice : Fin 8) (i : Nat) | sched (k j : Nat) | stream (i j : Nat) | hist (c bank bin : Nat)
  deriving DecidableEq, Repr

/-- Where an ECC error lies (R508, R437, R343, R273): packet data of frame
`i` of an egress queue (8 × port + class), a FATAL memory, a counter line and its counters, a pointer
stack or link, a metadata line of a pool, an automaton memory, or any other memory. -/
inductive EccKind where
  | plain | packet (egq i : Nat) | fatal | counter (line : List CntRef) | pointers (slice : Fin 8) | metaLine (pool : Fin 10) | echo (n : Fin 8)
  deriving DecidableEq, Repr

/-- Instructions of the TAP (R104, R534). -/
inductive TapInstr where
  | bypass | idcode | boundary | acBoundary | internalScan | keeperDebug
  deriving DecidableEq, Repr

/-- What an MSI-X unmasking writes: a vector's mask bit, the Function Mask, MSI-X Enable (R486). -/
inductive Unmask where
  | vector (v : Fin 256) | function | enable
  deriving DecidableEq, Repr

/-- How a PCIe function is reset (R463). -/
inductive ResetKind where
  | flr | hot | linkLoss
  deriving DecidableEq, Repr

/-- The blocks with an indirect command register (R519). -/
inductive IndBlock where
  | cls | acl | que | sch | shp | gat | svy
  deriving DecidableEq, Repr

/-- A register number (R278). -/
abbrev GReg := BitVec 5

/-- A predicate number. -/
abbrev PReg := BitVec 3

end Machine

open Machine

/-- The commands, one constructor per row of the opcode table: engine instructions first, commands without operands last. -/
inductive Instr where
  /-- ALU FN ADD (R304). -/
  | add (d : Iss) (rd : GReg) (ra : GReg) (rb : GReg)
  /-- ALU FN SUB (R304). -/
  | sub (d : Iss) (rd : GReg) (ra : GReg) (rb : GReg)
  /-- ALU FN AND (R304). -/
  | and_ (d : Iss) (rd : GReg) (ra : GReg) (rb : GReg)
  /-- ALU FN OR (R304). -/
  | or_ (d : Iss) (rd : GReg) (ra : GReg) (rb : GReg)
  /-- ALU FN XOR (R304). -/
  | xor_ (d : Iss) (rd : GReg) (ra : GReg) (rb : GReg)
  /-- ALU FN ANDN, ra AND NOT rb (R304). -/
  | andn (d : Iss) (rd : GReg) (ra : GReg) (rb : GReg)
  /-- ALU FN shift left logical by rb[5:0] (R304). -/
  | sll (d : Iss) (rd : GReg) (ra : GReg) (rb : GReg)
  /-- ALU FN shift right logical (R304). -/
  | srl (d : Iss) (rd : GReg) (ra : GReg) (rb : GReg)
  /-- ALU FN shift right arithmetic (R304). -/
  | sra (d : Iss) (rd : GReg) (ra : GReg) (rb : GReg)
  /-- ALU FN rotate left (R304). -/
  | rol (d : Iss) (rd : GReg) (ra : GReg) (rb : GReg)
  /-- ALU FN rotate right (R304). -/
  | ror (d : Iss) (rd : GReg) (ra : GReg) (rb : GReg)
  /-- ALU FN MUL, low 64 bits (R304). -/
  | mul (d : Iss) (rd : GReg) (ra : GReg) (rb : GReg)
  /-- ALU FN MULHU, high 64 bits unsigned (R304). -/
  | mulhu (d : Iss) (rd : GReg) (ra : GReg) (rb : GReg)
  /-- ALU FN signed minimum (R304). -/
  | min_ (d : Iss) (rd : GReg) (ra : GReg) (rb : GReg)
  /-- ALU FN signed maximum (R304). -/
  | max_ (d : Iss) (rd : GReg) (ra : GReg) (rb : GReg)
  /-- ALU FN unsigned minimum (R304). -/
  | minu (d : Iss) (rd : GReg) (ra : GReg) (rb : GReg)
  /-- ALU FN unsigned maximum (R304). -/
  | maxu (d : Iss) (rd : GReg) (ra : GReg) (rb : GReg)
  /-- ALU FN count leading zeros (R304). -/
  | clz (d : Iss) (rd : GReg) (ra : GReg)
  /-- ALU FN count trailing zeros (R304). -/
  | ctz (d : Iss) (rd : GReg) (ra : GReg)
  /-- ALU FN population count (R304). -/
  | popc (d : Iss) (rd : GReg) (ra : GReg)
  /-- ALU FN byte swap of 64 bits (R304). -/
  | bswap64 (d : Iss) (rd : GReg) (ra : GReg)
  /-- ALU FN byte swap of the low word, zero-extended (R304). -/
  | bswap32 (d : Iss) (rd : GReg) (ra : GReg)
  /-- ALU FN byte swap of 16 bits (R304). -/
  | bswap16 (d : Iss) (rd : GReg) (ra : GReg)
  /-- ALU FN 32-bit add, zero-extended (R304). -/
  | add32 (d : Iss) (rd : GReg) (ra : GReg) (rb : GReg)
  /-- ALU FN 32-bit subtract, zero-extended (R304). -/
  | sub32 (d : Iss) (rd : GReg) (ra : GReg) (rb : GReg)
  /-- ALU FN ones'-complement 16-bit sum with carry folded (R304). -/
  | csum16 (d : Iss) (rd : GReg) (ra : GReg) (rb : GReg)
  /-- rd = ra + sign-extended IMM12 (R303). -/
  | addi (d : Iss) (rd : GReg) (ra : GReg) (imm : BitVec 12)
  /-- rd = ra AND zero-extended IMM12 (R303). -/
  | andi (d : Iss) (rd : GReg) (ra : GReg) (imm : BitVec 12)
  /-- rd = ra OR zero-extended IMM12 (R303). -/
  | ori (d : Iss) (rd : GReg) (ra : GReg) (imm : BitVec 12)
  /-- rd = ra XOR zero-extended IMM12 (R303). -/
  | xori (d : Iss) (rd : GReg) (ra : GReg) (imm : BitVec 12)
  /-- Shift or rotate by immediate, as IMM12[11:9] selects (R302). -/
  | shi (d : Iss) (rd : GReg) (ra : GReg) (sel : BitVec 3) (amt : BitVec 6)
  /-- rd = IMM16, zero- or sign-extended (R303). -/
  | movi (d : Iss) (rd : GReg) (x : Bool) (imm : BitVec 16)
  /-- rd[31:16] = IMM16 (R303). -/
  | movk1 (d : Iss) (rd : GReg) (imm : BitVec 16)
  /-- rd[47:32] = IMM16 (R303). -/
  | movk2 (d : Iss) (rd : GReg) (imm : BitVec 16)
  /-- rd[63:48] = IMM16 (R303). -/
  | movk3 (d : Iss) (rd : GReg) (imm : BitVec 16)
  /-- Combine predicate PD with the comparison ra CC rb (R302). -/
  | cmp (d : Iss) (pd : PReg) (cb : BitVec 2) (ra : GReg) (rb : GReg) (cc : BitVec 3)
  /-- Combine predicate PD with the comparison ra CC IMM9 (R302). -/
  | cmpi (d : Iss) (pd : PReg) (cb : BitVec 2) (ra : GReg) (cc : BitVec 3) (imm : BitVec 9)
  /-- PD = PA PF PB (R302). -/
  | pset (d : Iss) (pd : PReg) (pa : PReg) (pb : PReg) (pf : BitVec 3)
  /-- Relative branch (R303). -/
  | br (d : Iss) (ofs : BitVec 22)
  /-- G31 = index + 1, then branch (R303). -/
  | call (d : Iss) (ofs : BitVec 22)
  /-- Jump to index ra[15:0] (R303). -/
  | jr (d : Iss) (ra : GReg)
  /-- Extract a bit field, zero-extended (R303). -/
  | ext (d : Iss) (rd : GReg) (ra : GReg) (pos : BitVec 6) (lenm1 : BitVec 6)
  /-- Extract a bit field, sign-extended (R303). -/
  | exts (d : Iss) (rd : GReg) (ra : GReg) (pos : BitVec 6) (lenm1 : BitVec 6)
  /-- Insert a bit field into rd (R303). -/
  | ins (d : Iss) (rd : GReg) (ra : GReg) (pos : BitVec 6) (lenm1 : BitVec 6)
  /-- Extract a bit field whose position and length come from rb (R303). -/
  | extv (d : Iss) (rd : GReg) (ra : GReg) (rb : GReg) (sgn : Bool)
  /-- Read 1, 2, 4 or 8 bytes of the header window, big-endian (R283). -/
  | hwl (d : Iss) (r : GReg) (ra : GReg) (sz : BitVec 2) (ofs : BitVec 10)
  /-- Write bytes into the header window (R283). -/
  | hws (d : Iss) (r : GReg) (ra : GReg) (sz : BitVec 2) (ofs : BitVec 10)
  /-- Prepend or remove bytes at the front of the packet and return the new HW_LEN (R283). -/
  | hwadj (d : Iss) (rd : GReg) (ra : GReg) (imm : BitVec 12)
  /-- Read a packet metadata field by index (R284). -/
  | mdl (d : Iss) (rd : GReg) (idx : BitVec 8)
  /-- Write a packet metadata field by index (R284). -/
  | mds (d : Iss) (ra : GReg) (idx : BitVec 8)
  /-- Load from the data space (R280). -/
  | ld (d : Iss) (r : GReg) (ra : GReg) (sz : BitVec 2) (ofs : BitVec 10)
  /-- Posted store to the data space (R282). -/
  | st (d : Iss) (r : GReg) (ra : GReg) (sz : BitVec 2) (ofs : BitVec 10) (lost : Bool)
  /-- Indexed load from the data space (R280). -/
  | ldx (d : Iss) (rd : GReg) (ra : GReg) (rb : GReg) (sz : BitVec 2)
  /-- Indexed posted store to the data space (R282). -/
  | stx (d : Iss) (r : GReg) (ra : GReg) (rb : GReg) (sz : BitVec 2) (lost : Bool)
  /-- Atomic add, returning the old value (R304). -/
  | atomAdd (d : Iss) (rd : GReg) (ra : GReg) (rb : GReg) (dbl : Bool)
  /-- Atomic AND, returning the old value (R304). -/
  | atomAnd (d : Iss) (rd : GReg) (ra : GReg) (rb : GReg) (dbl : Bool)
  /-- Atomic OR, returning the old value (R304). -/
  | atomOr (d : Iss) (rd : GReg) (ra : GReg) (rb : GReg) (dbl : Bool)
  /-- Atomic XOR, returning the old value (R304). -/
  | atomXor (d : Iss) (rd : GReg) (ra : GReg) (rb : GReg) (dbl : Bool)
  /-- Atomic swap, returning the old value (R304). -/
  | atomSwap (d : Iss) (rd : GReg) (ra : GReg) (rb : GReg) (dbl : Bool)
  /-- Atomic unsigned minimum, returning the old value (R304). -/
  | atomUmin (d : Iss) (rd : GReg) (ra : GReg) (rb : GReg) (dbl : Bool)
  /-- Atomic unsigned maximum, returning the old value (R304). -/
  | atomUmax (d : Iss) (rd : GReg) (ra : GReg) (rb : GReg) (dbl : Bool)
  /-- Atomic compare-and-swap, returning the old value (R304). -/
  | atomCas (d : Iss) (rd : GReg) (ra : GReg) (rb : GReg) (dbl : Bool)
  /-- Asynchronous exact-match lookup in a table, returning a token (R289). -/
  | lkpEm (d : Iss) (rd : GReg) (ra : GReg) (rb : GReg) (tbl : BitVec 4)
  /-- Asynchronous LPM lookup, returning a token (R289). -/
  | lkpLpm (d : Iss) (rd : GReg) (ra : GReg) (rb : GReg)
  /-- Asynchronous next-hop read, returning a token (R289). -/
  | lkpNh (d : Iss) (rd : GReg) (ra : GReg) (rb : GReg)
  /-- Asynchronous ECMP group read, returning a token (R289). -/
  | lkpEcmpGroup (d : Iss) (rd : GReg) (ra : GReg) (rb : GReg)
  /-- Asynchronous ECMP member read, returning a token (R289). -/
  | lkpEcmpMember (d : Iss) (rd : GReg) (ra : GReg) (rb : GReg)
  /-- Asynchronous adjacency read, returning a token (R289). -/
  | lkpAdj (d : Iss) (rd : GReg) (ra : GReg) (rb : GReg)
  /-- Synchronous ACL search through the gallery's port, returning the governing match (R290). -/
  | aclSearch (d : Iss) (rd : GReg) (ra : GReg) (e : AclEnv)
  /-- Synchronous ACL search returning the first match after the cursor (R290). -/
  | aclSearchNext (d : Iss) (rd : GReg) (ra : GReg) (e : AclEnv)
  /-- An engine requests an Echo scan of packet bytes or gallery memory (R291). -/
  | echoScanRequest (d : Iss) (rd : GReg) (ra : GReg) (mem : Bool)
  /-- An engine requests an Echo step after a cursor (R291). -/
  | echoStepRequest (d : Iss) (rd : GReg) (ra : GReg) (mem : Bool)
  /-- Request a scratch buffer from a pool (R292). -/
  | hrdAlloc (d : Iss) (rd : GReg) (ra : GReg)
  /-- Release one reference to a scratch buffer, freeing it at zero, after Hoard's checks (R347). -/
  | hrdFree (d : Iss) (rd : GReg) (ra : GReg)
  /-- Add one reference to a scratch buffer, after Hoard's checks (R347). -/
  | hrdRef (d : Iss) (rd : GReg) (ra : GReg)
  /-- DMA copy of packet bytes into local memory (R293). -/
  | dmaPacketToLocal (d : Iss) (rd : GReg) (ra : GReg)
  /-- DMA copy of table-region bytes into local memory (R293). -/
  | dmaTableToLocal (d : Iss) (rd : GReg) (ra : GReg)
  /-- DMA copy of local memory into the engine data window (R293). -/
  | dmaLocalToTable (d : Iss) (rd : GReg) (ra : GReg)
  /-- DMA copy of scratch cell bytes into local memory (R293). -/
  | dmaCellToLocal (d : Iss) (rd : GReg) (ra : GReg)
  /-- DMA copy of local memory into a scratch cell (R293). -/
  | dmaLocalToCell (d : Iss) (rd : GReg) (ra : GReg)
  /-- Posted add to an engine counter pair (R294). -/
  | cnt (d : Iss) (ra : GReg) (rb : GReg)
  /-- Read the current stamp, time, seconds, tick or ingress stamp as IDX selects (R295). -/
  | time (d : Iss) (rd : GReg) (idx : BitVec 8)
  /-- Wait for one token and return its status (R296). -/
  | waitToken (d : Iss) (rd : GReg) (ra : GReg)
  /-- Wait for any token of a mask and return the lowest complete one (R296). -/
  | waitAny (d : Iss) (rd : GReg) (ra : GReg)
  /-- Wait for any event of a mask, return and clear the fired events (R296). -/
  | waitEvent (d : Iss) (rd : GReg) (ra : GReg)
  /-- Test whether a token is complete, optionally freeing it (R296). -/
  | test (d : Iss) (pd : PReg) (ra : GReg) (free : Bool)
  /-- Reserve words in a flue, waiting when it lacks space (R316). -/
  | fres (d : Iss) (ra : GReg) (idx : BitVec 8)
  /-- Stage a word of the thread's message in a flue (R317). -/
  | fput (d : Iss) (ra : GReg) (idx : BitVec 8)
  /-- Fence, then commit the staged words to a flue as one message (R317). -/
  | fcmt (d : Iss) (rd : GReg) (idx : BitVec 8)
  /-- Receiving thread reads the next committed word of a flue, waiting when empty (R318). -/
  | fget (d : Iss) (rd : GReg) (idx : BitVec 8)
  /-- Receiving thread reads the number of committed words not yet read (R318). -/
  | flen (d : Iss) (rd : GReg) (idx : BitVec 8)
  /-- Halt with cause SVC and notify the supervisor (R299). -/
  | svc (d : Iss) (code : BitVec 16)
  /-- End start-up or background work; the gallery enters service when every thread has done so (R277). -/
  | pktReady (d : Iss)
  /-- The packet continues to Passage or to its port after outstanding tokens complete (R297). -/
  | pktSend (d : Iss)
  /-- The packet is dropped and counted (R297). -/
  | pktDrop (d : Iss)
  /-- The packet is punted with a reason of 16–63 (R297). -/
  | pktPunt (d : Iss) (reason : BitVec 6)
  /-- Read a special register (R298). -/
  | mfs (d : Iss) (rd : GReg) (idx : BitVec 8)
  /-- Write a special register (R298). -/
  | mts (d : Iss) (ra : GReg) (idx : BitVec 8)
  /-- The supervisor reads NOTE and pops the head notification (R323). -/
  | notePop (d : Iss) (rd : GReg)
  /-- The supervisor writes a register of the selected halted thread (R323). -/
  | thrRegWrite (d : Iss) (ra : GReg)
  /-- THR_CMD RESUME runs the halted instruction again (R322). -/
  | thrResume (d : Iss) (ra : GReg)
  /-- THR_CMD SKIP continues at the next instruction (R322). -/
  | thrSkip (d : Iss) (ra : GReg)
  /-- THR_CMD JUMP continues at the given index (R322). -/
  | thrJump (d : Iss) (ra : GReg)
  /-- THR_CMD RESTART drops the thread's packet, frees its state and returns it to idle (R322). -/
  | thrRestart (d : Iss) (ra : GReg)
  /-- The supervisor posts SYNTH to chosen threads (R323). -/
  | synthPost (d : Iss) (ra : GReg)
  /-- The supervisor reclaims a halted thread's flue reservation (R319). -/
  | reclaim (d : Iss) (ra : GReg)
  /-- Wait until every posted store and counter update of the thread has taken effect (R282). -/
  | fence (d : Iss)
  /-- A thread issues an instruction with opcode 0x31–0x3F, which faults with FLT_ILLEGAL and notifies the supervisor (R303). -/
  | reservedOpcode (d : Iss) (w : Word)
  /-- A host write to a register that has no row of its own, applied under the access code of each field (R11). -/
  | registerWrite (a : BitVec 28) (v : Word)
  /-- A BAR0 access that is not 32 bits or not 4-byte aligned completes with Unsupported Request, is ignored and is logged as KIND 1 (R8). -/
  | bar0BadAccess (a : BitVec 28) (write : Bool)
  /-- A read of the low word of a 64-bit register latches its high word in the same cycle (R9). -/
  | lowWordRead (a : BitVec 28)
  /-- A write of the low word of a 64-bit register is held until the high word is written (R9). -/
  | lowWordWrite (a : BitVec 28) (v : Word)
  /-- A write of the high word of a 64-bit register changes the whole register, using any held low word (R9). -/
  | highWordWrite (a : BitVec 28) (v : Word)
  /-- A host read of an RC field returns the value and then clears it (R11). -/
  | rcRead (a : BitVec 28)
  /-- An access to a reserved BAR0 range reads zero, ignores the write and is recorded in GLB_ERR_LOG (R515). -/
  | reservedRangeAccess (a : BitVec 28) (w : Option Word)
  /-- An access to a block that is not served while DP_READY is 0 completes normally as zero or ignored (R85). -/
  | earlyBlockAccess (a : BitVec 28) (w : Option Word)
  /-- A BAR0 access to a partition under test completes as BUSY and is logged in BIS_BUSY_LOG (R506). -/
  | busyAccess (a : BitVec 28) (w : Option Word)
  /-- A Passage flit that fails its CRC is replayed from the sender's replay buffer, and the replay is counted (R20). -/
  | flitReplay (dir : Fin 2)
  /-- When one flit fails 16 consecutive replays, Passage is declared failed and the device enters SAFEHOLD (R20). -/
  | passageFail (dir : Fin 2)
  /-- A write of WRS_ADJ_FREQ sets DPLL A's frequency offset, clamped to ±100 ppm, or stores it while a PPS input is selected (R45). -/
  | adjFreqWrite (v : Word)
  /-- A write of the high word of WRS_ADJ_PHASE slews, steps or rejects a phase correction (R46). -/
  | phaseCorrection (v : Word)
  /-- A write of 1 to WRS_SET_CTRL.GO applies WRS_TIME_SET at once as a step, or arms it for the next PPS edge (R48). -/
  | timeSetGo (v : Word)
  /-- A rising edge on PPS_IN0 or PPS_IN1 is captured into WRS_PPS_IN_STAMP and applies any armed time-set (R43). -/
  | ppsInEdge (n : Fin 2)
  /-- A reference with no PPS edge for 1.5 s, or no clock activity for 10 µs, is lost, and the DPLL enters HOLDOVER or FREERUN or falls back to the other PPS input (R43). -/
  | refLost (r : Fin 5)
  /-- A reference that has been present and within limits for 2 s becomes qualified, and the DPLL moves to ACQUIRE (R43). -/
  | refQualified (r : Fin 5)
  /-- After 16 consecutive comparisons within limits, a DPLL moves from ACQUIRE to LOCKED (R42). -/
  | dpllLocked (b : Bool)
  /-- A pulse is driven on PPS_OUTn at each whole second of Windrose time plus OFFSET, when its conditions hold (R79). -/
  | ppsOutPulse (n : Fin 2)
  /-- Every WRS_CAL.INTERVAL ms, the lane delays are measured again without interrupting traffic (R59). -/
  | backgroundRecal (l : List LaneCal)
  /-- A write of CAD_CTRL.EN starts ticks at least 2 µs later, or stops them at once (R65). -/
  | cadEnWrite (v : Word)
  /-- A write of CAD_PERIOD is range-checked against CAD_PHASE and the lock, and is otherwise ignored with CFG_ERR (R64). -/
  | cadPeriodWrite (v : Word)
  /-- A write of CAD_PHASE is range-checked against CAD_PERIOD and the lock, and is otherwise ignored with CFG_ERR (R64). -/
  | cadPhaseWrite (v : Word)
  /-- An ASCENT step completes and the next starts; at step 8 the Keeper declares RUN (R80). -/
  | ascentStepDone (e : StepEnv)
  /-- MOD_CMD LULL is checked and starts LULL entry at once or at its tick (R88). -/
  | lull (atTick : Bool) (overtaken : Bool)
  /-- MOD_CMD WAKE is a host wake source that starts exit from LULL (R92). -/
  | wake (overtaken : Bool)
  /-- MOD_CMD PROBE, accepted in RUN, takes the device offline for destructive self-test (R501). -/
  | probe (overtaken : Bool)
  /-- MOD_CMD RESTART starts a cold restart, at once or at its tick (R75). -/
  | restart (atTick : Bool) (overtaken : Bool)
  /-- MOD_CMD SAFEHOLD puts the device in SAFEHOLD with reason HOST_SAFEHOLD (R75). -/
  | safehold (overtaken : Bool)
  /-- WAKE_N held low for at least 1 µs with WAKE_PIN_EN set starts exit from LULL (R92). -/
  | wakePin (low : Bool)
  /-- A write to MOD_BYP_CTRL that changes FORCE_CLOSEn or ENn closes a bypass or lets it start LOOP_CHECK (R97). -/
  | bypCtrlWrite (v : Word)
  /-- After the loop link has been up for SETTLE, the bypass moves from LOOP_CHECK to OPENING and BYPn_EN goes high (R96). -/
  | bypSettleExpired (n : Fin 2)
  /-- With no neighbour link within RELINK, BYPn_EN falls, FAILSn counts and the bypass enters BACKOFF (R96). -/
  | bypRelinkTimeout (n : Fin 2)
  /-- After RETRY in BACKOFF, the bypass returns to LOOP_CHECK (R96). -/
  | bypRetryExpired (n : Fin 2)
  /-- tBYP_HOLD after BYPn_EN falls, the tether transmitter is switched off (R97). -/
  | bypHoldExpired (n : Fin 2)
  /-- A PROBE step completes and the next starts; at P6 the results are stored and RESTART is submitted (R501). -/
  | probeStepDone (e : ProbeEnv)
  /-- Mailbox GET_INFO returns the life cycle, slots and versions (R137). -/
  | kprGetInfo (m : Mbx)
  /-- Mailbox IMG_BEGIN sets the type to IDLE and erases its inactive slot, or opens a token in Keeper memory (R122). -/
  | imgBegin (m : Mbx)
  /-- Mailbox IMG_DATA writes image bytes at the next contiguous offset (R122). -/
  | imgData (m : Mbx)
  /-- Mailbox IMG_END verifies the image under R119 and sets the type STAGED on success (R122). -/
  | imgEnd (m : Mbx)
  /-- Mailbox ARM arms a set of staged types for a COLD or WARM update (R123). -/
  | arm (m : Mbx)
  /-- Mailbox DISARM returns an armed set to STAGED (R123). -/
  | disarm (m : Mbx)
  /-- Mailbox CONFIRM from field firmware makes the trial slots active, moves the live settings half and raises the fuse counters (R125). -/
  | confirm (m : Mbx)
  /-- Mailbox REVERT ends a trial with HOST_REVERT and returns to the previous images (R126). -/
  | revert (m : Mbx)
  /-- Trial field firmware reports it cannot read the settings, and the Keeper reverts at once (R130). -/
  | settingsUnreadable (m : Mbx)
  /-- Mailbox SETTINGS_READ reads a key from the live half or the shadow (R129). -/
  | settingsRead (m : Mbx)
  /-- Mailbox SETTINGS_WRITE appends a record to the live half, or to the shadow during a trial (R128). -/
  | settingsWrite (m : Mbx)
  /-- Mailbox GET_CHALLENGE returns a new 32-byte nonce and discards the tokens held (R121). -/
  | getChallenge (m : Mbx)
  /-- Mailbox LC_PROVISION moves BLANK or RETURNED to PROVISIONED under a maker token (R105). -/
  | lcProvision (m : Mbx)
  /-- Mailbox LC_FIELD moves PROVISIONED to FIELD under an owner command (R105). -/
  | lcField (m : Mbx)
  /-- Mailbox LC_RETURN moves FIELD to RETURNED and zeroises owner material (R108). -/
  | lcReturn (m : Mbx)
  /-- Mailbox LC_SCRAP blows the SCRAPPED fuse and submits SAFEHOLD (R107). -/
  | lcScrap (m : Mbx)
  /-- Mailbox KEY_PROGRAM writes an owner key hash into an unprogrammed slot of the current bank (R106). -/
  | keyProgram (m : Mbx)
  /-- Mailbox KEY_REVOKE blows the revoke fuse of an owner slot (R106). -/
  | keyRevoke (m : Mbx)
  /-- Mailbox DEBUG_UNLOCK enables maker debug until the next cold start, under a maker token (R137). -/
  | debugUnlock (m : Mbx)
  /-- A frame is received whole, stamped, checked by the MAC and taken through the ingress pipeline (R146); its first bit came
`part`/32 ns after the present time (R38). -/
  | frameReceive (port : Fin 400) (lane : Fin 146) (f : Bytes) (e1 : PassEnv) (e2 : PassEnv) (part : Fin 32)
  /-- A condition of link up is lost, the frame in transmission is aborted and DOWN_HOLD starts (R148). -/
  | linkRawDown (p : Fin 146) (c : LinkCause)
  /-- All conditions of link up hold again, and UP_HOLD starts (R148). -/
  | linkRawUp (p : Fin 146) (cal : List LaneCal)
  /-- A loss lasting DOWN_HOLD makes LINK fall, counts LINK_DOWN, fires the port event and opens the port hold window (R148). -/
  | downHoldExpired (p : Fin 146)
  /-- A recovery lasting UP_HOLD makes LINK rise (R148). -/
  | upHoldExpired (p : Fin 146)
  /-- Writing ADMIN_UP 0 acts as a link loss and switches the transmitter off, and writing 1 starts the port (R149). -/
  | adminUpWrite (p : Fin 146) (v : Word)
  /-- Auto-negotiation completes, or leaves the port down with AN_FAIL (R145). -/
  | anComplete (p : Fin 146) (ok : Bool)
  /-- A start attempt passes the tUP or tUP_AN maximum and ends (R150). -/
  | portStartTimeout (p : Fin 146)
  /-- tRETRY after a failed attempt, the next start attempt begins (R150). -/
  | portRetryExpired (p : Fin 146)
  /-- A partner signal appears on a lane between attempts, and the next attempt begins at once (R150). -/
  | partnerSignal (p : Fin 146)
  /-- The pause timer of a priority runs out and its class may start frames again (R153). -/
  | pfcPauseExpired (p : Fin 146) (pri : Fin 8)
  /-- At the next frame boundary the MAC sends a PFC frame for XOFF, refresh or release (R154). -/
  | pfcFrameSend (p : Fin 144)
  /-- While XOFF persists, the MAC repeats the PFC frame every REFRESH (R154). -/
  | pfcRefresh (p : Fin 144)
  /-- A class paused for more than 100 ms sets the PFC_STORM event (R159). -/
  | pfcStorm (p : Fin 144) (t : Fin 8)
  /-- A lane's signal is detected for 100 µs or lost for 10 µs, which sets or clears dLOS (R163). -/
  | otnLaneSignal (g : Fin 18) (l : Fin 8) (ok : Bool)
  /-- An alignment process sees two consecutive valid frames or markers and goes into lock (R163). -/
  | otnAlignLock (g : Fin 18) (k : Fin 8) (p : AlignProc)
  /-- An alignment process sees five consecutive errored frames or markers and loses lock, with the processes below it (R163). -/
  | otnAlignLoss (g : Fin 18) (k : Fin 8) (p : AlignProc)
  /-- OOF or OOM persisting for 3 ms raises dLOF or dLOM, and in-frame persisting for 3 ms clears it (R164). -/
  | defectPersistence (g : Fin 18) (k : Fin 8) (lom : Bool)
  /-- The same TTI in three consecutive multiframes is accepted, and dTIM is raised or cleared (R166). -/
  | ttiAccept (g : Fin 18) (i : Fin 16) (tti : Bytes)
  /-- At the end of each second, BBE, ES, SES and UAS are evaluated for every monitored entity (R168). -/
  | pmSecondEnd (l : List PmObs)
  /-- A write to OTN_PM_SEL copies the selected bin into OTN_PM_DATA in one cycle (R172). -/
  | pmSelWrite (g : Fin 18) (v : Word)
  /-- A write of 1 to TSI_CTRL.GO checks the standby page and schedules a page switch for the tick (R177). -/
  | tsiGo (v : Word)
  /-- At the first multiframe boundary at or after the tick, a group's standby connections become active (R177). -/
  | tsiGroupSwitch (g : Fin 18) (k : Fin 8)
  /-- Indirect WRITE of a classification rule in three cycles, VALID last, in every slice of the mask (R200). -/
  | clsWrite (v : Word)
  /-- Indirect READ of a classification rule from the lowest-numbered slice in the mask (R201). -/
  | clsRead (v : Word)
  /-- Indirect INVALIDATE clears VALID of a classification rule (R200). -/
  | clsInvalidate (v : Word)
  /-- Table command INSERT adds an entry, relocating occupants along a chain of at most 8 moves (R226). -/
  | insert (h : CmdHdr) (a : TblArgs)
  /-- Table command DELETE marks an entry PEND_DEL for its generation (R241). -/
  | delete (h : CmdHdr) (a : TblArgs)
  /-- Table command MODIFY replaces an entry's content without relocation (R241). -/
  | modify (h : CmdHdr) (a : TblArgs)
  /-- Table command SEARCH returns the visible entry (R236). -/
  | search (h : CmdHdr) (a : TblArgs)
  /-- Table command NEXT returns up to COUNT entries after the cursor and the new cursor (R238). -/
  | next_ (h : CmdHdr) (a : TblArgs)
  /-- Table command FLUSH_PORT deletes the older non-STATIC entries learnt on a port (R239). -/
  | flushPort (h : CmdHdr) (a : TblArgs)
  /-- Table command NH_WRITE writes a next-hop in state FREE and makes it ACTIVE at its HBM write (R236). -/
  | nhWrite (h : CmdHdr) (a : TblArgs)
  /-- Table command ADJ_WRITE writes an adjacency in state FREE and makes it ACTIVE (R236). -/
  | adjWrite (h : CmdHdr) (a : TblArgs)
  /-- Table command ECMP_WRITE writes an ECMP group or member entry in one write (R230). -/
  | ecmpWrite (h : CmdHdr) (a : TblArgs)
  /-- Table command NH_DELETE sets a next-hop to DRAINING (R234). -/
  | nhDelete (h : CmdHdr) (a : TblArgs)
  /-- Table command ADJ_DELETE sets an adjacency to DRAINING (R234). -/
  | adjDelete (h : CmdHdr) (a : TblArgs)
  /-- Table command BATCH_OPEN returns a batch id (R236). -/
  | batchOpen (h : CmdHdr) (a : TblArgs)
  /-- Table command BATCH_SUBMIT queues a batch for staging and returns its write count and earliest tick (R242). -/
  | batchSubmit (h : CmdHdr) (a : TblArgs)
  /-- Table command BATCH_ABORT discards a batch not yet staging (R236). -/
  | batchAbort (h : CmdHdr) (a : TblArgs)
  /-- At its commit tick, every slice switches to the batch's generation and the FINAL response is written (R243). -/
  | batchCommit (id : BitVec 8)
  /-- A DRAINING entry whose in-flight count is zero after HOLDOFF becomes FREE and raises ADJ_FREED (R234). -/
  | adjFreed (adj : Bool) (i : BitVec 20)
  /-- Host command GET_INFO returns API version, build, versions, mode, topology, DEV_ID and unit ID (R476). -/
  | getInfo (h : CmdHdr)
  /-- Host command PING returns its argument bytes (R476). -/
  | ping (h : CmdHdr) (args : Bytes)
  /-- Host command REG_READ reads COUNT consecutive BAR0 words with their read side effects (R476). -/
  | regRead (h : CmdHdr) (o : BitVec 28) (n : Nat)
  /-- Host command REG_WRITE writes COUNT consecutive BAR0 words in order, outside refused ranges (R476). -/
  | regWrite (h : CmdHdr) (o : BitVec 28) (ws : List Word)
  /-- Host command CONFIRM_UPDATE makes field firmware send CONFIRM to the Keeper (R476). -/
  | confirmUpdate (h : CmdHdr) (nvm : Option Word)
  /-- Host command TIME_GET returns WRS_TIME, WRS_STATUS and CAD_TICK (R476). -/
  | timeGet (h : CmdHdr)
  /-- A servo and PTP profile command, defined by the servo firmware (R476). -/
  | servoCommand (h : CmdHdr) (op : BitVec 16)
  /-- Indirect WRITE of an ACL entry, its verify copy and backing copy in every slice of the mask (R257). -/
  | aclWrite (v : Word)
  /-- Indirect READ of an ACL entry from the lowest-numbered slice in the mask (R257). -/
  | aclRead (v : Word)
  /-- Indirect INVALIDATE of an ACL entry (R257). -/
  | aclInvalidate (v : Word)
  /-- Indirect STEP returns the next verified ACL match after the cursor (R258). -/
  | aclStep (v : Word) (e : AclEnv)
  /-- Indirect READ_CNT returns an ACL entry's hit counter (R262). -/
  | aclReadCnt (v : Word)
  /-- Every 64 cycles the scrubber compares one TCAM row with its verify copy and rewrites it if they differ (R261). -/
  | aclScrubRow (sl : Fin 8) (sees : ScrubSees)
  /-- An Echo scan completes and its result goes to the packet's token or the requesting thread (R269). -/
  | echoScanDone (g : Fin 8)
  /-- PAT_CTRL.LOAD checks an automaton image and starts copying it to the standby banks (R271). -/
  | patLoad (v : Word)
  /-- PAT_CTRL.SWAP exchanges active and standby banks, at once or at a tick (R272). -/
  | patSwap (v : Word)
  /-- A packet reaches a gallery's input and is dispatched, queued, or dropped when the queue is full (R306). -/
  | galleryInput (g : Fin 8)
  /-- A queued packet is dispatched to an idle worker, which receives G1–G3 and starts at its entry (R275). -/
  | packetDispatch (g : Fin 8)
  /-- A gallery's storage is cleared, GMEM copied and its threads started (R331). -/
  | galleryLoad (g : Fin 8)
  /-- Threads not all at PKT READY within 1 ms of the load fail it (R277). -/
  | galleryLoadTimeout (g : Fin 8)
  /-- A drain ends when no packet remains or after 10 ms, dropping held packets and reclaiming buffers (R332). -/
  | drainEnd (g : Fin 8)
  /-- A thread halted for GAL_LEASH.US while holding a reservation queues a LEASH notification per flue (R319). -/
  | leashExpired (c : ThrId)
  /-- The still-air condition holding for LIMIT cycles queues a notification and raises EG10 (R326). -/
  | stillAir (g : Fin 8)
  /-- A thread's compact time reaches its TIMER value and its TIMER event fires (R296). -/
  | threadTimer (c : ThrId)
  /-- A lookup request writes its result buffer and completes its token (R289). -/
  | lkpComplete (c : ThrId) (n : Fin 16) (ecc : Bool)
  /-- A Hoard request completes, for an ALLOC when a buffer is given to the waiter (R345). -/
  | hrdComplete (c : ThrId) (n : Fin 16)
  /-- A waiter that has waited STARVE_US sets POOL_STARVED and raises EG11 (R345). -/
  | poolStarved (k : Fin 10)
  /-- A DMA request finishes its copy and completes its token (R293). -/
  | dmaComplete (c : ThrId) (n : Fin 16) (ecc : Bool)
  /-- GAL_DBG_CTRL HALT stops a thread at its next instruction boundary (R333). -/
  | dbgHalt (c : ThrId)
  /-- GAL_DBG_CTRL STEP retires one instruction and halts again (R333). -/
  | dbgStep (c : ThrId)
  /-- GAL_DBG_CTRL RESUME resumes a debug-halted thread (R333). -/
  | dbgResume (c : ThrId)
  /-- GAL_DBG_CTRL RESTART restarts a thread, the supervisor included (R324). -/
  | dbgRestart (c : ThrId)
  /-- A free-pointer cache below 2,048 is refilled from HBM in reads of 64 pointers (R337). -/
  | stackCacheRefill (k : Fin 8) (bad : Nat)
  /-- A free-pointer cache above 6,144 spills to HBM in writes of 64 pointers (R337). -/
  | stackCacheSpill (k : Fin 8)
  /-- When a port can start a frame, its scheduler picks an eligible egress queue and plans the head frame against its gate (R378). -/
  | egressPortSelect (p : Fin 400)
  /-- A frame passes the egress edit and leaves the port with its egress stamp and PTP handling (R54). -/
  | portFrameTransmit (p : Fin 400) (lane : Fin 146)
  /-- At the end of the hold window without LINK rising, the port's egress frames are flushed (R362). -/
  | portHoldEnd (p : Fin 146)
  /-- Indirect QUE WRITE replaces a queue entry (R376). -/
  | queWrite (v : Word)
  /-- Indirect QUE READ returns a queue entry (R380). -/
  | queRead (v : Word)
  /-- Indirect QUE FLUSH starts dropping every packet of a suspended queue (R376). -/
  | queFlush (v : Word)
  /-- Indirect QUE READ_CNT returns a queue's counters (R380). -/
  | queReadCnt (v : Word)
  /-- Indirect SCH WRITE replaces a node entry (R376). -/
  | schWrite (v : Word)
  /-- Indirect SCH READ returns a node entry (R381). -/
  | schRead (v : Word)
  /-- Indirect SCH REBUILD recomputes a suspended node's discipline and clears its fair state (R369). -/
  | schRebuild (v : Word)
  /-- Indirect SCH READ_CNT returns a node's counters (R381). -/
  | schReadCnt (v : Word)
  /-- Indirect SHP WRITE stores new rates, bursts and mode (R388). -/
  | shpWrite (v : Word)
  /-- Indirect SHP READ returns a shaper or meter entry (R409). -/
  | shpRead (v : Word)
  /-- Indirect SHP INIT sets both buckets to their ceilings (R388). -/
  | shpInit (v : Word)
  /-- Indirect GAT WRITE of an administrative list entry or a stream context (R394). -/
  | gatWrite (v : Word)
  /-- Indirect GAT READ of an administrative entry or a context (R394). -/
  | gatRead (v : Word)
  /-- Indirect GAT READ_OPER of an operating list entry (R394). -/
  | gatReadOper (v : Word)
  /-- Indirect GAT WRITE_HDR of the administrative cycle, length and switch tick (R394). -/
  | gatWriteHdr (v : Word)
  /-- Indirect GAT READ_HDR of a list header (R410). -/
  | gatReadHdr (v : Word)
  /-- Indirect GAT SWITCH checks the administrative list and schedules it for SWITCH_TICK (R394). -/
  | gatSwitch (v : Word)
  /-- Indirect GAT CANCEL withdraws a pending switch (R394). -/
  | gatCancel (v : Word)
  /-- Indirect GAT RESTORE makes the administrative list operating at once with its recorded BASE (R394). -/
  | gatRestore (v : Word)
  /-- Indirect GAT READ_CNT returns a stream context's counters (R411). -/
  | gatReadCnt (v : Word)
  /-- Indirect GAT CLEAR clears a context's latched states and sets TAKE_ANY (R411). -/
  | gatClear (v : Word)
  /-- At SWITCH_TICK the administrative list becomes operating and cycle 0 starts (R394). -/
  | gateListSwitch (k : Nat)
  /-- The new operating list is copied back to the administrative list and PENDING clears (R394). -/
  | gateSwitchCopyDone (k : Nat)
  /-- A write of SHP_SOJ_SEL copies the current and previous sojourn marks (R408). -/
  | sojSelWrite (v : Word)
  /-- A fabric cell arrives, is checked and replayed if needed, and is resequenced or discarded (R428). -/
  | fabricCellReceive (i : Fin 192) (b : Bytes) (desc : Option Descr) (nak : Bool)
  /-- A source sends a REQ for a VOQ group when its backlog rises or changes (R422). -/
  | reqSend (n : Nat)
  /-- The egress side grants G cells to a requesting source when room allows (R423). -/
  | grantSend (p : Fin 400)
  /-- The receiver returns destination credit as cells leave resequencing (R424). -/
  | dcredSend (src : BitVec 11)
  /-- A VOQ group idle for IDLE_US forfeits its port credit with a FORFEIT REQ (R425). -/
  | voqForfeit (n : Nat)
  /-- In standalone use the egress side grants credit to the local loop (R432). -/
  | localLoopGrant (p : Fin 400)
  /-- A SEQ missing for tRSQ is skipped and the packet it cut is dropped (R429). -/
  | reseqGapTimeout (src : BitVec 11)
  /-- A failed active link stops carrying cells and its unacknowledged cells are resent elsewhere (R430). -/
  | fabricLinkFail (i : Fin 192)
  /-- A failed link retrains every second and on success becomes a trained spare (R431). -/
  | linkRetrain (i : Fin 192) (ok : Bool)
  /-- Indirect SVY WRITE_CFG writes a context's histogram configuration (R459). -/
  | svyWriteCfg (v : Word)
  /-- Indirect SVY READ_CFG returns a context's histogram configuration (R459). -/
  | svyReadCfg (v : Word)
  /-- Indirect SVY READ_HIST returns the completed window (R444). -/
  | svyReadHist (v : Word)
  /-- Indirect SVY READ_CUR returns the current window so far (R444). -/
  | svyReadCur (v : Word)
  /-- A write of PMC_CTRL.RUN starts or stops counting, at once or at PMC_TICK (R455). -/
  | pmcRunWrite (g : Fin 8) (v : Word)
  /-- A RUN write with AT_TICK takes effect at its tick (R455). -/
  | pmcRunTickDue (g : Fin 8)
  /-- A sampling counter reaching SAMPLE_AT restarts and pushes a sample into the FIFO (R457). -/
  | pmcSample (g : Fin 8) (e : Fin 8) (n : Fin 8) (t : Fin 8) (idx : BitVec 16)
  /-- A read of the low word of PMC_SFIFO pops the head sample (R457). -/
  | pmcSfifoPop (g : Fin 8)
  /-- An FLR, hot reset or link loss disables every ring, resets HST and EVT and clears the MSI-X table (R463). -/
  | functionLevelReset (k : ResetKind)
  /-- A BAR2 read returns table-region bytes, poisoned on an uncorrectable error (R465). -/
  | bar2Read (o : BitVec 32) (n : Nat) (ecc : Bool)
  /-- A BAR2 write takes effect only in the staging area or engine windows and is otherwise denied (R466). -/
  | bar2Write (o : BitVec 32) (b : Bytes)
  /-- A write of EN from 0 to 1 resets the ring's indices and clears STOPPED (R470). -/
  | ringEnable (i : Fin 72) (v : Word)
  /-- A write of EN 0 stops the ring after the entry in progress (R470). -/
  | ringDisable (i : Fin 72)
  /-- A failed or timed-out ring DMA stops the ring and records the error (R471). -/
  | dmaError (i : Fin 72) (addr : BitVec 64)
  /-- An inject record is taken from its ring in rotation and sent to an egress queue or the ingress pipeline (R480). -/
  | injectRecord (r : Fin 32) (b : Bytes) (e1 : PassEnv) (e2 : PassEnv)
  /-- When HOLDOFF_US ends after a trigger, the vector sends its deferred message (R486). -/
  | msixHoldoffExpired (v : Fin 256)
  /-- Unmasking a vector with a pending PBA bit sends one message (R486). -/
  | msixUnmask (u : Unmask)
  /-- A write of EVT_FORCE raises each selected source once as a pulse (R489). -/
  | evtForce (i : Fin 8) (v : Word)
  /-- An event frame with the digest goes to the tether master, spaced by HOLDOFF_MS (R483). -/
  | tmgmtEventFrame (n : Fin 2)
  /-- An I2C write sets the 8-bit register pointer (R484). -/
  | i2cPointerWrite (v : BitVec 8)
  /-- An I2C read returns 16-bit registers and advances the pointer (R484). -/
  | i2cRegisterRead (n : Nat)
  /-- A write of BIS_GTEST_CTRL.GO requests an online gallery test, at once or at a tick (R503). -/
  | gtestGo (v : Word)
  /-- An online gallery test step completes and the next starts, ending in service or FAILED (R504). -/
  | gtestStepDone (e : TestRes)
  /-- A row of HBM shows a correctable error, or an uncorrectable one and what reads it; a failing row is copied to a remap row, which takes
  over when the copy ends (R500). -/
  | hbmRowRemap (x : HbmFail) (ue : Option EccKind)
  /-- Background scrubbers read every on-die memory once per second and correct errors (R507). -/
  | eccScrub (mem : BitVec 17) (addr : BitVec 26) (k : EccKind) (ue : Bool)
  /-- A write of BIS_MEM_SEL loads the BIS_MEM_INFO words of that instance in one cycle (R493). -/
  | bisMemSelWrite (v : Word)
  /-- A rail below its UV threshold for 2 µs acts as an assertion of PORST_N (R526). -/
  | railUndervoltage (i : Fin 7)
  /-- Each thermal sensor takes its periodic reading (R540). -/
  | thermalReading (l : List (Fin 16 × BitVec 16))
  /-- An interval of an operating gate control list ends at its instant of Windrose time, the gate states change and held frames of newly opened gates are considered again (R393). -/
  | gateIntervalEnd (k : Nat)
  /-- A supply rail comes back above its UV threshold while PORST_N is high, and ASCENT starts tPOR after the last of the three start conditions holds (R525). -/
  | railInRange (i : Fin 7)
  /-- A ring index shadow write held back by the 100 ns spacing is written when the spacing ends, so the last value always reaches host memory (R469). -/
  | indexShadowWrite (i : Fin 72)
  /-- Field firmware takes a command whose OPCODE is not in the command table and answers it with CMD_UNKNOWN (R475). -/
  | commandUnknown (h : CmdHdr) (op : BitVec 16)
  /-- A write of MOD_CMD with a CMD value outside 0x1–0x5 completes with REJ_UNKNOWN and raises an EG3 event (R101). -/
  | modCmdUnknown (cmd : BitVec 4)
  /-- An IND_CMD write with an OP value the block does not define completes with its BAD_ARG error and changes nothing (R382). -/
  | indCmdBadOp (b : IndBlock) (v : Word)
  /-- An instruction loaded through the IEEE 1149.1 TAP takes effect, or selects BYPASS when the life-cycle state forbids it (R534). -/
  | tapInstruction (i : TapInstr)
  /-- A slew finishes applying its correction, and SLEWING clears (R46). -/
  | slewComplete
  /-- A read of WRS_TSF at 0x0AC pops the head entry of the two-step FIFO (R53). -/
  | tsfPop
  /-- A read of WRS_TIME at 0x010 latches all four time words in the same cycle (R36). -/
  | timeReadLatch
  /-- Cadence issues tick n at its instant and every tick-driven unit starts that tick's work (R63). -/
  | tick
  /-- Assertion of PORST_N puts the device in DORMANT and drives the bypass pins low (R75). -/
  | porstAssert
  /-- Release of PORST_N with rails and SYSCLK good starts ASCENT tPOR later, unless the device is SCRAPPED (R525). -/
  | porstRelease
  /-- ASCENT step 6 ends 3.0 s after it began, even if some line ports are not up (R80). -/
  | lineStartTimeout
  /-- ASCENT step 7 ends 0.5 s after it began, even if the tether links are not up (R80). -/
  | tetherStartTimeout
  /-- A MOD_CMD submitted with AT_TICK is carried out at its named tick, or at the next one with TICK_LATE (R88). -/
  | modCmdTickDue
  /-- LULL entry steps E2–E6 finish, and the mode becomes LULL at E7 (R89). -/
  | lullEntryComplete
  /-- Reaching tick MOD_WAKE_TICK with WAKE_TICK_EN set starts exit from LULL (R92). -/
  | wakeTick
  /-- Wake steps W1–W5 finish, and at W6 the lull path drains, the tether MACs switch back and RUN is declared (R93). -/
  | lullExitComplete
  /-- After RUN resumes, GAL0 is loaded with its normal program and steering of S0 to GAL1 ends (R94). -/
  | gal0Return
  /-- After 600 s without a break in RUN, MOD_RSQ.COUNT is cleared (R76). -/
  | rsqCountClear
  /-- The hardware watchdog expires after tWD without service, a Keeper failure that RSQ handles (R511). -/
  | watchdogExpiry
  /-- The Keeper checker finds a difference between the two cores, a Keeper failure that RSQ handles (R511). -/
  | lockstepMiscompare
  /-- Clearing of a newly powered domain completes, and reads stalled on it proceed (R86). -/
  | memClearDone
  /-- The confirmation window ends without CONFIRM, and the Keeper reverts with WINDOW_EXPIRED (R126). -/
  | confirmWindowExpired
  /-- A set armed WARM starts its warm swap, at once or at its named tick (R133). -/
  | warmSwapStart
  /-- A warm swap step completes and the next starts; at step 6 the swap ends and the window starts (R133). -/
  | warmSwapStepDone
  /-- A warm swap step passes its maximum, the swap fails with SWAP_FAIL and a warm swap back starts (R134). -/
  | swapStepTimeout
  /-- At a 15-minute or day closing instant, the PM bins roll over in one cycle (R169). -/
  | pmBinClose
  /-- When every group has switched, the active page is copied to standby and PENDING clears (R177). -/
  | tsiSwitchDone
  /-- Each microsecond of Windrose time, every punt bucket gains RATE units up to its ceiling (R204). -/
  | puntRefill
  /-- After the commit tick plus 2 µs, PEND_ADD entries become LIVE and PEND_DEL entries are freed (R241). -/
  | batchSettle
  /-- A single-entry content write commits at the first tick after it is staged (R244). -/
  | singleEntryCommit
  /-- The automaton copy into the standby banks completes (R271). -/
  | patLoadDone
  /-- A swap requested with AT_TICK takes effect at its tick (R272). -/
  | patSwapDue
  /-- A packet arriving on the TM die is processed by the stream unit and admitted, pushed in, held in headroom or dropped (R353). -/
  | packetAdmit
  /-- The hierarchy selects a packet from an outlet down to a queue, charges shapers and sends its cells (R372). -/
  | schedulerSelect
  /-- A packet's cells arrive at the egress buffer and it enters its egress queue, or is dropped for a flushed port (R378). -/
  | egressCellArrival
  /-- A queue flush finishes and BUSY clears (R376). -/
  | queFlushDone
  /-- A REBUILD completes within 1 µs and BUSY clears (R369). -/
  | schRebuildDone
  /-- Tradewind sends a cell on a link slot, sprayed in rotation, CTRL before DATA (R417). -/
  | fabricCellSend
  /-- Every tREFRESH, cumulative REQ, GRANT and DCRED counts are sent again (R422). -/
  | creditRefresh
  /-- The lowest trained spare link becomes active within tSPARE (R430). -/
  | spareActivate
  /-- A waiting dump-ring record is written once the ring has room (R451). -/
  | dumpRecordWrite
  /-- In D3hot the device serves no ring and sends no message until return to D0 (R463). -/
  | d3hotEntry
  /-- An I2C RECOVERY write of RESTART acts as MOD_CMD RESTART in RETURNED (R484). -/
  | i2cRecoveryRestart
  /-- An I2C RECOVERY write of SAFEHOLD acts as MOD_CMD SAFEHOLD in RETURNED (R484). -/
  | i2cRecoverySafehold
  /-- Every GTEST_AUTO_S seconds the Keeper requests a test of the next gallery (R503). -/
  | gtestAuto
  /-- A gallery test requested with AT_TICK starts at its tick (R503). -/
  | gtestTickDue
  /-- A low-word read of BIS_FAIL_LOG pops the head record (R494). -/
  | failLogPop
  /-- A low-word read of BIS_HBM_LOG pops the head record (R513). -/
  | hbmLogPop
  /-- SYSCLK absent or off by more than 1,000 ppm acts as an assertion of PORST_N (R529). -/
  | sysclkFail
  /-- TCXO_IN absent or out of limits clears REF_OK[4] and puts both DPLLs in HOLDOVER (R529). -/
  | tcxoFail
  /-- After every valid sensor reads below 97 °C for 1 s, THERM_TRIP_N is released (R542). -/
  | thermTripRelease
  /-- SYSCLK becomes present and within limits again after a failure, and ASCENT follows under R525 tPOR later (R529). -/
  | sysclkStable
  /-- The PCIe function returns from D3hot to D0 and rings and messages resume (R463). -/
  | returnToD0
  /-- During a trial, KPR_UPD.WIN_LEFT reaches 60 seconds and the EG0 source WINDOW_LOW is raised (R489). -/
  | windowLow
  deriving DecidableEq, Repr

end Sys2Proof
end

