-- ==== Sys2Proof/Decode.lean ====
section
/-! DEFINITION. The instruction words of the engines (R301–R304): encoder and decoder. The opcode table gives its rows no
bits, so `decodeTableWord` answers none; engine instructions reach the block as commands, and the word each stands for is the
one the thread fetches. -/

namespace Sys2Proof

open Machine

/-! ### Formats (R301) -/

/-- Bits [31:22]: inverted guard, guard predicate, opcode. -/
def encHead (d : Iss) (op : Nat) : Nat := b2n d.pn * 2147483648 + d.pg.toNat * 268435456 + op * 4194304

/-- Format A. -/
def encA (d : Iss) (op : Nat) (rd ra rb : GReg) (fn : Nat) : Nat :=
  encHead d op + rd.toNat * 131072 + ra.toNat * 4096 + rb.toNat * 128 + fn

/-- Format I. -/
def encI (d : Iss) (op : Nat) (rd ra : GReg) (imm : Nat) : Nat := encHead d op + rd.toNat * 131072 + ra.toNat * 4096 + imm

/-- Format M. -/
def encM (d : Iss) (op : Nat) (rd ra : GReg) (sz : BitVec 2) (ofs : BitVec 10) : Nat :=
  encHead d op + rd.toNat * 131072 + ra.toNat * 4096 + sz.toNat * 1024 + ofs.toNat

/-- Format W. -/
def encW (d : Iss) (op : Nat) (rd : GReg) (x : Bool) (imm : BitVec 16) : Nat :=
  encHead d op + rd.toNat * 131072 + b2n x * 65536 + imm.toNat

/-- Format F. -/
def encF (d : Iss) (op : Nat) (rd ra : GReg) (pos len : BitVec 6) : Nat :=
  encHead d op + rd.toNat * 131072 + ra.toNat * 4096 + pos.toNat * 64 + len.toNat

/-- Format C; `fn` stands in [3:0] (TEST, log entry 73). -/
def encC (d : Iss) (op : Nat) (pd : PReg) (cb : BitVec 2) (ra rb : GReg) (cc : BitVec 3) (fn : Nat) : Nat :=
  encHead d op + pd.toNat * 524288 + cb.toNat * 131072 + ra.toNat * 4096 + rb.toNat * 128 + cc.toNat * 16 + fn

/-- Format K. -/
def encK (d : Iss) (pd : PReg) (cb : BitVec 2) (ra : GReg) (cc : BitVec 3) (imm : BitVec 9) : Nat :=
  encHead d 0x0B + pd.toNat * 524288 + cb.toNat * 131072 + ra.toNat * 4096 + cc.toNat * 512 + imm.toNat

/-- Format P. -/
def encP (d : Iss) (pd pa pb : PReg) (pf : BitVec 3) : Nat :=
  encHead d 0x0C + pd.toNat * 524288 + pa.toNat * 65536 + pb.toNat * 8192 + pf.toNat * 1024

/-- Format B. -/
def encB (d : Iss) (op : Nat) (ofs : BitVec 22) : Nat := encHead d op + ofs.toNat

/-- Format S. -/
def encS (d : Iss) (op : Nat) (rd ra : GReg) (idx fn : Nat) : Nat :=
  encHead d op + rd.toNat * 131072 + ra.toNat * 4096 + idx * 16 + fn

/-- The word of an engine instruction; none for every other command. -/
def encodeEngine : Instr → Option Nat
  | .add d rd ra rb => some (encA d 0x00 rd ra rb 0x00)
  | .sub d rd ra rb => some (encA d 0x00 rd ra rb 0x01)
  | .and_ d rd ra rb => some (encA d 0x00 rd ra rb 0x02)
  | .or_ d rd ra rb => some (encA d 0x00 rd ra rb 0x03)
  | .xor_ d rd ra rb => some (encA d 0x00 rd ra rb 0x04)
  | .andn d rd ra rb => some (encA d 0x00 rd ra rb 0x05)
  | .sll d rd ra rb => some (encA d 0x00 rd ra rb 0x06)
  | .srl d rd ra rb => some (encA d 0x00 rd ra rb 0x07)
  | .sra d rd ra rb => some (encA d 0x00 rd ra rb 0x08)
  | .rol d rd ra rb => some (encA d 0x00 rd ra rb 0x09)
  | .ror d rd ra rb => some (encA d 0x00 rd ra rb 0x0A)
  | .mul d rd ra rb => some (encA d 0x00 rd ra rb 0x0B)
  | .mulhu d rd ra rb => some (encA d 0x00 rd ra rb 0x0C)
  | .min_ d rd ra rb => some (encA d 0x00 rd ra rb 0x0D)
  | .max_ d rd ra rb => some (encA d 0x00 rd ra rb 0x0E)
  | .minu d rd ra rb => some (encA d 0x00 rd ra rb 0x0F)
  | .maxu d rd ra rb => some (encA d 0x00 rd ra rb 0x10)
  | .clz d rd ra => some (encA d 0x00 rd ra 0 0x11)
  | .ctz d rd ra => some (encA d 0x00 rd ra 0 0x12)
  | .popc d rd ra => some (encA d 0x00 rd ra 0 0x13)
  | .bswap64 d rd ra => some (encA d 0x00 rd ra 0 0x14)
  | .bswap32 d rd ra => some (encA d 0x00 rd ra 0 0x15)
  | .bswap16 d rd ra => some (encA d 0x00 rd ra 0 0x16)
  | .add32 d rd ra rb => some (encA d 0x00 rd ra rb 0x17)
  | .sub32 d rd ra rb => some (encA d 0x00 rd ra rb 0x18)
  | .csum16 d rd ra rb => some (encA d 0x00 rd ra rb 0x19)
  | .addi d rd ra imm => some (encI d 0x01 rd ra imm.toNat)
  | .andi d rd ra imm => some (encI d 0x02 rd ra imm.toNat)
  | .ori d rd ra imm => some (encI d 0x03 rd ra imm.toNat)
  | .xori d rd ra imm => some (encI d 0x04 rd ra imm.toNat)
  | .shi d rd ra sel amt => some (encI d 0x05 rd ra (sel.toNat * 512 + amt.toNat))
  | .movi d rd x imm => some (encW d 0x06 rd x imm)
  | .movk1 d rd imm => some (encW d 0x07 rd false imm)
  | .movk2 d rd imm => some (encW d 0x08 rd false imm)
  | .movk3 d rd imm => some (encW d 0x09 rd false imm)
  | .cmp d pd cb ra rb cc => some (encC d 0x0A pd cb ra rb cc 0)
  | .cmpi d pd cb ra cc imm => some (encK d pd cb ra cc imm)
  | .pset d pd pa pb pf => some (encP d pd pa pb pf)
  | .br d ofs => some (encB d 0x0D ofs)
  | .call d ofs => some (encB d 0x0E ofs)
  | .jr d ra => some (encA d 0x0F 0 ra 0 0)
  | .ext d rd ra pos lenm1 => some (encF d 0x10 rd ra pos lenm1)
  | .exts d rd ra pos lenm1 => some (encF d 0x11 rd ra pos lenm1)
  | .ins d rd ra pos lenm1 => some (encF d 0x12 rd ra pos lenm1)
  | .extv d rd ra rb sgn => some (encA d 0x13 rd ra rb (b2n sgn))
  | .hwl d r ra sz ofs => some (encM d 0x14 r ra sz ofs)
  | .hws d r ra sz ofs => some (encM d 0x15 r ra sz ofs)
  | .hwadj d rd ra imm => some (encI d 0x16 rd ra imm.toNat)
  | .mdl d rd idx => some (encS d 0x17 rd 0 idx.toNat 0)
  | .mds d ra idx => some (encS d 0x18 0 ra idx.toNat 0)
  | .ld d r ra sz ofs => some (encM d 0x19 r ra sz ofs)
  | .st d r ra sz ofs _ => some (encM d 0x1A r ra sz ofs)
  | .ldx d rd ra rb sz => some (encA d 0x1B rd ra rb sz.toNat)
  | .stx d r ra rb sz _ => some (encA d 0x1C r ra rb sz.toNat)
  | .atomAdd d rd ra rb dbl => some (encA d 0x1D rd ra rb (0 + 8 * b2n dbl))
  | .atomAnd d rd ra rb dbl => some (encA d 0x1D rd ra rb (1 + 8 * b2n dbl))
  | .atomOr d rd ra rb dbl => some (encA d 0x1D rd ra rb (2 + 8 * b2n dbl))
  | .atomXor d rd ra rb dbl => some (encA d 0x1D rd ra rb (3 + 8 * b2n dbl))
  | .atomSwap d rd ra rb dbl => some (encA d 0x1D rd ra rb (4 + 8 * b2n dbl))
  | .atomUmin d rd ra rb dbl => some (encA d 0x1D rd ra rb (5 + 8 * b2n dbl))
  | .atomUmax d rd ra rb dbl => some (encA d 0x1D rd ra rb (6 + 8 * b2n dbl))
  | .atomCas d rd ra rb dbl => some (encA d 0x1D rd ra rb (7 + 8 * b2n dbl))
  | .lkpEm d rd ra rb tbl => some (encA d 0x1E rd ra rb tbl.toNat)
  | .lkpLpm d rd ra rb => some (encA d 0x1E rd ra rb 0x10)
  | .lkpNh d rd ra rb => some (encA d 0x1E rd ra rb 0x20)
  | .lkpEcmpGroup d rd ra rb => some (encA d 0x1E rd ra rb 0x30)
  | .lkpEcmpMember d rd ra rb => some (encA d 0x1E rd ra rb 0x40)
  | .lkpAdj d rd ra rb => some (encA d 0x1E rd ra rb 0x50)
  | .aclSearch d rd ra _ => some (encA d 0x1F rd ra 0 0)
  | .aclSearchNext d rd ra _ => some (encA d 0x1F rd ra 0 1)
  | .echoScanRequest d rd ra mem => some (encA d 0x20 rd ra 0 (b2n mem))
  | .echoStepRequest d rd ra mem => some (encA d 0x20 rd ra 0 (2 + b2n mem))
  | .hrdAlloc d rd ra => some (encA d 0x21 rd ra 0 0)
  | .hrdFree d rd ra => some (encA d 0x21 rd ra 0 1)
  | .hrdRef d rd ra => some (encA d 0x21 rd ra 0 2)
  | .dmaPacketToLocal d rd ra => some (encA d 0x22 rd ra 0 0)
  | .dmaTableToLocal d rd ra => some (encA d 0x22 rd ra 0 1)
  | .dmaLocalToTable d rd ra => some (encA d 0x22 rd ra 0 2)
  | .dmaCellToLocal d rd ra => some (encA d 0x22 rd ra 0 3)
  | .dmaLocalToCell d rd ra => some (encA d 0x22 rd ra 0 4)
  | .cnt d ra rb => some (encA d 0x23 0 ra rb 0)
  | .time d rd idx => some (encS d 0x24 rd 0 idx.toNat 0)
  | .waitToken d rd ra => some (encA d 0x25 rd ra 0 0)
  | .waitAny d rd ra => some (encA d 0x25 rd ra 0 1)
  | .waitEvent d rd ra => some (encA d 0x25 rd ra 0 2)
  | .test d pd ra free => some (encC d 0x26 pd 0 ra 0 0 (b2n free))
  | .fres d ra idx => some (encS d 0x27 0 ra idx.toNat 0)
  | .fput d ra idx => some (encS d 0x28 0 ra idx.toNat 0)
  | .fcmt d rd idx => some (encS d 0x29 rd 0 idx.toNat 0)
  | .fget d rd idx => some (encS d 0x2A rd 0 idx.toNat 0)
  | .flen d rd idx => some (encS d 0x2B rd 0 idx.toNat 0)
  | .svc d code => some (encW d 0x2C 0 false code)
  | .pktReady d => some (encS d 0x2D 0 0 0 0)
  | .pktSend d => some (encS d 0x2D 0 0 0 1)
  | .pktDrop d => some (encS d 0x2D 0 0 0 2)
  | .pktPunt d reason => some (encS d 0x2D 0 0 reason.toNat 3)
  | .mfs d rd idx => some (encS d 0x2E rd 0 idx.toNat 0)
  | .mts d ra idx => some (encS d 0x2F 0 ra idx.toNat 0)
  | .notePop d rd => some (encS d 0x2E rd 0 0x10 0)
  | .thrRegWrite d ra => some (encS d 0x2F 0 ra 0x13 0)
  | .thrResume d ra => some (encS d 0x2F 0 ra 0x14 0)
  | .thrSkip d ra => some (encS d 0x2F 0 ra 0x14 0)
  | .thrJump d ra => some (encS d 0x2F 0 ra 0x14 0)
  | .thrRestart d ra => some (encS d 0x2F 0 ra 0x14 0)
  | .synthPost d ra => some (encS d 0x2F 0 ra 0x15 0)
  | .reclaim d ra => some (encS d 0x2F 0 ra 0x16 0)
  | .fence d => some (encA d 0x30 0 0 0 0)
  | _ => none

/-- The word an instruction is fetched as: its encoding, and of a reserved opcode the word itself. -/
def engWord : Instr → Option Nat
  | .reservedOpcode _ w => some w.toNat
  | i => encodeEngine i

/-! ### Decoder (R301–R304) -/

/-- What a word does not say of an engine instruction: its thread, whether a read meets an uncorrectable error, whether its
store loses to the completion port, the soft errors of its ACL search. -/
structure EngEnv where
  c : ThrId
  ecc : Bool
  lost : Bool
  acl : AclEnv
  deriving DecidableEq, Repr

/-- Bits [hi:lo] of a word. -/
def fieldOf (w hi lo : Nat) : Nat := w / 2 ^ lo % 2 ^ (hi + 1 - lo)

/-- The one-word ALU functions of R304. -/
def decodeAlu (d : Iss) (rd ra rb : GReg) : Nat → Option Instr
  | 0 => some (.add d rd ra rb)
  | 1 => some (.sub d rd ra rb)
  | 2 => some (.and_ d rd ra rb)
  | 3 => some (.or_ d rd ra rb)
  | 4 => some (.xor_ d rd ra rb)
  | 5 => some (.andn d rd ra rb)
  | 6 => some (.sll d rd ra rb)
  | 7 => some (.srl d rd ra rb)
  | 8 => some (.sra d rd ra rb)
  | 9 => some (.rol d rd ra rb)
  | 10 => some (.ror d rd ra rb)
  | 11 => some (.mul d rd ra rb)
  | 12 => some (.mulhu d rd ra rb)
  | 13 => some (.min_ d rd ra rb)
  | 14 => some (.max_ d rd ra rb)
  | 15 => some (.minu d rd ra rb)
  | 16 => some (.maxu d rd ra rb)
  | 17 => if rb = 0 then some (.clz d rd ra) else none
  | 18 => if rb = 0 then some (.ctz d rd ra) else none
  | 19 => if rb = 0 then some (.popc d rd ra) else none
  | 20 => if rb = 0 then some (.bswap64 d rd ra) else none
  | 21 => if rb = 0 then some (.bswap32 d rd ra) else none
  | 22 => if rb = 0 then some (.bswap16 d rd ra) else none
  | 23 => some (.add32 d rd ra rb)
  | 24 => some (.sub32 d rd ra rb)
  | 25 => some (.csum16 d rd ra rb)
  | _ => none

/-- The functions of ATOM (R304); FN[6:4] is zero. -/
def decodeAtom (d : Iss) (rd ra rb : GReg) (fn : Nat) : Option Instr :=
  if 16 ≤ fn then none else
  let dbl := decide (8 ≤ fn)
  match fn % 8 with
  | 0 => some (.atomAdd d rd ra rb dbl)
  | 1 => some (.atomAnd d rd ra rb dbl)
  | 2 => some (.atomOr d rd ra rb dbl)
  | 3 => some (.atomXor d rd ra rb dbl)
  | 4 => some (.atomSwap d rd ra rb dbl)
  | 5 => some (.atomUmin d rd ra rb dbl)
  | 6 => some (.atomUmax d rd ra rb dbl)
  | _ => some (.atomCas d rd ra rb dbl)

/-- The kinds of LKP (R289). -/
def decodeLkp (d : Iss) (rd ra rb : GReg) (fn : Nat) : Option Instr :=
  if fn < 16 then some (.lkpEm d rd ra rb (BitVec.ofNat 4 fn)) else
  match fn with
  | 0x10 => some (.lkpLpm d rd ra rb)
  | 0x20 => some (.lkpNh d rd ra rb)
  | 0x30 => some (.lkpEcmpGroup d rd ra rb)
  | 0x40 => some (.lkpEcmpMember d rd ra rb)
  | 0x50 => some (.lkpAdj d rd ra rb)
  | _ => none

/-- The one-operand requests ACL, ECHO, HRD, DMA and WAIT. -/
def decodeReq (v : EngEnv) (d : Iss) (rd ra : GReg) (op fn : Nat) : Option Instr :=
  match op, fn with
  | 0x1F, 0 => some (.aclSearch d rd ra v.acl)
  | 0x1F, 1 => some (.aclSearchNext d rd ra v.acl)
  | 0x20, 0 => some (.echoScanRequest d rd ra false)
  | 0x20, 1 => some (.echoScanRequest d rd ra true)
  | 0x20, 2 => some (.echoStepRequest d rd ra false)
  | 0x20, 3 => some (.echoStepRequest d rd ra true)
  | 0x21, 0 => some (.hrdAlloc d rd ra)
  | 0x21, 1 => some (.hrdFree d rd ra)
  | 0x21, 2 => some (.hrdRef d rd ra)
  | 0x22, 0 => some (.dmaPacketToLocal d rd ra)
  | 0x22, 1 => some (.dmaTableToLocal d rd ra)
  | 0x22, 2 => some (.dmaLocalToTable d rd ra)
  | 0x22, 3 => some (.dmaCellToLocal d rd ra)
  | 0x22, 4 => some (.dmaLocalToCell d rd ra)
  | 0x25, 0 => some (.waitToken d rd ra)
  | 0x25, 1 => some (.waitAny d rd ra)
  | 0x25, 2 => some (.waitEvent d rd ra)
  | _, _ => none

/-- The dispositions of PKT (R297). -/
def decodePkt (d : Iss) (idx fn : Nat) : Option Instr :=
  match fn with
  | 0 => if idx = 0 then some (.pktReady d) else none
  | 1 => if idx = 0 then some (.pktSend d) else none
  | 2 => if idx = 0 then some (.pktDrop d) else none
  | 3 => if idx < 64 then some (.pktPunt d (BitVec.ofNat 6 idx)) else none
  | _ => none

/-- `i` when `b` holds. -/
def guardI (b : Bool) (i : Instr) : Option Instr := if b then some i else none

/-- The instruction a word spells (R301–R304); none for a word that faults with FLT_ILLEGAL, or LKP of kind 6 or 7. A field
the operation does not use is zero (log entry 73). -/
def decodeEngine (v : EngEnv) (w : Nat) : Option Instr :=
  let d : Iss := ⟨v.c, decide (fieldOf w 31 31 = 1), BitVec.ofNat 3 (fieldOf w 30 28), v.ecc⟩
  let op := fieldOf w 27 22
  let rd : GReg := BitVec.ofNat 5 (fieldOf w 21 17)
  let ra : GReg := BitVec.ofNat 5 (fieldOf w 16 12)
  let rb : GReg := BitVec.ofNat 5 (fieldOf w 11 7)
  let fn := fieldOf w 6 0
  let imm := BitVec.ofNat 12 (fieldOf w 11 0)
  let sz : BitVec 2 := BitVec.ofNat 2 (fieldOf w 11 10)
  let ofs : BitVec 10 := BitVec.ofNat 10 (fieldOf w 9 0)
  let x := decide (fieldOf w 16 16 = 1)
  let i16 : BitVec 16 := BitVec.ofNat 16 (fieldOf w 15 0)
  let pos : BitVec 6 := BitVec.ofNat 6 (fieldOf w 11 6)
  let len : BitVec 6 := BitVec.ofNat 6 (fieldOf w 5 0)
  let fits := decide (fieldOf w 11 6 + fieldOf w 5 0 ≤ 63)
  let pd : PReg := BitVec.ofNat 3 (fieldOf w 21 19)
  let cb : BitVec 2 := BitVec.ofNat 2 (fieldOf w 18 17)
  let idx : BitVec 8 := BitVec.ofNat 8 (fieldOf w 11 4)
  let sfn := fieldOf w 3 0
  let noRd := decide (fieldOf w 21 17 = 0)
  let noRa := decide (fieldOf w 16 12 = 0)
  let noRb := decide (fieldOf w 11 7 = 0)
  match op with
  | 0x00 => decodeAlu d rd ra rb fn
  | 0x01 => some (.addi d rd ra imm)
  | 0x02 => some (.andi d rd ra imm)
  | 0x03 => some (.ori d rd ra imm)
  | 0x04 => some (.xori d rd ra imm)
  | 0x05 => guardI (decide (fieldOf w 11 9 < 4) && decide (fieldOf w 8 6 = 0)) (.shi d rd ra (BitVec.ofNat 3 (fieldOf w 11 9)) len)
  | 0x06 => some (.movi d rd x i16)
  | 0x07 => guardI (!x) (.movk1 d rd i16)
  | 0x08 => guardI (!x) (.movk2 d rd i16)
  | 0x09 => guardI (!x) (.movk3 d rd i16)
  | 0x0A => guardI (decide (sfn = 0)) (.cmp d pd cb ra rb (BitVec.ofNat 3 (fieldOf w 6 4)))
  | 0x0B => some (.cmpi d pd cb ra (BitVec.ofNat 3 (fieldOf w 11 9)) (BitVec.ofNat 9 (fieldOf w 8 0)))
  | 0x0C => guardI (decide (fieldOf w 9 0 = 0))
      (.pset d pd (BitVec.ofNat 3 (fieldOf w 18 16)) (BitVec.ofNat 3 (fieldOf w 15 13)) (BitVec.ofNat 3 (fieldOf w 12 10)))
  | 0x0D => some (.br d (BitVec.ofNat 22 (fieldOf w 21 0)))
  | 0x0E => some (.call d (BitVec.ofNat 22 (fieldOf w 21 0)))
  | 0x0F => guardI (noRd && noRb && decide (fn = 0)) (.jr d ra)
  | 0x10 => guardI fits (.ext d rd ra pos len)
  | 0x11 => guardI fits (.exts d rd ra pos len)
  | 0x12 => guardI fits (.ins d rd ra pos len)
  | 0x13 => guardI (decide (fn < 2)) (.extv d rd ra rb (decide (fn = 1)))
  | 0x14 => some (.hwl d rd ra sz ofs)
  | 0x15 => some (.hws d rd ra sz ofs)
  | 0x16 => some (.hwadj d rd ra imm)
  | 0x17 => guardI (noRa && decide (sfn = 0)) (.mdl d rd idx)
  | 0x18 => guardI (noRd && decide (sfn = 0)) (.mds d ra idx)
  | 0x19 => some (.ld d rd ra sz ofs)
  | 0x1A => some (.st d rd ra sz ofs v.lost)
  | 0x1B => guardI (decide (fn < 4)) (.ldx d rd ra rb (BitVec.ofNat 2 fn))
  | 0x1C => guardI (decide (fn < 4)) (.stx d rd ra rb (BitVec.ofNat 2 fn) v.lost)
  | 0x1D => decodeAtom d rd ra rb fn
  | 0x1E => decodeLkp d rd ra rb fn
  | 0x23 => guardI (noRd && decide (fn = 0)) (.cnt d ra rb)
  | 0x24 => guardI (noRa && decide (sfn = 0)) (.time d rd idx)
  | 0x26 => guardI (decide (fieldOf w 18 17 = 0) && noRb && decide (fieldOf w 6 4 = 0) && decide (sfn < 2))
      (.test d pd ra (decide (sfn = 1)))
  | 0x27 => guardI (noRd && decide (sfn = 0)) (.fres d ra idx)
  | 0x28 => guardI (noRd && decide (sfn = 0)) (.fput d ra idx)
  | 0x29 => guardI (noRa && decide (sfn = 0)) (.fcmt d rd idx)
  | 0x2A => guardI (noRa && decide (sfn = 0)) (.fget d rd idx)
  | 0x2B => guardI (noRa && decide (sfn = 0)) (.flen d rd idx)
  | 0x2C => guardI (noRd && !x) (.svc d i16)
  | 0x2D => if noRd && noRa then decodePkt d (fieldOf w 11 4) sfn else none
  | 0x2E => guardI (noRa && decide (sfn = 0)) (.mfs d rd idx)
  | 0x2F => guardI (noRd && decide (sfn = 0)) (.mts d ra idx)
  | 0x30 => guardI (decide (fieldOf w 21 0 = 0)) (.fence d)
  | o => if decide (o < 0x30) && noRb then decodeReq v d rd ra o fn else none

/-- The command a table word spells: the table gives its rows no bits. -/
def decodeTableWord (_nbits _w : Nat) : Option Instr := none

end Sys2Proof
end

