-- ==== Sys2Proof/Config.lean ====
section
/-! DEFINITION. What an implementation fixes and the free values: constants without a body, so that no proof can see
what they are (log entries 3 and 4). -/

namespace Sys2Proof.Config

/-- A value the spec leaves open, drawn with the state's counter of free values. -/
opaque freeValue : Nat → BitVec 64

/-- SHA-384 of a byte string, as a number (R111). -/
opaque sha384 : List (BitVec 8) → Nat

/-- Whether an ECDSA P-384 signature verifies (FIPS 186-5): public key x then y, hash value, signature r then s (R110). -/
opaque ecdsaP384Ok : List (BitVec 8) → Nat → List (BitVec 8) → Bool

/-- Whether an ML-DSA-87 signature verifies (FIPS 204): public key, message, context string, signature (R110). -/
opaque mlDsa87Ok : List (BitVec 8) → List (BitVec 8) → List (BitVec 8) → List (BitVec 8) → Bool

/-- The bytes of a packet's 32-byte descriptor from its fields (R18, log entry 30). -/
opaque descriptor : List Nat → List (BitVec 8)

/-- Whether the automaton body finds pattern matches in a byte string: ids with their end offsets (R263–R268). -/
opaque echoMatches : List (BitVec 8) → List (BitVec 8) → List (Nat × Nat)

/-- The SHA-384 hash of the maker root key block in boot ROM (R111). -/
opaque makerKeyHash : Nat

/-- The image the maker delivered in an image slot, by 2 × type + slot (R122). -/
opaque factoryImage : Nat → List (BitVec 8)

/-- Geometry of a memory instance (R493, R513): 0 PART, 1 FATAL, 2 ROWS, 3 WIDTH, 4 SPARE_ROWS, 5 SPARE_COLS, 6 and 7 the spare
rows and columns the maker's fuses use. -/
opaque memInfo : Nat → Nat → Nat

/-- The LBIST signature in ROM of a partition (R491). -/
opaque lbistSig : Nat → Nat

end Sys2Proof.Config
end

