-- ==== Sys2Proof/Machine/RegMap.lean ====
section
/-! DEFINITION. The BAR0 register map (R514–R516): every block with its base and span, and every register word with its
fields, access codes (R11), Reset values and Loaded marks (R12) and lock condition (R520), taken from the register
tables of the chapters. The rows are data; Machine/Bar0.lean gives them their meaning. -/

namespace Sys2Proof.Machine

/-- The access codes of R11; `cnt` is a word of a 64-bit counter (R433–R436), `ring` an index that is RW when the host
owns it and RO otherwise (R467). -/
inductive Acc where
  | rw | ro | wo | w1c | w1s | rc | sc | rwl | cnt | ring
  deriving DecidableEq, Repr

/-- The lock conditions of R520. -/
inductive Lock where
  | none | config | cadence | trial | gallery | ring
  deriving DecidableEq, Repr

/-- A word is a 32-bit register, or the low or the high word of a 64-bit one (R9). -/
inductive WordRole where
  | w32 | lo | hi
  deriving DecidableEq, Repr

/-- One field of a register word. `loaded`: set from the configuration image in ASCENT (R12). -/
structure RField where
  hi : Nat
  lo : Nat
  acc : Acc
  reset : Nat
  loaded : Bool
  lock : Lock
  deriving DecidableEq, Repr

/-- One row of the map: the words at block base + `off` + sum of index × stride (R516), page stride first. -/
structure RegRow where
  name : String
  off : Nat
  dims : List (Nat × Nat)
  role : WordRole
  fields : List RField
  deriving DecidableEq, Repr

/-- The two dies (R14). -/
inductive Die where
  | fe | tm
  deriving DecidableEq, Repr

/-- A block of BAR0 (R514); `early`: served while DP_READY is 0 (R85). -/
structure RegBlock where
  name : String
  base : Nat
  span : Nat
  die : Die
  early : Bool
  rows : List RegRow
  deriving DecidableEq, Repr

/-- Shorthand for a field that is neither loaded nor locked. -/
def rf (hi lo : Nat) (acc : Acc) (reset : Nat := 0) : RField := ⟨hi, lo, acc, reset, false, .none⟩

/-- Shorthand for a Loaded field. -/
def rfL (hi lo : Nat) (acc : Acc) (reset : Nat := 0) (lock : Lock := .none) : RField := ⟨hi, lo, acc, reset, true, lock⟩

/-- Shorthand for a locked field that is not Loaded. -/
def rfK (hi lo : Nat) (acc : Acc) (reset : Nat) (lock : Lock) : RField := ⟨hi, lo, acc, reset, false, lock⟩

/-- Rows of block GLB (R517). -/
def regRowsGLB : List RegRow := [
  ⟨"GLB_PART", 0x0, [], .w32, [rf 31 0 .ro 0x2880]⟩,
  ⟨"GLB_STEP", 0x4, [], .w32, [rf 7 0 .ro 0xa1]⟩,
  ⟨"GLB_CAPS", 0x8, [], .w32, [rf 31 31 .ro, rfL 8 8 .ro, rfL 6 0 .ro]⟩,
  ⟨"GLB_SCRATCH", 0x10, [(4, 0x4)], .w32, [rf 31 0 .rw]⟩,
  ⟨"GLB_ERR_LOG", 0x20, [], .lo, [rf 27 0 .rc]⟩,
  ⟨"GLB_ERR_LOG", 0x24, [], .hi, [rf 31 24 .rc, rf 23 23 .rc]⟩,
  ⟨"GLB_ERR_CNT", 0x28, [], .lo, [rf 31 0 .cnt]⟩,
  ⟨"GLB_ERR_CNT", 0x2c, [], .hi, [rf 31 0 .cnt]⟩]

/-- Rows of block KPR (R139). -/
def regRowsKPR : List RegRow := [
  ⟨"KPR_STATUS", 0x0, [], .w32, [rf 15 15 .ro, rf 14 14 .ro, rf 13 13 .ro, rf 12 12 .ro, rf 3 0 .ro]⟩,
  ⟨"KPR_UNIT_ID", 0x10, [(4, 0x4)], .w32, [rf 31 0 .ro]⟩,
  ⟨"KPR_LC", 0x20, [], .w32, [rf 23 20 .ro, rf 19 16 .ro, rf 9 8 .ro, rf 5 4 .ro, rf 1 1 .ro]⟩,
  ⟨"KPR_SECVER", 0x30, [(4, 0x4)], .w32, [rf 6 0 .ro]⟩,
  ⟨"KPR_IMG", 0x40, [(4, 0x4)], .w32, [rf 30 24 .ro, rf 11 10 .ro, rf 9 8 .ro, rf 0 0 .ro]⟩,
  ⟨"KPR_UPD", 0x50, [], .w32, [rf 31 16 .ro, rf 7 4 .ro, rf 3 0 .ro]⟩,
  ⟨"KPR_CONFIRM_WIN", 0x54, [], .w32, [rfL 11 0 .rwl 0x12c .trial]⟩,
  ⟨"KPR_CAP_MASK", 0x58, [], .w32, [rfL 31 0 .rwl 0 .config]⟩,
  ⟨"KPR_DBG", 0x5c, [], .w32, [rfL 0 0 .rwl 0 .config]⟩,
  ⟨"KPR_MBX_CTRL", 0x100, [], .w32, [rf 0 0 .sc]⟩,
  ⟨"KPR_MBX_STATUS", 0x104, [], .w32, [rf 2 2 .w1c, rf 1 1 .w1c, rf 0 0 .ro]⟩,
  ⟨"KPR_MBX_REQ", 0x1000, [(1024, 0x4)], .w32, [rf 31 0 .rw]⟩,
  ⟨"KPR_MBX_RSP", 0x2000, [(1024, 0x4)], .w32, [rf 31 0 .ro]⟩]

/-- Rows of block EVT (R489). -/
def regRowsEVT : List RegRow := [
  ⟨"EVT_PEND", 0x0, [(8, 0x4)], .w32, [rf 31 0 .w1c]⟩,
  ⟨"EVT_EN", 0x20, [(8, 0x4)], .w32, [rfL 31 0 .rw]⟩,
  ⟨"EVT_FORCE", 0x40, [(8, 0x4)], .w32, [rf 31 0 .wo]⟩,
  ⟨"EVT_MAP", 0x100, [(256, 0x4)], .w32, [rfL 7 0 .rw]⟩,
  ⟨"EVT_VEC_CFG", 0x500, [(256, 0x4)], .w32, [rfL 15 0 .rw]⟩,
  ⟨"EVT_TMGMT", 0x900, [], .w32, [rfL 31 16 .rw 0x64, rfL 0 0 .rw]⟩,
  ⟨"EVT_DIGEST_SEQ", 0x908, [], .lo, [rf 31 0 .ro]⟩,
  ⟨"EVT_DIGEST_SEQ", 0x90c, [], .hi, [rf 31 0 .ro]⟩]

/-- Rows of block HST (R462, R489). -/
def regRowsHST : List RegRow := [
  ⟨"HST_PCIE_STATUS", 0x0, [], .w32, [rf 10 8 .ro, rf 7 4 .ro, rf 3 3 .ro, rf 2 2 .ro, rf 1 1 .ro, rf 0 0 .ro]⟩,
  ⟨"HST_STATUS", 0x4, [], .w32, [rf 1 1 .ro, rf 0 0 .ro]⟩,
  ⟨"HST_WIN", 0x10, [], .w32, [rf 15 0 .rw]⟩,
  ⟨"HST_EVT", 0x20, [], .w32, [rf 4 4 .w1c, rf 3 3 .w1c, rf 2 2 .w1c, rf 1 1 .w1c, rf 0 0 .w1c]⟩,
  ⟨"HST_EVT_EN", 0x24, [], .w32, [rf 4 4 .rw, rf 3 3 .rw, rf 2 2 .rw, rf 1 1 .rw, rf 0 0 .rw]⟩,
  ⟨"HST_DMA_ERR_ADDR", 0x28, [], .lo, [rf 31 0 .ro]⟩,
  ⟨"HST_DMA_ERR_ADDR", 0x2c, [], .hi, [rf 31 0 .ro]⟩,
  ⟨"HST_DMA_ERR_RING", 0x30, [], .w32, [rf 6 0 .ro]⟩,
  ⟨"HST_PUNT_CFG", 0x100, [(32, 0x4)], .w32, [rf 7 0 .rw]⟩,
  ⟨"HST_RING", 0x1000, [(72, 0x20)], .lo, [rfK 31 12 .rwl 0 .ring]⟩,
  ⟨"HST_RING", 0x1004, [(72, 0x20)], .hi, [rfK 31 0 .rwl 0 .ring]⟩,
  ⟨"HST_RING", 0x1008, [(72, 0x20)], .w32, [rf 31 31 .rw, rf 30 30 .ro, rf 29 29 .rw, rf 23 16 .rw, rfK 4 0 .rwl 0 .ring]⟩,
  ⟨"HST_RING", 0x100c, [(72, 0x20)], .w32, [rf 29 0 .ring]⟩,
  ⟨"HST_RING", 0x1010, [(72, 0x20)], .w32, [rf 29 0 .ring]⟩,
  ⟨"HST_RING", 0x1018, [(72, 0x20)], .lo, [rfK 31 0 .rwl 0 .ring]⟩,
  ⟨"HST_RING", 0x101c, [(72, 0x20)], .hi, [rfK 31 0 .rwl 0 .ring]⟩,
  ⟨"HST_RING_CNT", 0x2000, [(72, 0x10)], .lo, [rf 31 0 .cnt]⟩,
  ⟨"HST_RING_CNT", 0x2004, [(72, 0x10)], .hi, [rf 31 0 .cnt]⟩,
  ⟨"HST_RING_CNT", 0x2008, [(72, 0x10)], .lo, [rf 31 0 .cnt]⟩,
  ⟨"HST_RING_CNT", 0x200c, [(72, 0x10)], .hi, [rf 31 0 .cnt]⟩,
  ⟨"HST_CNT", 0x3000, [], .lo, [rf 31 0 .cnt]⟩,
  ⟨"HST_CNT", 0x3004, [], .hi, [rf 31 0 .cnt]⟩,
  ⟨"HST_CNT", 0x3008, [], .lo, [rf 31 0 .cnt]⟩,
  ⟨"HST_CNT", 0x300c, [], .hi, [rf 31 0 .cnt]⟩,
  ⟨"HST_CNT", 0x3010, [], .lo, [rf 31 0 .cnt]⟩,
  ⟨"HST_CNT", 0x3014, [], .hi, [rf 31 0 .cnt]⟩,
  ⟨"HST_CNT", 0x3018, [], .lo, [rf 31 0 .cnt]⟩,
  ⟨"HST_CNT", 0x301c, [], .hi, [rf 31 0 .cnt]⟩,
  ⟨"HST_MSIX_TABLE", 0x8000, [(256, 0x10)], .w32, [rf 31 0 .rw]⟩,
  ⟨"HST_MSIX_TABLE", 0x8004, [(256, 0x10)], .w32, [rf 31 0 .rw]⟩,
  ⟨"HST_MSIX_TABLE", 0x8008, [(256, 0x10)], .w32, [rf 31 0 .rw]⟩,
  ⟨"HST_MSIX_TABLE", 0x800c, [(256, 0x10)], .w32, [rf 0 0 .rw 1]⟩,
  ⟨"HST_MSIX_PBA", 0xa000, [(8, 0x4)], .w32, [rf 31 0 .ro]⟩]

/-- Rows of block WRS (R36, R73). -/
def regRowsWRS : List RegRow := [
  ⟨"WRS_CTRL", 0x0, [], .w32, [rfL 11 10 .rw, rfL 9 8 .rw, rfL 7 6 .rw, rfL 1 1 .rw 1, rfL 0 0 .rw]⟩,
  ⟨"WRS_STATUS", 0x4, [], .w32, [rf 19 19 .w1c, rf 18 18 .w1c, rf 17 17 .w1c, rf 16 16 .ro, rf 15 15 .ro, rf 14 12 .ro, rf 11 9 .ro, rf 4 0 .ro]⟩,
  ⟨"WRS_RCLK", 0x8, [], .w32, [rfL 7 0 .rw]⟩,
  ⟨"WRS_TIME", 0x10, [], .w32, [rf 15 0 .ro]⟩,
  ⟨"WRS_TIME", 0x14, [], .w32, [rf 31 0 .ro]⟩,
  ⟨"WRS_TIME", 0x18, [], .w32, [rf 31 0 .ro]⟩,
  ⟨"WRS_TIME", 0x1c, [], .w32, [rf 15 0 .ro]⟩,
  ⟨"WRS_TIME_SET", 0x20, [], .w32, [rf 15 0 .rw]⟩,
  ⟨"WRS_TIME_SET", 0x24, [], .w32, [rf 31 0 .rw]⟩,
  ⟨"WRS_TIME_SET", 0x28, [], .w32, [rf 31 0 .rw]⟩,
  ⟨"WRS_TIME_SET", 0x2c, [], .w32, [rf 15 0 .rw]⟩,
  ⟨"WRS_SET_CTRL", 0x30, [], .w32, [rf 1 1 .rw, rf 0 0 .sc]⟩,
  ⟨"WRS_ADJ_FREQ", 0x34, [], .w32, [rf 31 0 .rw]⟩,
  ⟨"WRS_ADJ_PHASE", 0x38, [], .lo, [rf 31 0 .wo]⟩,
  ⟨"WRS_ADJ_PHASE", 0x3c, [], .hi, [rf 31 0 .wo]⟩,
  ⟨"WRS_SLEW", 0x40, [], .w32, [rfL 31 16 .rw 0x3e8, rfL 15 0 .rw 0x2710]⟩,
  ⟨"WRS_HOLDOVER", 0x44, [], .w32, [rf 31 0 .ro]⟩,
  ⟨"WRS_PPS_IN_STAMP", 0x50, [(2, 0x10)], .w32, [rf 15 0 .ro]⟩,
  ⟨"WRS_PPS_IN_STAMP", 0x54, [(2, 0x10)], .w32, [rf 31 0 .ro]⟩,
  ⟨"WRS_PPS_IN_STAMP", 0x58, [(2, 0x10)], .w32, [rf 31 0 .ro]⟩,
  ⟨"WRS_PPS_IN_STAMP", 0x5c, [(2, 0x10)], .w32, [rf 15 0 .ro]⟩,
  ⟨"WRS_PPS_OUT", 0x70, [(2, 0x4)], .w32, [rfL 31 16 .rw, rfL 15 2 .rw 0x64, rfL 0 0 .rw]⟩,
  ⟨"WRS_CLKOUT", 0x78, [], .w32, [rfL 8 8 .rw, rfL 7 0 .rw]⟩,
  ⟨"WRS_CAL", 0x80, [], .w32, [rfL 31 31 .rw 1, rfL 30 16 .rw 0x14, rfL 15 0 .rw 0x3e8]⟩,
  ⟨"WRS_CAL_STATUS", 0x84, [], .w32, [rf 31 8 .ro, rf 7 0 .ro]⟩,
  ⟨"WRS_TSF", 0xa0, [], .w32, [rf 31 31 .ro, rf 23 16 .ro, rf 15 8 .ro, rf 3 0 .ro]⟩,
  ⟨"WRS_TSF", 0xa4, [], .w32, [rf 31 16 .ro, rf 15 11 .ro]⟩,
  ⟨"WRS_TSF", 0xa8, [], .w32, [rf 31 0 .ro]⟩,
  ⟨"WRS_TSF", 0xac, [], .w32, [rf 31 0 .ro]⟩,
  ⟨"WRS_TSF_STATUS", 0xb0, [], .w32, [rf 31 16 .rc, rf 12 0 .ro]⟩,
  ⟨"WRS_PORT_PTP", 0x400, [(146, 0x4)], .w32, [rfL 2 0 .rw]⟩,
  ⟨"WRS_PORT_LDLY", 0x800, [(146, 0x4)], .w32, [rf 31 0 .rw]⟩,
  ⟨"WRS_LANE", 0x1000, [(146, 0x10)], .w32, [rf 31 0 .ro]⟩,
  ⟨"WRS_LANE", 0x1004, [(146, 0x10)], .w32, [rf 31 0 .ro]⟩,
  ⟨"WRS_LANE", 0x1008, [(146, 0x10)], .w32, [rfL 31 0 .rw]⟩,
  ⟨"WRS_LANE", 0x100c, [(146, 0x10)], .w32, [rfL 31 0 .rw]⟩]

/-- Rows of block CAD (R73). -/
def regRowsCAD : List RegRow := [
  ⟨"CAD_CTRL", 0x0, [], .w32, [rf 0 0 .rw]⟩,
  ⟨"CAD_PERIOD", 0x4, [], .w32, [rfL 19 0 .rwl 0x3e8 .cadence]⟩,
  ⟨"CAD_PHASE", 0x8, [], .w32, [rfL 19 0 .rwl 0 .cadence]⟩,
  ⟨"CAD_STATUS", 0xc, [], .w32, [rf 2 2 .w1c, rf 1 1 .w1c, rf 0 0 .ro]⟩,
  ⟨"CAD_TICK", 0x10, [], .lo, [rf 31 0 .ro]⟩,
  ⟨"CAD_TICK", 0x14, [], .hi, [rf 31 0 .ro]⟩,
  ⟨"CAD_SKIPPED", 0x18, [], .lo, [rf 31 0 .ro]⟩,
  ⟨"CAD_SKIPPED", 0x1c, [], .hi, [rf 31 0 .ro]⟩,
  ⟨"CAD_OVR", 0x20, [], .w32, [rf 7 0 .w1c]⟩,
  ⟨"CAD_OVR_CNT", 0x40, [(8, 0x4)], .w32, [rf 31 0 .rc]⟩]

/-- Rows of block MOD (R101, R543). -/
def regRowsMOD : List RegRow := [
  ⟨"MOD_STATUS", 0x0, [], .w32, [rf 15 15 .ro, rf 14 14 .ro, rf 13 13 .ro, rf 12 9 .ro, rf 8 6 .ro, rf 2 0 .ro 1]⟩,
  ⟨"MOD_CMD", 0x4, [], .w32, [rf 7 7 .wo, rf 3 0 .wo]⟩,
  ⟨"MOD_CMD_TICK", 0x8, [], .lo, [rf 31 0 .rw]⟩,
  ⟨"MOD_CMD_TICK", 0xc, [], .hi, [rf 31 0 .rw]⟩,
  ⟨"MOD_CMD_RESULT", 0x10, [], .w32, [rf 8 8 .ro, rf 7 4 .ro, rf 3 0 .ro]⟩,
  ⟨"MOD_LULL_CFG", 0x20, [], .w32, [rfL 31 24 .rw, rfL 22 16 .rw 0x64, rfL 4 4 .rw, rfL 3 3 .rw, rfL 2 2 .rw, rfL 1 1 .rw 1, rfL 0 0 .rw]⟩,
  ⟨"MOD_WAKE_CODE", 0x24, [], .w32, [rfL 31 0 .rw]⟩,
  ⟨"MOD_WAKE_TICK", 0x28, [], .lo, [rf 31 0 .rw]⟩,
  ⟨"MOD_WAKE_TICK", 0x2c, [], .hi, [rf 31 0 .rw]⟩,
  ⟨"MOD_WAKE_SRC", 0x30, [], .w32, [rf 4 0 .w1c]⟩,
  ⟨"MOD_LULL_DROPS", 0x34, [], .w32, [rf 31 0 .rc]⟩,
  ⟨"MOD_LULL_FLUSH", 0x38, [], .w32, [rf 31 0 .rc]⟩,
  ⟨"MOD_BYP_CTRL", 0x40, [], .w32, [rfL 31 16 .rw 0x7d0, rfL 15 8 .rw 0xa, rfL 7 4 .rw 0xa, rf 3 3 .rw, rf 2 2 .rw, rfL 1 1 .rw, rfL 0 0 .rw]⟩,
  ⟨"MOD_BYP_STATUS", 0x44, [], .w32, [rf 31 24 .rc, rf 23 16 .rc, rf 9 9 .ro, rf 8 8 .ro, rf 7 4 .ro, rf 3 0 .ro]⟩,
  ⟨"MOD_SAFE", 0x50, [], .w32, [rf 15 8 .ro, rf 7 0 .ro]⟩,
  ⟨"MOD_RSQ", 0x54, [], .w32, [rf 7 4 .ro, rf 1 0 .ro]⟩,
  ⟨"MOD_ASCENT_TIME", 0x60, [(8, 0x4)], .w32, [rf 31 0 .ro]⟩,
  ⟨"MOD_TRANS", 0x80, [], .w32, [rf 15 8 .ro, rf 7 4 .ro, rf 3 0 .ro]⟩,
  ⟨"MOD_TRANS_TICK", 0x88, [], .lo, [rf 31 0 .ro]⟩,
  ⟨"MOD_TRANS_TICK", 0x8c, [], .hi, [rf 31 0 .ro]⟩,
  ⟨"MOD_THERM_TEMP", 0x100, [(16, 0x4)], .w32, [rf 15 0 .ro 0x8000]⟩,
  ⟨"MOD_THERM_CFG", 0x140, [], .w32, [rfL 15 0 .rw 0x320]⟩,
  ⟨"MOD_THERM_STATUS", 0x144, [], .w32, [rf 31 31 .ro, rf 15 0 .ro]⟩]

/-- Rows of block BIS (R513). -/
def regRowsBIS : List RegRow := [
  ⟨"BIS_STATUS", 0x0, [], .w32, [rf 31 28 .ro, rf 15 8 .ro, rf 7 0 .ro]⟩,
  ⟨"BIS_CFG", 0x4, [], .w32, [rfL 31 24 .rw 0x10, rfL 15 0 .rw]⟩,
  ⟨"BIS_PASSAGE", 0x8, [], .w32, [rf 22 16 .ro, rf 6 0 .ro]⟩,
  ⟨"BIS_FAIL_STATUS", 0xc, [], .w32, [rf 31 16 .rc, rf 10 0 .ro]⟩,
  ⟨"BIS_FAIL_LOG", 0x10, [], .lo, [rf 31 0 .ro]⟩,
  ⟨"BIS_FAIL_LOG", 0x14, [], .hi, [rf 31 0 .ro]⟩,
  ⟨"BIS_ECC_LOG", 0x18, [], .lo, [rf 31 16 .rc]⟩,
  ⟨"BIS_ECC_LOG", 0x1c, [], .hi, [rf 31 31 .rc, rf 30 30 .rc, rf 29 29 .rc, rf 28 12 .rc, rf 9 0 .rc]⟩,
  ⟨"BIS_BUSY_LOG", 0x20, [], .lo, [rf 25 0 .rc]⟩,
  ⟨"BIS_BUSY_LOG", 0x24, [], .hi, [rf 31 24 .rc, rf 23 23 .rc]⟩,
  ⟨"BIS_HBM_LOG", 0x28, [], .lo, [rf 31 29 .ro]⟩,
  ⟨"BIS_HBM_LOG", 0x2c, [], .hi, [rf 31 31 .ro, rf 30 29 .ro, rf 28 26 .ro, rf 25 20 .ro, rf 19 15 .ro, rf 14 0 .ro]⟩,
  ⟨"BIS_MEM_SEL", 0x30, [], .w32, [rf 16 0 .rw]⟩,
  ⟨"BIS_MEM_SEL", 0x34, [], .w32, [rf 31 25 .ro, rf 24 24 .ro, rf 23 0 .ro]⟩,
  ⟨"BIS_MEM_SEL", 0x38, [], .w32, [rf 31 16 .ro, rf 15 8 .ro, rf 7 4 .ro]⟩,
  ⟨"BIS_MEM_SEL", 0x3c, [], .w32, [rf 15 8 .ro, rf 7 4 .ro]⟩,
  ⟨"BIS_GTEST_CTRL", 0x40, [], .w32, [rf 31 31 .rw, rf 10 8 .rw, rf 0 0 .sc]⟩,
  ⟨"BIS_GTEST_STATUS", 0x44, [], .w32, [rf 31 24 .ro, rf 18 16 .ro, rf 15 12 .ro, rf 11 8 .ro, rf 1 1 .w1c, rf 0 0 .ro]⟩,
  ⟨"BIS_GTEST_TICK", 0x48, [], .lo, [rf 31 0 .rw]⟩,
  ⟨"BIS_GTEST_TICK", 0x4c, [], .hi, [rf 31 0 .rw]⟩,
  ⟨"BIS_PROBE_CFG", 0x50, [], .w32, [rf 5 4 .rw, rf 1 1 .rw, rf 0 0 .rw 1]⟩,
  ⟨"BIS_PROBE_RES", 0x54, [], .w32, [rf 31 31 .ro, rf 30 30 .ro, rf 29 22 .ro, rf 21 12 .ro, rf 11 0 .ro]⟩,
  ⟨"BIS_HBM_STATUS", 0x60, [(8, 0x4)], .w32, [rf 31 31 .ro, rf 23 16 .ro, rf 15 0 .ro]⟩,
  ⟨"BIS_LBIST_RES", 0x400, [(117, 0x8)], .w32, [rf 31 31 .ro, rf 30 30 .ro, rf 29 29 .ro]⟩,
  ⟨"BIS_LBIST_RES", 0x404, [(117, 0x8)], .w32, [rf 31 0 .ro]⟩,
  ⟨"BIS_PROBE_LANE", 0x1000, [(338, 0x4)], .w32, [rf 31 31 .ro, rf 30 30 .ro, rf 29 0 .ro]⟩,
  ⟨"BIS_CNT", 0x2000, [], .lo, [rf 31 0 .cnt]⟩,
  ⟨"BIS_CNT", 0x2004, [], .hi, [rf 31 0 .cnt]⟩,
  ⟨"BIS_CNT", 0x2008, [], .lo, [rf 31 0 .cnt]⟩,
  ⟨"BIS_CNT", 0x200c, [], .hi, [rf 31 0 .cnt]⟩,
  ⟨"BIS_CNT", 0x2010, [], .lo, [rf 31 0 .cnt]⟩,
  ⟨"BIS_CNT", 0x2014, [], .hi, [rf 31 0 .cnt]⟩,
  ⟨"BIS_CNT", 0x2018, [], .lo, [rf 31 0 .cnt]⟩,
  ⟨"BIS_CNT", 0x201c, [], .hi, [rf 31 0 .cnt]⟩,
  ⟨"BIS_CNT", 0x2020, [], .lo, [rf 31 0 .cnt]⟩,
  ⟨"BIS_CNT", 0x2024, [], .hi, [rf 31 0 .cnt]⟩,
  ⟨"BIS_CNT", 0x2028, [], .lo, [rf 31 0 .cnt]⟩,
  ⟨"BIS_CNT", 0x202c, [], .hi, [rf 31 0 .cnt]⟩,
  ⟨"BIS_CNT", 0x2030, [], .lo, [rf 31 0 .cnt]⟩,
  ⟨"BIS_CNT", 0x2034, [], .hi, [rf 31 0 .cnt]⟩,
  ⟨"BIS_CNT", 0x2038, [], .lo, [rf 31 0 .cnt]⟩,
  ⟨"BIS_CNT", 0x203c, [], .hi, [rf 31 0 .cnt]⟩,
  ⟨"BIS_CNT", 0x2040, [], .lo, [rf 31 0 .cnt]⟩,
  ⟨"BIS_CNT", 0x2044, [], .hi, [rf 31 0 .cnt]⟩,
  ⟨"BIS_CNT", 0x2048, [], .lo, [rf 31 0 .cnt]⟩,
  ⟨"BIS_CNT", 0x204c, [], .hi, [rf 31 0 .cnt]⟩]

/-- Rows of block LPT (R159). -/
def regRowsLPT : List RegRow := [
  ⟨"LPT_CFG", 0x0, [(146, 0x1000)], .w32, [rfL 23 21 .rwl 0 .config, rfL 20 20 .rwl 0 .config, rfL 19 18 .rwl 0 .config, rfL 11 8 .rwl 0 .config, rfL 3 0 .rwl 0 .config]⟩,
  ⟨"LPT_CTRL", 0x4, [(146, 0x1000)], .w32, [rfL 1 1 .rwl 0 .config, rfL 0 0 .rw]⟩,
  ⟨"LPT_MAC_CFG", 0x8, [(146, 0x1000)], .w32, [rfL 13 0 .rw 0x2400]⟩,
  ⟨"LPT_SERDES", 0xc, [(146, 0x1000)], .w32, [rfL 15 8 .rwl 0 .config, rfL 7 0 .rwl 0 .config]⟩,
  ⟨"LPT_STATUS", 0x10, [(146, 0x1000)], .w32, [rf 31 24 .ro, rf 6 6 .ro, rf 5 5 .ro, rf 4 4 .ro, rf 3 3 .ro, rf 2 2 .ro, rf 1 1 .ro, rf 0 0 .ro]⟩,
  ⟨"LPT_EVT", 0x14, [(146, 0x1000)], .w32, [rf 4 4 .w1c, rf 3 3 .w1c, rf 2 2 .w1c, rf 1 1 .w1c, rf 0 0 .w1c]⟩,
  ⟨"LPT_EVT_EN", 0x18, [(146, 0x1000)], .w32, [rf 4 4 .rw, rf 3 3 .rw, rf 2 2 .rw, rf 1 1 .rw, rf 0 0 .rw]⟩,
  ⟨"LPT_LINK_CFG", 0x1c, [(146, 0x1000)], .w32, [rfL 31 16 .rw, rfL 9 0 .rw]⟩,
  ⟨"LPT_PFC", 0x20, [(146, 0x1000)], .w32, [rfL 31 16 .rw 0xffff, rfL 15 8 .rw, rfL 0 0 .rw]⟩,
  ⟨"LPT_PFC_REFRESH", 0x24, [(146, 0x1000)], .w32, [rfL 15 0 .rw 0x28]⟩,
  ⟨"LPT_PFC_MAP", 0x28, [(146, 0x1000)], .w32, [rfL 23 0 .rw 0xfac688]⟩,
  ⟨"LPT_STATION_ADDR", 0x30, [(146, 0x1000)], .lo, [rfL 31 0 .rwl 0 .config]⟩,
  ⟨"LPT_STATION_ADDR", 0x34, [(146, 0x1000)], .hi, [rfL 15 0 .rwl 0 .config]⟩,
  ⟨"LPT_CNT", 0x100, [(146, 0x1000), (32, 0x8)], .lo, [rf 31 0 .cnt]⟩,
  ⟨"LPT_CNT", 0x104, [(146, 0x1000), (32, 0x8)], .hi, [rf 31 0 .cnt]⟩]

/-- Rows of block OTN (R178). -/
def regRowsOTN : List RegRow := [
  ⟨"OTN_GRP_CFG", 0x0, [(18, 0x4000)], .w32, [rfL 1 0 .rwl 0 .config]⟩,
  ⟨"OTN_IF_CFG", 0x10, [(18, 0x4000), (8, 0x4)], .w32, [rfL 31 31 .rwl 0 .config, rfL 7 7 .rw 1, rfL 6 5 .rw, rfL 4 0 .rwl 0 .config]⟩,
  ⟨"OTN_IF_STATUS", 0x40, [(18, 0x4000), (8, 0x4)], .w32, [rf 31 16 .ro, rf 8 8 .ro, rf 7 7 .ro, rf 6 6 .ro, rf 5 5 .ro, rf 4 4 .ro, rf 3 3 .ro, rf 2 2 .ro, rf 1 1 .ro, rf 0 0 .ro]⟩,
  ⟨"OTN_TTI", 0x1000, [(18, 0x4000), (16, 0x100), (8, 0x4)], .w32, [rfL 31 0 .rw]⟩,
  ⟨"OTN_TTI", 0x1040, [(18, 0x4000), (16, 0x100), (16, 0x4)], .w32, [rfL 31 0 .rw]⟩,
  ⟨"OTN_TTI", 0x1080, [(18, 0x4000), (16, 0x100), (16, 0x4)], .w32, [rf 31 0 .ro]⟩,
  ⟨"OTN_PC_CFG", 0x800, [(18, 0x4000), (8, 0x4)], .w32, [rfL 31 31 .rwl 0 .config, rfL 30 30 .rwl 0 .config, rfL 29 27 .rwl 0 .config, rfL 26 24 .rwl 0 .config, rfL 23 15 .rwl 0 .config, rfL 14 8 .rwl 0 .config, rfL 1 1 .rw 1]⟩,
  ⟨"OTN_PC_CNT", 0xa00, [(18, 0x4000), (8, 0x20)], .lo, [rf 31 0 .cnt]⟩,
  ⟨"OTN_PC_CNT", 0xa04, [(18, 0x4000), (8, 0x20)], .hi, [rf 31 0 .cnt]⟩,
  ⟨"OTN_PC_CNT", 0xa08, [(18, 0x4000), (8, 0x20)], .lo, [rf 31 0 .cnt]⟩,
  ⟨"OTN_PC_CNT", 0xa0c, [(18, 0x4000), (8, 0x20)], .hi, [rf 31 0 .cnt]⟩,
  ⟨"OTN_PC_CNT", 0xa10, [(18, 0x4000), (8, 0x20)], .lo, [rf 31 0 .cnt]⟩,
  ⟨"OTN_PC_CNT", 0xa14, [(18, 0x4000), (8, 0x20)], .hi, [rf 31 0 .cnt]⟩,
  ⟨"OTN_PC_CNT", 0xa18, [(18, 0x4000), (8, 0x20)], .lo, [rf 31 0 .cnt]⟩,
  ⟨"OTN_PC_CNT", 0xa1c, [(18, 0x4000), (8, 0x20)], .hi, [rf 31 0 .cnt]⟩,
  ⟨"OTN_PM_SEL", 0x900, [(18, 0x4000)], .w32, [rf 15 8 .wo, rf 7 0 .wo]⟩,
  ⟨"OTN_PM_DATA", 0x910, [(18, 0x4000)], .w32, [rf 31 0 .ro]⟩,
  ⟨"OTN_PM_DATA", 0x914, [(18, 0x4000)], .w32, [rf 2 2 .ro, rf 1 1 .ro, rf 0 0 .ro]⟩,
  ⟨"OTN_PM_DATA", 0x918, [(18, 0x4000), (8, 0x4)], .w32, [rf 31 0 .ro]⟩,
  ⟨"OTN_PM_CFG", 0xf0000, [], .w32, [rfL 16 0 .rw]⟩]

/-- Rows of block TSI (R178). -/
def regRowsTSI : List RegRow := [
  ⟨"TSI_CTRL", 0x0, [], .w32, [rf 0 0 .sc]⟩,
  ⟨"TSI_STATUS", 0x4, [], .w32, [rf 31 19 .ro, rf 18 16 .ro, rf 3 3 .w1c, rf 2 2 .w1c, rf 1 1 .w1c, rf 0 0 .ro]⟩,
  ⟨"TSI_SW_TICK", 0x8, [], .lo, [rf 31 0 .rw]⟩,
  ⟨"TSI_SW_TICK", 0xc, [], .hi, [rf 31 0 .rw]⟩,
  ⟨"TSI_SW_DONE_TICK", 0x10, [], .lo, [rf 31 0 .ro]⟩,
  ⟨"TSI_SW_DONE_TICK", 0x14, [], .hi, [rf 31 0 .ro]⟩,
  ⟨"TSI_STBY", 0x10000, [(5760, 0x4)], .w32, [rfL 31 31 .rw, rfL 30 24 .rw, rfL 12 0 .rw]⟩,
  ⟨"TSI_ACT", 0x20000, [(5760, 0x4)], .w32, [rf 31 31 .ro, rf 30 24 .ro, rf 12 0 .ro]⟩]

/-- Rows of block PRS (R205). -/
def regRowsPRS : List RegRow := [
  ⟨"PRS_ERR_ACT", 0x0, [], .w32, [rfL 9 8 .rw 1, rfL 7 6 .rw, rfL 5 4 .rw 1, rfL 3 2 .rw, rfL 1 0 .rw]⟩,
  ⟨"PRS_UDP_PORTS", 0x4, [], .w32, [rfL 31 16 .rwl 0x12b5 .config, rfL 15 0 .rwl 0x17c1 .config]⟩,
  ⟨"PRS_C37_PORT", 0x8, [], .w32, [rfL 31 16 .rwl 0 .config, rfL 15 0 .rwl 0 .config]⟩,
  ⟨"PRS_UDH", 0x40, [(16, 0x10)], .w32, [rfL 31 31 .rwl 0 .config, rfL 30 28 .rwl 0 .config, rfL 23 16 .rwl 0 .config, rfL 15 0 .rwl 0 .config]⟩,
  ⟨"PRS_UDH", 0x44, [(16, 0x10)], .w32, [rfL 31 16 .rwl 0 .config]⟩,
  ⟨"PRS_UDH", 0x48, [(16, 0x10)], .w32, [rfL 31 24 .rwl 0 .config, rfL 23 20 .rwl 0 .config, rfL 19 18 .rwl 0 .config, rfL 15 8 .rwl 0 .config, rfL 7 0 .rwl 0 .config]⟩,
  ⟨"PRS_UDH", 0x4c, [(16, 0x10)], .w32, [rfL 31 24 .rwl 0 .config, rfL 23 19 .rwl 0 .config, rfL 18 16 .rwl 0 .config]⟩,
  ⟨"PRS_CNT", 0x200, [(96, 0x8)], .lo, [rf 31 0 .cnt]⟩,
  ⟨"PRS_CNT", 0x204, [(96, 0x8)], .hi, [rf 31 0 .cnt]⟩]

/-- Rows of block CLS (R204, R205). -/
def regRowsCLS : List RegRow := [
  ⟨"CLS_IND_CMD", 0x0, [], .w32, [rf 31 24 .rw, rf 20 8 .rw, rf 1 0 .sc]⟩,
  ⟨"CLS_IND_STATUS", 0x4, [], .w32, [rf 4 3 .ro, rf 2 2 .w1c, rf 1 1 .w1c, rf 0 0 .ro]⟩,
  ⟨"CLS_IND_DATA", 0x10, [(15, 0x4)], .w32, [rf 31 0 .rw]⟩,
  ⟨"CLS_PORT_CFG", 0x1000, [(400, 0x4)], .w32, [rfL 13 10 .rwl 0 .config, rfL 9 8 .rw, rfL 6 4 .rw, rfL 1 0 .rw]⟩,
  ⟨"CLS_EXTRACT", 0x2000, [(128, 0x4)], .w32, [rfL 31 24 .rwl 0 .config, rfL 23 22 .rwl 0 .config, rfL 19 8 .rwl 0 .config, rfL 5 0 .rwl 0 .config]⟩,
  ⟨"CLS_QOS_MAP", 0x2400, [(88, 0x4)], .w32, [rfL 6 4 .rw, rfL 1 0 .rw]⟩,
  ⟨"CLS_PUNT_CFG", 0x3000, [(64, 0x10)], .w32, [rfL 31 31 .rw, rfL 28 24 .rw, rfL 23 0 .rw 0x2710]⟩,
  ⟨"CLS_PUNT_CFG", 0x3004, [(64, 0x10)], .w32, [rfL 15 0 .rw 0x64]⟩,
  ⟨"CLS_PUNT_AGG", 0x3400, [], .w32, [rfL 23 0 .rw 0x989680]⟩,
  ⟨"CLS_PUNT_AGG", 0x3404, [], .w32, [rfL 15 0 .rw 0x3e8]⟩,
  ⟨"CLS_PUNT_CNT", 0x3800, [(64, 0x10)], .lo, [rf 31 0 .cnt]⟩,
  ⟨"CLS_PUNT_CNT", 0x3804, [(64, 0x10)], .hi, [rf 31 0 .cnt]⟩,
  ⟨"CLS_PUNT_CNT", 0x3808, [(64, 0x10)], .lo, [rf 31 0 .cnt]⟩,
  ⟨"CLS_PUNT_CNT", 0x380c, [(64, 0x10)], .hi, [rf 31 0 .cnt]⟩,
  ⟨"CLS_CNT", 0x4000, [(8, 0x20)], .lo, [rf 31 0 .cnt]⟩,
  ⟨"CLS_CNT", 0x4004, [(8, 0x20)], .hi, [rf 31 0 .cnt]⟩,
  ⟨"CLS_CNT", 0x4008, [(8, 0x20)], .lo, [rf 31 0 .cnt]⟩,
  ⟨"CLS_CNT", 0x400c, [(8, 0x20)], .hi, [rf 31 0 .cnt]⟩,
  ⟨"CLS_CNT", 0x4010, [(8, 0x20)], .lo, [rf 31 0 .cnt]⟩,
  ⟨"CLS_CNT", 0x4014, [(8, 0x20)], .hi, [rf 31 0 .cnt]⟩,
  ⟨"CLS_CNT", 0x4018, [(8, 0x20)], .lo, [rf 31 0 .cnt]⟩,
  ⟨"CLS_CNT", 0x401c, [(8, 0x20)], .hi, [rf 31 0 .cnt]⟩]

/-- Rows of block TBL (R251). -/
def regRowsTBL : List RegRow := [
  ⟨"TBL_PROF", 0x0, [(16, 0x10)], .w32, [rfL 31 0 .rw]⟩,
  ⟨"TBL_PROF", 0x4, [(16, 0x10)], .w32, [rfL 31 0 .rw]⟩,
  ⟨"TBL_PROF", 0x8, [(16, 0x10)], .w32, [rfL 31 16 .rw, rfL 15 0 .rw]⟩,
  ⟨"TBL_PROF", 0xc, [(16, 0x10)], .w32, [rfL 31 31 .rw, rfL 30 27 .rw, rfL 26 26 .rw]⟩,
  ⟨"TBL_KEYX", 0x100, [(64, 0x10), (4, 0x4)], .w32, [rfL 31 0 .rwl 0 .config]⟩,
  ⟨"TBL_MISS", 0x500, [(64, 0x8)], .lo, [rfL 31 0 .rw]⟩,
  ⟨"TBL_MISS", 0x504, [(64, 0x8)], .hi, [rfL 15 0 .rw]⟩,
  ⟨"TBL_EM_CFG", 0x800, [(16, 0x10)], .w32, [rfL 31 31 .rwl 0 .config, rfL 30 30 .rwl 0 .config, rfL 29 29 .rwl 0 .config, rfL 28 24 .rwl 0 .config, rfL 23 0 .rwl 0 .config]⟩,
  ⟨"TBL_EM_CFG", 0x804, [(16, 0x10)], .w32, [rfL 31 0 .rwl 0 .config]⟩,
  ⟨"TBL_EM_CFG", 0x808, [(16, 0x10)], .w32, [rfL 7 0 .rwl 0 .config]⟩,
  ⟨"TBL_PORT_CFG", 0x1000, [(400, 0x4)], .w32, [rfL 15 0 .rw]⟩,
  ⟨"TBL_SMAC", 0x2000, [(4096, 0x8)], .lo, [rfL 31 0 .rw]⟩,
  ⟨"TBL_SMAC", 0x2004, [(4096, 0x8)], .hi, [rfL 15 0 .rw]⟩,
  ⟨"TBL_ECMP_SEED", 0xa000, [], .w32, [rfL 31 0 .rw]⟩,
  ⟨"TBL_BW_CFG", 0xa004, [], .w32, [rfL 15 8 .rw 0x40, rfL 0 0 .rw]⟩,
  ⟨"TBL_DRAIN_CFG", 0xa008, [], .w32, [rfL 15 0 .rw 0x64]⟩,
  ⟨"TBL_COMMIT_STATUS", 0xa010, [], .w32, [rf 23 20 .ro, rf 19 19 .ro, rf 15 0 .ro]⟩,
  ⟨"TBL_COMMIT_TICK", 0xa018, [], .lo, [rf 31 0 .ro]⟩,
  ⟨"TBL_COMMIT_TICK", 0xa01c, [], .hi, [rf 31 0 .ro]⟩,
  ⟨"TBL_BASE", 0xa100, [(8, 0x8)], .lo, [rf 31 0 .ro]⟩,
  ⟨"TBL_BASE", 0xa104, [(8, 0x8)], .hi, [rf 31 0 .ro]⟩,
  ⟨"TBL_LEARN_STATUS", 0xa200, [(8, 0x4)], .w32, [rf 12 0 .ro]⟩,
  ⟨"TBL_CNT", 0xb000, [(8, 0x80)], .lo, [rf 31 0 .cnt]⟩,
  ⟨"TBL_CNT", 0xb004, [(8, 0x80)], .hi, [rf 31 0 .cnt]⟩,
  ⟨"TBL_CNT", 0xb008, [(8, 0x80)], .lo, [rf 31 0 .cnt]⟩,
  ⟨"TBL_CNT", 0xb00c, [(8, 0x80)], .hi, [rf 31 0 .cnt]⟩,
  ⟨"TBL_CNT", 0xb010, [(8, 0x80)], .lo, [rf 31 0 .cnt]⟩,
  ⟨"TBL_CNT", 0xb014, [(8, 0x80)], .hi, [rf 31 0 .cnt]⟩,
  ⟨"TBL_CNT", 0xb018, [(8, 0x80)], .lo, [rf 31 0 .cnt]⟩,
  ⟨"TBL_CNT", 0xb01c, [(8, 0x80)], .hi, [rf 31 0 .cnt]⟩,
  ⟨"TBL_CNT", 0xb020, [(8, 0x80)], .lo, [rf 31 0 .cnt]⟩,
  ⟨"TBL_CNT", 0xb024, [(8, 0x80)], .hi, [rf 31 0 .cnt]⟩,
  ⟨"TBL_CNT", 0xb028, [(8, 0x80)], .lo, [rf 31 0 .cnt]⟩,
  ⟨"TBL_CNT", 0xb02c, [(8, 0x80)], .hi, [rf 31 0 .cnt]⟩,
  ⟨"TBL_CNT", 0xb030, [(8, 0x80)], .lo, [rf 31 0 .cnt]⟩,
  ⟨"TBL_CNT", 0xb034, [(8, 0x80)], .hi, [rf 31 0 .cnt]⟩,
  ⟨"TBL_CNT", 0xb038, [(8, 0x80)], .lo, [rf 31 0 .cnt]⟩,
  ⟨"TBL_CNT", 0xb03c, [(8, 0x80)], .hi, [rf 31 0 .cnt]⟩,
  ⟨"TBL_CNT", 0xb040, [(8, 0x80)], .lo, [rf 31 0 .cnt]⟩,
  ⟨"TBL_CNT", 0xb044, [(8, 0x80)], .hi, [rf 31 0 .cnt]⟩,
  ⟨"TBL_CNT", 0xb048, [(8, 0x80)], .lo, [rf 31 0 .cnt]⟩,
  ⟨"TBL_CNT", 0xb04c, [(8, 0x80)], .hi, [rf 31 0 .cnt]⟩,
  ⟨"TBL_CNT", 0xb050, [(8, 0x80)], .lo, [rf 31 0 .cnt]⟩,
  ⟨"TBL_CNT", 0xb054, [(8, 0x80)], .hi, [rf 31 0 .cnt]⟩,
  ⟨"TBL_CNT", 0xb058, [(8, 0x80)], .lo, [rf 31 0 .cnt]⟩,
  ⟨"TBL_CNT", 0xb05c, [(8, 0x80)], .hi, [rf 31 0 .cnt]⟩,
  ⟨"TBL_CNT", 0xb060, [(8, 0x80)], .lo, [rf 31 0 .cnt]⟩,
  ⟨"TBL_CNT", 0xb064, [(8, 0x80)], .hi, [rf 31 0 .cnt]⟩,
  ⟨"TBL_CNT", 0xb068, [(8, 0x80)], .lo, [rf 31 0 .cnt]⟩,
  ⟨"TBL_CNT", 0xb06c, [(8, 0x80)], .hi, [rf 31 0 .cnt]⟩,
  ⟨"TBL_CNT", 0xb070, [(8, 0x80)], .lo, [rf 31 0 .cnt]⟩,
  ⟨"TBL_CNT", 0xb074, [(8, 0x80)], .hi, [rf 31 0 .cnt]⟩,
  ⟨"TBL_CNT", 0xb078, [(8, 0x80)], .lo, [rf 31 0 .cnt]⟩,
  ⟨"TBL_CNT", 0xb07c, [(8, 0x80)], .hi, [rf 31 0 .cnt]⟩]

/-- Rows of block ACL (R273). -/
def regRowsACL : List RegRow := [
  ⟨"ACL_IND_CMD", 0x0, [], .w32, [rf 31 24 .rw, rf 21 8 .rw, rf 2 0 .sc]⟩,
  ⟨"ACL_IND_STATUS", 0x4, [], .w32, [rf 5 3 .ro, rf 2 2 .w1c, rf 1 1 .w1c, rf 0 0 .ro]⟩,
  ⟨"ACL_LKP_CFG", 0x40, [(16, 0x4)], .w32, [rfL 15 15 .rw, rfL 14 11 .rw, rfL 7 7 .rw, rfL 6 3 .rw]⟩,
  ⟨"ACL_SCRUB", 0x80, [], .w32, [rfL 0 0 .rw 1]⟩,
  ⟨"ACL_STATUS", 0x84, [], .w32, [rf 15 0 .ro]⟩,
  ⟨"ACL_IND_DATA", 0x100, [(47, 0x4)], .w32, [rf 31 0 .rw]⟩,
  ⟨"ACL_KEYX", 0x1000, [(320, 0x4)], .w32, [rfL 31 0 .rwl 0 .config]⟩,
  ⟨"ACL_CNT", 0x2000, [(8, 0x40)], .lo, [rf 31 0 .cnt]⟩,
  ⟨"ACL_CNT", 0x2004, [(8, 0x40)], .hi, [rf 31 0 .cnt]⟩,
  ⟨"ACL_CNT", 0x2008, [(8, 0x40)], .lo, [rf 31 0 .cnt]⟩,
  ⟨"ACL_CNT", 0x200c, [(8, 0x40)], .hi, [rf 31 0 .cnt]⟩,
  ⟨"ACL_CNT", 0x2010, [(8, 0x40)], .lo, [rf 31 0 .cnt]⟩,
  ⟨"ACL_CNT", 0x2014, [(8, 0x40)], .hi, [rf 31 0 .cnt]⟩,
  ⟨"ACL_CNT", 0x2018, [(8, 0x40)], .lo, [rf 31 0 .cnt]⟩,
  ⟨"ACL_CNT", 0x201c, [(8, 0x40)], .hi, [rf 31 0 .cnt]⟩,
  ⟨"ACL_CNT", 0x2020, [(8, 0x40)], .lo, [rf 31 0 .cnt]⟩,
  ⟨"ACL_CNT", 0x2024, [(8, 0x40)], .hi, [rf 31 0 .cnt]⟩,
  ⟨"ACL_CNT", 0x2028, [(8, 0x40)], .lo, [rf 31 0 .cnt]⟩,
  ⟨"ACL_CNT", 0x202c, [(8, 0x40)], .hi, [rf 31 0 .cnt]⟩,
  ⟨"ACL_CNT", 0x2030, [(8, 0x40)], .lo, [rf 31 0 .cnt]⟩,
  ⟨"ACL_CNT", 0x2034, [(8, 0x40)], .hi, [rf 31 0 .cnt]⟩,
  ⟨"ACL_CNT", 0x2038, [(8, 0x40)], .lo, [rf 31 0 .cnt]⟩,
  ⟨"ACL_CNT", 0x203c, [(8, 0x40)], .hi, [rf 31 0 .cnt]⟩]

/-- Rows of block PAT (R273). -/
def regRowsPAT : List RegRow := [
  ⟨"PAT_CTRL", 0x0, [], .w32, [rf 31 24 .rw, rf 8 8 .rw, rf 1 1 .sc, rf 0 0 .sc]⟩,
  ⟨"PAT_STATUS", 0x4, [], .w32, [rf 31 24 .ro, rf 18 16 .ro, rf 3 3 .w1c, rf 2 2 .w1c, rf 1 1 .w1c, rf 0 0 .ro]⟩,
  ⟨"PAT_LOAD_SRC", 0x8, [], .w32, [rf 24 0 .rw]⟩,
  ⟨"PAT_SWAP_TICK", 0x10, [], .lo, [rf 31 0 .rw]⟩,
  ⟨"PAT_SWAP_TICK", 0x14, [], .hi, [rf 31 0 .rw]⟩,
  ⟨"PAT_STAGE_BASE", 0x18, [], .lo, [rf 31 0 .ro]⟩,
  ⟨"PAT_STAGE_BASE", 0x1c, [], .hi, [rf 31 0 .ro]⟩,
  ⟨"PAT_CFG", 0x20, [], .w32, [rfL 31 16 .rw 0x100, rfL 0 0 .rw]⟩,
  ⟨"PAT_PROF", 0x40, [(16, 0x4)], .w32, [rfL 31 24 .rw, rfL 23 22 .rw, rfL 21 14 .rw, rfL 13 0 .rw]⟩,
  ⟨"PAT_ACCT", 0x100, [(8, 0x40)], .w32, [rf 0 0 .ro]⟩,
  ⟨"PAT_ACCT", 0x104, [(8, 0x40)], .w32, [rf 31 0 .ro]⟩,
  ⟨"PAT_ACCT", 0x108, [(8, 0x40)], .w32, [rf 31 0 .ro]⟩,
  ⟨"PAT_ACCT", 0x10c, [(8, 0x40)], .w32, [rf 31 0 .ro]⟩,
  ⟨"PAT_ACCT", 0x110, [(8, 0x40)], .lo, [rf 31 0 .ro]⟩,
  ⟨"PAT_ACCT", 0x114, [(8, 0x40)], .hi, [rf 31 0 .ro]⟩,
  ⟨"PAT_ACCT", 0x118, [(8, 0x40)], .w32, [rf 31 0 .ro]⟩,
  ⟨"PAT_ACCT", 0x120, [(8, 0x40)], .w32, [rf 0 0 .ro]⟩,
  ⟨"PAT_ACCT", 0x124, [(8, 0x40)], .w32, [rf 31 0 .ro]⟩,
  ⟨"PAT_ACCT", 0x128, [(8, 0x40)], .w32, [rf 31 0 .ro]⟩,
  ⟨"PAT_ACCT", 0x12c, [(8, 0x40)], .w32, [rf 31 0 .ro]⟩,
  ⟨"PAT_ACCT", 0x130, [(8, 0x40)], .lo, [rf 31 0 .ro]⟩,
  ⟨"PAT_ACCT", 0x134, [(8, 0x40)], .hi, [rf 31 0 .ro]⟩,
  ⟨"PAT_ACCT", 0x138, [(8, 0x40)], .w32, [rf 31 0 .ro]⟩,
  ⟨"PAT_CNT", 0x800, [(8, 0x40)], .lo, [rf 31 0 .cnt]⟩,
  ⟨"PAT_CNT", 0x804, [(8, 0x40)], .hi, [rf 31 0 .cnt]⟩,
  ⟨"PAT_CNT", 0x808, [(8, 0x40)], .lo, [rf 31 0 .cnt]⟩,
  ⟨"PAT_CNT", 0x80c, [(8, 0x40)], .hi, [rf 31 0 .cnt]⟩,
  ⟨"PAT_CNT", 0x810, [(8, 0x40)], .lo, [rf 31 0 .cnt]⟩,
  ⟨"PAT_CNT", 0x814, [(8, 0x40)], .hi, [rf 31 0 .cnt]⟩,
  ⟨"PAT_CNT", 0x818, [(8, 0x40)], .lo, [rf 31 0 .cnt]⟩,
  ⟨"PAT_CNT", 0x81c, [(8, 0x40)], .hi, [rf 31 0 .cnt]⟩,
  ⟨"PAT_CNT", 0x820, [(8, 0x40)], .lo, [rf 31 0 .cnt]⟩,
  ⟨"PAT_CNT", 0x824, [(8, 0x40)], .hi, [rf 31 0 .cnt]⟩,
  ⟨"PAT_CNT", 0x828, [(8, 0x40)], .lo, [rf 31 0 .cnt]⟩,
  ⟨"PAT_CNT", 0x82c, [(8, 0x40)], .hi, [rf 31 0 .cnt]⟩,
  ⟨"PAT_CNT", 0x830, [(8, 0x40)], .lo, [rf 31 0 .cnt]⟩,
  ⟨"PAT_CNT", 0x834, [(8, 0x40)], .hi, [rf 31 0 .cnt]⟩,
  ⟨"PAT_CNT", 0x838, [(8, 0x40)], .lo, [rf 31 0 .cnt]⟩,
  ⟨"PAT_CNT", 0x83c, [(8, 0x40)], .hi, [rf 31 0 .cnt]⟩]

/-- Rows of block GAL (R334). -/
def regRowsGAL : List RegRow := [
  ⟨"GAL_STATUS", 0x0, [(8, 0x80000)], .w32, [rf 25 16 .ro, rf 5 5 .ro, rf 4 4 .ro, rf 3 3 .ro, rf 2 0 .ro]⟩,
  ⟨"GAL_MAP", 0x4, [(8, 0x80000)], .w32, [rf 31 0 .ro 0x76543210]⟩,
  ⟨"GAL_EVT", 0x8, [(8, 0x80000)], .w32, [rf 6 6 .w1c, rf 5 5 .w1c, rf 4 4 .w1c, rf 3 3 .w1c, rf 2 2 .w1c, rf 1 1 .w1c, rf 0 0 .w1c]⟩,
  ⟨"GAL_EVT_EN", 0xc, [(8, 0x80000)], .w32, [rf 6 6 .rw, rf 5 5 .rw, rf 4 4 .rw, rf 3 3 .rw, rf 2 2 .rw, rf 1 1 .rw, rf 0 0 .rw]⟩,
  ⟨"GAL_BG", 0x10, [(8, 0x80000)], .w32, [rfL 15 0 .rw 0x3e8]⟩,
  ⟨"GAL_SA", 0x14, [(8, 0x80000)], .w32, [rfL 15 0 .rw 0x1000]⟩,
  ⟨"GAL_LEASH", 0x18, [(8, 0x80000)], .w32, [rfL 15 0 .rw 0x3e8]⟩,
  ⟨"GAL_IN_STATUS", 0x1c, [(8, 0x80000)], .w32, [rf 27 16 .rc, rf 11 0 .ro]⟩,
  ⟨"GAL_DBG_CTRL", 0x20, [(8, 0x80000)], .w32, [rf 19 19 .w1c, rf 18 16 .rw, rf 14 12 .rw, rf 2 0 .sc]⟩,
  ⟨"GAL_DBG_SEL", 0x24, [(8, 0x80000)], .w32, [rf 16 16 .rw, rf 4 0 .rw]⟩,
  ⟨"GAL_DBG_DATA", 0x28, [(8, 0x80000)], .lo, [rf 31 0 .rw]⟩,
  ⟨"GAL_DBG_DATA", 0x2c, [(8, 0x80000)], .hi, [rf 31 0 .rw]⟩,
  ⟨"GAL_ISSUE", 0x100, [(8, 0x80000), (8, 0x8)], .lo, [rfL 30 28 .rw 7, rfL 26 24 .rw 6, rfL 22 20 .rw 5, rfL 18 16 .rw 4, rfL 14 12 .rw 3, rfL 10 8 .rw 2, rfL 6 4 .rw 1, rfL 2 0 .rw]⟩,
  ⟨"GAL_ISSUE", 0x104, [(8, 0x80000), (8, 0x8)], .hi, [rfL 30 28 .rw 7, rfL 26 24 .rw 6, rfL 22 20 .rw 5, rfL 18 16 .rw 4, rfL 14 12 .rw 3, rfL 10 8 .rw 2, rfL 6 4 .rw 1, rfL 2 0 .rw]⟩,
  ⟨"GAL_FLUE", 0x400, [(8, 0x80000), (128, 0x4)], .w32, [rfL 31 31 .rwl 0 .gallery, rfL 30 28 .rwl 0 .gallery, rfL 27 25 .rwl 0 .gallery, rfL 13 0 .rwl 0 .gallery]⟩,
  ⟨"GAL_FLUE_STATUS", 0x600, [(8, 0x80000), (128, 0x4)], .w32, [rf 29 16 .ro, rf 13 0 .ro]⟩,
  ⟨"GAL_THR", 0x800, [(8, 0x80000), (64, 0x4)], .w32, [rf 31 29 .ro, rf 28 28 .ro, rf 20 16 .ro, rf 15 0 .ro]⟩,
  ⟨"GAL_CNT", 0x1000, [(8, 0x80000), (12, 0x8)], .lo, [rf 31 0 .cnt]⟩,
  ⟨"GAL_CNT", 0x1004, [(8, 0x80000), (12, 0x8)], .hi, [rf 31 0 .cnt]⟩]

/-- Rows of block HRD (R362). -/
def regRowsHRD : List RegRow := [
  ⟨"HRD_POOL_CFG", 0x0, [(8, 0x10)], .w32, [rfL 31 31 .rwl 0 .config, rfL 24 0 .rwl 0 .config]⟩,
  ⟨"HRD_POOL_CFG", 0x4, [(8, 0x10)], .w32, [rfL 15 0 .rw 0x3e8]⟩,
  ⟨"HRD_POOL_STATUS", 0x100, [(16, 0x10)], .w32, [rf 28 0 .ro]⟩,
  ⟨"HRD_POOL_STATUS", 0x104, [(16, 0x10)], .w32, [rf 28 0 .ro]⟩,
  ⟨"HRD_POOL_STATUS", 0x108, [(16, 0x10)], .w32, [rf 10 0 .ro]⟩,
  ⟨"HRD_POOL_STATUS", 0x10c, [(16, 0x10)], .w32, [rf 28 0 .rc]⟩,
  ⟨"HRD_EVT", 0x200, [], .w32, [rf 4 4 .w1c, rf 3 3 .w1c, rf 2 2 .w1c, rf 1 1 .w1c, rf 0 0 .w1c]⟩,
  ⟨"HRD_EVT_EN", 0x204, [], .w32, [rf 4 4 .rw, rf 3 3 .rw, rf 2 2 .rw, rf 1 1 .rw, rf 0 0 .rw]⟩,
  ⟨"HRD_ERR_LOG", 0x210, [], .lo, [rf 28 0 .rc]⟩,
  ⟨"HRD_ERR_LOG", 0x214, [], .hi, [rf 31 24 .rc, rf 22 16 .rc, rf 15 12 .rc, rf 6 4 .rc, rf 2 0 .rc]⟩,
  ⟨"HRD_CNT", 0x400, [(16, 0x40)], .lo, [rf 31 0 .cnt]⟩,
  ⟨"HRD_CNT", 0x404, [(16, 0x40)], .hi, [rf 31 0 .cnt]⟩,
  ⟨"HRD_CNT", 0x408, [(16, 0x40)], .lo, [rf 31 0 .cnt]⟩,
  ⟨"HRD_CNT", 0x40c, [(16, 0x40)], .hi, [rf 31 0 .cnt]⟩,
  ⟨"HRD_CNT", 0x410, [(16, 0x40)], .lo, [rf 31 0 .cnt]⟩,
  ⟨"HRD_CNT", 0x414, [(16, 0x40)], .hi, [rf 31 0 .cnt]⟩,
  ⟨"HRD_CNT", 0x418, [(16, 0x40)], .lo, [rf 31 0 .cnt]⟩,
  ⟨"HRD_CNT", 0x41c, [(16, 0x40)], .hi, [rf 31 0 .cnt]⟩,
  ⟨"HRD_CNT", 0x420, [(16, 0x40)], .lo, [rf 31 0 .cnt]⟩,
  ⟨"HRD_CNT", 0x424, [(16, 0x40)], .hi, [rf 31 0 .cnt]⟩,
  ⟨"HRD_CNT", 0x428, [(16, 0x40)], .lo, [rf 31 0 .cnt]⟩,
  ⟨"HRD_CNT", 0x42c, [(16, 0x40)], .hi, [rf 31 0 .cnt]⟩,
  ⟨"HRD_CNT", 0x430, [(16, 0x40)], .lo, [rf 31 0 .cnt]⟩,
  ⟨"HRD_CNT", 0x434, [(16, 0x40)], .hi, [rf 31 0 .cnt]⟩,
  ⟨"HRD_CNT", 0x438, [(16, 0x40)], .lo, [rf 31 0 .cnt]⟩,
  ⟨"HRD_CNT", 0x43c, [(16, 0x40)], .hi, [rf 31 0 .cnt]⟩]

/-- Rows of block ADM (R362). -/
def regRowsADM : List RegRow := [
  ⟨"ADM_SHARED", 0x0, [], .w32, [rf 28 0 .ro]⟩,
  ⟨"ADM_SHARED_USED", 0x4, [], .w32, [rf 28 0 .ro]⟩,
  ⟨"ADM_RESERVED", 0x8, [], .w32, [rf 28 0 .ro]⟩,
  ⟨"ADM_HDRM_USED", 0xc, [], .w32, [rf 28 0 .ro]⟩,
  ⟨"ADM_LOSSLESS", 0x10, [], .w32, [rfL 31 16 .rw 0x1000, rfL 15 0 .rw 0x100]⟩,
  ⟨"ADM_HOLD_CFG", 0x14, [], .w32, [rfL 31 16 .rw 0x200, rfL 15 0 .rw 0x100]⟩,
  ⟨"ADM_EVT", 0x18, [], .w32, [rf 3 3 .w1c, rf 2 2 .w1c, rf 1 1 .w1c, rf 0 0 .w1c]⟩,
  ⟨"ADM_EVT_EN", 0x1c, [], .w32, [rf 3 3 .rw, rf 2 2 .rw, rf 1 1 .rw, rf 0 0 .rw]⟩,
  ⟨"ADM_PROF", 0x100, [(16, 0x10)], .w32, [rfL 11 8 .rw, rfL 7 4 .rw 2, rfL 3 0 .rw 4]⟩,
  ⟨"ADM_PROF", 0x104, [(16, 0x10)], .w32, [rfL 15 0 .rw]⟩,
  ⟨"ADM_PROF", 0x108, [(16, 0x10)], .w32, [rfL 28 0 .rw]⟩,
  ⟨"ADM_CLASS", 0x200, [(8, 0x10)], .w32, [rfL 2 2 .rwl 0 .config, rfL 1 1 .rw, rfL 0 0 .rw]⟩,
  ⟨"ADM_CLASS", 0x204, [(8, 0x10)], .w32, [rfL 28 0 .rw]⟩,
  ⟨"ADM_VICTIM", 0x300, [(8, 0x4)], .w32, [rf 31 31 .ro, rf 17 0 .ro]⟩,
  ⟨"ADM_CNT", 0x800, [(8, 0x40)], .lo, [rf 31 0 .cnt]⟩,
  ⟨"ADM_CNT", 0x804, [(8, 0x40)], .hi, [rf 31 0 .cnt]⟩,
  ⟨"ADM_CNT", 0x808, [(8, 0x40)], .lo, [rf 31 0 .cnt]⟩,
  ⟨"ADM_CNT", 0x80c, [(8, 0x40)], .hi, [rf 31 0 .cnt]⟩,
  ⟨"ADM_CNT", 0x810, [(8, 0x40)], .lo, [rf 31 0 .cnt]⟩,
  ⟨"ADM_CNT", 0x814, [(8, 0x40)], .hi, [rf 31 0 .cnt]⟩,
  ⟨"ADM_CNT", 0x818, [(8, 0x40)], .lo, [rf 31 0 .cnt]⟩,
  ⟨"ADM_CNT", 0x81c, [(8, 0x40)], .hi, [rf 31 0 .cnt]⟩,
  ⟨"ADM_CNT", 0x820, [(8, 0x40)], .lo, [rf 31 0 .cnt]⟩,
  ⟨"ADM_CNT", 0x824, [(8, 0x40)], .hi, [rf 31 0 .cnt]⟩,
  ⟨"ADM_CNT", 0x828, [(8, 0x40)], .lo, [rf 31 0 .cnt]⟩,
  ⟨"ADM_CNT", 0x82c, [(8, 0x40)], .hi, [rf 31 0 .cnt]⟩,
  ⟨"ADM_CNT", 0x830, [(8, 0x40)], .lo, [rf 31 0 .cnt]⟩,
  ⟨"ADM_CNT", 0x834, [(8, 0x40)], .hi, [rf 31 0 .cnt]⟩,
  ⟨"ADM_CNT", 0x838, [(8, 0x40)], .lo, [rf 31 0 .cnt]⟩,
  ⟨"ADM_CNT", 0x83c, [(8, 0x40)], .hi, [rf 31 0 .cnt]⟩,
  ⟨"ADM_PORT", 0x1000, [(400, 0x4)], .w32, [rfL 15 0 .rw]⟩,
  ⟨"ADM_PG", 0x4000, [(3200, 0x8)], .w32, [rf 31 31 .ro, rfL 3 0 .rw 4]⟩,
  ⟨"ADM_PG", 0x4004, [(3200, 0x8)], .w32, [rfL 15 0 .rw]⟩,
  ⟨"ADM_EPORT", 0xb000, [(146, 0x4)], .w32, [rf 31 31 .ro, rf 30 30 .ro, rfL 16 0 .rw 0x1388]⟩,
  ⟨"ADM_PORT_CNT", 0xc000, [(146, 0x20)], .lo, [rf 31 0 .cnt]⟩,
  ⟨"ADM_PORT_CNT", 0xc004, [(146, 0x20)], .hi, [rf 31 0 .cnt]⟩,
  ⟨"ADM_PORT_CNT", 0xc008, [(146, 0x20)], .lo, [rf 31 0 .cnt]⟩,
  ⟨"ADM_PORT_CNT", 0xc00c, [(146, 0x20)], .hi, [rf 31 0 .cnt]⟩,
  ⟨"ADM_PORT_CNT", 0xc010, [(146, 0x20)], .lo, [rf 31 0 .cnt]⟩,
  ⟨"ADM_PORT_CNT", 0xc014, [(146, 0x20)], .hi, [rf 31 0 .cnt]⟩,
  ⟨"ADM_PORT_CNT", 0xc018, [(146, 0x20)], .lo, [rf 31 0 .cnt]⟩,
  ⟨"ADM_PORT_CNT", 0xc01c, [(146, 0x20)], .hi, [rf 31 0 .cnt]⟩]

/-- Rows of block QUE (R382). -/
def regRowsQUE : List RegRow := [
  ⟨"QUE_IND_CMD", 0x0, [], .w32, [rf 25 8 .rw, rf 2 0 .sc]⟩,
  ⟨"QUE_IND_STATUS", 0x4, [], .w32, [rf 5 3 .ro, rf 2 2 .w1c, rf 1 1 .w1c, rf 0 0 .ro]⟩,
  ⟨"QUE_IND_DATA", 0x10, [(8, 0x4)], .w32, [rf 31 0 .rw]⟩,
  ⟨"QUE_EVT", 0x40, [], .w32, [rf 0 0 .w1c]⟩,
  ⟨"QUE_EVT_EN", 0x44, [], .w32, [rf 0 0 .rw]⟩,
  ⟨"QUE_CNT", 0x100, [], .lo, [rf 31 0 .cnt]⟩,
  ⟨"QUE_CNT", 0x104, [], .hi, [rf 31 0 .cnt]⟩,
  ⟨"QUE_CNT", 0x108, [], .lo, [rf 31 0 .cnt]⟩,
  ⟨"QUE_CNT", 0x10c, [], .hi, [rf 31 0 .cnt]⟩]

/-- Rows of block SCH (R382, R519). -/
def regRowsSCH : List RegRow := [
  ⟨"SCH_IND_CMD", 0x0, [], .w32, [rf 30 28 .rw, rf 27 12 .rw, rf 2 0 .sc]⟩,
  ⟨"SCH_IND_STATUS", 0x4, [], .w32, [rf 5 3 .ro, rf 2 2 .w1c, rf 1 1 .w1c, rf 0 0 .ro]⟩,
  ⟨"SCH_IND_DATA", 0x10, [(8, 0x4)], .w32, [rf 31 0 .rw]⟩,
  ⟨"SCH_TOPO", 0x40, [], .w32, [rfL 0 0 .ro]⟩,
  ⟨"SCH_EPORT", 0x1000, [(400, 0x20)], .w32, [rfL 31 16 .rw 1, rfL 2 0 .rw 7]⟩,
  ⟨"SCH_EPORT", 0x1004, [(400, 0x20)], .w32, [rfL 31 16 .rw 1, rfL 2 0 .rw 6]⟩,
  ⟨"SCH_EPORT", 0x1008, [(400, 0x20)], .w32, [rfL 31 16 .rw 1, rfL 2 0 .rw 5]⟩,
  ⟨"SCH_EPORT", 0x100c, [(400, 0x20)], .w32, [rfL 31 16 .rw 1, rfL 2 0 .rw 4]⟩,
  ⟨"SCH_EPORT", 0x1010, [(400, 0x20)], .w32, [rfL 31 16 .rw 1, rfL 2 0 .rw 3]⟩,
  ⟨"SCH_EPORT", 0x1014, [(400, 0x20)], .w32, [rfL 31 16 .rw 1, rfL 2 0 .rw 2]⟩,
  ⟨"SCH_EPORT", 0x1018, [(400, 0x20)], .w32, [rfL 31 16 .rw 1, rfL 2 0 .rw 1]⟩,
  ⟨"SCH_EPORT", 0x101c, [(400, 0x20)], .w32, [rfL 31 16 .rw 1, rfL 2 0 .rw]⟩,
  ⟨"SCH_EQ_DEPTH", 0x8000, [(3200, 0x4)], .w32, [rf 18 0 .ro]⟩]

/-- Rows of block SHP (R412). -/
def regRowsSHP : List RegRow := [
  ⟨"SHP_IND_CMD", 0x0, [], .w32, [rf 31 28 .rw, rf 27 8 .rw, rf 1 0 .sc]⟩,
  ⟨"SHP_IND_STATUS", 0x4, [], .w32, [rf 5 3 .ro, rf 2 2 .w1c, rf 1 1 .w1c, rf 0 0 .ro]⟩,
  ⟨"SHP_IND_DATA", 0x10, [(8, 0x4)], .w32, [rf 31 0 .rw]⟩,
  ⟨"SHP_SWEEP", 0x40, [], .w32, [rf 19 0 .ro]⟩,
  ⟨"SHP_SOJ_CFG", 0x50, [], .w32, [rfL 15 0 .rw 0x3e8]⟩,
  ⟨"SHP_SOJ_SEL", 0x54, [], .w32, [rf 31 31 .wo, rf 17 0 .wo]⟩,
  ⟨"SHP_SOJ_DATA", 0x58, [(4, 0x4)], .w32, [rf 31 0 .ro]⟩]

/-- Rows of block GAT (R412). -/
def regRowsGAT : List RegRow := [
  ⟨"GAT_IND_CMD", 0x0, [], .w32, [rf 31 30 .rw, rf 29 14 .rw, rf 13 4 .rw, rf 3 0 .sc]⟩,
  ⟨"GAT_IND_STATUS", 0x4, [], .w32, [rf 5 3 .ro, rf 2 2 .w1c, rf 1 1 .w1c, rf 0 0 .ro]⟩,
  ⟨"GAT_IND_DATA", 0x10, [(24, 0x4)], .w32, [rf 31 0 .rw]⟩,
  ⟨"GAT_EVT", 0x80, [], .w32, [rf 3 3 .w1c, rf 2 2 .w1c, rf 1 1 .w1c, rf 0 0 .w1c]⟩,
  ⟨"GAT_EVT_EN", 0x84, [], .w32, [rf 3 3 .rw, rf 2 2 .rw, rf 1 1 .rw, rf 0 0 .rw]⟩,
  ⟨"GAT_CNT", 0x90, [], .lo, [rf 31 0 .cnt]⟩,
  ⟨"GAT_CNT", 0x94, [], .hi, [rf 31 0 .cnt]⟩,
  ⟨"GAT_PORT", 0x1000, [(146, 0x4)], .w32, [rfL 23 16 .rw, rfL 15 8 .rw 0x20, rfL 7 0 .rw 8]⟩,
  ⟨"GAT_PORT_CNT", 0x2000, [(146, 0x10)], .lo, [rf 31 0 .cnt]⟩,
  ⟨"GAT_PORT_CNT", 0x2004, [(146, 0x10)], .hi, [rf 31 0 .cnt]⟩,
  ⟨"GAT_PORT_CNT", 0x2008, [(146, 0x10)], .lo, [rf 31 0 .cnt]⟩,
  ⟨"GAT_PORT_CNT", 0x200c, [(146, 0x10)], .hi, [rf 31 0 .cnt]⟩]

/-- Rows of block FAB (R432). -/
def regRowsFAB : List RegRow := [
  ⟨"FAB_CFG", 0x0, [], .w32, [rfL 26 16 .rwl 0 .config, rfL 15 8 .rw 0xa8, rfL 0 0 .ro]⟩,
  ⟨"FAB_STATUS", 0x4, [], .w32, [rf 23 16 .ro, rf 15 8 .ro, rf 0 0 .ro]⟩,
  ⟨"FAB_GRANT_CFG", 0x8, [], .w32, [rfL 31 16 .rw 0x14, rfL 10 0 .rw 0x40]⟩,
  ⟨"FAB_TIMING", 0xc, [], .w32, [rfL 31 16 .rw 0xa, rfL 15 0 .rw 0xfa0]⟩,
  ⟨"FAB_EVT", 0x10, [], .w32, [rf 4 4 .w1c, rf 3 3 .w1c, rf 2 2 .w1c, rf 1 1 .w1c, rf 0 0 .w1c]⟩,
  ⟨"FAB_EVT_EN", 0x14, [], .w32, [rf 4 4 .rw, rf 3 3 .rw, rf 2 2 .rw, rf 1 1 .rw, rf 0 0 .rw]⟩,
  ⟨"FAB_EGR_STATUS", 0x18, [], .w32, [rf 18 0 .ro]⟩,
  ⟨"FAB_LINK", 0x1000, [(192, 0x10)], .w32, [rfL 3 3 .rwl 0 .config, rfL 2 2 .rwl 0 .config, rfL 1 0 .rwl 0 .config]⟩,
  ⟨"FAB_LINK", 0x1004, [(192, 0x10)], .w32, [rf 2 0 .ro]⟩,
  ⟨"FAB_EPORT", 0x4000, [(400, 0x8)], .w32, [rfL 18 0 .rw 0x400]⟩,
  ⟨"FAB_EPORT", 0x4004, [(400, 0x8)], .w32, [rf 18 0 .ro]⟩,
  ⟨"FAB_DEST", 0x6000, [(64, 0x4)], .w32, [rfL 14 0 .rwl 0 .config]⟩,
  ⟨"FAB_SRC", 0x8000, [(2048, 0x4)], .w32, [rfL 31 31 .rwl 0 .config, rfL 14 0 .rwl 0 .config]⟩,
  ⟨"FAB_CNT", 0x10000, [], .lo, [rf 31 0 .cnt]⟩,
  ⟨"FAB_CNT", 0x10004, [], .hi, [rf 31 0 .cnt]⟩,
  ⟨"FAB_CNT", 0x10008, [], .lo, [rf 31 0 .cnt]⟩,
  ⟨"FAB_CNT", 0x1000c, [], .hi, [rf 31 0 .cnt]⟩,
  ⟨"FAB_CNT", 0x10010, [], .lo, [rf 31 0 .cnt]⟩,
  ⟨"FAB_CNT", 0x10014, [], .hi, [rf 31 0 .cnt]⟩,
  ⟨"FAB_CNT", 0x10018, [], .lo, [rf 31 0 .cnt]⟩,
  ⟨"FAB_CNT", 0x1001c, [], .hi, [rf 31 0 .cnt]⟩,
  ⟨"FAB_CNT", 0x10020, [], .lo, [rf 31 0 .cnt]⟩,
  ⟨"FAB_CNT", 0x10024, [], .hi, [rf 31 0 .cnt]⟩,
  ⟨"FAB_CNT", 0x10028, [], .lo, [rf 31 0 .cnt]⟩,
  ⟨"FAB_CNT", 0x1002c, [], .hi, [rf 31 0 .cnt]⟩,
  ⟨"FAB_CNT", 0x10030, [], .lo, [rf 31 0 .cnt]⟩,
  ⟨"FAB_CNT", 0x10034, [], .hi, [rf 31 0 .cnt]⟩,
  ⟨"FAB_CNT", 0x10038, [], .lo, [rf 31 0 .cnt]⟩,
  ⟨"FAB_CNT", 0x1003c, [], .hi, [rf 31 0 .cnt]⟩,
  ⟨"FAB_CNT", 0x10040, [], .lo, [rf 31 0 .cnt]⟩,
  ⟨"FAB_CNT", 0x10044, [], .hi, [rf 31 0 .cnt]⟩,
  ⟨"FAB_CNT", 0x10048, [], .lo, [rf 31 0 .cnt]⟩,
  ⟨"FAB_CNT", 0x1004c, [], .hi, [rf 31 0 .cnt]⟩,
  ⟨"FAB_CNT", 0x10050, [], .lo, [rf 31 0 .cnt]⟩,
  ⟨"FAB_CNT", 0x10054, [], .hi, [rf 31 0 .cnt]⟩,
  ⟨"FAB_LINK_CNT", 0x20000, [(192, 0x20)], .lo, [rf 31 0 .cnt]⟩,
  ⟨"FAB_LINK_CNT", 0x20004, [(192, 0x20)], .hi, [rf 31 0 .cnt]⟩,
  ⟨"FAB_LINK_CNT", 0x20008, [(192, 0x20)], .lo, [rf 31 0 .cnt]⟩,
  ⟨"FAB_LINK_CNT", 0x2000c, [(192, 0x20)], .hi, [rf 31 0 .cnt]⟩,
  ⟨"FAB_LINK_CNT", 0x20010, [(192, 0x20)], .lo, [rf 31 0 .cnt]⟩,
  ⟨"FAB_LINK_CNT", 0x20014, [(192, 0x20)], .hi, [rf 31 0 .cnt]⟩,
  ⟨"FAB_LINK_CNT", 0x20018, [(192, 0x20)], .lo, [rf 31 0 .cnt]⟩,
  ⟨"FAB_LINK_CNT", 0x2001c, [(192, 0x20)], .hi, [rf 31 0 .cnt]⟩]

/-- Rows of block SVY (R458, R460, R461, R519). -/
def regRowsSVY : List RegRow := [
  ⟨"SVY_CNT_CFG", 0x0, [], .w32, [rfL 0 0 .rw]⟩,
  ⟨"SVY_WIN", 0x4, [], .w32, [rfL 15 0 .rw 0x3e8]⟩,
  ⟨"SVY_BW_CFG", 0x8, [], .w32, [rfL 15 0 .rw 0x3e8]⟩,
  ⟨"SVY_EVT", 0x10, [], .w32, [rf 4 4 .w1c, rf 3 3 .w1c, rf 2 2 .w1c, rf 1 1 .w1c, rf 0 0 .w1c]⟩,
  ⟨"SVY_EVT_EN", 0x14, [], .w32, [rf 4 4 .rw, rf 3 3 .rw, rf 2 2 .rw, rf 1 1 .rw, rf 0 0 .rw]⟩,
  ⟨"SVY_RING_BASE", 0x20, [], .lo, [rf 31 12 .rw]⟩,
  ⟨"SVY_RING_BASE", 0x24, [], .hi, [rf 31 0 .rw]⟩,
  ⟨"SVY_RING_CFG", 0x28, [], .w32, [rf 31 31 .rw, rf 4 0 .rw 0x10]⟩,
  ⟨"SVY_RING_PROD", 0x2c, [], .w32, [rf 29 0 .ro]⟩,
  ⟨"SVY_RING_CONS", 0x30, [], .w32, [rf 29 0 .rw]⟩,
  ⟨"SVY_IND_CMD", 0x40, [], .w32, [rf 27 12 .rw, rf 2 0 .sc]⟩,
  ⟨"SVY_IND_STATUS", 0x44, [], .w32, [rf 5 3 .ro, rf 2 2 .w1c, rf 1 1 .w1c, rf 0 0 .ro]⟩,
  ⟨"SVY_IND_DATA", 0x80, [(80, 0x4)], .w32, [rf 31 0 .rw]⟩,
  ⟨"SVY_DUMP_SET", 0x200, [(16, 0x10)], .w32, [rfL 31 31 .rw, rf 30 30 .ro, rfL 23 16 .rw]⟩,
  ⟨"SVY_DUMP_SET", 0x204, [(16, 0x10)], .w32, [rfL 19 0 .rw]⟩,
  ⟨"SVY_DUMP_SET", 0x208, [(16, 0x10)], .w32, [rfL 19 0 .rw]⟩,
  ⟨"SVY_DUMP_SET", 0x20c, [(16, 0x10)], .w32, [rfL 31 0 .rw 0x3e8]⟩,
  ⟨"SVY_MIRROR", 0x400, [(64, 0x10)], .w32, [rfL 31 31 .rw, rfL 30 30 .rw, rfL 29 27 .rw, rfL 15 0 .rw 1]⟩,
  ⟨"SVY_MIRROR", 0x404, [(64, 0x10)], .w32, [rfL 17 0 .rw]⟩,
  ⟨"SVY_MIRROR", 0x408, [(64, 0x10)], .w32, [rfL 19 0 .rw]⟩,
  ⟨"SVY_MIRROR", 0x40c, [(64, 0x10)], .w32, [rfL 31 24 .rw, rfL 8 0 .rw]⟩,
  ⟨"SVY_PORT_MIRROR", 0x1000, [(400, 0x4)], .w32, [rfL 15 15 .rw, rfL 13 8 .rw, rfL 7 7 .rw, rfL 5 0 .rw]⟩,
  ⟨"SVY_BW", 0x2000, [(400, 0x40)], .lo, [rf 31 0 .ro]⟩,
  ⟨"SVY_BW", 0x2004, [(400, 0x40)], .hi, [rf 31 0 .ro]⟩,
  ⟨"SVY_BW", 0x2008, [(400, 0x40)], .lo, [rf 31 0 .ro]⟩,
  ⟨"SVY_BW", 0x200c, [(400, 0x40)], .hi, [rf 31 0 .ro]⟩,
  ⟨"SVY_BW", 0x2010, [(400, 0x40)], .lo, [rf 31 0 .ro]⟩,
  ⟨"SVY_BW", 0x2014, [(400, 0x40)], .hi, [rf 31 0 .ro]⟩,
  ⟨"SVY_BW", 0x2018, [(400, 0x40)], .lo, [rf 31 0 .ro]⟩,
  ⟨"SVY_BW", 0x201c, [(400, 0x40)], .hi, [rf 31 0 .ro]⟩,
  ⟨"SVY_BW", 0x2020, [(400, 0x40)], .lo, [rf 31 0 .rc]⟩,
  ⟨"SVY_BW", 0x2024, [(400, 0x40)], .hi, [rf 31 0 .rc]⟩,
  ⟨"SVY_BW", 0x2028, [(400, 0x40)], .lo, [rf 31 0 .rc]⟩,
  ⟨"SVY_BW", 0x202c, [(400, 0x40)], .hi, [rf 31 0 .rc]⟩,
  ⟨"SVY_BW", 0x2030, [(400, 0x40)], .lo, [rf 31 0 .ro]⟩,
  ⟨"SVY_BW", 0x2034, [(400, 0x40)], .hi, [rf 31 0 .ro]⟩,
  ⟨"SVY_MIRROR_CNT", 0x9000, [(64, 0x10)], .lo, [rf 31 0 .cnt]⟩,
  ⟨"SVY_MIRROR_CNT", 0x9004, [(64, 0x10)], .hi, [rf 31 0 .cnt]⟩,
  ⟨"SVY_MIRROR_CNT", 0x9008, [(64, 0x10)], .lo, [rf 31 0 .cnt]⟩,
  ⟨"SVY_MIRROR_CNT", 0x900c, [(64, 0x10)], .hi, [rf 31 0 .cnt]⟩,
  ⟨"SVY_CNT", 0xa000, [], .lo, [rf 31 0 .cnt]⟩,
  ⟨"SVY_CNT", 0xa004, [], .hi, [rf 31 0 .cnt]⟩,
  ⟨"SVY_CNT", 0xa008, [], .lo, [rf 31 0 .cnt]⟩,
  ⟨"SVY_CNT", 0xa00c, [], .hi, [rf 31 0 .cnt]⟩,
  ⟨"SVY_CNT", 0xa010, [], .lo, [rf 31 0 .cnt]⟩,
  ⟨"SVY_CNT", 0xa014, [], .hi, [rf 31 0 .cnt]⟩,
  ⟨"SVY_CNT", 0xa018, [], .lo, [rf 31 0 .cnt]⟩,
  ⟨"SVY_CNT", 0xa01c, [], .hi, [rf 31 0 .cnt]⟩,
  ⟨"SVY_CNT", 0xa020, [], .lo, [rf 31 0 .cnt]⟩,
  ⟨"SVY_CNT", 0xa024, [], .hi, [rf 31 0 .cnt]⟩]

/-- Rows of block PMC (R457, R458, R461). -/
def regRowsPMC : List RegRow := [
  ⟨"PMC_CTRL", 0x0, [(8, 0x10000)], .w32, [rf 1 1 .rw, rf 0 0 .rw]⟩,
  ⟨"PMC_TICK", 0x8, [(8, 0x10000)], .lo, [rf 31 0 .rw]⟩,
  ⟨"PMC_TICK", 0xc, [(8, 0x10000)], .hi, [rf 31 0 .rw]⟩,
  ⟨"PMC_SEL", 0x100, [(8, 0x10000), (64, 0x4)], .w32, [rf 31 31 .rw, rf 30 30 .rw, rf 29 29 .rw, rf 23 16 .rw 0xff, rf 7 0 .rw]⟩,
  ⟨"PMC_SAMPLE_AT", 0x200, [(8, 0x10000), (64, 0x8)], .lo, [rf 31 0 .rw]⟩,
  ⟨"PMC_SAMPLE_AT", 0x204, [(8, 0x10000), (64, 0x8)], .hi, [rf 15 0 .rw]⟩,
  ⟨"PMC_VAL", 0x400, [(8, 0x10000), (64, 0x8)], .lo, [rf 31 0 .rw]⟩,
  ⟨"PMC_VAL", 0x404, [(8, 0x10000), (64, 0x8)], .hi, [rf 15 0 .rw]⟩,
  ⟨"PMC_SFIFO", 0x800, [(8, 0x10000)], .lo, [rf 31 0 .ro]⟩,
  ⟨"PMC_SFIFO", 0x804, [(8, 0x10000)], .hi, [rf 31 0 .ro]⟩,
  ⟨"PMC_SFIFO_STATUS", 0x808, [(8, 0x10000)], .w32, [rf 31 16 .rc, rf 8 0 .ro]⟩,
  ⟨"PMC_UVIEW", 0x80000, [(512, 0x8)], .lo, [rf 31 0 .ro]⟩,
  ⟨"PMC_UVIEW", 0x80004, [(512, 0x8)], .hi, [rf 31 0 .ro]⟩,
  ⟨"PMC_USER_EN", 0x90000, [], .w32, [rfL 0 0 .rw]⟩]

/-- Rows of block HBM (R518). -/
def regRowsHBM : List RegRow := [
  ⟨"HBM_STACK_STATUS", 0x0, [(8, 0x4)], .w32, [rf 31 31 .ro, rf 7 0 .ro]⟩,
  ⟨"HBM_CNT", 0x100, [(8, 0x20)], .lo, [rf 31 0 .cnt]⟩,
  ⟨"HBM_CNT", 0x104, [(8, 0x20)], .hi, [rf 31 0 .cnt]⟩,
  ⟨"HBM_CNT", 0x108, [(8, 0x20)], .lo, [rf 31 0 .cnt]⟩,
  ⟨"HBM_CNT", 0x10c, [(8, 0x20)], .hi, [rf 31 0 .cnt]⟩,
  ⟨"HBM_CNT", 0x110, [(8, 0x20)], .lo, [rf 31 0 .cnt]⟩,
  ⟨"HBM_CNT", 0x114, [(8, 0x20)], .hi, [rf 31 0 .cnt]⟩,
  ⟨"HBM_CNT", 0x118, [(8, 0x20)], .lo, [rf 31 0 .cnt]⟩,
  ⟨"HBM_CNT", 0x11c, [(8, 0x20)], .hi, [rf 31 0 .cnt]⟩]

/-- The block map (R514). -/
def regBlocks : List RegBlock := [
  ⟨"GLB", 0x0, 0x10000, .fe, true, regRowsGLB⟩,
  ⟨"KPR", 0x10000, 0x10000, .fe, true, regRowsKPR⟩,
  ⟨"EVT", 0x20000, 0x10000, .fe, true, regRowsEVT⟩,
  ⟨"HST", 0x30000, 0x10000, .fe, true, regRowsHST⟩,
  ⟨"WRS", 0x40000, 0x10000, .fe, true, regRowsWRS⟩,
  ⟨"CAD", 0x50000, 0x10000, .fe, true, regRowsCAD⟩,
  ⟨"MOD", 0x60000, 0x10000, .fe, true, regRowsMOD⟩,
  ⟨"BIS", 0x70000, 0x10000, .fe, true, regRowsBIS⟩,
  ⟨"LPT", 0x100000, 0x100000, .fe, false, regRowsLPT⟩,
  ⟨"OTN", 0x200000, 0x100000, .fe, false, regRowsOTN⟩,
  ⟨"TSI", 0x300000, 0x100000, .fe, false, regRowsTSI⟩,
  ⟨"PRS", 0x400000, 0x40000, .fe, false, regRowsPRS⟩,
  ⟨"CLS", 0x440000, 0xc0000, .fe, false, regRowsCLS⟩,
  ⟨"TBL", 0x500000, 0x100000, .fe, false, regRowsTBL⟩,
  ⟨"ACL", 0x600000, 0x80000, .fe, false, regRowsACL⟩,
  ⟨"PAT", 0x680000, 0x80000, .fe, false, regRowsPAT⟩,
  ⟨"GAL", 0x700000, 0x400000, .fe, false, regRowsGAL⟩,
  ⟨"HRD", 0xb00000, 0x100000, .tm, false, regRowsHRD⟩,
  ⟨"ADM", 0xc00000, 0x100000, .tm, false, regRowsADM⟩,
  ⟨"QUE", 0xd00000, 0x300000, .tm, false, regRowsQUE⟩,
  ⟨"SCH", 0x1000000, 0x1000000, .tm, false, regRowsSCH⟩,
  ⟨"SHP", 0x2000000, 0x1000000, .tm, false, regRowsSHP⟩,
  ⟨"GAT", 0x3000000, 0x400000, .tm, false, regRowsGAT⟩,
  ⟨"FAB", 0x3400000, 0x100000, .tm, false, regRowsFAB⟩,
  ⟨"SVY", 0x3500000, 0x400000, .tm, false, regRowsSVY⟩,
  ⟨"PMC", 0x3900000, 0x100000, .fe, false, regRowsPMC⟩,
  ⟨"HBM", 0x3a00000, 0x100000, .tm, false, regRowsHBM⟩]

end Sys2Proof.Machine
end

