-- ==== Sys2Proof/Machine/Fields.lean ====
section
/-! DEFINITION. Named registers (`R.<register>`) and named fields (`F.<register>_<field>`) of the map: the address of
element 0, the page stride, the index stride and the bits, as the chapters' register tables give them. Only the names
the model uses stand here; Machine/RegMap.lean holds every word. -/

namespace Sys2Proof.Machine

/-- A register: BAR0 address of element 0, page stride and index stride (R516). -/
structure Reg where
  addr : Nat
  pg : Nat
  st : Nat
  deriving DecidableEq, Repr

/-- Element `i` of a register array. -/
def Reg.at (r : Reg) (i : Nat) : Reg := { r with addr := r.addr + i * r.st }

/-- A register array on page `p` of a page array. -/
def Reg.on (r : Reg) (p : Nat) : Reg := { r with addr := r.addr + p * r.pg }

/-- A field: its word's address, page stride, index stride and its bits [hi:lo] (R6). -/
structure Fld where
  addr : Nat
  pg : Nat
  st : Nat
  hi : Nat
  lo : Nat
  deriving DecidableEq, Repr

/-- The field of element `i` of a register array. -/
def Fld.at (f : Fld) (i : Nat) : Fld := { f with addr := f.addr + i * f.st }

/-- The field on page `p` of a page array. -/
def Fld.on (f : Fld) (p : Nat) : Fld := { f with addr := f.addr + p * f.pg }

/-- The number of bits of a field. -/
def Fld.width (f : Fld) : Nat := f.hi + 1 - f.lo

/-- ACL_IND_CMD.INDEX (R273). -/
def F.ACL_IND_CMD_INDEX : Fld := ⟨0x600000, 0x0, 0x0, 21, 8⟩

/-- ACL_IND_CMD.OP (R273). -/
def F.ACL_IND_CMD_OP : Fld := ⟨0x600000, 0x0, 0x0, 2, 0⟩

/-- ACL_IND_CMD.SLICE_MASK (R273). -/
def F.ACL_IND_CMD_SLICE_MASK : Fld := ⟨0x600000, 0x0, 0x0, 31, 24⟩

/-- ACL_IND_STATUS.BUSY (R273). -/
def F.ACL_IND_STATUS_BUSY : Fld := ⟨0x600004, 0x0, 0x0, 0, 0⟩

/-- ACL_IND_STATUS.DONE (R273). -/
def F.ACL_IND_STATUS_DONE : Fld := ⟨0x600004, 0x0, 0x0, 1, 1⟩

/-- ACL_IND_STATUS.ERR (R273). -/
def F.ACL_IND_STATUS_ERR : Fld := ⟨0x600004, 0x0, 0x0, 5, 3⟩

/-- ACL_IND_STATUS.WR_IGNORED (R273). -/
def F.ACL_IND_STATUS_WR_IGNORED : Fld := ⟨0x600004, 0x0, 0x0, 2, 2⟩

/-- ACL_LKP_CFG.EN0 (R273). -/
def F.ACL_LKP_CFG_EN0 : Fld := ⟨0x600040, 0x0, 0x4, 7, 7⟩

/-- ACL_LKP_CFG.EN1 (R273). -/
def F.ACL_LKP_CFG_EN1 : Fld := ⟨0x600040, 0x0, 0x4, 15, 15⟩

/-- ACL_LKP_CFG.KEYSET0 (R273). -/
def F.ACL_LKP_CFG_KEYSET0 : Fld := ⟨0x600040, 0x0, 0x4, 6, 3⟩

/-- ACL_LKP_CFG.KEYSET1 (R273). -/
def F.ACL_LKP_CFG_KEYSET1 : Fld := ⟨0x600040, 0x0, 0x4, 14, 11⟩

/-- ACL_SCRUB.EN (R273). -/
def F.ACL_SCRUB_EN : Fld := ⟨0x600080, 0x0, 0x0, 0, 0⟩

/-- ACL_STATUS.WGEN (R273). -/
def F.ACL_STATUS_WGEN : Fld := ⟨0x600084, 0x0, 0x0, 15, 0⟩

/-- ADM_CLASS.LOSSLESS (R362). -/
def F.ADM_CLASS_LOSSLESS : Fld := ⟨0xc00200, 0x0, 0x10, 2, 2⟩

/-- ADM_CLASS.MIN (R362). -/
def F.ADM_CLASS_MIN : Fld := ⟨0xc00204, 0x0, 0x10, 28, 0⟩

/-- ADM_CLASS.PUSH (R362). -/
def F.ADM_CLASS_PUSH : Fld := ⟨0xc00200, 0x0, 0x10, 0, 0⟩

/-- ADM_CLASS.VICTIM (R362). -/
def F.ADM_CLASS_VICTIM : Fld := ⟨0xc00200, 0x0, 0x10, 1, 1⟩

/-- ADM_EPORT.FLUSHED (R362). -/
def F.ADM_EPORT_FLUSHED : Fld := ⟨0xc0b000, 0x0, 0x4, 30, 30⟩

/-- ADM_EPORT.HOLDING (R362). -/
def F.ADM_EPORT_HOLDING : Fld := ⟨0xc0b000, 0x0, 0x4, 31, 31⟩

/-- ADM_EPORT.HOLD_US (R362). -/
def F.ADM_EPORT_HOLD_US : Fld := ⟨0xc0b000, 0x0, 0x4, 16, 0⟩

/-- ADM_EVT.HDRM_DROP (R362). -/
def F.ADM_EVT_HDRM_DROP : Fld := ⟨0xc00018, 0x0, 0x0, 0, 0⟩

/-- ADM_EVT.HOLD_DROP (R362). -/
def F.ADM_EVT_HOLD_DROP : Fld := ⟨0xc00018, 0x0, 0x0, 1, 1⟩

/-- ADM_EVT.PORT_FLUSH (R362). -/
def F.ADM_EVT_PORT_FLUSH : Fld := ⟨0xc00018, 0x0, 0x0, 3, 3⟩

/-- ADM_EVT.RESV_ERR (R362). -/
def F.ADM_EVT_RESV_ERR : Fld := ⟨0xc00018, 0x0, 0x0, 2, 2⟩

/-- ADM_HDRM_USED.CELLS (R362). -/
def F.ADM_HDRM_USED_CELLS : Fld := ⟨0xc0000c, 0x0, 0x0, 28, 0⟩

/-- ADM_HOLD_CFG.XOFF (R362). -/
def F.ADM_HOLD_CFG_XOFF : Fld := ⟨0xc00014, 0x0, 0x0, 31, 16⟩

/-- ADM_HOLD_CFG.XON (R362). -/
def F.ADM_HOLD_CFG_XON : Fld := ⟨0xc00014, 0x0, 0x0, 15, 0⟩

/-- ADM_LOSSLESS.FLOOR (R362). -/
def F.ADM_LOSSLESS_FLOOR : Fld := ⟨0xc00010, 0x0, 0x0, 15, 0⟩

/-- ADM_LOSSLESS.SLICE_HDRM (R362). -/
def F.ADM_LOSSLESS_SLICE_HDRM : Fld := ⟨0xc00010, 0x0, 0x0, 31, 16⟩

/-- ADM_PG.ALPHA (R362). -/
def F.ADM_PG_ALPHA : Fld := ⟨0xc04000, 0x0, 0x8, 3, 0⟩

/-- ADM_PG.HDRM (R362). -/
def F.ADM_PG_HDRM : Fld := ⟨0xc04004, 0x0, 0x8, 15, 0⟩

/-- ADM_PG.XOFF (R362). -/
def F.ADM_PG_XOFF : Fld := ⟨0xc04000, 0x0, 0x8, 31, 31⟩

/-- ADM_PORT.MIN (R362). -/
def F.ADM_PORT_MIN : Fld := ⟨0xc01000, 0x0, 0x4, 15, 0⟩

/-- ADM_PROF.ALPHA_G (R362). -/
def F.ADM_PROF_ALPHA_G : Fld := ⟨0xc00100, 0x0, 0x10, 3, 0⟩

/-- ADM_PROF.ALPHA_R (R362). -/
def F.ADM_PROF_ALPHA_R : Fld := ⟨0xc00100, 0x0, 0x10, 11, 8⟩

/-- ADM_PROF.ALPHA_Y (R362). -/
def F.ADM_PROF_ALPHA_Y : Fld := ⟨0xc00100, 0x0, 0x10, 7, 4⟩

/-- ADM_PROF.MAX (R362). -/
def F.ADM_PROF_MAX : Fld := ⟨0xc00108, 0x0, 0x10, 28, 0⟩

/-- ADM_PROF.MIN (R362). -/
def F.ADM_PROF_MIN : Fld := ⟨0xc00104, 0x0, 0x10, 15, 0⟩

/-- ADM_RESERVED.CELLS (R362). -/
def F.ADM_RESERVED_CELLS : Fld := ⟨0xc00008, 0x0, 0x0, 28, 0⟩

/-- ADM_SHARED.CELLS (R362). -/
def F.ADM_SHARED_CELLS : Fld := ⟨0xc00000, 0x0, 0x0, 28, 0⟩

/-- ADM_SHARED_USED.CELLS (R362). -/
def F.ADM_SHARED_USED_CELLS : Fld := ⟨0xc00004, 0x0, 0x0, 28, 0⟩

/-- ADM_VICTIM.QUEUE (R362). -/
def F.ADM_VICTIM_QUEUE : Fld := ⟨0xc00300, 0x0, 0x4, 17, 0⟩

/-- ADM_VICTIM.VALID (R362). -/
def F.ADM_VICTIM_VALID : Fld := ⟨0xc00300, 0x0, 0x4, 31, 31⟩

/-- BIS_BUSY_LOG.CODE (R513). -/
def F.BIS_BUSY_LOG_CODE : Fld := ⟨0x70024, 0x0, 0x0, 31, 24⟩

/-- BIS_CFG.GTEST_AUTO_S (R513). -/
def F.BIS_CFG_GTEST_AUTO_S : Fld := ⟨0x70004, 0x0, 0x0, 15, 0⟩

/-- BIS_CFG.ROW_THRESH (R513). -/
def F.BIS_CFG_ROW_THRESH : Fld := ⟨0x70004, 0x0, 0x0, 31, 24⟩

/-- BIS_ECC_LOG.UE (R513). -/
def F.BIS_ECC_LOG_UE : Fld := ⟨0x7001c, 0x0, 0x0, 30, 30⟩

/-- BIS_ECC_LOG.VALID (R513). -/
def F.BIS_ECC_LOG_VALID : Fld := ⟨0x7001c, 0x0, 0x0, 31, 31⟩

/-- BIS_FAIL_STATUS.LEVEL (R513). -/
def F.BIS_FAIL_STATUS_LEVEL : Fld := ⟨0x7000c, 0x0, 0x0, 10, 0⟩

/-- BIS_FAIL_STATUS.LOST (R513). -/
def F.BIS_FAIL_STATUS_LOST : Fld := ⟨0x7000c, 0x0, 0x0, 31, 16⟩

/-- BIS_GTEST_CTRL.AT_TICK (R513). -/
def F.BIS_GTEST_CTRL_AT_TICK : Fld := ⟨0x70040, 0x0, 0x0, 31, 31⟩

/-- BIS_GTEST_CTRL.GAL (R513). -/
def F.BIS_GTEST_CTRL_GAL : Fld := ⟨0x70040, 0x0, 0x0, 10, 8⟩

/-- BIS_GTEST_CTRL.GO (R513). -/
def F.BIS_GTEST_CTRL_GO : Fld := ⟨0x70040, 0x0, 0x0, 0, 0⟩

/-- BIS_GTEST_STATUS.ACTIVE (R513). -/
def F.BIS_GTEST_STATUS_ACTIVE : Fld := ⟨0x70044, 0x0, 0x0, 0, 0⟩

/-- BIS_GTEST_STATUS.DONE (R513). -/
def F.BIS_GTEST_STATUS_DONE : Fld := ⟨0x70044, 0x0, 0x0, 1, 1⟩

/-- BIS_GTEST_STATUS.GAL (R513). -/
def F.BIS_GTEST_STATUS_GAL : Fld := ⟨0x70044, 0x0, 0x0, 18, 16⟩

/-- BIS_GTEST_STATUS.REJECT (R513). -/
def F.BIS_GTEST_STATUS_REJECT : Fld := ⟨0x70044, 0x0, 0x0, 11, 8⟩

/-- BIS_GTEST_STATUS.RESULT (R513). -/
def F.BIS_GTEST_STATUS_RESULT : Fld := ⟨0x70044, 0x0, 0x0, 15, 12⟩

/-- BIS_GTEST_STATUS.SPARE_FREE (R513). -/
def F.BIS_GTEST_STATUS_SPARE_FREE : Fld := ⟨0x70044, 0x0, 0x0, 31, 24⟩

/-- BIS_HBM_STATUS.PPR_USED (R513). -/
def F.BIS_HBM_STATUS_PPR_USED : Fld := ⟨0x70060, 0x0, 0x4, 15, 0⟩

/-- BIS_HBM_STATUS.REMAP_USED (R513). -/
def F.BIS_HBM_STATUS_REMAP_USED : Fld := ⟨0x70060, 0x0, 0x4, 23, 16⟩

/-- BIS_HBM_STATUS.TRAINED (R513). -/
def F.BIS_HBM_STATUS_TRAINED : Fld := ⟨0x70060, 0x0, 0x4, 31, 31⟩

/-- BIS_LBIST_RES.MISR (R513). -/
def F.BIS_LBIST_RES_MISR : Fld := ⟨0x70404, 0x0, 0x8, 31, 0⟩

/-- BIS_LBIST_RES.PASS (R513). -/
def F.BIS_LBIST_RES_PASS : Fld := ⟨0x70400, 0x0, 0x8, 30, 30⟩

/-- BIS_LBIST_RES.RUN (R513). -/
def F.BIS_LBIST_RES_RUN : Fld := ⟨0x70400, 0x0, 0x8, 31, 31⟩

/-- BIS_LBIST_RES.SPARED (R513). -/
def F.BIS_LBIST_RES_SPARED : Fld := ⟨0x70400, 0x0, 0x8, 29, 29⟩

/-- BIS_MEM_SEL.COLS_USED (R513). -/
def F.BIS_MEM_SEL_COLS_USED : Fld := ⟨0x7003c, 0x0, 0x0, 7, 4⟩

/-- BIS_MEM_SEL.FATAL (R513). -/
def F.BIS_MEM_SEL_FATAL : Fld := ⟨0x70034, 0x0, 0x0, 24, 24⟩

/-- BIS_MEM_SEL.MEM (R513). -/
def F.BIS_MEM_SEL_MEM : Fld := ⟨0x70030, 0x0, 0x0, 16, 0⟩

/-- BIS_MEM_SEL.PART (R513). -/
def F.BIS_MEM_SEL_PART : Fld := ⟨0x70034, 0x0, 0x0, 31, 25⟩

/-- BIS_MEM_SEL.ROWS (R513). -/
def F.BIS_MEM_SEL_ROWS : Fld := ⟨0x70034, 0x0, 0x0, 23, 0⟩

/-- BIS_MEM_SEL.ROWS_USED (R513). -/
def F.BIS_MEM_SEL_ROWS_USED : Fld := ⟨0x7003c, 0x0, 0x0, 15, 8⟩

/-- BIS_MEM_SEL.SPARE_COLS (R513). -/
def F.BIS_MEM_SEL_SPARE_COLS : Fld := ⟨0x70038, 0x0, 0x0, 7, 4⟩

/-- BIS_MEM_SEL.SPARE_ROWS (R513). -/
def F.BIS_MEM_SEL_SPARE_ROWS : Fld := ⟨0x70038, 0x0, 0x0, 15, 8⟩

/-- BIS_MEM_SEL.WIDTH (R513). -/
def F.BIS_MEM_SEL_WIDTH : Fld := ⟨0x70038, 0x0, 0x0, 31, 16⟩

/-- BIS_PASSAGE.FE_TM (R513). -/
def F.BIS_PASSAGE_FE_TM : Fld := ⟨0x70008, 0x0, 0x0, 22, 16⟩

/-- BIS_PASSAGE.TM_FE (R513). -/
def F.BIS_PASSAGE_TM_FE : Fld := ⟨0x70008, 0x0, 0x0, 6, 0⟩

/-- BIS_PROBE_RES.LANES_FAILED (R513). -/
def F.BIS_PROBE_RES_LANES_FAILED : Fld := ⟨0x70054, 0x0, 0x0, 11, 0⟩

/-- BIS_PROBE_RES.LBIST_FAILS (R513). -/
def F.BIS_PROBE_RES_LBIST_FAILS : Fld := ⟨0x70054, 0x0, 0x0, 29, 22⟩

/-- BIS_PROBE_RES.MEM_UNREP (R513). -/
def F.BIS_PROBE_RES_MEM_UNREP : Fld := ⟨0x70054, 0x0, 0x0, 21, 12⟩

/-- BIS_PROBE_RES.PASS (R513). -/
def F.BIS_PROBE_RES_PASS : Fld := ⟨0x70054, 0x0, 0x0, 30, 30⟩

/-- BIS_PROBE_RES.VALID (R513). -/
def F.BIS_PROBE_RES_VALID : Fld := ⟨0x70054, 0x0, 0x0, 31, 31⟩

/-- BIS_STATUS.LBIST_FAILS (R513). -/
def F.BIS_STATUS_LBIST_FAILS : Fld := ⟨0x70000, 0x0, 0x0, 15, 8⟩

/-- BIS_STATUS.PHASE (R513). -/
def F.BIS_STATUS_PHASE : Fld := ⟨0x70000, 0x0, 0x0, 31, 28⟩

/-- BIS_STATUS.UNREPAIRABLE (R513). -/
def F.BIS_STATUS_UNREPAIRABLE : Fld := ⟨0x70000, 0x0, 0x0, 7, 0⟩

/-- CAD_CTRL.EN (R73). -/
def F.CAD_CTRL_EN : Fld := ⟨0x50000, 0x0, 0x0, 0, 0⟩

/-- CAD_OVR_CNT.COUNT (R73). -/
def F.CAD_OVR_CNT_COUNT : Fld := ⟨0x50040, 0x0, 0x4, 31, 0⟩

/-- CAD_OVR.OVR (R73). -/
def F.CAD_OVR_OVR : Fld := ⟨0x50020, 0x0, 0x0, 7, 0⟩

/-- CAD_PERIOD.PERIOD (R73). -/
def F.CAD_PERIOD_PERIOD : Fld := ⟨0x50004, 0x0, 0x0, 19, 0⟩

/-- CAD_PHASE.PHASE (R73). -/
def F.CAD_PHASE_PHASE : Fld := ⟨0x50008, 0x0, 0x0, 19, 0⟩

/-- CAD_STATUS.CFG_ERR (R73). -/
def F.CAD_STATUS_CFG_ERR : Fld := ⟨0x5000c, 0x0, 0x0, 1, 1⟩

/-- CAD_STATUS.RUNNING (R73). -/
def F.CAD_STATUS_RUNNING : Fld := ⟨0x5000c, 0x0, 0x0, 0, 0⟩

/-- CAD_STATUS.STEPPED (R73). -/
def F.CAD_STATUS_STEPPED : Fld := ⟨0x5000c, 0x0, 0x0, 2, 2⟩

/-- CLS_IND_CMD.INDEX (R205). -/
def F.CLS_IND_CMD_INDEX : Fld := ⟨0x440000, 0x0, 0x0, 20, 8⟩

/-- CLS_IND_CMD.OP (R205). -/
def F.CLS_IND_CMD_OP : Fld := ⟨0x440000, 0x0, 0x0, 1, 0⟩

/-- CLS_IND_CMD.SLICE_MASK (R205). -/
def F.CLS_IND_CMD_SLICE_MASK : Fld := ⟨0x440000, 0x0, 0x0, 31, 24⟩

/-- CLS_IND_STATUS.BUSY (R205). -/
def F.CLS_IND_STATUS_BUSY : Fld := ⟨0x440004, 0x0, 0x0, 0, 0⟩

/-- CLS_IND_STATUS.DONE (R205). -/
def F.CLS_IND_STATUS_DONE : Fld := ⟨0x440004, 0x0, 0x0, 1, 1⟩

/-- CLS_IND_STATUS.ERR (R205). -/
def F.CLS_IND_STATUS_ERR : Fld := ⟨0x440004, 0x0, 0x0, 4, 3⟩

/-- CLS_IND_STATUS.WR_IGNORED (R205). -/
def F.CLS_IND_STATUS_WR_IGNORED : Fld := ⟨0x440004, 0x0, 0x0, 2, 2⟩

/-- CLS_PORT_CFG.DEF_COLOUR (R205). -/
def F.CLS_PORT_CFG_DEF_COLOUR : Fld := ⟨0x441000, 0x0, 0x4, 1, 0⟩

/-- CLS_PORT_CFG.DEF_TC (R205). -/
def F.CLS_PORT_CFG_DEF_TC : Fld := ⟨0x441000, 0x0, 0x4, 6, 4⟩

/-- CLS_PORT_CFG.PROFILE (R205). -/
def F.CLS_PORT_CFG_PROFILE : Fld := ⟨0x441000, 0x0, 0x4, 13, 10⟩

/-- CLS_PORT_CFG.TRUST (R205). -/
def F.CLS_PORT_CFG_TRUST : Fld := ⟨0x441000, 0x0, 0x4, 9, 8⟩

/-- CLS_PUNT_AGG.BURST (R204). -/
def F.CLS_PUNT_AGG_BURST : Fld := ⟨0x443404, 0x0, 0x0, 15, 0⟩

/-- CLS_PUNT_AGG.RATE (R204). -/
def F.CLS_PUNT_AGG_RATE : Fld := ⟨0x443400, 0x0, 0x0, 23, 0⟩

/-- CLS_PUNT_CFG.BURST (R205). -/
def F.CLS_PUNT_CFG_BURST : Fld := ⟨0x443004, 0x0, 0x10, 15, 0⟩

/-- CLS_PUNT_CFG.DEST (R205). -/
def F.CLS_PUNT_CFG_DEST : Fld := ⟨0x443000, 0x0, 0x10, 31, 31⟩

/-- CLS_PUNT_CFG.RATE (R205). -/
def F.CLS_PUNT_CFG_RATE : Fld := ⟨0x443000, 0x0, 0x10, 23, 0⟩

/-- CLS_PUNT_CFG.RING (R205). -/
def F.CLS_PUNT_CFG_RING : Fld := ⟨0x443000, 0x0, 0x10, 28, 24⟩

/-- CLS_QOS_MAP.COLOUR (R205). -/
def F.CLS_QOS_MAP_COLOUR : Fld := ⟨0x442400, 0x0, 0x4, 1, 0⟩

/-- CLS_QOS_MAP.TC (R205). -/
def F.CLS_QOS_MAP_TC : Fld := ⟨0x442400, 0x0, 0x4, 6, 4⟩

/-- EVT_MAP.VECTOR (R489). -/
def F.EVT_MAP_VECTOR : Fld := ⟨0x20100, 0x0, 0x4, 7, 0⟩

/-- EVT_TMGMT.EN (R489). -/
def F.EVT_TMGMT_EN : Fld := ⟨0x20900, 0x0, 0x0, 0, 0⟩

/-- EVT_TMGMT.HOLDOFF_MS (R489). -/
def F.EVT_TMGMT_HOLDOFF_MS : Fld := ⟨0x20900, 0x0, 0x0, 31, 16⟩

/-- EVT_VEC_CFG.HOLDOFF_US (R489). -/
def F.EVT_VEC_CFG_HOLDOFF_US : Fld := ⟨0x20500, 0x0, 0x4, 15, 0⟩

/-- FAB_CFG.DEV_ID (R432). -/
def F.FAB_CFG_DEV_ID : Fld := ⟨0x3400000, 0x0, 0x0, 26, 16⟩

/-- FAB_CFG.EN (R432). -/
def F.FAB_CFG_EN : Fld := ⟨0x3400000, 0x0, 0x0, 0, 0⟩

/-- FAB_CFG.MIN_LINKS (R432). -/
def F.FAB_CFG_MIN_LINKS : Fld := ⟨0x3400000, 0x0, 0x0, 15, 8⟩

/-- FAB_DEST.WIN (R432). -/
def F.FAB_DEST_WIN : Fld := ⟨0x3406000, 0x0, 0x4, 14, 0⟩

/-- FAB_EGR_STATUS.COMMITTED (R432). -/
def F.FAB_EGR_STATUS_COMMITTED : Fld := ⟨0x3400018, 0x0, 0x0, 18, 0⟩

/-- FAB_EPORT.LIMIT (R432). -/
def F.FAB_EPORT_LIMIT : Fld := ⟨0x3404000, 0x0, 0x8, 18, 0⟩

/-- FAB_EPORT.OUTSTANDING (R432). -/
def F.FAB_EPORT_OUTSTANDING : Fld := ⟨0x3404004, 0x0, 0x8, 18, 0⟩

/-- FAB_EVT.BELOW_MIN (R432). -/
def F.FAB_EVT_BELOW_MIN : Fld := ⟨0x3400010, 0x0, 0x0, 4, 4⟩

/-- FAB_EVT.LINK_FAIL (R432). -/
def F.FAB_EVT_LINK_FAIL : Fld := ⟨0x3400010, 0x0, 0x0, 0, 0⟩

/-- FAB_EVT.RSQ_LOST (R432). -/
def F.FAB_EVT_RSQ_LOST : Fld := ⟨0x3400010, 0x0, 0x0, 3, 3⟩

/-- FAB_EVT.RSQ_OVERRUN (R432). -/
def F.FAB_EVT_RSQ_OVERRUN : Fld := ⟨0x3400010, 0x0, 0x0, 2, 2⟩

/-- FAB_EVT.SPARE_USED (R432). -/
def F.FAB_EVT_SPARE_USED : Fld := ⟨0x3400010, 0x0, 0x0, 1, 1⟩

/-- FAB_GRANT_CFG.CELLS (R432). -/
def F.FAB_GRANT_CFG_CELLS : Fld := ⟨0x3400008, 0x0, 0x0, 10, 0⟩

/-- FAB_GRANT_CFG.IDLE_US (R432). -/
def F.FAB_GRANT_CFG_IDLE_US : Fld := ⟨0x3400008, 0x0, 0x0, 31, 16⟩

/-- FAB_LINK.ROLE (R432). -/
def F.FAB_LINK_ROLE : Fld := ⟨0x3401000, 0x0, 0x10, 1, 0⟩

/-- FAB_LINK.STATE (R432). -/
def F.FAB_LINK_STATE : Fld := ⟨0x3401004, 0x0, 0x10, 2, 0⟩

/-- FAB_SRC.EN (R432). -/
def F.FAB_SRC_EN : Fld := ⟨0x3408000, 0x0, 0x4, 31, 31⟩

/-- FAB_SRC.WIN (R432). -/
def F.FAB_SRC_WIN : Fld := ⟨0x3408000, 0x0, 0x4, 14, 0⟩

/-- FAB_STATUS.ACTIVE (R432). -/
def F.FAB_STATUS_ACTIVE : Fld := ⟨0x3400004, 0x0, 0x0, 23, 16⟩

/-- FAB_STATUS.BELOW_MIN (R432). -/
def F.FAB_STATUS_BELOW_MIN : Fld := ⟨0x3400004, 0x0, 0x0, 0, 0⟩

/-- FAB_STATUS.SPARES (R432). -/
def F.FAB_STATUS_SPARES : Fld := ⟨0x3400004, 0x0, 0x0, 15, 8⟩

/-- FAB_TIMING.RSQ_NS (R432). -/
def F.FAB_TIMING_RSQ_NS : Fld := ⟨0x340000c, 0x0, 0x0, 15, 0⟩

/-- GAL_BG.BUDGET (R334). -/
def F.GAL_BG_BUDGET : Fld := ⟨0x700010, 0x0, 0x80000, 15, 0⟩

/-- GAL_DBG_CTRL.DENIED (R334). -/
def F.GAL_DBG_CTRL_DENIED : Fld := ⟨0x700020, 0x0, 0x80000, 19, 19⟩

/-- GAL_DBG_CTRL.ENGINE (R334). -/
def F.GAL_DBG_CTRL_ENGINE : Fld := ⟨0x700020, 0x0, 0x80000, 18, 16⟩

/-- GAL_DBG_CTRL.THREAD (R334). -/
def F.GAL_DBG_CTRL_THREAD : Fld := ⟨0x700020, 0x0, 0x80000, 14, 12⟩

/-- GAL_DBG_SEL.PRED (R334). -/
def F.GAL_DBG_SEL_PRED : Fld := ⟨0x700024, 0x0, 0x80000, 16, 16⟩

/-- GAL_DBG_SEL.REG (R334). -/
def F.GAL_DBG_SEL_REG : Fld := ⟨0x700024, 0x0, 0x80000, 4, 0⟩

/-- GAL_EVT.BG_OVERRUN (R334). -/
def F.GAL_EVT_BG_OVERRUN : Fld := ⟨0x700008, 0x0, 0x80000, 6, 6⟩

/-- GAL_EVT.DRAIN_DROP (R334). -/
def F.GAL_EVT_DRAIN_DROP : Fld := ⟨0x700008, 0x0, 0x80000, 5, 5⟩

/-- GAL_EVT.IN_DROP (R334). -/
def F.GAL_EVT_IN_DROP : Fld := ⟨0x700008, 0x0, 0x80000, 4, 4⟩

/-- GAL_EVT.LOAD_FAIL (R334). -/
def F.GAL_EVT_LOAD_FAIL : Fld := ⟨0x700008, 0x0, 0x80000, 1, 1⟩

/-- GAL_EVT.STILL_AIR (R334). -/
def F.GAL_EVT_STILL_AIR : Fld := ⟨0x700008, 0x0, 0x80000, 0, 0⟩

/-- GAL_EVT.SUPER_FAULT (R334). -/
def F.GAL_EVT_SUPER_FAULT : Fld := ⟨0x700008, 0x0, 0x80000, 2, 2⟩

/-- GAL_EVT.WRITE_LOST (R334). -/
def F.GAL_EVT_WRITE_LOST : Fld := ⟨0x700008, 0x0, 0x80000, 3, 3⟩

/-- GAL_FLUE.CAP (R334). -/
def F.GAL_FLUE_CAP : Fld := ⟨0x700400, 0x80000, 0x4, 13, 0⟩

/-- GAL_FLUE.EN (R334). -/
def F.GAL_FLUE_EN : Fld := ⟨0x700400, 0x80000, 0x4, 31, 31⟩

/-- GAL_FLUE.RX_ENGINE (R334). -/
def F.GAL_FLUE_RX_ENGINE : Fld := ⟨0x700400, 0x80000, 0x4, 30, 28⟩

/-- GAL_FLUE.RX_THREAD (R334). -/
def F.GAL_FLUE_RX_THREAD : Fld := ⟨0x700400, 0x80000, 0x4, 27, 25⟩

/-- GAL_FLUE_STATUS.LEVEL (R334). -/
def F.GAL_FLUE_STATUS_LEVEL : Fld := ⟨0x700600, 0x80000, 0x4, 13, 0⟩

/-- GAL_FLUE_STATUS.RESERVED (R334). -/
def F.GAL_FLUE_STATUS_RESERVED : Fld := ⟨0x700600, 0x80000, 0x4, 29, 16⟩

/-- GAL_IN_STATUS.HWM (R334). -/
def F.GAL_IN_STATUS_HWM : Fld := ⟨0x70001c, 0x0, 0x80000, 27, 16⟩

/-- GAL_IN_STATUS.LEVEL (R334). -/
def F.GAL_IN_STATUS_LEVEL : Fld := ⟨0x70001c, 0x0, 0x80000, 11, 0⟩

/-- GAL_LEASH.US (R334). -/
def F.GAL_LEASH_US : Fld := ⟨0x700018, 0x0, 0x80000, 15, 0⟩

/-- GAL_MAP.PHYS (R334). -/
def F.GAL_MAP_PHYS : Fld := ⟨0x700004, 0x0, 0x80000, 31, 0⟩

/-- GAL_SA.LIMIT (R334). -/
def F.GAL_SA_LIMIT : Fld := ⟨0x700014, 0x0, 0x80000, 15, 0⟩

/-- GAL_STATUS.NOTE_LEVEL (R334). -/
def F.GAL_STATUS_NOTE_LEVEL : Fld := ⟨0x700000, 0x0, 0x80000, 25, 16⟩

/-- GAL_STATUS.SA_ACTIVE (R334). -/
def F.GAL_STATUS_SA_ACTIVE : Fld := ⟨0x700000, 0x0, 0x80000, 3, 3⟩

/-- GAL_STATUS.SERVING_NBR (R334). -/
def F.GAL_STATUS_SERVING_NBR : Fld := ⟨0x700000, 0x0, 0x80000, 4, 4⟩

/-- GAL_STATUS.STATE (R334). -/
def F.GAL_STATUS_STATE : Fld := ⟨0x700000, 0x0, 0x80000, 2, 0⟩

/-- GAL_STATUS.STEERED (R334). -/
def F.GAL_STATUS_STEERED : Fld := ⟨0x700000, 0x0, 0x80000, 5, 5⟩

/-- GAT_EVT.GATE_MISSED (R412). -/
def F.GAT_EVT_GATE_MISSED : Fld := ⟨0x3000080, 0x0, 0x0, 2, 2⟩

/-- GAT_EVT.OVERSIZE (R412). -/
def F.GAT_EVT_OVERSIZE : Fld := ⟨0x3000080, 0x0, 0x0, 3, 3⟩

/-- GAT_EVT.STREAM_LATCH (R412). -/
def F.GAT_EVT_STREAM_LATCH : Fld := ⟨0x3000080, 0x0, 0x0, 1, 1⟩

/-- GAT_EVT.SWITCH_DONE (R412). -/
def F.GAT_EVT_SWITCH_DONE : Fld := ⟨0x3000080, 0x0, 0x0, 0, 0⟩

/-- GAT_IND_CMD.OP (R412). -/
def F.GAT_IND_CMD_OP : Fld := ⟨0x3000000, 0x0, 0x0, 3, 0⟩

/-- GAT_IND_STATUS.BUSY (R412). -/
def F.GAT_IND_STATUS_BUSY : Fld := ⟨0x3000004, 0x0, 0x0, 0, 0⟩

/-- GAT_IND_STATUS.DONE (R412). -/
def F.GAT_IND_STATUS_DONE : Fld := ⟨0x3000004, 0x0, 0x0, 1, 1⟩

/-- GAT_IND_STATUS.ERR (R412). -/
def F.GAT_IND_STATUS_ERR : Fld := ⟨0x3000004, 0x0, 0x0, 5, 3⟩

/-- GAT_IND_STATUS.WR_IGNORED (R412). -/
def F.GAT_IND_STATUS_WR_IGNORED : Fld := ⟨0x3000004, 0x0, 0x0, 2, 2⟩

/-- GAT_PORT.EDIT_ALLOW (R412). -/
def F.GAT_PORT_EDIT_ALLOW : Fld := ⟨0x3001000, 0x0, 0x4, 15, 8⟩

/-- GAT_PORT.GAL_ALLOW (R412). -/
def F.GAT_PORT_GAL_ALLOW : Fld := ⟨0x3001000, 0x0, 0x4, 23, 16⟩

/-- GAT_PORT.GUARD (R412). -/
def F.GAT_PORT_GUARD : Fld := ⟨0x3001000, 0x0, 0x4, 7, 0⟩

/-- GLB_CAPS.CFG_VALID (R517). -/
def F.GLB_CAPS_CFG_VALID : Fld := ⟨0x8, 0x0, 0x0, 31, 31⟩

/-- GLB_CAPS.STANDALONE (R517). -/
def F.GLB_CAPS_STANDALONE : Fld := ⟨0x8, 0x0, 0x0, 8, 8⟩

/-- GLB_CAPS.TABLE_GIB (R517). -/
def F.GLB_CAPS_TABLE_GIB : Fld := ⟨0x8, 0x0, 0x0, 6, 0⟩

/-- GLB_ERR_LOG.KIND (R517). -/
def F.GLB_ERR_LOG_KIND : Fld := ⟨0x24, 0x0, 0x0, 31, 24⟩

/-- GLB_STEP.STEP (R517). -/
def F.GLB_STEP_STEP : Fld := ⟨0x4, 0x0, 0x0, 7, 0⟩

/-- HBM_STACK_STATUS.READY (R518). -/
def F.HBM_STACK_STATUS_READY : Fld := ⟨0x3a00000, 0x0, 0x4, 31, 31⟩

/-- HBM_STACK_STATUS.UTIL (R518). -/
def F.HBM_STACK_STATUS_UTIL : Fld := ⟨0x3a00000, 0x0, 0x4, 7, 0⟩

/-- HRD_ERR_LOG.CODE (R362). -/
def F.HRD_ERR_LOG_CODE : Fld := ⟨0xb00214, 0x0, 0x0, 31, 24⟩

/-- HRD_ERR_LOG.ENGINE (R362). -/
def F.HRD_ERR_LOG_ENGINE : Fld := ⟨0xb00214, 0x0, 0x0, 6, 4⟩

/-- HRD_ERR_LOG.INDEX (R362). -/
def F.HRD_ERR_LOG_INDEX : Fld := ⟨0xb00210, 0x0, 0x0, 28, 0⟩

/-- HRD_ERR_LOG.OWNER (R362). -/
def F.HRD_ERR_LOG_OWNER : Fld := ⟨0xb00214, 0x0, 0x0, 22, 16⟩

/-- HRD_ERR_LOG.POOL (R362). -/
def F.HRD_ERR_LOG_POOL : Fld := ⟨0xb00214, 0x0, 0x0, 15, 12⟩

/-- HRD_ERR_LOG.THREAD (R362). -/
def F.HRD_ERR_LOG_THREAD : Fld := ⟨0xb00214, 0x0, 0x0, 2, 0⟩

/-- HRD_EVT.CELL_LOST (R362). -/
def F.HRD_EVT_CELL_LOST : Fld := ⟨0xb00200, 0x0, 0x0, 4, 4⟩

/-- HRD_EVT.DOUBLE_FREE (R362). -/
def F.HRD_EVT_DOUBLE_FREE : Fld := ⟨0xb00200, 0x0, 0x0, 0, 0⟩

/-- HRD_EVT.FOREIGN_FREE (R362). -/
def F.HRD_EVT_FOREIGN_FREE : Fld := ⟨0xb00200, 0x0, 0x0, 1, 1⟩

/-- HRD_EVT.POOL_STARVED (R362). -/
def F.HRD_EVT_POOL_STARVED : Fld := ⟨0xb00200, 0x0, 0x0, 3, 3⟩

/-- HRD_EVT.REFUSED (R362). -/
def F.HRD_EVT_REFUSED : Fld := ⟨0xb00200, 0x0, 0x0, 2, 2⟩

/-- HRD_POOL_CFG.CELLS (R362). -/
def F.HRD_POOL_CFG_CELLS : Fld := ⟨0xb00000, 0x0, 0x10, 24, 0⟩

/-- HRD_POOL_CFG.EN (R362). -/
def F.HRD_POOL_CFG_EN : Fld := ⟨0xb00000, 0x0, 0x10, 31, 31⟩

/-- HRD_POOL_CFG.STARVE_US (R362). -/
def F.HRD_POOL_CFG_STARVE_US : Fld := ⟨0xb00004, 0x0, 0x10, 15, 0⟩

/-- HRD_POOL_STATUS.FREE (R362). -/
def F.HRD_POOL_STATUS_FREE : Fld := ⟨0xb00100, 0x0, 0x10, 28, 0⟩

/-- HRD_POOL_STATUS.LOW_WATER (R362). -/
def F.HRD_POOL_STATUS_LOW_WATER : Fld := ⟨0xb0010c, 0x0, 0x10, 28, 0⟩

/-- HRD_POOL_STATUS.TOTAL (R362). -/
def F.HRD_POOL_STATUS_TOTAL : Fld := ⟨0xb00104, 0x0, 0x10, 28, 0⟩

/-- HRD_POOL_STATUS.WAITERS (R362). -/
def F.HRD_POOL_STATUS_WAITERS : Fld := ⟨0xb00108, 0x0, 0x10, 10, 0⟩

/-- HST_DMA_ERR_RING.RING (R489). -/
def F.HST_DMA_ERR_RING_RING : Fld := ⟨0x30030, 0x0, 0x0, 6, 0⟩

/-- HST_EVT.DMA_ERR (R489). -/
def F.HST_EVT_DMA_ERR : Fld := ⟨0x30020, 0x0, 0x0, 0, 0⟩

/-- HST_EVT.INJ_BAD (R489). -/
def F.HST_EVT_INJ_BAD : Fld := ⟨0x30020, 0x0, 0x0, 3, 3⟩

/-- HST_EVT.RING_DROP (R489). -/
def F.HST_EVT_RING_DROP : Fld := ⟨0x30020, 0x0, 0x0, 2, 2⟩

/-- HST_EVT.WIN_DENIED (R489). -/
def F.HST_EVT_WIN_DENIED : Fld := ⟨0x30020, 0x0, 0x0, 1, 1⟩

/-- HST_EVT.WIN_POISON (R489). -/
def F.HST_EVT_WIN_POISON : Fld := ⟨0x30020, 0x0, 0x0, 4, 4⟩

/-- HST_MSIX_TABLE.MASK (R462). -/
def F.HST_MSIX_TABLE_MASK : Fld := ⟨0x3800c, 0x0, 0x10, 0, 0⟩

/-- HST_PCIE_STATUS.D3HOT (R489). -/
def F.HST_PCIE_STATUS_D3HOT : Fld := ⟨0x30000, 0x0, 0x0, 2, 2⟩

/-- HST_PUNT_CFG.SNAP (R489). -/
def F.HST_PUNT_CFG_SNAP : Fld := ⟨0x30100, 0x0, 0x4, 7, 0⟩

/-- HST_RING.CONS (R489). -/
def F.HST_RING_CONS : Fld := ⟨0x31010, 0x0, 0x20, 29, 0⟩

/-- HST_RING.EN (R489). -/
def F.HST_RING_EN : Fld := ⟨0x31008, 0x0, 0x20, 31, 31⟩

/-- HST_RING.IRQ_EN (R489). -/
def F.HST_RING_IRQ_EN : Fld := ⟨0x31008, 0x0, 0x20, 29, 29⟩

/-- HST_RING.LOG2_SIZE (R489). -/
def F.HST_RING_LOG2_SIZE : Fld := ⟨0x31008, 0x0, 0x20, 4, 0⟩

/-- HST_RING.PROD (R489). -/
def F.HST_RING_PROD : Fld := ⟨0x3100c, 0x0, 0x20, 29, 0⟩

/-- HST_RING.STOPPED (R489). -/
def F.HST_RING_STOPPED : Fld := ⟨0x31008, 0x0, 0x20, 30, 30⟩

/-- HST_RING.VEC (R489). -/
def F.HST_RING_VEC : Fld := ⟨0x31008, 0x0, 0x20, 23, 16⟩

/-- HST_STATUS.SERVING (R489). -/
def F.HST_STATUS_SERVING : Fld := ⟨0x30004, 0x0, 0x0, 0, 0⟩

/-- HST_STATUS.TMGMT (R489). -/
def F.HST_STATUS_TMGMT : Fld := ⟨0x30004, 0x0, 0x0, 1, 1⟩

/-- HST_WIN.BASE_MIB (R489). -/
def F.HST_WIN_BASE_MIB : Fld := ⟨0x30010, 0x0, 0x0, 15, 0⟩

/-- KPR_CAP_MASK.DENY (R139). -/
def F.KPR_CAP_MASK_DENY : Fld := ⟨0x10058, 0x0, 0x0, 31, 0⟩

/-- KPR_CONFIRM_WIN.SECONDS (R139). -/
def F.KPR_CONFIRM_WIN_SECONDS : Fld := ⟨0x10054, 0x0, 0x0, 11, 0⟩

/-- KPR_DBG.ENG_DBG_EN (R139). -/
def F.KPR_DBG_ENG_DBG_EN : Fld := ⟨0x1005c, 0x0, 0x0, 0, 0⟩

/-- KPR_IMG.ACTIVE (R139). -/
def F.KPR_IMG_ACTIVE : Fld := ⟨0x10040, 0x0, 0x4, 0, 0⟩

/-- KPR_IMG.ACT_SEC_VER (R139). -/
def F.KPR_IMG_ACT_SEC_VER : Fld := ⟨0x10040, 0x0, 0x4, 30, 24⟩

/-- KPR_IMG.ARM_MODE (R139). -/
def F.KPR_IMG_ARM_MODE : Fld := ⟨0x10040, 0x0, 0x4, 11, 10⟩

/-- KPR_IMG.STATE (R139). -/
def F.KPR_IMG_STATE : Fld := ⟨0x10040, 0x0, 0x4, 9, 8⟩

/-- KPR_LC.OWNER_BANK (R139). -/
def F.KPR_LC_OWNER_BANK : Fld := ⟨0x10020, 0x0, 0x0, 9, 8⟩

/-- KPR_LC.RETURNS (R139). -/
def F.KPR_LC_RETURNS : Fld := ⟨0x10020, 0x0, 0x0, 5, 4⟩

/-- KPR_LC.SLOT_PROG (R139). -/
def F.KPR_LC_SLOT_PROG : Fld := ⟨0x10020, 0x0, 0x0, 19, 16⟩

/-- KPR_LC.SLOT_REVOKED (R139). -/
def F.KPR_LC_SLOT_REVOKED : Fld := ⟨0x10020, 0x0, 0x0, 23, 20⟩

/-- KPR_LC.ZEROISED (R139). -/
def F.KPR_LC_ZEROISED : Fld := ⟨0x10020, 0x0, 0x0, 1, 1⟩

/-- KPR_MBX_CTRL.GO (R139). -/
def F.KPR_MBX_CTRL_GO : Fld := ⟨0x10100, 0x0, 0x0, 0, 0⟩

/-- KPR_MBX_REQ.DATA (R139). -/
def F.KPR_MBX_REQ_DATA : Fld := ⟨0x11000, 0x0, 0x4, 31, 0⟩

/-- KPR_MBX_RSP.DATA (R139). -/
def F.KPR_MBX_RSP_DATA : Fld := ⟨0x12000, 0x0, 0x4, 31, 0⟩

/-- KPR_MBX_STATUS.DONE (R139). -/
def F.KPR_MBX_STATUS_DONE : Fld := ⟨0x10104, 0x0, 0x0, 1, 1⟩

/-- KPR_MBX_STATUS.PENDING (R139). -/
def F.KPR_MBX_STATUS_PENDING : Fld := ⟨0x10104, 0x0, 0x0, 0, 0⟩

/-- KPR_MBX_STATUS.WR_IGNORED (R139). -/
def F.KPR_MBX_STATUS_WR_IGNORED : Fld := ⟨0x10104, 0x0, 0x0, 2, 2⟩

/-- KPR_SECVER.COUNT (R139). -/
def F.KPR_SECVER_COUNT : Fld := ⟨0x10030, 0x0, 0x4, 6, 0⟩

/-- KPR_STATUS.LC (R139). -/
def F.KPR_STATUS_LC : Fld := ⟨0x10000, 0x0, 0x0, 3, 0⟩

/-- KPR_STATUS.MAKER_DBG (R139). -/
def F.KPR_STATUS_MAKER_DBG : Fld := ⟨0x10000, 0x0, 0x0, 12, 12⟩

/-- KPR_STATUS.SWAP_ACTIVE (R139). -/
def F.KPR_STATUS_SWAP_ACTIVE : Fld := ⟨0x10000, 0x0, 0x0, 15, 15⟩

/-- KPR_STATUS.TRIAL (R139). -/
def F.KPR_STATUS_TRIAL : Fld := ⟨0x10000, 0x0, 0x0, 14, 14⟩

/-- KPR_STATUS.UNREADABLE (R139). -/
def F.KPR_STATUS_UNREADABLE : Fld := ⟨0x10000, 0x0, 0x0, 13, 13⟩

/-- KPR_UPD.REASON (R139). -/
def F.KPR_UPD_REASON : Fld := ⟨0x10050, 0x0, 0x0, 3, 0⟩

/-- KPR_UPD.SET (R139). -/
def F.KPR_UPD_SET : Fld := ⟨0x10050, 0x0, 0x0, 7, 4⟩

/-- KPR_UPD.WIN_LEFT (R139). -/
def F.KPR_UPD_WIN_LEFT : Fld := ⟨0x10050, 0x0, 0x0, 31, 16⟩

/-- LPT_CFG.AN_EN (R159). -/
def F.LPT_CFG_AN_EN : Fld := ⟨0x100000, 0x0, 0x1000, 20, 20⟩

/-- LPT_CFG.FEC (R159). -/
def F.LPT_CFG_FEC : Fld := ⟨0x100000, 0x0, 0x1000, 19, 18⟩

/-- LPT_CFG.SLICE (R159). -/
def F.LPT_CFG_SLICE : Fld := ⟨0x100000, 0x0, 0x1000, 23, 21⟩

/-- LPT_CFG.SPEED (R159). -/
def F.LPT_CFG_SPEED : Fld := ⟨0x100000, 0x0, 0x1000, 3, 0⟩

/-- LPT_CFG.WIDTH (R159). -/
def F.LPT_CFG_WIDTH : Fld := ⟨0x100000, 0x0, 0x1000, 11, 8⟩

/-- LPT_CTRL.ADMIN_UP (R159). -/
def F.LPT_CTRL_ADMIN_UP : Fld := ⟨0x100004, 0x0, 0x1000, 0, 0⟩

/-- LPT_CTRL.TMGMT_EN (R159). -/
def F.LPT_CTRL_TMGMT_EN : Fld := ⟨0x100004, 0x0, 0x1000, 1, 1⟩

/-- LPT_EVT.AN_FAIL (R159). -/
def F.LPT_EVT_AN_FAIL : Fld := ⟨0x100014, 0x0, 0x1000, 3, 3⟩

/-- LPT_EVT.DOWN (R159). -/
def F.LPT_EVT_DOWN : Fld := ⟨0x100014, 0x0, 0x1000, 0, 0⟩

/-- LPT_EVT.HI_BER (R159). -/
def F.LPT_EVT_HI_BER : Fld := ⟨0x100014, 0x0, 0x1000, 2, 2⟩

/-- LPT_EVT.PFC_STORM (R159). -/
def F.LPT_EVT_PFC_STORM : Fld := ⟨0x100014, 0x0, 0x1000, 4, 4⟩

/-- LPT_EVT.UP (R159). -/
def F.LPT_EVT_UP : Fld := ⟨0x100014, 0x0, 0x1000, 1, 1⟩

/-- LPT_LINK_CFG.DOWN_HOLD (R159). -/
def F.LPT_LINK_CFG_DOWN_HOLD : Fld := ⟨0x10001c, 0x0, 0x1000, 9, 0⟩

/-- LPT_LINK_CFG.UP_HOLD (R159). -/
def F.LPT_LINK_CFG_UP_HOLD : Fld := ⟨0x10001c, 0x0, 0x1000, 31, 16⟩

/-- LPT_MAC_CFG.MAX_LEN (R159). -/
def F.LPT_MAC_CFG_MAX_LEN : Fld := ⟨0x100008, 0x0, 0x1000, 13, 0⟩

/-- LPT_PFC.EN (R159). -/
def F.LPT_PFC_EN : Fld := ⟨0x100020, 0x0, 0x1000, 0, 0⟩

/-- LPT_PFC_MAP.PRI_TC (R159). -/
def F.LPT_PFC_MAP_PRI_TC : Fld := ⟨0x100028, 0x0, 0x1000, 23, 0⟩

/-- LPT_PFC.PRI_EN (R159). -/
def F.LPT_PFC_PRI_EN : Fld := ⟨0x100020, 0x0, 0x1000, 15, 8⟩

/-- LPT_PFC.QUANTA (R159). -/
def F.LPT_PFC_QUANTA : Fld := ⟨0x100020, 0x0, 0x1000, 31, 16⟩

/-- LPT_PFC_REFRESH.REFRESH (R159). -/
def F.LPT_PFC_REFRESH_REFRESH : Fld := ⟨0x100024, 0x0, 0x1000, 15, 0⟩

/-- LPT_STATUS.ALIGNED (R159). -/
def F.LPT_STATUS_ALIGNED : Fld := ⟨0x100010, 0x0, 0x1000, 1, 1⟩

/-- LPT_STATUS.AN_DONE (R159). -/
def F.LPT_STATUS_AN_DONE : Fld := ⟨0x100010, 0x0, 0x1000, 5, 5⟩

/-- LPT_STATUS.AN_FAIL (R159). -/
def F.LPT_STATUS_AN_FAIL : Fld := ⟨0x100010, 0x0, 0x1000, 6, 6⟩

/-- LPT_STATUS.HI_BER (R159). -/
def F.LPT_STATUS_HI_BER : Fld := ⟨0x100010, 0x0, 0x1000, 4, 4⟩

/-- LPT_STATUS.LF (R159). -/
def F.LPT_STATUS_LF : Fld := ⟨0x100010, 0x0, 0x1000, 2, 2⟩

/-- LPT_STATUS.LINK (R159). -/
def F.LPT_STATUS_LINK : Fld := ⟨0x100010, 0x0, 0x1000, 0, 0⟩

/-- LPT_STATUS.PAUSED (R159). -/
def F.LPT_STATUS_PAUSED : Fld := ⟨0x100010, 0x0, 0x1000, 31, 24⟩

/-- LPT_STATUS.RF (R159). -/
def F.LPT_STATUS_RF : Fld := ⟨0x100010, 0x0, 0x1000, 3, 3⟩

/-- MOD_ASCENT_TIME.US (R101). -/
def F.MOD_ASCENT_TIME_US : Fld := ⟨0x60060, 0x0, 0x4, 31, 0⟩

/-- MOD_BYP_CTRL.EN0 (R101). -/
def F.MOD_BYP_CTRL_EN0 : Fld := ⟨0x60040, 0x0, 0x0, 0, 0⟩

/-- MOD_BYP_CTRL.EN1 (R101). -/
def F.MOD_BYP_CTRL_EN1 : Fld := ⟨0x60040, 0x0, 0x0, 1, 1⟩

/-- MOD_BYP_CTRL.FORCE_CLOSE0 (R101). -/
def F.MOD_BYP_CTRL_FORCE_CLOSE0 : Fld := ⟨0x60040, 0x0, 0x0, 2, 2⟩

/-- MOD_BYP_CTRL.FORCE_CLOSE1 (R101). -/
def F.MOD_BYP_CTRL_FORCE_CLOSE1 : Fld := ⟨0x60040, 0x0, 0x0, 3, 3⟩

/-- MOD_BYP_CTRL.RELINK (R101). -/
def F.MOD_BYP_CTRL_RELINK : Fld := ⟨0x60040, 0x0, 0x0, 31, 16⟩

/-- MOD_BYP_CTRL.RETRY (R101). -/
def F.MOD_BYP_CTRL_RETRY : Fld := ⟨0x60040, 0x0, 0x0, 7, 4⟩

/-- MOD_BYP_CTRL.SETTLE (R101). -/
def F.MOD_BYP_CTRL_SETTLE : Fld := ⟨0x60040, 0x0, 0x0, 15, 8⟩

/-- MOD_BYP_STATUS.FAILS0 (R101). -/
def F.MOD_BYP_STATUS_FAILS0 : Fld := ⟨0x60044, 0x0, 0x0, 23, 16⟩

/-- MOD_BYP_STATUS.FAILS1 (R101). -/
def F.MOD_BYP_STATUS_FAILS1 : Fld := ⟨0x60044, 0x0, 0x0, 31, 24⟩

/-- MOD_BYP_STATUS.PIN0 (R101). -/
def F.MOD_BYP_STATUS_PIN0 : Fld := ⟨0x60044, 0x0, 0x0, 8, 8⟩

/-- MOD_BYP_STATUS.PIN1 (R101). -/
def F.MOD_BYP_STATUS_PIN1 : Fld := ⟨0x60044, 0x0, 0x0, 9, 9⟩

/-- MOD_BYP_STATUS.STATE0 (R101). -/
def F.MOD_BYP_STATUS_STATE0 : Fld := ⟨0x60044, 0x0, 0x0, 3, 0⟩

/-- MOD_BYP_STATUS.STATE1 (R101). -/
def F.MOD_BYP_STATUS_STATE1 : Fld := ⟨0x60044, 0x0, 0x0, 7, 4⟩

/-- MOD_CMD_RESULT.CMD (R101). -/
def F.MOD_CMD_RESULT_CMD : Fld := ⟨0x60010, 0x0, 0x0, 7, 4⟩

/-- MOD_CMD_RESULT.CODE (R101). -/
def F.MOD_CMD_RESULT_CODE : Fld := ⟨0x60010, 0x0, 0x0, 3, 0⟩

/-- MOD_CMD_RESULT.TICK_LATE (R101). -/
def F.MOD_CMD_RESULT_TICK_LATE : Fld := ⟨0x60010, 0x0, 0x0, 8, 8⟩

/-- MOD_LULL_CFG.LULL_EN (R101). -/
def F.MOD_LULL_CFG_LULL_EN : Fld := ⟨0x60020, 0x0, 0x0, 0, 0⟩

/-- MOD_LULL_CFG.RATE (R101). -/
def F.MOD_LULL_CFG_RATE : Fld := ⟨0x60020, 0x0, 0x0, 22, 16⟩

/-- MOD_LULL_CFG.TC_MASK (R101). -/
def F.MOD_LULL_CFG_TC_MASK : Fld := ⟨0x60020, 0x0, 0x0, 31, 24⟩

/-- MOD_LULL_CFG.WAKE_PIN_EN (R101). -/
def F.MOD_LULL_CFG_WAKE_PIN_EN : Fld := ⟨0x60020, 0x0, 0x0, 1, 1⟩

/-- MOD_LULL_CFG.WAKE_TICK_EN (R101). -/
def F.MOD_LULL_CFG_WAKE_TICK_EN : Fld := ⟨0x60020, 0x0, 0x0, 4, 4⟩

/-- MOD_LULL_CFG.WAKE_TP0 (R101). -/
def F.MOD_LULL_CFG_WAKE_TP0 : Fld := ⟨0x60020, 0x0, 0x0, 2, 2⟩

/-- MOD_LULL_CFG.WAKE_TP1 (R101). -/
def F.MOD_LULL_CFG_WAKE_TP1 : Fld := ⟨0x60020, 0x0, 0x0, 3, 3⟩

/-- MOD_LULL_DROPS.COUNT (R101). -/
def F.MOD_LULL_DROPS_COUNT : Fld := ⟨0x60034, 0x0, 0x0, 31, 0⟩

/-- MOD_LULL_FLUSH.COUNT (R101). -/
def F.MOD_LULL_FLUSH_COUNT : Fld := ⟨0x60038, 0x0, 0x0, 31, 0⟩

/-- MOD_RSQ.COUNT (R101). -/
def F.MOD_RSQ_COUNT : Fld := ⟨0x60054, 0x0, 0x0, 1, 0⟩

/-- MOD_RSQ.LAST_CAUSE (R101). -/
def F.MOD_RSQ_LAST_CAUSE : Fld := ⟨0x60054, 0x0, 0x0, 7, 4⟩

/-- MOD_SAFE.DETAIL (R101). -/
def F.MOD_SAFE_DETAIL : Fld := ⟨0x60050, 0x0, 0x0, 15, 8⟩

/-- MOD_SAFE.REASON (R101). -/
def F.MOD_SAFE_REASON : Fld := ⟨0x60050, 0x0, 0x0, 7, 0⟩

/-- MOD_STATUS.CMD_PEND (R101). -/
def F.MOD_STATUS_CMD_PEND : Fld := ⟨0x60000, 0x0, 0x0, 13, 13⟩

/-- MOD_STATUS.DP_READY (R101). -/
def F.MOD_STATUS_DP_READY : Fld := ⟨0x60000, 0x0, 0x0, 15, 15⟩

/-- MOD_STATUS.KEEPER_UP (R101). -/
def F.MOD_STATUS_KEEPER_UP : Fld := ⟨0x60000, 0x0, 0x0, 14, 14⟩

/-- MOD_STATUS.MODE (R101). -/
def F.MOD_STATUS_MODE : Fld := ⟨0x60000, 0x0, 0x0, 2, 0⟩

/-- MOD_STATUS.PHASE (R101). -/
def F.MOD_STATUS_PHASE : Fld := ⟨0x60000, 0x0, 0x0, 8, 6⟩

/-- MOD_STATUS.STEP (R101). -/
def F.MOD_STATUS_STEP : Fld := ⟨0x60000, 0x0, 0x0, 12, 9⟩

/-- MOD_THERM_CFG.WARN (R543). -/
def F.MOD_THERM_CFG_WARN : Fld := ⟨0x60140, 0x0, 0x0, 15, 0⟩

/-- MOD_THERM_STATUS.TRIP (R543). -/
def F.MOD_THERM_STATUS_TRIP : Fld := ⟨0x60144, 0x0, 0x0, 31, 31⟩

/-- MOD_THERM_STATUS.WARN (R543). -/
def F.MOD_THERM_STATUS_WARN : Fld := ⟨0x60144, 0x0, 0x0, 15, 0⟩

/-- MOD_THERM_TEMP.TEMP (R543). -/
def F.MOD_THERM_TEMP_TEMP : Fld := ⟨0x60100, 0x0, 0x4, 15, 0⟩

/-- MOD_TRANS.FROM (R101). -/
def F.MOD_TRANS_FROM : Fld := ⟨0x60080, 0x0, 0x0, 7, 4⟩

/-- MOD_TRANS.TO (R101). -/
def F.MOD_TRANS_TO : Fld := ⟨0x60080, 0x0, 0x0, 3, 0⟩

/-- MOD_TRANS.TRIGGER (R101). -/
def F.MOD_TRANS_TRIGGER : Fld := ⟨0x60080, 0x0, 0x0, 15, 8⟩

/-- MOD_WAKE_CODE.CODE (R101). -/
def F.MOD_WAKE_CODE_CODE : Fld := ⟨0x60024, 0x0, 0x0, 31, 0⟩

/-- MOD_WAKE_SRC.SRC (R101). -/
def F.MOD_WAKE_SRC_SRC : Fld := ⟨0x60030, 0x0, 0x0, 4, 0⟩

/-- OTN_GRP_CFG.MODE (R178). -/
def F.OTN_GRP_CFG_MODE : Fld := ⟨0x200000, 0x0, 0x4000, 1, 0⟩

/-- OTN_IF_CFG.EN (R178). -/
def F.OTN_IF_CFG_EN : Fld := ⟨0x200010, 0x4000, 0x4, 31, 31⟩

/-- OTN_IF_CFG.N (R178). -/
def F.OTN_IF_CFG_N : Fld := ⟨0x200010, 0x4000, 0x4, 4, 0⟩

/-- OTN_IF_CFG.TIM_ACT (R178). -/
def F.OTN_IF_CFG_TIM_ACT : Fld := ⟨0x200010, 0x4000, 0x4, 7, 7⟩

/-- OTN_IF_CFG.TIM_MODE (R178). -/
def F.OTN_IF_CFG_TIM_MODE : Fld := ⟨0x200010, 0x4000, 0x4, 6, 5⟩

/-- OTN_IF_STATUS.BDI (R178). -/
def F.OTN_IF_STATUS_BDI : Fld := ⟨0x200040, 0x4000, 0x4, 8, 8⟩

/-- OTN_IF_STATUS.LANE_LOS (R178). -/
def F.OTN_IF_STATUS_LANE_LOS : Fld := ⟨0x200040, 0x4000, 0x4, 31, 16⟩

/-- OTN_IF_STATUS.LOF (R178). -/
def F.OTN_IF_STATUS_LOF : Fld := ⟨0x200040, 0x4000, 0x4, 4, 4⟩

/-- OTN_IF_STATUS.LOFLOM (R178). -/
def F.OTN_IF_STATUS_LOFLOM : Fld := ⟨0x200040, 0x4000, 0x4, 1, 1⟩

/-- OTN_IF_STATUS.LOL (R178). -/
def F.OTN_IF_STATUS_LOL : Fld := ⟨0x200040, 0x4000, 0x4, 2, 2⟩

/-- OTN_IF_STATUS.LOM (R178). -/
def F.OTN_IF_STATUS_LOM : Fld := ⟨0x200040, 0x4000, 0x4, 6, 6⟩

/-- OTN_IF_STATUS.OOF (R178). -/
def F.OTN_IF_STATUS_OOF : Fld := ⟨0x200040, 0x4000, 0x4, 3, 3⟩

/-- OTN_IF_STATUS.OOM (R178). -/
def F.OTN_IF_STATUS_OOM : Fld := ⟨0x200040, 0x4000, 0x4, 5, 5⟩

/-- OTN_IF_STATUS.TIM (R178). -/
def F.OTN_IF_STATUS_TIM : Fld := ⟨0x200040, 0x4000, 0x4, 7, 7⟩

/-- OTN_IF_STATUS.UP (R178). -/
def F.OTN_IF_STATUS_UP : Fld := ⟨0x200040, 0x4000, 0x4, 0, 0⟩

/-- OTN_PC_CFG.COUNT (R178). -/
def F.OTN_PC_CFG_COUNT : Fld := ⟨0x200800, 0x4000, 0x4, 14, 8⟩

/-- OTN_PC_CFG.EN (R178). -/
def F.OTN_PC_CFG_EN : Fld := ⟨0x200800, 0x4000, 0x4, 31, 31⟩

/-- OTN_PC_CFG.FIRST (R178). -/
def F.OTN_PC_CFG_FIRST : Fld := ⟨0x200800, 0x4000, 0x4, 23, 15⟩

/-- OTN_PC_CFG.IF (R178). -/
def F.OTN_PC_CFG_IF : Fld := ⟨0x200800, 0x4000, 0x4, 26, 24⟩

/-- OTN_PC_CFG.SLICE (R178). -/
def F.OTN_PC_CFG_SLICE : Fld := ⟨0x200800, 0x4000, 0x4, 29, 27⟩

/-- OTN_PC_CFG.TIM_ACT (R178). -/
def F.OTN_PC_CFG_TIM_ACT : Fld := ⟨0x200800, 0x4000, 0x4, 1, 1⟩

/-- OTN_PM_CFG.DAY_OFS (R178). -/
def F.OTN_PM_CFG_DAY_OFS : Fld := ⟨0x2f0000, 0x0, 0x0, 16, 0⟩

/-- PAT_CFG.OVF_ACT (R273). -/
def F.PAT_CFG_OVF_ACT : Fld := ⟨0x680020, 0x0, 0x0, 0, 0⟩

/-- PAT_CFG.QMAX (R273). -/
def F.PAT_CFG_QMAX : Fld := ⟨0x680020, 0x0, 0x0, 31, 16⟩

/-- PAT_CTRL.AT_TICK (R273). -/
def F.PAT_CTRL_AT_TICK : Fld := ⟨0x680000, 0x0, 0x0, 8, 8⟩

/-- PAT_CTRL.LOAD (R273). -/
def F.PAT_CTRL_LOAD : Fld := ⟨0x680000, 0x0, 0x0, 0, 0⟩

/-- PAT_CTRL.SLICE_MASK (R273). -/
def F.PAT_CTRL_SLICE_MASK : Fld := ⟨0x680000, 0x0, 0x0, 31, 24⟩

/-- PAT_CTRL.SWAP (R273). -/
def F.PAT_CTRL_SWAP : Fld := ⟨0x680000, 0x0, 0x0, 1, 1⟩

/-- PAT_LOAD_SRC.OFS (R273). -/
def F.PAT_LOAD_SRC_OFS : Fld := ⟨0x680008, 0x0, 0x0, 24, 0⟩

/-- PAT_PROF.INST (R273). -/
def F.PAT_PROF_INST : Fld := ⟨0x680040, 0x0, 0x4, 23, 22⟩

/-- PAT_PROF.KIND (R273). -/
def F.PAT_PROF_KIND : Fld := ⟨0x680040, 0x0, 0x4, 31, 24⟩

/-- PAT_PROF.MAXLEN (R273). -/
def F.PAT_PROF_MAXLEN : Fld := ⟨0x680040, 0x0, 0x4, 13, 0⟩

/-- PAT_PROF.OFS (R273). -/
def F.PAT_PROF_OFS : Fld := ⟨0x680040, 0x0, 0x4, 21, 14⟩

/-- PAT_STATUS.ACT_BANK (R273). -/
def F.PAT_STATUS_ACT_BANK : Fld := ⟨0x680004, 0x0, 0x0, 31, 24⟩

/-- PAT_STATUS.BUSY (R273). -/
def F.PAT_STATUS_BUSY : Fld := ⟨0x680004, 0x0, 0x0, 0, 0⟩

/-- PAT_STATUS.DONE (R273). -/
def F.PAT_STATUS_DONE : Fld := ⟨0x680004, 0x0, 0x0, 1, 1⟩

/-- PAT_STATUS.ERR (R273). -/
def F.PAT_STATUS_ERR : Fld := ⟨0x680004, 0x0, 0x0, 18, 16⟩

/-- PAT_STATUS.TICK_LATE (R273). -/
def F.PAT_STATUS_TICK_LATE : Fld := ⟨0x680004, 0x0, 0x0, 3, 3⟩

/-- PAT_STATUS.WR_IGNORED (R273). -/
def F.PAT_STATUS_WR_IGNORED : Fld := ⟨0x680004, 0x0, 0x0, 2, 2⟩

/-- PMC_CTRL.AT_TICK (R461). -/
def F.PMC_CTRL_AT_TICK : Fld := ⟨0x3900000, 0x0, 0x10000, 1, 1⟩

/-- PMC_CTRL.RUN (R461). -/
def F.PMC_CTRL_RUN : Fld := ⟨0x3900000, 0x0, 0x10000, 0, 0⟩

/-- PMC_SEL.EN (R461). -/
def F.PMC_SEL_EN : Fld := ⟨0x3900100, 0x10000, 0x4, 31, 31⟩

/-- PMC_SEL.EVENT (R461). -/
def F.PMC_SEL_EVENT : Fld := ⟨0x3900100, 0x10000, 0x4, 7, 0⟩

/-- PMC_SEL.SAMPLE_EN (R461). -/
def F.PMC_SEL_SAMPLE_EN : Fld := ⟨0x3900100, 0x10000, 0x4, 29, 29⟩

/-- PMC_SFIFO_STATUS.LEVEL (R461). -/
def F.PMC_SFIFO_STATUS_LEVEL : Fld := ⟨0x3900808, 0x0, 0x10000, 8, 0⟩

/-- PMC_SFIFO_STATUS.LOST (R461). -/
def F.PMC_SFIFO_STATUS_LOST : Fld := ⟨0x3900808, 0x0, 0x10000, 31, 16⟩

/-- PMC_USER_EN.EN (R461). -/
def F.PMC_USER_EN_EN : Fld := ⟨0x3990000, 0x0, 0x0, 0, 0⟩

/-- PRS_C37_PORT.PORT0 (R205). -/
def F.PRS_C37_PORT_PORT0 : Fld := ⟨0x400008, 0x0, 0x0, 15, 0⟩

/-- PRS_C37_PORT.PORT1 (R205). -/
def F.PRS_C37_PORT_PORT1 : Fld := ⟨0x400008, 0x0, 0x0, 31, 16⟩

/-- PRS_ERR_ACT.CKSUM (R205). -/
def F.PRS_ERR_ACT_CKSUM : Fld := ⟨0x400000, 0x0, 0x0, 9, 8⟩

/-- PRS_ERR_ACT.DEPTH (R205). -/
def F.PRS_ERR_ACT_DEPTH : Fld := ⟨0x400000, 0x0, 0x0, 1, 0⟩

/-- PRS_ERR_ACT.LEN (R205). -/
def F.PRS_ERR_ACT_LEN : Fld := ⟨0x400000, 0x0, 0x0, 3, 2⟩

/-- PRS_ERR_ACT.MALFORMED (R205). -/
def F.PRS_ERR_ACT_MALFORMED : Fld := ⟨0x400000, 0x0, 0x0, 7, 6⟩

/-- PRS_ERR_ACT.TRUNC (R205). -/
def F.PRS_ERR_ACT_TRUNC : Fld := ⟨0x400000, 0x0, 0x0, 5, 4⟩

/-- PRS_UDH.EN (R205). -/
def F.PRS_UDH_EN : Fld := ⟨0x400040, 0x0, 0x10, 31, 31⟩

/-- PRS_UDH.LEN_ADD (R205). -/
def F.PRS_UDH_LEN_ADD : Fld := ⟨0x400048, 0x0, 0x10, 15, 8⟩

/-- PRS_UDH.LEN_OFS (R205). -/
def F.PRS_UDH_LEN_OFS : Fld := ⟨0x400048, 0x0, 0x10, 31, 24⟩

/-- PRS_UDH.LEN_SHIFT (R205). -/
def F.PRS_UDH_LEN_SHIFT : Fld := ⟨0x400048, 0x0, 0x10, 19, 18⟩

/-- PRS_UDH.LEN_WIDTH (R205). -/
def F.PRS_UDH_LEN_WIDTH : Fld := ⟨0x400048, 0x0, 0x10, 23, 20⟩

/-- PRS_UDH.MASK (R205). -/
def F.PRS_UDH_MASK : Fld := ⟨0x400044, 0x0, 0x10, 31, 16⟩

/-- PRS_UDH.MAX_LEN (R205). -/
def F.PRS_UDH_MAX_LEN : Fld := ⟨0x400048, 0x0, 0x10, 7, 0⟩

/-- PRS_UDH.NXT_OFS (R205). -/
def F.PRS_UDH_NXT_OFS : Fld := ⟨0x40004c, 0x0, 0x10, 31, 24⟩

/-- PRS_UDH.NXT_SPACE (R205). -/
def F.PRS_UDH_NXT_SPACE : Fld := ⟨0x40004c, 0x0, 0x10, 18, 16⟩

/-- PRS_UDH.NXT_WIDTH (R205). -/
def F.PRS_UDH_NXT_WIDTH : Fld := ⟨0x40004c, 0x0, 0x10, 23, 19⟩

/-- PRS_UDH.PARENT (R205). -/
def F.PRS_UDH_PARENT : Fld := ⟨0x400040, 0x0, 0x10, 23, 16⟩

/-- PRS_UDH.SPACE (R205). -/
def F.PRS_UDH_SPACE : Fld := ⟨0x400040, 0x0, 0x10, 30, 28⟩

/-- PRS_UDH.VALUE (R205). -/
def F.PRS_UDH_VALUE : Fld := ⟨0x400040, 0x0, 0x10, 15, 0⟩

/-- PRS_UDP_PORTS.GENEVE (R205). -/
def F.PRS_UDP_PORTS_GENEVE : Fld := ⟨0x400004, 0x0, 0x0, 15, 0⟩

/-- PRS_UDP_PORTS.VXLAN (R205). -/
def F.PRS_UDP_PORTS_VXLAN : Fld := ⟨0x400004, 0x0, 0x0, 31, 16⟩

/-- QUE_EVT.DISABLED_DROP (R382). -/
def F.QUE_EVT_DISABLED_DROP : Fld := ⟨0xd00040, 0x0, 0x0, 0, 0⟩

/-- QUE_IND_CMD.OP (R382). -/
def F.QUE_IND_CMD_OP : Fld := ⟨0xd00000, 0x0, 0x0, 2, 0⟩

/-- QUE_IND_STATUS.BUSY (R382). -/
def F.QUE_IND_STATUS_BUSY : Fld := ⟨0xd00004, 0x0, 0x0, 0, 0⟩

/-- QUE_IND_STATUS.DONE (R382). -/
def F.QUE_IND_STATUS_DONE : Fld := ⟨0xd00004, 0x0, 0x0, 1, 1⟩

/-- QUE_IND_STATUS.ERR (R382). -/
def F.QUE_IND_STATUS_ERR : Fld := ⟨0xd00004, 0x0, 0x0, 5, 3⟩

/-- QUE_IND_STATUS.WR_IGNORED (R382). -/
def F.QUE_IND_STATUS_WR_IGNORED : Fld := ⟨0xd00004, 0x0, 0x0, 2, 2⟩

/-- ACL_CNT (R273). -/
def R.ACL_CNT : Reg := ⟨0x602000, 0x0, 0x40⟩

/-- ACL_IND_CMD (R273). -/
def R.ACL_IND_CMD : Reg := ⟨0x600000, 0x0, 0x0⟩

/-- ACL_IND_DATA (R273). -/
def R.ACL_IND_DATA : Reg := ⟨0x600100, 0x0, 0x4⟩

/-- ACL_KEYX (R273). -/
def R.ACL_KEYX : Reg := ⟨0x601000, 0x0, 0x4⟩

/-- ADM_CNT (R362). -/
def R.ADM_CNT : Reg := ⟨0xc00800, 0x0, 0x40⟩

/-- ADM_EVT (R362). -/
def R.ADM_EVT : Reg := ⟨0xc00018, 0x0, 0x0⟩

/-- ADM_EVT_EN (R362). -/
def R.ADM_EVT_EN : Reg := ⟨0xc0001c, 0x0, 0x0⟩

/-- ADM_PORT_CNT (R362). -/
def R.ADM_PORT_CNT : Reg := ⟨0xc0c000, 0x0, 0x20⟩

/-- BIS_BUSY_LOG (R513). -/
def R.BIS_BUSY_LOG : Reg := ⟨0x70020, 0x0, 0x0⟩

/-- BIS_CNT (R513). -/
def R.BIS_CNT : Reg := ⟨0x72000, 0x0, 0x0⟩

/-- BIS_ECC_LOG (R513). -/
def R.BIS_ECC_LOG : Reg := ⟨0x70018, 0x0, 0x0⟩

/-- BIS_FAIL_LOG (R513). -/
def R.BIS_FAIL_LOG : Reg := ⟨0x70010, 0x0, 0x0⟩

/-- BIS_GTEST_CTRL (R513). -/
def R.BIS_GTEST_CTRL : Reg := ⟨0x70040, 0x0, 0x0⟩

/-- BIS_GTEST_TICK (R513). -/
def R.BIS_GTEST_TICK : Reg := ⟨0x70048, 0x0, 0x0⟩

/-- BIS_HBM_LOG (R513). -/
def R.BIS_HBM_LOG : Reg := ⟨0x70028, 0x0, 0x0⟩

/-- BIS_MEM_SEL (R513). -/
def R.BIS_MEM_SEL : Reg := ⟨0x70030, 0x0, 0x0⟩

/-- BIS_PROBE_CFG (R513). -/
def R.BIS_PROBE_CFG : Reg := ⟨0x70050, 0x0, 0x0⟩

/-- BIS_PROBE_LANE (R513). -/
def R.BIS_PROBE_LANE : Reg := ⟨0x71000, 0x0, 0x4⟩

/-- BIS_PROBE_RES (R513). -/
def R.BIS_PROBE_RES : Reg := ⟨0x70054, 0x0, 0x0⟩

/-- CAD_CTRL (R73). -/
def R.CAD_CTRL : Reg := ⟨0x50000, 0x0, 0x0⟩

/-- CAD_PERIOD (R73). -/
def R.CAD_PERIOD : Reg := ⟨0x50004, 0x0, 0x0⟩

/-- CAD_PHASE (R73). -/
def R.CAD_PHASE : Reg := ⟨0x50008, 0x0, 0x0⟩

/-- CAD_SKIPPED (R73). -/
def R.CAD_SKIPPED : Reg := ⟨0x50018, 0x0, 0x0⟩

/-- CAD_TICK (R73). -/
def R.CAD_TICK : Reg := ⟨0x50010, 0x0, 0x0⟩

/-- CLS_CNT (R205). -/
def R.CLS_CNT : Reg := ⟨0x444000, 0x0, 0x20⟩

/-- CLS_EXTRACT (R205). -/
def R.CLS_EXTRACT : Reg := ⟨0x442000, 0x0, 0x4⟩

/-- CLS_IND_CMD (R205). -/
def R.CLS_IND_CMD : Reg := ⟨0x440000, 0x0, 0x0⟩

/-- CLS_IND_DATA (R205). -/
def R.CLS_IND_DATA : Reg := ⟨0x440010, 0x0, 0x4⟩

/-- CLS_PUNT_CNT (R205). -/
def R.CLS_PUNT_CNT : Reg := ⟨0x443800, 0x0, 0x10⟩

/-- EVT_DIGEST_SEQ (R489). -/
def R.EVT_DIGEST_SEQ : Reg := ⟨0x20908, 0x0, 0x0⟩

/-- EVT_EN (R489). -/
def R.EVT_EN : Reg := ⟨0x20020, 0x0, 0x4⟩

/-- EVT_FORCE (R489). -/
def R.EVT_FORCE : Reg := ⟨0x20040, 0x0, 0x4⟩

/-- EVT_PEND (R489). -/
def R.EVT_PEND : Reg := ⟨0x20000, 0x0, 0x4⟩

/-- FAB_CNT (R432). -/
def R.FAB_CNT : Reg := ⟨0x3410000, 0x0, 0x0⟩

/-- FAB_EVT (R432). -/
def R.FAB_EVT : Reg := ⟨0x3400010, 0x0, 0x0⟩

/-- FAB_EVT_EN (R432). -/
def R.FAB_EVT_EN : Reg := ⟨0x3400014, 0x0, 0x0⟩

/-- FAB_LINK_CNT (R432). -/
def R.FAB_LINK_CNT : Reg := ⟨0x3420000, 0x0, 0x20⟩

/-- GAL_CNT (R334). -/
def R.GAL_CNT : Reg := ⟨0x701000, 0x80000, 0x8⟩

/-- GAL_DBG_CTRL (R334). -/
def R.GAL_DBG_CTRL : Reg := ⟨0x700020, 0x0, 0x80000⟩

/-- GAL_DBG_DATA (R334). -/
def R.GAL_DBG_DATA : Reg := ⟨0x700028, 0x0, 0x80000⟩

/-- GAL_EVT (R334). -/
def R.GAL_EVT : Reg := ⟨0x700008, 0x0, 0x80000⟩

/-- GAL_EVT_EN (R334). -/
def R.GAL_EVT_EN : Reg := ⟨0x70000c, 0x0, 0x80000⟩

/-- GAT_CNT (R412). -/
def R.GAT_CNT : Reg := ⟨0x3000090, 0x0, 0x0⟩

/-- GAT_EVT (R412). -/
def R.GAT_EVT : Reg := ⟨0x3000080, 0x0, 0x0⟩

/-- GAT_EVT_EN (R412). -/
def R.GAT_EVT_EN : Reg := ⟨0x3000084, 0x0, 0x0⟩

/-- GAT_IND_CMD (R412). -/
def R.GAT_IND_CMD : Reg := ⟨0x3000000, 0x0, 0x0⟩

/-- GAT_IND_DATA (R412). -/
def R.GAT_IND_DATA : Reg := ⟨0x3000010, 0x0, 0x4⟩

/-- GAT_PORT_CNT (R412). -/
def R.GAT_PORT_CNT : Reg := ⟨0x3002000, 0x0, 0x10⟩

/-- GLB_ERR_CNT (R517). -/
def R.GLB_ERR_CNT : Reg := ⟨0x28, 0x0, 0x0⟩

/-- GLB_ERR_LOG (R517). -/
def R.GLB_ERR_LOG : Reg := ⟨0x20, 0x0, 0x0⟩

/-- GLB_PART (R517). -/
def R.GLB_PART : Reg := ⟨0x0, 0x0, 0x0⟩

/-- HBM_CNT (R518). -/
def R.HBM_CNT : Reg := ⟨0x3a00100, 0x0, 0x20⟩

/-- HRD_CNT (R362). -/
def R.HRD_CNT : Reg := ⟨0xb00400, 0x0, 0x40⟩

/-- HRD_EVT (R362). -/
def R.HRD_EVT : Reg := ⟨0xb00200, 0x0, 0x0⟩

/-- HRD_EVT_EN (R362). -/
def R.HRD_EVT_EN : Reg := ⟨0xb00204, 0x0, 0x0⟩

/-- HST_CNT (R489). -/
def R.HST_CNT : Reg := ⟨0x33000, 0x0, 0x0⟩

/-- HST_DMA_ERR_ADDR (R489). -/
def R.HST_DMA_ERR_ADDR : Reg := ⟨0x30028, 0x0, 0x0⟩

/-- HST_EVT (R489). -/
def R.HST_EVT : Reg := ⟨0x30020, 0x0, 0x0⟩

/-- HST_EVT_EN (R489). -/
def R.HST_EVT_EN : Reg := ⟨0x30024, 0x0, 0x0⟩

/-- HST_MSIX_PBA (R462). -/
def R.HST_MSIX_PBA : Reg := ⟨0x3a000, 0x0, 0x4⟩

/-- HST_MSIX_TABLE (R462). -/
def R.HST_MSIX_TABLE : Reg := ⟨0x38000, 0x0, 0x10⟩

/-- HST_PCIE_STATUS (R489). -/
def R.HST_PCIE_STATUS : Reg := ⟨0x30000, 0x0, 0x0⟩

/-- HST_RING (R489). -/
def R.HST_RING : Reg := ⟨0x31000, 0x0, 0x20⟩

/-- HST_RING_CNT (R489). -/
def R.HST_RING_CNT : Reg := ⟨0x32000, 0x0, 0x10⟩

/-- HST_STATUS (R489). -/
def R.HST_STATUS : Reg := ⟨0x30004, 0x0, 0x0⟩

/-- KPR_IMG (R139). -/
def R.KPR_IMG : Reg := ⟨0x10040, 0x0, 0x4⟩

/-- KPR_LC (R139). -/
def R.KPR_LC : Reg := ⟨0x10020, 0x0, 0x0⟩

/-- KPR_SECVER (R139). -/
def R.KPR_SECVER : Reg := ⟨0x10030, 0x0, 0x4⟩

/-- KPR_STATUS (R139). -/
def R.KPR_STATUS : Reg := ⟨0x10000, 0x0, 0x0⟩

/-- KPR_UNIT_ID (R139). -/
def R.KPR_UNIT_ID : Reg := ⟨0x10010, 0x0, 0x0⟩

/-- KPR_UPD (R139). -/
def R.KPR_UPD : Reg := ⟨0x10050, 0x0, 0x0⟩

/-- LPT_CFG (R159). -/
def R.LPT_CFG : Reg := ⟨0x100000, 0x0, 0x1000⟩

/-- LPT_CNT (R159). -/
def R.LPT_CNT : Reg := ⟨0x100100, 0x1000, 0x8⟩

/-- LPT_CTRL (R159). -/
def R.LPT_CTRL : Reg := ⟨0x100004, 0x0, 0x1000⟩

/-- LPT_EVT (R159). -/
def R.LPT_EVT : Reg := ⟨0x100014, 0x0, 0x1000⟩

/-- LPT_EVT_EN (R159). -/
def R.LPT_EVT_EN : Reg := ⟨0x100018, 0x0, 0x1000⟩

/-- LPT_STATION_ADDR (R159). -/
def R.LPT_STATION_ADDR : Reg := ⟨0x100030, 0x0, 0x1000⟩

/-- MOD_BYP_CTRL (R101). -/
def R.MOD_BYP_CTRL : Reg := ⟨0x60040, 0x0, 0x0⟩

/-- MOD_CMD_TICK (R101). -/
def R.MOD_CMD_TICK : Reg := ⟨0x60008, 0x0, 0x0⟩

/-- MOD_RSQ (R101). -/
def R.MOD_RSQ : Reg := ⟨0x60054, 0x0, 0x0⟩

/-- MOD_SAFE (R101). -/
def R.MOD_SAFE : Reg := ⟨0x60050, 0x0, 0x0⟩

/-- MOD_STATUS (R101). -/
def R.MOD_STATUS : Reg := ⟨0x60000, 0x0, 0x0⟩

/-- MOD_THERM_STATUS (R543). -/
def R.MOD_THERM_STATUS : Reg := ⟨0x60144, 0x0, 0x0⟩

/-- MOD_THERM_TEMP (R543). -/
def R.MOD_THERM_TEMP : Reg := ⟨0x60100, 0x0, 0x4⟩

/-- MOD_TRANS_TICK (R101). -/
def R.MOD_TRANS_TICK : Reg := ⟨0x60088, 0x0, 0x0⟩

/-- MOD_WAKE_TICK (R101). -/
def R.MOD_WAKE_TICK : Reg := ⟨0x60028, 0x0, 0x0⟩

/-- OTN_PC_CNT (R178). -/
def R.OTN_PC_CNT : Reg := ⟨0x200a00, 0x4000, 0x20⟩

/-- OTN_PM_DATA (R178). -/
def R.OTN_PM_DATA : Reg := ⟨0x200910, 0x0, 0x4000⟩

/-- OTN_PM_SEL (R178). -/
def R.OTN_PM_SEL : Reg := ⟨0x200900, 0x0, 0x4000⟩

/-- OTN_TTI (R178). -/
def R.OTN_TTI : Reg := ⟨0x201000, 0x4000, 0x100⟩

/-- PAT_ACCT (R273). -/
def R.PAT_ACCT : Reg := ⟨0x680100, 0x0, 0x40⟩

/-- PAT_CNT (R273). -/
def R.PAT_CNT : Reg := ⟨0x680800, 0x0, 0x40⟩

/-- PAT_CTRL (R273). -/
def R.PAT_CTRL : Reg := ⟨0x680000, 0x0, 0x0⟩

/-- PAT_STAGE_BASE (R273). -/
def R.PAT_STAGE_BASE : Reg := ⟨0x680018, 0x0, 0x0⟩

/-- PAT_SWAP_TICK (R273). -/
def R.PAT_SWAP_TICK : Reg := ⟨0x680010, 0x0, 0x0⟩

/-- PMC_CTRL (R461). -/
def R.PMC_CTRL : Reg := ⟨0x3900000, 0x0, 0x10000⟩

/-- PMC_SAMPLE_AT (R461). -/
def R.PMC_SAMPLE_AT : Reg := ⟨0x3900200, 0x10000, 0x8⟩

/-- PMC_SEL (R461). -/
def R.PMC_SEL : Reg := ⟨0x3900100, 0x10000, 0x4⟩

/-- PMC_SFIFO (R457). -/
def R.PMC_SFIFO : Reg := ⟨0x3900800, 0x0, 0x10000⟩

/-- PMC_TICK (R461). -/
def R.PMC_TICK : Reg := ⟨0x3900008, 0x0, 0x10000⟩

/-- PMC_UVIEW (R458). -/
def R.PMC_UVIEW : Reg := ⟨0x3980000, 0x0, 0x8⟩

/-- PMC_VAL (R461). -/
def R.PMC_VAL : Reg := ⟨0x3900400, 0x10000, 0x8⟩

/-- PRS_CNT (R205). -/
def R.PRS_CNT : Reg := ⟨0x400200, 0x0, 0x8⟩

/-- QUE_CNT (R382). -/
def R.QUE_CNT : Reg := ⟨0xd00100, 0x0, 0x0⟩

/-- QUE_EVT (R382). -/
def R.QUE_EVT : Reg := ⟨0xd00040, 0x0, 0x0⟩

/-- QUE_EVT_EN (R382). -/
def R.QUE_EVT_EN : Reg := ⟨0xd00044, 0x0, 0x0⟩

/-- QUE_IND_CMD (R382). -/
def R.QUE_IND_CMD : Reg := ⟨0xd00000, 0x0, 0x0⟩

/-- QUE_IND_DATA (R382). -/
def R.QUE_IND_DATA : Reg := ⟨0xd00010, 0x0, 0x4⟩

/-- SCH_IND_CMD (R382). -/
def R.SCH_IND_CMD : Reg := ⟨0x1000000, 0x0, 0x0⟩

/-- SCH_IND_DATA (R382). -/
def R.SCH_IND_DATA : Reg := ⟨0x1000010, 0x0, 0x4⟩

/-- SHP_IND_CMD (R412). -/
def R.SHP_IND_CMD : Reg := ⟨0x2000000, 0x0, 0x0⟩

/-- SHP_IND_DATA (R412). -/
def R.SHP_IND_DATA : Reg := ⟨0x2000010, 0x0, 0x4⟩

/-- SHP_SOJ_DATA (R412). -/
def R.SHP_SOJ_DATA : Reg := ⟨0x2000058, 0x0, 0x4⟩

/-- SHP_SOJ_SEL (R412). -/
def R.SHP_SOJ_SEL : Reg := ⟨0x2000054, 0x0, 0x0⟩

/-- SVY_BW (R461). -/
def R.SVY_BW : Reg := ⟨0x3502000, 0x0, 0x40⟩

/-- SVY_CNT (R461). -/
def R.SVY_CNT : Reg := ⟨0x350a000, 0x0, 0x0⟩

/-- SVY_EVT (R458). -/
def R.SVY_EVT : Reg := ⟨0x3500010, 0x0, 0x0⟩

/-- SVY_EVT_EN (R458). -/
def R.SVY_EVT_EN : Reg := ⟨0x3500014, 0x0, 0x0⟩

/-- SVY_IND_CMD (R458). -/
def R.SVY_IND_CMD : Reg := ⟨0x3500040, 0x0, 0x0⟩

/-- SVY_IND_DATA (R458). -/
def R.SVY_IND_DATA : Reg := ⟨0x3500080, 0x0, 0x4⟩

/-- SVY_MIRROR_CNT (R461). -/
def R.SVY_MIRROR_CNT : Reg := ⟨0x3509000, 0x0, 0x10⟩

/-- SVY_RING_BASE (R458). -/
def R.SVY_RING_BASE : Reg := ⟨0x3500020, 0x0, 0x0⟩

/-- TBL_BASE (R251). -/
def R.TBL_BASE : Reg := ⟨0x50a100, 0x0, 0x8⟩

/-- TBL_CNT (R251). -/
def R.TBL_CNT : Reg := ⟨0x50b000, 0x0, 0x80⟩

/-- TBL_COMMIT_TICK (R251). -/
def R.TBL_COMMIT_TICK : Reg := ⟨0x50a018, 0x0, 0x0⟩

/-- TBL_KEYX (R251). -/
def R.TBL_KEYX : Reg := ⟨0x500100, 0x0, 0x10⟩

/-- TBL_MISS (R251). -/
def R.TBL_MISS : Reg := ⟨0x500500, 0x0, 0x8⟩

/-- TBL_SMAC (R251). -/
def R.TBL_SMAC : Reg := ⟨0x502000, 0x0, 0x8⟩

/-- TSI_ACT (R178). -/
def R.TSI_ACT : Reg := ⟨0x320000, 0x0, 0x4⟩

/-- TSI_CTRL (R178). -/
def R.TSI_CTRL : Reg := ⟨0x300000, 0x0, 0x0⟩

/-- TSI_STBY (R178). -/
def R.TSI_STBY : Reg := ⟨0x310000, 0x0, 0x4⟩

/-- TSI_SW_DONE_TICK (R178). -/
def R.TSI_SW_DONE_TICK : Reg := ⟨0x300010, 0x0, 0x0⟩

/-- TSI_SW_TICK (R178). -/
def R.TSI_SW_TICK : Reg := ⟨0x300008, 0x0, 0x0⟩

/-- WRS_ADJ_FREQ (R73). -/
def R.WRS_ADJ_FREQ : Reg := ⟨0x40034, 0x0, 0x0⟩

/-- WRS_ADJ_PHASE (R73). -/
def R.WRS_ADJ_PHASE : Reg := ⟨0x40038, 0x0, 0x0⟩

/-- WRS_PPS_IN_STAMP (R36). -/
def R.WRS_PPS_IN_STAMP : Reg := ⟨0x40050, 0x0, 0x10⟩

/-- WRS_SET_CTRL (R73). -/
def R.WRS_SET_CTRL : Reg := ⟨0x40030, 0x0, 0x0⟩

/-- WRS_STATUS (R73). -/
def R.WRS_STATUS : Reg := ⟨0x40004, 0x0, 0x0⟩

/-- WRS_TIME (R73). -/
def R.WRS_TIME : Reg := ⟨0x40010, 0x0, 0x0⟩

/-- WRS_TSF (R73). -/
def R.WRS_TSF : Reg := ⟨0x400a0, 0x0, 0x0⟩

/-- SCH_EPORT.BAND (R382). -/
def F.SCH_EPORT_BAND : Fld := ⟨0x1001000, 0x0, 0x20, 2, 0⟩

/-- SCH_EPORT.WEIGHT (R382). -/
def F.SCH_EPORT_WEIGHT : Fld := ⟨0x1001000, 0x0, 0x20, 31, 16⟩

/-- SCH_EQ_DEPTH.CELLS (R382). -/
def F.SCH_EQ_DEPTH_CELLS : Fld := ⟨0x1008000, 0x0, 0x4, 18, 0⟩

/-- SCH_IND_CMD.OP (R382). -/
def F.SCH_IND_CMD_OP : Fld := ⟨0x1000000, 0x0, 0x0, 2, 0⟩

/-- SCH_IND_STATUS.BUSY (R519). -/
def F.SCH_IND_STATUS_BUSY : Fld := ⟨0x1000004, 0x0, 0x0, 0, 0⟩

/-- SCH_IND_STATUS.DONE (R519). -/
def F.SCH_IND_STATUS_DONE : Fld := ⟨0x1000004, 0x0, 0x0, 1, 1⟩

/-- SCH_IND_STATUS.ERR (R519). -/
def F.SCH_IND_STATUS_ERR : Fld := ⟨0x1000004, 0x0, 0x0, 5, 3⟩

/-- SCH_IND_STATUS.WR_IGNORED (R519). -/
def F.SCH_IND_STATUS_WR_IGNORED : Fld := ⟨0x1000004, 0x0, 0x0, 2, 2⟩

/-- SCH_TOPO.STANDALONE (R382). -/
def F.SCH_TOPO_STANDALONE : Fld := ⟨0x1000040, 0x0, 0x0, 0, 0⟩

/-- SHP_IND_CMD.OP (R412). -/
def F.SHP_IND_CMD_OP : Fld := ⟨0x2000000, 0x0, 0x0, 1, 0⟩

/-- SHP_IND_STATUS.BUSY (R412). -/
def F.SHP_IND_STATUS_BUSY : Fld := ⟨0x2000004, 0x0, 0x0, 0, 0⟩

/-- SHP_IND_STATUS.DONE (R412). -/
def F.SHP_IND_STATUS_DONE : Fld := ⟨0x2000004, 0x0, 0x0, 1, 1⟩

/-- SHP_IND_STATUS.ERR (R412). -/
def F.SHP_IND_STATUS_ERR : Fld := ⟨0x2000004, 0x0, 0x0, 5, 3⟩

/-- SHP_IND_STATUS.WR_IGNORED (R412). -/
def F.SHP_IND_STATUS_WR_IGNORED : Fld := ⟨0x2000004, 0x0, 0x0, 2, 2⟩

/-- SHP_SOJ_CFG.WINDOW (R412). -/
def F.SHP_SOJ_CFG_WINDOW : Fld := ⟨0x2000050, 0x0, 0x0, 15, 0⟩

/-- SHP_SWEEP.BACKLOG (R412). -/
def F.SHP_SWEEP_BACKLOG : Fld := ⟨0x2000040, 0x0, 0x0, 19, 0⟩

/-- SVY_BW_CFG.K (R458). -/
def F.SVY_BW_CFG_K : Fld := ⟨0x3500008, 0x0, 0x0, 15, 0⟩

/-- SVY_CNT_CFG.COR (R458). -/
def F.SVY_CNT_CFG_COR : Fld := ⟨0x3500000, 0x0, 0x0, 0, 0⟩

/-- SVY_DUMP_SET.CLASS (R460). -/
def F.SVY_DUMP_SET_CLASS : Fld := ⟨0x3500200, 0x0, 0x10, 23, 16⟩

/-- SVY_DUMP_SET.COUNT (R460). -/
def F.SVY_DUMP_SET_COUNT : Fld := ⟨0x3500208, 0x0, 0x10, 19, 0⟩

/-- SVY_DUMP_SET.DUMP_ERR (R460). -/
def F.SVY_DUMP_SET_DUMP_ERR : Fld := ⟨0x3500200, 0x0, 0x10, 30, 30⟩

/-- SVY_DUMP_SET.EN (R460). -/
def F.SVY_DUMP_SET_EN : Fld := ⟨0x3500200, 0x0, 0x10, 31, 31⟩

/-- SVY_DUMP_SET.FIRST (R460). -/
def F.SVY_DUMP_SET_FIRST : Fld := ⟨0x3500204, 0x0, 0x10, 19, 0⟩

/-- SVY_DUMP_SET.PERIOD (R460). -/
def F.SVY_DUMP_SET_PERIOD : Fld := ⟨0x350020c, 0x0, 0x10, 31, 0⟩

/-- SVY_EVT.DUMP_LATE (R458). -/
def F.SVY_EVT_DUMP_LATE : Fld := ⟨0x3500010, 0x0, 0x0, 0, 0⟩

/-- SVY_EVT.MIRROR_DROP (R458). -/
def F.SVY_EVT_MIRROR_DROP : Fld := ⟨0x3500010, 0x0, 0x0, 3, 3⟩

/-- SVY_EVT.NEG_LATENCY (R458). -/
def F.SVY_EVT_NEG_LATENCY : Fld := ⟨0x3500010, 0x0, 0x0, 4, 4⟩

/-- SVY_EVT.REPORT_LATE (R458). -/
def F.SVY_EVT_REPORT_LATE : Fld := ⟨0x3500010, 0x0, 0x0, 1, 1⟩

/-- SVY_EVT.RING_FULL (R458). -/
def F.SVY_EVT_RING_FULL : Fld := ⟨0x3500010, 0x0, 0x0, 2, 2⟩

/-- SVY_IND_CMD.OP (R458). -/
def F.SVY_IND_CMD_OP : Fld := ⟨0x3500040, 0x0, 0x0, 2, 0⟩

/-- SVY_IND_STATUS.BUSY (R519). -/
def F.SVY_IND_STATUS_BUSY : Fld := ⟨0x3500044, 0x0, 0x0, 0, 0⟩

/-- SVY_IND_STATUS.DONE (R519). -/
def F.SVY_IND_STATUS_DONE : Fld := ⟨0x3500044, 0x0, 0x0, 1, 1⟩

/-- SVY_IND_STATUS.ERR (R519). -/
def F.SVY_IND_STATUS_ERR : Fld := ⟨0x3500044, 0x0, 0x0, 5, 3⟩

/-- SVY_IND_STATUS.WR_IGNORED (R519). -/
def F.SVY_IND_STATUS_WR_IGNORED : Fld := ⟨0x3500044, 0x0, 0x0, 2, 2⟩

/-- SVY_MIRROR.ADJ (R461). -/
def F.SVY_MIRROR_ADJ : Fld := ⟨0x3500408, 0x0, 0x10, 19, 0⟩

/-- SVY_MIRROR.EN (R461). -/
def F.SVY_MIRROR_EN : Fld := ⟨0x3500400, 0x0, 0x10, 31, 31⟩

/-- SVY_MIRROR.POINT (R461). -/
def F.SVY_MIRROR_POINT : Fld := ⟨0x3500400, 0x0, 0x10, 30, 30⟩

/-- SVY_MIRROR.PORT (R461). -/
def F.SVY_MIRROR_PORT : Fld := ⟨0x350040c, 0x0, 0x10, 8, 0⟩

/-- SVY_MIRROR.QUEUE (R461). -/
def F.SVY_MIRROR_QUEUE : Fld := ⟨0x3500404, 0x0, 0x10, 17, 0⟩

/-- SVY_MIRROR.SAMPLE (R461). -/
def F.SVY_MIRROR_SAMPLE : Fld := ⟨0x3500400, 0x0, 0x10, 15, 0⟩

/-- SVY_MIRROR.TC (R461). -/
def F.SVY_MIRROR_TC : Fld := ⟨0x3500400, 0x0, 0x10, 29, 27⟩

/-- SVY_MIRROR.TRUNC (R461). -/
def F.SVY_MIRROR_TRUNC : Fld := ⟨0x350040c, 0x0, 0x10, 31, 24⟩

/-- SVY_PORT_MIRROR.EG_EN (R461). -/
def F.SVY_PORT_MIRROR_EG_EN : Fld := ⟨0x3501000, 0x0, 0x4, 7, 7⟩

/-- SVY_PORT_MIRROR.EG_SESSION (R461). -/
def F.SVY_PORT_MIRROR_EG_SESSION : Fld := ⟨0x3501000, 0x0, 0x4, 5, 0⟩

/-- SVY_PORT_MIRROR.IN_EN (R461). -/
def F.SVY_PORT_MIRROR_IN_EN : Fld := ⟨0x3501000, 0x0, 0x4, 15, 15⟩

/-- SVY_PORT_MIRROR.IN_SESSION (R461). -/
def F.SVY_PORT_MIRROR_IN_SESSION : Fld := ⟨0x3501000, 0x0, 0x4, 13, 8⟩

/-- SVY_RING_CFG.EN (R458). -/
def F.SVY_RING_CFG_EN : Fld := ⟨0x3500028, 0x0, 0x0, 31, 31⟩

/-- SVY_RING_CFG.LOG2_SIZE (R458). -/
def F.SVY_RING_CFG_LOG2_SIZE : Fld := ⟨0x3500028, 0x0, 0x0, 4, 0⟩

/-- SVY_RING_CONS.OFS (R458). -/
def F.SVY_RING_CONS_OFS : Fld := ⟨0x3500030, 0x0, 0x0, 29, 0⟩

/-- SVY_RING_PROD.OFS (R458). -/
def F.SVY_RING_PROD_OFS : Fld := ⟨0x350002c, 0x0, 0x0, 29, 0⟩

/-- SVY_WIN.TICKS (R458). -/
def F.SVY_WIN_TICKS : Fld := ⟨0x3500004, 0x0, 0x0, 15, 0⟩

/-- TBL_BW_CFG.ACT (R251). -/
def F.TBL_BW_CFG_ACT : Fld := ⟨0x50a004, 0x0, 0x0, 0, 0⟩

/-- TBL_BW_CFG.BURST (R251). -/
def F.TBL_BW_CFG_BURST : Fld := ⟨0x50a004, 0x0, 0x0, 15, 8⟩

/-- TBL_COMMIT_STATUS.GEN (R251). -/
def F.TBL_COMMIT_STATUS_GEN : Fld := ⟨0x50a010, 0x0, 0x0, 15, 0⟩

/-- TBL_COMMIT_STATUS.QUEUED (R251). -/
def F.TBL_COMMIT_STATUS_QUEUED : Fld := ⟨0x50a010, 0x0, 0x0, 23, 20⟩

/-- TBL_COMMIT_STATUS.STAGING (R251). -/
def F.TBL_COMMIT_STATUS_STAGING : Fld := ⟨0x50a010, 0x0, 0x0, 19, 19⟩

/-- TBL_DRAIN_CFG.HOLDOFF (R251). -/
def F.TBL_DRAIN_CFG_HOLDOFF : Fld := ⟨0x50a008, 0x0, 0x0, 15, 0⟩

/-- TBL_ECMP_SEED.SEED (R251). -/
def F.TBL_ECMP_SEED_SEED : Fld := ⟨0x50a000, 0x0, 0x0, 31, 0⟩

/-- TBL_EM_CFG.BASE (R251). -/
def F.TBL_EM_CFG_BASE : Fld := ⟨0x500800, 0x0, 0x10, 23, 0⟩

/-- TBL_EM_CFG.EN (R251). -/
def F.TBL_EM_CFG_EN : Fld := ⟨0x500800, 0x0, 0x10, 31, 31⟩

/-- TBL_EM_CFG.HIT_EN (R251). -/
def F.TBL_EM_CFG_HIT_EN : Fld := ⟨0x500800, 0x0, 0x10, 30, 30⟩

/-- TBL_EM_CFG.KEY_WIDTH (R251). -/
def F.TBL_EM_CFG_KEY_WIDTH : Fld := ⟨0x500808, 0x0, 0x10, 7, 0⟩

/-- TBL_EM_CFG.LOG2_SIZE (R251). -/
def F.TBL_EM_CFG_LOG2_SIZE : Fld := ⟨0x500800, 0x0, 0x10, 28, 24⟩

/-- TBL_EM_CFG.PER_SLICE (R251). -/
def F.TBL_EM_CFG_PER_SLICE : Fld := ⟨0x500800, 0x0, 0x10, 29, 29⟩

/-- TBL_EM_CFG.SEED (R251). -/
def F.TBL_EM_CFG_SEED : Fld := ⟨0x500804, 0x0, 0x10, 31, 0⟩

/-- TBL_LEARN_STATUS.LEVEL (R251). -/
def F.TBL_LEARN_STATUS_LEVEL : Fld := ⟨0x50a200, 0x0, 0x4, 12, 0⟩

/-- TBL_PORT_CFG.VRF (R251). -/
def F.TBL_PORT_CFG_VRF : Fld := ⟨0x501000, 0x0, 0x4, 15, 0⟩

/-- TBL_PROF.EM (R251). -/
def F.TBL_PROF_EM : Fld := ⟨0x500000, 0x0, 0x10, 31, 0⟩

/-- TBL_PROF.KEYX (R251). -/
def F.TBL_PROF_KEYX : Fld := ⟨0x500004, 0x0, 0x10, 31, 0⟩

/-- TBL_PROF.LPM0 (R251). -/
def F.TBL_PROF_LPM0 : Fld := ⟨0x500008, 0x0, 0x10, 15, 0⟩

/-- TBL_PROF.LPM1 (R251). -/
def F.TBL_PROF_LPM1 : Fld := ⟨0x500008, 0x0, 0x10, 31, 16⟩

/-- TBL_PROF.RECIRC_EN (R251). -/
def F.TBL_PROF_RECIRC_EN : Fld := ⟨0x50000c, 0x0, 0x10, 31, 31⟩

/-- TBL_PROF.RECIRC_PROF (R251). -/
def F.TBL_PROF_RECIRC_PROF : Fld := ⟨0x50000c, 0x0, 0x10, 30, 27⟩

/-- TBL_PROF.TTL_CHECK (R251). -/
def F.TBL_PROF_TTL_CHECK : Fld := ⟨0x50000c, 0x0, 0x10, 26, 26⟩

/-- TSI_CTRL.GO (R178). -/
def F.TSI_CTRL_GO : Fld := ⟨0x300000, 0x0, 0x0, 0, 0⟩

/-- TSI_STATUS.DONE (R178). -/
def F.TSI_STATUS_DONE : Fld := ⟨0x300004, 0x0, 0x0, 1, 1⟩

/-- TSI_STATUS.ERR (R178). -/
def F.TSI_STATUS_ERR : Fld := ⟨0x300004, 0x0, 0x0, 18, 16⟩

/-- TSI_STATUS.ERR_IDX (R178). -/
def F.TSI_STATUS_ERR_IDX : Fld := ⟨0x300004, 0x0, 0x0, 31, 19⟩

/-- TSI_STATUS.PENDING (R178). -/
def F.TSI_STATUS_PENDING : Fld := ⟨0x300004, 0x0, 0x0, 0, 0⟩

/-- TSI_STATUS.TICK_LATE (R178). -/
def F.TSI_STATUS_TICK_LATE : Fld := ⟨0x300004, 0x0, 0x0, 3, 3⟩

/-- TSI_STATUS.WR_IGNORED (R178). -/
def F.TSI_STATUS_WR_IGNORED : Fld := ⟨0x300004, 0x0, 0x0, 2, 2⟩

/-- WRS_ADJ_FREQ.FREQ (R73). -/
def F.WRS_ADJ_FREQ_FREQ : Fld := ⟨0x40034, 0x0, 0x0, 31, 0⟩

/-- WRS_CAL.EN (R73). -/
def F.WRS_CAL_EN : Fld := ⟨0x40080, 0x0, 0x0, 31, 31⟩

/-- WRS_CAL.INTERVAL (R73). -/
def F.WRS_CAL_INTERVAL : Fld := ⟨0x40080, 0x0, 0x0, 15, 0⟩

/-- WRS_CAL_STATUS.LAST_LANE (R73). -/
def F.WRS_CAL_STATUS_LAST_LANE : Fld := ⟨0x40084, 0x0, 0x0, 7, 0⟩

/-- WRS_CAL_STATUS.PASSES (R73). -/
def F.WRS_CAL_STATUS_PASSES : Fld := ⟨0x40084, 0x0, 0x0, 31, 8⟩

/-- WRS_CAL.THRESH (R73). -/
def F.WRS_CAL_THRESH : Fld := ⟨0x40080, 0x0, 0x0, 30, 16⟩

/-- WRS_CLKOUT.CLK10M_EN (R73). -/
def F.WRS_CLKOUT_CLK10M_EN : Fld := ⟨0x40078, 0x0, 0x0, 8, 8⟩

/-- WRS_CLKOUT.SYNCE_SEL (R73). -/
def F.WRS_CLKOUT_SYNCE_SEL : Fld := ⟨0x40078, 0x0, 0x0, 7, 0⟩

/-- WRS_CTRL.DPLLA_FREF (R73). -/
def F.WRS_CTRL_DPLLA_FREF : Fld := ⟨0x40000, 0x0, 0x0, 9, 8⟩

/-- WRS_CTRL.DPLLA_PREF (R73). -/
def F.WRS_CTRL_DPLLA_PREF : Fld := ⟨0x40000, 0x0, 0x0, 11, 10⟩

/-- WRS_CTRL.DPLLB_REF (R73). -/
def F.WRS_CTRL_DPLLB_REF : Fld := ⟨0x40000, 0x0, 0x0, 7, 6⟩

/-- WRS_CTRL.PPS_FALLBACK (R73). -/
def F.WRS_CTRL_PPS_FALLBACK : Fld := ⟨0x40000, 0x0, 0x0, 1, 1⟩

/-- WRS_CTRL.STEP_EN (R73). -/
def F.WRS_CTRL_STEP_EN : Fld := ⟨0x40000, 0x0, 0x0, 0, 0⟩

/-- WRS_HOLDOVER.SECONDS (R73). -/
def F.WRS_HOLDOVER_SECONDS : Fld := ⟨0x40044, 0x0, 0x0, 31, 0⟩

/-- WRS_LANE.ASYM (R73). -/
def F.WRS_LANE_ASYM : Fld := ⟨0x41008, 0x0, 0x10, 31, 0⟩

/-- WRS_LANE.RXDLY (R73). -/
def F.WRS_LANE_RXDLY : Fld := ⟨0x41000, 0x0, 0x10, 31, 0⟩

/-- WRS_LANE.TRIM (R73). -/
def F.WRS_LANE_TRIM : Fld := ⟨0x4100c, 0x0, 0x10, 31, 0⟩

/-- WRS_LANE.TXDLY (R73). -/
def F.WRS_LANE_TXDLY : Fld := ⟨0x41004, 0x0, 0x10, 31, 0⟩

/-- WRS_PORT_LDLY.LDLY (R73). -/
def F.WRS_PORT_LDLY_LDLY : Fld := ⟨0x40800, 0x0, 0x4, 31, 0⟩

/-- WRS_PORT_PTP.MODE (R73). -/
def F.WRS_PORT_PTP_MODE : Fld := ⟨0x40400, 0x0, 0x4, 2, 0⟩

/-- WRS_PPS_OUT.EN (R73). -/
def F.WRS_PPS_OUT_EN : Fld := ⟨0x40070, 0x0, 0x4, 0, 0⟩

/-- WRS_PPS_OUT.OFFSET (R73). -/
def F.WRS_PPS_OUT_OFFSET : Fld := ⟨0x40070, 0x0, 0x4, 31, 16⟩

/-- WRS_PPS_OUT.WIDTH (R73). -/
def F.WRS_PPS_OUT_WIDTH : Fld := ⟨0x40070, 0x0, 0x4, 15, 2⟩

/-- WRS_RCLK.PORT (R73). -/
def F.WRS_RCLK_PORT : Fld := ⟨0x40008, 0x0, 0x0, 7, 0⟩

/-- WRS_SET_CTRL.AT_PPS (R73). -/
def F.WRS_SET_CTRL_AT_PPS : Fld := ⟨0x40030, 0x0, 0x0, 1, 1⟩

/-- WRS_SET_CTRL.GO (R73). -/
def F.WRS_SET_CTRL_GO : Fld := ⟨0x40030, 0x0, 0x0, 0, 0⟩

/-- WRS_SLEW.RATE (R73). -/
def F.WRS_SLEW_RATE : Fld := ⟨0x40040, 0x0, 0x0, 15, 0⟩

/-- WRS_SLEW.WINDOW (R73). -/
def F.WRS_SLEW_WINDOW : Fld := ⟨0x40040, 0x0, 0x0, 31, 16⟩

/-- WRS_STATUS.ADJ_CLAMP (R73). -/
def F.WRS_STATUS_ADJ_CLAMP : Fld := ⟨0x40004, 0x0, 0x0, 17, 17⟩

/-- WRS_STATUS.ADJ_REJECT (R73). -/
def F.WRS_STATUS_ADJ_REJECT : Fld := ⟨0x40004, 0x0, 0x0, 18, 18⟩

/-- WRS_STATUS.DPLLA_STATE (R73). -/
def F.WRS_STATUS_DPLLA_STATE : Fld := ⟨0x40004, 0x0, 0x0, 14, 12⟩

/-- WRS_STATUS.DPLLB_STATE (R73). -/
def F.WRS_STATUS_DPLLB_STATE : Fld := ⟨0x40004, 0x0, 0x0, 11, 9⟩

/-- WRS_STATUS.REF_OK (R73). -/
def F.WRS_STATUS_REF_OK : Fld := ⟨0x40004, 0x0, 0x0, 4, 0⟩

/-- WRS_STATUS.SET_ERR (R73). -/
def F.WRS_STATUS_SET_ERR : Fld := ⟨0x40004, 0x0, 0x0, 19, 19⟩

/-- WRS_STATUS.SLEWING (R73). -/
def F.WRS_STATUS_SLEWING : Fld := ⟨0x40004, 0x0, 0x0, 16, 16⟩

/-- WRS_STATUS.TIME_SET (R73). -/
def F.WRS_STATUS_TIME_SET : Fld := ⟨0x40004, 0x0, 0x0, 15, 15⟩

/-- WRS_TIME_SET.FRACTION (R36). -/
def F.WRS_TIME_SET_FRACTION : Fld := ⟨0x40020, 0x0, 0x0, 15, 0⟩

/-- WRS_TIME_SET.NANOSECONDS (R36). -/
def F.WRS_TIME_SET_NANOSECONDS : Fld := ⟨0x40024, 0x0, 0x0, 31, 0⟩

/-- WRS_TIME_SET.SECONDS_HI (R36). -/
def F.WRS_TIME_SET_SECONDS_HI : Fld := ⟨0x4002c, 0x0, 0x0, 15, 0⟩

/-- WRS_TIME_SET.SECONDS_LO (R36). -/
def F.WRS_TIME_SET_SECONDS_LO : Fld := ⟨0x40028, 0x0, 0x0, 31, 0⟩

/-- WRS_TSF_STATUS.DROPPED (R73). -/
def F.WRS_TSF_STATUS_DROPPED : Fld := ⟨0x400b0, 0x0, 0x0, 31, 16⟩

/-- WRS_TSF_STATUS.LEVEL (R73). -/
def F.WRS_TSF_STATUS_LEVEL : Fld := ⟨0x400b0, 0x0, 0x0, 12, 0⟩

end Sys2Proof.Machine
end

