-- ==== Sys2Proof/Machine/Frame.lean ====
section
/-! DEFINITION. Bytes on the wire (R7): big-endian reads and writes within a frame, the Ethernet FCS, and little-endian
images of host-memory structures. -/

namespace Sys2Proof.Machine

/-- Byte `i` of a frame as a number; 0 beyond its end. -/
def byteN (l : Bytes) (i : Nat) : Nat := (l.getD i 0).toNat

/-- `n` bytes from offset `i` as a big-endian number (R7). -/
def beN (l : Bytes) (i : Nat) : Nat → Nat
  | 0 => 0
  | n + 1 => beN l i n * 256 + byteN l (i + n)

/-- `n` bytes from offset `i` as a little-endian number (R7). -/
def leN (l : Bytes) (i : Nat) : Nat → Nat
  | 0 => 0
  | n + 1 => byteN l (i + n) * 256 ^ n + leN l i n

/-- A number as `n` big-endian bytes. -/
def beB : Nat → Nat → Bytes
  | 0, _ => []
  | n + 1, v => BitVec.ofNat 8 (v / 256 ^ n) :: beB n v

/-- A number as `n` little-endian bytes. -/
def leB : Nat → Nat → Bytes
  | 0, _ => []
  | n + 1, v => BitVec.ofNat 8 v :: leB n (v / 256)

/-- `n` zero bytes. -/
def zeros (n : Nat) : Bytes := List.replicate n 0

/-- Replace the bytes at offset `i` by `new`, the length of `l` kept. -/
def splice (l : Bytes) (i : Nat) (new : Bytes) : Bytes :=
  (l.take i ++ new ++ l.drop (i + new.length)).take (max l.length 0)

/-- The bytes [i, i + n). -/
def slice (l : Bytes) (i n : Nat) : Bytes := (l.drop i).take n

/-- Pad with zero bytes to a multiple of `m`. -/
def padTo (m : Nat) (l : Bytes) : Bytes := l ++ zeros ((m - l.length % m) % m)

/-- One bit of the CRC-32 of IEEE 802.3, reflected. -/
def crcBit (c : Nat) : Nat := if c % 2 = 1 then (c / 2) ^^^ 0xEDB88320 else c / 2

/-- One byte of the CRC-32. -/
def crcByte (c : Nat) (b : Byte) : Nat :=
  crcBit (crcBit (crcBit (crcBit (crcBit (crcBit (crcBit (crcBit (c ^^^ b.toNat))))))))

/-- The frame check sequence of the bytes before it. -/
def fcs (l : Bytes) : Nat := (l.foldl crcByte 0xFFFFFFFF) ^^^ 0xFFFFFFFF

/-- A frame with its FCS appended (least significant byte first on the wire, IEEE 802.3). -/
def withFcs (l : Bytes) : Bytes := l ++ leB 4 (fcs l)

/-- The FCS at the end of a frame is good. -/
def fcsGood (l : Bytes) : Bool := decide (leN l (l.length - 4) 4 = fcs (l.take (l.length - 4)))

/-- The ones'-complement 16-bit sum of a byte string, an odd last byte padded with zero (IPv4 and UDP checksums). -/
def onesSum : Bytes → Nat → Nat
  | [], acc => acc
  | [a], acc => let t := acc + a.toNat * 256; t % 65536 + t / 65536
  | a :: b :: l, acc => let t := acc + a.toNat * 256 + b.toNat; onesSum l (t % 65536 + t / 65536)

end Sys2Proof.Machine
end

