-- ==== Sys2Proof/Machine/NvmTab.lean ====
section
/-! DEFINITION. What NVM holds outside the image slots and the settings: the partition table (R114) and the boot control record
(R115) with their byte layouts (R113). -/

namespace Sys2Proof.Machine

/-- An entry of the partition table: ID, IMG_TYPE, SLOT, OFFSET, SIZE, ASCII name (R114). -/
def ptEntry (id typ slot off size : Nat) (name : List Nat) : Bytes :=
  leB 1 id ++ leB 1 typ ++ leB 1 slot ++ zeros 1 ++ leB 4 off ++ leB 4 size ++ zeros 4
    ++ name.map (BitVec.ofNat 8) ++ zeros (16 - name.length)

/-- The one partition table that is valid: MAGIC, VERSION, COUNT, CRC and the ten entries (R114). -/
def ptTable : Bytes :=
  leB 4 0x50544231 ++ leB 2 1 ++ leB 2 10 ++ zeros 4 ++ leB 4 0x3D7F2C16
  ++ ptEntry 0x01 0 0xFF 0x00002000 0x2000 [0x42, 0x43, 0x52]
  ++ ptEntry 0x02 1 0 0x00100000 0x100000 [0x44, 0x45, 0x4C, 0x52, 0x49, 0x5F, 0x41]
  ++ ptEntry 0x03 1 1 0x00200000 0x100000 [0x44, 0x45, 0x4C, 0x52, 0x49, 0x5F, 0x42]
  ++ ptEntry 0x04 2 0 0x01000000 0x2800000 [0x46, 0x57, 0x46, 0x5F, 0x41]
  ++ ptEntry 0x05 2 1 0x03800000 0x2800000 [0x46, 0x57, 0x46, 0x5F, 0x42]
  ++ ptEntry 0x06 3 0 0x06000000 0x1000000 [0x45, 0x4E, 0x47, 0x5F, 0x41]
  ++ ptEntry 0x07 3 1 0x07000000 0x1000000 [0x45, 0x4E, 0x47, 0x5F, 0x42]
  ++ ptEntry 0x08 4 0 0x08000000 0x1000000 [0x43, 0x46, 0x47, 0x5F, 0x41]
  ++ ptEntry 0x09 4 1 0x09000000 0x1000000 [0x43, 0x46, 0x47, 0x5F, 0x42]
  ++ ptEntry 0x0A 0 0xFF 0x0A000000 0x1000000 [0x53, 0x45, 0x54, 0x54, 0x49, 0x4E, 0x47, 0x53]
  ++ zeros 3760

/-- A copy of the partition table is valid: a table that differs is not (R114). -/
def ptValid (b : Bytes) : Bool := decide (b.length = 4096) && (b.zip ptTable).all (fun x => x.1 == x.2)

/-- A boot control record's entry of an image type (R115). -/
structure BcrType where
  active : Nat := 0
  state : Nat := 0
  armMode : Nat := 0
  starts : Nat := 0
  revert : Nat := 0
  deriving DecidableEq, Repr

/-- A boot control record: its generation, the entries of types 1–4, live settings half and flags (R115). -/
structure Bcr where
  gen : Nat := 0
  t1 : BcrType := {}
  t2 : BcrType := {}
  t3 : BcrType := {}
  t4 : BcrType := {}
  setLive : Nat := 0
  setFlags : Nat := 0
  deriving DecidableEq, Repr

/-- The eight bytes of an entry. -/
def bcrEntry (t : BcrType) : Bytes := leB 1 t.active ++ leB 1 t.state ++ leB 1 t.armMode ++ leB 1 t.starts ++ leB 1 t.revert ++ zeros 3

/-- Bytes 0x00–0x3B of a record. -/
def bcrBody (b : Bcr) : Bytes :=
  leB 4 0x42435231 ++ zeros 4 ++ leB 8 b.gen ++ bcrEntry b.t1 ++ bcrEntry b.t2 ++ bcrEntry b.t3 ++ bcrEntry b.t4
    ++ leB 1 b.setLive ++ leB 1 b.setFlags ++ zeros 10

/-- The 64 bytes of a record. -/
def bcrBytes (b : Bcr) : Bytes := withFcs (bcrBody b)

/-- The entry at an offset. -/
def bcrEntryAt (r : Bytes) (o : Nat) : BcrType := ⟨byteN r o, byteN r (o + 1), byteN r (o + 2), byteN r (o + 3), byteN r (o + 4)⟩

/-- The record a sector holds; none when its MAGIC or its CRC is wrong (R115). -/
def bcrRead (r : Bytes) : Option Bcr :=
  if decide (r.length = 64) && decide (leN r 0 4 = 0x42435231) && fcsGood r then
    some ⟨leN r 8 8, bcrEntryAt r 0x10, bcrEntryAt r 0x18, bcrEntryAt r 0x20, bcrEntryAt r 0x28, byteN r 0x30, byteN r 0x31⟩
  else none

/-- The record of a device with slot A of every type active and no update begun: its CRC is 0xEEAABB88 (log entry 1). -/
def bcrFirst : Bytes := leB 4 0x42435231 ++ zeros 56 ++ leB 4 0xEEAABB88

end Sys2Proof.Machine
end

