-- ==== Sys2Proof/Machine/SMap.lean ====
section
/-! DEFINITION. Sparse storage as plain data: a list of (key, value) pairs with strictly rising keys and no entry equal
to the value an unlisted key reads as, so that equal contents are equal lists. Every register file, memory and table of
the state is one of these. -/

namespace Sys2Proof.Machine

/-- A sparse map from natural-number keys. -/
abbrev SMap (V : Type) := List (Nat × V)

/-- The value at key `k`; `d` gives what an unlisted key reads as. -/
def mget {V : Type} (d : Nat → V) : SMap V → Nat → V
  | [], k => d k
  | (a, v) :: m, k => if a = k then v else mget d m k

/-- Remove key `k`. -/
def merase {V : Type} (m : SMap V) (k : Nat) : SMap V := m.filter (fun e => e.1 != k)

/-- Put `v` at key `k`, keys kept rising. -/
def mput {V : Type} : SMap V → Nat → V → SMap V
  | [], k, v => [(k, v)]
  | (a, w) :: m, k, v =>
    if k < a then (k, v) :: (a, w) :: m
    else if a = k then (k, v) :: m
    else (a, w) :: mput m k v

/-- Write `v` at key `k`: a value equal to the default leaves no entry. -/
def mset {V : Type} [DecidableEq V] (d : Nat → V) (m : SMap V) (k : Nat) (v : V) : SMap V :=
  if v = d k then merase m k else mput m k v

/-- Keys rise strictly, all above `b` where a bound is given. -/
def mrising {V : Type} : Option Nat → SMap V → Bool
  | _, [] => true
  | b, (a, _) :: m => (match b with | none => true | some x => decide (x < a)) && mrising (some a) m

/-- No entry equals its default. -/
def mproper {V : Type} [DecidableEq V] (d : Nat → V) : SMap V → Bool
  | [] => true
  | (a, v) :: m => decide (v ≠ d a) && mproper d m

/-- The canonical form. -/
def mwf {V : Type} [DecidableEq V] (d : Nat → V) (m : SMap V) : Bool := mrising none m && mproper d m

/-- Update the value at key `k` by `f`. -/
def mupd {V : Type} [DecidableEq V] (d : Nat → V) (m : SMap V) (k : Nat) (f : V → V) : SMap V :=
  mset d m k (f (mget d m k))

/-- Remove every key in `[lo, hi)`. -/
def mclear {V : Type} (m : SMap V) (lo hi : Nat) : SMap V :=
  m.filter (fun e => decide (e.1 < lo ∨ hi ≤ e.1))

end Sys2Proof.Machine
end

