-- ==== Sys2Proof/Machine/State.lean ====
section
/-! DEFINITION. The state of the block as plain data, its faults and refusals, and reset. -/

namespace Sys2Proof.Machine

/-! ### Time, events, messages -/

/-- Windrose and Cadence beyond their registers. `now`: Windrose time; `up`: elapsed nanoseconds, `rem` what Windrose time has
gained since the last whole one; `clk`: what the time clock has counted, and `pre` its count and Windrose time just before the last step;
`slewLeft`: the correction not yet applied; offsets in 10⁻¹³ of DPLL A by the servo or its loop, of DPLL B's reference, of CLK10M_IN,
those kept in HOLDOVER, and the offsets applied with the elapsed time each began; the PPS fallback; when each DPLL locked; when
HOLDOVER began; the next tick; results of calibration waiting for it, and when the last came; per PPS input its last edge; per
reference since when it is present. -/
structure TimeBase where
  now : Nat := 0
  up : Nat := 0
  rem : Nat := 0
  clk : Nat := 0
  pre : Option (Nat × Nat) := none
  slewLeft : Int := 0
  freqA : Int := 0
  freqB : Int := 0
  freqC : Int := 0
  holdA : Int := 0
  holdB : Int := 0
  histA : List (Nat × Int) := []
  histB : List (Nat × Int) := []
  fellBack : Bool := false
  lockAtA : Nat := 0
  lockAtB : Nat := 0
  holdAt : Nat := 0
  nextTick : Nat := 0
  calNext : List LaneCal := []
  calAt : Nat := 0
  ppsAt : SMap (Option Nat) := []
  seenAt : SMap (Option Nat) := []
  deriving DecidableEq, Repr

/-- An entry of the two-step FIFO (R53). -/
structure TsfEntry where
  domain : Nat
  port : Nat
  msg : Nat
  seq : Nat
  stamp : Nat
  deriving DecidableEq, Repr

/-- A digest record not yet written (R487, R488): intervals covered, the last of them, RAISED, PENDING and the word of bytes
20–23 at its end. -/
structure DigPend where
  count : Nat
  last : Nat
  bits : Nat
  pend : Nat
  info : Nat
  deriving DecidableEq, Repr

/-- Event bookkeeping (R483, R486–R488): sources raised in the interval in progress, for the digest and for the event frame;
those of the closed intervals since the last event frame and their number; the interval in progress, once a tick was issued,
and the last one closed; per vector when it last sent and which wait; the digest record not yet written and the next SEQ; when
the last event frame went. -/
structure EvState where
  raised : Nat := 0
  tmCur : Nat := 0
  tmRaised : Nat := 0
  tmCount : Nat := 0
  open_ : Option Nat := none
  closed : Nat := 0
  lastMsg : SMap (Option Nat) := []
  deferred : List Nat := []
  digPend : Option DigPend := none
  digSeq : Nat := 0
  tmAt : Option Nat := none
  deriving DecidableEq, Repr

/-- PCI Express function state (R463, R486). -/
structure PcieState where
  msixEn : Bool := false
  funcMask : Bool := false
  d3hot : Bool := false
  deriving DecidableEq, Repr

/-! ### Ports -/

/-- A pause timer (R153), times in 2⁻¹⁶ ns. -/
structure PauseTimer where
  port : Nat
  pri : Nat
  start : Nat
  stop : Nat
  deriving DecidableEq, Repr

/-- Timers of one bypass (R96). -/
structure BypTimers where
  since : Nat := 0
  loopUp : Option Nat := none
  hold : Option Nat := none
  deriving DecidableEq, Repr

/-- A frame chosen for transmission (R396): its class and P in 2⁻¹⁶ ns. -/
structure Planned where
  cls : Nat
  start : Nat
  deriving DecidableEq, Repr

/-- Start attempt of a port (R150). -/
inductive Attempt where
  | idle | running | waiting
  deriving DecidableEq, Repr

/-- A line or tether port beyond its registers. `planned`: frames chosen and not started, in order; those of a class are the first
of its egress queue. `wire`, `wireLen`, `wirePfc`: when the last frame begun ends on the wire (2⁻¹⁶ ns), its length, whether it is a
PFC frame; `pfcAt`: when the last PFC frame was sent; `direct`: frames of the control cores and the lull path that wait for the port,
without their FCS, marked where PTP is applied; `adapt`: the adaptation values the lanes run with (R151). -/
structure PortSt where
  fall : Option Nat := none
  rise : Option Nat := none
  holdUs : Nat := 0
  planned : List Planned := []
  wire : Nat := 0
  wireLen : Nat := 0
  wirePfc : Bool := false
  pfcAt : Nat := 0
  adapt : Option DWord := none
  direct : List (Bool × Bytes) := []
  att : Attempt := .idle
  attAt : Nat := 0
  txOn : Bool := false
  downAt : Option Nat := none
  upAt : Option Nat := none
  pfcDue : Nat := 0
  pfcRel : Nat := 0
  xoff : Nat := 0
  lastClose : List (Option Nat) := []
  deriving DecidableEq, Repr

/-! ### OTN -/

/-- Alignment of an interface whose framer runs (R163, R164): instances with alignment-marker lock, slices whose FAS is offset from
slice 1, instances in dLOFLOM, the locks, when in-frame and in-multiframe last changed, and whether a defect or BDI stood in the
second in progress. -/
structure OtnIf where
  run : Bool := false
  am : Nat := 0
  skew : Nat := 0
  lof : Nat := 0
  lol : Bool := false
  fas : Bool := false
  mfas : Bool := false
  fasAt : Nat := 0
  mfasAt : Nat := 0
  seen : Bool := false
  farSeen : Bool := false
  deriving DecidableEq, Repr

/-- A packet channel's PM conditions (R167). -/
structure OtnPc where
  tim : Bool := false
  maint : Bool := false
  seen : Bool := false
  deriving DecidableEq, Repr

/-- A performance bin (R169). -/
structure PmBin where
  start : Nat := 0
  adjusted : Bool := false
  suspect : Bool := false
  valid : Bool := false
  cnt : List Nat := [0, 0, 0, 0, 0, 0, 0, 0]
  deriving DecidableEq, Repr

/-- An evaluated second, and how many 15-minute and day roll-overs came after it (R170). -/
structure PmSec where
  bbe : Nat
  es : Bool
  ses : Bool
  age : Nat := 0
  dayAge : Nat := 0
  deriving DecidableEq, Repr

/-- One end's unavailability state (R170). -/
structure PmEnd where
  una : Bool := false
  hist : List PmSec := []
  deriving DecidableEq, Repr

/-- Bins of an entity (R169). -/
structure PmEnt where
  cur : PmBin := {}
  day : PmBin := {}
  prev : PmBin := {}
  recent : List PmBin := []
  ne : PmEnd := {}
  fe : PmEnd := {}
  deriving DecidableEq, Repr

/-- A TSI switch in progress (R177). -/
structure TsiState where
  tick : Nat := 0
  left : List Nat := []
  deriving DecidableEq, Repr

/-- Content of a destination slot (R175). -/
inductive TsiContent where
  | unequipped | ais | slot (src tpn : Nat)
  deriving DecidableEq, Repr

/-! ### Packets, classification, tables -/

/-- A recorded header (R179). -/
structure Hdr where
  kind : Nat
  off : Nat
  len : Nat
  deriving DecidableEq, Repr

/-- A packet in the pipeline; on egress `plan` is the instant planned for its first bit, `entry` that of its entry into the
egress buffer, `copy` marks a mirror copy. -/
structure Pkt where
  bytes : Bytes := []
  badFcs : Bool := false
  port : Nat := 0
  slice : Nat := 0
  stamp : Nat := 0
  stamped : Bool := false
  lane : Nat := 0
  hdrs : List Hdr := []
  faults : Nat := 0
  tc : Nat := 0
  colour : Nat := 0
  qmode : Bool := false
  queue : Nat := 0
  stream : Option Nat := none
  gal : Bool := false
  lkpProf : Nat := 0
  decision : Nat := 0
  nh : Option Nat := none
  adj : Nat := 0
  nhUser : Nat := 0
  look : List Nat := []
  look1 : List Nat := []
  recirc : Bool := false
  egrPort : Nat := 0
  echo : Option Nat := none
  plan : Nat := 0
  entry : Nat := 0
  copy : Bool := false
  deriving DecidableEq, Repr

/-- A frame in an egress queue: its cells, the stamp of its entry (2⁻¹⁶ ns), the source device of a fabric packet, whether
it is whole or cut by a gap (R429), whether it is sent as it stands (mirror copy, injected), the adjacency of a mirror
session, whether its port has chosen it, so that its class and shaper have been charged for it, and its cells of pool 1 in the order
of their links (R338). -/
structure EgrFrame where
  cells : Nat
  p : Pkt := {}
  entry : Nat := 0
  src : Option Nat := none
  whole : Bool := true
  cut : Bool := false
  plain : Bool := false
  adjOver : Option Nat := none
  chosen : Bool := false
  chain : List Nat := []
  deriving DecidableEq, Repr

/-- Egress scheduling of a port (R378, R396): when it finishes the frames planned, virtual time by level, per class the
finish tag, the tag last served and the level joined, frames back from their gallery waiting at the MAC. -/
structure EgPort where
  busy : Nat := 0
  v : SMap Nat := []
  tags : SMap (Nat × Nat × Option Nat) := []
  mac : List Pkt := []
  deriving DecidableEq, Repr

/-- A rule-table entry (R194–R196). -/
structure ClsEnt where
  key : Nat := 0
  mask : Nat := 0
  action : Nat := 0
  valid : Bool := false
  deriving DecidableEq, Repr

/-- An ACL entry (R254). -/
structure AclEnt where
  key : Nat := 0
  mask : Nat := 0
  prio : Nat := 0
  action : Nat := 0
  valid : Bool := false
  deriving DecidableEq, Repr

/-- The ACL search units: entries and hit counters at slice × 16,384 + index, the rows queued for repair, and the scrub
row of each slice (R254–R262). -/
structure AclState where
  ents : SMap AclEnt := []
  hits : SMap Nat := []
  repair : List Nat := []
  row : SMap Nat := []
  deriving DecidableEq, Repr

/-- Punt policers (R204). -/
structure PuntState where
  tokens : SMap Nat := []
  last : Nat := 0
  dropSeen : List Nat := []
  deriving DecidableEq, Repr

/-- An LPM route (R219, R241): the bucket and first slot that hold it; `del`: a second generation that deletes it while its own is
pending (log entry 133); `copy`: a covering route copied into a bucket whose pivot's fallback cannot express it. -/
structure Route where
  vrf : Nat
  af : Nat
  addr : Nat
  len : Nat
  fwd : Nat
  vis : Nat
  gen : Nat
  del : Option Nat := none
  copy : Bool := false
  place : Option (Nat × Nat) := none
  deriving DecidableEq, Repr

/-- A pivot and its SRAM word (R216): AF, VRF and the first `len` bits of the address; the bucket; the fallback before generation
`gen` and from it on. -/
structure Pivot where
  af : Nat
  vrf : Nat
  addr : Nat
  len : Nat
  bucket : Nat
  fb0 : Option Nat := none
  fb1 : Option Nat := none
  gen : Nat := 0
  deriving DecidableEq, Repr

/-- The slices' line caches, key slice × 2 + (0 pool, 1 buckets) (R228), and their read credits spent, with the time as of which
(R250). -/
structure LookState where
  lines : SMap (List Nat) := []
  spent : SMap (Nat × Nat) := []
  deriving DecidableEq, Repr

/-- A batch (R240, R242). -/
structure Batch where
  id : Nat
  aon : Bool
  hdr : CmdHdr
  ops : List BOp := []
  submitted : Bool := false
  commitAt : Nat := 0
  earliest : Nat := 0
  stageAt : Nat := 0
  writes : Nat := 0
  gen : Nat := 0
  staged : Bool := false
  failed : List (Nat × Nat) := []
  due : Option Nat := none
  deriving DecidableEq, Repr

/-- A single-entry write (R244). -/
structure Single where
  op : BOp
  gen : Nat
  acceptedAt : Nat
  stagedAt : Option Nat
  hdr : CmdHdr
  opcode : Nat
  answer : Bool
  due : Option Nat := none
  deriving DecidableEq, Repr

/-- What a write to tables 17–20 does (R234, R236). -/
inductive EntKind where
  | write | modify | delete
  deriving DecidableEq, Repr

/-- A write to tables 17–20 that waits for the interval after its acceptance (R244). -/
structure EntOp where
  kind : EntKind
  args : TblArgs
  hdr : CmdHdr
  opcode : Nat
  acceptedAt : Nat
  deriving DecidableEq, Repr

/-- The commit engine (R240–R244). -/
structure Commit where
  hist : List (Nat × Nat) := []
  pend : List Nat := []
  settle : List (Nat × Nat) := []
  batches : List Batch := []
  singles : List Single := []
  moves : Nat := 0
  walkAt : SMap Nat := []
  shadow : SMap (Option Nat) := []
  ents : List EntOp := []
  curs : SMap (Option Route) := []
  curNext : Nat := 0
  drainAt : SMap (Option Nat) := []
  deriving DecidableEq, Repr

/-- A learn notification (R246). -/
structure Learn where
  conflict : Bool
  move : Bool
  slice : Nat
  tbl : Nat
  port : Nat
  port2 : Nat
  count : Nat
  tick : Nat
  key : Nat
  deriving DecidableEq, Repr

/-- Learn queues by slice (R247), the slice served last (R249), the last flush left notifications queued, BW_DROP already raised
in this tick. -/
structure LearnState where
  queues : SMap (List Learn) := []
  spill : Bool := false
  turn : Nat := 7
  bwSeen : Bool := false
  deriving DecidableEq, Repr

/-- A response that waits for room in the response ring (R467, R477): bytes 0–15, its TICK unless it is the tick at which it is
written (R474), bytes 24–63. -/
structure RspWait where
  pre : Bytes
  tick : Option Nat
  post : Bytes
  deriving DecidableEq, Repr

/-- Rings beyond their registers (R469, R478, R480): when each shadow was last written and which wait, record numbers, the
inject ring served last, responses that wait. -/
structure RingState where
  shadowAt : SMap (Option Nat) := []
  shadowDue : List Nat := []
  seq : SMap Nat := []
  injTurn : Nat := 71
  rsp : List RspWait := []
  deriving DecidableEq, Repr

/-! ### Shapers, gates, streams -/

/-- A shaper or meter instance (R383, R409): rates, bursts, mode, its two buckets in 1/800,000 byte, and the refill count
they hold (R386). -/
structure Shp where
  cir : Nat := 0
  pir : Nat := 0
  cbs : Nat := 0
  pbs : Nat := 0
  adj : Nat := 0
  aware : Bool := false
  mode : Nat := 0
  en : Bool := false
  bc : Int := 9881600000
  bp : Int := 9881600000
  last : Nat := 0
  deriving DecidableEq, Repr

/-- The shaper unit (R386, R387): ticks that count for refill, the shapers below zero in the order they fell, and how many of
those due at the last tick are still to be refreshed. -/
structure ShpUnit where
  inst : SMap Shp := []
  refills : Nat := 0
  left : Nat := 0
  owed : Nat := 0
  neg : List Nat := []
  deriving DecidableEq, Repr

/-- A gate control list (R393): cycle in ns, number of entries, entries (interval, second word). -/
structure GList where
  cycle : Nat := 0
  len : Nat := 0
  ents : SMap (Nat × Nat) := []
  deriving DecidableEq, Repr

/-- A gate instance (R393–R398). `due`: the tick at which its pending switch takes effect; `copyDue`: the copy back is
still to come; `lastClose`: per gate the last open-to-closed transition of earlier lists, in 2⁻¹⁶ ns; `prev`: the operating
list before this one and its BASE, which governs what is stamped before `since` (R67). -/
structure GateInst where
  adm : GList := {}
  oper : GList := {}
  prev : Option (GList × Nat) := none
  swTick : Nat := 0
  active : Bool := false
  pending : Bool := false
  late : Bool := false
  base : Nat := 0
  since : Nat := 0
  due : Option Nat := none
  copyDue : Bool := false
  maxOpen : List Nat := []
  lastClose : List (Option Nat) := []
  deriving DecidableEq, Repr

/-- A stream context (R411). -/
structure Stm where
  w0 : Nat := 0
  w1 : Nat := 0
  oversize : Bool := false
  closed : Bool := false
  red : Bool := false
  takeAny : Bool := false
  recSeq : Nat := 0
  hist : Nat := 0
  lastPass : Nat := 0
  cnt : List Nat := [0, 0, 0, 0, 0, 0, 0, 0, 0, 0, 0]
  deriving DecidableEq, Repr

/-- A sojourn mark of a queue (R408): the window it belongs to, its mark and the mark of the window before. -/
structure Soj where
  win : Nat := 0
  cur : Nat := 0
  prev : Nat := 0
  deriving DecidableEq, Repr

/-- Sojourn marks: L0 queues, and egress queues at 2¹⁸ + 8 × port + class; the current window's number, first tick and
length, and the number of the window that ended where it begins. -/
structure SojState where
  marks : SMap Soj := []
  last : Option Nat := none
  win : Nat := 0
  start : Nat := 0
  len : Nat := 1000
  deriving DecidableEq, Repr

/-! ### Queues, scheduling, buffers, admission -/

/-- A packet in an L0 queue: the counter its cells are charged to (0 queue, 1 port, 2 class, 3 shared, 4 headroom), the class
and port of the charge, its cells, and the number of its buffer. -/
structure QPkt where
  p : Pkt
  cells : Nat
  charge : Nat
  cls : Nat
  buf : Nat
  mirror : Bool := false
  adjOver : Option Nat := none
  port : Nat := 0
  deriving DecidableEq, Repr

/-- One of the 16 levels of a node (R367): virtual time, members in order of joining, the front child is in its turn. -/
structure SLevel where
  v : Nat := 0
  mem : List Nat := []
  turn : Bool := false
  deriving DecidableEq, Repr

/-- A queue or node entry (R380, R381): its words 0–2, the level it has joined at its parent, its tags and deficit, its
discipline and levels, its counters. -/
structure SEnt where
  w0 : Nat := 0
  w1 : Nat := 0
  w2 : Nat := 0
  lev : Option Nat := none
  f : Nat := 0
  flast : Nat := 0
  d : Nat := 0
  disc : Nat := 0
  lv : SMap SLevel := []
  cnt : List Nat := [0, 0, 0, 0]
  deriving DecidableEq, Repr

/-- A VOQ group's port credit (R421, R422, R425): cumulative cells granted and used, the backlog last requested, when its
backlog fell to zero. -/
structure Voq where
  granted : Nat := 0
  used : Nat := 0
  asked : Nat := 0
  askedAt : Option Nat := none
  idleAt : Option Nat := none
  deriving DecidableEq, Repr

/-- Scheduler state: entries at level × 2¹⁸ + index, queue contents, the outlet served last, VOQ groups by L5 node, cells
sent and returned by outlet, the queue being flushed and the node being rebuilt. -/
structure SchState where
  ents : SMap SEnt := []
  q : SMap (List QPkt) := []
  lastOut : Nat := 63
  voq : SMap Voq := []
  sent : SMap Nat := []
  returned : SMap Nat := []
  flush : Option Nat := none
  rebuild : Option Nat := none
  deriving DecidableEq, Repr

/-- An allocated scratch cell (R339). -/
structure ScrCell where
  refs : Nat := 0
  deriving DecidableEq, Repr

/-- A waiter of a scratch pool (R345): its thread 8e + t, its token, when it came, and whether it has starved. -/
structure HrdWait where
  thr : Nat
  tok : Nat
  at_ : Nat
  starved : Bool
  deriving DecidableEq, Repr

/-- A packet's buffer in pool 0 (R338, R341, R347): references, bytes with the descriptor, the sub-stack of its first cell, its cells in
the order of their links. -/
structure PktBuf where
  refs : Nat := 0
  len : Nat := 0
  first : Nat := 0
  cells : List Nat := []
  deriving DecidableEq, Repr

/-- Hoard (R335–R350): allocated scratch cells at pool × 2²⁸ + index, their 8-byte words at that × 32, waiters by pool, packet
buffers by number, the next number, cells taken from each sub-stack of pool 0 and its cached pointers, the indices in use of each
sub-stack and, at 8, of pool 1, the sub-stack at which a slice goes on. -/
structure HrdState where
  scr : SMap ScrCell := []
  words : SMap Nat := []
  wait : SMap (List HrdWait) := []
  bufs : SMap PktBuf := []
  nextBuf : Nat := 1
  taken : SMap Nat := []
  used : SMap (List Nat) := []
  cache : SMap Nat := []
  rot : SMap Nat := []
  logged : Bool := false
  deriving DecidableEq, Repr

/-- A packet held in a slice's holding buffer or on its way over Passage. -/
structure Held where
  p : Pkt
  mir : List Nat := []
  deriving DecidableEq, Repr

/-- Admission (R351–R359): cells charged to queue, port and class minima, to the shared area by queue and by port and
class, to headroom; (slice, class) pairs whose Passage credit is withheld or whose holding level asserts XOFF, at 8 × slice + class; the holding buffers by
slice; packets that have crossed Passage. -/
structure AdmState where
  qu : SMap Nat := []
  pu : SMap Nat := []
  cu : SMap Nat := []
  sq : SMap Nat := []
  spg : SMap Nat := []
  hu : SMap Nat := []
  withheld : List Nat := []
  holdXoff : List Nat := []
  hold : SMap (List Held) := []
  arrive : List Held := []
  deriving DecidableEq, Repr

/-! ### Tradewind (R413–R432) -/

/-- A fabric cell before it has its link sequence number: control or data, SOP, EOP, destination, source, SEQ, TARGET, ADJ,
LAST_BYTES, payload, and for a first cell what its descriptor says. -/
structure FCell where
  ctrl : Bool := false
  sop : Bool := false
  eop : Bool := false
  dst : Nat := 0
  src : Nat := 0
  seq : Nat := 0
  target : Nat := 0
  adj : Nat := 0
  last : Nat := 0
  pay : Bytes := []
  desc : Option Descr := none
  deriving DecidableEq, Repr

/-- A link (R419): next LSEQ, cells sent and not acknowledged, cells to be sent again, last LSEQ received in order. -/
structure FLink where
  lseq : Nat := 0
  unack : List (Nat × FCell) := []
  again : List (Nat × FCell) := []
  got : Nat := 255
  deriving DecidableEq, Repr

/-- Resequencing of a source (R428, R429): next SEQ, cells held, since when the next is missing, discarding until SOP, within a
packet, whether the packet being discarded is counted, the egress queue (8 × port + class) of the packet in progress, data cells
released in all and as last told. -/
structure FRx where
  next : Nat := 0
  held : SMap (Option FCell) := []
  gapAt : Option Nat := none
  cut : Bool := false
  mid : Bool := false
  counted : Bool := false
  at_ : Option Nat := none
  returned : Nat := 0
  told : Nat := 0
  deriving DecidableEq, Repr

/-- The egress side's account of (source, port) (R423, R426): cells granted and arrived, BACKLOG of the last REQ, cells
granted since. -/
structure FEg where
  granted : Nat := 0
  arrived : Nat := 0
  backlog : Nat := 0
  since : Nat := 0
  deriving DecidableEq, Repr

/-- What arrives at the egress buffer: a packet of the local loop, or a released fabric cell. -/
inductive Arrival where
  | loop (x : QPkt) (target : Nat)
  | cell (src : Nat) (c : FCell)
  | gap (src : Nat)
  deriving DecidableEq, Repr

/-- Tradewind beyond its registers. -/
structure FabState where
  links : SMap FLink := []
  turn : Nat := 0
  data : List FCell := []
  ctrl : List FCell := []
  again : List FCell := []
  seq : SMap Nat := []
  rx : SMap FRx := []
  eg : SMap FEg := []
  last : SMap Nat := []
  arrive : List Arrival := []
  spares : Nat := 0
  overSeen : Bool := false
  lostSeen : Bool := false
  deriving DecidableEq, Repr

/-! ### Survey (R439–R453) and engine counters (R454–R457) -/

/-- A bank of a histogram (R441, R442): window, bins, COUNT, SUM, MIN, MAX, NEG, PARTIAL, its end tick once it has ended,
report pending. -/
structure HBank where
  win : Nat := 0
  bins : SMap Nat := []
  count : Nat := 0
  sum : Nat := 0
  min : Nat := 0xFFFFFFFF
  max : Nat := 0
  neg : Nat := 0
  part : Bool := false
  pend : Option Nat := none
  deriving DecidableEq, Repr

/-- A context's configuration word and banks. -/
structure HCtx where
  cfg : Nat := 0
  b0 : HBank := {}
  b1 : HBank := {}
  deriving DecidableEq, Repr

/-- A record for the dump ring before it has its number (R452). -/
structure DumpRec where
  set : Nat
  cls : Nat
  flags : Nat
  first : Nat
  count : Nat
  tick : Nat
  hist : Bool
  words : List Nat
  deriving DecidableEq, Repr

/-- A dump set beyond its registers (R449, R450, R452): a snapshot that is overdue, the next one is the first since a wake. -/
structure DumpSet where
  late : Bool := false
  reset : Bool := false
  deriving DecidableEq, Repr

/-- Counters as they stood at the instant of a tick that is still to be issued (R70, R449). -/
structure PreTick where
  regs : SMap Word
  ents : SMap SEnt
  stm : SMap Stm
  eng : SMap Nat
  hits : SMap Nat
  deriving DecidableEq, Repr

/-- Survey beyond its registers: contexts; whether windows have begun; the histogram window (number, first tick, length), the one
that ended last, whether the window is PARTIAL after a wake; the bandwidth window likewise, and bytes stamped in later ones
(1,024 × window + 2 × port + direction); reports due, reports that an overwritten bank left to be written, snapshot records not yet
written with their set, dump sets, mirror SEQ and sample counts, record number, counters and reports left in the tick's budget, and
the counters of a tick still to be issued. -/
structure SvyState where
  ctx : SMap HCtx := []
  live : Bool := false
  last : Option Nat := none
  bwNext : SMap Nat := []
  urgent : List DumpRec := []
  work : List (Nat × DumpRec) := []
  pre : Option PreTick := none
  win : Nat := 0
  winAt : Nat := 0
  winLen : Nat := 1000
  part : Bool := false
  bw : Nat := 0
  bwAt : Nat := 0
  bwLen : Nat := 1000
  due : List Nat := []
  sets : SMap DumpSet := []
  mirSeq : SMap Nat := []
  mirCount : SMap Nat := []
  seq : Nat := 0
  cntLeft : Nat := 2048
  histLeft : Nat := 64
  deriving DecidableEq, Repr

/-- Engine counters beyond their registers: samples still to be pushed (gallery, engine, counter, thread), sample FIFOs by gallery, a
RUN write that waits (RUN, tick). -/
structure PmcState where
  due : List (Nat × Nat × Nat × Nat) := []
  fifo : SMap (List Nat) := []
  runAt : SMap (Option (Nat × Nat)) := []
  deriving DecidableEq, Repr

/-! ### Galleries -/

/-- A lookup request (R289): kind, table, key or index, slice, VRF, AF, generation, result buffer; `bad` completes with
TOK_BAD_ARG. -/
structure LkpReq where
  kind : Nat
  tbl : Nat
  key : Nat
  slice : Nat
  vrf : Nat
  af : Nat
  gen : Nat
  buf : Nat
  bad : Bool
  deriving DecidableEq, Repr

/-- A DMA request (R293): direction, remote address, local address, length; `bad` completes with TOK_BAD_ARG. -/
structure DmaReq where
  dir : Nat
  remote : Nat
  loc : Nat
  len : Nat
  bad : Bool
  deriving DecidableEq, Repr

/-- An asynchronous request (R286); a Hoard request holds its status word once Hoard has answered; `off`: the unit is
switched off (R300). -/
inductive Req where
  | lkp (r : LkpReq)
  | echo
  | hrd (res : Option Nat)
  | dma (r : DmaReq)
  | off
  deriving DecidableEq, Repr

/-- A token in use (R286, R287): its request, whether its status or its result too is discarded on completion (1, 2), its
status when complete. -/
structure Tok where
  req : Req
  discard : Nat := 0
  done : Option Nat := none
  deriving DecidableEq, Repr

/-- The packet a worker holds: HW_LEN at dispatch and now, the sum of HWADJ deltas (R283). -/
structure GPkt where
  p : Pkt
  egr : Bool
  handle : Nat
  hw0 : Nat
  hwLen : Nat
  delta : Int := 0
  deriving DecidableEq, Repr

/-- A flue reservation (R316): the flue, its size, the words staged; `fresh` until its FRES retires. -/
structure Resv where
  flue : Nat
  size : Nat
  staged : List Nat := []
  fresh : Bool := false
  deriving DecidableEq, Repr

/-- What a long stall waits for (R311). -/
inductive Stall where
  | tok (mask : Nat) | events (mask : Nat) | full | echoQ (len : Nat) | fres (f : Nat) | fget (f : Nat) | pkt
  deriving DecidableEq, Repr

/-- Whether a thread runs: `idle` is an idle worker, `budget` a background thread that has ended its work for the tick. -/
inductive Run where
  | off | idle | ready | stall (w : Stall) | budget | haltF | haltD
  deriving DecidableEq, Repr

/-- A thread. -/
structure Thr where
  role : Nat := 0
  run : Run := .off
  pc : Nat := 0
  regs : SMap Nat := []
  preds : Nat := 0
  started : Bool := false
  pkt : Option GPkt := none
  toks : SMap (Option Tok) := []
  events : Nat := 0
  timer : Nat := 0
  armed : Bool := false
  resv : List Resv := []
  lost : List Nat := []
  haltAt : Nat := 0
  leashed : List Nat := []
  step : Bool := false
  was : Run := .ready
  bgDone : Bool := true
  deriving DecidableEq, Repr

/-- A packet on its way to a gallery: its source slice, whether it comes from the egress edit, when it arrived. -/
structure GIn where
  p : Pkt
  egr : Bool
  slice : Nat
  at_ : Nat
  handle : Nat := 0
  deriving DecidableEq, Repr

/-- A gallery (R274–R334): code and entry points, memories as 8-byte words, threads at 8e + t, committed words and waiting
reservations by flue, notifications, input queue; `saAt`: when a thread other than the supervisor last acted or had a completion, from
which the still-air condition counts (R326). -/
structure Gal where
  code : SMap Nat := []
  codeLen : Nat := 0
  entStart : Nat := 0
  entIn : Nat := 0
  entEg : Nat := 0
  entSup : Nat := 0
  entBg : Nat := 0
  mem : SMap Nat := []
  thr : SMap Thr := []
  flue : SMap (List Nat) := []
  wait : SMap (List (Nat × Nat)) := []
  notes : List Nat := []
  inq : List GIn := []
  eng : Nat := 0
  budget : Nat := 0
  sel : Nat := 0
  handle : Nat := 0
  saFired : Bool := false
  saAt : Nat := 0
  dropSeen : Bool := false
  loadAt : Option Nat := none
  drainAt : Option Nat := none
  winBase : Nat := 0
  winSize : Nat := 0
  deriving DecidableEq, Repr

/-- A bank of an Echo instance (R270, R271): the automaton body it holds. -/
structure EchoBank where
  body : Option Bytes := none
  bad : Bool := false
  deriving DecidableEq, Repr

/-- A scan waiting or running (R264, R269): the thread and token it answers, the result address or none for a packet's scan,
the bytes, the cursor, its request stamp. -/
structure EchoJob where
  thr : Nat
  tok : Nat
  handle : Option Nat
  buf : Nat
  data : Bytes
  cur : Option (Nat × Nat)
  noStart : Bool
  stamp : Nat
  deriving DecidableEq, Repr

/-- An Echo instance: its banks, the instant of its last swap, its jobs, results of scans whose packet still waits for a
thread (handle, status word). -/
structure EchoInst where
  bank0 : EchoBank := {}
  bank1 : EchoBank := {}
  swapAt : Nat := 0
  jobs : List EchoJob := []
  ready : List (Nat × Nat) := []
  deriving DecidableEq, Repr

/-- Echo beyond its registers: instances; the load in progress (mask, offset) and the swap waiting for its tick (mask, tick);
ECHO_SKIPPED already raised in this tick. -/
structure EchoState where
  inst : SMap EchoInst := []
  load : Option (Nat × Nat) := none
  swap : Option (Nat × Nat) := none
  skipSeen : Bool := false
  deriving DecidableEq, Repr

/-! ### Modes, trust, self-test, pins -/

/-- A MOD_CMD that waits: its code, the tick it is carried out at, submitted too late for its tick (R88). -/
structure ModPend where
  cmd : Nat
  tick : Option Nat
  late : Bool
  deriving DecidableEq, Repr

/-- Modes beyond MOD_STATUS (R74–R100, R540–R542): PORST_N high, rails below UV (bit per rail), SYSCLK and TCXO_IN bad, WAKE_N
low, FAULT_N kept asserted after an RSQ restart, the start of the ASCENT step, of RUN, the pending MOD_CMD, a Passage failure
that waits for a transition to end (its direction), wake sources seen during LULL entry, sensors whose last reading reached the
trip threshold (bit per sensor), since when all sensors are cool, the PROBE step that runs, its
BIS_PROBE_CFG, the Keeper held in reset, when the lull path is free for the next frame (2⁻¹⁶ ns), and the replays of flits counted towards the TM die and back (R20, log entry 115). -/
structure ModeState where
  porst : Bool := true
  rails : Nat := 0
  sysclkBad : Bool := false
  tcxoBad : Bool := false
  wakeLow : Bool := false
  rsqFault : Bool := false
  stepAt : Nat := 0
  runAt : Option Nat := none
  pend : Option ModPend := none
  lullCmd : Option ModPend := none
  passWait : Option Nat := none
  wakeSeen : Bool := false
  hot : Nat := 0
  coolAt : Option Nat := none
  probe : Nat := 0
  probeCfg : Nat := 0
  held : Bool := false
  lullFree : Nat := 0
  replayTm : Nat := 0
  replayFe : Nat := 0
  deriving DecidableEq, Repr

/-- An owner key slot (R106). -/
structure KeySlot where
  prog : Bool := false
  revoked : Bool := false
  hash : Nat := 0
  deriving DecidableEq, Repr

/-- The device record (R502, R510): probe result word, lanes, PROBE fail-log records, fatal error (log, tick). -/
structure DevRec where
  probe : Nat := 0
  lanes : SMap Nat := []
  fails : List Nat := []
  fatal : Option (Nat × Nat) := none
  deriving DecidableEq, Repr

/-- Non-volatile memory and fuses (R106, R112–R128): the two copies of the partition table, the record in each BCR sector, image slots at 2 × type + slot (none: as delivered),
the settings halves (key, value), owner key slots at 4 × bank + slot, memory fuse repair (rows, columns). -/
structure NvmState where
  ptA : Bytes := ptTable
  ptB : Bytes := ptTable
  bcrA : Bytes := bcrFirst
  bcrB : Bytes := []
  img : SMap (Option Bytes) := []
  half0 : List (Nat × Bytes) := []
  half1 : List (Nat × Bytes) := []
  dev : DevRec := {}
  owner : SMap KeySlot := []
  fuse : SMap (Nat × Nat) := []
  deriving DecidableEq, Repr

/-- An image being streamed (R122): type, total length, bytes so far. -/
structure ImgRx where
  typ : Nat
  total : Nat
  data : Bytes := []
  deriving DecidableEq, Repr

/-- A warm swap (R133, R134): step, whether it is a swap back, types, gallery of step 5, start of the swap, galleries that have been
through step 5. -/
structure Swap where
  step : Nat
  back : Bool
  set : Nat
  gal : Nat := 0
  start : Nat := 0
  done : Nat := 0
  deriving DecidableEq, Repr

/-- A request in a control core's mailbox: core, SEQ, CODE, payload, and the NVM offset that fails when served (R136). -/
structure CoreReq where
  core : Nat
  seq : Nat
  code : Nat
  pay : Bytes
  nvm : Option (BitVec 32)
  deriving DecidableEq, Repr

/-- Keeper state that a cold start clears: image reception, tokens held, nonce, whether the trial was entered by a warm swap,
the end of the confirmation window, the swap in progress, the tick of an armed swap, the engine and firmware images in use and
those before them (R134), the configuration slot in use and the copy of its data (R83), whether the control cores run and whether
they take host commands, core requests that wait behind the host's (R136), a return to maker in progress (R108), the microcode the
SerDes microcontrollers run (R118), the flash in its 8D-8D-8D mode (R532). -/
structure KprState where
  rx : Option ImgRx := none
  tokens : List Bytes := []
  nonce : Bytes := []
  trialWarm : Bool := false
  winEnd : Option Nat := none
  swap : Option Swap := none
  armTick : Option Nat := none
  eng : Bytes := []
  engPrev : Bytes := []
  fw : Bytes := []
  fwPrev : Bytes := []
  cfgSlot : Nat := 0
  cfgCopy : List (Nat × Word) := []
  fwUp : Bool := false
  hold : Bool := false
  wait : List CoreReq := []
  returning : Bool := false
  serdes : Bytes := []
  flash8d : Bool := false
  deriving DecidableEq, Repr

/-- An online gallery test (R504): gallery, the step in progress (2–7), what LBIST and MBIST found, whether it made a repair. -/
structure Gtest where
  g : Nat
  step : Nat
  res : TestRes := ⟨[], [], []⟩
  repaired : Bool := false
  deriving DecidableEq, Repr

/-- Self-test and repair beyond the BIS registers: fail log, HBM log, soft repair by instance (rows, columns), failed spare
engines, the gallery test in progress, one that waits for its tick, the gallery whose automatic turn it is, galleries that
failed their test (bit per gallery), a failure seen by the PROBE in progress and its first 256 records, when the Keeper last took a
turn, the correctable errors of HBM rows in the last second (row, when). -/
structure BistState where
  failLog : List Nat := []
  hbmLog : List Nat := []
  soft : SMap (Nat × Nat) := []
  gt : Option Gtest := none
  gtAt : Option (Nat × Nat) := none
  turn : Nat := 0
  gfail : Nat := 0
  probeBad : Bool := false
  probeRecs : List Nat := []
  autoAt : Nat := 0
  rows : List (Nat × Nat) := []
  deriving DecidableEq, Repr

/-- What the block emits. -/
inductive Out where
  | msix (v lo hi data : Nat)
  | ppsOut (n : Nat) (t : Int) (width : Nat)
  | txAbort (port : Nat)
  | frame (port stamp : Nat) (bytes : Bytes)
  | dmaWrite (addr : Nat) (bytes : Bytes)
  | toCores (reason port : Nat) (bytes : Bytes)
  | adjFreed (adj : Bool) (i : Nat)
  /-- ENTRY_LOST of an ACL entry, with its slice and index (R260). -/
  | aclLost (slice i : Nat)
  | cell (link : Nat) (bytes : Bytes)
  | lullCores (port : Nat) (bytes : Bytes)
  | read (addr : Nat) (w : Word)
  | unsupported (addr : Nat)
  | bar2 (off : Nat) (bytes : Bytes) (poisoned : Bool)
  | i2c (bytes : Bytes)
  | i2cNak
  | mbx (core : Nat) (bytes : Bytes)
  | tdo (w : Word)
  | swapPrepare
  | xspiReset
  | xspiSfdp
  | xspi8d
  deriving DecidableEq, Repr

/-- The state. -/
structure State where
  regs : SMap Word := []
  held : SMap (Option Word) := []
  latch : SMap (Option Word) := []
  tb : TimeBase := {}
  ev : EvState := {}
  pcie : PcieState := {}
  tsf : List TsfEntry := []
  pauses : List PauseTimer := []
  pauseFrac : SMap Nat := []
  pauseSince : SMap (Option Nat) := []
  byp0 : BypTimers := {}
  byp1 : BypTimers := {}
  portSt : SMap PortSt := []
  egr : SMap (List EgrFrame) := []
  otnIf : SMap OtnIf := []
  otnPc : SMap OtnPc := []
  pm : SMap PmEnt := []
  pmNext : Nat := 0
  pmLast : Nat := 0
  pmLate : Option Nat := none
  tsi : TsiState := {}
  ring : RingState := {}
  cls : SMap ClsEnt := []
  punt : PuntState := {}
  acl : AclState := {}
  tmem : SMap Word := []
  cmt : Commit := {}
  routes : List Route := []
  pivots : List Pivot := []
  look : LookState := {}
  learn : LearnState := {}
  kpr : KprState := {}
  nvm : NvmState := {}
  md : ModeState := {}
  bist : BistState := {}
  i2cPtr : Nat := 0
  tap : TapInstr := .idcode
  shp : ShpUnit := {}
  gate : SMap GateInst := []
  gateSeen : Bool := false
  gateSpill : List Nat := []
  stm : SMap Stm := []
  soj : SojState := {}
  sq : SchState := {}
  hrd : HrdState := {}
  adm : AdmState := {}
  eport : SMap EgPort := []
  fab : FabState := {}
  svy : SvyState := {}
  pmcSt : PmcState := {}
  engCnt : SMap Nat := []
  gal : SMap Gal := []
  galIn : List GIn := []
  echo : EchoState := {}
  tmSrc : Nat := 0
  tmPort : Nat := 144
  hbmUtil : SMap (Nat × Nat) := []
  out : List Out := []
  free : Nat := 0
  pending : List Instr := []
  deriving DecidableEq, Repr

/-- The state in which power-up finds the block (R12, R74, R80): every register at its Reset value, in step 1 of ASCENT, no
command waiting; the values the spec does not give are those log entry 1 names. -/
def State.reset : State := {}

/-- What stops a step with a fault. `illFormed`: raised by the meaning of RESERVED_OPCODE alone, for a word that spells a
defined instruction, which is not the row's event; safe, since no block ever meets that event. -/
inductive Fault where
  | illFormed
  deriving DecidableEq, Repr

/-- What a step refuses. `notModelled`: a row of the table without a meaning, raised by `exec` alone; safe. -/
inductive Refusal where
  | notModelled (mnemonic : String)
  deriving DecidableEq, Repr

end Sys2Proof.Machine
end

