-- ==== Sys2Proof/Machine/Ops.lean ====
section
/-! DEFINITION. The named operations over registers, counters, time, events and messages that every meaning is built
from. -/

namespace Sys2Proof.Machine

/-- What a meaning answers. -/
abbrev Out1 := Host.Outcome State Fault Refusal

/-! ### Small helpers -/

/-- Bits [hi:lo] of a number (R6). -/
def bits (n hi lo : Nat) : Nat := (n >>> lo) % 2 ^ (hi + 1 - lo)

/-- Bit `i` of a number. -/
def bitN (n i : Nat) : Bool := n.testBit i

/-- A number of `w` bits read as two's complement. -/
def sx (w n : Nat) : Int := if 2 ^ (w - 1) ≤ n % 2 ^ w then (n % 2 ^ w : Int) - (2 ^ w : Int) else (n % 2 ^ w : Int)

/-- Two's complement of `i` in `w` bits. -/
def tc (w : Nat) (i : Int) : Nat := (i % (2 ^ w : Int)).toNat

/-- Apply `f` for each element of a list in order. -/
def foldS {A S : Type} (l : List A) (f : A → S → S) (s : S) : S := l.foldl (fun s a => f a s) s

/-- The first element equal to `x` removed. -/
def eraseFirst {A : Type} [DecidableEq A] (x : A) : List A → List A
  | [] => []
  | y :: l => if x = y then l else y :: eraseFirst x l

/-! ### Registers: one home (R10, R12) -/

/-- Index lists of an address within a row: the indices, page first, when the word belongs to the row (R516). -/
def rowIdx : List (Nat × Nat) → Nat → Option (List Nat)
  | [], rel => if rel = 0 then some [] else none
  | (c, st) :: ds, rel =>
    if rel / st < c then (rowIdx ds (rel % st)).map (rel / st :: ·) else none

/-- The row of a list that holds offset `off`. -/
def findRow : List RegRow → Nat → Option (RegRow × List Nat)
  | [], _ => none
  | r :: rs, off =>
    if off < r.off then findRow rs off
    else match rowIdx r.dims (off - r.off) with
      | some ix => some (r, ix)
      | none => findRow rs off

/-- The block whose span holds BAR0 offset `a` (R514). -/
def findBlock : List RegBlock → Nat → Option RegBlock
  | [], _ => none
  | b :: bs, a => if decide (b.base ≤ a) && decide (a < b.base + b.span) then some b else findBlock bs a

/-- An element 146–255 of an array indexed by port, which is reserved (R192, R515). -/
def reservedPort (r : RegRow) (ix : List Nat) : Bool :=
  r.dims.any (fun d => d.1 == 400) && decide (146 ≤ ix.headD 0) && decide (ix.headD 0 < 256)

/-- A field that is reserved on the port its word belongs to: those of R159 that only line or only tether ports have, and SLICE of a
tether port, which reads 0 (R155). -/
def reservedField (r : RegRow) (ix : List Nat) (f : RField) : Bool :=
  if !r.dims.any (fun d => d.1 == 146) then false
  else if 144 ≤ ix.headD 0 then
    (r.name == "LPT_CFG" && f.lo == 21) || (r.name == "LPT_STATUS" && f.lo == 24) || ((r.name == "LPT_EVT" || r.name == "LPT_EVT_EN") && f.lo == 4)
    || ["LPT_PFC", "LPT_PFC_REFRESH", "LPT_PFC_MAP"].contains r.name
  else (r.name == "LPT_CFG" && f.lo == 18) || (r.name == "LPT_CTRL" && f.lo == 1)

/-- The row and the indices of the register word at BAR0 offset `a`, with the fields the word has; none where it is reserved. -/
def regRow (a : Nat) : Option (RegRow × List Nat) :=
  match findBlock regBlocks a with
  | none => none
  | some b => ((findRow b.rows (a - b.base)).filter (fun x => !reservedPort x.1 x.2)).map
      (fun x => ({ x.1 with fields := x.1.fields.filter (fun f => !reservedField x.1 x.2 f) }, x.2))

/-- The Reset value of a field of a row, index-dependent resets included (EVT_MAP: its index, R486; CLS_QOS_MAP: R197;
the fields of all others are in the map). -/
def fieldReset (r : RegRow) (ix : List Nat) (f : RField) : Nat :=
  if r.name = "EVT_MAP" then ix.getD 0 0
  else if r.name = "CLS_QOS_MAP" then qosReset (ix.getD 0 0) f.hi
  else f.reset
where
  /-- CLS_QOS_MAP after reset: DSCP d to TC d div 8; PCP p to TC p, yellow with DEI; EXP e to TC e. -/
  qosReset (i hi : Nat) : Nat :=
    if hi = 6 then (if i < 64 then i / 8 else if i < 80 then (i - 64) / 2 else i - 80)
    else if decide (64 ≤ i) && decide (i < 80) then (i - 64) % 2 else 0

/-- The value an unwritten register word reads as: its Reset value (R12). -/
def regReset (a : Nat) : Word :=
  match regRow a with
  | none => 0
  | some (r, ix) => BitVec.ofNat 32 (r.fields.foldl (fun acc f => acc + fieldReset r ix f * 2 ^ f.lo) 0)

/-- The register word at BAR0 offset `a`. -/
def State.rdw (s : State) (a : Nat) : Word := mget regReset s.regs a

/-- Set the register word at BAR0 offset `a`. -/
def State.wrw (s : State) (a : Nat) (w : Word) : State := { s with regs := mset regReset s.regs a w }

/-- The number in a field. -/
def State.rd (s : State) (f : Fld) : Nat := bits (s.rdw f.addr).toNat f.hi f.lo

/-- A word with `v` in the bits [hi:lo]. -/
def putBits (w : Word) (hi lo v : Nat) : Word :=
  let n := w.toNat
  BitVec.ofNat 32 (n - bits n hi lo * 2 ^ lo + v % 2 ^ (hi + 1 - lo) * 2 ^ lo)

/-- Set a field, its other bits kept. -/
def State.wr (s : State) (f : Fld) (v : Nat) : State := s.wrw f.addr (putBits (s.rdw f.addr) f.hi f.lo v)

/-- A field that is not zero. -/
def State.on (s : State) (f : Fld) : Bool := decide (s.rd f ≠ 0)

/-- The value of a register of one word. -/
def State.rdr (s : State) (r : Reg) : Nat := (s.rdw r.addr).toNat

/-- Set a register of one word. -/
def State.wrr (s : State) (r : Reg) (v : Nat) : State := s.wrw r.addr (BitVec.ofNat 32 v)

/-- The value of a 64-bit register (R9). -/
def State.rd64 (s : State) (r : Reg) : Nat := (s.rdw r.addr).toNat + (s.rdw (r.addr + 4)).toNat * 2 ^ 32

/-- Set a 64-bit register. -/
def State.wr64 (s : State) (r : Reg) (v : Nat) : State :=
  (s.wrw r.addr (BitVec.ofNat 32 v)).wrw (r.addr + 4) (BitVec.ofNat 32 (v / 2 ^ 32))

/-- The held low words and latched high words of the BAR0 range from `a` to `b` are discarded (R9, log entry 29). -/
def State.dropPairs (s : State) (a b : Nat) : State :=
  let keep (m : SMap (Option Word)) : SMap (Option Word) := m.filter (fun x => !(decide (a ≤ x.1) && decide (x.1 < b)))
  { s with held := keep s.held, latch := keep s.latch }

/-- Add to a 64-bit counter; it saturates (R433). `off` is the byte offset of the counter within the register. -/
def State.cnt (s : State) (r : Reg) (off : Nat := 0) (n : Nat := 1) : State :=
  let c : Reg := { r with addr := r.addr + off }
  s.wr64 c (min (s.rd64 c + n) (2 ^ 64 - 1))

/-- Add to a saturating count field. -/
def State.satInc (s : State) (f : Fld) (n : Nat := 1) : State := s.wr f (min (s.rd f + n) (2 ^ f.width - 1))

/-- Add to a wrapping count field. -/
def State.wrapInc (s : State) (f : Fld) (n : Nat := 1) : State := s.wr f (s.rd f + n)

/-! ### Outputs and free values -/

/-- Emit an output. -/
def State.emit (s : State) (o : Out) : State := { s with out := o :: s.out }

/-- Draw a free value (log entry 4): the value and the state with the counter advanced. -/
def State.draw (s : State) : DWord × State := (Config.freeValue s.free, { s with free := s.free + 1 })

/-! ### Time (R36–R39, R63) -/

/-- One nanosecond of Windrose time in the model's unit, 10⁻²²/128 s, in which 2⁻¹⁶ ns, 1 ps, 10⁻¹³ of a nanosecond and a
ppb of a nanosecond are whole numbers. -/
def tuNs : Nat := 128 * 10 ^ 13

/-- 2⁻¹⁶ ns in the model's unit. -/
def tuFrac : Nat := 19531250000

/-- One picosecond in the model's unit. -/
def tuPs : Nat := 128 * 10 ^ 10

/-- Windrose time in whole nanoseconds since the epoch. -/
def State.ns (s : State) : Nat := s.tb.now / tuNs

/-- Windrose time in units of 2⁻¹⁶ ns since the epoch (R36). -/
def State.t16 (s : State) : Nat := s.tb.now / tuFrac

/-- Elapsed microseconds since the cold start. -/
def State.us (s : State) : Nat := s.tb.up / 1000

/-- A time in 2⁻¹⁶ ns as a captured stamp: a multiple of 1/32 ns (R38). -/
def stamp16 (t : Nat) : Nat := t / 2048 * 2048

/-- The four WRS_TIME words of a time in 2⁻¹⁶ ns (R36): fraction, nanoseconds, low seconds, high seconds. -/
def timeWords (t : Nat) : List Word :=
  let ns := t / 65536
  let sec := ns / 10 ^ 9
  [BitVec.ofNat 32 (t % 65536), BitVec.ofNat 32 (ns % 10 ^ 9), BitVec.ofNat 32 sec, BitVec.ofNat 32 (sec / 2 ^ 32 % 2 ^ 16)]

/-- The compact stamp of a time in 2⁻¹⁶ ns (R39). -/
def compact (t : Nat) : Nat := (t / 65536 % 2 ^ 48) * 32 + t % 65536 / 2048

/-- The difference of two compact stamps modulo 2⁵³, in 1/32 ns (R40). -/
def compactDiff (b a : Nat) : Nat := (b + 2 ^ 53 - a % 2 ^ 53) % 2 ^ 53

/-- Ticks are being issued. -/
def State.running (s : State) : Bool := s.on F.CAD_STATUS_RUNNING

/-- The number of the last tick issued. -/
def State.tick (s : State) : Nat := s.rd64 R.CAD_TICK

/-- The instant of tick `n` in nanoseconds (R63). -/
def State.tickNs (s : State) (n : Nat) : Nat := n * s.rd F.CAD_PERIOD_PERIOD + s.rd F.CAD_PHASE_PHASE

/-- The interval that contains the instant `ns`: the number of the last tick at or before it (R63, R70). -/
def State.tickAt (s : State) (ns : Nat) : Nat := (ns - s.rd F.CAD_PHASE_PHASE) / s.rd F.CAD_PERIOD_PERIOD

/-- The first tick whose instant is not before `t16` (2⁻¹⁶ ns). -/
def State.tickFrom (s : State) (t16 : Nat) : Nat :=
  let p := s.rd F.CAD_PERIOD_PERIOD * 65536
  let ph := s.rd F.CAD_PHASE_PHASE * 65536
  (t16 - ph + (p - 1)) / p

/-- `b − a` of two tick counts is at least `d`. -/
def reached (now target : Nat) : Bool := decide (target ≤ now)

/-! ### Modes (R74, R85) -/

/-- MOD_STATUS.MODE. -/
def State.mode (s : State) : Nat := s.rd F.MOD_STATUS_MODE

/-- Mode codes of R74. -/
def mDORMANT : Nat := 0
/-- ASCENT. -/
def mASCENT : Nat := 1
/-- RUN. -/
def mRUN : Nat := 2
/-- LULL. -/
def mLULL : Nat := 3
/-- PROBE. -/
def mPROBE : Nat := 4
/-- SAFEHOLD. -/
def mSAFEHOLD : Nat := 5

/-- The mode is `m`. -/
def State.inMode (s : State) (m : Nat) : Bool := s.mode == m

/-- MOD_STATUS.DP_READY (R85). -/
def State.dpReady (s : State) : Bool := s.on F.MOD_STATUS_DP_READY

/-- The Keeper is running and healthy. -/
def State.keeperUp (s : State) : Bool := s.on F.MOD_STATUS_KEEPER_UP

/-! ### MSI-X messages (R486) -/

/-- The vector can send: MSI-X enabled, function not masked, vector not masked. -/
def State.vecOpen (s : State) (v : Nat) : Bool :=
  s.pcie.msixEn && !s.pcie.funcMask && !s.on (F.HST_MSIX_TABLE_MASK.at v)

/-- EVT_VEC_CFG.HOLDOFF_US has passed since the vector's last message. -/
def State.holdoffPassed (s : State) (v : Nat) : Bool :=
  match (mget (fun _ => (none : Option Nat)) s.ev.lastMsg v) with
  | none => true
  | some t => decide (t + s.rd (F.EVT_VEC_CFG_HOLDOFF_US.at v) * 1000 ≤ s.tb.up)

/-- Send the message of vector `v`. -/
def State.sendMsg (s : State) (v : Nat) : State :=
  let s := s.emit (.msix v (s.rdr (R.HST_MSIX_TABLE.at v)) ((s.rdw ((R.HST_MSIX_TABLE.at v).addr + 4)).toNat)
    ((s.rdw ((R.HST_MSIX_TABLE.at v).addr + 8)).toNat))
  { s with ev := { s.ev with lastMsg := mset (fun _ => none) s.ev.lastMsg v (some s.tb.up)
                             deferred := s.ev.deferred.filter (· ≠ v) } }

/-- Put a vector on the list of messages that wait for their hold-off. -/
def State.deferMsg (s : State) (v : Nat) : State :=
  if s.ev.deferred.contains v then s else { s with ev := { s.ev with deferred := s.ev.deferred ++ [v] } }

/-- Set or clear the PBA bit of a vector. -/
def State.setPba (s : State) (v b : Nat) : State :=
  let f : Fld := ⟨(R.HST_MSIX_PBA.at (v / 32)).addr, 0, 0, v % 32, v % 32⟩
  s.wr f b

/-- The PBA bit of a vector. -/
def State.pba (s : State) (v : Nat) : Bool := bitN (s.rdr (R.HST_MSIX_PBA.at (v / 32))) (v % 32)

/-- A trigger of vector `v` (R486): a vector that cannot send holds the trigger in its PBA bit, one within its hold-off
sends when that ends, and in D3hot none sends before the return to D0 (R463). -/
def State.trigger (s : State) (v : Nat) : State :=
  if !s.vecOpen v then s.setPba v 1
  else if s.pcie.d3hot || !s.holdoffPassed v then s.deferMsg v
  else s.sendMsg v

/-! ### Event sources (R485, R489) -/

/-- The sources R489 lists; all others are reserved and never raise. -/
def sourceExists (s : Nat) : Bool :=
  let g := s / 16
  let o := s % 16
  decide (o < (match g with
    | 0 => 12 | 1 => 11 | 2 => 13 | 3 => 11 | 4 => 16 | 5 => 4 | 6 => 12 | 7 => 2 | 8 => 4 | 9 => 6
    | 10 => 8 | 11 => 2 | 12 => 2 | 13 => 1 | 14 => 9 | 15 => 6 | _ => 0))

/-- EVT_PEND bit of a source. -/
def State.evtPend (s : State) (src : Nat) : Bool := bitN (s.rdr (R.EVT_PEND.at (src / 32))) (src % 32)

/-- EVT_EN bit of a source. -/
def State.evtEn (s : State) (src : Nat) : Bool := bitN (s.rdr (R.EVT_EN.at (src / 32))) (src % 32)

/-- Set EVT_PEND bit. -/
def State.setPend (s : State) (src : Nat) : State :=
  let f : Fld := ⟨(R.EVT_PEND.at (src / 32)).addr, 0, 0, src % 32, src % 32⟩
  s.wr f 1

/-- A number with bit `i` set. -/
def setBit (n i : Nat) : Nat := n ||| 2 ^ i

/-- A raise of source `src` (R485, R486): it is noted for the digest and the event frame, sets EVT_PEND and triggers its
vector when the bit rises with EVT_EN set. -/
def State.raise (s : State) (src : Nat) : State :=
  if !sourceExists src then s else
  let s1 := { s with ev := { s.ev with raised := setBit s.ev.raised src, tmCur := setBit s.ev.tmCur src } }
  if s1.evtPend src then s1 else
  let s2 := s1.setPend src
  if s2.evtEn src then s2.trigger (s2.rd (F.EVT_MAP_VECTOR.at src)) else s2

/-- Source number of group `g`, offset `o` (R489). -/
def eg (g o : Nat) : Nat := 16 * g + o

/-- A block's EVT word ANDed with its EVT_EN word is non-zero. -/
def State.evtSum (s : State) (evt en : Reg) : Bool := decide (s.rdr evt &&& s.rdr en ≠ 0)

/-- Set bits of a block's EVT register and raise its summary source when one of its set bits is enabled (R485). -/
def State.setEvt (s : State) (evt en : Reg) (f : Fld) (src : Nat) : State :=
  let s := s.wr f 1
  if s.evtSum evt en then s.raise src else s

/-- BIS_ECC_LOG of an error: DIE from the instance's partition. -/
def eccRecord (mem addr : Nat) (ue : Bool) : Nat :=
  2 ^ 63 + b2n ue * 2 ^ 62 + b2n (decide (102 ≤ Config.memInfo mem 0)) * 2 ^ 61 + mem % 2 ^ 17 * 2 ^ 44 + addr % 2 ^ 26 * 2 ^ 16

/-- Log an ECC error: the first one, or an uncorrectable one over a correctable one. -/
def State.eccLog (s : State) (mem addr : Nat) (ue : Bool) : State :=
  let held := s.on F.BIS_ECC_LOG_VALID
  if !held || (ue && !s.on F.BIS_ECC_LOG_UE) then s.wr64 R.BIS_ECC_LOG (eccRecord mem addr ue) else s

/-- An uncorrectable error in a memory whose number is open: counted, logged, EG15 (R508, log entry 130). -/
def State.uncorrected (s : State) (addr : Nat) : State :=
  let (v, s) := s.draw
  ((s.cnt R.BIS_CNT 0x08).eccLog (v.toNat % 2 ^ 17) addr true).raise (eg 15 2)

end Sys2Proof.Machine
end

