-- ==== Sys2Proof/Machine/PmBins.lean ====
section
/-! DEFINITION. The performance-monitoring bins (R168–R171): counting a second, unavailable time, roll-over. -/

namespace Sys2Proof.Machine

/-- Saturating 32-bit addition. -/
def sat32 (a b : Nat) : Nat := min (a + b) (2 ^ 32 - 1)

/-- Add to one parameter of a bin. -/
def PmBin.add (b : PmBin) (i n : Nat) : PmBin := { b with cnt := b.cnt.set i (sat32 (b.cnt.getD i 0) n) }

/-- Take from one parameter of a bin. -/
def PmBin.sub (b : PmBin) (i n : Nat) : PmBin := { b with cnt := b.cnt.set i (b.cnt.getD i 0 - n) }

/-- The eight parameters start at zero. -/
def PmBin.fresh (start : Nat) (suspect : Bool) : PmBin :=
  { start := start, adjusted := false, suspect := suspect, valid := true, cnt := [0, 0, 0, 0, 0, 0, 0, 0] }

/-- A second counts in a bin as BBE, ES and SES, or as UAS (R168); `o` is the first parameter of the end. -/
def PmBin.count (b : PmBin) (o : Nat) (q : PmSec) (una : Bool) : PmBin :=
  if una then b.add (o + 3) 1 else ((b.add o q.bbe).add (o + 1) (b2n q.es)).add (o + 2) (b2n q.ses)

/-- A second moves from (BBE, ES, SES) to UAS in a bin, or back (R170). -/
def PmBin.recount (b : PmBin) (o : Nat) (q : PmSec) (una : Bool) : PmBin :=
  if una then (((b.sub o q.bbe).sub (o + 1) (b2n q.es)).sub (o + 2) (b2n q.ses)).add (o + 3) 1
  else (((b.add o q.bbe).add (o + 1) (b2n q.es)).add (o + 2) (b2n q.ses)).sub (o + 3) 1

/-- Update the 15-minute bin and the day that closed `age` and `dayAge` roll-overs ago. -/
def PmEnt.upd (e : PmEnt) (age dayAge : Nat) (f : Bool → PmBin → PmBin) : PmEnt :=
  let e := if age = 0 then { e with cur := f false e.cur } else { e with recent := e.recent.modify (age - 1) (f true) }
  if dayAge = 0 then { e with day := f false e.day } else if dayAge = 1 then { e with prev := f true e.prev } else e

/-- A past second is recounted in the bins it lies in; a closed one is then ADJUSTED (R170). -/
def PmEnt.recountSec (e : PmEnt) (o : Nat) (q : PmSec) (una : Bool) : PmEnt :=
  e.upd q.age q.dayAge (fun closed b => let b := b.recount o q una; if closed then { b with adjusted := true } else b)

/-- One evaluated second of one end of an entity (R168, R170): the second is counted as available or unavailable time, the
onset of unavailable time takes its ten seconds back and its end restores them. -/
def PmEnt.second (e : PmEnt) (far : Bool) (q : PmSec) : PmEnt :=
  let o := if far then 4 else 0
  let st := if far then e.fe else e.ne
  let e := e.upd q.age q.dayAge (fun _ b => b.count o q st.una)
  let trig := if st.una then !q.ses else q.ses
  let hist := if trig then q :: st.hist else []
  let flip := decide (10 ≤ hist.length)
  let e := if flip then hist.foldl (fun e q => e.recountSec o q (!st.una)) e else e
  let st' : PmEnd := if flip then { una := !st.una, hist := [] } else { st with hist := hist }
  if far then { e with fe := st' } else { e with ne := st' }

/-- The remembered seconds of an end as seen after a roll-over. -/
def PmEnd.age (x : PmEnd) (day : Bool) : PmEnd :=
  { x with hist := x.hist.map (fun q => if day then { q with dayAge := q.dayAge + 1 } else { q with age := q.age + 1 }) }

/-- Close the 15-minute bin of an entity at SECONDS `sec` (R169). -/
def PmEnt.close15 (e : PmEnt) (sec : Nat) (sus : Bool) : PmEnt :=
  { e with recent := (e.cur :: e.recent).take 16, cur := PmBin.fresh sec sus, ne := e.ne.age false, fe := e.fe.age false }

/-- Close the day of an entity. -/
def PmEnt.closeDay (e : PmEnt) (sec : Nat) (sus : Bool) : PmEnt :=
  { e with prev := e.day, day := PmBin.fresh sec sus, ne := e.ne.age true, fe := e.fe.age true }

/-- The bins in use carry SUSPECT (R171). -/
def State.pmSuspect (s : State) : State :=
  { s with pm := s.pm.map (fun e => (e.1, { e.2 with
      cur := { e.2.cur with suspect := true }, day := { e.2.day with suspect := true } })) }

/-- A day closes at SECONDS `sec` (R169). -/
def State.dayCloses (s : State) (sec : Nat) : Bool :=
  let ofs := s.rd F.OTN_PM_CFG_DAY_OFS
  decide (ofs ≤ sec) && decide ((sec - ofs) % 86400 = 0)

/-- The bins roll over at the closing instant `sec`, all entities in one cycle (R169); `pmLate` keeps it while the second that ends
there is still to be evaluated. -/
def State.pmCloseAt (s : State) (sec : Nat) (sus : Bool) : State :=
  let day := s.dayCloses sec
  let s := { s with
    pm := s.pm.map (fun (x : Nat × PmEnt) => (x.1, let e := x.2.close15 sec sus; if day then e.closeDay sec sus else e))
    pmNext := sec + 900
    pmLate := if s.pmLast = sec then none else some sec }
  s.raise (eg 6 11)

/-- The closing instants up to SECONDS `upto`, oldest first; `n` bounds how many. -/
def State.pmCloses (s : State) (sus : Bool) (upto : Nat) : Nat → State
  | 0 => s
  | n + 1 => if s.pmNext ≤ upto then State.pmCloses (s.pmCloseAt s.pmNext sus) sus upto n else s

/-- Apply every closing instant up to SECONDS `upto` (R171); there is none before the data path is set up. -/
def State.pmCatchUp (s : State) (sus : Bool) (upto : Nat) : State :=
  if s.pmNext = 0 then s else s.pmCloses sus upto ((upto - s.pmNext) / 900 + 1)

/-- New bins start SUSPECT while time is not set (R171). -/
def State.pmSus (s : State) : Bool := !s.on F.WRS_STATUS_TIME_SET

end Sys2Proof.Machine
end

