-- ==== Sys2Proof/Machine/PuntTokens.lean ====
section
/-! DEFINITION. The token buckets of the punt path (R204, R205). -/

namespace Sys2Proof.Machine

/-- Tokens of a punt bucket that nothing has changed: full at reset (R204); bucket 64 is the aggregate. -/
def puntFull (k : Nat) : Nat := if k = 64 then 1000 * 10 ^ 6 else 100 * 10 ^ 6

/-- Tokens of bucket `k` as of the last refill. -/
def State.tokens (s : State) (k : Nat) : Nat := mget puntFull s.punt.tokens k

/-- Set the tokens of bucket `k`. -/
def State.setTokens (s : State) (k v : Nat) : State :=
  { s with punt := { s.punt with tokens := mset puntFull s.punt.tokens k v } }

/-- RATE and ceiling of bucket `k`. -/
def State.puntRate (s : State) (k : Nat) : Nat × Nat :=
  if k = 64 then (s.rd F.CLS_PUNT_AGG_RATE, max 1 (s.rd F.CLS_PUNT_AGG_BURST) * 10 ^ 6)
  else (s.rd (F.CLS_PUNT_CFG_RATE.at k), max 1 (s.rd (F.CLS_PUNT_CFG_BURST.at k)) * 10 ^ 6)

/-- The last refill instant reached: every whole microsecond of Windrose time is one (R204). -/
def State.puntInstant (s : State) : Nat := s.tb.now / (1000 * tuNs)

/-- Every refill instant that has come is applied: each bucket gains RATE up to its ceiling (R204, R205). -/
def State.puntSync (s : State) : State :=
  let m := s.puntInstant
  let n := m - s.punt.last
  if n = 0 then s else
  foldS (List.range 65) (fun k s => let (r, c) := s.puntRate k; s.setTokens k (min (s.tokens k + n * r) c))
    { s with punt := { s.punt with last := m } }

/-- A step of time passes over no refill instant: those before it apply, and the next is the first after it. -/
def State.puntStep (s : State) (t : Nat) : State :=
  let s := s.puntSync
  { s with punt := { s.punt with last := t / (1000 * tuNs) } }

end Sys2Proof.Machine
end

