-- ==== Sys2Proof/Machine/TimeBase.lean ====
section
/-! DEFINITION. Windrose and Cadence (chapter 02): passing of time, steps and slews, the DPLL states, the software servo,
captures, the two-step FIFO, lane calibration and the issue of ticks. -/

namespace Sys2Proof.Machine

/-! ### Passing of time -/

/-- DPLL states of R42. -/
def dFREERUN : Nat := 0
/-- ACQUIRE. -/
def dACQUIRE : Nat := 1
/-- LOCKED. -/
def dLOCKED : Nat := 2
/-- HOLDOVER. -/
def dHOLDOVER : Nat := 3

/-- Frequency offset of DPLL B against TCXO_IN in 10⁻¹³: none in FREERUN, what it kept in HOLDOVER, else its reference's (R41, R42). -/
def State.offB (s : State) : Int :=
  let d := s.rd F.WRS_STATUS_DPLLB_STATE
  if d = dFREERUN then 0 else if d = dHOLDOVER then s.tb.holdB else s.tb.freqB

/-- Offset that DPLLA_FREF brings to DPLL A: none, DPLL B's, CLK10M_IN's (R41, R44). -/
def State.offRef (s : State) : Int :=
  match s.rd F.WRS_CTRL_DPLLA_FREF with
  | 1 => s.offB
  | 2 => s.tb.freqC
  | _ => 0

/-- Frequency offset of DPLL A in 10⁻¹³: what it kept in HOLDOVER, else its reference's and the servo's or loop's (R42, R45). -/
def State.offA (s : State) : Int := if s.rd F.WRS_STATUS_DPLLA_STATE = dHOLDOVER then s.tb.holdA else s.offRef + s.tb.freqA

/-- Units of Windrose time in an elapsed nanosecond, without a slew. -/
def State.rateA (s : State) : Nat := max 1 ((tuNs : Int) + 128 * s.offA).toNat

/-- Units that a slew adds or takes per elapsed nanosecond: RATE ppb (R46, log entry 127). -/
def State.slewRate (s : State) : Nat := max 1 (s.rd F.WRS_SLEW_RATE) * 128 * 10 ^ 4

/-- The part of a slew of `left` applied in `e` elapsed nanoseconds at `p` units each. -/
def slewIn (left : Int) (p e : Nat) : Int :=
  if left.natAbs ≤ p * e then left else if left < 0 then -(p * e : Nat) else (p * e : Nat)

/-- Windrose time that `e` elapsed nanoseconds bring. -/
def State.unitsIn (s : State) (e : Nat) : Nat := ((s.rateA * e : Nat) + slewIn s.tb.slewLeft s.slewRate e).toNat

/-- The whole elapsed nanoseconds that `d` units of Windrose time take: the most that bring no more than `d`. -/
def State.nsIn (s : State) (d : Nat) : Nat :=
  let l := s.tb.slewLeft
  let p := s.slewRate
  let n := l.natAbs / p
  let q := if l < 0 then s.rateA - p else s.rateA + p
  if d < n * q then d / q else max n (((d : Int) - l).toNat / s.rateA)

/-- A pause timer runs at Windrose time `t16` (R153). -/
def PauseTimer.runs (p : PauseTimer) (t16 : Nat) : Bool := decide (p.start ≤ t16) && decide (t16 < p.stop)

/-- The traffic class of PFC priority `p` on a port (LPT_PFC_MAP). -/
def State.priTc (s : State) (port p : Nat) : Nat := bits (s.rd (F.LPT_PFC_MAP_PRI_TC.at port)) (3 * p + 2) (3 * p)

/-- Class `t` of a port is paused: the timer of a priority mapped to it runs (R153). -/
def State.paused (s : State) (port t : Nat) : Bool :=
  s.pauses.any (fun p => p.port == port && s.priTc port p.pri == t && p.runs s.t16)

/-- The part of `[a, b)` (2⁻¹⁶ ns) that a pause timer covers, as an interval. -/
def PauseTimer.within (p : PauseTimer) (a b : Nat) : Nat × Nat := (max a p.start, min b p.stop)

/-- Length of the union of intervals given in order of their start. -/
def unionLen (m : Nat) : List (Nat × Nat) → Nat
  | [] => 0
  | (a, b) :: l => let a' := max a m; if a' < b then (b - a') + unionLen b l else unionLen m l

/-- Insertion by first component. -/
def insertBy (x : Nat × Nat) : List (Nat × Nat) → List (Nat × Nat)
  | [] => [x]
  | y :: l => if x.1 ≤ y.1 then x :: y :: l else y :: insertBy x l

/-- The time in `[a, b)` (2⁻¹⁶ ns) during which class `t` of `port` is paused. -/
def State.pausedIn (s : State) (port t a b : Nat) : Nat :=
  let l := (s.pauses.filter (fun p => p.port == port && s.priTc port p.pri == t)).map (fun p => p.within a b)
  unionLen a (l.foldl (fun acc x => insertBy x acc) [])

/-- Count PAUSED_NS of one class as time passes from `a` to `b`: whole nanoseconds, the fraction carried (R153). -/
def State.countPause (s : State) (port t a b : Nat) : State :=
  let d := s.pausedIn port t a b
  if d = 0 then s else
  let k := port * 8 + t
  let tot := mget (fun _ => 0) s.pauseFrac k + d
  let s := s.cnt (R.LPT_CNT.on port) ((24 + t) * 8) (tot / 65536)
  { s with pauseFrac := mset (fun _ => 0) s.pauseFrac k (tot % 65536) }

/-- Count PAUSED_NS of every class with a pause timer as time passes from `a` to `b` (2⁻¹⁶ ns). -/
def State.countPauses (s : State) (a b : Nat) : State :=
  let keys := (s.pauses.map (fun p => p.port * 8 + s.priTc p.port p.pri)).eraseDups
  foldS keys (fun k s => s.countPause (k / 8) (k % 8) a b) s

/-- Whole seconds of the current HOLDOVER of DPLL A, saturating (WRS_HOLDOVER). -/
def State.countHoldover (s : State) : State :=
  if s.rd F.WRS_STATUS_DPLLA_STATE = 3 then
    s.wr F.WRS_HOLDOVER_SECONDS (min ((s.tb.up - s.tb.holdAt) / 10 ^ 9) (2 ^ 32 - 1))
  else s

/-- The counters are kept as they stand at the instant of a tick (R70, R449). -/
def State.freeze (s : State) : State :=
  { s with svy := { s.svy with pre := some { regs := s.regs, ents := s.sq.ents, stm := s.stm, eng := s.engCnt, hits := s.acl.hits } } }

/-- No counters are kept. -/
def State.thaw (s : State) : State := { s with svy := { s.svy with pre := none } }

/-- Let Windrose time pass by `d` units without a step, of which `e` whole elapsed nanoseconds end within it and `rem` units lie
after the last; the slew in progress goes on and SLEWING clears at its end (R46). -/
def State.elapse (s : State) (d e rem : Nat) : State :=
  let a := s.t16
  let left := s.tb.slewLeft - slewIn s.tb.slewLeft s.slewRate e
  let s1 := { s with tb := { s.tb with
    now := s.tb.now + d, up := s.tb.up + e, rem := rem, clk := s.tb.clk + d, slewLeft := left } }
  let s1 := if s.tb.slewLeft ≠ 0 ∧ left = 0 then s1.wr F.WRS_STATUS_SLEWING 0 else s1
  let tick := s.tickNs s.tb.nextTick * 65536
  if s.running && decide (a < tick) && decide (tick ≤ s1.t16) then
    ((s1.countPauses a tick).freeze.countPauses tick s1.t16).countHoldover
  else (s1.countPauses a s1.t16).countHoldover

/-- Let time pass until Windrose time `target` (units) at DPLL A's frequency with the slew in progress (R45, R46); no effect when it
has passed. -/
def State.advanceTo (s : State) (target : Nat) : State :=
  if s.tb.now < target then
    let d := target - s.tb.now
    let e := s.nsIn (s.tb.rem + d)
    s.elapse d e (s.tb.rem + d - s.unitsIn e)
  else s

/-- Let time pass until elapsed time `up` nanoseconds; no effect when it has passed. -/
def State.advanceUp (s : State) (up : Nat) : State :=
  if s.tb.up < up then let e := up - s.tb.up; s.elapse (s.unitsIn e - s.tb.rem) e 0 else s

/-- `k`/32 ns pass, the resolution of hardware stamps (R38). -/
def State.passPart (s : State) (k : Nat) : State := s.advanceTo (s.tb.now + k * 2048 * tuFrac)

/-- One nanosecond passes on an idle block (log entry 2). -/
def State.idle (s : State) : State := if s.inMode mDORMANT then s else s.advanceUp (s.tb.up + 1)

/-- A period of the 1,562.5 MHz time clock in units (R41). -/
def timeClk : Nat := tuNs / 100 * 64

/-- The time a capture sees: that before a step in the same period of the time clock (R48). -/
def State.capTime (s : State) : Nat :=
  match s.tb.pre with
  | some (c, t) => if s.tb.clk / timeClk = c / timeClk then t + (s.tb.clk - c) else s.tb.now
  | none => s.tb.now

/-- That time in units of 2⁻¹⁶ ns. -/
def State.cap16 (s : State) : Nat := s.capTime / tuFrac

/-! ### Steps of time (R48, R69) -/

/-- A step reaches the performance monitor: the bins in use are SUSPECT, and a forward step applies the closing instants it passes,
but in LULL, where they wait for wake step W6 (R171). -/
def State.pmStep (s : State) (fwd : Bool) : State :=
  let s := { s.pmSuspect with pmLate := none }
  if fwd && !s.inMode mLULL then s.pmCatchUp true (s.ns / 10 ^ 9) else s

/-- Windrose time becomes `t` (units) by a step: TIME_SET and the EG1 event (R48); with Cadence running, STEPPED and
CAD_STEPPED, and a forward step passes over tick numbers (R69), as it does over those before a first tick still to come. A slew in
progress ends (log entry 127). -/
def State.stepTo (s : State) (t : Nat) : State :=
  let fwd := decide (s.tb.now < t)
  let before := s.capTime
  let s := s.thaw.puntStep t
  let s := { s with tb := { s.tb with now := t, slewLeft := 0, pre := some (s.tb.clk, before) } }
  let s := ((s.wr F.WRS_STATUS_SLEWING 0).wr F.WRS_STATUS_TIME_SET 1).raise (eg 1 7)
  let s := s.pmStep fwd
  let n := max s.tb.nextTick (s.tickFrom ((t + (tuFrac - 1)) / tuFrac))
  if !s.running then (if fwd ∧ s.on F.CAD_CTRL_EN then { s with tb := { s.tb with nextTick := n } } else s) else
  let s := (s.wr F.CAD_STATUS_STEPPED 1).raise (eg 2 8)
  if !fwd then s else
  let s := s.wr64 R.CAD_SKIPPED (n - s.tb.nextTick)
  { s with tb := { s.tb with nextTick := n }, shp := { s.shp with owed := s.shp.owed + (n - s.tb.nextTick) } }

/-! ### DPLLs (R42–R44) -/

/-- The entries of a history that its last 60 s need. -/
def trim60 (up : Nat) : List (Nat × Int) → List (Nat × Int)
  | [] => []
  | x :: l => if x.1 + 60 * 10 ^ 9 ≤ up then [x] else x :: trim60 up l

/-- Sum over the last 60 s before `up` of offset × time, of a history newest first whose last value held until `e`. -/
def sum60 (up e : Nat) : List (Nat × Int) → Int
  | [] => 0
  | (t, f) :: l => f * ((e - max t (up - 60 * 10 ^ 9) : Nat) : Int) + sum60 up (min e t) l

/-- The offsets applied from now on enter the histories. -/
def State.noteFreq (s : State) : State :=
  let up := s.tb.up
  { s with tb := { s.tb with histA := trim60 up ((up, s.offA) :: s.tb.histA), histB := trim60 up ((up, s.offB) :: s.tb.histB) } }

/-- A free offset of at most `m` in either direction. -/
def State.drawOffset (s : State) (m : Nat) : Int × State :=
  let (v, s) := s.draw
  (((v.toNat % (2 * m + 1) : Nat) : Int) - m, s)

/-- DPLL A's own loop sets its frequency while a PPS input is selected (R45, log entry 127). -/
def State.loopFreq (s : State) : State :=
  let (f, s) := s.drawOffset (10 ^ 9)
  { s with tb := { s.tb with freqA := f } }.noteFreq

/-- DPLL B follows its reference, within ±20 ppm of TCXO_IN (R41, R43). -/
def State.followB (s : State) : State :=
  let (f, s) := s.drawOffset (2 * 10 ^ 8)
  { s with tb := { s.tb with freqB := f } }.noteFreq

/-- CLK10M_IN has come within limits. -/
def State.followC (s : State) : State :=
  let (f, s) := s.drawOffset (2 * 10 ^ 8)
  { s with tb := { s.tb with freqC := f } }.noteFreq

/-- Move DPLL A to state `n`; a change raises its EG1 event (R42). -/
def State.dpllA (s : State) (n : Nat) : State :=
  if s.rd F.WRS_STATUS_DPLLA_STATE = n then s else
  let s := (s.wr F.WRS_STATUS_DPLLA_STATE n).raise (eg 1 0)
  if n = dLOCKED then { s with tb := { s.tb with lockAtA := s.tb.up } }
  else if n = dHOLDOVER then { s.wr F.WRS_HOLDOVER_SECONDS 0 with tb := { s.tb with holdAt := s.tb.up } }
  else s

/-- Move DPLL B to state `n`. -/
def State.dpllB (s : State) (n : Nat) : State :=
  if s.rd F.WRS_STATUS_DPLLB_STATE = n then s else
  let s := (s.wr F.WRS_STATUS_DPLLB_STATE n).raise (eg 1 1)
  if n = dLOCKED then { s with tb := { s.tb with lockAtB := s.tb.up } } else s

/-- DPLL A leaves LOCKED without its reference: HOLDOVER at the average of its last 60 s, or FREERUN within 60 s of LOCKED (R42). -/
def State.loseA (s : State) : State :=
  let up := s.tb.up
  if s.rd F.WRS_STATUS_DPLLA_STATE ≠ dLOCKED then s
  else if up < s.tb.lockAtA + 60 * 10 ^ 9 then (s.dpllA dFREERUN).noteFreq
  else
    let f := sum60 up up s.tb.histA / (60 * 10 ^ 9)
    ({ s with tb := { s.tb with holdA := f } }.dpllA dHOLDOVER).noteFreq

/-- DPLL B loses its selected reference. -/
def State.loseB (s : State) : State :=
  let up := s.tb.up
  if s.rd F.WRS_STATUS_DPLLB_STATE ≠ dLOCKED then s
  else if up < s.tb.lockAtB + 60 * 10 ^ 9 then (s.dpllB dFREERUN).noteFreq
  else
    let f := sum60 up up s.tb.histB / (60 * 10 ^ 9)
    ({ s with tb := { s.tb with holdB := f } }.dpllB dHOLDOVER).noteFreq

/-- A selected reference of DPLL A is present and qualified: FREERUN and HOLDOVER move to ACQUIRE. -/
def State.gainA (s : State) : State :=
  let d := s.rd F.WRS_STATUS_DPLLA_STATE
  if decide (d = dFREERUN) || decide (d = dHOLDOVER) then (s.dpllA dACQUIRE).loopFreq else s

/-- A selected reference of DPLL B is present and qualified. -/
def State.gainB (s : State) : State :=
  let d := s.rd F.WRS_STATUS_DPLLB_STATE
  if decide (d = dFREERUN) || decide (d = dHOLDOVER) then (s.dpllB dACQUIRE).followB else s

/-- Both DPLLs hold their last frequency (R529); one in FREERUN never enters HOLDOVER (R42, log entry 127). -/
def State.holdLast (s : State) : State :=
  let a := s.offA
  let b := s.offB
  let s := { s with tb := { s.tb with holdA := a, holdB := b } }
  let s := if s.rd F.WRS_STATUS_DPLLA_STATE = dFREERUN then s else s.dpllA dHOLDOVER
  (if s.rd F.WRS_STATUS_DPLLB_STATE = dFREERUN then s else s.dpllB dHOLDOVER).noteFreq

/-- The PPS input DPLL A follows: the one DPLLA_PREF names, or the other after a fallback (R43); none with the servo. -/
def State.ppsA (s : State) : Option Nat :=
  match s.rd F.WRS_CTRL_DPLLA_PREF with
  | 1 => some (if s.tb.fellBack then 1 else 0)
  | 2 => some (if s.tb.fellBack then 0 else 1)
  | _ => none

/-- The servo is selected. -/
def State.servo (s : State) : Bool := decide (s.rd F.WRS_CTRL_DPLLA_PREF = 0)

/-- The REF_OK bit DPLL B follows, by DPLLB_REF: CLK10M_IN or the recovered clock of WRS_RCLK; none otherwise. -/
def State.refB (s : State) : Option Nat :=
  match s.rd F.WRS_CTRL_DPLLB_REF with
  | 1 => some 2
  | 2 => if s.rd F.WRS_RCLK_PORT < 146 then some 3 else none
  | _ => none

/-- REF_OK bit of reference `r`. -/
def State.refOk (s : State) (r : Nat) : Bool := bitN (s.rd F.WRS_STATUS_REF_OK) r

/-- Write a REF_OK bit; a change raises REF_CHANGE (R43). -/
def State.setRef (s : State) (r : Nat) (ok : Bool) : State :=
  if s.refOk r = ok then s else
  let v := s.rd F.WRS_STATUS_REF_OK
  (s.wr F.WRS_STATUS_REF_OK (if ok then setBit v r else v - 2 ^ r)).raise (eg 1 2)

/-- The last edge of PPS input `i`. -/
def State.ppsLast (s : State) (i : Nat) : Option Nat := mget (fun _ => (none : Option Nat)) s.tb.ppsAt i

/-- Since when reference `r` is present. -/
def State.refSeen (s : State) (r : Nat) : Option Nat := mget (fun _ => (none : Option Nat)) s.tb.seenAt r

/-- Note since when reference `r` is present. -/
def State.refSee (s : State) (r : Nat) (t : Option Nat) : State :=
  { s with tb := { s.tb with seenAt := mset (fun _ => none) s.tb.seenAt r t } }

/-- Reference `r` is lost (R43): a PPS input 1.5 s after its last edge; DPLL A may fall back to the other PPS input. A clock counts
as present again from then on. -/
def State.refLost (s : State) (r : Nat) : State :=
  let s := if r < 2 then match s.ppsLast r with | some t => s.advanceUp (t + 15 * 10 ^ 8) | none => s else s
  let up := s.tb.up
  let s := (s.refSee r (if r < 2 then none else some up)).setRef r false
  let s := if s.refB = some r then s.loseB else s
  if s.ppsA = some r then
    if s.on F.WRS_CTRL_PPS_FALLBACK && s.refOk (1 - r) then
      { s.raise (eg 1 3) with tb := { s.tb with fellBack := !s.tb.fellBack } }
    else s.loseA
  else s

/-- Reference `r` becomes qualified once it has been present for 2 s (R43); a PPS input that has shown no edge is not present. DPLL A
stays on the input it fell back to (log entry 127). -/
def State.refQualified (s : State) (r : Nat) : State :=
  if r < 2 ∧ s.refSeen r = none then s else
  let s := (s.advanceUp ((s.refSeen r).getD 0 + 2 * 10 ^ 9)).setRef r true
  let s := if r = 2 then s.followC else s
  let s := if s.refB = some r then s.gainB else s
  if s.ppsA = some r then s.gainA else s

/-- DPLL A or B reports 16 comparisons within limits (R42). -/
def State.dpllLock (s : State) (b : Bool) : State :=
  if b then (if s.rd F.WRS_STATUS_DPLLB_STATE = dACQUIRE then (s.dpllB dLOCKED).followB else s)
  else if s.rd F.WRS_STATUS_DPLLA_STATE = dACQUIRE then
    let s := s.dpllA dLOCKED
    if s.servo then s.noteFreq else s.loopFreq
  else s

/-! ### Software servo (R45–R47) -/

/-- The offset limit, ±100 ppm in 10⁻¹³. -/
def adjLimit : Int := 10 ^ 9

/-- Apply the stored WRS_ADJ_FREQ to DPLL A, clamped (R45). -/
def State.applyFreq (s : State) : State :=
  let f := sx 32 (s.rd F.WRS_ADJ_FREQ_FREQ)
  let c := if f < -adjLimit then -adjLimit else if adjLimit < f then adjLimit else f
  let s := { s with tb := { s.tb with freqA := c } }.noteFreq
  if c = f then s else (s.wr F.WRS_STATUS_ADJ_CLAMP 1).raise (eg 1 5)

/-- A servo write: DPLL A in HOLDOVER counts the servo as qualified again (R42); in FREERUN it stays there (R42, R133, log entry
117). -/
def State.servoBack (s : State) : State :=
  if s.rd F.WRS_STATUS_DPLLA_STATE = dHOLDOVER then (s.dpllA dACQUIRE).noteFreq else s

/-- A write of WRS_ADJ_FREQ, after the register holds it: applied while the servo is selected, stored otherwise (R45). -/
def State.adjFreqWritten (s : State) : State := if s.servo then s.applyFreq.servoBack else s

/-- A phase correction of `ps` picoseconds (R46, R47, R48). -/
def State.phaseCorrect (s : State) (ps : Int) : State :=
  if !s.servo then s else
  let s := s.servoBack
  let d : Int := ps * (tuPs : Int)
  if ps.natAbs ≤ s.rd F.WRS_SLEW_WINDOW * 1000 then
    let s := { s with tb := { s.tb with slewLeft := d } }
    s.wr F.WRS_STATUS_SLEWING (b2n (decide (d ≠ 0)))
  else if !s.on F.CAD_CTRL_EN || s.on F.WRS_CTRL_STEP_EN then s.stepTo ((s.tb.now : Int) + d).toNat
  else (s.wr F.WRS_STATUS_ADJ_REJECT 1).raise (eg 1 4)

/-- A slew finishes: the time that what is left of it takes at RATE has passed (R46). -/
def State.slewDone (s : State) : State :=
  if !s.on F.WRS_STATUS_SLEWING then s
  else (s.advanceUp (s.tb.up + (s.tb.slewLeft.natAbs + (s.slewRate - 1)) / s.slewRate)).wr F.WRS_STATUS_SLEWING 0

/-! ### Time-set (R37, R48) -/

/-- The time in WRS_TIME_SET, in units. -/
def State.timeSetValue (s : State) : Nat :=
  let sec := s.rd F.WRS_TIME_SET_SECONDS_LO + s.rd F.WRS_TIME_SET_SECONDS_HI * 2 ^ 32
  (sec * 10 ^ 9 + s.rd F.WRS_TIME_SET_NANOSECONDS) * tuNs + s.rd F.WRS_TIME_SET_FRACTION * tuFrac

/-- The EG1 event and status of a rejected time-set. -/
def State.setErr (s : State) : State := (s.wr F.WRS_STATUS_SET_ERR 1).raise (eg 1 6)

/-- Apply the time-set, or discard it while Cadence runs without STEP_EN, or where its value has come out of range; GO clears
(R37, R48). -/
def State.timeSetApply (s : State) : State :=
  let s := s.wr F.WRS_SET_CTRL_GO 0
  if 10 ^ 9 ≤ s.rd F.WRS_TIME_SET_NANOSECONDS then s.setErr
  else if !s.on F.CAD_CTRL_EN || s.on F.WRS_CTRL_STEP_EN then s.stepTo s.timeSetValue else s.setErr

/-- A write of 1 to WRS_SET_CTRL.GO, after AT_PPS holds its value: an out-of-range value is ignored (R37), AT_PPS arms,
otherwise the set applies at once. -/
def State.timeSetGo (s : State) : State :=
  if s.on F.WRS_SET_CTRL_GO then s
  else if 10 ^ 9 ≤ s.rd F.WRS_TIME_SET_NANOSECONDS then s.setErr
  else if s.on F.WRS_SET_CTRL_AT_PPS then s.wr F.WRS_SET_CTRL_GO 1
  else s.timeSetApply

/-- The PPS input an armed time-set waits for (R48): the one DPLLA_PREF names, PPS_IN0 with the servo. -/
def State.setPps (s : State) : Nat := if s.rd F.WRS_CTRL_DPLLA_PREF = 2 then 1 else 0

/-- Write the four words of a WRS_TIME-shaped register. -/
def State.wrTime (s : State) (r : Reg) (t16 : Nat) : State :=
  match timeWords t16 with
  | [a, b, c, d] => (((s.wrw r.addr a).wrw (r.addr + 4) b).wrw (r.addr + 8) c).wrw (r.addr + 12) d
  | _ => s

/-- A rising edge on PPS input `i`: captured with the time before any step, then an armed time-set applies (R43, R48). The input is
present from its first edge after a gap of 1.5 s. -/
def State.ppsEdge (s : State) (i : Nat) : State :=
  let up := s.tb.up
  let gap : Bool := match s.ppsLast i with | some t => decide (t + 15 * 10 ^ 8 < up) | none => true
  let s := if gap || (s.refSeen i).isNone then s.refSee i (some up) else s
  let s := { s with tb := { s.tb with ppsAt := mset (fun _ => none) s.tb.ppsAt i (some up) } }
  let s := s.wrTime (R.WRS_PPS_IN_STAMP.at i) (stamp16 s.cap16)
  let s := if s.ppsA = some i then s.loopFreq else s
  if s.on F.WRS_SET_CTRL_GO && decide (s.setPps = i) then s.timeSetApply else s

/-- A pulse on PPS_OUT `n` at the next whole second plus OFFSET, under R79. -/
def State.ppsOut (s : State) (n : Nat) : State :=
  if (s.inMode mRUN || s.inMode mLULL) && s.on (F.WRS_PPS_OUT_EN.at n) && s.on F.WRS_STATUS_TIME_SET then
    let sec := (s.ns + (10 ^ 9 - 1)) / 10 ^ 9
    let s := s.advanceTo (sec * 10 ^ 9 * tuNs)
    s.emit (.ppsOut n ((sec * 10 ^ 9 * 65536 : Int) + sx 16 (s.rd (F.WRS_PPS_OUT_OFFSET.at n)) * 2048)
      (max 1 (s.rd (F.WRS_PPS_OUT_WIDTH.at n))))
  else s

/-- Reference selection as it stands after a write of WRS_CTRL or WRS_RCLK, `old` being the state before (R42, R45). -/
def State.refsWritten (old s : State) : State :=
  let s := if old.rd F.WRS_CTRL_DPLLB_REF = s.rd F.WRS_CTRL_DPLLB_REF && old.rd F.WRS_RCLK_PORT = s.rd F.WRS_RCLK_PORT then s
    else match s.refB with
      | none => s.dpllB dFREERUN
      | some r => if s.refOk r then s.gainB else s.loseB
  if old.rd F.WRS_CTRL_DPLLA_PREF = s.rd F.WRS_CTRL_DPLLA_PREF then s.noteFreq
  else
    let s := { s with tb := { s.tb with fellBack := false } }
    match s.ppsA with
    | some r => let s := s.loopFreq; if s.refOk r then s.gainA else s.loseA
    | none => if s.servo then s.applyFreq else s

/-- CLK10M_OUT and SYNCE_OUT0–3 are driven: from step 5 of ASCENT, in RUN and in LULL (R78, R99). -/
def State.clocksOn (s : State) : Bool :=
  (s.inMode mASCENT && decide (5 ≤ s.rd F.MOD_STATUS_STEP)) || s.inMode mRUN || s.inMode mLULL

/-- CLK10M_OUT runs, from DPLL A (WRS_CLKOUT). -/
def State.clk10mOut (s : State) : Bool := s.clocksOn && s.on F.WRS_CLKOUT_CLK10M_EN

/-- Frequency of SYNCE_OUT `n` in Hz with its offset in 10⁻¹³, from DPLL B (R41, WRS_CLKOUT); none when off. -/
def State.synceOut (s : State) (n : Nat) : Option (Nat × Int) :=
  if !s.clocksOn then none
  else match bits (s.rd F.WRS_CLKOUT_SYNCE_SEL) (2 * n + 1) (2 * n) with
    | 1 => some (156250000, s.offB)
    | 2 => some (25000000, s.offB)
    | 3 => some (10000000, s.offB)
    | _ => none

/-! ### Two-step FIFO (R53) -/

/-- Show the head of the two-step FIFO in WRS_TSF and its level in WRS_TSF_STATUS. -/
def State.showTsf (s : State) : State :=
  let s := s.wr F.WRS_TSF_STATUS_LEVEL s.tsf.length
  match s.tsf with
  | [] => (((s.wrw R.WRS_TSF.addr 0).wrw (R.WRS_TSF.addr + 4) 0).wrw (R.WRS_TSF.addr + 8) 0).wrw (R.WRS_TSF.addr + 12) 0
  | e :: _ =>
    let w := timeWords e.stamp
    let a := R.WRS_TSF.addr
    let s := s.wrw a (BitVec.ofNat 32 (2 ^ 31 + e.domain % 256 * 2 ^ 16 + e.port % 256 * 2 ^ 8 + e.msg % 16))
    let s := s.wrw (a + 4) (BitVec.ofNat 32 (e.seq % 65536 * 2 ^ 16 + e.stamp % 65536 / 2048 * 2048))
    (s.wrw (a + 8) (w.getD 1 0)).wrw (a + 12) (w.getD 2 0)

/-- Push a two-step entry; a full FIFO discards it (R53). -/
def State.tsfPush (s : State) (e : TsfEntry) : State :=
  if 4096 ≤ s.tsf.length then (s.satInc F.WRS_TSF_STATUS_DROPPED).raise (eg 1 8)
  else ({ s with tsf := s.tsf ++ [e] }.showTsf).raise (eg 1 9)

/-- Pop the head of the two-step FIFO. -/
def State.tsfPop (s : State) : State := { s with tsf := s.tsf.tail }.showTsf

/-! ### Lane calibration (R59–R61) -/

/-- Write a lane's measured delays. -/
def State.setLane (s : State) (c : LaneCal) : State :=
  (s.wr (F.WRS_LANE_RXDLY.at c.lane) c.rx).wr (F.WRS_LANE_TXDLY.at c.lane) c.tx

/-- The difference of two delays exceeds THRESH picoseconds. -/
def State.calExceeds (s : State) (a b : Nat) : Bool :=
  decide (s.rd F.WRS_CAL_THRESH * 65536 < ((a : Int) - (b : Int)).natAbs * 1000)

/-- Background results arrive, INTERVAL milliseconds after the last; they wait for the next tick (R59, R60). -/
def State.recal (s : State) (l : List LaneCal) : State :=
  if !s.on F.WRS_CAL_EN then s else
  let s := s.advanceUp (s.tb.calAt + s.rd F.WRS_CAL_INTERVAL * 10 ^ 6)
  let up := s.tb.up
  let old := s.tb.calNext.filter (fun c => !l.any (fun d => d.lane == c.lane))
  { s.wrapInc F.WRS_CAL_STATUS_PASSES with tb := { s.tb with calNext := old ++ l, calAt := up } }

/-- At a tick, pending results replace the values in use, with the EG1 event above THRESH (R60). -/
def State.calApply (s : State) : State :=
  let s1 := foldS s.tb.calNext (fun c s =>
    let big := s.calExceeds c.rx (s.rd (F.WRS_LANE_RXDLY.at c.lane)) || s.calExceeds c.tx (s.rd (F.WRS_LANE_TXDLY.at c.lane))
    let s := s.setLane c
    if big then (s.wr F.WRS_CAL_STATUS_LAST_LANE c.lane).raise (eg 1 10) else s) s
  { s1 with tb := { s1.tb with calNext := [] } }

/-- The ingress stamp of a bit seen on `lane` at the capture point now, in 2⁻¹⁶ ns (R38, R61). -/
def State.ingressStamp (s : State) (lane : Nat) : Nat :=
  stamp16 ((s.cap16 : Int) - s.rd (F.WRS_LANE_RXDLY.at lane) - sx 32 (s.rd (F.WRS_LANE_TRIM.at lane))).toNat

/-- The egress stamp of a bit launched on `lane` now, in 2⁻¹⁶ ns (R38, R61). -/
def State.egressStamp (s : State) (lane : Nat) : Nat :=
  stamp16 ((s.cap16 : Int) + s.rd (F.WRS_LANE_TXDLY.at lane) + sx 32 (s.rd (F.WRS_LANE_TRIM.at lane))).toNat

/-! ### Cadence (R63–R65, R69, R73) -/

/-- CFG_ERR with its EG2 event. -/
def State.cadCfgErr (s : State) : State := (s.wr F.CAD_STATUS_CFG_ERR 1).raise (eg 2 9)

/-- A write of CAD_CTRL.EN (R65). -/
def State.cadEn (s : State) (v : Bool) : State :=
  if v then
    if !s.on F.WRS_STATUS_TIME_SET then s.cadCfgErr
    else if s.on F.CAD_CTRL_EN then s
    else
      let s := s.wr F.CAD_CTRL_EN 1
      { s with tb := { s.tb with nextTick := s.tickFrom (s.t16 + 2000 * 65536) } }
  else (s.thaw.wr F.CAD_CTRL_EN 0).wr F.CAD_STATUS_RUNNING 0

/-- A write of CAD_PERIOD (R64). -/
def State.cadPeriod (s : State) (v : Nat) : State :=
  if s.on F.CAD_CTRL_EN || decide (v < 250) || decide (1000000 < v) || decide (v ≤ s.rd F.CAD_PHASE_PHASE) then s.cadCfgErr
  else s.wr F.CAD_PERIOD_PERIOD v

/-- A write of CAD_PHASE (R64). -/
def State.cadPhase (s : State) (v : Nat) : State :=
  if s.on F.CAD_CTRL_EN || decide (s.rd F.CAD_PERIOD_PERIOD ≤ v) then s.cadCfgErr
  else s.wr F.CAD_PHASE_PHASE v

/-- Cadence issues its next tick: time reaches the tick's instant, CAD_TICK counts and RUNNING rises (R63, R65). -/
def State.issueTick (s : State) : State :=
  let n := s.tb.nextTick
  let s := s.advanceTo (s.tickNs n * tuNs)
  let s := (s.wr64 R.CAD_TICK n).wr F.CAD_STATUS_RUNNING 1
  { s with tb := { s.tb with nextTick := n + 1 } }

/-- Unit `i` ends a tick with spilled work (R73). -/
def State.overrun (s : State) (i : Nat) : State :=
  let v := s.rd F.CAD_OVR_OVR
  ((s.wr F.CAD_OVR_OVR (setBit v i)).satInc (F.CAD_OVR_CNT_COUNT.at i)).raise (eg 2 i)

/-- A change named for tick `n`: already passed, so late (the next tick serves). -/
def State.tickPassed (s : State) (n : Nat) : Bool := decide (n < s.tb.nextTick)

end Sys2Proof.Machine
end

