-- ==== Sys2Proof/Machine/Bypass.lean ====
section
/-! DEFINITION. The bypass state machines of the two tether ports (R95–R98). -/

namespace Sys2Proof.Machine

/-- Bypass states of R96. -/
def bCLOSED : Nat := 0
/-- LOOP_CHECK. -/
def bLOOP_CHECK : Nat := 1
/-- OPENING. -/
def bOPENING : Nat := 2
/-- OPEN. -/
def bOPEN : Nat := 3
/-- BACKOFF. -/
def bBACKOFF : Nat := 4

/-- MOD_BYP_STATUS.STATEn. -/
def fBypState (n : Nat) : Fld := if n = 0 then F.MOD_BYP_STATUS_STATE0 else F.MOD_BYP_STATUS_STATE1
/-- MOD_BYP_STATUS.PINn. -/
def fBypPin (n : Nat) : Fld := if n = 0 then F.MOD_BYP_STATUS_PIN0 else F.MOD_BYP_STATUS_PIN1
/-- MOD_BYP_STATUS.FAILSn. -/
def fBypFails (n : Nat) : Fld := if n = 0 then F.MOD_BYP_STATUS_FAILS0 else F.MOD_BYP_STATUS_FAILS1
/-- MOD_BYP_CTRL.ENn. -/
def fBypEn (n : Nat) : Fld := if n = 0 then F.MOD_BYP_CTRL_EN0 else F.MOD_BYP_CTRL_EN1
/-- MOD_BYP_CTRL.FORCE_CLOSEn. -/
def fBypForce (n : Nat) : Fld := if n = 0 then F.MOD_BYP_CTRL_FORCE_CLOSE0 else F.MOD_BYP_CTRL_FORCE_CLOSE1

/-- State of bypass `n`. -/
def State.byp (s : State) (n : Nat) : Nat := s.rd (fBypState n)

/-- LPT_STATUS.LINK of a port. -/
def State.link (s : State) (port : Nat) : Bool := s.on (F.LPT_STATUS_LINK.at port)

/-- Update one bypass' timers. -/
def State.bypT (s : State) (n : Nat) (f : BypTimers → BypTimers) : State :=
  if n = 0 then { s with byp0 := f s.byp0 } else { s with byp1 := f s.byp1 }

/-- The timers of bypass `n`. -/
def State.bypTimers (s : State) (n : Nat) : BypTimers := if n = 0 then s.byp0 else s.byp1

/-- Enter bypass state `st`: the pin follows (high only in OPENING and OPEN), a change raises its EG3 event (R96). -/
def State.bypEnter (s : State) (n st : Nat) : State :=
  if s.byp n = st then s else
  let pin := b2n (decide (st = bOPENING) || decide (st = bOPEN))
  let s := ((s.wr (fBypState n) st).wr (fBypPin n) pin).raise (eg 3 (3 + n))
  let up := s.tb.up
  s.bypT n (fun t => { t with
    since := up
    loopUp := if st = bLOOP_CHECK && s.link (144 + n) then some up else none })

/-- Conditions under which CLOSED leaves to LOOP_CHECK (R96). -/
def State.bypMayCheck (s : State) (n : Nat) : Bool :=
  ((s.inMode mASCENT && decide (s.rd F.MOD_STATUS_STEP = 7)) || s.inMode mRUN || s.inMode mLULL)
  && s.on (fBypEn n) && !s.on (fBypForce n)

/-- CLOSED leaves to LOOP_CHECK when it may. -/
def State.bypEval (s : State) (n : Nat) : State :=
  if decide (s.byp n = bCLOSED) && s.bypMayCheck n then s.bypEnter n bLOOP_CHECK else s

/-- Close bypass `n` (R97): the pin falls and, where the Keeper acts, the transmitter stays on for tBYP_HOLD. -/
def State.bypClose (s : State) (n : Nat) (keeper : Bool) : State :=
  let high := s.on (fBypPin n)
  let s := s.bypEnter n bCLOSED
  if high && keeper then let up := s.tb.up; s.bypT n (fun t => { t with hold := some up }) else s

/-- A write of MOD_BYP_CTRL, after the register holds it, `old` being the state before (R97). -/
def State.bypCtrlWritten (old s : State) (n : Nat) : State :=
  let closes := (!old.on (fBypForce n) && s.on (fBypForce n)) || (old.on (fBypEn n) && !s.on (fBypEn n))
  if closes then s.bypClose n true else s.bypEval n

/-- The loop link has been up for SETTLE (R96). -/
def State.bypSettled (s : State) (n : Nat) : State :=
  match (s.bypTimers n).loopUp with
  | some t =>
    if decide (s.byp n = bLOOP_CHECK) && (s.inMode mRUN || s.inMode mLULL) && s.link (144 + n) then
      (s.advanceUp (t + s.rd F.MOD_BYP_CTRL_SETTLE * 10 ^ 7)).bypEnter n bOPENING
    else s
  | none => s

/-- No neighbour link within RELINK (R96). -/
def State.bypRelink (s : State) (n : Nat) : State :=
  if s.byp n = bOPENING then
    ((s.advanceUp ((s.bypTimers n).since + s.rd F.MOD_BYP_CTRL_RELINK * 10 ^ 6)).satInc (fBypFails n)).bypEnter n bBACKOFF
  else s

/-- RETRY has elapsed in BACKOFF (R96). -/
def State.bypRetry (s : State) (n : Nat) : State :=
  if s.byp n = bBACKOFF then
    (s.advanceUp ((s.bypTimers n).since + s.rd F.MOD_BYP_CTRL_RETRY * 10 ^ 9)).bypEnter n bLOOP_CHECK
  else s

/-- The tether transmitter of port 144 + n is switched on or off. -/
def State.tetherTx (s : State) (n : Nat) (on : Bool) : State :=
  { s with portSt := mupd (fun _ => {}) s.portSt (144 + n) (fun p => { p with txOn := on }) }

/-- Bypass `n` closes as its mode is left by a command (R97): the transmitter stays on for tBYP_HOLD after the pin falls, and goes off
at once where the pin was low. -/
def State.bypShut (s : State) (n : Nat) : State := if s.on (fBypPin n) then s.bypClose n true else (s.bypEnter n bCLOSED).tetherTx n false

/-- A hold in progress has passed: the transmitter may be reset. -/
def State.bypWait (s : State) (n : Nat) : State :=
  match (s.bypTimers n).hold with | some t => s.advanceUp (t + 5 * 10 ^ 6) | none => s

/-- tBYP_HOLD after the pin fell: the transmitter goes off where the mode does not keep the tether ports on (R78, R97,
log entry 12). -/
def State.bypHoldEnd (s : State) (n : Nat) : State :=
  match (s.bypTimers n).hold with
  | none => s
  | some t =>
    let s := (s.advanceUp (t + 5 * 10 ^ 6)).bypT n (fun t => { t with hold := none })
    if s.inMode mRUN || s.inMode mLULL then s else s.tetherTx n false

/-- The tether link rises: OPENING becomes OPEN, LOOP_CHECK starts SETTLE (R96). -/
def State.bypLinkUp (s : State) (n : Nat) : State :=
  if s.byp n = bOPENING then s.bypEnter n bOPEN
  else if s.byp n = bLOOP_CHECK then let up := s.tb.up; s.bypT n (fun t => { t with loopUp := some up })
  else s

/-- The tether link falls: a loss in OPEN raises TPn_LOST_OPEN and changes nothing, LOOP_CHECK starts again (R96). -/
def State.bypLinkDown (s : State) (n : Nat) : State :=
  if s.byp n = bOPEN then s.raise (eg 3 (5 + n))
  else s.bypT n (fun t => { t with loopUp := none })

end Sys2Proof.Machine
end

