-- ==== Sys2Proof/Machine/Gates.lean ====
section
/-! DEFINITION. Time gates (R393–R400): the governing entry, open runs, MAXOPEN, and the GAT commands on lists. -/

namespace Sys2Proof.Machine

/-- Key of a gate instance: port lists 0–145, stream gate instances from 1,024. -/
def gateKey (space i : Nat) : Nat := if space = 0 then i else 1024 + i

/-- A gate instance. -/
def State.gateI (s : State) (k : Nat) : GateInst := mget (fun _ => {}) s.gate k

/-- Update a gate instance. -/
def State.gateUpd (s : State) (k : Nat) (f : GateInst → GateInst) : State :=
  { s with gate := mupd (fun _ => {}) s.gate k f }

/-- A gate of a list entry is open: bit c of GATES of a port list, OPEN of a stream list. -/
def gateBit (k w c : Nat) : Bool := if k < 1024 then bitN w c else bitN w 8

/-- Entry `j` of a list. -/
def GList.ent (l : GList) (j : Nat) : Nat × Nat := mget (fun _ => (0, 0)) l.ents j

/-- The segments (start, end, word) of a list's entries from `j` on, cut at the cycle's end, the last one held to it
(R393). -/
def GList.segsFrom (l : GList) : Nat → Nat → Nat → List (Nat × Nat × Nat)
  | 0, _, _ => []
  | n + 1, j, a =>
    if l.cycle ≤ a then []
    else
      let (iv, w) := l.ent j
      if n = 0 then [(a, l.cycle, w)]
      else (a, min (a + iv) l.cycle, w) :: GList.segsFrom l n (j + 1) (a + iv)

/-- The segments of one cycle. -/
def GList.segs (l : GList) : List (Nat × Nat × Nat) := l.segsFrom l.len 0 0

/-- Instant of an instance's BASE tick in ns. -/
def State.gateBase (s : State) (g : GateInst) : Nat := s.tickNs g.base

/-- Offset of instant `t` (ns) in the cycle of a list whose cycles start at `b` (R393). -/
def GList.offset (l : GList) (b t : Nat) : Nat := (((t : Int) - (b : Int)) % (l.cycle : Int)).toNat

/-- The segment that governs offset `o`. -/
def GList.segAt (l : GList) (o : Nat) : Nat × Nat × Nat :=
  (l.segs.find? (fun x => decide (x.1 ≤ o) && decide (o < x.2.1))).getD (0, 0, 0)

/-- The word that governs a list at instant `t`. -/
def GList.word (l : GList) (b t : Nat) : Nat := (l.segAt (l.offset b t)).2.2

/-- The list of an instance that governs instant `t` (ns), with the instant its cycles start at: the operating list, or for what
is stamped before it took effect the one before it (R67); none while no list is ACTIVE. -/
def State.gateGov (s : State) (g : GateInst) (t : Nat) : Option (GList × Nat) :=
  if t * 65536 < g.since ∧ g.since ≤ s.t16 then g.prev.map (fun (x : GList × Nat) => (x.1, s.tickNs x.2))
  else if g.active then some (g.oper, s.gateBase g) else none

/-- Gate `c` of an instance is open at instant `t` (ns): every gate of a list that is not ACTIVE is open. -/
def State.gateOpenOf (s : State) (g : GateInst) (k c t : Nat) : Bool :=
  match s.gateGov g t with
  | some (l, b) => gateBit k (l.word b t) c
  | none => true

/-- End of the open run that goes on from the front of a list of segments; `none` when none of them closes. -/
def runEnd (k c : Nat) : List (Nat × Nat × Nat) → Option Nat
  | [] => none
  | x :: l => if gateBit k x.2.2 c then runEnd k c l else some x.1

/-- Length of the open run of gate `c` of a list from offset `o`, where it is open; `none` when it lasts a whole cycle
(R397). -/
def GList.openFor (l : GList) (k c o : Nat) : Option Nat :=
  let segs := l.segs
  let rest := segs.filter (fun x => decide (o < x.2.1))
  match runEnd k c rest with
  | some e => some (e - o)
  | none => match runEnd k c segs with
    | some e => if o ≤ e then none else some (l.cycle - o + e)
    | none => none

/-- MAXOPEN of gate `c` of a list (R398): its longest open run in one cycle, wrap included; 0xFFFF_FFFF never closes. -/
def GList.maxOpenOf (l : GList) (k c : Nat) : Nat :=
  l.segs.foldl (fun m x =>
    if gateBit k x.2.2 c then
      match l.openFor k c x.1 with
      | none => 2 ^ 32 - 1
      | some d => max m d
    else m) 0

/-- MAXOPEN of every gate of an instance's list. -/
def GList.maxOpens (l : GList) (k : Nat) : List Nat :=
  if k < 1024 then (List.range 8).map (fun c => l.maxOpenOf k c) else [l.maxOpenOf k 0]

/-- The last open-to-closed transition of gate `c` of an instance before `t16` (2⁻¹⁶ ns), if it has made one: in the operating
list since it governs, else the one recorded for the lists before it (R361). -/
def State.lastCloseOf (s : State) (g : GateInst) (k c t16 : Nat) : Option Nat :=
  let kept := g.lastClose.getD c none
  if !g.active then kept else
  let b := s.gateBase g
  let t := (t16 + 65535) / 65536 - 1
  let o := g.oper.offset b t
  let closes := g.oper.segs.filter (fun x => !gateBit k x.2.2 c &&
    gateBit k (g.oper.segAt ((x.1 + g.oper.cycle - 1) % g.oper.cycle)).2.2 c)
  let inCycle := (closes.filter (fun x => decide (x.1 ≤ o))).getLast?
  let last : Option Int := match inCycle with
    | some x => some ((t : Int) - ((o - x.1 : Nat) : Int))
    | none => closes.getLast?.map (fun x => (t : Int) - ((o + g.oper.cycle - x.1 : Nat) : Int))
  match last with
  | some n => if (g.since : Int) < n * 65536 then some (n.toNat * 65536) else kept
  | none => kept

/-- An instance whose administrative list becomes operating with BASE tick `b` at the instant `at_` (2⁻¹⁶ ns) (R394 step 3). -/
def State.gateTo (s : State) (g : GateInst) (k b at_ : Nat) : GateInst :=
  let closes := (List.range (if k < 1024 then 8 else 1)).map (fun c =>
    if s.gateOpenOf g k c (at_ / 65536 - 1) && !gateBit k (g.adm.word (s.tickNs b) (at_ / 65536)) c then some at_
    else s.lastCloseOf g k c at_)
  { g with
    oper := g.adm, base := b, active := true, maxOpen := g.adm.maxOpens k, since := at_, lastClose := closes, due := none
    prev := if g.active then some (g.oper, g.base) else none }

/-- An instance as it governs now: a switch whose tick has come governs from the instant of that tick, though its work is still
to be done (R66, R67). -/
def State.gateCur (s : State) (k : Nat) : GateInst :=
  let g := s.gateI k
  match g.due with
  | some n => { s.gateTo g k n (s.tickNs n * 65536) with copyDue := true }
  | none => g

/-- The instant in ns from which a switch that is pending governs: that of its tick, or of the next tick to be issued. -/
def State.gateNext (s : State) (g : GateInst) : Option Nat :=
  if g.pending && !g.copyDue && s.running then some (s.tickNs (max g.swTick s.tb.nextTick)) else none

/-- The list that will govern instant `t` (ns) of instance `k`, a pending switch included (R67, R397). -/
def State.gateAt (s : State) (k t : Nat) : Option (GList × Nat) :=
  let g := s.gateCur k
  match s.gateNext g with
  | some w => if w ≤ t then some (g.adm, w) else s.gateGov g t
  | none => s.gateGov g t

/-- Second word of the entry that governs an instance at instant `t` (ns); 0 where no list does. -/
def State.gateWord (s : State) (k t : Nat) : Nat :=
  match s.gateAt k t with
  | some (l, b) => l.word b t
  | none => 0

/-- Gate `c` of instance `k` is open at instant `t` (ns): every gate of a list that is not ACTIVE is open. -/
def State.gateOpen (s : State) (k c t : Nat) : Bool :=
  match s.gateAt k t with
  | some (l, b) => gateBit k (l.word b t) c
  | none => true

/-- End of the open run of gate `c` that contains `p` (ns), across a pending switch; `none` when unbounded (R397). -/
def State.gateEnd (s : State) (k c p : Nat) : Option Nat :=
  let g := s.gateCur k
  let run : Option Nat := match s.gateAt k p with
    | some (l, b) => (l.openFor k c (l.offset b p)).map (· + p)
    | none => none
  match s.gateNext g with
  | none => run
  | some w =>
    let early := match run with
      | some e => decide (e < w)
      | none => g.active && decide (p + g.oper.cycle ≤ w)
    if decide (w ≤ p) || early then run
    else if gateBit k (g.adm.word w w) c then (g.adm.openFor k c 0).map (· + w) else some w

/-- MAXOPEN of gate `c`: unbounded where no list is ACTIVE. -/
def State.gateMax (s : State) (k c : Nat) : Nat :=
  let g := s.gateCur k
  if g.active then g.maxOpen.getD (if k < 1024 then c else 0) 0 else 2 ^ 32 - 1

/-- The last open-to-closed transition of gate `c` before `t16` (2⁻¹⁶ ns), if it has made one (R361). -/
def State.lastCloseBefore (s : State) (k c t16 : Nat) : Option Nat := s.lastCloseOf (s.gateCur k) k c t16

/-- A list is well formed for SWITCH (R410). -/
def GList.ok (l : GList) (k : Nat) : Bool :=
  decide (1 ≤ l.len) && decide (l.len ≤ (if k < 1024 then 1024 else 128))
  && decide (1000 ≤ l.cycle) && decide (l.cycle ≤ 10 ^ 9)
  && (List.range l.len).all (fun j =>
    let (iv, w) := l.ent j
    decide (1 ≤ iv) && decide (iv ≤ 10 ^ 9) && decide (w &&& (if k < 1024 then 0xFF else 0x10F) = w))

/-! ### Commands on lists (R394, R395, R410, R412) -/

/-- Set a bit of GAT_EVT. -/
def State.gatEvt (s : State) (f : Fld) : State := s.setEvt R.GAT_EVT R.GAT_EVT_EN f (eg 12 1)

/-- Word `i` of GAT_IND_DATA. -/
def State.gatW (s : State) (i : Nat) : Nat := s.rdr (R.GAT_IND_DATA.at i)

/-- Show words in GAT_IND_DATA, the rest zero. -/
def State.gatShow (s : State) (l : List Nat) : State :=
  foldS (List.range 24) (fun i s => s.wrr (R.GAT_IND_DATA.at i) (l.getD i 0)) s

/-- Completion of a GAT command (R412, R519). -/
def State.gatDone (s : State) (err : Nat) : State :=
  ((s.wr F.GAT_IND_CMD_OP 0).wr F.GAT_IND_STATUS_ERR err).wr F.GAT_IND_STATUS_DONE 1

/-- INDEX and ENTRY are in range for SPACE (R412). -/
def gatIndexOk (space i j : Nat) (entry : Bool) : Bool :=
  match space with
  | 0 => decide (i < 146) && (!entry || decide (j < 1024))
  | 1 => decide (i < 1024) && (!entry || decide (j < 128))
  | 2 => true
  | _ => false

/-- The two words of a list entry as commands carry them. -/
def GList.show (l : GList) (j : Nat) : List Nat := [(l.ent j).1, (l.ent j).2]

/-- The 16 words of a list header (R410). -/
def GateInst.header (g : GateInst) : List Nat :=
  [g.adm.cycle, g.adm.len, g.swTick % 2 ^ 32, g.swTick / 2 ^ 32, g.oper.cycle,
    b2n g.active * 2 ^ 31 + b2n g.pending * 2 ^ 30 + b2n g.late * 2 ^ 29 + g.oper.len, g.base % 2 ^ 32, g.base / 2 ^ 32]
    ++ (List.range 8).map (fun c => g.maxOpen.getD c 0)

/-- SWITCH (R394, R395): the list is checked and the switch is pending for its tick, or the next one. -/
def State.gatSwitch (s : State) (k : Nat) : State :=
  let g := s.gateI k
  if g.pending then s.gatDone 4
  else if !s.running then s.gatDone 3
  else if !g.adm.ok k then s.gatDone 2
  else
    let late := s.tickPassed g.swTick
    (s.gateUpd k (fun g => { g with pending := true, late := late, due := none })).gatDone 0

/-- RESTORE (R394): step 3 at once with BASE = SWITCH_TICK. -/
def State.gatRestore (s : State) (k : Nat) : State :=
  let g := s.gateI k
  if g.active then s.gatDone 4 else if !g.adm.ok k then s.gatDone 2 else 
    (s.gateUpd k (fun g => s.gateTo g k g.swTick s.t16)).gatDone 0

/-- A GAT command on a list of SPACE 0 or 1 (R394). -/
def State.gatList (s : State) (op space i j : Nat) : State :=
  let k := gateKey space i
  let g := s.gateI k
  if !gatIndexOk space i j (op == 1 || op == 2 || op == 3) then s.gatDone 1
  else match op with
    | 1 =>
      if g.pending then s.gatDone 4
      else (s.gateUpd k (fun g => { g with adm := { g.adm with
          ents := mset (fun _ => (0, 0)) g.adm.ents j (s.gatW 0, s.gatW 1) } })).gatDone 0
    | 2 => (s.gatShow (g.adm.show j)).gatDone 0
    | 3 => (s.gatShow (g.oper.show j)).gatDone 0
    | 4 =>
      if g.pending then s.gatDone 4
      else (s.gateUpd k (fun g => { g with
          adm := { g.adm with cycle := s.gatW 0 % 2 ^ 30, len := s.gatW 1 % 2 ^ 11 }
          swTick := s.gatW 2 + s.gatW 3 * 2 ^ 32 })).gatDone 0
    | 5 => (s.gatShow g.header).gatDone 0
    | 6 => s.gatSwitch k
    | 7 =>
      let reached := match s.gateNext g with | some w => decide (w ≤ s.ns) | none => false
      (s.gateUpd k (fun g => if g.pending && !g.copyDue && g.due.isNone && !reached then { g with pending := false } else g)).gatDone 0
    | 8 => s.gatRestore k
    | _ => s.gatDone 5

/-! ### Switching at a tick (R394, R395) -/

/-- Pending switches whose tick is at or before `n`, in ascending order of space and index. -/
def State.gateDue (s : State) (n : Nat) : List Nat :=
  (s.gate.filter (fun x => x.2.pending && !x.2.copyDue && x.2.due.isNone && decide (x.2.swTick ≤ n))).map (·.1)

/-- Work of the gate unit at tick `n`: 256 switches take effect, those left over from the tick before first, which is reported
then; the others come at the next tick with TICK_LATE (R73, R395). -/
def State.gateTick (s : State) (n : Nat) : State :=
  let due := s.gateDue n
  let spilled := s.gateSpill.filter due.contains
  let s := if spilled.isEmpty then s else s.overrun 1
  let l := spilled ++ due.filter (fun k => !spilled.contains k)
  let s := foldS (l.take 256) (fun k s => s.gateUpd k (fun g =>
    { g with due := some n, late := g.late || decide (g.swTick < n) })) s
  let s := foldS (l.drop 256) (fun k s => s.gateUpd k (fun g => { g with late := true })) s
  { s with gateSeen := false, gateSpill := l.drop 256 }

/-- The switch of an instance takes effect at the tick for which it is due: a tick later than SWITCH_TICK is its BASE
(R394, R395). -/
def State.gateSwitch (s : State) (k : Nat) : State :=
  match (s.gateI k).due with
  | none => s
  | some _ => s.gateUpd k (fun _ => s.gateCur k)

/-- The new operating list has been copied back: PENDING clears (R394 step 4). -/
def State.gateCopied (s : State) (k : Nat) : State :=
  if (s.gateI k).copyDue then
    (s.gateUpd k (fun g => { g with adm := g.oper, pending := false, copyDue := false })).gatEvt F.GAT_EVT_SWITCH_DONE
  else s

/-- The interval that governs ends: time passes to its end, or to the instant of a pending switch that cuts it (R393, R394). -/
def State.gateIntervalEnd (s : State) (k : Nat) : State :=
  match s.gateAt k s.ns with
  | none => s
  | some (l, b) =>
    let o := l.offset b s.ns
    let e := s.ns - o + (l.segAt o).2.1
    let e := match s.gateNext (s.gateCur k) with
      | some w => if s.ns < w then min e w else e
      | none => e
    s.advanceTo (e * tuNs)

end Sys2Proof.Machine
end

