-- ==== Sys2Proof/Machine/Pools.lean ====
section
/-! DEFINITION. Buffer-pool accounting over the HRD registers (R335, R349). -/

namespace Sys2Proof.Machine

/-- Cells of pool 0 by the region split (R22, R335). -/
def State.cells0 (s : State) : Nat := (128 - s.rd F.GLB_CAPS_TABLE_GIB) * 4194304

/-- Cells of pool 1 (R335). -/
def cells1 : Nat := 393216

/-- Free cells of a pool. -/
def State.poolFree (s : State) (k : Nat) : Nat := s.rd (F.HRD_POOL_STATUS_FREE.at k)

/-- A pool is built with all its cells free. -/
def State.poolBuild (s : State) (k n : Nat) : State :=
  ((s.wr (F.HRD_POOL_STATUS_FREE.at k) n).wr (F.HRD_POOL_STATUS_TOTAL.at k) n).wr (F.HRD_POOL_STATUS_LOW_WATER.at k) n

/-- Take `n` cells of a pool: the low-water mark follows. -/
def State.poolTake (s : State) (k n : Nat) : State :=
  let f := s.poolFree k - n
  let s := (s.wr (F.HRD_POOL_STATUS_FREE.at k) f).cnt (R.HRD_CNT.at k) 0x00 n
  s.wr (F.HRD_POOL_STATUS_LOW_WATER.at k) (min (s.rd (F.HRD_POOL_STATUS_LOW_WATER.at k)) f)

/-- Return `n` cells to a pool. -/
def State.poolGive (s : State) (k n : Nat) : State :=
  (s.wr (F.HRD_POOL_STATUS_FREE.at k) (s.poolFree k + n)).cnt (R.HRD_CNT.at k) 0x08 n

/-- Cells leave service until the next cold start: CELL_LOST and its EG11 event (R343). -/
def State.cellsLost (s : State) (k n : Nat) : State :=
  if n = 0 then s else
  let s := (s.wr (F.HRD_POOL_STATUS_FREE.at k) (s.poolFree k - n)).cnt (R.HRD_CNT.at k) 0x30 n
  s.setEvt R.HRD_EVT R.HRD_EVT_EN F.HRD_EVT_CELL_LOST (eg 11 0)

/-! ### Cells of pools 0 and 1, their stacks and links (R337, R338) -/

/-- The first index from `j` on, around a stack of `n` cells, that is not in use; `m` bounds the search. -/
def nextFree (used : List Nat) (n j : Nat) : Nat → Nat
  | 0 => j
  | m + 1 => if used.contains j then nextFree used n ((j + 1) % n) m else j

/-- A free cell comes off stack `k` of `n` cells: 0–7 the sub-stacks of pool 0, 8 that of pool 1. Which one is open (log entry 31). -/
def State.stackPop (s : State) (k n : Nat) : State × Nat :=
  let (v, s) := s.draw
  let used := mget (fun _ => []) s.hrd.used k
  let j := nextFree used n (v.toNat % max 1 n) used.length
  ({ s with hrd := { s.hrd with used := mset (fun _ => []) s.hrd.used k (j :: used) } }, j)

/-- Cells go back on stack `k`. -/
def State.stackPush (s : State) (k : Nat) (l : List Nat) : State :=
  { s with hrd := { s.hrd with used := mupd (fun _ => []) s.hrd.used k (fun x => x.filter (fun j => !l.contains j)) } }

/-- Parity of the bits of `v` below `n` whose number leaves `r` modulo `m`. -/
def parityOf (v m r : Nat) : Nat → Nat
  | 0 => 0
  | n + 1 => (parityOf v m r n + (if n % m = r then v / 2 ^ n else 0)) % 2

/-- An entry of a pointer stack: three interleaved parity bits and the cell (R337, log entry 137). -/
def stackWord (c : Nat) : Nat := parityOf c 3 2 29 * 2 ^ 31 + parityOf c 3 1 29 * 2 ^ 30 + parityOf c 3 0 29 * 2 ^ 29 + c % 2 ^ 29

/-- A next-cell link: LAST, PAR over the odd and the even bits, and NEXT or the valid bytes minus one (R338, log entry 137). -/
def linkWord (last : Bool) (v : Nat) : Nat :=
  b2n last * 2 ^ 31 + parityOf v 2 1 29 * 2 ^ 30 + parityOf v 2 0 29 * 2 ^ 29 + v % 2 ^ 29

/-- The links of a packet's cells, `n` bytes in them: each names the next cell, the last one its valid bytes. -/
def cellLinks : List Nat → Nat → List (Nat × Nat)
  | [], _ => []
  | [c], n => [(c, linkWord true ((n - 1) % 256))]
  | c :: d :: l, n => (c, linkWord false d) :: cellLinks (d :: l) (n - 256)

/-- The 16 bits of metadata of a cell: OWNER, ALLOC, REFCNT (R339, R340). -/
def metaWord (owner refs : Nat) : Nat := if refs = 0 then 0 else owner % 128 * 512 + 256 + refs % 256

/-- Bytes of the metadata lines of `n` cells, 15 to a line (R339). -/
def metaLines (n : Nat) : Nat := (n + 14) / 15 * 32

/-- Slice of an ingress or egress port (R24, R26, R174). -/
def State.portSlice (s : State) (p : Nat) : Nat :=
  if p < 144 then s.rd (F.LPT_CFG_SLICE.at p)
  else if p < 256 then 0
  else s.rd ((F.OTN_PC_CFG_SLICE.on ((p - 256) / 8)).at ((p - 256) % 8))

end Sys2Proof.Machine
end

