-- ==== Sys2Proof/Machine/Tmem.lean ====
section
/-! DEFINITION. The table region of HBM as words (R22, R216), and the in-flight counts of next-hops and adjacencies in it (R234). -/

namespace Sys2Proof.Machine

/-! ### Words of the table region -/

/-- First byte of the table region in each stack's 16 GiB: it occupies the top (R22). -/
def State.tblFloor (s : State) : Nat := 2 ^ 34 - s.rd F.GLB_CAPS_TABLE_GIB * 2 ^ 27

/-- Where byte offset `a` of the table region lies in HBM: 256-byte pieces go round the eight stacks (R23), stack h from h × 2³⁴ on. -/
def State.tblHome (s : State) (a : Nat) : Nat := a / 256 % 8 * 2 ^ 34 + s.tblFloor + a / 2048 * 256 + a % 256

/-- The offset whose home an address is. -/
def State.tblOfs (s : State) (h : Nat) : Nat :=
  let x := h - s.tblFloor
  x % 2 ^ 34 / 256 * 2048 + x / 2 ^ 34 * 256 + x % 256

/-- The 32-bit word at byte offset `a` of the table region. -/
def State.tw (s : State) (a : Nat) : Nat := (mget (fun _ => (0 : Word)) s.tmem (s.tblHome a / 4)).toNat

/-- Write the word at byte offset `a`. -/
def State.twSet (s : State) (a v : Nat) : State :=
  { s with tmem := mset (fun _ => 0) s.tmem (s.tblHome a / 4) (BitVec.ofNat 32 v) }

/-- Insert an offset in rising order. -/
def insOfs (a : Nat) : List Nat → List Nat
  | [] => [a]
  | b :: l => if a < b then a :: b :: l else b :: insOfs a l

/-- Offsets of the words of the table region that hold anything, in order. -/
def State.tListed (s : State) : List Nat := s.tmem.foldl (fun l e => insOfs (s.tblOfs (e.1 * 4)) l) []

/-- Bytes of the table region, a multiple of four from an aligned offset. -/
def State.tBytes (s : State) (a : Nat) : Nat → Bytes
  | 0 => []
  | n + 1 => leB 4 (s.tw a) ++ State.tBytes s (a + 4) n

/-- One byte of the table region. -/
def State.tByte (s : State) (a : Nat) : Byte := BitVec.ofNat 8 (s.tw a / 256 ^ (a % 4))

/-- Write one byte of the table region. -/
def State.tByteSet (s : State) (a : Nat) (b : Byte) : State :=
  s.twSet a (s.tw a - s.tw a / 256 ^ (a % 4) % 256 * 256 ^ (a % 4) + b.toNat * 256 ^ (a % 4))

/-- Write consecutive words. -/
def State.twPut (s : State) (a : Nat) : List Nat → State
  | [] => s
  | w :: l => State.twPut (s.twSet a w) (a + 4) l

/-- Consecutive words. -/
def State.twGet (s : State) (a : Nat) : Nat → List Nat
  | 0 => []
  | n + 1 => s.tw a :: State.twGet s (a + 4) n

/-- TBL_BASE: 0 EM pool, 1 LPM buckets, 2 NH, 3 ECMP groups, 4 members, 5 ADJ, 6 NH counts, 7 ADJ counts. -/
def State.tblBase (s : State) (i : Nat) : Nat := s.rd64 (R.TBL_BASE.at i)

/-- Bytes of the table region (R22). -/
def State.tblSize (s : State) : Nat := s.rd F.GLB_CAPS_TABLE_GIB * 2 ^ 30

/-! ### In-flight counts (R234) -/

/-- In-flight count of a next-hop (`adj` false) or adjacency. -/
def State.inflight (s : State) (adj : Bool) (i : Nat) : Nat := s.tw (s.tblBase (if adj then 7 else 6) + i * 4)

/-- Add to an in-flight count. -/
def State.inflightInc (s : State) (adj : Bool) (i : Nat) : State :=
  let a := s.tblBase (if adj then 7 else 6) + i * 4
  s.twSet a (s.tw a + 1)

/-- Take from an in-flight count. -/
def State.inflightDec (s : State) (adj : Bool) (i : Nat) : State :=
  let a := s.tblBase (if adj then 7 else 6) + i * 4
  s.twSet a (s.tw a - 1)

/-- A packet ends before its last cell left the ingress queue: the count of its next-hop falls (R234). -/
def State.nhDone (s : State) (p : Pkt) : State := match p.nh with | some i => s.inflightDec false i | none => s

end Sys2Proof.Machine
end

