-- ==== Sys2Proof/Machine/Ports.lean ====
section
/-! DEFINITION. Line and tether ports (chapter 05): link state and its filters, start attempts, auto-negotiation, PFC, and
the port hold window (R361, R362). -/

namespace Sys2Proof.Machine

/-- The internal state of a port. -/
def State.pst (s : State) (p : Nat) : PortSt := mget (fun _ => {}) s.portSt p

/-- Update the internal state of a port. -/
def State.pstUpd (s : State) (p : Nat) (f : PortSt → PortSt) : State :=
  { s with portSt := mupd (fun _ => {}) s.portSt p f }

/-- A tether port (R13). -/
def isTether (p : Nat) : Bool := p == 144 || p == 145

/-- A line or tether port in use: SPEED non-zero (R141). -/
def State.inUse (s : State) (p : Nat) : Bool := decide (p < 146) && s.on (F.LPT_CFG_SPEED.at p)

/-- MAC rate of a port in Gb/s by SPEED (R142, R155). -/
def rateOf : Nat → Nat
  | 1 => 50 | 2 => 100 | 3 => 200 | 4 => 400 | 5 => 800 | 6 => 25 | _ => 0

/-- MAC rate of port `p` in Gb/s; a packet channel carries COUNT × 5 Gb/s (R173). -/
def State.rate (s : State) (p : Nat) : Nat :=
  if p < 146 then rateOf (s.rd (F.LPT_CFG_SPEED.at p))
  else s.rd (((F.OTN_PC_CFG_COUNT.on ((p - 256) / 8)).at ((p - 256) % 8))) * 5

/-- ADMIN_UP of a port. -/
def State.adminUp (s : State) (p : Nat) : Bool := s.on (F.LPT_CTRL_ADMIN_UP.at p)

/-- The raw link state (R148). -/
def State.rawUp (s : State) (p : Nat) : Bool :=
  s.adminUp p && s.on (F.LPT_STATUS_ALIGNED.at p) && !s.on (F.LPT_STATUS_HI_BER.at p)
  && !s.on (F.LPT_STATUS_LF.at p) && !s.on (F.LPT_STATUS_RF.at p)

/-- EG4/EG5 source of a port's summary (R489). -/
def portSrc (p : Nat) : Nat := if p = 144 then eg 5 2 else if p = 145 then eg 5 3 else eg 4 0 + p / 8

/-- Set an LPT_EVT bit of a port. -/
def State.portEvt (s : State) (p : Nat) (f : Fld) : State :=
  s.setEvt (R.LPT_EVT.at p) (R.LPT_EVT_EN.at p) (f.at p) (portSrc p)

/-- Add to an LPT counter of a port, by its index in R159. -/
def State.lpt (s : State) (p i : Nat) (n : Nat := 1) : State := s.cnt (R.LPT_CNT.on p) (i * 8) n

/-! ### Egress queues of a port and its hold window (R361, R362) -/

/-- The egress queue (port, class), head first. -/
def State.eq (s : State) (p c : Nat) : List EgrFrame := mget (fun _ => []) s.egr (p * 8 + c)

/-- Cells a packet of `len` bytes takes, its 32-byte descriptor included (R341). -/
def cellsOf (len : Nat) : Nat := (len + 32 + 255) / 256

/-- Cells of a list of frames. -/
def eqCells (l : List EgrFrame) : Nat := l.foldl (fun n (f : EgrFrame) => n + f.cells) 0

/-- `n` cells of pool 1. -/
def State.cells1Take (s : State) : Nat → State × List Nat
  | 0 => (s, [])
  | n + 1 =>
    let (s, c) := s.stackPop 8 cells1
    let (s, l) := State.cells1Take s n
    (s, c :: l)

/-- Frames of an egress queue take the cells they lack (R338). -/
def State.chainFill (s : State) : List EgrFrame → State × List EgrFrame
  | [] => (s, [])
  | f :: l =>
    let (s, new) := s.cells1Take (f.cells - f.chain.length)
    let (s, l) := State.chainFill s l
    (s, { f with chain := f.chain ++ new } :: l)

/-- The cells of a list of frames. -/
def chains (l : List EgrFrame) : List Nat := l.flatMap (·.chain)

/-- Replace the egress queue (port, class); its frames' cells, SCH_EQ_DEPTH, pool 1 and FAB_EGR_STATUS.COMMITTED follow (R335, R338, R378,
R423). -/
def State.eqSet (s : State) (p c : Nat) (l : List EgrFrame) : State :=
  let a := eqCells (s.eq p c)
  let (s, l) := s.chainFill l
  let s := s.stackPush 8 ((chains (s.eq p c)).filter (fun x => !(chains l).contains x))
  let b := eqCells l
  let s := { s with egr := mset (fun _ => []) s.egr (p * 8 + c) l }.wr (F.SCH_EQ_DEPTH_CELLS.at (8 * p + c)) b
  let s := if a < b then s.poolTake 1 (b - a) else if b < a then s.poolGive 1 (a - b) else s
  s.wr F.FAB_EGR_STATUS_COMMITTED (s.rd F.FAB_EGR_STATUS_COMMITTED + b - a)

/-- Drop every frame of port `p` in the egress buffer, counted in HOLD_FLUSH (R362); the counts of their adjacencies fall (R234). -/
def State.holdFlush (s : State) (p : Nat) : State :=
  let s := foldS (List.range 8) (fun c s =>
    let l := s.eq p c
    if l.isEmpty then s else
    let s := (s.cnt (R.ADM_PORT_CNT.at p) 0 l.length).eqSet p c []
    foldS l (fun f s => if f.plain then s else s.inflightDec true (f.adjOver.getD f.p.adj)) s) s
  let x : EgPort := mget (fun _ => {}) s.eport p
  let s := if x.mac.isEmpty then s else
    { s.cnt (R.ADM_PORT_CNT.at p) 0 x.mac.length with eport := mset (fun _ => {}) s.eport p { x with mac := [] } }
  let s := (s.wr (F.ADM_EPORT_HOLDING.at p) 0).wr (F.ADM_EPORT_FLUSHED.at p) 1
  let s := s.pstUpd p (fun x => { x with planned := [] })
  s.setEvt R.ADM_EVT R.ADM_EVT_EN F.ADM_EVT_PORT_FLUSH (eg 11 1)

/-- LINK fell: the hold window opens at the stamp of the fall; HOLD_US 0 flushes at once. -/
def State.holdOpen (s : State) (p : Nat) : State :=
  let hold := s.rd (F.ADM_EPORT_HOLD_US.at p)
  let t := stamp16 s.t16
  let s := s.pstUpd p (fun x => { x with fall := some t, holdUs := hold, planned := [] })
  if hold = 0 then s.holdFlush p else s.wr (F.ADM_EPORT_HOLDING.at p) 1

/-- The end of the hold window of a port whose LINK has not risen (R362). -/
def State.holdEnd (s : State) (p : Nat) : State :=
  match (s.pst p).fall with
  | none => s
  | some t =>
    if s.on (F.ADM_EPORT_HOLDING.at p) then
      (s.advanceTo ((t + (s.pst p).holdUs * 1000 * 65536) * tuFrac)).holdFlush p
    else s

/-- LINK rose: a rise inside the window keeps the frames, and the stamp of the rise decides which are LATE (R361); a rise
at or after its end comes after the flush (R362). -/
def State.holdClose (s : State) (p : Nat) : State :=
  match (s.pst p).fall with
  | none => s
  | some t =>
    let s := if s.on (F.ADM_EPORT_HOLDING.at p) && decide (t + (s.pst p).holdUs * 1000 * 65536 ≤ stamp16 s.t16)
      then s.holdFlush p else s
    let now := stamp16 s.t16
    let s := (s.wr (F.ADM_EPORT_HOLDING.at p) 0).wr (F.ADM_EPORT_FLUSHED.at p) 0
    let closes := (List.range 8).map (fun c => s.lastCloseBefore p c now)
    s.pstUpd p (fun x => { x with fall := none, rise := some now, lastClose := closes })

/-! ### Start attempts (R150) -/

/-- A start attempt may run: the port is in use with ADMIN_UP, LINK is down, and the mode drives its transmitter (R78). -/
def State.mayStart (s : State) (p : Nat) : Bool :=
  s.inUse p && s.adminUp p && !s.link p &&
  (s.inMode mRUN || (isTether p && s.inMode mLULL) ||
    (s.inMode mASCENT && decide ((if isTether p then 7 else 6) ≤ s.rd F.MOD_STATUS_STEP)))

/-- Begin a start attempt. -/
def State.startAttempt (s : State) (p : Nat) : State :=
  if s.mayStart p then
    let up := s.tb.up
    (((s.wr (F.LPT_STATUS_AN_DONE.at p) 0).wr (F.LPT_STATUS_AN_FAIL.at p) 0)).pstUpd p
      (fun x => { x with att := .running, attAt := up, txOn := true })
  else s

/-- The port uses auto-negotiation: AN_EN, not for 100GbE over four lanes (R145). -/
def State.usesAn (s : State) (p : Nat) : Bool :=
  s.on (F.LPT_CFG_AN_EN.at p)
  && !(decide (s.rd (F.LPT_CFG_SPEED.at p) = 2) && decide (s.rd (F.LPT_CFG_WIDTH.at p) = 4))

/-- A start attempt passes tUP or tUP_AN and ends; the next one trains anew (R150, R151). -/
def State.attemptTimeout (s : State) (p : Nat) : State :=
  match (s.pst p).att with
  | .running =>
    let s := s.advanceUp ((s.pst p).attAt + (if s.usesAn p then 3 else 2) * 10 ^ 9)
    let up := s.tb.up
    s.pstUpd p (fun x => { x with att := .waiting, attAt := up, adapt := none })
  | _ => s

/-- tRETRY after a failed attempt the next begins (R150). -/
def State.retryExpired (s : State) (p : Nat) : State :=
  match (s.pst p).att with
  | .waiting => (s.advanceUp ((s.pst p).attAt + 10 ^ 9)).startAttempt p
  | _ => s

/-- A partner signal on a lane of the port between attempts begins the next at once (R150). -/
def State.partnerSignal (s : State) (p : Nat) : State :=
  match (s.pst p).att with
  | .waiting => s.startAttempt p
  | _ => s

/-- Auto-negotiation ends (R145). -/
def State.anComplete (s : State) (p : Nat) (ok : Bool) : State :=
  match (s.pst p).att with
  | .running =>
    if !s.usesAn p then s
    else if ok then s.wr (F.LPT_STATUS_AN_DONE.at p) 1
    else (s.wr (F.LPT_STATUS_AN_FAIL.at p) 1).portEvt p F.LPT_EVT_AN_FAIL
  | _ => s

/-! ### Link state (R148, R149) -/

/-- A frame in transmission when the raw state goes down is aborted and counted in TX_ABORT alone, a PFC frame too (log entry 116);
those that are chosen but not started stay in their queues (R149). -/
def State.txAbort (s : State) (p : Nat) : State :=
  let x := s.pst p
  let y : EgPort := mget (fun _ => {}) s.eport p
  let s := { s with eport := mset (fun _ => {}) s.eport p { y with busy := min y.busy (max x.wire s.t16) } }
  let s := s.pstUpd p (fun x => { x with planned := [], wire := 0 })
  if s.t16 < x.wire then
    let less (s : State) (i n : Nat) : State :=
      let c : Reg := { R.LPT_CNT.on p with addr := (R.LPT_CNT.on p).addr + 8 * i }
      s.wr64 c (s.rd64 c - n)
    ((if x.wirePfc then less s 10 1 else less (less s 8 1) 9 x.wireLen).lpt p 11).emit (.txAbort p)
  else s

/-- A frame of `n` bytes, FCS included, goes on the wire of a port now. -/
def State.onWire (s : State) (p n : Nat) (pfc : Bool) : State :=
  let end_ := s.t16 + n * 8 * 65536 / max 1 (s.rate p)
  s.pstUpd p (fun x => { x with wire := end_, wireLen := n, wirePfc := pfc })

/-- The next boundary between frames of a port: the frame on the wire has ended. -/
def State.toBoundary (s : State) (p : Nat) : State := s.advanceTo ((s.pst p).wire * tuFrac)

/-- LINK falls: the counter, the event, the hold window, a new start attempt, and the bypass of a tether port. -/
def State.linkFalls (s : State) (p : Nat) : State :=
  if !s.link p then s else
  let s := ((s.wr (F.LPT_STATUS_LINK.at p) 0).lpt p 15).portEvt p F.LPT_EVT_DOWN
  let s := (s.pstUpd p (fun x => { x with downAt := none, upAt := none })).holdOpen p
  let s := if isTether p then s.bypLinkDown (p - 144) else s
  s.startAttempt p

/-- LINK rises; the lanes keep the adaptation they started with, or the one training found (R151). -/
def State.linkRises (s : State) (p : Nat) : State :=
  if s.link p then s else
  let s := (s.wr (F.LPT_STATUS_LINK.at p) 1).portEvt p F.LPT_EVT_UP
  let (v, s) := s.draw
  let s := (s.pstUpd p (fun x => { x with upAt := none, downAt := none, att := .idle, adapt := some (x.adapt.getD v) })).holdClose p
  if isTether p then s.bypLinkUp (p - 144) else s

/-- A condition of link up is lost (R148): the status bit shows it; if the raw state was up, the frame in transmission is
aborted and DOWN_HOLD starts while LINK is 1, and an UP_HOLD in progress ends. -/
def State.rawDown (s : State) (p : Nat) (c : LinkCause) : State :=
  if !s.inUse p then s else
  let was := s.rawUp p
  let s := match c with
    | .alignment => s.wr (F.LPT_STATUS_ALIGNED.at p) 0
    | .hiBer => (s.wr (F.LPT_STATUS_HI_BER.at p) 1).portEvt p F.LPT_EVT_HI_BER
    | .localFault => s.wr (F.LPT_STATUS_LF.at p) 1
    | .remoteFault => s.wr (F.LPT_STATUS_RF.at p) 1
  if !was then s else
  let s := (s.txAbort p).pstUpd p (fun x => { x with upAt := none, planned := [] })
  if !s.link p then s
  else if s.rd (F.LPT_LINK_CFG_DOWN_HOLD.at p) = 0 then s.linkFalls p
  else let up := s.tb.up; s.pstUpd p (fun x => { x with downAt := some up })

/-- The lanes of a port in use: WIDTH of them from its anchor (R141). -/
def State.lanesOf (s : State) (p : Nat) : List Nat := (List.range (max 1 (s.rd (F.LPT_CFG_WIDTH.at p)))).map (p + ·)

/-- The lane a bit of a port travels on: the one named, where the port has it (R51). -/
def State.portLane (s : State) (p lane : Nat) : Nat := if 146 ≤ p then lane else if (s.lanesOf p).contains lane then lane else p

/-- Every lane of a port is measured before it carries a frame (R59): the results given, free ones for the lanes they leave out. -/
def State.measure (s : State) (p : Nat) (cal : List LaneCal) : State :=
  foldS (s.lanesOf p) (fun l s =>
    match cal.find? (fun c => c.lane == l) with
    | some c => s.setLane c
    | none => let (v, s) := s.draw; s.setLane ⟨l, v.toNat % 2 ^ 32, v.toNat / 2 ^ 32⟩) s

/-- All conditions hold again (R148): a loss within DOWN_HOLD is discarded, otherwise UP_HOLD starts; the lanes'
delays have been measured before the first frame (R59). -/
def State.rawUpAgain (s : State) (p : Nat) (cal : List LaneCal) : State :=
  if !s.inUse p then s else
  let s := (((s.wr (F.LPT_STATUS_ALIGNED.at p) 1).wr (F.LPT_STATUS_HI_BER.at p) 0).wr (F.LPT_STATUS_LF.at p) 0).wr
    (F.LPT_STATUS_RF.at p) 0
  let s := s.measure p cal
  if !s.adminUp p then s
  else if s.link p then s.pstUpd p (fun x => { x with downAt := none })
  else if s.rd (F.LPT_LINK_CFG_UP_HOLD.at p) = 0 then s.linkRises p
  else let up := s.tb.up; s.pstUpd p (fun x => { x with upAt := some up })

/-- DOWN_HOLD has passed with the raw state down. -/
def State.downHoldExpired (s : State) (p : Nat) : State :=
  match (s.pst p).downAt with
  | some t => (s.advanceUp (t + s.rd (F.LPT_LINK_CFG_DOWN_HOLD.at p) * 10 ^ 6)).linkFalls p
  | none => s

/-- UP_HOLD has passed with the raw state up. -/
def State.upHoldExpired (s : State) (p : Nat) : State :=
  match (s.pst p).upAt with
  | some t => (s.advanceUp (t + s.rd (F.LPT_LINK_CFG_UP_HOLD.at p) * 10 ^ 6)).linkRises p
  | none => s

/-- A port's transmitter is switched off with its power domain on (R149): LINK falls at once where it was up. `finish`: the frame in
transmission is completed first (R89). -/
def State.portOff (s : State) (p : Nat) (finish : Bool) : State :=
  let s := ((if finish then s.toBoundary p else s).txAbort p).linkFalls p
  (s.wr (F.LPT_STATUS_ALIGNED.at p) 0).pstUpd p
    (fun x => { x with txOn := false, att := .idle, downAt := none, upAt := none })

/-- Every line port that is in use is switched off (R99, R89, R512). -/
def State.linesOff (s : State) (finish : Bool := false) : State :=
  foldS (List.range 144) (fun p s => if s.inUse p then s.portOff p finish else s) { s with otnIf := [], otnPc := [] }

/-- A write of ADMIN_UP, after the register holds it: 0 acts as a link loss with DOWN_HOLD zero, 1 starts the port. -/
def State.adminWritten (old s : State) (p : Nat) : State :=
  if old.adminUp p && !s.adminUp p then
    let s := (s.txAbort p).linkFalls p
    s.pstUpd p (fun x => { x with txOn := false, att := .idle, downAt := none, upAt := none })
  else if !old.adminUp p && s.adminUp p then
    let s := s.startAttempt p
    if s.rawUp p && !s.link p then s.rawUpAgain p [] else s
  else s

/-- What the reconciliation sublayer of a port in use sends while it carries no frame (R148). -/
inductive RsSends where
  | off | idles | remoteFault
  deriving DecidableEq, Repr

/-- A local fault is answered with remote fault, a remote fault with idles (R148). -/
def State.rsSends (s : State) (p : Nat) : RsSends :=
  if !(s.pst p).txOn then .off
  else if s.on (F.LPT_STATUS_LF.at p) || !s.on (F.LPT_STATUS_ALIGNED.at p) then .remoteFault else .idles

/-! ### Priority flow control (R152–R154) -/

/-- The part of a PFC frame after its addresses is well formed: destination, EtherType and opcode (R152). -/
def isPfc (b : Bytes) : Bool :=
  decide (beN b 0 6 = 0x0180C2000001) && decide (beN b 12 2 = 0x8808) && decide (beN b 14 2 = 0x0101)

/-- `q` quanta of 512 bit times at `rate` Gb/s, in 2⁻¹⁶ ns. -/
def quanta (rate q : Nat) : Nat := if rate = 0 then 0 else q * 512 * 65536 / rate

/-- Load the pause timer of priority `p` of a port from `start` for `d`; 0 stops it (R153). A timer that runs at `start` goes on without
a break, so a reload gives a paused class no instant at which it may start a frame. -/
def State.loadPause (s : State) (port p start d : Nat) : State :=
  let l := s.pauses.filter (fun x => !(x.port == port && x.pri == p))
  let old := s.pauses.filter (fun x => x.port == port && x.pri == p)
  let runs := old.find? (fun x => x.runs start)
  let cut := (old.map (fun x => { x with stop := min x.stop start })).filter (fun x => decide (s.t16 < x.stop) && decide (x.start < x.stop))
  match runs with
  | some x => if d = 0 then { s with pauses := l ++ cut } else { s with pauses := l ++ [{ x with stop := start + d }] }
  | none => { s with pauses := l ++ cut ++ (if d = 0 then [] else [⟨port, p, start, start + d⟩]) }

/-- Since when class `t` of a port is paused without a break. -/
def State.pausedSince (s : State) (port t : Nat) : Option Nat := mget (fun _ => (none : Option Nat)) s.pauseSince (8 * port + t)

/-- Show LPT_STATUS.PAUSED of a port, and note since when a class is paused. -/
def State.showPaused (s : State) (port : Nat) : State :=
  let now := s.t16
  foldS (List.range 8) (fun t s =>
    let l := s.pauses.filter (fun p => p.port == port && s.priTc port p.pri == t)
    let at_ := if l.isEmpty then none else some ((s.pausedSince port t).getD (l.foldl (fun m p => max m p.start) now))
    let v := s.rd (F.LPT_STATUS_PAUSED.at port)
    let v := if l.isEmpty then (if bitN v t then v - 2 ^ t else v) else setBit v t
    { s.wr (F.LPT_STATUS_PAUSED.at port) v with pauseSince := mset (fun _ => none) s.pauseSince (8 * port + t) at_ }) s

/-- A received PFC frame: each enabled priority's timer is loaded from the frame's end, and it is counted (R152). -/
def State.pfcReceive (s : State) (port : Nat) (b : Bytes) (stamp : Nat) : State :=
  let en := beN b 16 2
  let s := s.lpt port 7
  let start := stamp + quanta (s.rate port) 1
  let s := foldS (List.range 8) (fun p s =>
    if bitN en p then (s.lpt port (16 + p)).loadPause port p start (quanta (s.rate port) (beN b (18 + 2 * p) 2)) else s) s
  s.showPaused port

/-- A pause timer runs out (R153): time reaches its end and its class may start frames again. -/
def State.pauseExpired (s : State) (port p : Nat) : State :=
  match s.pauses.filter (fun x => x.port == port && x.pri == p) with
  | [] => s
  | l =>
    let stop := l.foldl (fun m x => max m x.stop) 0
    let s := s.advanceTo (stop * tuFrac)
    ({ s with pauses := s.pauses.filter (fun x => !(x.port == port && x.pri == p)) }).showPaused port

/-- Priorities sent in PFC frames that map to one of the classes in the bit set `cls` (R154). -/
def State.pfcBits (s : State) (port cls : Nat) : Nat :=
  (List.range 8).foldl (fun n p =>
    if bitN cls (s.priTc port p) && bitN (s.rd (F.LPT_PFC_PRI_EN.at port)) p then setBit n p else n) 0

/-- The PFC frame for the XOFF classes `xoff` and the released classes `rel`, padded and with its FCS (R154). -/
def State.pfcFrame (s : State) (port xoff rel : Nat) : Bytes :=
  let x := s.pfcBits port xoff
  let en := x ||| s.pfcBits port rel
  let q := s.rd (F.LPT_PFC_QUANTA.at port)
  let times := (List.range 8).flatMap (fun p => beB 2 (if bitN x p then q else 0))
  let body := beB 6 0x0180C2000001 ++ beB 6 (s.rd64 (R.LPT_STATION_ADDR.at port)) ++ beB 2 0x8808 ++ beB 2 0x0101
    ++ beB 2 en ++ times
  withFcs (body ++ zeros (60 - body.length))

/-- Send one PFC frame at the next boundary between frames and count it in TX_PFC alone (R154). -/
def State.sendPfc (s : State) (port xoff rel : Nat) : State :=
  let s := s.toBoundary port
  let f := s.pfcFrame port xoff rel
  let (v, s) := s.draw
  let ls := s.lanesOf port
  let s1 := s.emit (.frame port (s.egressStamp (ls.getD (v.toNat % ls.length) port)) f)
  let up := s.tb.up
  let s1 := if s.inMode mRUN then s1.cnt R.SVY_CNT 0x08 else s1
  ((s1.lpt port 10).onWire port f.length true).pstUpd port (fun x => { x with pfcDue := 0, pfcRel := 0, pfcAt := up })

/-- PFC is enabled on a line port. -/
def State.pfcOn (s : State) (p : Nat) : Bool := decide (p < 144) && s.on (F.LPT_PFC_EN.at p)

/-- A port may start a frame: LINK is 1 and the raw state up (R149). -/
def State.mayStartFrame (s : State) (p : Nat) : Bool := s.inUse p && s.link p && s.rawUp p

/-- At a frame boundary: the state changes that wait go out in one frame (R149, R154). -/
def State.pfcBoundary (s : State) (port : Nat) : State :=
  let x := s.pst port
  if s.pfcOn port && s.mayStartFrame port && (decide (x.pfcDue ≠ 0) || decide (x.pfcRel ≠ 0)) then
    s.sendPfc port (x.xoff &&& x.pfcDue) x.pfcRel
  else s

/-- REFRESH microseconds after the last PFC frame, while XOFF persists, it is sent again, with the releases that wait (R154). -/
def State.pfcRefresh (s : State) (port : Nat) : State :=
  let x := s.pst port
  if s.pfcOn port && s.mayStartFrame port && decide (x.xoff ≠ 0) then
    (s.advanceUp (x.pfcAt + max 1 (s.rd (F.LPT_PFC_REFRESH_REFRESH.at port)) * 1000)).sendPfc port x.xoff x.pfcRel
  else s

/-- XOFF of class `t` towards a line port changes as the holding-buffer state directs (R154, R358, R359). -/
def State.setXoff (s : State) (port t : Nat) (v : Bool) : State :=
  if bitN (s.pst port).xoff t = v then s
  else if v then s.pstUpd port (fun x => { x with xoff := setBit x.xoff t, pfcDue := setBit x.pfcDue t
                                                  pfcRel := if bitN x.pfcRel t then x.pfcRel - 2 ^ t else x.pfcRel })
  else s.pstUpd port (fun x => { x with xoff := x.xoff - 2 ^ t, pfcRel := setBit x.pfcRel t
                                        pfcDue := if bitN x.pfcDue t then x.pfcDue - 2 ^ t else x.pfcDue })

/-- A class has been paused without a break for more than 100 ms (R159). -/
def State.pfcStorm (s : State) (port t : Nat) : State :=
  match s.pausedSince port t with
  | none => s
  | some a =>
    let s' := s.advanceTo ((a + 10 ^ 8 * 65536 + 1) * tuFrac)
    if decide (port < 144) && s'.paused port t then s'.portEvt port F.LPT_EVT_PFC_STORM else s

end Sys2Proof.Machine
end

