-- ==== Sys2Proof/Machine/Parse.lean ====
section
/-! DEFINITION. The parser (R179–R191, R545): header kinds, selectors, limits, faults, lengths and user-defined headers. -/

namespace Sys2Proof.Machine

/-- `n` bits from bit offset `o`, bit 0 being the most significant bit of byte 0. -/
def bitsAt (b : Bytes) (o n : Nat) : Nat :=
  let c := (o % 8 + n + 7) / 8
  (beN b (o / 8) c / 2 ^ (c * 8 - o % 8 - n)) % 2 ^ n

/-- Header kind codes of R179. -/
def kETH : Nat := 0x01
/-- VLAN. -/
def kVLAN : Nat := 0x02
/-- MPLS. -/
def kMPLS : Nat := 0x03
/-- IPV4. -/
def kIPV4 : Nat := 0x04
/-- IPV6. -/
def kIPV6 : Nat := 0x05
/-- IPV6_EXT. -/
def kEXT : Nat := 0x06
/-- SRH. -/
def kSRH : Nat := 0x07
/-- UDP. -/
def kUDP : Nat := 0x08
/-- TCP. -/
def kTCP : Nat := 0x09
/-- GRE. -/
def kGRE : Nat := 0x0A
/-- VXLAN. -/
def kVXLAN : Nat := 0x0B
/-- GENEVE. -/
def kGENEVE : Nat := 0x0C
/-- PTP. -/
def kPTP : Nat := 0x0D
/-- MAC_CTRL. -/
def kMACC : Nat := 0x0E
/-- RTAG. -/
def kRTAG : Nat := 0x0F

/-- Fault codes of R183. -/
def fDEPTH : Nat := 1
/-- LEN_CONFLICT. -/
def fLEN : Nat := 2
/-- HDR_TRUNC. -/
def fTRUNC : Nat := 3
/-- HDR_MALFORMED. -/
def fMALF : Nat := 4
/-- IPV4_CKSUM. -/
def fCKSUM : Nat := 5

/-- What names the next header. -/
inductive Sel where
  | eth
  | ether (v : Nat) (typeField tunnel : Bool)
  | ipProto (v : Nat) (v6 : Bool)
  | udpPort (v : Nat)
  | bottom
  | parent (code v : Nat)
  | payload
  deriving DecidableEq, Repr

/-- Selector of user-defined header `i` matches value `v` of `w` bits (R189). -/
def State.udhHit (s : State) (i space v mask : Nat) : Bool :=
  s.on (F.PRS_UDH_EN.at i) && decide (s.rd (F.PRS_UDH_SPACE.at i) = space)
  && decide (v &&& s.rd (F.PRS_UDH_MASK.at i) &&& mask = s.rd (F.PRS_UDH_VALUE.at i) &&& s.rd (F.PRS_UDH_MASK.at i) &&& mask)

/-- The lowest-numbered user-defined header a selector triggers. -/
def State.udhFind (s : State) (space v mask : Nat) : Option Nat :=
  (List.range 16).find? (fun i => s.udhHit i space v mask)

/-- The kind an EtherType names among the built-in ones. -/
def etherKind (v : Nat) (tunnel : Bool) : Option Nat :=
  if v = 0x8100 ∨ v = 0x88A8 ∨ v = 0x9100 then some kVLAN
  else if v = 0x8847 ∨ v = 0x8848 then some kMPLS
  else if v = 0x0800 then some kIPV4 else if v = 0x86DD then some kIPV6
  else if v = 0x88F7 then some kPTP else if v = 0x8808 then some kMACC
  else if v = 0xF1C1 then some kRTAG else if v = 0x88B8 then some 0x10
  else if v = 0x88BA then some 0x11 else if v = 0x0806 then some 0x13
  else if v = 0x6558 ∧ tunnel then some kETH else none

/-- The kind an IP protocol names; extension headers only where a next-header field does. -/
def protoKind (v : Nat) (v6 : Bool) (routing : Nat) : Option Nat :=
  if v6 ∧ (v = 0 ∨ v = 44 ∨ v = 60) then some kEXT
  else if v6 ∧ v = 43 then some (if routing = 4 then kSRH else kEXT)
  else match v with
    | 137 => some kMPLS | 4 => some kIPV4 | 41 => some kIPV6 | 17 => some kUDP | 6 => some kTCP
    | 47 => some kGRE | 1 => some 0x14 | 58 => some 0x15 | _ => none

/-- The kind a UDP destination port names. -/
def State.udpKind (s : State) (v : Nat) : Option Nat :=
  if v = s.rd F.PRS_UDP_PORTS_VXLAN then some kVXLAN
  else if v = s.rd F.PRS_UDP_PORTS_GENEVE then some kGENEVE
  else if v = 319 ∨ v = 320 then some kPTP
  else if v = 6635 then some kMPLS
  else if v ≠ 0 ∧ (v = s.rd F.PRS_C37_PORT_PORT0 ∨ v = s.rd F.PRS_C37_PORT_PORT1) then some 0x12
  else none

/-- The kind the selector names at offset `off`, user-defined headers first (R189). -/
def State.resolve (s : State) (b : Bytes) (off : Nat) (sel : Sel) : Option Nat :=
  let udh (o : Option Nat) (k : Option Nat) : Option Nat := match o with | some i => some (0x20 + i) | none => k
  match sel with
  | .payload => none
  | .eth => some kETH
  | .ether v tf tun => if tf ∧ v < 0x600 then none else udh (s.udhFind 1 v 0xFFFF) (etherKind v tun)
  | .ipProto v v6 => if 255 < v then none else udh (s.udhFind 2 v 0xFF) (protoKind v v6 (byteN b (off + 2)))
  | .udpPort v => udh (s.udhFind 3 v 0xFFFF) (s.udpKind v)
  | .bottom =>
    udh (s.udhFind 4 (beN b off 2) 0xFFFF)
      (if byteN b off / 16 = 4 then some kIPV4 else if byteN b off / 16 = 6 then some kIPV6 else none)
  | .parent c v =>
    udh ((List.range 16).find? (fun i => s.udhHit i 5 v 0xFFFF && decide (s.rd (F.PRS_UDH_PARENT.at i) = c))) none

/-- Fixed part of a header (R545). -/
def State.fixedLen (s : State) (k : Nat) : Nat :=
  if 0x20 ≤ k then
    let i := k - 0x20
    let w := s.rd (F.PRS_UDH_LEN_WIDTH.at i)
    if w = 0 then s.rd (F.PRS_UDH_LEN_ADD.at i) else (s.rd (F.PRS_UDH_LEN_OFS.at i) + w + 7) / 8
  else match k with
    | 0x01 => 14 | 0x02 => 4 | 0x03 => 4 | 0x04 => 20 | 0x05 => 40 | 0x06 => 8 | 0x07 => 8 | 0x08 => 8 | 0x09 => 20
    | 0x0A => 4 | 0x0B => 8 | 0x0C => 8 | 0x0D => 34 | 0x0E => 2 | 0x0F => 6 | 0x10 => 8 | 0x11 => 8 | 0x12 => 14
    | 0x13 => 8 | 0x14 => 8 | 0x15 => 4 | _ => 0

/-- Instance length of a header at `off` (R545, R190); `nh44` marks a fragment header. -/
def State.instLen (s : State) (b : Bytes) (k off : Nat) (nh44 : Bool) : Nat :=
  if 0x20 ≤ k then
    let i := k - 0x20
    let w := s.rd (F.PRS_UDH_LEN_WIDTH.at i)
    if w = 0 then s.rd (F.PRS_UDH_LEN_ADD.at i)
    else bitsAt b (off * 8 + s.rd (F.PRS_UDH_LEN_OFS.at i)) w * 2 ^ s.rd (F.PRS_UDH_LEN_SHIFT.at i)
      + s.rd (F.PRS_UDH_LEN_ADD.at i)
  else match k with
    | 0x04 => 4 * (byteN b off % 16)
    | 0x06 => if nh44 then 8 else 8 * (byteN b (off + 1) + 1)
    | 0x07 => 8 * (byteN b (off + 1) + 1)
    | 0x09 => 4 * (byteN b (off + 12) / 16)
    | 0x0A => 4 + 4 * ((byteN b off / 128 % 2) + (byteN b off / 32 % 2) + (byteN b off / 16 % 2))
    | 0x0C => 8 + 4 * (byteN b off % 64)
    | 0x13 => 8 + 2 * byteN b (off + 4) + 2 * byteN b (off + 5)
    | k => s.fixedLen k

/-- A condition of HDR_MALFORMED holds (R183). -/
def State.malformed (s : State) (b : Bytes) (k off len : Nat) : Bool :=
  if 0x20 ≤ k then decide (len = 0) || decide (s.rd (F.PRS_UDH_MAX_LEN.at (k - 0x20)) < len)
  else match k with
    | 0x04 => decide (byteN b off / 16 ≠ 4) || decide (byteN b off % 16 < 5)
    | 0x05 => decide (byteN b off / 16 ≠ 6)
    | 0x09 => decide (byteN b (off + 12) / 16 < 5)
    | 0x0A => decide (byteN b (off + 1) % 8 ≠ 0)
    | _ => false

/-- What the parser carries from header to header. -/
structure PState where
  off : Nat
  hdrs : List Hdr
  faults : Nat
  vlans : Nat
  labels : Nat
  exts : Nat
  deriving DecidableEq, Repr

/-- Fault bit of a code. -/
def fbit (c : Nat) : Nat := 2 ^ (c - 1)

/-- A limit of R182 is broken by a header of kind `k` that ends at `e`. -/
def PState.limit (p : PState) (k e len : Nat) : Bool :=
  decide (512 < e) || decide (24 ≤ p.hdrs.length)
  || (decide (k = kVLAN) && decide (3 ≤ p.vlans)) || (decide (k = kMPLS) && decide (8 ≤ p.labels))
  || ((decide (k = kEXT) || decide (k = kSRH)) && decide (6 ≤ p.exts))
  || (decide (k = kGENEVE) && decide (64 + 8 < len))

/-- A stated end `e` of a header's payload against the frame end (R185): beyond it, or before it in a frame of more than
68 bytes. -/
def lenConflict (b : Bytes) (e : Nat) : Bool :=
  decide (b.length < e) || (decide (e < b.length) && decide (68 < b.length + 4))

/-- Faults of a recorded header: LEN_CONFLICT and IPV4_CKSUM (R185, R187). -/
def hdrFaults (b : Bytes) (k off len : Nat) : Nat :=
  let lc := match k with
    | 0x01 => decide (beN b (off + 12) 2 < 0x600) && lenConflict b (off + len + beN b (off + 12) 2)
    | 0x02 => decide (beN b (off + 2) 2 < 0x600) && lenConflict b (off + len + beN b (off + 2) 2)
    | 0x0F => decide (beN b (off + 4) 2 < 0x600) && lenConflict b (off + len + beN b (off + 4) 2)
    | 0x04 => lenConflict b (off + beN b (off + 2) 2)
    | 0x05 => decide (beN b (off + 4) 2 = 0) || lenConflict b (off + 40 + beN b (off + 4) 2)
    | 0x08 => lenConflict b (off + beN b (off + 4) 2)
    | _ => false
  let ck := decide (k = kIPV4) && decide (onesSum (slice b off len) 0 ≠ 0xFFFF)
  (if lc then fbit fLEN else 0) + (if ck then fbit fCKSUM else 0)

/-- The selector of the space `sp` with the value of NXT_OFS/NXT_WIDTH of user-defined header `i` (R191). -/
def State.udhNext (s : State) (b : Bytes) (off i : Nat) : Sel :=
  let w := min (s.rd (F.PRS_UDH_NXT_WIDTH.at i)) 16
  let v := if w = 0 then 0 else bitsAt b (off * 8 + s.rd (F.PRS_UDH_NXT_OFS.at i)) w
  match s.rd (F.PRS_UDH_NXT_SPACE.at i) with
  | 1 => .ether v false false
  | 2 => .ipProto v false
  | 5 => .parent (0x20 + i) v
  | _ => .payload

/-- What follows a recorded header (R179, R180). -/
def State.nextSel (s : State) (b : Bytes) (k off len : Nat) (nh44 : Bool) : Sel :=
  if 0x20 ≤ k then s.udhNext b off (k - 0x20)
  else match k with
    | 0x01 => .ether (beN b (off + 12) 2) true false
    | 0x02 => .ether (beN b (off + 2) 2) true false
    | 0x03 => if byteN b (off + 2) % 2 = 1 then .bottom else .ether 0x8847 false false
    | 0x04 => if beN b (off + 6) 2 % 8192 ≠ 0 then .payload else .ipProto (byteN b (off + 9)) false
    | 0x05 => .ipProto (byteN b (off + 6)) true
    | 0x06 => if nh44 ∧ beN b (off + 2) 2 / 8 ≠ 0 then .payload else .ipProto (byteN b off) true
    | 0x07 => .ipProto (byteN b off) true
    | 0x08 => .udpPort (beN b (off + 2) 2)
    | 0x0A => .ether (beN b (off + 2) 2) false true
    | 0x0B => .eth
    | 0x0C => .ether (beN b (off + 2) 2) false true
    | 0x0F => .ether (beN b (off + 4) 2) true false
    | _ => if len = 0 then .payload else .payload

/-- A label after a label is MPLS whatever user-defined triggers say; every other selector resolves as R189 orders. -/
def State.kindAt (s : State) (b : Bytes) (p : PState) (sel : Sel) : Option Nat :=
  match p.hdrs, sel with
  | h :: _, .ether 0x8847 false false => if h.kind = kMPLS then some kMPLS else s.resolve b p.off sel
  | _, _ => s.resolve b p.off sel

/-- Parse from a selector; `n` bounds the headers. Headers are recorded newest first. -/
def State.parseFrom (s : State) (b : Bytes) : Nat → Sel → PState → PState
  | 0, _, p => p
  | n + 1, sel, p =>
    match s.kindAt b p sel with
    | none => p
    | some k =>
      let nh44 := match sel with | .ipProto 44 true => true | _ => false
      let off := p.off
      if b.length < off + s.fixedLen k then { p with faults := p.faults ||| fbit fTRUNC }
      else
        let len := s.instLen b k off nh44
        if s.malformed b k off len then { p with faults := p.faults ||| fbit fMALF }
        else if b.length < off + len then { p with faults := p.faults ||| fbit fTRUNC }
        else if p.limit k (off + len) len then { p with faults := p.faults ||| fbit fDEPTH }
        else
          let p' : PState :=
            { off := off + len
              hdrs := ⟨k, off, len⟩ :: p.hdrs
              faults := p.faults ||| hdrFaults b k off len
              vlans := if k = kETH then 0 else if k = kVLAN then p.vlans + 1 else p.vlans
              labels := if k = kMPLS then p.labels + 1 else p.labels
              exts := if k = kIPV6 then 0 else if k = kEXT ∨ k = kSRH then p.exts + 1 else p.exts }
          State.parseFrom s b n (s.nextSel b k off len nh44) p'

/-- Parse a frame from its first byte: the recorded headers in order, and the faults as bits code − 1 (R182, R183). -/
def State.parse (s : State) (b : Bytes) : List Hdr × Nat :=
  let p := s.parseFrom b 26 .eth ⟨0, [], 0, 0, 0, 0⟩
  (p.hdrs.reverse, p.faults)

/-- Count a parsed frame of slice `sl` in PRS_CNT (R188). -/
def State.countParse (s : State) (sl : Nat) (egress : Bool) (faults : Nat) : State :=
  let b := 12 * sl + (if egress then 6 else 0)
  let s := s.cnt (R.PRS_CNT.at b)
  foldS (List.range 5) (fun i s => if bitN faults i then s.cnt (R.PRS_CNT.at (b + 1 + i)) else s) s

/-- The instance of a kind that INST names: first, second, third or last (R192). -/
def findHdr (hs : List Hdr) (kind inst : Nat) : Option Hdr :=
  let l := hs.filter (fun h => h.kind == kind)
  if inst = 3 then l.getLast? else l[inst]?

/-- The first header of a kind. -/
def firstHdr (hs : List Hdr) (kind : Nat) : Option Hdr := hs.find? (fun h => h.kind == kind)

/-- `w` bits at bit offset `o` of a header instance; bits beyond its end read zero (R192). -/
def hdrBits (b : Bytes) (h : Hdr) (o w : Nat) : Nat := bitsAt (slice b h.off h.len) o w

/-- An extract descriptor word: KIND, INST, OFS, WIDTH (R192; 33–63 act as 32). -/
structure Desc where
  kind : Nat
  inst : Nat
  ofs : Nat
  width : Nat
  deriving DecidableEq, Repr

/-- Read a descriptor word. -/
def descOf (w : Nat) : Desc := ⟨bits w 31 24, bits w 23 22, bits w 19 8, min (bits w 5 0) 32⟩

/-- The metadata pseudo-header of R207: 28 bits, first bit most significant. -/
def metaHdr (port vrf tc : Nat) : Nat := (port % 512) * 2 ^ 19 + (vrf % 65536) * 8 + tc % 8

/-- The value and the presence of a descriptor; `pseudo` is the metadata pseudo-header where the key has one. -/
def Desc.value (d : Desc) (b : Bytes) (hs : List Hdr) (pseudo : Option Nat) : Nat × Bool :=
  if d.kind = 0x3F then
    match pseudo with
    | none => (0, false)
    | some m => ((m * 2 ^ (4096 + 64) / 2 ^ (28 + 4096 + 64 - d.ofs - d.width)) % 2 ^ d.width, true)
  else match findHdr hs d.kind d.inst with
    | none => (0, false)
    | some h => (if d.width = 0 then 0 else hdrBits b h d.ofs d.width, true)

/-- Concatenate descriptor values, first one most significant. -/
def concatDescs (l : List (Desc × Nat × Bool)) : Nat × Nat :=
  l.foldl (fun acc x => (acc.1 * 2 ^ x.1.width + x.2.1, acc.2 + x.1.width)) (0, 0)

end Sys2Proof.Machine
end

