-- ==== Sys2Proof/Machine/Rings.lean ====
section
/-! DEFINITION. Host rings (R467–R472): room, production, consumption, index shadows, interrupts, enable, disable and DMA
errors. -/

namespace Sys2Proof.Machine

/-- Ring indices of R467. -/
def rCMD : Nat := 0
/-- Response ring. -/
def rRSP : Nat := 1
/-- Learn ring. -/
def rLEARN : Nat := 2
/-- Digest ring. -/
def rDIGEST : Nat := 3
/-- Punt ring `n`. -/
def rPUNT (n : Nat) : Nat := 8 + n
/-- Inject ring `n`. -/
def rINJ (n : Nat) : Nat := 40 + n

/-- A byte ring (R467). -/
def isByteRing (i : Nat) : Bool := decide (8 ≤ i)

/-- The host produces the ring, so PROD is its own index (R467). -/
def hostProduces (i : Nat) : Bool := decide (i = 0) || decide (40 ≤ i)

/-- Bytes of one entry of an entry ring (R467). -/
def entryBytes (i : Nat) : Nat := if i = 2 then 32 else if i = 3 then 128 else 64

/-- Size of a ring, in entries or bytes. -/
def State.ringSize (s : State) (i : Nat) : Nat := 2 ^ s.rd (F.HST_RING_LOG2_SIZE.at i)

/-- LOG2_SIZE lies in the range of the ring's kind (R468); rings 4–7 are reserved and of no kind. -/
def State.ringSizeOk (s : State) (i : Nat) : Bool :=
  let l := s.rd (F.HST_RING_LOG2_SIZE.at i)
  if 4 ≤ i ∧ i < 8 then false
  else if isByteRing i then decide (16 ≤ l) && decide (l ≤ 30) else decide (4 ≤ l) && decide (l ≤ 20)

/-- The ring is enabled and served (R463, R470). -/
def State.ringOn (s : State) (i : Nat) : Bool := s.on (F.HST_RING_EN.at i) && !s.pcie.d3hot

/-- PROD of a ring. -/
def State.prod (s : State) (i : Nat) : Nat := s.rd (F.HST_RING_PROD.at i)
/-- CONS of a ring. -/
def State.cons (s : State) (i : Nat) : Nat := s.rd (F.HST_RING_CONS.at i)

/-- Host address of a ring's start. -/
def State.ringBase (s : State) (i : Nat) : Nat := s.rd64 (R.HST_RING.at i)

/-- Units in use. -/
def State.ringUsed (s : State) (i : Nat) : Nat := (s.prod i + s.ringSize i - s.cons i) % s.ringSize i

/-- An entry ring has room for one entry (R468). -/
def State.entryRoom (s : State) (i : Nat) : Bool := s.ringOn i && decide (s.ringUsed i + 1 < s.ringSize i)

/-- PAD bytes a record of `n` bytes needs before it (R468). -/
def State.padFor (s : State) (i n : Nat) : Nat := if s.ringSize i < s.prod i + n then s.ringSize i - s.prod i else 0

/-- A byte ring has room for a record of `n` bytes with its PAD: PROD stays at least 64 bytes behind CONS (R468). -/
def State.byteRoom (s : State) (i n : Nat) : Bool :=
  s.ringOn i && decide (s.ringUsed i + s.padFor i n + n + 64 ≤ s.ringSize i)

/-- SHADOW of a ring. -/
def State.shadow (s : State) (i : Nat) : Nat := (s.rdw ((R.HST_RING.at i).addr + 0x18)).toNat
  + (s.rdw ((R.HST_RING.at i).addr + 0x1C)).toNat * 2 ^ 32

/-- The index the M2880 owns. -/
def State.ownIndex (s : State) (i : Nat) : Nat := if hostProduces i then s.cons i else s.prod i

/-- Write the index shadow of a ring (R469). -/
def State.writeShadow (s : State) (i : Nat) : State :=
  let up := s.tb.up
  let s := s.emit (.dmaWrite (s.shadow i) (leB 4 (s.ownIndex i) ++ zeros 4))
  { s with ring := { s.ring with
      shadowAt := mset (fun _ => none) s.ring.shadowAt i (some up)
      shadowDue := s.ring.shadowDue.filter (· ≠ i) } }

/-- The spacing of 100 ns since the last shadow write of a ring has passed (R469). -/
def State.shadowFree (s : State) (i : Nat) : Bool :=
  match mget (fun _ => (none : Option Nat)) s.ring.shadowAt i with
  | none => true
  | some t => decide (t + 100 ≤ s.tb.up)

/-- After a change of the own index: the shadow is written, or held for its spacing (R469) or the return to D0 (R463). -/
def State.shadowChange (s : State) (i : Nat) : State :=
  if s.shadow i = 0 then s
  else if s.shadowFree i && !s.pcie.d3hot then s.writeShadow i
  else if s.ring.shadowDue.contains i then s
  else { s with ring := { s.ring with shadowDue := s.ring.shadowDue ++ [i] } }

/-- A held shadow write goes out at the end of its spacing. -/
def State.shadowDue (s : State) (i : Nat) : State :=
  if s.ring.shadowDue.contains i && !s.pcie.d3hot then
    match mget (fun _ => (none : Option Nat)) s.ring.shadowAt i with
    | none => s.writeShadow i
    | some t => (s.advanceUp (t + 100)).writeShadow i
  else s

/-- IRQ_EN: the ring triggers VEC (R472). -/
def State.ringIrq (s : State) (i : Nat) : State :=
  if s.on (F.HST_RING_IRQ_EN.at i) then s.trigger (s.rd (F.HST_RING_VEC.at i)) else s

/-- Advance PROD of a ring the device produces: shadow and interrupt follow (R469, R472). -/
def State.setProd (s : State) (i v : Nat) : State := ((s.wr (F.HST_RING_PROD.at i) v).shadowChange i).ringIrq i

/-- Advance CONS of a ring the device consumes; an interrupt when it reaches PROD (R472). -/
def State.setCons (s : State) (i v : Nat) : State :=
  let s := (s.wr (F.HST_RING_CONS.at i) v).shadowChange i
  if s.cons i = s.prod i then s.ringIrq i else s

/-- Write one entry, counted in RECORDS; the caller has tested for room. -/
def State.produceEntry (s : State) (i : Nat) (b : Bytes) : State :=
  let s := s.emit (.dmaWrite (s.ringBase i + s.prod i * entryBytes i) b)
  (s.cnt (R.HST_RING_CNT.at i) 0).setProd i ((s.prod i + 1) % s.ringSize i)

/-- The 64 bytes of a response that waited, written now. -/
def RspWait.bytes (x : RspWait) (now : Nat) : Bytes := x.pre ++ leB 8 (x.tick.getD now) ++ x.post

/-- Write responses in order while the response ring has room (R467, R477). -/
def State.rspWrite (s : State) : List RspWait → State
  | [] => { s with ring := { s.ring with rsp := [] } }
  | x :: l =>
    if s.entryRoom rRSP then State.rspWrite (s.produceEntry rRSP (x.bytes s.tick)) l
    else { s with ring := { s.ring with rsp := x :: l } }

/-- Responses that wait are written once there is room. -/
def State.rspPump (s : State) : State := if s.ring.rsp.isEmpty then s else s.rspWrite s.ring.rsp

/-- A response is due: written in order when the ring has room for it. -/
def State.rspPut (s : State) (x : RspWait) : State :=
  { s with ring := { s.ring with rsp := s.ring.rsp ++ [x] } }.rspPump

/-- The 64-byte header of a PAD record of `n` bytes: TYPE and RECORD_LEN only (R478). -/
def padRecord (n : Nat) : Bytes := leB 4 (0xFF000000 + n) ++ zeros 60

/-- Write one record of a byte ring after the PAD it needs; the caller has tested for room. -/
def State.produceRecord (s : State) (i : Nat) (b : Bytes) : State :=
  let pad := s.padFor i b.length
  let s1 := if pad = 0 then s else s.emit (.dmaWrite (s.ringBase i + s.prod i) (padRecord pad))
  let p := if pad = 0 then s.prod i else 0
  let s2 := s1.emit (.dmaWrite (s.ringBase i + p) b)
  (s2.cnt (R.HST_RING_CNT.at i) 0).setProd i ((p + b.length) % s.ringSize i)

/-- Set a bit of HST_EVT. -/
def State.hstEvt (s : State) (f : Fld) : State := s.setEvt R.HST_EVT R.HST_EVT_EN f (eg 15 0)

/-- A record that its ring cannot take: DROPPED and RING_DROP (R478). -/
def State.ringDrop (s : State) (i : Nat) : State := (s.cnt (R.HST_RING_CNT.at i) 8).hstEvt F.HST_EVT_RING_DROP

/-- EN written from 0 to 1 (R470): ignored while LOG2_SIZE is out of range; otherwise the indices restart, STOPPED clears
and the record numbers of R478 restart. -/
def State.ringEnable (s : State) (i : Nat) : State :=
  if s.on (F.HST_RING_EN.at i) || !s.ringSizeOk i then s else
  let own := s.ownIndex i
  let s := ((((s.wr (F.HST_RING_EN.at i) 1).wr (F.HST_RING_STOPPED.at i) 0).wr (F.HST_RING_PROD.at i) 0).wr
    (F.HST_RING_CONS.at i) 0)
  let s := if own = 0 then s else s.shadowChange i
  let s := { s with ring := { s.ring with seq := mset (fun _ => 0) s.ring.seq i 0 } }
  if i = rDIGEST then { s with ev := { s.ev with raised := 0, digPend := none } }
  else if i = rRSP then s.rspPump else s

/-! ### Event digest (R487, R488) -/

/-- The 128 bytes of a digest record (R487). -/
def digestBytes (last seq count info bits pend : Nat) : Bytes :=
  leB 8 last ++ leB 8 seq ++ leB 4 count ++ leB 4 info ++ zeros 8 ++ leB 32 bits ++ leB 32 pend ++ zeros 32

/-- EVT_PEND as one number of 256 bits. -/
def State.pendWord (s : State) : Nat := (List.range 8).foldl (fun n w => n + s.rdr (R.EVT_PEND.at w) * 2 ^ (32 * w)) 0

/-- Bytes 20–23 of a digest record now: CAD_OVR and MODE. -/
def State.digestInfo (s : State) : Nat := s.rd F.CAD_OVR_OVR + s.mode * 2 ^ 8

/-- Write the digest record that waits, once its ring has room (R487). -/
def State.digestPump (s : State) : State :=
  match s.ev.digPend with
  | none => s
  | some r =>
    if !s.entryRoom rDIGEST then s else
    let n := s.ev.digSeq
    let s := s.produceEntry rDIGEST (digestBytes r.last n r.count r.info r.bits r.pend)
    { s with ev := { s.ev with digPend := none, digSeq := n + 1 } }.wr64 R.EVT_DIGEST_SEQ n

/-- The record of a closed interval: merged with one still waiting, which is an overrun, else written if there is room (R488). -/
def State.digestClose (s : State) (last bits : Nat) : State :=
  if !s.on (F.HST_RING_EN.at rDIGEST) then { s with ev := { s.ev with digPend := none } }
  else
    let s := s.digestPump
    match s.ev.digPend with
    | none => { s with ev := { s.ev with digPend := some ⟨1, last, bits, s.pendWord, s.digestInfo⟩ } }.digestPump
    | some r => { s with ev := { s.ev with digPend := some ⟨r.count + 1, last, r.bits ||| bits, s.pendWord, s.digestInfo⟩ } }.overrun 6

/-- EN written 0 (R470): the ring stops after the entry in progress. -/
def State.ringDisable (s : State) (i : Nat) : State :=
  if s.on (F.HST_RING_EN.at i) then (s.wr (F.HST_RING_EN.at i) 0).wr (F.HST_RING_STOPPED.at i) 1 else s

/-- A ring DMA that fails (R471). -/
def State.dmaError (s : State) (i addr : Nat) : State :=
  if s.on (F.HST_RING_EN.at i) then
    let s := (s.wr (F.HST_RING_EN.at i) 0).wr (F.HST_RING_STOPPED.at i) 1
    ((s.wr64 R.HST_DMA_ERR_ADDR addr).wr F.HST_DMA_ERR_RING_RING i).hstEvt F.HST_EVT_DMA_ERR
  else s

end Sys2Proof.Machine
end

