-- ==== Sys2Proof/Machine/Classify.lean ====
section
/-! DEFINITION. Classification (R192–R199), rule-table writes (R200–R202) and the punt path (R203–R205, R478). -/

namespace Sys2Proof.Machine

/-! ### The key and the search -/

/-- The key fields of a profile: PRESENT bits and the concatenated values with their width, from the descriptors at
register `r` element `base` on (R193). -/
def State.descs (s : State) (addr n : Nat) : List Desc := (List.range n).map (fun d => descOf (s.rdw (addr + 4 * d)).toNat)

/-- The descriptor values of a key. -/
def descVals (ds : List Desc) (b : Bytes) (hs : List Hdr) (m : Option Nat) : List (Desc × Nat × Bool) :=
  ds.map (fun d => (d, d.value b hs m))

/-- PRESENT bits: bit d for descriptor d. -/
def presentBits (l : List (Desc × Nat × Bool)) : Nat :=
  (l.foldl (fun (acc : Nat × Nat) x => (acc.1 + b2n x.2.2 * 2 ^ acc.2, acc.2 + 1)) (0, 0)).1

/-- The 192-bit classification key (R194). -/
def State.clsKey (s : State) (port : Nat) (b : Bytes) (hs : List Hdr) (faults : Nat) : Nat :=
  let prof := s.rd (F.CLS_PORT_CFG_PROFILE.at port)
  let l := descVals (s.descs (R.CLS_EXTRACT.addr + 32 * prof) 8) b hs none
  let (v, w) := concatDescs l
  prof * 2 ^ 188 + port % 512 * 2 ^ 179 + faults % 32 * 2 ^ 174 + presentBits l % 256 * 2 ^ 166
    + (v * 2 ^ (160 - w)) % 2 ^ 160

/-- An entry matches a key: VALID and every masked bit equal (R195). -/
def ClsEnt.hits (e : ClsEnt) (key : Nat) : Bool := e.valid && decide (key &&& e.mask = e.key &&& e.mask)

/-- The governing entry of a slice: the lowest index that matches (R195). -/
def State.clsSearch (s : State) (sl key : Nat) : Option ClsEnt :=
  ((s.cls.filter (fun x => x.1 / 8192 == sl)).find? (fun x => x.2.hits key)).map (·.2)

/-- Class and colour from the port's trust setting (R198). -/
def State.qosDefault (s : State) (port : Nat) (b : Bytes) (hs : List Hdr) : Nat × Nat :=
  let idx : Option Nat := match s.rd (F.CLS_PORT_CFG_TRUST.at port) with
    | 1 => (firstHdr hs kVLAN).map (fun h => 64 + 2 * (byteN b h.off / 32) + byteN b h.off / 16 % 2)
    | 2 => (hs.find? (fun h => h.kind == kIPV4 || h.kind == kIPV6)).map (fun h =>
        if h.kind = kIPV4 then byteN b (h.off + 1) / 4 else beN b h.off 2 / 64 % 64)
    | 3 => (firstHdr hs kMPLS).map (fun h => 80 + byteN b (h.off + 2) / 2 % 8)
    | _ => none
  match idx with
  | some i => (s.rd (F.CLS_QOS_MAP_TC.at i), s.rd (F.CLS_QOS_MAP_COLOUR.at i))
  | none => (s.rd (F.CLS_PORT_CFG_DEF_TC.at port), s.rd (F.CLS_PORT_CFG_DEF_COLOUR.at port))

/-- Colour 3 acts as red (R196). -/
def colourOf (c : Nat) : Nat := min c 2

/-- What the classifier decides for a packet (R199). -/
inductive Verdict where
  | drop | punt (reason : Nat) | forward
  deriving DecidableEq, Repr

/-- The action of a fault code in PRS_ERR_ACT: 0 punt, 1 drop, 2 continue (R184). -/
def State.faultAct (s : State) (code : Nat) : Nat :=
  let v := s.rd (match code with
    | 1 => F.PRS_ERR_ACT_DEPTH | 2 => F.PRS_ERR_ACT_LEN | 3 => F.PRS_ERR_ACT_TRUNC
    | 4 => F.PRS_ERR_ACT_MALFORMED | _ => F.PRS_ERR_ACT_CKSUM)
  if v = 1 then 1 else if v = 2 ∧ code ≠ 1 then 2 else 0

/-- The fault verdict: any drop drops, else the lowest-numbered punt punts, else the packet continues (R184). -/
def State.faultVerdict (s : State) (faults : Nat) : Verdict :=
  let l := (List.range 5).filterMap (fun i => if bitN faults i then some (i + 1) else none)
  if l.any (fun c => s.faultAct c == 1) then .drop
  else match l.find? (fun c => s.faultAct c == 0) with
    | some c => .punt c
    | none => .forward

/-- ACTION fields of R196. -/
def actBit (a i : Nat) : Bool := bitN a i

/-- Classify a parsed packet (R199): its class, colour, queue mode and treatment, and the verdict; `fixed` names the
counters of CLS_CNT it touches. -/
def State.classify (s : State) (p : Pkt) : State × Pkt × Verdict :=
  let key := s.clsKey p.port p.bytes p.hdrs p.faults
  let (dTc, dCol) := s.qosDefault p.port p.bytes p.hdrs
  let e := s.clsSearch p.slice key
  let a := (e.map (·.action)).getD 0
  let tc := if actBit a 15 then bits a 14 12 else dTc
  let col := colourOf (if actBit a 11 then bits a 10 9 else dCol)
  let p := { p with
    tc := tc, colour := col, qmode := actBit a 34, queue := bits a 33 16
    stream := if actBit a 51 then some (bits a 50 35) else none
    gal := actBit a 52, lkpProf := bits a 3 0 }
  match s.faultVerdict p.faults with
  | .drop => (s.cnt (R.CLS_CNT.at p.slice) 0x10, p, .drop)
  | .punt r => (s, p, .punt r)
  | .forward =>
    if actBit a 60 then (s.cnt (R.CLS_CNT.at p.slice) 0x08, p, .drop)
    else if actBit a 59 then (s, p, .punt (bits a 58 53))
    else match e with
      | none => (s.cnt (R.CLS_CNT.at p.slice) 0x00, p, .punt 0)
      | some _ => (if p.gal then s.cnt (R.CLS_CNT.at p.slice) 0x18 else s, p, .forward)

/-! ### Rule-table commands (R200–R202, R519) -/

/-- The slices of a mask, lowest first. -/
def slicesOf (m : Nat) : List Nat := (List.range 8).filter (fun i => bitN m i)

/-- The entry image in CLS_IND_DATA. -/
def State.clsData (s : State) : ClsEnt :=
  let w (i : Nat) : Nat := (s.rdw (R.CLS_IND_DATA.at i).addr).toNat
  let n (i k : Nat) : Nat := (List.range k).foldl (fun acc j => acc + w (i + j) * 2 ^ (32 * j)) 0
  { key := n 0 6, mask := n 6 6, action := n 12 2, valid := bitN (w 14) 0 }

/-- Put an entry into CLS_IND_DATA. -/
def State.clsShow (s : State) (e : ClsEnt) : State :=
  let ws := (List.range 6).map (fun j => e.key / 2 ^ (32 * j)) ++ (List.range 6).map (fun j => e.mask / 2 ^ (32 * j))
    ++ (List.range 2).map (fun j => e.action / 2 ^ (32 * j)) ++ [b2n e.valid]
  foldS (List.range 15) (fun i s => s.wrw (R.CLS_IND_DATA.at i).addr (BitVec.ofNat 32 (ws.getD i 0))) s

/-- Completion of a CLS command: OP clears, DONE and ERR are set, DONE raises CLS_DONE (R489, R519). -/
def State.clsDone (s : State) (err : Nat) : State :=
  ((((s.wr F.CLS_IND_CMD_OP 0).wr F.CLS_IND_STATUS_ERR err).wr F.CLS_IND_STATUS_DONE 1)).raise (eg 7 1)

/-- Store an entry of the rule table. -/
def State.clsPut (s : State) (sl i : Nat) (e : ClsEnt) : State :=
  { s with cls := mset (fun _ => {}) s.cls (sl * 8192 + i) e }

/-- An indirect command of CLS: the other fields are in CLS_IND_CMD (R200–R202). -/
def State.clsCmd (s : State) (op : Nat) : State :=
  if s.on F.CLS_IND_STATUS_BUSY then s.wr F.CLS_IND_STATUS_WR_IGNORED 1 else
  let m := s.rd F.CLS_IND_CMD_SLICE_MASK
  let i := s.rd F.CLS_IND_CMD_INDEX
  if m = 0 then s.clsDone 2 else
  match op with
  | 1 =>
    let e := s.clsData
    if bitN e.action 59 && decide (bits e.action 58 53 < 16) then s.clsDone 1
    else (foldS (slicesOf m) (fun sl s => s.clsPut sl i e) s).clsDone 0
  | 2 =>
    let sl := (slicesOf m).headD 0
    (s.clsShow (mget (fun _ => {}) s.cls (sl * 8192 + i))).clsDone 0
  | 3 => (foldS (slicesOf m) (fun sl s =>
      s.clsPut sl i { mget (fun _ => {}) s.cls (sl * 8192 + i) with valid := false }) s).clsDone 0
  | _ => s

/-! ### Punt path (R203–R205, R478) -/

/-- The next refill instant comes: time passes to it, and every bucket gains RATE up to its ceiling (R204). -/
def State.puntRefill (s : State) : State :=
  let n := s.puntInstant
  let on := decide (s.tb.now % (1000 * tuNs) = 0) && decide (s.punt.last < n)
  (s.puntSync.advanceTo ((if on then n else n + 1) * (1000 * tuNs))).puntSync

/-- The 64-byte header of a punt record (R478). -/
def State.puntHeader (s : State) (p : Pkt) (reason cap rec : Nat) (seq : Nat) (egress : Bool) : Bytes :=
  let port := if egress then p.egrPort else p.port
  let w1 := b2n (decide (cap < p.bytes.length)) * 2 ^ 31 + p.bytes.length % 2 ^ 14 * 2 ^ 16 + cap % 2 ^ 14
  let w2 := b2n egress * 2 ^ 29 + b2n p.stream.isSome * 2 ^ 28 + p.faults % 32 * 2 ^ 23 + p.colour % 4 * 2 ^ 21
    + p.tc % 8 * 2 ^ 18 + reason % 64 * 2 ^ 12 + p.slice % 8 * 2 ^ 9 + port % 512
  leB 4 (0x01 * 2 ^ 24 + rec) ++ leB 4 w1 ++ leB 4 w2 ++ leB 4 (p.stream.getD 0)
    ++ leB 8 (compact p.stamp) ++ leB 8 p.decision ++ leB 4 p.queue ++ leB 4 p.adj
    ++ leB 8 (s.tickAt (p.stamp / 65536)) ++ leB 8 seq ++ zeros 8

/-- Write a punt record into ring `r`, or drop it (R478). -/
def State.puntRecord (s : State) (r reason : Nat) (p : Pkt) (egress : Bool) : State :=
  let i := rPUNT r
  let snap := s.rd (F.HST_PUNT_CFG_SNAP.at r)
  let cap := if snap = 0 then p.bytes.length else min p.bytes.length (snap * 64)
  let n := (64 + cap + 63) / 64 * 64
  if s.byteRoom i n then
    let seq := mget (fun _ => 0) s.ring.seq i
    let rcd := padTo 64 (s.puntHeader p reason cap n seq egress ++ p.bytes.take cap)
    let s := s.produceRecord i rcd
    { s with ring := { s.ring with seq := mset (fun _ => 0) s.ring.seq i (seq + 1) } }
  else s.ringDrop i

/-- A punted packet passes both buckets or is dropped; what passes goes to its ring or the control cores (R204). -/
def State.puntPacket (s : State) (reason : Nat) (p : Pkt) (egress : Bool := false) : State :=
  let s := s.puntSync
  if s.tokens reason < 10 ^ 6 ∨ s.tokens 64 < 10 ^ 6 then
    let s := s.cnt (R.CLS_PUNT_CNT.at reason) 8
    if s.punt.dropSeen.contains reason then s
    else { s.raise (eg 7 0) with punt := { s.punt with dropSeen := reason :: s.punt.dropSeen } }
  else
    let s := (s.setTokens reason (s.tokens reason - 10 ^ 6))
    let s := s.setTokens 64 (s.tokens 64 - 10 ^ 6)
    let s := s.cnt (R.CLS_PUNT_CNT.at reason) 0
    if reason = 6 ∨ s.on (F.CLS_PUNT_CFG_DEST.at reason) then s.emit (.toCores reason p.port p.bytes)
    else s.puntRecord (s.rd (F.CLS_PUNT_CFG_RING.at reason)) reason p egress

end Sys2Proof.Machine
end

