-- ==== Sys2Proof/Machine/Tables.lean ====
section
/-! DEFINITION. The structures of the table region (R222–R234): exact-match entries and their hashes,
visibility by generation, next-hops, ECMP groups and adjacencies. -/

namespace Sys2Proof.Machine

/-! ### Hashes (R224) -/

/-- One bit of a non-reflected CRC-32. -/
def crcMBit (poly c : Nat) : Nat := if 2 ^ 31 ≤ c then (c * 2 % 2 ^ 32) ^^^ poly else c * 2

/-- CRC-32, most significant bit first, no final XOR. -/
def crcM (poly init : Nat) (b : Bytes) : Nat :=
  b.foldl (fun c x => (List.range 8).foldl (fun c _ => crcMBit poly c) (c ^^^ (x.toNat * 2 ^ 24))) init

/-- H0 with a seed. -/
def hash0 (seed : Nat) (b : Bytes) : Nat := crcM 0x1EDC6F41 seed b

/-- H1 with a seed. -/
def hash1 (seed : Nat) (b : Bytes) : Nat :=
  crcM 0x741B8CD7 (((seed * 2 ^ 16 % 2 ^ 32 + seed / 2 ^ 16) % 2 ^ 32) ^^^ 0xA5A5A5A5) b

/-! ### Generations (R241) -/

/-- `g` is at or after `gen` in 16-bit arithmetic. -/
def genReached (g gen : Nat) : Bool := decide ((g + 65536 - gen % 65536) % 65536 < 32768)

/-- Visibility of an entry for the generation in force. -/
def visibleAt (vis gen g : Nat) : Bool :=
  match vis with
  | 0 => true
  | 1 => genReached g gen
  | 2 => !genReached g gen
  | _ => false

/-- The generation in force for an ingress stamp: the last commit whose tick instant is not after it (R241). -/
def State.genFor (s : State) (stamp : Nat) : Nat :=
  match s.cmt.hist.find? (fun h => decide (h.2 ≤ stamp)) with
  | some h => h.1
  | none => match s.cmt.hist.getLast? with
    | some h => (h.1 + 65535) % 65536
    | none => s.rd F.TBL_COMMIT_STATUS_GEN

/-- The generation committed last. -/
def State.genNow (s : State) : Nat := s.rd F.TBL_COMMIT_STATUS_GEN

/-! ### Exact match (R222–R227) -/

/-- An exact-match entry (R223). -/
structure EmEnt where
  valid : Bool
  vis : Nat
  static : Bool
  hit : Bool
  tbl : Nat
  slice : Nat
  gen : Nat
  user : Nat
  stn : Nat
  fwd : Nat
  key : Nat
  deriving DecidableEq, Repr

/-- Byte offset of entry `i` (bucket × 4 + slot) of the pool. -/
def State.emAddr (s : State) (i : Nat) : Nat := s.tblBase 0 + i * 32

/-- Read an entry. -/
def State.emRead (s : State) (i : Nat) : EmEnt :=
  let a := s.emAddr i
  let w7 := s.tw (a + 28)
  let r := s.tw (a + 16) + s.tw (a + 20) * 2 ^ 32 + s.tw (a + 24) * 2 ^ 64
  { valid := bitN w7 31, vis := bits w7 30 29, static := bitN w7 28, hit := bitN w7 27, tbl := bits w7 26 23
    slice := bits w7 22 20, gen := bits w7 15 0, user := r / 2 ^ 64, stn := bits r 56 48, fwd := r % 2 ^ 48
    key := s.tw a + s.tw (a + 4) * 2 ^ 32 + s.tw (a + 8) * 2 ^ 64 + s.tw (a + 12) * 2 ^ 96 }

/-- The eight words of an entry. -/
def EmEnt.words (e : EmEnt) : List Nat :=
  let r := e.user % 2 ^ 32 * 2 ^ 64 + e.stn % 512 * 2 ^ 48 + e.fwd % 2 ^ 48
  let w (n i : Nat) : Nat := n / 2 ^ (32 * i) % 2 ^ 32
  [w e.key 0, w e.key 1, w e.key 2, w e.key 3, w r 0, w r 1, w r 2,
    b2n e.valid * 2 ^ 31 + e.vis % 4 * 2 ^ 29 + b2n e.static * 2 ^ 28 + b2n e.hit * 2 ^ 27 + e.tbl % 16 * 2 ^ 23
      + e.slice % 8 * 2 ^ 20 + e.gen % 65536]

/-- Write an entry. -/
def State.emWrite (s : State) (i : Nat) (e : EmEnt) : State := s.twPut (s.emAddr i) e.words

/-- The generation that deletes entry `i` while its own is pending (log entry 133). -/
def State.emShadow (s : State) (i : Nat) : Option Nat := mget (fun _ => none) s.cmt.shadow i

/-- Set it. -/
def State.emShadowSet (s : State) (i : Nat) (v : Option Nat) : State :=
  { s with cmt := { s.cmt with shadow := mset (fun _ => none) s.cmt.shadow i v } }

/-- Invalidate an entry. -/
def State.emFree (s : State) (i : Nat) : State := (s.twPut (s.emAddr i) [0, 0, 0, 0, 0, 0, 0, 0]).emShadowSet i none

/-- Visibility of entry `i` for generation `g` (R241). -/
def State.emVisible (s : State) (i : Nat) (e : EmEnt) (g : Nat) : Bool :=
  visibleAt e.vis e.gen g && (match s.emShadow i with | some d => !genReached g d | none => true)

/-- The table is in use. -/
def State.emOn (s : State) (k : Nat) : Bool := s.on (F.TBL_EM_CFG_EN.at k)

/-- The slice a table's key carries: the lookup's in a PER_SLICE table, 0 otherwise. -/
def State.emSlice (s : State) (k sl : Nat) : Nat := if s.on (F.TBL_EM_CFG_PER_SLICE.at k) then sl else 0

/-- Bytes hashed for a key (R224). -/
def State.emHashBytes (s : State) (k sl key : Nat) : Bytes :=
  let t := if s.on (F.TBL_EM_CFG_PER_SLICE.at k) then 0x80 + sl * 16 + k else k
  BitVec.ofNat 8 t :: beB ((s.rd (F.TBL_EM_CFG_KEY_WIDTH.at k) + 7) / 8) key

/-- The two candidate buckets (R224). -/
def State.emBuckets (s : State) (k sl key : Nat) : Nat × Nat :=
  let seed := s.rd (F.TBL_EM_CFG_SEED.at k)
  let b := s.emHashBytes k sl key
  let m := 2 ^ s.rd (F.TBL_EM_CFG_LOG2_SIZE.at k)
  let base := s.rd (F.TBL_EM_CFG_BASE.at k)
  let b0 := base + hash0 seed b % m
  let b1 := base + hash1 seed b % m
  (b0, if b1 = b0 then b0 ^^^ 1 else b1)

/-- Slots of a key's candidate buckets, b0 before b1, slots 0–3. -/
def State.emSlots (s : State) (k sl key : Nat) : List Nat :=
  let (b0, b1) := s.emBuckets k sl key
  [b0 * 4, b0 * 4 + 1, b0 * 4 + 2, b0 * 4 + 3, b1 * 4, b1 * 4 + 1, b1 * 4 + 2, b1 * 4 + 3]

/-- An entry belongs to the key. -/
def EmEnt.isFor (e : EmEnt) (k sl key : Nat) : Bool := e.valid && e.tbl == k && e.slice == sl && e.key == key

/-- The visible entry of a key for generation `g`, with its index (R225). -/
def State.emFind (s : State) (k sl key g : Nat) : Option (Nat × EmEnt) :=
  let sl := s.emSlice k sl
  ((s.emSlots k sl key).map (fun i => (i, s.emRead i))).find? (fun x => x.2.isFor k sl key && s.emVisible x.1 x.2 g)

/-! ### Next-hops, ECMP and adjacencies (R229–R234) -/

/-- Byte offset of a next-hop. -/
def State.nhAddr (s : State) (i : Nat) : Nat := s.tblBase 2 + i * 16
/-- Byte offset of an adjacency. -/
def State.adjAddr (s : State) (i : Nat) : Nat := s.tblBase 5 + i * 64
/-- Byte offset of an ECMP group. -/
def State.grpAddr (s : State) (i : Nat) : Nat := s.tblBase 3 + i * 8
/-- Byte offset of an ECMP member. -/
def State.memAddr (s : State) (i : Nat) : Nat := s.tblBase 4 + i * 4

/-- STATE of a next-hop: 0 FREE, 1 ACTIVE, 2 DRAINING. -/
def State.nhState (s : State) (i : Nat) : Nat := bits (s.tw (s.nhAddr i)) 31 30
/-- STATE of an adjacency. -/
def State.adjState (s : State) (i : Nat) : Nat := bits (s.tw (s.adjAddr i)) 31 30

/-- Set the STATE field of the word at `a`. -/
def State.setEntState (s : State) (a v : Nat) : State := s.twSet a (s.tw a % 2 ^ 30 + v * 2 ^ 30)

/-- An entry becomes FREE when DRAINING, its count is zero and HOLDOFF has elapsed since the delete (R234). -/
def State.entFreed (s : State) (adj : Bool) (i : Nat) : State :=
  let a := if adj then s.adjAddr i else s.nhAddr i
  let k := i * 2 + b2n adj
  match mget (fun _ => (none : Option Nat)) s.cmt.drainAt k with
  | none => s
  | some t =>
    if bits (s.tw a) 31 30 = 2 ∧ s.inflight adj i = 0 then
      let s := s.advanceUp (t + s.rd F.TBL_DRAIN_CFG_HOLDOFF * 1000)
      let s := { s.setEntState a 0 with cmt := { s.cmt with drainAt := mset (fun _ => none) s.cmt.drainAt k none } }
      (s.raise (eg 8 0)).emit (.adjFreed adj i)
    else s

/-- ADJ_DELETE or NH_DELETE: STATE becomes DRAINING. -/
def State.entDrain (s : State) (adj : Bool) (i : Nat) : State :=
  let a := if adj then s.adjAddr i else s.nhAddr i
  let up := s.tb.up
  { s.setEntState a 2 with cmt := { s.cmt with drainAt := mset (fun _ => none) s.cmt.drainAt (i * 2 + b2n adj) (some up) } }

end Sys2Proof.Machine
end

