-- ==== Sys2Proof/Machine/Lpm.lean ====
section
/-! DEFINITION. Longest-prefix match (R216–R221): pivots with their buckets and fallbacks, the placing of routes in slots, layout
writes, the lookup. Where field firmware places what is the model's choice (log entry 132). -/

namespace Sys2Proof.Machine

/-- The first `len` bits of two addresses of `w` bits agree. -/
def prefixEq (w len a b : Nat) : Bool := decide (a / 2 ^ (w - len) = b / 2 ^ (w - len))

/-- Address width by AF. -/
def afWidth (af : Nat) : Nat := if af = 0 then 32 else 128

/-- Slots of a route: one for IPv4, two for IPv6 (R217). -/
def afSlots (af : Nat) : Nat := if af = 0 then 1 else 2

/-- Visibility of a route for generation `g` (R219, R241). -/
def Route.visible (r : Route) (g : Nat) : Bool :=
  visibleAt r.vis r.gen g && (match r.del with | some d => !genReached g d | none => true)

/-- A route's prefix covers the first `len` bits of an address. -/
def Route.covers (r : Route) (vrf af addr len : Nat) : Bool :=
  r.vrf == vrf && r.af == af && decide (r.len ≤ len) && prefixEq (afWidth af) r.len r.addr addr

/-- Same prefix. -/
def Route.sameAs (r q : Route) : Bool := r.vrf == q.vrf && r.af == q.af && r.addr == q.addr && r.len == q.len

/-- Order of a walk: VRF, AF, address, length (R238). -/
def Route.before (a b : Route) : Bool :=
  decide (a.vrf < b.vrf) || (a.vrf == b.vrf && (decide (a.af < b.af) || (a.af == b.af &&
    (decide (a.addr < b.addr) || (a.addr == b.addr && decide (a.len < b.len))))))

/-- Insert a route in walk order. -/
def insRoute (r : Route) : List Route → List Route
  | [] => [r]
  | x :: l => if r.before x then r :: x :: l else x :: insRoute r l

/-- The longest route of a list that `ok` admits. -/
def longest (l : List Route) (ok : Route → Bool) : Option Route :=
  l.foldl (fun best r => if !ok r then best else match best with
    | none => some r
    | some b => if b.len < r.len then some r else best) none

/-- Slots in use (R217). -/
def State.lpmSlots (s : State) : Nat := s.routes.foldl (fun n r => if r.copy then n else n + afSlots r.af) 0

/-! ### Lookup (R216, R221) -/

/-- A pivot matches a prefix: AF, VRF and its first bits. -/
def Pivot.covers (p : Pivot) (vrf af addr len : Nat) : Bool :=
  p.vrf == vrf && p.af == af && decide (p.len ≤ len) && prefixEq (afWidth af) p.len p.addr addr

/-- The lowest-indexed pivot that matches; pivots stand in descending order of length (R216). -/
def State.pivotFor (s : State) (vrf af addr len : Nat) : Option Pivot := s.pivots.find? (fun p => p.covers vrf af addr len)

/-- A route lies in bucket `b`. -/
def Route.inBucket (r : Route) (b : Nat) : Bool := match r.place with | some (x, _) => x == b | none => false

/-- The visible fallback of a pivot (R221, R241). -/
def Pivot.fallback (p : Pivot) (g : Nat) : Option Nat := if genReached g p.gen then p.fb1 else p.fb0

/-- The result of a lookup: the longest visible matching route of the selected bucket, else the pivot's visible fallback (R221). Routes
that found no slot are looked at beside the bucket (log entry 132). -/
def State.lpmFind (s : State) (vrf af addr g : Nat) : Option Nat :=
  match s.pivotFor vrf af addr (afWidth af) with
  | none => (longest s.routes (fun r => r.place.isNone && r.visible g && r.covers vrf af addr (afWidth af))).map (·.fwd)
  | some p =>
    match longest s.routes (fun r =>
        (r.place.isNone || r.inBucket p.bucket) && r.visible g && r.covers vrf af addr (afWidth af)) with
    | some r => some r.fwd
    | none => p.fallback g

/-! ### Slots and pivots (R216, R217) -/

/-- Slots taken in bucket `b`. -/
def State.slotsIn (s : State) (b : Nat) : List Nat :=
  s.routes.flatMap (fun r => match r.place with
    | some (x, k) => if x = b then (if r.af = 0 then [k] else [k, k + 1]) else []
    | none => [])

/-- The first free slot of bucket `b`, a free pair from an even slot for IPv6. -/
def State.freeSlot (s : State) (b af : Nat) : Option Nat :=
  let used := s.slotsIn b
  if af = 0 then (List.range 128).find? (fun k => !used.contains k)
  else ((List.range 64).map (2 * ·)).find? (fun k => !used.contains k && !used.contains (k + 1))

/-- The first number from `k` on that a list lacks; `n` bounds the search. -/
def firstNot (l : List Nat) (k : Nat) : Nat → Nat
  | 0 => k
  | n + 1 => if l.contains k then firstNot l (k + 1) n else k

/-- A bucket that no pivot names, while there are a free pivot and a free bucket. -/
def State.freeBucket (s : State) : Option Nat :=
  if s.pivots.length < 65536 then some (firstNot (s.pivots.map (·.bucket)) 0 s.pivots.length) else none

/-- Add a pivot behind those of its length or longer. -/
def insPivot (p : Pivot) : List Pivot → List Pivot
  | [] => [p]
  | x :: l => if x.len < p.len then p :: x :: l else x :: insPivot p l

/-- Elementary writes of a layout change: moves for WALK_MOVED, and the slots' lines leave every cache (R228, R238). -/
def State.lpmLine (s : State) (b k : Nat) : State :=
  let l := b * 32 + k / 4
  foldS (List.range 8) (fun sl s => { s with look := { s.look with
    lines := mupd (fun _ => []) s.look.lines (2 * sl + 1) (fun x => x.filter (· ≠ l)) } }) s

/-- Slots of the routes of bucket `b` under a prefix. -/
def State.weight (s : State) (p : Pivot) (addr len : Nat) : Nat :=
  s.routes.foldl (fun n r => if !r.copy && r.inBucket p.bucket && decide (len ≤ r.len) && prefixEq (afWidth p.af) len addr r.addr
    then n + afSlots r.af else n) 0

/-- Where a bucket of `total` slots in use splits: from prefix (addr, len) towards the heavier half, until at most two thirds lie
below. -/
def State.splitAt (s : State) (p : Pivot) (total : Nat) : Nat → Nat → Nat → Option (Nat × Nat)
  | 0, _, _ => none
  | n + 1, addr, len =>
    let one := addr + 2 ^ (afWidth p.af - len - 1)
    let w0 := s.weight p addr (len + 1)
    let w1 := s.weight p one (len + 1)
    let (a, w) := if w1 ≤ w0 then (addr, w0) else (one, w1)
    if w = 0 then none
    else if w * 3 ≤ total * 2 then some (a, len + 1)
    else State.splitAt s p total n a (len + 1)

/-- A route takes a slot of bucket `b`. -/
def State.putIn (s : State) (b : Nat) (r : Route) : State :=
  match s.freeSlot b r.af with
  | some k => { s.lpmLine b k with routes := insRoute { r with place := some (b, k) } s.routes }
  | none => { s with routes := insRoute { r with place := none } s.routes }

/-- A layout write (R220): the routes under a new pivot move into its bucket. The number of elementary writes, two for each move and
one for the pivot (R242). -/
def State.lpmSplit (s : State) (p : Pivot) : Option (State × Nat) :=
  match s.freeBucket, s.splitAt p (s.weight p p.addr p.len) (afWidth p.af - p.len) p.addr p.len with
  | some b, some (addr, len) =>
    let q : Pivot := { af := p.af, vrf := p.vrf, addr := addr, len := len, bucket := b }
    let moves (r : Route) : Bool :=
      !r.copy && r.inBucket p.bucket && decide (len ≤ r.len) && prefixEq (afWidth p.af) len addr r.addr
    let gone := s.routes.filter moves
    let s0 := gone.foldl (fun (s : State) r => match r.place with | some (x, k) => s.lpmLine x k | none => s) s
    let s1 := { s0 with
      pivots := insPivot q s.pivots, routes := s.routes.filter (fun r => !moves r)
      cmt := { s0.cmt with moves := s0.cmt.moves + gone.length } }
    some (gone.foldl (fun (s : State) r => s.putIn b r) s1, 2 * gone.length + 1)
  | _, _ => none

/-- The pivot of all addresses of a VRF and AF, where a route has none to lie under. -/
def State.rootPivot (s : State) (vrf af : Nat) : State :=
  match s.freeBucket with
  | some b => { s with pivots := insPivot { af := af, vrf := vrf, addr := 0, len := 0, bucket := b } s.pivots }
  | none => s

/-- A route is placed in its bucket, which splits while it is full; with no pivot or bucket left it stands beside them (log entry 132).
The number of elementary writes that layout took. -/
def State.lpmPlace (s : State) (r : Route) : Nat → State × Nat
  | 0 => ({ s with routes := insRoute { r with place := none } s.routes }, 0)
  | n + 1 =>
    match s.pivotFor r.vrf r.af r.addr r.len with
    | none =>
      let s1 := s.rootPivot r.vrf r.af
      if s1.pivots.length = s.pivots.length then ({ s with routes := insRoute { r with place := none } s.routes }, 0)
      else State.lpmPlace s1 r n
    | some p =>
      match s.freeSlot p.bucket r.af with
      | some k => ({ s.lpmLine p.bucket k with routes := insRoute { r with place := some (p.bucket, k) } s.routes }, 0)
      | none =>
        match s.lpmSplit p with
        | none => ({ s with routes := insRoute { r with place := none } s.routes }, 0)
        | some (s1, w) => let (s2, v) := State.lpmPlace s1 r n; (s2, v + w)

/-! ### Fallbacks (R216, R241) -/

/-- The routes that can give a pivot's fallback: those that cover it, longest first, down to the first that every generation sees. -/
def coverers (p : Pivot) (l : List Route) : List Route :=
  let rec cut : List Route → List Route
    | [] => []
    | r :: l => if r.vis = 0 ∧ r.del.isNone then [r] else r :: cut l
  let up := l.filter (fun r => !r.copy && decide (r.len < p.len) && r.covers p.vrf p.af p.addr p.len)
  cut ((List.range (p.len + 1)).flatMap (fun k => up.filter (fun r => r.len + k == p.len)))

/-- Generations that decide the visibility of some routes. -/
def gensOf (l : List Route) : List Nat :=
  (l.flatMap (fun r => (if r.vis = 0 then [] else [r.gen]) ++ r.del.toList)).eraseDups

/-- FB0, FB1 and the generation of a pivot from the routes that cover it; where more than one generation is pending there, copies of
those routes go into its bucket instead (slot 128: beside a full one). -/
def State.refallOne (s : State) (p : Pivot) : State :=
  let cs := coverers p s.routes
  let at_ (g : Nat) : Option Nat := (longest cs (fun r => r.visible g)).map (·.fwd)
  let put (q : Pivot) (s : State) : State :=
    { s with pivots := s.pivots.map (fun x => if x.bucket = p.bucket then q else x)
             routes := s.routes.filter (fun r => !(r.copy && r.inBucket p.bucket)) }
  match gensOf cs with
  | [] => put { p with fb0 := at_ 0, fb1 := at_ 0, gen := 0 } s
  | [g] => put { p with fb0 := at_ ((g + 65535) % 65536), fb1 := at_ g, gen := g } s
  | _ =>
    let s := put { p with fb0 := none, fb1 := none, gen := 0 } s
    cs.foldl (fun (s : State) r =>
      let k := (s.freeSlot p.bucket r.af).getD 128
      { s.lpmLine p.bucket k with routes := insRoute { r with copy := true, place := some (p.bucket, k) } s.routes }) s

/-- Bring the fallbacks of a VRF and AF up to date. -/
def State.refall (s : State) (vrf af : Nat) : State :=
  foldS (s.pivots.filter (fun p => p.vrf == vrf && p.af == af)) (fun p s => s.refallOne p) s

/-- Bring every fallback up to date; pivots over no route merge into the next shorter one (R220). -/
def State.refallAll (s : State) : State :=
  let s := foldS s.pivots (fun p s => s.refallOne p) s
  let dead (p : Pivot) : Bool := !s.routes.any (fun r => !r.copy && r.inBucket p.bucket)
  let gone := s.pivots.filter dead
  { s with pivots := s.pivots.filter (fun p => !dead p)
           routes := s.routes.filter (fun r => !(r.copy && gone.any (fun p => r.inBucket p.bucket)))
           cmt := { s.cmt with moves := s.cmt.moves + gone.length } }

end Sys2Proof.Machine
end

