-- ==== Sys2Proof/Machine/Lookup.lean ====
section
/-! DEFINITION. The lookup stage (R206–R215, R245–R251): keys, slots, the decision, ECMP, next-hops, recirculation, the
read credit and learn events. -/

namespace Sys2Proof.Machine

/-- Forwarding result types of R209. -/
def tNONE : Nat := 0
/-- NH. -/
def tNH : Nat := 1
/-- ECMP. -/
def tECMP : Nat := 2
/-- DROP. -/
def tDROP : Nat := 3
/-- PUNT. -/
def tPUNT : Nat := 4
/-- ROUTE. -/
def tROUTE : Nat := 5

/-- TYPE of a forwarding result. -/
def fwdType (r : Nat) : Nat := bits r 47 44

/-- A result that ends the decision: NH, ECMP, DROP or PUNT. -/
def decides (r : Nat) : Bool := decide (1 ≤ fwdType r) && decide (fwdType r ≤ 4)

/-- A punt result with a reason. -/
def fwdPunt (reason : Nat) : Nat := tPUNT * 2 ^ 44 + reason * 2 ^ 34

/-- VRF of an ingress port. -/
def State.vrf (s : State) (port : Nat) : Nat := s.rd (F.TBL_PORT_CFG_VRF.at port)

/-- Byte `i` of a profile's EM or KEYX word. -/
def State.profByte (s : State) (f : Fld) (prof i : Nat) : Nat := bits (s.rd (f.at prof)) (8 * i + 7) (8 * i)

/-- The key of an exact-match slot (R207). -/
def State.emKey (s : State) (p : Pkt) (set : Nat) : Nat :=
  let ds := s.descs (R.TBL_KEYX.addr + 16 * set) 4
  (concatDescs (descVals ds p.bytes p.hdrs (some (metaHdr p.port (s.vrf p.port) p.tc)))).1 % 2 ^ 128

/-- One exact-match slot's outcome: enabled, hit entry, result. -/
structure SlotOut where
  en : Bool
  hit : Bool
  stn : Nat
  user : Nat
  fwd : Nat
  deriving DecidableEq, Repr

/-- A slot that is not enabled. -/
def SlotOut.off : SlotOut := ⟨false, false, 0, 0, 0⟩

/-- The metadata word of a slot (R284, 0x0D–0x10 and 0x15–0x16). -/
def SlotOut.word (o : SlotOut) : Nat := b2n o.en * 2 ^ 63 + b2n o.hit * 2 ^ 62 + o.stn % 512 * 2 ^ 48 + o.fwd % 2 ^ 48

/-! ### Learn events (R245–R249) -/

/-- The learn queue of a slice, oldest first. -/
def State.learnQ (s : State) (sl : Nat) : List Learn := mget (fun _ => []) s.learn.queues sl

/-- Replace a learn queue; its level follows. -/
def State.learnSet (s : State) (sl : Nat) (q : List Learn) : State :=
  { s with learn := { s.learn with queues := mset (fun _ => []) s.learn.queues sl q } }.wr (F.TBL_LEARN_STATUS_LEVEL.at sl) q.length

/-- Coalesce an event into a queued notification of the same key and interval (R247). -/
def Learn.coalesce (l : Learn) (port : Nat) (move : Bool) : Learn :=
  { l with count := min (l.count + 1) (2 ^ 32 - 1), move := l.move || move
           conflict := l.conflict || l.port != port
           port2 := if l.port = port then l.port2 else port }

/-- A learn event (R245, R247, R249). -/
def State.learnEvent (s : State) (sl tbl port key stamp : Nat) (move : Bool) : State :=
  let tick := s.tickAt (stamp / 65536)
  let q := s.learnQ sl
  let same (l : Learn) : Bool := l.tbl == tbl && l.key == key && l.tick == tick
  if q.any same then s.learnSet sl (q.map (fun l => if same l then l.coalesce port move else l))
  else if 4096 ≤ q.length then (s.cnt (R.TBL_CNT.at sl) 0x48).raise (eg 8 3)
  else s.learnSet sl (q ++ [⟨false, move, sl, tbl, port, 0, 1, tick, key⟩])

/-- The 32 bytes of a notification (R246). -/
def Learn.bytes (l : Learn) : Bytes :=
  leB 4 (b2n l.conflict * 2 ^ 31 + b2n l.move * 2 ^ 30 + l.slice % 8 * 2 ^ 27 + l.tbl % 16 * 2 ^ 23
      + l.port % 512 * 2 ^ 14 + l.port2 % 512)
    ++ leB 4 l.count ++ leB 8 l.tick ++ leB 16 l.key

/-! ### Slots -/

/-- Run exact-match slot `i` of a profile: its learn event, its HIT bit, its outcome (R210, R225, R227, R245). -/
def State.emSlot (s : State) (p : Pkt) (prof i : Nat) : State × SlotOut :=
  let b := s.profByte F.TBL_PROF_EM prof i
  if !bitN b 7 then (s, SlotOut.off) else
  let k := bits b 5 2
  let key := s.emKey p (s.profByte F.TBL_PROF_KEYX prof i % 64)
  let miss := s.rd64 (R.TBL_MISS.at (4 * prof + i)) % 2 ^ 48
  match (if s.emOn k then s.emFind k p.slice key (s.genFor p.stamp) else none) with
  | none =>
    let s := if bitN b 6 then s.learnEvent p.slice k p.port key p.stamp false else s
    (s, ⟨true, false, 0, 0, miss⟩)
  | some (ix, e) =>
    let s := if bitN b 6 && !e.static && e.stn != p.port then s.learnEvent p.slice k p.port key p.stamp true else s
    let s := if s.on (F.TBL_EM_CFG_HIT_EN.at k) && !e.hit then s.emWrite ix { e with hit := true } else s
    (s, ⟨true, true, e.stn, e.user, e.fwd⟩)

/-- An LPM slot word: enable, AF, ROUTED_ONLY, INST. -/
def State.lpmWord (s : State) (prof i : Nat) : Nat :=
  if i = 0 then s.rd (F.TBL_PROF_LPM0.at prof) else s.rd (F.TBL_PROF_LPM1.at prof)

/-- The header an LPM slot reads. -/
def State.lpmHdr (s : State) (p : Pkt) (prof i : Nat) : Option Hdr :=
  let w := s.lpmWord prof i
  findHdr p.hdrs (if bitN w 14 then kIPV6 else kIPV4) (bits w 12 11)

/-- Destination address of an IP header. -/
def dstAddr (b : Bytes) (h : Hdr) : Nat := if h.kind = kIPV4 then beN b (h.off + 16) 4 else beN b (h.off + 24) 16

/-- Run LPM slot `i` (R208, R221). -/
def State.lpmSlot (s : State) (p : Pkt) (prof i : Nat) : SlotOut :=
  let w := s.lpmWord prof i
  if !bitN w 15 then SlotOut.off else
  match s.lpmHdr p prof i with
  | none => ⟨true, false, 0, 0, 0⟩
  | some h =>
    match s.lpmFind (s.vrf p.port) (b2n (bitN w 14)) (dstAddr p.bytes h) (s.genFor p.stamp) with
    | some r => ⟨true, true, 0, 0, r⟩
    | none => ⟨true, false, 0, 0, 0⟩

/-! ### The decision (R210–R213) -/

/-- decide() of R210 over the slot outcomes: the result, whether it was made routed, and the deciding IP header. -/
def State.lookDecide (s : State) (p : Pkt) (prof : Nat) (ems lpms : List SlotOut) : Nat × Bool × Option Hdr :=
  let stepEm (acc : Option Nat × Bool) (o : SlotOut) : Option Nat × Bool :=
    match acc with
    | (some r, rt) => (some r, rt)
    | (none, rt) => if !o.en then (none, rt) else if fwdType o.fwd = tROUTE then (none, true)
      else if decides o.fwd then (some o.fwd, rt) else (none, rt)
  match ems.foldl stepEm (none, false) with
  | (some r, rt) => (r, rt, (p.hdrs.find? (fun h => h.kind == kIPV4 || h.kind == kIPV6)))
  | (none, rt) =>
    let ok (i : Nat) : Bool :=
      let o := lpms.getD i SlotOut.off
      o.en && (!bitN (s.lpmWord prof i) 13 || rt) && decides o.fwd
    if ok 0 then ((lpms.getD 0 SlotOut.off).fwd, true, s.lpmHdr p prof 0)
    else if ok 1 then ((lpms.getD 1 SlotOut.off).fwd, true, s.lpmHdr p prof 1)
    else (fwdPunt 8, rt, none)

/-- TTL of the first IPV4 header or hop limit of the first IPV6 header is 0 or 1 (R211). -/
def ttlLow (b : Bytes) (hs : List Hdr) : Bool :=
  let low (k o : Nat) : Bool := match firstHdr hs k with | some h => decide (byteN b (h.off + o) ≤ 1) | none => false
  low kIPV4 8 || low kIPV6 7

/-- Headers after a header, in order. -/
def after (hs : List Hdr) (h : Hdr) : List Hdr := hs.filter (fun x => decide (h.off < x.off))

/-- The byte string of the ECMP hash (R212). -/
def ecmpBytes (b : Bytes) (hs : List Hdr) (ip : Option Hdr) : Bytes :=
  match ip with
  | none => slice b 6 6 ++ slice b 0 6 ++ slice b 12 2
  | some h =>
    let addrs := if h.kind = kIPV4 then slice b (h.off + 12) 8 else slice b (h.off + 8) 32
    let exts := (after hs h).takeWhile (fun x => x.kind == kEXT || x.kind == kSRH)
    let proto := if h.kind = kIPV4 then byteN b (h.off + 9) else match exts.getLast? with
      | some x => byteN b x.off
      | none => byteN b (h.off + 6)
    let l4 := ((after hs h).dropWhile (fun x => x.kind == kEXT || x.kind == kSRH)).head?
    let ports := match l4 with
      | some x => if x.kind = kTCP ∨ x.kind = kUDP then slice b x.off 4 else []
      | none => []
    addrs ++ [BitVec.ofNat 8 proto] ++ ports

/-- The next-hop an ECMP group selects for a packet (R212); none when SIZE is 0. -/
def State.ecmpNh (s : State) (g : Nat) (p : Pkt) (ip : Option Hdr) : Option Nat :=
  let base := bits (s.tw (s.grpAddr g)) 19 0
  let size := bits (s.tw (s.grpAddr g + 4)) 8 0
  if size = 0 then none else
  let fh := hash0 (s.rd F.TBL_ECMP_SEED_SEED) (ecmpBytes p.bytes p.hdrs ip) / 2 ^ 16
  some (bits (s.tw (s.memAddr (base + fh * size / 2 ^ 16))) 19 0)

/-- A next-hop decision (R213): queue, adjacency and USER enter the descriptor and its count rises (R234). -/
def State.useNh (s : State) (p : Pkt) (nh : Nat) : State × Pkt × Verdict :=
  let a := s.nhAddr nh
  let qb := bits (s.tw a) 17 0
  if s.nhState nh ≠ 1 ∨ 262143 < qb + 7 then (s.cnt (R.TBL_CNT.at p.slice) 0x70, p, .punt 10) else
  let p := { p with nh := some nh, adj := bits (s.tw (a + 4)) 19 0, nhUser := s.tw (a + 8) + s.tw (a + 12) * 2 ^ 32
                    queue := if p.qmode then p.queue else qb + p.tc }
  (s.inflightInc false nh, p, .forward)

/-- Carry out a decision (R210–R213). -/
def State.actDecision (s : State) (p : Pkt) (prof r : Nat) (routed : Bool) (ip : Option Hdr) : State × Pkt × Verdict :=
  if s.on (F.TBL_PROF_TTL_CHECK.at prof) && routed && ttlLow p.bytes p.hdrs then
    (s.cnt (R.TBL_CNT.at p.slice) 0x68, p, .punt 9)
  else match fwdType r with
    | 1 => s.useNh p (bits r 19 0)
    | 2 => match s.ecmpNh (bits r 19 0) p ip with
      | none => (s, p, .punt 11)
      | some nh => s.useNh p nh
    | 3 => (s, p, .drop)
    | _ =>
      let reason := bits r 39 34
      (if reason = 8 then s.cnt (R.TBL_CNT.at p.slice) 0x60 else s, p, .punt reason)

/-- Outcome of one lookup pass: a verdict, a second pass with a profile (R215), a second pass for want of read credit, a drop for want
of it (R251). -/
inductive PassOut where
  | done (v : Verdict) | again (prof : Nat) | retry | lost
  deriving DecidableEq, Repr

/-- The metadata words of a pass: EM0–3, EM0–3 USER, LPM0–1 (R284, 0x0D–0x16). -/
def lookWords (ems lpms : List SlotOut) : List Nat :=
  ems.map SlotOut.word ++ ems.map SlotOut.user ++ lpms.map SlotOut.word

/-- Run the slots of a profile. -/
def State.runSlots (s : State) (p : Pkt) (prof : Nat) : State × List SlotOut × List SlotOut :=
  let (s, e0) := s.emSlot p prof 0
  let (s, e1) := s.emSlot p prof 1
  let (s, e2) := s.emSlot p prof 2
  let (s, e3) := s.emSlot p prof 3
  (s, [e0, e1, e2, e3], [s.lpmSlot p prof 0, s.lpmSlot p prof 1])

/-! ### Line caches and read credit (R228, R250) -/

/-- Lines a slice's cache holds: of the exact-match pool (2 MiB), or of the LPM buckets (4 MiB). -/
def lineMax (lpm : Bool) : Nat := if lpm then 32768 else 16384

/-- A slice reads a 128-byte line: from its cache, or from HBM into it; which line makes room is open (log entry 136). -/
def State.readLine (s : State) (sl : Nat) (lpm : Bool) (l : Nat) : State × Bool :=
  let k := 2 * sl + b2n lpm
  let held := mget (fun _ => []) s.look.lines k
  if held.contains l then (s, true) else
  let (v, s) := s.draw
  let kept := if lineMax lpm ≤ held.length then held.eraseIdx (v.toNat % held.length) else held
  ({ s with look := { s.look with lines := mset (fun _ => []) s.look.lines k (l :: kept) } }, false)

/-- The two candidate buckets of each exact-match slot of a pass. -/
def State.emLines (s : State) (p : Pkt) (prof : Nat) : List Nat :=
  (List.range 4).flatMap (fun i =>
    let b := s.profByte F.TBL_PROF_EM prof i
    let k := bits b 5 2
    if bitN b 7 && s.emOn k then
      let (b0, b1) := s.emBuckets k (s.emSlice k p.slice) (s.emKey p (s.profByte F.TBL_PROF_KEYX prof i % 64))
      [b0, b1]
    else [])

/-- The lines a lookup reads of the bucket that a pivot selects: at most two; which they are is open (log entry 136). -/
def State.bucketLines (s : State) (p : Option Pivot) : State × List Nat :=
  match p with
  | none => (s, [])
  | some p =>
    let (v, s) := s.draw
    let n := v.toNat
    (s, ([p.bucket * 32 + n / 4 % 32, p.bucket * 32 + n / 128 % 32].take (n % 4)).eraseDups)

/-- The lines an LPM slot reads. -/
def State.lpmLines (s : State) (p : Pkt) (prof i : Nat) : State × List Nat :=
  let w := s.lpmWord prof i
  s.bucketLines (if !bitN w 15 then none else
    match s.lpmHdr p prof i with
    | none => none
    | some h => let af := b2n (bitN w 14); s.pivotFor (s.vrf p.port) af (dstAddr p.bytes h) (afWidth af))

/-- Read lines one after the other: hits and misses. -/
def State.readLines (s : State) (sl : Nat) (lpm : Bool) (l : List Nat) : State × Nat × Nat :=
  l.foldl (fun (a : State × Nat × Nat) x =>
    let (s, hit) := a.1.readLine sl lpm x
    (s, a.2.1 + b2n hit, a.2.2 + b2n (!hit))) (s, 0, 0)

/-- Reads that a decision costs: a next-hop, or a group, a member and a next-hop, at most one each (R250). -/
def State.nhReads (s : State) (r : Nat) : State × Nat :=
  let (v, s) := s.draw
  (s, if fwdType r = tNH then v.toNat % 2 else if fwdType r = tECMP then v.toNat % 4 else 0)

/-- Credits of a slice that are spent: it earns one each cycle, three a nanosecond (R250). -/
def State.creditSpent (s : State) (sl : Nat) : Nat :=
  let (n, t) := mget (fun _ => (0, 0)) s.look.spent sl
  n - 3 * (s.tb.up - t)

/-- Reads the pool lends a slice at most in the cycle: one from each other slice at its ceiling. -/
def State.poolLends (s : State) (sl : Nat) : Nat := ((List.range 8).filter (fun k => k != sl && decide (s.creditSpent k = 0))).length

/-- A slice has no credit for `need` reads, the pool's share included (R250, R251); of what the pool can lend, `short` says whether
the slice's share of it fell short in that cycle. -/
def State.creditShort (s : State) (sl need : Nat) (short : Bool) : Bool :=
  let held := s.rd F.TBL_BW_CFG_BURST - s.creditSpent sl
  decide (held < need) && (short || decide (held + s.poolLends sl < need))

/-- A slice spends credit for the reads it makes. -/
def State.spendCredit (s : State) (sl need : Nat) : State :=
  let n := min (s.rd F.TBL_BW_CFG_BURST) (s.creditSpent sl + need)
  let up := s.tb.up
  { s with look := { s.look with spent := mset (fun _ => (0, 0)) s.look.spent sl (if n = 0 then (0, 0) else (n, up)) } }

/-- Drop for want of read credit: BW_DROP, and EG8 once a tick (R251). -/
def State.bwDrop (s : State) (sl : Nat) : State :=
  let s := s.cnt (R.TBL_CNT.at sl) 0x18
  if s.learn.bwSeen then s else { s.raise (eg 8 1) with learn := { s.learn with bwSeen := true } }

/-- Lines of exact-match and LPM buckets are read, and `n` reads besides: the state after it, and whether the slice had credit for
those that no cache saved (R228, R250). -/
def State.spendReads (s : State) (sl : Nat) (em lpm : List Nat) (n : Nat) (short : Bool) : State × Bool :=
  let (s1, eh, e) := s.readLines sl false em
  let (s2, lh, l) := s1.readLines sl true lpm
  let need := e + l + n
  if s.creditShort sl need short then (s, false) else
  let c := R.TBL_CNT.at sl
  (((((s2.cnt c 0x20 eh).cnt c 0x28 e).cnt c 0x30 lh).cnt c 0x38 l).spendCredit sl need, true)

/-- The lines of a pass are read: the state after it, with the reads that no cache saved, and whether the slice had credit for them
(R228, R250). -/
def State.passReads (s : State) (p : Pkt) (prof r : Nat) (short : Bool) : State × Bool :=
  let (s, l0) := s.lpmLines p prof 0
  let (s, l1) := s.lpmLines p prof 1
  let (s, n) := s.nhReads r
  s.spendReads p.slice (s.emLines p prof) (l0 ++ l1) n short

/-- One pass of the lookup stage with profile `prof` (R210–R215, R250, R251). A packet that classification sends to the gallery goes
there whatever the decision (R210). -/
def State.lookPass (s : State) (p : Pkt) (prof : Nat) (e : PassEnv) : State × Pkt × PassOut :=
  let s := s.cnt (R.TBL_CNT.at p.slice) 0x00
  let (_, ems, lpms) := s.runSlots p prof
  let (r, routed, ip) := s.lookDecide p prof ems lpms
  match s.passReads p prof r e.short with
  | (s, false) =>
    if !s.on F.TBL_BW_CFG_ACT && !p.recirc then
      (s.cnt (R.TBL_CNT.at p.slice) 0x10, { p with recirc := true }, .retry)
    else (s.bwDrop p.slice, p, .lost)
  | (s, true) =>
    let (s, _, _) := s.runSlots p prof
    let s := if e.ecc = .corrected then (s.cnt (R.TBL_CNT.at p.slice) 0x50).raise (eg 15 1) else s
    let p := { p with look := lookWords ems lpms }
    if e.ecc = .uncorrectable then (s, p, .done (.punt 12))
    else if s.on (F.TBL_PROF_RECIRC_EN.at prof) then
      if p.recirc then (s, p, .done (.punt 13))
      else (s.cnt (R.TBL_CNT.at p.slice) 0x08,
        { p with recirc := true, look1 := lookWords ems lpms }, .again (s.rd (F.TBL_PROF_RECIRC_PROF.at prof)))
    else
      let (s, p, v) := s.actDecision { p with decision := r } prof r routed ip
      (s, p, .done (if p.gal then .forward else v))

/-- Learn events of a packet that classification drops or punts (R245): its EM slots still run. -/
def State.learnOnly (s : State) (p : Pkt) : State := (s.runSlots p p.lkpProf).1

end Sys2Proof.Machine
end

