-- ==== Sys2Proof/Machine/Acl.lean ====
section
/-! DEFINITION. The ACL TCAM (R252–R262): keys, searches with priority and verification, actions, indirect commands and the
scrubber. -/

namespace Sys2Proof.Machine

/-- Key of entry `i` of slice `sl` in the entry map. -/
def aclIx (sl i : Nat) : Nat := sl * 16384 + i

/-- Entry `i` of slice `sl`. -/
def State.aclEnt (s : State) (sl i : Nat) : AclEnt := mget (fun _ => {}) s.acl.ents (aclIx sl i)

/-- The 640-bit key of key set `set` for a packet (R252). -/
def State.aclKey (s : State) (p : Pkt) (set : Nat) : Nat :=
  let l := descVals (s.descs (R.ACL_KEYX.addr + 80 * set) 20) p.bytes p.hdrs (some (metaHdr p.port (s.vrf p.port) p.tc))
  let (v, w) := concatDescs l
  set * 2 ^ 636 + p.port % 512 * 2 ^ 627 + s.vrf p.port % 65536 * 2 ^ 611 + p.tc % 8 * 2 ^ 608 + p.faults % 32 * 2 ^ 603
    + presentBits l % 2 ^ 20 * 2 ^ 583 + (v * 2 ^ (576 - w)) % 2 ^ 576

/-- An entry agrees with a key at every masked bit (R254). -/
def AclEnt.hits (e : AclEnt) (key : Nat) : Bool := e.valid && decide (key &&& e.mask = e.key &&& e.mask)

/-- Order of a walk: descending PRIO, then ascending index (R258). -/
def aclBefore (a b : Nat × AclEnt) : Bool :=
  decide (b.2.prio < a.2.prio) || (a.2.prio == b.2.prio && decide (a.1 < b.1))

/-- Insert in walk order. -/
def aclInsert (x : Nat × AclEnt) : List (Nat × AclEnt) → List (Nat × AclEnt)
  | [] => [x]
  | y :: l => if aclBefore x y then x :: y :: l else y :: aclInsert x l

/-- What the TCAM of a slice presents for a key, in walk order: the rows that match, those a soft error makes match, less
those a soft error hides. -/
def State.aclCands (s : State) (sl key : Nat) (e : AclEnv) : List (Nat × AclEnt) :=
  let l := (s.acl.ents.filter (fun x => x.1 / 16384 == sl)).filterMap (fun x =>
    let i := x.1 % 16384
    if (x.2.hits key || e.upset.contains i) && !e.blind.contains i then some (i, x.2) else none)
  l.foldl (fun acc x => aclInsert x acc) []

/-- A candidate passes verification: its copy is readable and agrees with the key (R259, R260). -/
def aclVerified (key : Nat) (e : AclEnv) (x : Nat × AclEnt) : Bool := x.2.hits key && !e.copyUe.contains x.1

/-- Result of a search. -/
structure AclRes where
  hit : Option (Nat × AclEnt)
  multi : Bool
  exhausted : Bool
  deriving DecidableEq, Repr

/-- A result without a match. -/
def AclRes.none : AclRes := ⟨Option.none, false, false⟩

/-- An entry whose copy and backing copy are both uncorrectable is invalidated in its slice, counted in ENTRY_LOST and named in an
EG9 event (R260, R516). -/
def State.aclLost (s : State) (sl i : Nat) : State :=
  let s := { s with acl := { s.acl with
    ents := mset (fun _ => {}) s.acl.ents (aclIx sl i) { s.aclEnt sl i with valid := false }
    repair := s.acl.repair.filter (· ≠ aclIx sl i) } }
  (((s.cnt (R.ACL_CNT.at sl) 0x38).uncorrected i).raise (eg 9 1)).emit (.aclLost sl i)

/-- A false hit on an entry (R259, R260): counted, queued for repair, EG9. One whose copy is uncorrectable is rewritten from the
backing copy within the tick, whatever the scrubber does, or lost. -/
def State.aclFalse (s : State) (sl : Nat) (e : AclEnv) (i : Nat) : State :=
  let s := (s.cnt (R.ACL_CNT.at sl) 0x18).raise (eg 9 0)
  if e.copyUe.contains i then
    let s := s.uncorrected i
    if e.backUe.contains i then s.aclLost sl i else s
  else if s.acl.repair.contains (aclIx sl i) then s
  else { s with acl := { s.acl with repair := s.acl.repair ++ [aclIx sl i] } }

/-- Search with at most `n` repeats: the first candidate is verified, a false hit is suppressed and the search repeats. -/
def State.aclTry (s : State) (sl key : Nat) (e : AclEnv) : Nat → List (Nat × AclEnt) → State × AclRes
  | _, [] => (s, AclRes.none)
  | n, x :: l =>
    if aclVerified key e x then
      (s, ⟨some x, l.any (fun y => y.2.prio == x.2.prio && aclVerified key e y), false⟩)
    else
      let s := s.aclFalse sl e x.1
      match n with
      | 0 => (s.cnt (R.ACL_CNT.at sl) 0x20, ⟨Option.none, false, true⟩)
      | n + 1 => State.aclTry s sl key e n l

/-- One search of a slice's TCAM, counted (R254, R259). -/
def State.aclSearch (s : State) (sl key : Nat) (e : AclEnv) : State × AclRes :=
  let (s, r) := (s.cnt (R.ACL_CNT.at sl) 0x00).aclTry sl key e 2 (s.aclCands sl key e)
  let s := if r.hit.isSome then s.cnt (R.ACL_CNT.at sl) 0x08 else s
  (if r.multi then s.cnt (R.ACL_CNT.at sl) 0x10 else s, r)

/-- The first match strictly after a cursor, or the first of all (R258). -/
def State.aclStep (s : State) (sl key : Nat) (cur : Option (Nat × Nat)) (e : AclEnv) : State × AclRes :=
  let past (x : Nat × AclEnt) : Bool := match cur with
    | none => true
    | some (i, prio) => decide (x.2.prio < prio) || (x.2.prio == prio && decide (i < x.1))
  let (s, r) := (s.cnt (R.ACL_CNT.at sl) 0x00).aclTry sl key e 2 ((s.aclCands sl key e).filter past)
  (if r.hit.isSome then s.cnt (R.ACL_CNT.at sl) 0x08 else s, r)

/-- The governing entry's hit counter counts with CNT_EN (R262). -/
def State.aclHit (s : State) (sl : Nat) (r : AclRes) : State :=
  match r.hit with
  | some (i, e) =>
    if bitN e.action 23 then
      { s with acl := { s.acl with hits := mupd (fun _ => 0) s.acl.hits (aclIx sl i) (fun n => min (n + 1) (2 ^ 64 - 1)) } }
    else s
  | none => s

/-- One of the two lookups of a pass (R253): its enable, its result. -/
def State.aclLookup (s : State) (p : Pkt) (prof : Nat) (one : Bool) (e : AclEnv) : State × Bool × AclRes :=
  let en := s.on ((if one then F.ACL_LKP_CFG_EN1 else F.ACL_LKP_CFG_EN0).at prof)
  if !en then (s, false, AclRes.none) else
  let set := s.rd ((if one then F.ACL_LKP_CFG_KEYSET1 else F.ACL_LKP_CFG_KEYSET0).at prof)
  let (s, r) := s.aclSearch p.slice (s.aclKey p set) e
  (s.aclHit p.slice r, true, r)

/-- ACTION of a result; zero without a match (R255). -/
def AclRes.action (r : AclRes) : Nat := match r.hit with | some (_, e) => e.action | .none => 0

/-- ACLn_INFO metadata word (R284). -/
def AclRes.info (r : AclRes) (en : Bool) : Nat :=
  b2n en * 2 ^ 63 + b2n r.hit.isSome * 2 ^ 62 + b2n r.multi * 2 ^ 61
    + (match r.hit with | some (i, e) => i % 16384 * 2 ^ 16 + e.prio % 65536 | .none => 0)

/-- Class, colour and queue that the actions of a forwarded packet replace, ACL0 before ACL1 (R256); a queue that neither replaces
stays the decision's base plus the class, but under QMODE 1 (R197). -/
def aclReplace (p : Pkt) (a0 a1 : Nat) : Pkt :=
  let by_ (en : Nat) : Option Nat := if bitN a0 en then some a0 else if bitN a1 en then some a1 else none
  let tc := match by_ 55 with | some a => bits a 54 52 | none => p.tc
  { p with
    tc := tc
    colour := match by_ 51 with | some a => colourOf (bits a 50 49) | none => p.colour
    queue := match by_ 48 with
      | some a => bits a 47 30
      | none => if p.qmode || p.nh.isNone then p.queue else p.queue - p.tc + tc }

/-- The ECHO profile an ACL result pair asks for: ACL0's first. -/
def aclEcho (a0 a1 : Nat) : Option Nat :=
  if bitN a0 28 then some (bits a0 27 24) else if bitN a1 28 then some (bits a1 27 24) else none

/-- Verdict of the ACL results over the lookup's verdict (R256): DENY, PUNT of ACL0 then ACL1, the lookup's own DROP or
PUNT, forwarding with the replacements. -/
def aclVerdict (a0 a1 : Nat) (v : Verdict) : Verdict :=
  if bitN a0 63 || bitN a1 63 then .drop
  else if bitN a0 62 then .punt (bits a0 61 56)
  else if bitN a1 62 then .punt (bits a1 61 56)
  else v

/-- Run both ACL lookups of a pass (R253): their actions, and whether a search was exhausted (R259). -/
def State.aclResults (s : State) (p : Pkt) (prof : Nat) (e : PassEnv) : State × Pkt × Nat × Nat × Bool :=
  let (s, en0, r0) := s.aclLookup p prof false e.acl0
  let (s, en1, r1) := s.aclLookup p prof true e.acl1
  let a0 := r0.action
  let a1 := r1.action
  (s, { p with look := p.look ++ [r0.info en0, a0, r1.info en1, a1] }, a0, a1, r0.exhausted || r1.exhausted)

/-- The ACL over the lookup stage's verdict (R256, R259). -/
def State.aclPass (s : State) (p : Pkt) (prof : Nat) (e : PassEnv) (v : Verdict) : State × Pkt × Verdict :=
  let (s, p, a0, a1, lost) := s.aclResults p prof e
  if lost then (s, p, .punt 12) else
  match aclVerdict a0 a1 v with
  | .forward =>
    let p := aclReplace p a0 a1
    (s, { p with gal := p.gal || bitN a0 29 || bitN a1 29 || bitN a0 28 || bitN a1 28, echo := aclEcho a0 a1 }, .forward)
  | w => (s, p, w)

/-! ### Indirect commands (R257, R258, R262, R519) -/

/-- Word `i` of ACL_IND_DATA. -/
def State.aclW (s : State) (i : Nat) : Nat := (s.rdw (R.ACL_IND_DATA.at i).addr).toNat

/-- Set word `i` of ACL_IND_DATA. -/
def State.aclWSet (s : State) (i v : Nat) : State := s.wrw (R.ACL_IND_DATA.at i).addr (BitVec.ofNat 32 v)

/-- `k` words of ACL_IND_DATA from `i`, first least significant. -/
def State.aclWs (s : State) (i k : Nat) : Nat := (List.range k).foldl (fun acc j => acc + s.aclW (i + j) * 2 ^ (32 * j)) 0

/-- Write `k` words of a number. -/
def State.aclWsSet (s : State) (i k n : Nat) : State := foldS (List.range k) (fun j s => s.aclWSet (i + j) (n / 2 ^ (32 * j))) s

/-- The entry image in ACL_IND_DATA. -/
def State.aclImage (s : State) : AclEnt :=
  { key := s.aclWs 0 20, mask := s.aclWs 20 20, prio := s.aclW 40 % 65536, action := s.aclWs 41 2, valid := bitN (s.aclW 40) 31 }

/-- Completion of an ACL command (R519). -/
def State.aclDone (s : State) (err : Nat) : State :=
  (((s.wr F.ACL_IND_CMD_OP 0).wr F.ACL_IND_STATUS_ERR err).wr F.ACL_IND_STATUS_DONE 1).raise (eg 9 2)

/-- Store an entry with its copies. -/
def State.aclPut (s : State) (sl i : Nat) (e : AclEnt) : State :=
  { s with acl := { s.acl with ents := mset (fun _ => {}) s.acl.ents (aclIx sl i) e
                               repair := s.acl.repair.filter (· ≠ aclIx sl i) } }

/-- A pipeline slot taken from a slice. -/
def State.aclSlot (s : State) (sl : Nat) : State := s.cnt (R.ACL_CNT.at sl) 0x30

/-- The cursor in word 43. -/
def aclCursor (w : Nat) : Option (Nat × Nat) := if bitN w 31 then none else some (bits w 29 16, bits w 15 0)

/-- An indirect command of the ACL: 1 WRITE, 2 READ, 3 INVALIDATE, 4 STEP, 5 READ_CNT; `e` holds the soft errors a STEP
meets. -/
def State.aclCmd (s : State) (op : Nat) (e : AclEnv) : State :=
  if s.on F.ACL_IND_STATUS_BUSY then s.wr F.ACL_IND_STATUS_WR_IGNORED 1 else
  let m := s.rd F.ACL_IND_CMD_SLICE_MASK
  let i := s.rd F.ACL_IND_CMD_INDEX
  if m = 0 then s.aclDone 2 else
  let sl0 := (slicesOf m).headD 0
  match op with
  | 1 =>
    let x := s.aclImage
    if bitN x.action 62 && decide (bits x.action 61 56 < 16) then s.aclDone 1
    else ((foldS (slicesOf m) (fun sl s => (s.aclSlot sl).aclPut sl i x) s).wrapInc F.ACL_STATUS_WGEN).aclDone 0
  | 2 =>
    let x := s.aclEnt sl0 i
    let s := (((s.aclSlot sl0).aclWsSet 0 20 x.key).aclWsSet 20 20 x.mask).aclWsSet 41 2 x.action
    (s.aclWSet 40 (b2n x.valid * 2 ^ 31 + x.prio)).aclDone 0
  | 3 =>
    ((foldS (slicesOf m) (fun sl s => (s.aclSlot sl).aclPut sl i { s.aclEnt sl i with valid := false }) s).wrapInc
      F.ACL_STATUS_WGEN).aclDone 0
  | 4 =>
    let (s, r) := (s.aclSlot sl0).aclStep sl0 (s.aclWs 0 20) (aclCursor (s.aclW 43)) e
    match r.hit with
    | none => s.aclDone 3
    | some (j, x) =>
      (((s.aclWsSet 41 2 x.action).aclWSet 43 (j * 2 ^ 16 + x.prio)).aclWSet 44 (s.rd F.ACL_STATUS_WGEN)).aclDone 0
  | 5 =>
    let n := mget (fun _ => 0) s.acl.hits (aclIx sl0 i)
    let s := (s.aclWsSet 45 2 n).aclDone 0
    if s.on F.SVY_CNT_CFG_COR then { s with acl := { s.acl with hits := mset (fun _ => 0) s.acl.hits (aclIx sl0 i) 0 } } else s
  | _ => let (v, s) := s.draw; s.aclDone (v.toNat % 8)

/-- The scrubber of a slice compares its next row, or one queued for repair, with the copy; a row that differs is rewritten
(R261). A copy it finds uncorrectable is rewritten with its entry from the backing copy, or lost (R260). -/
def State.aclScrub (s : State) (sl : Nat) (sees : ScrubSees) : State :=
  if !s.on F.ACL_SCRUB_EN then s else
  let row := mget (fun _ => 0) s.acl.row sl
  let fix (s : State) : State := (s.aclSlot sl).cnt (R.ACL_CNT.at sl) 0x28
  let act (i : Nat) (queued : Bool) (s : State) : State :=
    match sees with
    | .same => if queued then fix s else s
    | .differs => fix s
    | .copyUe => s.uncorrected i
    | .lost => (s.uncorrected i).aclLost sl i
  match s.acl.repair.find? (fun x => x / 16384 == sl) with
  | some x => act (x % 16384) true { s with acl := { s.acl with repair := s.acl.repair.filter (· ≠ x) } }
  | none => act row false { s with acl := { s.acl with row := mset (fun _ => 0) s.acl.row sl ((row + 1) % 16384) } }

end Sys2Proof.Machine
end

