-- ==== Sys2Proof/Machine/Gal.lean ====
section
/-! DEFINITION. Galleries and threads (R274–R288, R306–R334): registers, data space, tokens, notifications, flues, issue,
dispatch, halts, service states. -/

namespace Sys2Proof.Machine

/-! ### Access -/

/-- Gallery `g`. -/
def State.galI (s : State) (g : Nat) : Gal := mget (fun _ => {}) s.gal g

/-- Update gallery `g`. -/
def State.galUpd (s : State) (g : Nat) (f : Gal → Gal) : State := { s with gal := mupd (fun _ => {}) s.gal g f }

/-- Thread `i` = 8e + t of gallery `g`. -/
def State.thrI (s : State) (g i : Nat) : Thr := mget (fun _ => {}) (s.galI g).thr i

/-- Update a thread. -/
def State.thrUpd (s : State) (g i : Nat) (f : Thr → Thr) : State :=
  s.galUpd g (fun x => { x with thr := mupd (fun _ => {}) x.thr i f })

/-- GAL_STATUS.STATE (R330). -/
def State.galState (s : State) (g : Nat) : Nat := s.rd (F.GAL_STATUS_STATE.at g)
/-- OFF. -/
def gOFF : Nat := 0
/-- LOADING. -/
def gLOADING : Nat := 1
/-- IN_SERVICE. -/
def gSERVICE : Nat := 2
/-- DRAINING. -/
def gDRAINING : Nat := 3
/-- TEST. -/
def gTEST : Nat := 4

/-- The gallery's threads run. -/
def State.galRuns (s : State) (g : Nat) : Bool := let x := s.galState g; x == gLOADING || x == gSERVICE || x == gDRAINING

/-- A GAL counter, by its offset (R334). -/
def State.galCnt (s : State) (g off : Nat) (n : Nat := 1) : State := s.cnt (R.GAL_CNT.on g) off n

/-- Set a bit of GAL_EVT (R334). -/
def State.galEvt (s : State) (g : Nat) (f : Fld) : State :=
  s.setEvt (R.GAL_EVT.at g) (R.GAL_EVT_EN.at g) (f.at g) (eg 10 g)

/-- The lull program runs (R300). -/
def State.lull (s : State) : Bool := s.inMode mLULL

/-! ### Registers and predicates (R278) -/

/-- G register `r`; G0 reads zero. -/
def State.rg (s : State) (g i r : Nat) : Nat := if r = 0 then 0 else mget (fun _ => 0) (s.thrI g i).regs r % 2 ^ 64

/-- Write G register `r`; a write of G0 is discarded. -/
def State.rgSet (s : State) (g i r v : Nat) : State :=
  if r = 0 then s else s.thrUpd g i (fun x => { x with regs := mset (fun _ => 0) x.regs r (v % 2 ^ 64) })

/-- Predicate `p`; P0 reads 1. -/
def State.pd (s : State) (g i p : Nat) : Bool := if p = 0 then true else bitN (s.thrI g i).preds p

/-- Write predicate `p`; a write of P0 is discarded. -/
def State.pdSet (s : State) (g i p : Nat) (v : Bool) : State :=
  if p = 0 then s else
  s.thrUpd g i (fun x => { x with preds := if v then setBit x.preds p else if bitN x.preds p then x.preds - 2 ^ p else x.preds })

/-! ### Data space (R280–R282) -/

/-- The regions of the data space: scratchpad and alias, gallery memory, SH and GSH. -/
inductive MemKind where
  | scr | gm | sh
  deriving DecidableEq, Repr

/-- Region and key of the 8-byte word at address `a` as thread `i` sees it. -/
def memKey (i a : Nat) : Option (MemKind × Nat) :=
  let e := i / 8
  if a < 0x10000 then some (.scr, e * 8192 + a / 8)
  else if a < 0x11000 then some (.scr, e * 8192 + (0x8000 + 0x1000 * (i % 8) + (a - 0x10000)) / 8)
  else if 0x100000 ≤ a ∧ a < 0x300000 then some (.gm, 0x10000 + (a - 0x100000) / 8)
  else if 0x400000 ≤ a ∧ a < 0x400200 then some (.sh, 0x60000 + (a - 0x400000) / 8)
  else if 0x401000 ≤ a ∧ a < 0x401040 then some (.sh, 0x60100 + 8 * e + (a - 0x401000) / 8)
  else none

/-- An 8-byte word of a gallery's memories. -/
def State.gw (s : State) (g k : Nat) : Nat := mget (fun _ => 0) (s.galI g).mem k

/-- Set an 8-byte word. -/
def State.gwSet (s : State) (g k v : Nat) : State :=
  s.galUpd g (fun x => { x with mem := mset (fun _ => 0) x.mem k (v % 2 ^ 64) })

/-- The fault of an access of `n` bytes at `a`: 0 none, 3 FLT_ADDR, 4 FLT_ALIGN (R280, R281); `atom` for ATOM. -/
def memFault (i a n : Nat) (atom : Bool) : Nat :=
  if 2 ^ 32 ≤ a then 3
  else match memKey i a, memKey i (a + n - 1) with
    | some (k, _), some _ =>
      if atom ∧ k = .scr then 3
      else if k = .sh ∧ n ≠ 8 then 4
      else if a % n ≠ 0 then 4 else 0
    | _, _ => 3

/-- Read `n` bytes at an address that does not fault, little-endian (R281). -/
def State.memRd (s : State) (g i a n : Nat) : Nat :=
  match memKey i a with
  | some (_, k) => s.gw g k / 256 ^ (a % 8) % 256 ^ n
  | none => 0

/-- Write `n` bytes at an address that does not fault. -/
def State.memWr (s : State) (g i a n v : Nat) : State :=
  match memKey i a with
  | some (_, k) =>
    let w := s.gw g k
    let o := a % 8
    s.gwSet g k (w - w / 256 ^ o % 256 ^ n * 256 ^ o + v % 256 ^ n * 256 ^ o)
  | none => s

/-- Write a byte string at an address, byte by byte. -/
def State.memPut (s : State) (g i a : Nat) : Bytes → State
  | [] => s
  | b :: l => State.memPut (s.memWr g i a 1 b.toNat) g i (a + 1) l

/-- Read `n` bytes. -/
def State.memGet (s : State) (g i a : Nat) : Nat → Bytes
  | 0 => []
  | n + 1 => BitVec.ofNat 8 (s.memRd g i a 1) :: State.memGet s g i (a + 1) n

/-- A range of `n` bytes at `a` lies in the scratchpad or the alias (R288). -/
def inScratch (a n : Nat) : Bool := decide (a + n ≤ 0x10000) || (decide (0x10000 ≤ a) && decide (a + n ≤ 0x11000))

/-- The fault of a result buffer of `n` bytes: FLT_ADDR outside the scratchpad, FLT_ALIGN when not 8-byte aligned
(R288). -/
def bufFault (a n : Nat) : Nat := if !inScratch a n then 3 else if a % 8 ≠ 0 then 4 else 0

/-! ### Notifications and halts (R299, R320–R324) -/

/-- A notification (R321). -/
def noteWord (cause i code idx : Nat) : Nat :=
  2 ^ 63 + cause % 256 * 2 ^ 48 + i / 8 * 2 ^ 44 + i % 8 * 2 ^ 40 + code % 65536 * 2 ^ 16 + idx % 65536

/-- Queue a notification, while the queue has room, and post SYNTH to the supervisor (R320). -/
def State.note (s : State) (g w : Nat) : State :=
  (s.galUpd g (fun x => { x with notes := (x.notes ++ [w]).take 512 })).thrUpd g 0 (fun x => { x with events := setBit x.events 1 })

/-- A WRITE_LOST of thread `i`'s store of scratchpad word `a` at index `pc` (R320, R328). -/
def State.writeLost (s : State) (g i a pc : Nat) : State :=
  let s := (s.galCnt g 0x30).galEvt g F.GAL_EVT_WRITE_LOST
  if (s.galI g).notes.length < 191 then s.note g (noteWord 18 i (a / 8 % 2 ^ 13) pc) else s

/-- A thread halts at its instruction, which has had no effect (R299, R324). -/
def State.haltThr (s : State) (g i cause code : Nat) : State :=
  let up := s.tb.up
  let pc := (s.thrI g i).pc
  let s := s.thrUpd g i (fun x => { x with run := .haltF, haltAt := up, leashed := [], step := false })
  let s := s.note g (noteWord cause i code pc)
  let s := if cause = 12 then s else s.galCnt g 0x28
  if i = 0 then s.galEvt g F.GAL_EVT_SUPER_FAULT else s

/-- A thread is halted. -/
def Thr.halted (x : Thr) : Bool := x.run == .haltF || x.run == .haltD

/-! ### Performance events (R454, R455) -/

/-- An event of engine `i / 8` attributed to thread `i % 8`: every counter that selects it counts; one that samples restarts at
SAMPLE_AT and owes a sample of that thread (R457). -/
def State.pmc (s : State) (g i ev : Nat) : State :=
  if !s.on (F.PMC_CTRL_RUN.at g) then s else
  foldS (List.range 8) (fun c s =>
    let j := 8 * (i / 8) + c
    let sel := (s.rdw ((R.PMC_SEL.on g).at j).addr).toNat
    if bitN sel 31 && decide (sel % 256 = ev) && bitN sel (16 + i % 8) then
      let r := (R.PMC_VAL.on g).at j
      let n := min (s.rd64 r + 1) (2 ^ 48 - 1)
      if bitN sel 29 && decide (max 1 (s.rd64 ((R.PMC_SAMPLE_AT.on g).at j)) ≤ n) then
        { s.wr64 r 0 with pmcSt := { s.pmcSt with due := s.pmcSt.due ++ [(g, i / 8, c, i % 8)] } }
      else s.wr64 r n
    else s) s

/-! ### Tokens (R286, R287) -/

/-- Token `n` of a thread. -/
def Thr.tok (x : Thr) (n : Nat) : Option Tok := mget (fun _ => (none : Option Tok)) x.toks n

/-- Set token `n`. -/
def State.tokSet (s : State) (g i n : Nat) (t : Option Tok) : State :=
  s.thrUpd g i (fun x => { x with toks := mset (fun _ => none) x.toks n t })

/-- The lowest free token. -/
def Thr.freeTok (x : Thr) : Option Nat := (List.range 16).find? (fun n => (x.tok n).isNone)

/-- Bit mask of the tokens that satisfy a test. -/
def Thr.tokMask (x : Thr) (f : Tok → Bool) : Nat :=
  x.toks.foldl (fun m e => match e.2 with | some t => if f t then m + 2 ^ e.1 else m | none => m) 0

/-- Tokens outstanding. -/
def Thr.tokBusy (x : Thr) : Nat := x.tokMask (fun t => t.done.isNone)

/-- Tokens complete with their status not returned. -/
def Thr.tokDone (x : Thr) : Nat := x.tokMask (fun t => t.done.isSome)

/-- The status word a completion delivers (R287). -/
def statusWord (status tok detail : Nat) : Nat := status * 2 ^ 56 + tok * 2 ^ 52 + detail % 2 ^ 52

/-- Thread `i` acts: the still-air condition, which does not count the supervisor, may begin to hold from here (R325, R326). -/
def State.saTouch (s : State) (g i : Nat) : State :=
  let up := s.tb.up
  s.galUpd g (fun x => { x with saAt := if i = 0 then x.saAt else up, saFired := x.saFired && decide (i = 0) })

/-- Token `n` completes with word `w`; one whose status is discarded is freed. A packet's Echo token completes with its scan result
itself (R264, R266, log entry 135). -/
def State.tokResult (s : State) (g i n w : Nat) : State :=
  match (s.thrI g i).tok n with
  | none => s
  | some t => (s.saTouch g i).tokSet g i n (if t.discard = 0 then some { t with done := some w } else none)

/-- Token `n` completes with a status and detail. -/
def State.tokComplete (s : State) (g i n status detail : Nat) : State := s.tokResult g i n (statusWord status n detail)

/-! ### Flues (R315–R319) -/

/-- GAL_FLUE field of flue `f`. -/
def flc (x : Fld) (g f : Nat) : Fld := (x.on g).at f

/-- Flue `f` exists and is enabled. -/
def State.flueOn (s : State) (g f : Nat) : Bool := decide (f < 128) && s.on (flc F.GAL_FLUE_EN g f)

/-- Receiving thread of a flue. -/
def State.flueRx (s : State) (g f : Nat) : Nat := 8 * s.rd (flc F.GAL_FLUE_RX_ENGINE g f) + s.rd (flc F.GAL_FLUE_RX_THREAD g f)

/-- Committed words of a flue. -/
def State.flueWords (s : State) (g f : Nat) : List Nat := mget (fun _ => []) (s.galI g).flue f

/-- Set them. -/
def State.fluePut (s : State) (g f : Nat) (l : List Nat) : State :=
  s.galUpd g (fun x => { x with flue := mset (fun _ => []) x.flue f l })

/-- Words reserved in a flue and not committed. -/
def State.flueReserved (s : State) (g f : Nat) : Nat :=
  (s.galI g).thr.foldl (fun n x => x.2.resv.foldl (fun n r => if r.flue = f then n + r.size else n) n) 0

/-- Free space of a flue. -/
def State.flueSpace (s : State) (g f : Nat) : Nat :=
  s.rd (flc F.GAL_FLUE_CAP g f) - (s.flueWords g f).length - s.flueReserved g f

/-- Waiting reservations of a flue, oldest first: (thread, size). -/
def State.flueWait (s : State) (g f : Nat) : List (Nat × Nat) := mget (fun _ => []) (s.galI g).wait f

/-- Set them. -/
def State.flueWaitPut (s : State) (g f : Nat) (l : List (Nat × Nat)) : State :=
  s.galUpd g (fun x => { x with wait := mset (fun _ => []) x.wait f l })

/-- Serve the waiting reservations in arrival order while the first fits (R316); `n` bounds them. -/
def State.flueServe (s : State) (g f : Nat) : Nat → State
  | 0 => s
  | n + 1 =>
    match s.flueWait g f with
    | [] => s
    | (i, k) :: l =>
      if k ≤ s.flueSpace g f then
        let s := (s.flueWaitPut g f l).thrUpd g i (fun x => { x with resv := x.resv ++ [⟨f, k, [], true⟩] })
        State.flueServe s g f n
      else s

/-- Space of a flue was freed. -/
def State.flueFreed (s : State) (g f : Nat) : State := s.flueServe g f (s.flueWait g f).length

/-- A thread's reservation in a flue. -/
def Thr.resvIn (x : Thr) (f : Nat) : Option Resv := x.resv.find? (fun r => r.flue == f)

/-- Drop a thread's reservations that satisfy a test, and serve the waiters. -/
def State.dropResv (s : State) (g i : Nat) (p : Resv → Bool) : State :=
  let gone := (s.thrI g i).resv.filter p
  let s := s.thrUpd g i (fun x => { x with resv := x.resv.filter (fun r => !p r) })
  foldS gone (fun r s => s.flueFreed g r.flue) s

/-- A thread no longer waits for a reservation. -/
def State.dropWait (s : State) (g i : Nat) : State :=
  match (s.thrI g i).run with
  | .stall (.fres f) => (s.flueWaitPut g f ((s.flueWait g f).filter (fun w => w.1 != i))).flueFreed g f
  | _ => s

/-- Pending events of a thread (R296): FLUE while a flue it receives from holds a word (R318). -/
def State.eventsOf (s : State) (g i : Nat) : Nat :=
  let e := (s.thrI g i).events
  if (s.galI g).flue.any (fun x => !x.2.isEmpty && s.flueRx g x.1 == i) then setBit e 2 else e

/-! ### Issue (R301, R309, R311–R314) -/

/-- What an instruction does to its thread's control. -/
inductive Ctl where
  | next | jump (n : Nat) | flt (cause code : Nat) | stall (w : Stall) | done
  deriving DecidableEq, Repr

/-- The thread may issue: its gallery runs, it is ready or presents its stalled instruction again, and a background thread
has budget left (R314). -/
def State.canIssue (s : State) (g i : Nat) : Bool :=
  let x := s.thrI g i
  s.galRuns g && (match x.run with | .ready => true | .stall _ => true | _ => false)
  && !(x.role == 2 && x.started && (s.galI g).budget == 0)

/-- An instruction retires; one that a debug STEP let run halts its thread again (R314, R333). -/
def State.retire (s : State) (g i : Nat) : State :=
  let up := s.tb.up
  let x := s.thrI g i
  let s := s.galUpd g (fun y => { y with budget := if x.role = 2 ∧ x.started then y.budget - 1 else y.budget })
  let s := s.thrUpd g i (fun x =>
    if x.step then { x with run := .haltD, was := x.run, step := false, haltAt := up, leashed := [] } else x)
  s.pmc g i 0x02

/-- Carry out a thread's control after an instruction. -/
def State.control (s : State) (g i : Nat) (c : Ctl) : State :=
  let again : Bool := match c, (s.thrI g i).run with | .stall _, .stall _ => true | _, _ => false
  let s := if again then s else s.saTouch g i
  match c with
  | .next => (s.thrUpd g i (fun x => { x with pc := (x.pc + 1) % 2 ^ 16, run := .ready })).retire g i
  | .jump n => ((s.thrUpd g i (fun x => { x with pc := n, run := .ready })).pmc g i 0x08).retire g i
  | .flt cause code => s.haltThr g i cause code
  | .stall w =>
    let s := if again then s else s.pmc g i 0x07
    s.thrUpd g i (fun x => { x with run := .stall w })
  | .done => s.retire g i

/-- Thread number of a thread. -/
def ThrId.ix (c : ThrId) : Nat := 8 * c.e.val + c.t.val

/-- Issue an instruction: the thread can issue and fetches word `w`; a false guard only advances (R301); a fetch beyond the
code faults (FLT_PC); an uncorrectable read faults (FLT_ECC); otherwise `body` acts. -/
def State.issue (s : State) (d : Iss) (w : Nat) (body : State → State × Ctl) : State :=
  let g := d.c.g.val
  let i := d.c.ix
  let pc := (s.thrI g i).pc
  if !s.canIssue g i then s
  else if (s.galI g).codeLen ≤ pc then s.haltThr g i 2 0
  else if mget (fun _ => 0) (s.galI g).code pc ≠ w then s
  else if s.pd g i d.pg.toNat == d.pn then (s.pmc g i 0x06).control g i .next
  else if d.ecc then s.haltThr g i 9 0
  else let (s, c) := body s; s.control g i c

/-! ### Dispatch (R275, R279, R306, R307) -/

/-- An idle worker. -/
def Thr.idleWorker (x : Thr) : Bool := x.role == 1 && x.run == .idle

/-- The next idle worker: engines in rotation, the lowest thread within one (R275). -/
def State.idleWorker (s : State) (g : Nat) : Option Nat :=
  let e0 := (s.galI g).eng
  ((List.range 8).flatMap (fun k => (List.range 8).map (fun t => 8 * ((e0 + k) % 8) + t))).find? (fun i => (s.thrI g i).idleWorker)

/-- A packet is dispatched to worker `i` (R279, R283); its Echo token, where an ACL action requested a scan, completes at
once when the scan is done. -/
def State.dispatchTo (s : State) (g i : Nat) (x : GIn) : State :=
  let n := min 512 x.p.bytes.length
  let gal := s.galI g
  let s := s.galUpd g (fun y => { y with eng := (i / 8 + 1) % 8 })
  let tok := if x.p.echo.isSome then (s.thrI g i).freeTok else none
  let s := s.thrUpd g i (fun t => { t with
    pkt := some { p := x.p, egr := x.egr, handle := x.handle, hw0 := n, hwLen := n }
    pc := if x.egr then gal.entEg else gal.entIn, run := .ready })
  let s := ((s.rgSet g i 1 x.handle).rgSet g i 2 (compact x.p.stamp)).rgSet g i 3 (match tok with | some n => n | none => 2 ^ 64 - 1)
  let s := s.pmc g i 0x10
  match tok with
  | none => s
  | some n =>
    let s := s.tokSet g i n (some { req := .echo })
    let inst := mget (fun _ => ({} : EchoInst)) s.echo.inst g
    match inst.ready.find? (fun r => r.1 == x.handle) with
    | none => s
    | some r =>
      let inst : EchoInst := { inst with ready := inst.ready.filter (fun q => q.1 != x.handle) }
      { s.tokResult g i n r.2 with echo := { s.echo with inst := mset (fun _ => {}) s.echo.inst g inst } }

/-- The head of the input queue goes to an idle worker. -/
def State.dispatch (s : State) (g : Nat) : State :=
  match s.idleWorker g, (s.galI g).inq with
  | some i, x :: l => (s.galUpd g (fun y => { y with inq := l })).dispatchTo g i x
  | _, _ => s

/-- The gallery that serves slice `n` (R29): its own, or its neighbour's while steered. -/
def State.galOf (s : State) (n : Nat) : Nat := if s.on (F.GAL_STATUS_STEERED.at n) then (n + 1) % 8 else n

/-- Rank of an arrival at gallery `g` in one cycle (R307). -/
def GIn.rank (x : GIn) (g : Nat) : Nat := (if x.slice = g then 0 else 2) + (if x.egr then 0 else 1)

/-- The arrival a gallery takes next: the earliest, ties by rank. -/
def State.nextArrival (s : State) (g : Nat) : Option GIn :=
  (s.galIn.filter (fun x => s.galOf x.slice == g)).foldl (fun best x => match best with
    | none => some x
    | some b => if x.at_ < b.at_ ∨ (x.at_ = b.at_ ∧ x.rank g < b.rank g) then some x else best) none

/-- A packet at the input finds an idle worker, a place in the queue, or is dropped (R275, R306). -/
def State.galAccept (s : State) (g : Nat) (x : GIn) : State :=
  let s := s.galCnt g (if x.slice = g then 0x00 else 0x08)
  match s.idleWorker g, (s.galI g).inq with
  | some i, [] => s.dispatchTo g i x
  | _, q =>
    if q.length < 2048 then
      let s := s.galUpd g (fun y => { y with inq := y.inq ++ [x] })
      s.wr (F.GAL_IN_STATUS_HWM.at g) (max (s.rd (F.GAL_IN_STATUS_HWM.at g)) (q.length + 1))
    else
      let s := s.galCnt g (if x.slice = g then 0x10 else 0x18)
      let s := if (s.galI g).dropSeen then s.wr (F.GAL_EVT_IN_DROP.at g) 1
        else (s.galUpd g (fun y => { y with dropSeen := true })).galEvt g F.GAL_EVT_IN_DROP
      if x.egr then s else s.nhDone x.p

/-! ### Supervisor commands on threads (R319, R322, R323) -/

/-- Every token of a thread loses its status, or with `results` its result; complete ones are freed. -/
def Thr.discardToks (x : Thr) (results : Bool) : Thr :=
  { x with toks := x.toks.filterMap (fun e => match e.2 with
      | some t => if t.done.isSome then none else some (e.1, some { t with discard := if results then 2 else max 1 t.discard })
      | none => none) }

/-- RESTART (R322): packet dropped and counted, tokens freed as they complete, reservations discarded, thread back to idle, its
budget wait or ENTRY_SUPER. -/
def State.thrRestart (s : State) (g i : Nat) : State :=
  let x := s.thrI g i
  let s := match x.pkt with
    | some k => let s := s.galCnt g 0x50; if k.egr then s else s.nhDone k.p
    | none => s
  let s := (s.dropWait g i).dropResv g i (fun _ => true)
  let gal := s.galI g
  let s := s.thrUpd g i (fun x => { x.discardToks false with
    pkt := none, lost := [], leashed := [], step := false
    run := if x.role = 1 then .idle else if x.role = 2 then .budget else if x.role = 3 then .ready else .off
    bgDone := true
    pc := if x.role = 3 then gal.entSup else x.pc })
  if x.role = 1 then s.dispatch g else s

/-- A halted thread runs again: where the debugger halted it, as it was, so that an idle worker takes a waiting packet (R322, R333). -/
def State.thrGo (s : State) (g i : Nat) : State :=
  let s := s.thrUpd g i (fun x => { x with run := if x.run = .haltD then x.was else .ready, was := .ready, leashed := [] })
  if (s.thrI g i).idleWorker then s.dispatch g else s

/-- THR_CMD on thread `i`: 1 RESUME, 2 SKIP, 3 JUMP, 4 RESTART; ignored when the thread is not halted. -/
def State.thrCmd (s : State) (g i op idx : Nat) : State :=
  if !(s.thrI g i).halted then s else
  match op with
  | 1 => s.thrGo g i
  | 2 => (s.thrUpd g i (fun x => { x with pc := (x.pc + 1) % 2 ^ 16 })).thrGo g i
  | 3 => (s.thrUpd g i (fun x => { x with pc := idx })).thrGo g i
  | 4 => s.thrRestart g i
  | _ => s

/-- The register or predicates of a halted thread (R323, R333). -/
def State.haltedReg (s : State) (g i r : Nat) (pred : Bool) : Nat :=
  if !(s.thrI g i).halted then 0
  else if pred then (s.thrI g i).preds / 2 * 2 % 256 + 1
  else s.rg g i r

/-- Write a register or the predicates of a halted thread. -/
def State.haltedRegSet (s : State) (g i r : Nat) (pred : Bool) (v : Nat) : State :=
  if !(s.thrI g i).halted then s
  else if pred then s.thrUpd g i (fun x => { x with preds := v % 256 / 2 * 2 })
  else s.rgSet g i r v

/-- SYNTH to the threads of a mask (R323). -/
def State.synthPost (s : State) (g mask : Nat) : State :=
  foldS ((List.range 64).filter (fun i => bitN mask i)) (fun i s =>
    s.thrUpd g i (fun x => if x.role = 0 then x else { x with events := setBit x.events 1 })) s

/-- Reclaim a halted thread's reservation in a flue (R319). -/
def State.reclaim (s : State) (g i f : Nat) : State :=
  let x := s.thrI g i
  if x.halted && (x.resvIn f).isSome then
    let s := s.thrUpd g i (fun x => { x with lost := f :: x.lost })
    (s.dropResv g i (fun r => r.flue == f)).galCnt g 0x40
  else s

/-- A thread halted for the leash while it holds reservations: one LEASH per flue (R319). -/
def State.leash (s : State) (g i : Nat) : State :=
  let x := s.thrI g i
  if !x.halted || x.resv.isEmpty then s else
  let s := s.advanceUp (x.haltAt + s.rd (F.GAL_LEASH_US.at g) * 1000)
  let new := (x.resv.map (·.flue)).filter (fun f => !x.leashed.contains f)
  let s := s.thrUpd g i (fun x => { x with leashed := x.leashed ++ new })
  foldS new (fun f s => s.note g (noteWord 17 i f x.pc)) s

/-! ### Still-air detector (R325, R326) -/

/-- A counted thread is in an internal wait. -/
def State.internalWait (s : State) (g i : Nat) : Bool :=
  match (s.thrI g i).run with
  | .stall (.fget f) => (s.flueWords g f).isEmpty
  | .stall (.fres f) => (s.flueWait g f).any (fun w => w.1 == i)
  | .stall (.events m) => m &&& 9 == 0 && s.eventsOf g i &&& m == 0
  | _ => false

/-- A thread counts: it has a role, is not the supervisor, not halted, not a background thread in its budget wait. -/
def State.saCounts (s : State) (g i : Nat) : Bool :=
  let x := s.thrI g i
  decide (i ≠ 0) && decide (x.role ≠ 0) && !x.halted
  && !(x.role == 2 && x.started && (x.run == .budget || (s.galI g).budget == 0))

/-- The still-air condition holds. -/
def State.saHolds (s : State) (g : Nat) : Bool :=
  let l := (List.range 64).filter (fun i => s.saCounts g i)
  s.galRuns g && !l.isEmpty && l.all (fun i => s.internalWait g i && (s.thrI g i).tokBusy == 0)

/-- The condition has held for LIMIT cycles, three a nanosecond (R326). -/
def State.stillAir (s : State) (g : Nat) : State :=
  if !s.saHolds g || (s.galI g).saFired then s else
  let s := s.advanceUp ((s.galI g).saAt + (s.rd (F.GAL_SA_LIMIT.at g) + 2) / 3)
  let s := s.galUpd g (fun x => { x with saFired := true })
  ((s.note g (noteWord 16 0 0 0)).galEvt g F.GAL_EVT_STILL_AIR).galCnt g 0x38

/-! ### Timer, budget and ticks (R296, R314) -/

/-- A thread's compact time reaches TIMER. -/
def State.thrTimer (s : State) (g i : Nat) : State :=
  let x := s.thrI g i
  if !x.armed then s else
  let d := (x.timer + 2 ^ 48 - s.ns % 2 ^ 48) % 2 ^ 48
  let s := if d < 2 ^ 47 then s.advanceTo ((s.ns + d) * tuNs) else s
  s.thrUpd g i (fun x => { x with armed := false, events := setBit x.events 3 })

/-- Background work of gallery `g` due at the last tick is unfinished (R314). -/
def State.galLate (s : State) (g : Nat) : Bool :=
  s.galRuns g && (s.galI g).thr.any (fun x => x.2.role == 2 && x.2.started && !x.2.bgDone)

/-- A tick in gallery `g`: TICK to every thread with a role, the background budget, and its overrun (R296, R314). -/
def State.galTick (s : State) (g : Nat) : State :=
  if !s.galRuns g then s else
  let late := s.galLate g
  let bud := s.rd (F.GAL_BG_BUDGET.at g)
  let s := s.galUpd g (fun y => { y with
    budget := bud, dropSeen := false
    thr := y.thr.map (fun (e : Nat × Thr) =>
      let x := e.2
      if x.role = 0 then e else
      let x := { x with events := setBit x.events 0 }
      if x.role = 2 ∧ x.started ∧ x.run = .budget then (e.1, { x with run := .ready, pc := y.entBg, bgDone := false }) else (e.1, x)) })
  if late then (s.galCnt g 0x48).galEvt g F.GAL_EVT_BG_OVERRUN else s

/-- A tick in galleries `l`: unfinished background work is one overrun of the tick (R73). -/
def State.galTicks (s : State) (l : List Nat) : State :=
  let late := l.any s.galLate
  let s := foldS l (fun g s => s.galTick g) s
  if late then s.overrun 7 else s

/-! ### Loading, service and draining (R276, R277, R330–R332) -/

/-- The header of a program section breaks no rule of R276. -/
def progOk (b : Bytes) : Bool :=
  let n := leN b 8 4
  let gm := leN b 0x30 4
  let roles := leN b 0x20 16
  let role (i : Nat) : Nat := bits roles (2 * i + 1) (2 * i)
  decide (leN b 0 4 = 0x454E4750) && decide (leN b 4 2 = 1) && decide (leN b 6 2 = 0)
  && decide (1 ≤ n) && decide (n ≤ 65536)
  && [0x0C, 0x10, 0x14, 0x18, 0x1C].all (fun o => decide (leN b o 4 < n))
  && decide (role 0 = 3) && (List.range 64).all (fun i => i == 0 || role i != 3) && (List.range 64).any (fun i => role i == 1)
  && decide (gm ≤ 2 ^ 21) && decide (gm % 8 = 0) && decide (leN b 0x34 4 ≤ 1024) && decide (leN b 0x38 8 = 0)
  && decide (0x40 + 4 * n + gm ≤ b.length)

/-- Capacities of the enabled flues fit (R315). -/
def State.fluesFit (s : State) (g : Nat) : Bool :=
  decide ((List.range 128).foldl (fun n f => if s.flueOn g f then n + s.rd (flc F.GAL_FLUE_CAP g f) else n) 0 ≤ 8192)

/-- Words of a byte string of size `k` each, numbered from 0, zero words left out. -/
def sparseWords (k : Nat) (b : Bytes) (n : Nat) : SMap Nat :=
  (List.range n).filterMap (fun j => let w := leN b (k * j) k; if w = 0 then none else some (j, w))

/-- Load a program section into gallery `g` (R331): storage cleared, GMEM copied, threads with a role start at
ENTRY_START. -/
def State.galLoad (s : State) (g : Nat) (b : Bytes) : State :=
  let n := leN b 8 4
  let gm := leN b 0x30 4
  let roles := leN b 0x20 16
  let ent := leN b 0x0C 4
  let up := s.tb.up
  let thr : SMap Thr := (List.range 64).filterMap (fun i =>
    let r := bits roles (2 * i + 1) (2 * i)
    if r = 0 then none else some (i, { role := r, run := .ready, pc := ent : Thr }))
  let gmem := (sparseWords 8 (b.drop (0x40 + 4 * n)) (gm / 8)).map (fun (x : Nat × Nat) => (0x10000 + x.1, x.2))
  let s := s.galUpd g (fun x => { x with
    code := sparseWords 4 (b.drop 0x40) n, codeLen := n, entStart := ent
    entIn := leN b 0x10 4, entEg := leN b 0x14 4, entSup := leN b 0x18 4, entBg := leN b 0x1C 4
    mem := gmem, thr := thr, flue := [], wait := [], notes := [], inq := [], saFired := false, dropSeen := false
    loadAt := some up, drainAt := none, sel := 0 })
  (s.wr (F.GAL_STATUS_STATE.at g) gLOADING).wr (F.GAL_IN_STATUS_HWM.at g) 0

/-- Slice `n`'s programmable traffic goes to the neighbour, or back (R29). -/
def State.steer (s : State) (n : Nat) (on : Bool) : State :=
  (s.wr (F.GAL_STATUS_STEERED.at n) (b2n on)).wr (F.GAL_STATUS_SERVING_NBR.at ((n + 1) % 8)) (b2n on)

/-- Every thread with a role has executed PKT READY: the gallery enters service and its slice's traffic comes back (R29,
R277). -/
def State.galServe (s : State) (g : Nat) : State :=
  if s.galState g = gLOADING ∧ (s.galI g).thr.all (fun x => x.2.role == 0 || x.2.started) then
    ((s.galUpd g (fun x => { x with loadAt := none })).wr (F.GAL_STATUS_STATE.at g) gSERVICE).steer g false
  else s

/-- A gallery starts to drain: its slice is steered (R332). -/
def State.galDrain (s : State) (g : Nat) : State :=
  if s.galState g = gSERVICE then
    let up := s.tb.up
    ((s.galUpd g (fun x => { x with drainAt := some up })).wr (F.GAL_STATUS_STATE.at g) gDRAINING).steer g true
  else s

/-- Packets a gallery holds or has queued. -/
def State.galHolds (s : State) (g : Nat) : Nat :=
  (s.galI g).inq.length + ((s.galI g).thr.filter (fun x => x.2.pkt.isSome)).length

/-- The end of a drain (R332): after 10 ms packets still held or queued are dropped and counted, and outstanding tokens lose
their results; the gallery leaves DRAINING for state `next`. -/
def State.galDrained (s : State) (g next : Nat) : State :=
  let n := s.galHolds g
  let s := if n = 0 then s else
    let s := match (s.galI g).drainAt with | some t => s.advanceUp (t + 10 ^ 7) | none => s
    let held := (s.galI g).inq.filterMap (fun x => if x.egr then none else some x.p)
      ++ (s.galI g).thr.filterMap (fun x => match x.2.pkt with | some k => if k.egr then none else some k.p | none => none)
    let s := foldS held (fun p s => s.nhDone p) s
    (s.galCnt g 0x20 n).galEvt g F.GAL_EVT_DRAIN_DROP
  let s := s.galUpd g (fun x => { x with
    inq := [], drainAt := none
    thr := x.thr.map (fun (e : Nat × Thr) => (e.1, { e.2.discardToks true with
      pkt := none, run := if e.2.pkt.isSome then .idle else e.2.run })) })
  s.wr (F.GAL_STATUS_STATE.at g) next

/-- A gallery is switched off: its on-die storage is cleared when it powers up again (R86, R331). -/
def State.galOff (s : State) (g : Nat) : State :=
  let x := s.galI g
  ({ s with gal := mset (fun _ => {}) s.gal g { winBase := x.winBase, winSize := x.winSize } }).wr (F.GAL_STATUS_STATE.at g) gOFF

/-! ### Debugging (R333) -/

/-- A debug operation on thread `i`: 1 HALT, 2 STEP, 3 RESUME, 4 RESTART; `allowed` says that engine thread debug is
permitted. -/
def State.dbgOp (s : State) (g i op : Nat) (allowed : Bool) : State :=
  let up := s.tb.up
  let x := s.thrI g i
  if op = 4 then s.thrRestart g i
  else if !allowed then s.wr (F.GAL_DBG_CTRL_DENIED.at g) 1
  else match op with
    | 1 =>
      if x.halted ∨ x.role = 0 then s
      else ((s.dropWait g i).saTouch g i).thrUpd g i (fun x => { x with
        run := .haltD, haltAt := up, leashed := [], step := false, was := match x.run with | .stall _ => .ready | r => r })
    | 2 => if x.run = .haltD ∧ x.was = .ready then s.thrUpd g i (fun x => { x with run := .ready, step := true }) else s
    | 3 => if x.run = .haltD then s.thrGo g i else s
    | _ => s

/-- GAL_THR of a thread: STATE, PKT, TOKENS, PC (R334). -/
def State.thrWord (s : State) (g i : Nat) : Nat :=
  let x := s.thrI g i
  let st := match x.run with
    | .off => 0 | .idle => 1 | .ready => if x.role == 2 && x.started && (s.galI g).budget == 0 then 5 else 2
    | .stall _ => 4 | .budget => 5 | .haltF => 6 | .haltD => 7
  st * 2 ^ 29 + b2n x.pkt.isSome * 2 ^ 28 + onesOf 16 x.tokBusy * 2 ^ 16 + x.pc
where
  /-- One bits among the low `n` bits. -/
  onesOf : Nat → Nat → Nat
    | 0, _ => 0
    | n + 1, v => v % 2 + onesOf n (v / 2)

end Sys2Proof.Machine
end

