-- ==== Sys2Proof/Machine/Hoard.lean ====
section
/-! DEFINITION. Hoard (R335–R350): packet buffers with their references, free-pointer caches, scratch buffers, refusals,
the wait queues and reclaim. -/

namespace Sys2Proof.Machine

/-! ### Packet buffers (R337, R341, R347) -/

/-- Cached pointers of sub-stack `k` of pool 0. -/
def State.stackCache (s : State) (k : Nat) : Nat := mget (fun _ => 0) s.hrd.cache k

/-- Set them. -/
def State.stackCacheSet (s : State) (k n : Nat) : State :=
  { s with hrd := { s.hrd with cache := mset (fun _ => 0) s.hrd.cache k n } }

/-- Cells taken from sub-stack `k`. -/
def State.stackTaken (s : State) (k : Nat) : Nat := mget (fun _ => 0) s.hrd.taken k

/-- Free pointers of sub-stack `k`: the cells c with c mod 8 = k not taken. -/
def State.stackFree (s : State) (k : Nat) : Nat := s.cells0 / 8 - s.stackTaken k

/-- One cell comes from sub-stack `k`: the cell c, with c mod 8 = k (R23, R337). -/
def State.stackTake (s : State) (k : Nat) : State × Nat :=
  let s := s.stackCacheSet k (s.stackCache k - 1)
  let (s, j) := { s with hrd := { s.hrd with taken := mupd (fun _ => 0) s.hrd.taken k (· + 1) } }.stackPop k (s.cells0 / 8)
  (s, 8 * j + k)

/-- Cell `c` goes back to sub-stack `k`. -/
def State.stackGive (s : State) (k c : Nat) : State :=
  let s := s.stackCacheSet k (min 8192 (s.stackCache k + 1))
  { s with hrd := { s.hrd with taken := mupd (fun _ => 0) s.hrd.taken k (· - 1) } }.stackPush k [c / 8]

/-- `n` cells come from the sub-stacks in rotation from `k` on (R337). -/
def State.cellsTake (s : State) (k : Nat) : Nat → State × List Nat
  | 0 => (s, [])
  | n + 1 =>
    let (s, c) := s.stackTake (k % 8)
    let (s, l) := State.cellsTake s (k + 1) n
    (s, c :: l)

/-- A packet's cells go back along its links (R341). -/
def State.cellsGive (s : State) (k : Nat) : List Nat → State
  | [] => s
  | c :: l => State.cellsGive (s.stackGive (k % 8) c) (k + 1) l

/-- Allocate the `n` cells of a packet of `len` bytes of slice `sl`: one reference, cells from the sub-stacks in rotation (R337, R341,
R347); the buffer's number. -/
def State.pktAlloc (s : State) (sl n len : Nat) : State × Nat :=
  let k0 := mget (fun _ => 0) s.hrd.rot sl
  let b := s.hrd.nextBuf
  let (s, l) := s.cellsTake k0 n
  let s := s.poolTake 0 n
  ({ s with hrd := { s.hrd with
      bufs := mset (fun _ => {}) s.hrd.bufs b { refs := 1, len := len + 32, first := k0, cells := l }, nextBuf := b + 1
      rot := mset (fun _ => 0) s.hrd.rot sl ((k0 + n) % 8) } }, b)

/-- A buffer. -/
def State.pktBuf (s : State) (b : Nat) : PktBuf := mget (fun _ => {}) s.hrd.bufs b

/-- Set it. -/
def State.pktBufSet (s : State) (b : Nat) (x : PktBuf) : State :=
  { s with hrd := { s.hrd with bufs := mset (fun _ => {}) s.hrd.bufs b x } }

/-- One more queue entry refers to a buffer (R347). -/
def State.pktRef (s : State) (b : Nat) : State := s.pktBufSet b { s.pktBuf b with refs := (s.pktBuf b).refs + 1 }

/-- A queue entry departs or is dropped: the last one frees the cells (R341, R347). -/
def State.pktUnref (s : State) (b : Nat) : State :=
  let x := s.pktBuf b
  if x.refs = 0 then s
  else if x.refs = 1 then ((s.cellsGive x.first x.cells).poolGive 0 x.cells.length).pktBufSet b {}
  else s.pktBufSet b { x with refs := x.refs - 1 }

/-- Pointers of sub-stack `k` fail their parity: their cells stay out of service (R343). -/
def State.stackLose (s : State) (k : Nat) : Nat → State
  | 0 => s
  | n + 1 =>
    State.stackLose ({ s with hrd := { s.hrd with taken := mupd (fun _ => 0) s.hrd.taken k (· + 1) } }.stackPop k (s.cells0 / 8)).1 k n

/-- A cache below 2,048 is refilled by 64 pointers, of which `bad` fail their parity and are discarded (R337, R343). -/
def State.stackRefill (s : State) (k bad : Nat) : State :=
  if s.stackCache k < 2048 then
    let n := min 64 (s.stackFree k - s.stackCache k)
    let bad := min bad n
    ((s.stackCacheSet k (s.stackCache k + n - bad)).stackLose k bad).cellsLost 0 bad
  else s

/-- A cache above 6,144 spills 64 pointers (R337). -/
def State.stackSpill (s : State) (k : Nat) : State :=
  if 6144 < s.stackCache k then s.stackCacheSet k (s.stackCache k - 64) else s

/-- The pools are built: pools 0 and 1, all cells free (R342); how many pointers each cache holds then is open (log entry 33). -/
def State.poolsBuild (s : State) : State :=
  let s := { s with hrd := { s.hrd with bufs := [], taken := [], used := [], cache := [], rot := [] } }
  let s := foldS (List.range 8) (fun k s => let (v, s) := s.draw; s.stackCacheSet k (v.toNat % 8193)) s
  (s.poolBuild 0 s.cells0).poolBuild 1 cells1

/-- A scratch pool is carved (R335, R342). -/
def State.scratchBuild (s : State) (g : Nat) : State :=
  s.poolBuild (2 + g) (if s.on (F.HRD_POOL_CFG_EN.at g) then s.rd (F.HRD_POOL_CFG_CELLS.at g) else 0)

/-! ### Scratch buffers (R336, R339, R347) -/

/-- Handle of cell `i` of pool `k`. -/
def hrdHandle (k i : Nat) : Nat := k * 2 ^ 28 + i

/-- Cells of scratch pool `k` while it is enabled. -/
def State.scrCells (s : State) (k : Nat) : Nat :=
  if 2 ≤ k ∧ k ≤ 9 ∧ s.on (F.HRD_POOL_CFG_EN.at (k - 2)) then s.rd (F.HRD_POOL_CFG_CELLS.at (k - 2)) else 0

/-- A handle names a cell of an enabled scratch pool (R336). -/
def State.handleOk (s : State) (h : Nat) : Bool := decide (h % 2 ^ 28 < s.scrCells (h / 2 ^ 28)) && decide (h < 2 ^ 32)

/-- References of a cell; 0 when it is free. -/
def State.scrRefs (s : State) (h : Nat) : Nat := (mget (fun _ => ({} : ScrCell)) s.hrd.scr h).refs

/-- The metadata of cell `c` of a pool (R339–R341): of a packet only the first cell carries its references. -/
def State.cellMeta (s : State) (k c : Nat) : Nat :=
  if k = 0 then
    match s.hrd.bufs.find? (fun x => x.2.cells.contains c) with
    | some x => metaWord 1 (if x.2.cells.headD 0 = c then x.2.refs else 1)
    | none => 0
  else if k = 1 then b2n (s.egr.any (fun x => x.2.any (fun f => f.chain.contains c))) * metaWord 2 1
  else metaWord (6 + k) (s.scrRefs (hrdHandle k c))

/-- Set them. -/
def State.scrSet (s : State) (h n : Nat) : State :=
  { s with hrd := { s.hrd with scr := mset (fun _ => {}) s.hrd.scr h { refs := n } } }

/-- The 8-byte word `w` of a scratch cell. -/
def State.cellWord (s : State) (h w : Nat) : Nat := mget (fun _ => 0) s.hrd.words (h * 32 + w)

/-- Set it. -/
def State.cellWordSet (s : State) (h w v : Nat) : State :=
  { s with hrd := { s.hrd with words := mset (fun _ => 0) s.hrd.words (h * 32 + w) (v % 2 ^ 64) } }

/-- Zero-fill a cell (R342). -/
def State.cellZero (s : State) (h : Nat) : State :=
  { s with hrd := { s.hrd with words := mclear s.hrd.words (h * 32) (h * 32 + 32) } }

/-- The `n`-th index that is not in a rising list of allocated ones, counted from `i`. -/
def nthFree : List Nat → Nat → Nat → Nat
  | [], i, n => i + n
  | a :: l, i, n => if i + n < a then i + n else nthFree l (a + 1) (n - (a - i))

/-- A free cell of pool `k`: the order of the pointer stack is open (log entry 31). -/
def State.freeCell (s : State) (k : Nat) : State × Nat :=
  let (v, s) := s.draw
  let used := (s.hrd.scr.filter (fun x => decide (x.1 / 2 ^ 28 = k))).map (fun x => x.1 % 2 ^ 28)
  (s, hrdHandle k (nthFree used 0 (v.toNat % max 1 (s.poolFree k))))

/-- Show WAITERS of a pool. -/
def State.waitShow (s : State) (k : Nat) (l : List HrdWait) : State :=
  { s with hrd := { s.hrd with wait := mset (fun _ => []) s.hrd.wait k l } }.wr (F.HRD_POOL_STATUS_WAITERS.at k) l.length

/-- Waiters of a pool. -/
def State.waitOf (s : State) (k : Nat) : List HrdWait := mget (fun _ => []) s.hrd.wait k

/-- Hoard has answered token `n` of thread `i`: its status and detail wait for the completion. -/
def State.hrdAnswer (s : State) (g i n status detail : Nat) : State :=
  match (s.thrI g i).tok n with
  | some t => s.tokSet g i n (some { t with req := .hrd (some (status * 2 ^ 52 + detail)) })
  | none => s

/-- The entry of HRD_ERR_LOG and the events of a refusal (R349). -/
def State.hrdRefuse (s : State) (g i n code k idx : Nat) : State :=
  let s := s.cnt (R.HRD_CNT.at k) (if code = 1 then 0x18 else if code = 2 then 0x20 else 0x28)
  let s := if s.hrd.logged then s else
    let s := { s with hrd := { s.hrd with logged := true } }
    ((((((s.wr F.HRD_ERR_LOG_INDEX idx).wr F.HRD_ERR_LOG_CODE code).wr F.HRD_ERR_LOG_OWNER (8 + g)).wr
      F.HRD_ERR_LOG_POOL k).wr F.HRD_ERR_LOG_ENGINE (i / 8)).wr F.HRD_ERR_LOG_THREAD (i % 8))
  let s := s.setEvt R.HRD_EVT R.HRD_EVT_EN
    (if code = 1 then F.HRD_EVT_DOUBLE_FREE else if code = 2 then F.HRD_EVT_FOREIGN_FREE else F.HRD_EVT_REFUSED) (eg 11 0)
  s.hrdAnswer g i n 5 code

/-- ALLOC by thread `i` of gallery `g` with token `n` from pool `k` (R336, R345, R347, R348). -/
def State.hrdAlloc (s : State) (g i n k : Nat) : State :=
  if s.scrCells k = 0 ∧ ¬(2 ≤ k ∧ k ≤ 9 ∧ s.on (F.HRD_POOL_CFG_EN.at (k - 2))) then s.hrdAnswer g i n 3 0
  else if k ≠ 2 + g then s.hrdRefuse g i n 6 k 0
  else if s.poolFree k = 0 then
    let up := s.tb.up
    (s.waitShow k (s.waitOf k ++ [⟨i, n, up, false⟩])).cnt (R.HRD_CNT.at k) 0x10
  else
    let (s, h) := s.freeCell k
    (((s.scrSet h 1).cellZero h).poolTake k 1).hrdAnswer g i n 0 h

/-- A free cell goes to the head waiter whose token is still outstanding, or stays free (R345). -/
def State.serveWaiter (s : State) (k : Nat) : Nat → State
  | 0 => s
  | m + 1 =>
    match s.waitOf k with
    | [] => s
    | w :: l =>
      if s.poolFree k = 0 then s else
      let s := s.waitShow k l
      let g := k - 2
      if ((s.thrI g w.thr).tok w.tok).isNone then State.serveWaiter s k m
      else
        let (s, h) := s.freeCell k
        State.serveWaiter ((((s.scrSet h 1).cellZero h).poolTake k 1).hrdAnswer g w.thr w.tok 0 h) k m

/-- Serve the waiters of a pool while it has free cells. -/
def State.serveWaiters (s : State) (k : Nat) : State := s.serveWaiter k (s.waitOf k).length

/-- FREE of a handle (R342, R347, R348). -/
def State.hrdFree (s : State) (g i n h : Nat) : State :=
  let k := h / 2 ^ 28
  if !s.handleOk h then s.hrdAnswer g i n 3 0
  else if s.scrRefs h = 0 then s.hrdRefuse g i n 1 k (h % 2 ^ 28)
  else if k ≠ 2 + g then s.hrdRefuse g i n 2 k (h % 2 ^ 28)
  else if s.scrRefs h = 1 then
    (((((s.scrSet h 0).cellZero h).poolGive k 1).hrdAnswer g i n 0 0)).serveWaiters k
  else (s.scrSet h (s.scrRefs h - 1)).hrdAnswer g i n 0 0

/-- REF of a handle (R347, R348). -/
def State.hrdRef (s : State) (g i n h : Nat) : State :=
  let k := h / 2 ^ 28
  if !s.handleOk h then s.hrdAnswer g i n 3 0
  else if s.scrRefs h = 0 then s.hrdRefuse g i n 3 k (h % 2 ^ 28)
  else if k ≠ 2 + g then s.hrdRefuse g i n 5 k (h % 2 ^ 28)
  else if s.scrRefs h = 255 then s.hrdRefuse g i n 4 k (h % 2 ^ 28)
  else (s.scrSet h (s.scrRefs h + 1)).hrdAnswer g i n 0 (s.scrRefs h + 1)

/-- A Hoard request that has its answer completes its token (R345). -/
def State.hrdComplete (s : State) (g i n : Nat) : State :=
  match (s.thrI g i).tok n with
  | some { req := .hrd (some r), discard := _, done := none } => s.tokComplete g i n (r / 2 ^ 52) (r % 2 ^ 52)
  | _ => s

/-- A waiter of pool `k` has waited STARVE_US: POOL_STARVED, once for each wait (R345). -/
def State.poolStarved (s : State) (k : Nat) : State :=
  match (s.waitOf k).find? (fun w => !w.starved) with
  | none => s
  | some w =>
    let s := s.advanceUp (w.at_ + s.rd (F.HRD_POOL_CFG_STARVE_US.at (k - 2)) * 1000)
    let mark (x : HrdWait) : HrdWait := if x = w then { x with starved := true } else x
    let s := s.waitShow k ((s.waitOf k).map mark)
    s.setEvt R.HRD_EVT R.HRD_EVT_EN F.HRD_EVT_POOL_STARVED (eg 11 0)

/-- A gallery's scratch buffers are reclaimed, zero-filled and returned; then the waiters are served (R350). -/
def State.hrdReclaim (s : State) (g : Nat) : State :=
  let k := 2 + g
  let n := (s.hrd.scr.filter (fun x => decide (x.1 / 2 ^ 28 = k))).length
  if n = 0 then s.serveWaiters k else
  let s := { s with hrd := { s.hrd with
    scr := mclear s.hrd.scr (k * 2 ^ 28) ((k + 1) * 2 ^ 28)
    words := mclear s.hrd.words (k * 2 ^ 28 * 32) ((k + 1) * 2 ^ 28 * 32) } }
  ((s.poolGive k n).cnt (R.HRD_CNT.at k) 0x38 n).serveWaiters k

end Sys2Proof.Machine
end

