-- ==== Sys2Proof/Machine/Shaper.lean ====
section
/-! DEFINITION. Shapers and meters (R383–R392, R409): buckets, refill, states, charges, the refresh at a tick, and
the sojourn marks (R408). -/

namespace Sys2Proof.Machine

/-- Units of credit per byte (R384). -/
def unitB : Int := 800000

/-- Key of an instance: TYPE and index. -/
def shpKey (t i : Nat) : Nat := t * 2 ^ 20 + i

/-- An instance. -/
def State.shpI (s : State) (k : Nat) : Shp := mget (fun _ => {}) s.shp.inst k

/-- Store an instance. -/
def State.shpPut (s : State) (k : Nat) (x : Shp) : State :=
  { s with shp := { s.shp with inst := mset (fun _ => {}) s.shp.inst k x } }

/-- Credit per tick of a rate (R384). -/
def State.perTick (s : State) (rate : Nat) : Int := ((rate * s.rd F.CAD_PERIOD_PERIOD : Nat) : Int)

/-- Ceiling of a bucket (R385). -/
def State.shpCeil (s : State) (rate burst : Nat) : Int :=
  max ((burst * 64 : Nat) * unitB) (s.perTick rate + 12352 * unitB)

/-- Bring an instance up to refill count `n` (R386, R388): what it held is kept when nothing is due. -/
def State.shpTo (s : State) (x : Shp) (n : Nat) : Shp :=
  if n ≤ x.last then x else
  let d : Int := ((n - x.last : Nat) : Int)
  { x with
    bc := min (x.bc + d * s.perTick x.cir) (s.shpCeil x.cir x.cbs)
    bp := min (x.bp + d * s.perTick x.pir) (s.shpCeil x.pir x.pbs)
    last := n }

/-- Every instance is brought up to the current tick: refills counted so far are worth the period they were counted in (R384). -/
def State.shpSettle (s : State) : State :=
  { s with shp := { s.shp with inst := s.shp.inst.map (fun (e : Nat × Shp) => (e.1, s.shpTo e.2 s.shp.refills)) } }

/-- Bring an instance up to the current tick. -/
def State.shpNow (s : State) (x : Shp) : Shp := s.shpTo x s.shp.refills

/-- The peak bucket of a shaper as R389 reads it: Bc with PIR 0, never below zero without a peak limit. -/
def Shp.peak (x : Shp) : Int := if x.pir = 0 then x.bc else if x.pir = 2 ^ 32 - 1 then max x.bp 0 else x.bp

/-- State of a shaper (R389): 0 COMMITTED, 1 EXCESS, 2 BLOCKED. -/
def Shp.state (x : Shp) : Nat := if x.peak < 0 then 2 else if x.bc < 0 then 1 else 0

/-- State of shaper `k`. -/
def State.shpState (s : State) (k : Nat) : Nat := (s.shpI k).state

/-- The shaper is below zero in a bucket, so that a tick refreshes it (R387). -/
def Shp.below (x : Shp) : Bool := decide (x.bc < 0) || decide (x.peak < 0)

/-- Note a shaper that fell below zero, in order (R387). -/
def State.shpNote (s : State) (k : Nat) : State :=
  if (s.shpI k).below && !s.shp.neg.contains k then { s with shp := { s.shp with neg := s.shp.neg ++ [k] } } else s

/-- Charge a shaper `b` bytes in state `st` (R390): both buckets in COMMITTED, the peak one alone in EXCESS. -/
def State.shpCharge (s : State) (k b : Nat) : State :=
  let x := s.shpI k
  let st := x.state
  let x := s.shpNow x
  let c : Int := (b : Int) * unitB
  let x := if st = 0 then { x with bc := x.bc - c } else x
  let x := if x.pir = 0 ∨ x.pir = 2 ^ 32 - 1 then x else { x with bp := x.bp - c }
  (s.shpPut k x).shpNote k

/-- Work of the shaper unit at a tick, `ticks` being those that count for refill (R386, R387): what the last tick left over is
reported with CAD_OVR bit 0, then 48,000 refreshes, those left over first. -/
def State.shpTick (s : State) (ticks : Nat) : State :=
  let s := s.wr F.SHP_SWEEP_BACKLOG s.shp.left
  let s := if s.shp.left = 0 then s else s.overrun 0
  let s := { s with shp := { s.shp with refills := s.shp.refills + ticks } }
  let now := s.shp.neg.take 48000
  let later := s.shp.neg.drop 48000
  let s := foldS now (fun k s => s.shpPut k (s.shpNow (s.shpI k))) s
  let still := now.filter (fun k => (s.shpI k).below)
  { s with shp := { s.shp with neg := later ++ still, left := later.length } }

/-- An instance with both buckets at their ceilings (R388). -/
def State.shpFull (s : State) (x : Shp) : Shp :=
  { x with bc := s.shpCeil x.cir x.cbs, bp := s.shpCeil x.pir x.pbs, last := s.shp.refills }

/-- Every instance is set to its ceilings (R388). -/
def State.shpInitAll (s : State) : State :=
  { s with shp := { s.shp with inst := s.shp.inst.map (fun (e : Nat × Shp) => (e.1, s.shpFull e.2)), neg := [] } }

/-! ### Meters (R391, R392) -/

/-- The refill count of the interval that contains a stamp in ns (R392). -/
def State.refillAt (s : State) (ns : Nat) : Nat := s.shp.refills - (s.tick - s.tickAt ns)

/-- Meter a packet of `len` bytes of stream `i` stamped `stamp` (2⁻¹⁶ ns) with incoming colour `c`: the new colour
(R391). -/
def State.meter (s : State) (i len stamp c : Nat) : State × Nat :=
  let k := shpKey 8 i
  let x := s.shpTo (s.shpI k) (if s.running then s.refillAt (stamp / 65536) else s.shp.refills)
  let b : Int := ((len + 4 : Nat) : Int) * unitB
  let c := if x.aware then c else 0
  if x.mode = 0 then
    if c = 2 ∨ x.bp < b then (s.shpPut k x, 2)
    else if c = 1 ∨ x.bc < b then (s.shpPut k { x with bp := x.bp - b }, 1)
    else (s.shpPut k { x with bp := x.bp - b, bc := x.bc - b }, 0)
  else
    if c = 0 ∧ b ≤ x.bc then (s.shpPut k { x with bc := x.bc - b }, 0)
    else if c ≠ 2 ∧ b ≤ x.bp then (s.shpPut k { x with bp := x.bp - b }, 1)
    else (s.shpPut k x, 2)

/-! ### Sojourn marks (R408) -/

/-- Move to the window that holds tick `n`: windows of SHP_SOJ_CFG.WINDOW ticks, a new length from the next boundary. -/
def State.sojTick (s : State) (n : Nat) : State :=
  if s.soj.start + s.soj.len ≤ n then
    let w := max 1 (s.rd F.SHP_SOJ_CFG_WINDOW)
    { s with soj := { s.soj with
        last := if s.soj.start + s.soj.len = n / w * w then some s.soj.win else none, win := n / w, start := n / w * w, len := w } }
  else s

/-- A mark as it stands in the current window. -/
def State.sojMark (s : State) (k : Nat) : Soj :=
  let m := mget (fun _ => ({} : Soj)) s.soj.marks k
  if m.win = s.soj.win then m
  else { win := s.soj.win, cur := 0, prev := if s.soj.last = some m.win then m.cur else 0 }

/-- Record a sojourn of `t16` (2⁻¹⁶ ns), in 1/32 ns, saturating, in the window of the instant now (R70); none while Cadence is
stopped. -/
def State.sojNote (s : State) (k t16 : Nat) : State :=
  if !s.running then s else
  let s := s.sojTick (s.tickAt s.ns)
  let m := s.sojMark k
  let m : Soj := { m with cur := max m.cur (min (t16 / 2048) (2 ^ 32 - 1)) }
  { s with soj := { s.soj with marks := mset (fun _ => {}) s.soj.marks k m } }

/-- A write of SHP_SOJ_SEL copies the marks (R408). -/
def State.sojSel (s : State) (egress : Bool) (i : Nat) : State :=
  let s := if s.running then s.sojTick (s.tickAt s.ns) else s
  let m := s.sojMark (if egress then 2 ^ 18 + i else i)
  (((s.wrr (R.SHP_SOJ_DATA.at 0) m.cur).wrr (R.SHP_SOJ_DATA.at 1) m.prev).wrr (R.SHP_SOJ_DATA.at 2) (s.soj.win % 2 ^ 32)).wrr
    (R.SHP_SOJ_DATA.at 3) (s.soj.win / 2 ^ 32)

end Sys2Proof.Machine
end

