-- ==== Sys2Proof/Machine/Sched.lean ====
section
/-! DEFINITION. Queues and the scheduling hierarchy (R363–R377, R380–R382): entries, eligibility, the sixteen levels, WFQ and
DRR, selection, and the QUE, SCH and SHP commands. -/

namespace Sys2Proof.Machine

/-! ### Entries (R363, R380, R381) -/

/-- Key of entry `i` of level `l`. -/
def sk (l i : Nat) : Nat := l * 2 ^ 18 + i

/-- An entry. -/
def State.sent (s : State) (l i : Nat) : SEnt := mget (fun _ => {}) s.sq.ents (sk l i)

/-- Update an entry. -/
def State.sentUpd (s : State) (l i : Nat) (f : SEnt → SEnt) : State :=
  { s with sq := { s.sq with ents := mupd (fun _ => {}) s.sq.ents (sk l i) f } }

/-- Entries of a level (R363). -/
def schCount (l : Nat) : Nat :=
  match l with | 0 => 262144 | 1 => 65536 | 2 => 16384 | 3 => 4096 | 4 => 2048 | 5 => 512 | 6 => 64 | _ => 0

/-- EN. -/
def SEnt.en (e : SEnt) : Bool := bitN e.w0 31
/-- SUSPEND. -/
def SEnt.susp (e : SEnt) : Bool := bitN e.w0 30
/-- BAND. -/
def SEnt.band (e : SEnt) (l : Nat) : Nat := if l = 0 then bits e.w0 24 22 else bits e.w0 29 27
/-- SHP_EN. -/
def SEnt.shpEn (e : SEnt) (l : Nat) : Bool := if l = 0 then bitN e.w0 29 else bitN e.w0 26
/-- PARENT. -/
def SEnt.parent (e : SEnt) : Nat := bits e.w0 15 0
/-- WEIGHT; 0 acts as 1. -/
def SEnt.weight (e : SEnt) : Nat := max 1 (bits e.w1 31 16)
/-- ADM_PROF of a queue. -/
def SEnt.admProf (e : SEnt) : Nat := bits e.w0 28 25
/-- L5 TARGET. -/
def SEnt.target (e : SEnt) : Nat := bits e.w2 8 0
/-- L6 DEST. -/
def SEnt.dest (e : SEnt) : Nat := bits e.w2 10 0
/-- L6 LEN_ADJ, signed. -/
def SEnt.lenAdj (e : SEnt) : Int := sx 8 (bits e.w2 31 24)

/-- Key of the shaper that applies to an entry. -/
def SEnt.shaper (e : SEnt) (l i : Nat) : Nat := if l = 0 then shpKey 0 (bits e.w2 16 0) else shpKey l i

/-- Shaper state of an entry: COMMITTED without a shaper (R366). -/
def State.entShp (s : State) (l i : Nat) : Nat :=
  let e := s.sent l i
  if e.shpEn l then s.shpState (e.shaper l i) else 0

/-- Standalone topology (R33). -/
def State.standalone (s : State) : Bool := s.on F.SCH_TOPO_STANDALONE

/-- Packets of queue `q`, head first. -/
def State.queueOf (s : State) (q : Nat) : List QPkt := mget (fun _ => []) s.sq.q q

/-- Replace a queue. -/
def State.queuePut (s : State) (q : Nat) (l : List QPkt) : State :=
  { s with sq := { s.sq with q := mset (fun _ => []) s.sq.q q l } }

/-- Enabled entries of level `l`. -/
def State.schOf (s : State) (l : Nat) : List Nat :=
  (s.sq.ents.filter (fun x => decide (x.1 / 2 ^ 18 = l) && x.2.en)).map (fun x => x.1 % 2 ^ 18)

/-- Enabled children of node `i` of level `l`. -/
def State.childrenOf (s : State) (l i : Nat) : List Nat := (s.schOf (l - 1)).filter (fun c => (s.sent (l - 1) c).parent == i)

/-- The ancestor of an entry at level `m`, climbing from level `l`. -/
def State.climb (s : State) : Nat → Nat → Nat → Nat
  | 0, _, i => i
  | n + 1, l, i => State.climb s n (l + 1) (s.sent l i).parent

/-- L5 node of queue `q`. -/
def State.l5Of (s : State) (q : Nat) : Nat := s.climb 5 0 q

/-- Outlet above entry `i` of level `l`. -/
def State.outletOf (s : State) (l i : Nat) : Nat := s.climb (6 - l) l i

/-- The length L of every discipline for a packet under an outlet (R368). -/
def State.schLen (s : State) (out len : Nat) : Nat := (max 1 ((len : Int) + 4 + (s.sent 6 out).lenAdj)).toNat

/-! ### Egress credit (R366, R421) -/

/-- A VOQ group. -/
def State.voqI (s : State) (n : Nat) : Voq := mget (fun _ => {}) s.sq.voq n

/-- Update a VOQ group. -/
def State.voqUpd (s : State) (n : Nat) (f : Voq → Voq) : State := { s with sq := { s.sq with voq := mupd (fun _ => {}) s.sq.voq n f } }

/-- Port credit balance, GRANTED − USED modulo 2³². -/
def Voq.balance (v : Voq) : Nat := (v.granted + 2 ^ 32 - v.used) % 2 ^ 32

/-- Destination credit balance of outlet `o` (R421). -/
def State.destCredit (s : State) (o : Nat) : Int :=
  let sent := mget (fun _ => 0) s.sq.sent o
  let ret := mget (fun _ => 0) s.sq.returned o
  (s.rd (F.FAB_DEST_WIN.at o) : Int) - (((sent + 2 ^ 32 - ret) % 2 ^ 32 : Nat) : Int)

/-- Egress credit held for an entry: at least 49 cells (R421, R432). -/
def State.holdsCredit (s : State) (l i : Nat) : Bool :=
  if l = 5 then decide (49 ≤ (s.voqI i).balance)
  else if l = 6 then s.standalone || decide (49 ≤ s.destCredit i)
  else true

/-- Cells queued under an L5 node. -/
def State.cellsUnder (s : State) (n : Nat) : Nat :=
  s.sq.q.foldl (fun a x => if s.l5Of x.1 = n then x.2.foldl (fun a p => a + p.cells) a else a) 0

/-- BACKLOG of a VOQ group (R420): cells queued less credit held. -/
def State.voqBacklog (s : State) (n : Nat) : Nat := s.cellsUnder n - (s.voqI n).balance

/-! ### Eligibility and levels (R366, R367, R370, R371) -/

/-- Backlogged: a queue holds a packet, a node has an eligible child. -/
def State.backlogged (s : State) (l i : Nat) : Bool :=
  if l = 0 then !(s.queueOf i).isEmpty else (s.sent l i).lv.any (fun x => !x.2.mem.isEmpty)

/-- Eligible at its parent (R366). -/
def State.eligible (s : State) (l i : Nat) : Bool :=
  let e := s.sent l i
  e.en && !e.susp && s.backlogged l i && decide (s.entShp l i ≠ 2) && s.holdsCredit l i

/-- The level of R367 an entry belongs to at its parent: COMMITTED bands 0–7, then EXCESS bands 0–7. -/
def State.levelOf (s : State) (l i : Nat) : Option Nat :=
  if s.eligible l i then some (8 * s.entShp l i + (s.sent l i).band l) else none

/-- `a` is not before `b` in 48-bit tags (R370). -/
def notBefore (a b : Nat) : Bool := decide ((a + 2 ^ 48 - b % 2 ^ 48) % 2 ^ 48 < 2 ^ 47)

/-- The later of two tags. -/
def tagMax (a b : Nat) : Nat := if notBefore a b then a else b

/-- Finish-tag increment of a head packet (R370). -/
def schDelta (len w : Nat) : Nat := len * 65536 / w

/-- The child of a WFQ level with the smallest tag, ties to the lowest index. -/
def State.wfqPick (s : State) (l : Nat) (mem : List Nat) : Option Nat :=
  mem.foldl (fun best c => match best with
    | none => some c
    | some b =>
      let fb := (s.sent l b).f
      let fc := (s.sent l c).f
      if fb = fc then some (min b c) else if notBefore fc fb then some b else some c) none

/-- The first non-empty level of a node. -/
def SEnt.first (e : SEnt) : Option (Nat × SLevel) := e.lv.find? (fun x => !x.2.mem.isEmpty)

/-- Store a level of a node. -/
def State.putLevel (s : State) (l i lev : Nat) (x : SLevel) : State :=
  s.sentUpd l i (fun e => { e with lv := mset (fun _ => {}) e.lv lev x })

/-- Length of the head packet of queue `q`, under outlet `out`. -/
def State.headLen (s : State) (q out : Nat) : Nat :=
  match s.queueOf q with | [] => 1 | x :: _ => s.schLen out x.p.bytes.length

/-- Service of a DRR level: the front child takes its quantum at the start of its turn and is served while its head fits;
otherwise its turn ends and it moves to the tail (R371). `desc` descends into a child; `n` bounds the turns. -/
def State.drrServe (desc : State → Nat → Option (State × List Nat)) (l i lev out : Nat) :
    Nat → State → Option (State × List Nat)
  | 0, _ => none
  | n + 1, s =>
    let x := mget (fun _ => ({} : SLevel)) (s.sent l i).lv lev
    match x.mem with
    | [] => none
    | c :: rest =>
      let s := if x.turn then s else
        (s.sentUpd (l - 1) c (fun e => { e with d := (e.d + e.weight * 64) % 2 ^ 32 })).putLevel l i lev { x with turn := true }
      match desc s c with
      | none => none
      | some (s2, path) =>
        let len := s2.headLen (path.getLastD c) out
        if len ≤ (s2.sent (l - 1) c).d then
          some (s2.sentUpd (l - 1) c (fun e => { e with d := e.d - len }), c :: path)
        else State.drrServe desc l i lev out n (s.putLevel l i lev { x with mem := rest ++ [c], turn := false })

/-- Descend from node `i` of level `l` to a queue (R367, R372): the state with the tags, times and deficits of the selection,
and the path of children, first below the node. -/
def descend (out : Nat) : Nat → State → Nat → Option (State × List Nat)
  | 0, s, i => if (s.queueOf i).isEmpty then none else some (s, [])
  | l + 1, s, i =>
    match (s.sent (l + 1) i).first with
    | none => none
    | some (lev, x) =>
      if (s.sent (l + 1) i).disc = 2 then
        State.drrServe (fun s c => descend out l s c) (l + 1) i lev out (x.mem.length * 200 + 200) s
      else match s.wfqPick l x.mem with
        | none => none
        | some c =>
          match descend out l s c with
          | none => none
          | some (s, path) =>
            let f := (s.sent l c).f
            let y := mget (fun _ => ({} : SLevel)) (s.sent (l + 1) i).lv lev
            some ((s.putLevel (l + 1) i lev { y with v := f }).sentUpd l c (fun e => { e with flast := f }), c :: path)

/-- L of the packet selected beneath an entry (R370). -/
def State.lenBeneath (s : State) (l i : Nat) : Nat :=
  let out := s.outletOf l i
  match descend out l s i with
  | some (s2, path) => s2.headLen (path.getLastD i) out
  | none => 1

/-- A child leaves its level; one that is no longer backlogged loses its deficit (R371). -/
def State.schLeave (s : State) (l i : Nat) : State :=
  let e := s.sent l i
  match e.lev with
  | none => s
  | some lev =>
    let p := e.parent
    let x := mget (fun _ => ({} : SLevel)) (s.sent (l + 1) p).lv lev
    let front := decide (x.mem.head? = some i)
    let s := s.putLevel (l + 1) p lev { x with mem := x.mem.filter (· ≠ i), turn := x.turn && !front }
    let keep := s.backlogged l i
    s.sentUpd l i (fun e => { e with lev := none, d := if keep then e.d else 0 })

/-- A child joins a level as newly eligible (R370, R371). -/
def State.schJoin (s : State) (l i lev : Nat) : State :=
  let e := s.sent l i
  let x := mget (fun _ => ({} : SLevel)) (s.sent (l + 1) e.parent).lv lev
  let f := (tagMax x.v e.flast + schDelta (s.lenBeneath l i) e.weight) % 2 ^ 48
  (s.putLevel (l + 1) e.parent lev { x with mem := x.mem ++ [i] }).sentUpd l i (fun e => { e with lev := some lev, f := f })

/-- Bring an entry's level up to date, and its ancestors' where it changes; `n` is the number of levels above it. -/
def State.schSync (s : State) : Nat → Nat → Nat → State
  | 0, _, _ => s
  | n + 1, l, i =>
    let e := s.sent l i
    let new := s.levelOf l i
    if new = e.lev then s
    else
      let s := s.schLeave l i
      let s := match new with | some lev => s.schJoin l i lev | none => s
      State.schSync s n (l + 1) e.parent

/-- Bring entry `i` of level `l` up to date. -/
def State.schUpdate (s : State) (l i : Nat) : State := s.schSync (6 - l) l i

/-- After a service, an entry still in its level takes its next finish tag; one that left it or changed it moves
(R370). -/
def State.schServed (s : State) (l i : Nat) : State :=
  let e := s.sent l i
  let new := s.levelOf l i
  if new = e.lev ∧ new.isSome then
    if (s.sent (l + 1) e.parent).disc = 2 then s
    else
      let d := schDelta (s.lenBeneath l i) e.weight
      s.sentUpd l i (fun e => { e with f := (e.flast + d) % 2 ^ 48 })
  else
    let s := s.schLeave l i
    match new with | some lev => s.schJoin l i lev | none => s

/-- Entries that shaper `k` applies to. -/
def State.shaperUsers (s : State) (k : Nat) : List (Nat × Nat) :=
  if k < 2 ^ 20 then
    ((s.schOf 0).filter (fun q => (s.sent 0 q).shpEn 0 && (s.sent 0 q).shaper 0 q == k)).map (fun q => (0, q))
  else if k / 2 ^ 20 ≤ 6 then [(k / 2 ^ 20, k % 2 ^ 20)] else []

/-- After shaper `k` has changed, every entry it applies to is brought up to date. -/
def State.shaperSync (s : State) (k : Nat) : State := foldS (s.shaperUsers k) (fun x s => s.schUpdate x.1 x.2) s

/-! ### Selection (R372) -/

/-- Outlets in rotation, starting after the one served last. -/
def State.outlets (s : State) : List Nat :=
  let l := s.schOf 6
  l.filter (fun o => decide (s.sq.lastOut < o)) ++ l.filter (fun o => decide (o ≤ s.sq.lastOut))

/-- Add to an entry's counters: `c` 0 for departures, 2 for drops; packets and LEN + 4 bytes (R380, R381). -/
def State.schCnt (s : State) (l i c len : Nat) : State :=
  let sat (n k : Nat) : Nat := min (n + k) (2 ^ 64 - 1)
  s.sentUpd l i (fun e => { e with cnt := (e.cnt.set c (sat (e.cnt.getD c 0) 1)).set (c + 1) (sat (e.cnt.getD (c + 1) 0) (len + 4)) })

/-- Entries of a selection's path, queue first: (level, index). -/
def pathEnts (o : Nat) (path : List Nat) : List (Nat × Nat) :=
  ((o :: path).reverse.foldl (fun (a : List (Nat × Nat) × Nat) i => (a.1 ++ [(a.2, i)], a.2 + 1)) ([], 0)).1

/-- Cells queued under a VOQ group, or its credit, have changed (R422, R425): since when nothing is queued; once its BACKLOG is zero the
next rise asks anew, at once. -/
def State.voqTouch (s : State) (n : Nat) : State :=
  let up := s.tb.up
  let none_ := decide (s.cellsUnder n = 0)
  let zero := decide (s.voqBacklog n = 0)
  s.voqUpd n (fun v =>
    let v := { v with idleAt := if none_ then some (v.idleAt.getD up) else none }
    if zero then { v with asked := 0, askedAt := none } else v)

/-- Take the head packet of the queue at the end of a path: shapers charged, credit charged, counters, sojourn; the packet
(R372, R390, R408, R421). -/
def State.serve1 (s : State) (o : Nat) (path : List Nat) : State × Option (Nat × QPkt) :=
  let ents := pathEnts o path
  let q := path.getLastD 0
  match s.queueOf q with
  | [] => (s, none)
  | x :: rest =>
    let len := s.schLen o x.p.bytes.length
    let s := s.queuePut q rest
    let shps := ents.filterMap (fun e => if (s.sent e.1 e.2).shpEn e.1 then some ((s.sent e.1 e.2).shaper e.1 e.2) else none)
    let s := foldS shps (fun k s => s.shpCharge k len) s
    let s := foldS ents (fun e s => s.schCnt e.1 e.2 0 x.p.bytes.length) s
    let n5 := s.l5Of q
    let s := s.voqUpd n5 (fun v => { v with used := (v.used + x.cells) % 2 ^ 32 })
    let s := if s.standalone then s else
      { s with sq := { s.sq with sent := mupd (fun _ => 0) s.sq.sent o (fun n => (n + x.cells) % 2 ^ 32) } }
    let s := s.voqTouch n5
    let s := s.sojNote q (s.t16 - x.p.stamp)
    let s := foldS (ents.filter (fun e => decide (e.1 < 6))) (fun e s => s.schServed e.1 e.2) s
    let s := foldS shps (fun k s => s.shaperSync k) s
    ({ s with sq := { s.sq with lastOut := o } }, some (q, x))

/-- The hierarchy selects one packet (R372): the first eligible outlet in rotation, down to a queue. -/
def State.select (s : State) : State × Option (Nat × QPkt) :=
  match s.outlets.find? (fun o => s.eligible 6 o && (descend o 6 s o).isSome) with
  | none => (s, none)
  | some o => match descend o 6 s o with
    | none => (s, none)
    | some (s, path) => s.serve1 o path

/-- A packet enters its queue (R360). -/
def State.enqueue (s : State) (q : Nat) (x : QPkt) : State :=
  let s := (s.queuePut q (s.queueOf q ++ [x])).voqTouch (s.l5Of q)
  s.schUpdate 0 q

/-! ### Discipline (R369) -/

/-- Discipline of a number of children. -/
def discOf (n : Nat) : Nat := if n = 0 then 0 else if n ≤ 32 then 1 else 2

/-- Every node takes its discipline from its children, at the end of ASCENT step 5. -/
def State.schDiscs (s : State) : State :=
  foldS [1, 2, 3, 4, 5, 6] (fun l s => foldS (s.schOf l) (fun i s =>
    let n := (s.childrenOf l i).length
    s.sentUpd l i (fun e => { e with disc := discOf n })) s) s

/-- The configuration image is loaded: its tree is checked as a whole, and disciplines wait for the end of step 5 (R369, R379). -/
def State.schLoading (s : State) : Bool := s.inMode mASCENT && decide (s.rd F.MOD_STATUS_STEP ≤ 5)

/-- A node in NONE takes WFQ with its first child. -/
def State.schAttach (s : State) (l i : Nat) : State :=
  if s.schLoading then s else s.sentUpd l i (fun e => if e.disc = 0 then { e with disc := 1 } else e)

/-! ### QUE and SCH commands (R376, R380–R382) -/

/-- Data words of the block: QUE for level 0. -/
def State.schW (s : State) (l i : Nat) : Nat := s.rdr (if l = 0 then R.QUE_IND_DATA.at i else R.SCH_IND_DATA.at i)

/-- Show eight words. -/
def State.schShow (s : State) (l : Nat) (ws : List Nat) : State :=
  foldS (List.range 8) (fun i s => s.wrr (if l = 0 then R.QUE_IND_DATA.at i else R.SCH_IND_DATA.at i) (ws.getD i 0)) s

/-- Completion of a QUE or SCH command (R382, R519). -/
def State.schDone (s : State) (que : Bool) (err : Nat) : State :=
  if que then
    ((((s.wr F.QUE_IND_CMD_OP 0).wr F.QUE_IND_STATUS_ERR err).wr F.QUE_IND_STATUS_BUSY 0)).wr F.QUE_IND_STATUS_DONE 1
  else
    ((((s.wr F.SCH_IND_CMD_OP 0).wr F.SCH_IND_STATUS_ERR err).wr F.SCH_IND_STATUS_BUSY 0)).wr F.SCH_IND_STATUS_DONE 1

/-- The writable bits of words 0–2 of an entry; the others read zero. -/
def schClean (l : Nat) (w0 w1 w2 : Nat) : Nat × Nat × Nat :=
  (if l = 0 then w0 - bits w0 21 16 * 2 ^ 16 else w0 - bits w0 25 16 * 2 ^ 16, bits w1 31 16 * 2 ^ 16,
    if l = 0 then bits w2 16 0 else if l = 5 then bits w2 8 0 else if l = 6 then bits w2 31 24 * 2 ^ 24 + bits w2 10 0 else 0)

/-- No other enabled entry under the same outlet (or, standalone, of the device) names the TARGET, and no other outlet the
DEST (R374, R375). -/
def State.schUnique (s : State) (l i : Nat) (e : SEnt) : Bool :=
  if l = 5 then
    !(s.schOf 5).any (fun j => j != i && (s.sent 5 j).target == e.target && (s.standalone || (s.sent 5 j).parent == e.parent))
  else if l = 6 then s.standalone || !(s.schOf 6).any (fun j => j != i && (s.sent 6 j).dest == e.dest)
  else true

/-- What refuses a WRITE (R364, R369, R374–R376, R381): 0 nothing. -/
def State.schRefuse (s : State) (l i : Nat) (new : SEnt) : Nat :=
  let old := s.sent l i
  let moves := decide (l < 6) && (old.parent != new.parent || old.band l != new.band l)
  if l = 6 ∧ 64 < new.lenAdj.natAbs then 7
  else if new.en && !s.schLoading && !s.schUnique l i new then 7
  else if moves && !old.susp && !s.schLoading then 2
  else if old.en && !new.en && l = 0 && !(s.queueOf i).isEmpty then 5
  else if old.en && !new.en && decide (0 < l) && !(s.childrenOf l i).isEmpty then 6
  else if new.en && !s.schLoading && decide (l < 6) && (decide (schCount (l + 1) ≤ new.parent) || !(s.sent (l + 1) new.parent).en) then 3
  else if new.en && decide (l < 6) && (!old.en || old.parent != new.parent)
      && (s.sent (l + 1) new.parent).disc == 1 && decide (32 ≤ (s.childrenOf (l + 1) new.parent).length) then 4
  else 0

/-- A WRITE: every writable field in one cycle (R376). An entry that stays in its level keeps its tag, deficit and place: a new weight
applies at the next tag or turn (R373). -/
def State.schWrite (s : State) (l i : Nat) : State :=
  let (w0, w1, w2) := schClean l (s.schW l 0) (s.schW l 1) (s.schW l 2)
  let old := s.sent l i
  let new : SEnt := { old with w0 := w0, w1 := w1, w2 := w2 }
  match s.schRefuse l i new with
  | 0 =>
    let s := if l < 6 ∧ old.parent ≠ new.parent then (s.schLeave l i).schUpdate (l + 1) old.parent else s
    let s := s.sentUpd l i (fun e => { e with w0 := w0, w1 := w1, w2 := w2 })
    let s := if l < 6 ∧ new.en then s.schAttach (l + 1) new.parent else s
    (s.schUpdate l i).schDone (l == 0) 0
  | e => s.schDone (l == 0) e

/-- Word 7 of an entry. -/
def State.schWord7 (s : State) (l i : Nat) : Nat :=
  b2n (s.backlogged l i) * 2 ^ 31 + b2n (s.eligible l i) * 2 ^ 30 + s.entShp l i * 2 ^ 28

/-- SCHED of an entry: F under a WFQ parent, D under a DRR one. -/
def State.schSched (s : State) (l i : Nat) : Nat :=
  let e := s.sent l i
  if (s.sent (l + 1) e.parent).disc = 2 then e.d else e.f % 2 ^ 32

/-- The eight words of an entry (R380, R381). -/
def State.schWords (s : State) (l i : Nat) : List Nat :=
  let e := s.sent l i
  if l = 0 then
    [e.w0, e.w1, e.w2, 0, (s.queueOf i).foldl (fun n p => n + p.cells) 0, min (s.queueOf i).length (2 ^ 24 - 1),
      s.schSched l i, s.schWord7 l i]
  else
    [e.w0, e.w1, e.w2, 0, e.disc * 2 ^ 30 + (s.childrenOf l i).length,
      e.lv.foldl (fun n x => if x.2.mem.isEmpty then n else n + 2 ^ x.1) 0, s.schSched l i, s.schWord7 l i]

/-- READ_CNT (R380, R381); with COR the counters clear (R436). -/
def State.schReadCnt (s : State) (l i : Nat) : State :=
  let e := s.sent l i
  let c := if l = 0 then e.cnt else e.cnt.take 2
  let s := s.schShow l (c.flatMap (fun n => [n % 2 ^ 32, n / 2 ^ 32]))
  let s := if s.on F.SVY_CNT_CFG_COR then s.sentUpd l i (fun e => { e with cnt := [0, 0, 0, 0] }) else s
  s.schDone (l == 0) 0

/-- BUSY of the block. -/
def State.schBusy (s : State) (que : Bool) : Bool := s.on (if que then F.QUE_IND_STATUS_BUSY else F.SCH_IND_STATUS_BUSY)

/-- A command while BUSY is ignored (R382). -/
def State.schIgnored (s : State) (que : Bool) : State :=
  s.wr (if que then F.QUE_IND_STATUS_WR_IGNORED else F.SCH_IND_STATUS_WR_IGNORED) 1

/-- FLUSH of a suspended queue starts (R376). -/
def State.queFlush (s : State) (q : Nat) : State :=
  if !(s.sent 0 q).susp then s.schDone true 2
  else ({ s with sq := { s.sq with flush := some q } }).wr F.QUE_IND_STATUS_BUSY 1

/-- REBUILD of a suspended node (R369): BUSY until it ends. -/
def State.schRebuild (s : State) (l i : Nat) : State :=
  if !(s.sent l i).susp then s.schDone false 2
  else ({ s with sq := { s.sq with rebuild := some (sk l i) } }).wr F.SCH_IND_STATUS_BUSY 1

/-- REBUILD ends: DISC from the children now, no fair state; the children rejoin as newly eligible (R369). -/
def State.rebuilt (s : State) : State :=
  match s.sq.rebuild with
  | none => s
  | some k =>
    let l := k / 2 ^ 18
    let i := k % 2 ^ 18
    let kids := s.childrenOf l i
    let s := { s with sq := { s.sq with rebuild := none } }
    let s := foldS kids (fun c s => s.sentUpd (l - 1) c (fun e => { e with lev := none, f := 0, flast := 0, d := 0 })) s
    let s := s.sentUpd l i (fun e => { e with lv := [], disc := discOf kids.length })
    (foldS kids (fun c s => s.schUpdate (l - 1) c) s).schDone false 0

/-- A QUE (level 0) or SCH command: 1 WRITE, 2 READ, 3 FLUSH or REBUILD, 4 READ_CNT (R380–R382). -/
def State.schCmd (s : State) (que : Bool) (op l i : Nat) : State :=
  if s.schBusy que then s.schIgnored que
  else if schCount l ≤ i ∨ (!que ∧ l = 0) then s.schDone que 1
  else match op with
    | 1 => s.schWrite l i
    | 2 => (s.schShow l (s.schWords l i)).schDone que 0
    | 3 => if que then s.queFlush i else s.schRebuild l i
    | 4 => s.schReadCnt l i
    | _ => s.schDone que 7

/-! ### SHP commands (R388, R409, R412) -/

/-- Word `i` of SHP_IND_DATA. -/
def State.shpW (s : State) (i : Nat) : Nat := s.rdr (R.SHP_IND_DATA.at i)

/-- Completion of an SHP command. -/
def State.shpDone (s : State) (err : Nat) : State :=
  ((s.wr F.SHP_IND_CMD_OP 0).wr F.SHP_IND_STATUS_ERR err).wr F.SHP_IND_STATUS_DONE 1

/-- INDEX is in range for TYPE (R383, R412). -/
def shpIndexOk (t i : Nat) : Bool :=
  match t with
  | 0 => decide (i < 131072)
  | 1 => decide (i < 65536)
  | 2 => decide (i < 16384)
  | 3 => decide (i < 4096)
  | 4 => decide (i < 2048)
  | 5 => decide (i < 512)
  | 6 => decide (i < 64)
  | 7 => decide (i < 3200) && (decide (i / 8 < 146) || decide (256 ≤ i / 8))
  | 8 => decide (i < 65536)
  | _ => false

/-- The arguments of a WRITE break R389, R391 or R409. -/
def shpBad (t cir pir adj mode : Nat) : Bool :=
  if t = 8 then decide (2 ≤ mode) || (decide (mode = 0) && decide (pir < cir)) || decide (adj ≠ 0)
  else (decide (pir ≠ 0) && decide (pir < cir))
    || (if t = 7 then decide (64 < (sx 8 adj).natAbs) else decide (adj ≠ 0)) || decide (mode ≠ 0)

/-- STATE of word 3: a shaper's state, or a meter's (R391): 0 while Bc holds the largest charge, 1 while only the second
bucket does, 2 otherwise. -/
def Shp.shown (t : Nat) (x : Shp) : Nat :=
  if t = 8 then (if 12352 * unitB ≤ x.bc then 0 else if 12352 * unitB ≤ x.bp then 1 else 2) else x.state

/-- The eight words of an entry (R409). -/
def State.shpWords (s : State) (t : Nat) (x : Shp) : List Nat :=
  [x.cir, x.pir, x.cbs * 2 ^ 8 + x.adj,
    x.pbs * 2 ^ 8 + x.shown t * 2 ^ 6 + b2n x.aware * 2 ^ 3 + x.mode * 2 + b2n x.en,
    tc 64 x.bc % 2 ^ 32, tc 64 x.bc / 2 ^ 32, ((s.shpCeil x.cir x.cbs) / unitB).toNat % 2 ^ 32, tc 32 (x.peak / unitB)]

/-- An SHP command: 1 WRITE, 2 READ, 3 INIT (R388, R409); what the shaper applies to follows its state (R372). -/
def State.shpCmd (s : State) (op t i : Nat) : State :=
  if s.on F.SHP_IND_STATUS_BUSY then s.wr F.SHP_IND_STATUS_WR_IGNORED 1 else
  if !shpIndexOk t i then s.shpDone 1 else
  let k := shpKey t i
  let x := s.shpNow (s.shpI k)
  match op with
  | 1 =>
    let w2 := s.shpW 2
    let w3 := s.shpW 3
    let mode := bits w3 2 1
    if shpBad t (s.shpW 0) (s.shpW 1) (bits w2 7 0) mode then s.shpDone 2 else
    (((s.shpPut k { x with
      cir := s.shpW 0, pir := s.shpW 1, cbs := bits w2 31 8, adj := bits w2 7 0, pbs := bits w3 31 8
      aware := decide (t = 8) && bitN w3 3, mode := if t = 8 then mode else 0, en := decide (t = 7) && bitN w3 0 }).shpNote k).shaperSync k).shpDone 0
  | 2 =>
    let s := (s.shpPut k x).shaperSync k
    (foldS (List.range 8) (fun j s => s.wrr (R.SHP_IND_DATA.at j) ((s.shpWords t x).getD j 0)) s).shpDone 0
  | 3 => ((s.shpPut k (s.shpFull x)).shaperSync k).shpDone 0
  | _ => s.shpDone 2

end Sys2Proof.Machine
end

