-- ==== Sys2Proof/Machine/Streams.lean ====
section
/-! DEFINITION. Stream contexts (R401–R407, R411): filter, gate, sequence recovery, meter, and the GAT commands on them. -/

namespace Sys2Proof.Machine

/-- A context. -/
def State.stmI (s : State) (i : Nat) : Stm := mget (fun _ => {}) s.stm i

/-- Store a context. -/
def State.stmPut (s : State) (i : Nat) (x : Stm) : State := { s with stm := mset (fun _ => {}) s.stm i x }

/-- Add to counter `c` of a context: 0 PASSED … 10 METER_YELLOW_DROP (R411). -/
def Stm.count (x : Stm) (c : Nat) (n : Nat := 1) : Stm := { x with cnt := x.cnt.set c (min (x.cnt.getD c 0 + n) (2 ^ 64 - 1)) }

/-- Bit `i` of word 0 of a context. -/
def Stm.bit (x : Stm) (i : Nat) : Bool := bitN x.w0 i

/-- Outcome of a function of the stream unit. -/
inductive StmOut where
  | pass | drop
  deriving DecidableEq, Repr

/-- The filter (R402). -/
def Stm.filter (x : Stm) (len : Nat) : Stm × StmOut × Bool :=
  if x.oversize then (x.count 1, .drop, false)
  else
    let m := bits x.w0 13 0
    if m ≠ 0 ∧ m < len then
      if x.bit 27 then ({ x.count 1 with oversize := true }, .drop, true) else (x.count 1, .drop, false)
    else (x, .pass, false)

/-- Number of one bits among the low `n` bits. -/
def onesIn (v : Nat) : Nat → Nat
  | 0 => 0
  | n + 1 => v % 2 + onesIn (v / 2) n

/-- Vector recovery of R404: the context and whether the packet passes. -/
def Stm.recover (x : Stm) (seq : Nat) : Stm × Bool :=
  let h := bits x.w1 21 12 + 1
  if x.takeAny then ({ x with recSeq := seq, hist := 1, takeAny := false }, true)
  else
    let d := sx 16 ((seq + 65536 - x.recSeq) % 65536)
    if (h : Int) ≤ d ∨ d ≤ -(h : Int) then (x.count 4, false)
    else if d ≤ 0 then
      let i := (-d).toNat
      if bitN x.hist i then (x.count 3, false)
      else ({ x.count 5 with hist := setBit x.hist i }, true)
    else
      let n := d.toNat
      let x := if n = 1 then x else x.count 5
      let lost := n - onesIn (x.hist / 2 ^ (h - n)) n
      ({ x.count 6 lost with hist := (x.hist * 2 ^ n + 1) % 2 ^ h, recSeq := seq }, true)

/-- Sequence recovery of a packet, with its reset and the packets without a tag (R404, R405). -/
def Stm.recovery (x : Stm) (p : Pkt) : Stm × Bool :=
  let cns := compact p.stamp
  let ms := bits x.w1 10 0
  match firstHdr p.hdrs kRTAG with
  | none =>
    let x := x.count 7
    (x, x.bit 23)
  | some h =>
    let idle := decide (ms ≠ 0) && !x.takeAny && decide (ms * 32000000 ≤ compactDiff cns x.lastPass)
    let x := if idle then { x.count 8 with takeAny := true } else x
    let (x, ok) := x.recover (beN p.bytes (h.off + 2) 2)
    (if ok then { x with lastPass := cns } else x, ok)

/-- The stream unit latches a state (R402, R403, R406). -/
def State.stmLatch (s : State) (b : Bool) : State := if b then s.gatEvt F.GAT_EVT_STREAM_LATCH else s

/-- The gate of a context (R403): the context, the packet with its class, whether it passes and whether a state latched. -/
def State.stmGate (s : State) (x : Stm) (p : Pkt) : Stm × Pkt × Bool × Bool :=
  if !x.bit 30 then (x, p, true, false)
  else
    let k := gateKey 1 (bits x.w1 31 22)
    if x.closed || !s.gateOpen k 0 (p.stamp / 65536) then
      let latch := !x.closed && x.bit 26
      ({ x.count 2 with closed := x.closed || latch }, p, false, latch)
    else
      let w := s.gateWord k (p.stamp / 65536)
      (x, if bitN w 3 then { p with tc := bits w 2 0 } else p, true, false)

/-- The meter of a context (R406). -/
def State.stmMeter (s : State) (i : Nat) (x : Stm) (p : Pkt) : State × Stm × Pkt × Bool × Bool :=
  if !x.bit 29 then (s, x, p, true, false)
  else
    let (s, c) := s.meter i p.bytes.length p.stamp p.colour
    let c := if x.red then 2 else c
    if c = 2 then
      let latch := !x.red && x.bit 25
      (s, { x.count 9 with red := x.red || latch }, p, false, latch)
    else if c = 1 ∧ x.bit 24 then (s, x.count 10, p, false, false)
    else (s, x, { p with colour := c }, true, false)

/-- The stream unit's processing of a packet before admission (R401): the packet, or none when it is dropped. -/
def State.stream (s : State) (p : Pkt) : State × Option Pkt :=
  match p.stream with
  | none => (s, some p)
  | some i =>
    let x := s.stmI i
    if !x.bit 31 then (s.cnt R.GAT_CNT 0, some p) else
    let (x, o, l) := x.filter p.bytes.length
    let s := s.stmLatch l
    if o = .drop then (s.stmPut i x, none) else
    let (x, p, ok, l) := s.stmGate x p
    let s := s.stmLatch l
    if !ok then (s.stmPut i x, none) else
    let (x, ok) := if x.bit 28 then x.recovery p else (x, true)
    if !ok then (s.stmPut i x, none) else
    let (s, x, p, ok, l) := s.stmMeter i x p
    let s := s.stmLatch l
    if !ok then (s.stmPut i x, none) else (s.stmPut i (x.count 0), some p)

/-- The words of a context (R411). -/
def Stm.words (x : Stm) : List Nat :=
  [x.w0, x.w1, 0, 0,
    b2n x.oversize * 2 ^ 31 + b2n x.closed * 2 ^ 30 + b2n x.red * 2 ^ 29 + b2n x.takeAny * 2 ^ 28 + x.recSeq,
    x.lastPass / 32 % 2 ^ 32]

/-- Reserved bits of the context words are zero (R411, R412). -/
def stmArgOk (w0 w1 w2 w3 : Nat) : Bool :=
  decide (bits w0 22 14 = 0) && decide (bits w1 11 11 = 0) && decide (w2 = 0) && decide (w3 = 0)

/-- A GAT command on stream context `i` (R394, R411). -/
def State.gatContext (s : State) (op i : Nat) : State :=
  let x := s.stmI i
  match op with
  | 1 =>
    if !stmArgOk (s.gatW 0) (s.gatW 1) (s.gatW 2) (s.gatW 3) then s.gatDone 5
    else
      let en := bitN (s.gatW 0) 31
      (s.stmPut i { x with w0 := s.gatW 0, w1 := s.gatW 1, takeAny := x.takeAny || (en && !x.bit 31)
                           hist := x.hist % 2 ^ (bits (s.gatW 1) 21 12 + 1) }).gatDone 0
  | 2 => (s.gatShow x.words).gatDone 0
  | 9 =>
    let s := (s.gatShow (x.cnt.flatMap (fun n => [n % 2 ^ 32, n / 2 ^ 32]))).gatDone 0
    if s.on F.SVY_CNT_CFG_COR then s.stmPut i { x with cnt := [0, 0, 0, 0, 0, 0, 0, 0, 0, 0, 0] } else s
  | 10 => (s.stmPut i { x with oversize := false, closed := false, red := false, takeAny := true }).gatDone 0
  | _ => s.gatDone 5

/-- A GAT command: SPACE, INDEX, ENTRY and OP as in GAT_IND_CMD (R394, R412). -/
def State.gatCmd (s : State) (op space i j : Nat) : State :=
  if s.on F.GAT_IND_STATUS_BUSY then s.wr F.GAT_IND_STATUS_WR_IGNORED 1
  else if space = 3 then s.gatDone 1
  else if space = 2 then s.gatContext op i
  else s.gatList op space i j

end Sys2Proof.Machine
end

