-- ==== Sys2Proof/Machine/Survey.lean ====
section
/-! DEFINITION. Survey (R439–R453, R459–R461): latency histograms, bandwidth windows, mirror sessions, the dump ring. -/

namespace Sys2Proof.Machine

/-- Set a bit of SVY_EVT. -/
def State.svyEvt (s : State) (f : Fld) : State := s.setEvt R.SVY_EVT R.SVY_EVT_EN f (eg 14 0)

/-- Apply `f` to Survey's state. -/
def State.svyUpd (s : State) (f : SvyState → SvyState) : State := { s with svy := f s.svy }

/-! ### The dump ring (R451, R452) -/

/-- Bytes of the ring. -/
def State.dumpSize (s : State) : Nat := 2 ^ s.rd F.SVY_RING_CFG_LOG2_SIZE

/-- A record's length: header, payload, padded to 32 bytes. -/
def DumpRec.len (r : DumpRec) : Nat := 32 + (4 * r.words.length + 31) / 32 * 32

/-- A record's bytes with its number. -/
def DumpRec.bytes (r : DumpRec) (seq : Nat) : Bytes :=
  padTo 32 (leB 4 (r.set * 2 ^ 24 + r.cls * 2 ^ 16 + r.flags * 2 ^ 8 + 1) ++ leB 4 r.len ++ leB 4 r.first ++ leB 4 r.count
    ++ leB 8 r.tick ++ leB 8 seq ++ r.words.flatMap (leB 4))

/-- The PAD a record needs at the ring's end. -/
def State.dumpPad (s : State) (n : Nat) : Nat :=
  let p := s.rd F.SVY_RING_PROD_OFS
  if s.dumpSize < p + n then s.dumpSize - p else 0

/-- The record and its PAD fit (R451); a ring that is not enabled takes nothing, and none is served in D3hot (R463). -/
def State.dumpRoom (s : State) (n : Nat) : Bool :=
  let z := s.dumpSize
  let used := (s.rd F.SVY_RING_PROD_OFS + z - s.rd F.SVY_RING_CONS_OFS) % z
  s.on F.SVY_RING_CFG_EN && !s.pcie.d3hot && decide (used + s.dumpPad n + n + 64 ≤ z)

/-- Write a record after the PAD it needs; the caller has tested for room. -/
def State.dumpPut (s : State) (r : DumpRec) : State :=
  let base := s.rd64 R.SVY_RING_BASE
  let p := s.rd F.SVY_RING_PROD_OFS
  let pad := s.dumpPad r.len
  let s := if pad = 0 then s else
    s.emit (.dmaWrite (base + p) (padTo 32 (leB 4 (0xFFFF0001) ++ leB 4 pad ++ zeros 24)))
  let p := if pad = 0 then p else 0
  let s := (s.emit (.dmaWrite (base + p) (r.bytes s.svy.seq))).wr F.SVY_RING_PROD_OFS ((p + r.len) % s.dumpSize)
  (s.cnt R.SVY_CNT (if r.hist then 0x18 else 0x10)).svyUpd (fun v => { v with seq := (v.seq + 1) % 2 ^ 64 })

/-! ### Histograms (R440–R444) -/

/-- A context. -/
def State.hctx (s : State) (i : Nat) : HCtx := mget (fun _ => {}) s.svy.ctx i

/-- Store a context. -/
def State.hctxPut (s : State) (i : Nat) (x : HCtx) : State := s.svyUpd (fun v => { v with ctx := mset (fun _ => {}) v.ctx i x })

/-- Bank of window `k`. -/
def HCtx.bank (x : HCtx) (k : Nat) : HBank := if k % 2 = 0 then x.b0 else x.b1

/-- Store the bank of window `k`. -/
def HCtx.setBank (x : HCtx) (k : Nat) (b : HBank) : HCtx := if k % 2 = 0 then { x with b0 := b } else { x with b1 := b }

/-- The 74 words of a histogram (R461). -/
def HBank.show (b : HBank) (valid : Bool) : List Nat :=
  (List.range 32).flatMap (fun i => let n := mget (fun _ => 0) b.bins i; [n % 2 ^ 32, n / 2 ^ 32])
    ++ [b.count % 2 ^ 32, b.count / 2 ^ 32, b.sum % 2 ^ 32, b.sum / 2 ^ 32, b.min, b.max, b.neg,
        b2n b.part * 2 + b2n valid, b.win % 2 ^ 32, b.win / 2 ^ 32]

/-- The record of a context's window that ended at tick `t`. -/
def histRec (i t : Nat) (b : HBank) : DumpRec :=
  { set := 0xFF, cls := 0xF0, flags := b2n b.part * 2, first := i, count := 1, tick := t, hist := true, words := b.show true }

/-- Write the report of bank `d` % 2 of context `d` / 2, if it is pending. -/
def State.reportPut (s : State) (d : Nat) : State :=
  let x := s.hctx (d / 2)
  let b := x.bank d
  match b.pend with
  | none => s
  | some t => (s.dumpPut (histRec (d / 2) t b)).hctxPut (d / 2) (x.setBank d { b with pend := none })

/-- A report whose bank is needed is written outside the budget, or waits for room, before later records (R443, R451). -/
def State.reportNow (s : State) (d : Nat) : State :=
  let x := s.hctx (d / 2)
  let b := x.bank d
  match b.pend with
  | none => s
  | some t =>
    let r := histRec (d / 2) t b
    let s := if s.svy.urgent.isEmpty && s.dumpRoom r.len then s.dumpPut r
      else (s.svyUpd (fun v => { v with urgent := v.urgent ++ [r] })).svyEvt F.SVY_EVT_RING_FULL
    (s.hctxPut (d / 2) (x.setBank d { b with pend := none })).svyUpd (fun v => { v with due := v.due.filter (fun e => e != d) })

/-- The bank for window `k` of context `i`: an older one is cleared, its pending report written first (R442, R443). -/
def State.bankFor (s : State) (i k : Nat) : State × HBank :=
  let b := (s.hctx i).bank k
  if b.win = k then (s, b) else
  (s.reportNow (2 * i + k % 2), { win := k, part := decide (k = s.svy.win) && s.svy.part })

/-- The histogram window that contains an instant (2⁻¹⁶ ns) (R70, R442); while Cadence is stopped the current one goes on. -/
def State.histWin (s : State) (t16 : Nat) : Nat :=
  if !s.running then s.svy.win else
  let n := s.tickAt (t16 / 65536)
  if s.svy.live && decide (n < s.svy.winAt) then s.svy.last.getD s.svy.win
  else if s.svy.live && decide (n < s.svy.winAt + s.svy.winLen) then s.svy.win
  else n / max 1 (s.rd F.SVY_WIN_TICKS)

/-- The bin of Δ with bin base 2^e (R441). -/
def histBin (d e : Nat) : Nat := if d < 2 ^ e then 0 else min 31 (Nat.log2 (d / 2 ^ e) + 1)

/-- Add a sample of `d` units stamped `t16` to context `i` (R439, R441, R442); none is a negative Δ. A window whose bank serves a
newer one already takes no more. -/
def State.histAdd (s : State) (i t16 : Nat) (d : Option Nat) : State :=
  let cfg := (s.hctx i).cfg
  if !bitN cfg 31 then s else
  let k := s.histWin t16
  if k < ((s.hctx i).bank k).win then s else
  let (s, b) := s.bankFor i k
  let b : HBank := match d with
    | none => { b with neg := min (b.neg + 1) (2 ^ 32 - 1) }
    | some d =>
      let v := min d (2 ^ 32 - 1)
      { b with bins := mupd (fun _ => 0) b.bins (histBin d (bits cfg 28 24)) (· + 1), count := b.count + 1
               sum := min (b.sum + d) (2 ^ 64 - 1), min := min b.min v, max := max b.max v }
  s.hctxPut i ((s.hctx i).setBank k b)

/-- Latency of a transmitted packet (R439): egress stamp `e16` and compact ingress stamp of `p`, if it has one. -/
def State.latency (s : State) (stream : Option Nat) (ingress : Option Nat) (e16 : Nat) : State :=
  match ingress with
  | none => s.cnt R.SVY_CNT 0x08
  | some c =>
    let d := compactDiff (compact e16) c
    let neg := decide (2 ^ 52 ≤ d)
    let s := if neg then (s.cnt R.SVY_CNT 0x00).svyEvt F.SVY_EVT_NEG_LATENCY else s
    match stream with
    | none => s
    | some i => s.histAdd i e16 (if neg then none else some d)

/-- Contexts whose REPORT is set, ascending. -/
def State.reporting (s : State) : List Nat := (s.svy.ctx.filter (fun x => bitN x.2.cfg 30)).map (·.1)

/-- The current window of every context ends at tick `n`: it is completed, and due where REPORT is set (R443). -/
def State.histClose (s : State) (n : Nat) (part : Bool) : State :=
  let k := s.svy.win
  let s := foldS s.reporting (fun i s =>
    let (s, b) := s.bankFor i k
    s.hctxPut i ((s.hctx i).setBank k { b with part := b.part || part, pend := some n })) s
  let s := if part then foldS (s.svy.ctx.map (·.1)) (fun i s =>
      let b := (s.hctx i).bank k
      if b.win = k then s.hctxPut i ((s.hctx i).setBank k { b with part := true }) else s) s
    else s
  let l := s.reporting.map (fun i => 2 * i + k % 2)
  s.svyUpd (fun v => { v with due := v.due ++ l, last := some k })

/-- Write reports that are due while the budget of 64 per tick and the ring allow (R443); `n` bounds them. -/
def State.reportPump (s : State) : Nat → State
  | 0 => s
  | n + 1 =>
    match s.svy.due with
    | [] => s
    | d :: l =>
      if s.svy.histLeft = 0 then s
      else if !s.dumpRoom 352 then s.svyEvt F.SVY_EVT_RING_FULL
      else State.reportPump ((s.reportPut d).svyUpd (fun v => { v with due := l, histLeft := v.histLeft - 1 })) n

/-! ### Counter snapshots (R449, R450) -/

/-- Entries and counters per entry of a class. -/
def dumpShape (cls : Nat) : Nat × Nat :=
  match cls with
  | 0 => (146, 32) | 1 => (262144, 4) | 2 => (65536, 2) | 3 => (16384, 2) | 4 => (4096, 2) | 5 => (2048, 2) | 6 => (512, 2)
  | 7 => (64, 2) | 8 => (65536, 11) | 9 => (262144, 2) | 10 => (131072, 1) | 11 => (8, 8) | 12 => (146, 4) | 13 => (1, 11)
  | _ => (0, 0)

/-- The counters as they stood at the instant of the tick in progress. -/
def State.atTick (s : State) : State :=
  match s.svy.pre with
  | none => s
  | some p => { s with regs := p.regs, sq := { s.sq with ents := p.ents }, stm := p.stm, engCnt := p.eng, acl := { s.acl with hits := p.hits } }

/-- The counters of an entry. -/
def State.dumpEntry (s : State) (cls i : Nat) : List Nat :=
  let reg (r : Reg) (n : Nat) : List Nat := (List.range n).map (fun j => s.rd64 { r with addr := r.addr + 8 * j })
  match cls with
  | 0 => reg (R.LPT_CNT.on i) 32
  | 1 => (s.sent 0 i).cnt
  | 8 => (s.stmI i).cnt
  | 9 => [mget (fun _ => 0) s.engCnt (2 * i), mget (fun _ => 0) s.engCnt (2 * i + 1)]
  | 10 => [mget (fun _ => 0) s.acl.hits i]
  | 11 => reg (R.ADM_CNT.at i) 8
  | 12 => reg (R.ADM_PORT_CNT.at i) 4
  | 13 => reg R.FAB_CNT 11
  | _ => (s.sent (cls - 1) i).cnt.take 2

/-- The records of a snapshot of `count` entries from `first`, 512 counters in each at most; `n` bounds them. -/
def State.dumpRecs (s : State) (set cls flags tick : Nat) : Nat → Nat → Nat → List DumpRec
  | 0, _, _ => []
  | n + 1, first, count =>
    let per := 512 / max 1 (dumpShape cls).2
    let k := min per count
    if k = 0 then [] else
    let words := (List.range k).flatMap (fun i => (s.dumpEntry cls (first + i)).flatMap (fun c => [c % 2 ^ 32, c / 2 ^ 32]))
    { set := set, cls := cls, flags := flags, first := first, count := k, tick := tick, hist := false, words := words }
      :: State.dumpRecs s set cls flags tick n (first + k) (count - k)

/-- A dump set. -/
def State.dset (s : State) (i : Nat) : DumpSet := mget (fun _ => {}) s.svy.sets i

/-- Store a dump set. -/
def State.dsetPut (s : State) (i : Nat) (x : DumpSet) : State := s.svyUpd (fun v => { v with sets := mset (fun _ => {}) v.sets i x })

/-- Counters of a class from an entry on lie in a domain that LULL switches off (R438): line ports and the TM die's own. -/
def dumpOnDie (cls first : Nat) : Bool := (cls == 0 && decide (first < 144)) || cls == 11 || cls == 12 || cls == 13

/-- Set `i` takes its snapshot at tick `n` (R449, R452). -/
def State.snapshot (s : State) (i n : Nat) (late part : Bool) : State :=
  let cls := s.rd (F.SVY_DUMP_SET_CLASS.at i)
  let first := s.rd (F.SVY_DUMP_SET_FIRST.at i)
  let count := s.rd (F.SVY_DUMP_SET_COUNT.at i)
  let bad := decide ((dumpShape cls).1 < first + count) || decide ((dumpShape cls).1 = 0)
  let s := s.wr (F.SVY_DUMP_SET_DUMP_ERR.at i) (b2n bad)
  let x := s.dset i
  if bad then s.dsetPut i { x with late := false } else
  let flags := b2n late + b2n part * 2 + b2n (x.reset && dumpOnDie cls first) * 4
  let l := (s.atTick.dumpRecs i cls flags n (count + 1) first count).map (fun q => (i, q))
  (s.dsetPut i { late := false, reset := false }).svyUpd (fun v => { v with work := v.work ++ l })

/-- Write the next record when the ring and, for a snapshot, the budget allow it: whether one was written. -/
def State.dumpOne (s : State) : State × Bool :=
  match s.svy.urgent, s.svy.work with
  | r :: l, _ =>
    if !s.dumpRoom r.len then (s.svyEvt F.SVY_EVT_RING_FULL, false)
    else ((s.dumpPut r).svyUpd (fun v => { v with urgent := l }), true)
  | [], [] => (s, false)
  | [], (_, r) :: l =>
    let k := r.words.length / 2
    if s.svy.cntLeft < k then (s, false)
    else if !s.dumpRoom r.len then (s.svyEvt F.SVY_EVT_RING_FULL, false)
    else ((s.dumpPut r).svyUpd (fun v => { v with work := l, cntLeft := v.cntLeft - k }), true)

/-- Write records while that goes on; `n` bounds them. -/
def State.dumpPump (s : State) : Nat → State
  | 0 => s
  | n + 1 => let (s, ok) := s.dumpOne; if ok then State.dumpPump s n else s

/-- A waiting record is written once the ring has room (R451). -/
def State.dumpWaiting (s : State) : State :=
  let (s, ok) := s.dumpOne
  if ok then s else s.reportPump 1

/-- Something waits for the ring. -/
def State.dumpBlocked (s : State) : Bool :=
  (match s.svy.urgent, s.svy.work with
    | r :: _, _ => !s.dumpRoom r.len
    | [], (_, r) :: _ => decide (r.words.length / 2 ≤ s.svy.cntLeft) && !s.dumpRoom r.len
    | [], [] => false)
  || (!s.svy.due.isEmpty && !s.dumpRoom 352)

/-- A snapshot is taken at tick `n`, or waits for the end of the writing before it (R450). -/
def State.setTick (s : State) (i n : Nat) : State :=
  if !s.on (F.SVY_DUMP_SET_EN.at i) then s else
  let x := s.dset i
  if n % max 1 (s.rd (F.SVY_DUMP_SET_PERIOD.at i)) = 0 ∨ x.late then
    if !s.svy.work.any (fun q => q.1 == i) then s.snapshot i n x.late false else s.dsetPut i { x with late := true }
  else s

/-! ### Bandwidth windows (R453) -/

/-- A frame of `len` bytes received or sent by a port, stamped `t16`, counts LEN + 4 bytes in the window that contains its stamp (R70,
R453): the current one, the one before, or one still to begin. -/
def State.bwAdd (s : State) (port : Nat) (tx : Bool) (len t16 : Nat) : State :=
  let o := b2n tx * 8
  let n := s.tickAt (t16 / 65536)
  if !s.running || (s.svy.live && decide (s.svy.bwAt ≤ n) && decide (n < s.svy.bwAt + s.svy.bwLen)) then
    s.cnt (R.SVY_BW.at port) o (len + 4)
  else if s.svy.live && decide (n < s.svy.bwAt) then
    let s := s.cnt (R.SVY_BW.at port) (0x10 + o) (len + 4)
    let a := (R.SVY_BW.at port).addr
    let p : Reg := { R.SVY_BW.at port with addr := a + 0x20 + o }
    s.wr64 p (max (s.rd64 p) (s.rd64 { p with addr := a + 0x10 + o }))
  else
    let k := 1024 * (n / max 1 (s.rd F.SVY_BW_CFG_K)) + 2 * port + b2n tx
    s.svyUpd (fun v => { v with bwNext := mupd (fun _ => 0) v.bwNext k (fun x => x + (len + 4)) })

/-- A port's window `j` closes and the current bytes start again. -/
def State.bwClose (s : State) (port j : Nat) : State :=
  let a := (R.SVY_BW.at port).addr
  let r (o : Nat) : Reg := { R.SVY_BW.at port with addr := a + o }
  let one (s : State) (o : Nat) : State :=
    let v := s.rd64 (r o)
    ((s.wr64 (r (0x10 + o)) v).wr64 (r (0x20 + o)) (max (s.rd64 (r (0x20 + o))) v)).wr64 (r o) 0
  (one (one s 0) 8).wr64 (r 0x30) j

/-! ### Ticks -/

/-- The histogram window that contains tick `n` begins; the one before it, if any had begun, ends (R442, R443). -/
def State.histRoll (s : State) (n : Nat) : State :=
  if s.svy.live && decide (n < s.svy.winAt + s.svy.winLen) then s else
  let s := if s.svy.live then s.histClose n false else s
  let w := max 1 (s.rd F.SVY_WIN_TICKS)
  s.svyUpd (fun v => { v with win := n / w, winAt := n / w * w, winLen := w, part := v.part && !v.live })

/-- The bandwidth window that contains tick `n` begins with the bytes stamped in it already; the one before it ends (R453). -/
def State.bwRoll (s : State) (n : Nat) : State :=
  if s.svy.live && decide (n < s.svy.bwAt + s.svy.bwLen) then s else
  let w := max 1 (s.rd F.SVY_BW_CFG_K)
  let j := s.svy.bw
  let s := if s.svy.live then foldS (List.range 400) (fun p s => s.bwClose p j) s else s
  let s := foldS (s.svy.bwNext.filter (fun x => x.1 / 1024 == n / w)) (fun x s =>
    s.cnt (R.SVY_BW.at (x.1 % 1024 / 2)) (x.1 % 2 * 8) x.2) s
  s.svyUpd (fun v => { v with bw := n / w, bwAt := n / w * w, bwLen := w, bwNext := v.bwNext.filter (fun x => decide (n / w < x.1 / 1024)) })

/-- Survey's work at tick `n`: spilled work is reported, windows close, snapshots are taken, records go out within the
budgets (R442, R443, R450, R451, R453). -/
def State.svyTick (s : State) (n : Nat) : State :=
  let s := if s.svy.work.isEmpty then s else (s.overrun 4).svyEvt F.SVY_EVT_DUMP_LATE
  let s := if s.svy.due.isEmpty then s else (s.overrun 5).svyEvt F.SVY_EVT_REPORT_LATE
  let s := if s.dumpBlocked then s.cnt R.SVY_CNT 0x20 else s
  let s := s.svyUpd (fun v => { v with cntLeft := 2048, histLeft := 64 })
  let s := (s.dumpPump (2048 + s.svy.urgent.length)).reportPump 64
  let s := ((s.histRoll n).bwRoll n).svyUpd (fun v => { v with live := true })
  let s := foldS (List.range 16) (fun i s => s.setTick i n) s
  (s.dumpPump 2048).reportPump 64

/-- LULL entry step E3 (R444, R452): every current window ends early and is PARTIAL, each enabled set takes a final snapshot, and
what is to be written goes out as the ring allows, over the ticks of the step. -/
def State.svyLull (s : State) : State :=
  let s := s.thaw.histClose s.tick true
  let s := foldS (List.range 16) (fun i s => if s.on (F.SVY_DUMP_SET_EN.at i) then s.snapshot i s.tick false true else s) s
  let s := s.svyUpd (fun v => { v with
    live := false, cntLeft := v.work.foldl (fun n q => n + q.2.words.length) 0, histLeft := v.due.length })
  (s.dumpPump (s.svy.urgent.length + s.svy.work.length)).reportPump s.svy.due.length

/-- After a wake: windows begin anew, the histogram window PARTIAL, and the first snapshot of each set tells of the domain reset (R444,
R452). -/
def State.svyWake (s : State) : State :=
  let s := foldS (List.range 16) (fun i s => s.dsetPut i { s.dset i with reset := true }) s
  let n := s.tick
  let w := max 1 (s.rd F.SVY_WIN_TICKS)
  let k := max 1 (s.rd F.SVY_BW_CFG_K)
  s.svyUpd (fun v => { v with live := true, part := true, win := n / w, winAt := n / w * w, winLen := w,
                              bw := n / k, bwAt := n / k * k, bwLen := k, bwNext := [] })

/-! ### Mirroring (R445–R448) -/

/-- The ingress session of a packet: its stream's, else its port's. -/
def State.mirIn (s : State) (p : Pkt) : Option Nat :=
  let cfg := match p.stream with | some i => (s.hctx i).cfg | none => 0
  let j := bits cfg 5 0
  if bitN cfg 29 && s.on (F.SVY_MIRROR_EN.at j) && !s.on (F.SVY_MIRROR_POINT.at j) then some j
  else
    let j := s.rd (F.SVY_PORT_MIRROR_IN_SESSION.at p.port)
    if s.on (F.SVY_PORT_MIRROR_IN_EN.at p.port) && s.on (F.SVY_MIRROR_EN.at j) && !s.on (F.SVY_MIRROR_POINT.at j) then some j
    else none

/-- The egress session of a port. -/
def State.mirEg (s : State) (port : Nat) : Option Nat :=
  let j := s.rd (F.SVY_PORT_MIRROR_EG_SESSION.at port)
  if s.on (F.SVY_PORT_MIRROR_EG_EN.at port) && s.on (F.SVY_MIRROR_EN.at j) && s.on (F.SVY_MIRROR_POINT.at j) then some j
  else none

/-- A session selects a frame: every SAMPLE-th is copied and takes the next SEQ. -/
def State.mirTake (s : State) (j : Nat) : State × Option Nat :=
  let c := mget (fun _ => 0) s.svy.mirCount j + 1
  if c < max 1 (s.rd (F.SVY_MIRROR_SAMPLE.at j)) then (s.svyUpd (fun v => { v with mirCount := mset (fun _ => 0) v.mirCount j c }), none)
  else
    let q := mget (fun _ => 0) s.svy.mirSeq j
    (s.svyUpd (fun v => { v with mirCount := mset (fun _ => 0) v.mirCount j 0
                                 mirSeq := mset (fun _ => 0) v.mirSeq j ((q + 1) % 2 ^ 32) }), some q)

/-- A copy's bytes: the frame's head and the trailer (R447); `dst` is the egress port and stamp of an EGRESS copy. -/
def State.mirBytes (s : State) (j seq : Nat) (p : Pkt) (b : Bytes) (dst : Option (Nat × Nat)) : Bytes :=
  let t := s.rd (F.SVY_MIRROR_TRUNC.at j) * 64
  let n := if t = 0 then b.length else min b.length t
  let flags := b2n dst.isSome * 128 + b2n (decide (n < b.length)) * 64 + b2n p.stream.isSome * 32
  let st := compact p.stamp
  b.take n ++ beB 2 0x5356 ++ beB 1 1 ++ beB 1 flags ++ beB 1 j ++ beB 1 (p.tc * 32 + p.colour * 8) ++ beB 2 b.length
    ++ beB 2 p.port ++ beB 2 (match dst with | some (e, _) => e | none => 0xFFFF) ++ beB 4 seq ++ beB 7 st ++ beB 1 0
    ++ beB 7 (match dst with | some (_, t16) => compact t16 | none => st) ++ beB 1 0 ++ beB 2 (p.stream.getD 0)
    ++ beB 2 (s.rd F.FAB_CFG_DEV_ID) ++ beB 4 p.queue

/-- A copy that finds no room (R446). -/
def State.mirDrop (s : State) (j : Nat) : State := (s.cnt (R.SVY_MIRROR_CNT.at j) 8).svyEvt F.SVY_EVT_MIRROR_DROP

/-! ### SVY commands (R459, R461) -/

/-- Completion of an SVY command. -/
def State.svyDone (s : State) (err : Nat) : State :=
  (((s.wr F.SVY_IND_CMD_OP 0).wr F.SVY_IND_STATUS_ERR err).wr F.SVY_IND_STATUS_BUSY 0).wr F.SVY_IND_STATUS_DONE 1

/-- Show words in SVY_IND_DATA. -/
def State.svyShow (s : State) (l : List Nat) : State :=
  foldS (List.range 80) (fun i s => s.wrr (R.SVY_IND_DATA.at i) (l.getD i 0)) s

/-- READ_HIST and READ_CUR of window `k`, valid once a window of that number exists and its bank serves no newer one. -/
def State.svyRead (s : State) (i k : Nat) (valid : Bool) : State :=
  if k < ((s.hctx i).bank k).win then (s.svyShow (HBank.show { win := k } false)).svyDone 0 else
  let (s, b) := s.bankFor i k
  ((s.hctxPut i ((s.hctx i).setBank k b)).svyShow (b.show valid)).svyDone 0

/-- The current window's end has passed and its tick is still to be issued. -/
def State.histOver (s : State) : Bool :=
  s.running && s.svy.live && decide (s.svy.winAt + s.svy.winLen ≤ s.tickAt s.ns)

/-- The completed window: the current one where its end has passed and its tick is still to be issued (R70, R443). -/
def State.histLast (s : State) : Option Nat := if s.histOver then some s.svy.win else s.svy.last

/-- An SVY command: 1 WRITE_CFG, 2 READ_CFG, 3 READ_HIST, 4 READ_CUR. -/
def State.svyCmd (s : State) (op i : Nat) : State :=
  match op with
  | 1 =>
    let w := s.rdr (R.SVY_IND_DATA.at 0)
    if bitN w 29 && !s.on (F.SVY_MIRROR_EN.at (bits w 5 0)) then s.svyDone 1
    else (s.hctxPut i { s.hctx i with cfg := bits w 31 24 * 2 ^ 24 + bits w 5 0 }).svyDone 0
  | 2 => (s.svyShow [(s.hctx i).cfg]).svyDone 0
  | 3 => match s.histLast with
    | some k => s.svyRead i k true
    | none => (s.svyShow (HBank.show {} false)).svyDone 0
  | 4 => s.svyRead i (if s.histOver then s.histWin s.t16 else s.svy.win) true
  | _ => s.svyDone 1

end Sys2Proof.Machine
end

