-- ==== Sys2Proof/Machine/Admit.lean ====
section
/-! DEFINITION. Admission (R351–R360): charges, thresholds, push-out, lossless classes, the holding buffers of the slices,
and the changes of reserves. -/

namespace Sys2Proof.Machine

/-- Apply `f` to admission's state. -/
def State.admUpd (s : State) (f : AdmState → AdmState) : State := { s with adm := f s.adm }

/-- A counter of R351. -/
def cntr (m : SMap Nat) (k : Nat) : Nat := mget (fun _ => 0) m k

/-- B, the cells of pool 0. -/
def State.admB (s : State) : Nat := s.cells0

/-- RESV. -/
def State.admResv (s : State) : Nat := s.rd F.ADM_RESERVED_CELLS

/-- S. -/
def State.admS (s : State) : Int := (s.admB : Int) - (s.admResv : Int)

/-- SU. -/
def State.admSU (s : State) : Nat := s.rd F.ADM_SHARED_USED_CELLS

/-- Set RESV; S follows. -/
def State.resvSet (s : State) (v : Nat) : State :=
  (s.wr F.ADM_RESERVED_CELLS v).wr F.ADM_SHARED_CELLS (s.admB - v)

/-- Minimum of an enabled queue entry. -/
def State.queMin (s : State) (e : SEnt) : Nat := if e.en then s.rd (F.ADM_PROF_MIN.at e.admProf) else 0

/-- Enabled queues of profile `p`. -/
def State.profUsers (s : State) (p : Nat) : Nat := ((s.schOf 0).filter (fun q => (s.sent 0 q).admProf == p)).length

/-! ### Charges (R351–R353) -/

/-- α × F (R352), rounded towards minus infinity. -/
def alphaMul (a : Nat) (f : Int) : Int := if 10 ≤ a then f * 2 ^ (a - 10) else f / 2 ^ (10 - a)

/-- α of a profile for a colour. -/
def State.profAlpha (s : State) (k c : Nat) : Nat :=
  s.rd ((if c = 0 then F.ADM_PROF_ALPHA_G else if c = 1 then F.ADM_PROF_ALPHA_Y else F.ADM_PROF_ALPHA_R).at k)

/-- Class `t` is lossless. -/
def State.lossless (s : State) (t : Nat) : Bool := s.on (F.ADM_CLASS_LOSSLESS.at t)

/-- The threshold tests of R353 (dt). -/
def State.admDt (s : State) (n q p t c : Nat) : Bool :=
  let k := (s.sent 0 q).admProf
  let f := s.admS - (s.admSU : Int)
  let sq := cntr s.adm.sq q
  let mx := s.rd (F.ADM_PROF_MAX.at k)
  decide (((sq + n : Nat) : Int) ≤ alphaMul (s.profAlpha k c) f) && (mx == 0 || decide (sq + n ≤ mx))
  && (!s.lossless t ||
    decide (((cntr s.adm.spg (8 * p + t) + n : Nat) : Int) ≤ alphaMul (s.rd (F.ADM_PG_ALPHA.at (8 * p + t))) f))

/-- What admission decides: a charge (0 QMIN, 1 PMIN, 2 CMIN, 3 SHARED, 4 HEADROOM), a push-out of the tail of a queue in a
class, or a drop. -/
inductive AdmOut where
  | charge (k : Nat) | push (u v : Nat) | drop
  deriving DecidableEq, Repr

/-- The class and queue admission evicts from for `k` cells (R355). -/
def State.victim (s : State) (t k : Nat) : Option (Nat × Nat) :=
  (List.range t).findSome? (fun u =>
    if s.on (F.ADM_CLASS_VICTIM.at u) && !s.lossless u && s.on (F.ADM_VICTIM_VALID.at u) then
      let v := s.rd (F.ADM_VICTIM_QUEUE.at u)
      match (s.queueOf v).getLast? with
      | some x => if x.charge = 3 ∧ k ≤ x.cells then some (u, v) else none
      | none => none
    else none)

/-- admit(n, q, p, t, c) of R353. -/
def State.admitTest (s : State) (n q p t c : Nat) : AdmOut :=
  let k := (s.sent 0 q).admProf
  if cntr s.adm.qu q + n ≤ s.rd (F.ADM_PROF_MIN.at k) then .charge 0
  else if cntr s.adm.pu p + n ≤ s.rd (F.ADM_PORT_MIN.at p) then .charge 1
  else if cntr s.adm.cu t + n ≤ s.rd (F.ADM_CLASS_MIN.at t) then .charge 2
  else
    let dt := s.admDt n q p t c
    let excess := ((s.admSU + n : Nat) : Int) - s.admS
    if dt && decide (excess ≤ 0) then .charge 3
    else if s.lossless t then
      if cntr s.adm.hu (8 * p + t) + n ≤ s.rd (F.ADM_PG_HDRM.at (8 * p + t)) then .charge 4 else .drop
    else if dt && s.on (F.ADM_CLASS_PUSH.at t) then
      match s.victim t excess.toNat with
      | some (u, v) => .push u v
      | none => .drop
    else .drop

/-! ### XOFF (R358, R359) -/

/-- XOFF towards a line port: the port-class state or the slice's holding buffer. -/
def State.xoffShow (s : State) (p t : Nat) : State :=
  if p < 144 then
    s.setXoff p t (s.on (F.ADM_PG_XOFF.at (8 * p + t)) || s.adm.holdXoff.contains (8 * s.portSlice p + t))
  else s

/-- Set the port-class state. -/
def State.pgXoff (s : State) (p t : Nat) (v : Bool) : State := (s.wr (F.ADM_PG_XOFF.at (8 * p + t)) (b2n v)).xoffShow p t

/-- Bytes of class `t` in the holding buffer of slice `sl`. -/
def State.holdLevel (s : State) (sl t : Nat) : Nat :=
  (mget (fun _ => []) s.adm.hold sl).foldl (fun n h => if h.p.tc = t then n + h.p.bytes.length else n) 0

/-- The holding buffer's level decides XOFF of every line port of the slice (R359). -/
def State.holdWatch (s : State) (sl t : Nat) : State :=
  let k := 8 * sl + t
  let l := s.holdLevel sl t
  let was := s.adm.holdXoff.contains k
  let now := if was then decide (s.rd F.ADM_HOLD_CFG_XON * 1024 < l) else decide (s.rd F.ADM_HOLD_CFG_XOFF * 1024 ≤ l)
  if was = now then s else
  let s := s.admUpd (fun a => { a with holdXoff := if now then k :: a.holdXoff else a.holdXoff.filter (· ≠ k) })
  foldS ((List.range 144).filter (fun p => s.portSlice p == sl)) (fun p s => s.xoffShow p t) s

/-- Headroom in use by class `t` over the ports of slice `sl` (R359). -/
def State.sliceHdrm (s : State) (sl t : Nat) : Nat :=
  s.adm.hu.foldl (fun n x => if x.1 % 8 = t ∧ s.portSlice (x.1 / 8) = sl then n + x.2 else n) 0

/-- Passage credit of (slice, class) after SU, S, headroom or a limit changed (R359): held packets go on in order when it resumes. -/
def State.creditWatch (s : State) (sl t : Nat) : State :=
  let k := 8 * sl + t
  let floor : Int := ((s.rd F.ADM_LOSSLESS_FLOOR * 4096 : Nat) : Int)
  let sh := s.rd F.ADM_LOSSLESS_SLICE_HDRM * 64
  let su : Int := (s.admSU : Int)
  let h := s.sliceHdrm sl t
  if s.adm.withheld.contains k then
    if (su ≤ s.admS - 2 * floor ∧ 4 * h ≤ 3 * sh) ∨ ¬ s.lossless t then
      let q := mget (fun _ => []) s.adm.hold sl
      let s := s.admUpd (fun a => { a with
        withheld := a.withheld.filter (· ≠ k), arrive := a.arrive ++ q.filter (fun h => h.p.tc == t)
        hold := mset (fun _ => []) a.hold sl (q.filter (fun h => h.p.tc != t)) })
      s.holdWatch sl t
    else s
  else if s.lossless t && (decide (s.admS - floor < su) || decide (sh ≤ h)) then
    s.admUpd (fun a => { a with withheld := k :: a.withheld })
  else s

/-- Every (slice, class) is watched. -/
def State.credits (s : State) : State :=
  foldS ((List.range 8).filter (fun t => s.lossless t || s.adm.withheld.any (fun k => k % 8 == t)))
    (fun t s => foldS (List.range 8) (fun sl s => s.creditWatch sl t) s) s

/-- A change of a reserve from `old` to `new` cells, carried out by `f` unless RESV would exceed B (R351); Passage credit follows
S (R359). -/
def State.resvChange (s : State) (old new : Nat) (f : State → State) : State :=
  let v := s.admResv + new - old
  if s.admB < v ∧ old < new then s.setEvt R.ADM_EVT R.ADM_EVT_EN F.ADM_EVT_RESV_ERR (eg 11 1)
  else ((f s).resvSet v).credits

/-! ### Charge and credit -/

/-- The tracker of class `u` sees queue `q` grow (R356). -/
def State.track (s : State) (u q : Nat) : State :=
  let old := s.rd (F.ADM_VICTIM_QUEUE.at u)
  if !s.on (F.ADM_VICTIM_VALID.at u) || decide (cntr s.adm.sq old < cntr s.adm.sq q) then
    (s.wr (F.ADM_VICTIM_QUEUE.at u) q).wr (F.ADM_VICTIM_VALID.at u) 1
  else s

/-- A tracked queue whose SQ is zero clears its trackers. -/
def State.untrack (s : State) (q : Nat) : State :=
  if cntr s.adm.sq q ≠ 0 then s else
  foldS (List.range 8) (fun u s =>
    if s.on (F.ADM_VICTIM_VALID.at u) && s.rd (F.ADM_VICTIM_QUEUE.at u) == q then
      (s.wr (F.ADM_VICTIM_VALID.at u) 0).wr (F.ADM_VICTIM_QUEUE.at u) 0 else s) s

/-- Add to a counter. -/
def bump (m : SMap Nat) (k : Nat) (f : Nat → Nat) : SMap Nat := mupd (fun _ => 0) m k f

/-- Charge `n` cells to counter kind `k` (R351). -/
def State.charge (s : State) (k n q p t : Nat) : State :=
  match k with
  | 0 => s.admUpd (fun a => { a with qu := bump a.qu q (· + n) })
  | 1 => s.admUpd (fun a => { a with pu := bump a.pu p (· + n) })
  | 2 => s.admUpd (fun a => { a with cu := bump a.cu t (· + n) })
  | 3 =>
    let s := s.admUpd (fun a => { a with sq := bump a.sq q (· + n), spg := bump a.spg (8 * p + t) (· + n) })
    ((s.wr F.ADM_SHARED_USED_CELLS (s.admSU + n)).track t q).credits
  | _ =>
    let s := s.admUpd (fun a => { a with hu := bump a.hu (8 * p + t) (· + n) })
    ((s.wr F.ADM_HDRM_USED_CELLS (s.rd F.ADM_HDRM_USED_CELLS + n)).pgXoff p t true).credits

/-- Credit the counter a packet of queue `q` was charged to (R351, R358). -/
def State.uncharge (s : State) (q : Nat) (x : QPkt) : State :=
  let n := x.cells
  let p := x.port
  let t := x.cls
  match x.charge with
  | 0 => s.admUpd (fun a => { a with qu := bump a.qu q (· - n) })
  | 1 => s.admUpd (fun a => { a with pu := bump a.pu p (· - n) })
  | 2 => s.admUpd (fun a => { a with cu := bump a.cu t (· - n) })
  | 3 =>
    let s := s.admUpd (fun a => { a with sq := bump a.sq q (· - n), spg := bump a.spg (8 * p + t) (· - n) })
    ((s.wr F.ADM_SHARED_USED_CELLS (s.admSU - n)).untrack q).credits
  | _ =>
    let s := s.admUpd (fun a => { a with hu := bump a.hu (8 * p + t) (· - n) })
    let s := s.wr F.ADM_HDRM_USED_CELLS (s.rd F.ADM_HDRM_USED_CELLS - n)
    (if cntr s.adm.hu (8 * p + t) = 0 then s.pgXoff p t false else s).credits

/-- A queue entry ends without leaving: charge, reference, next-hop count and drop counters of the queue (R234, R347,
R380). -/
def State.entryDrop (s : State) (q : Nat) (x : QPkt) : State :=
  let s := (s.uncharge q x).pktUnref x.buf
  let s := if x.mirror then s else s.nhDone x.p
  s.schCnt 0 q 2 x.p.bytes.length

/-- Evict the tail of queue `v` for class `t`, counted under class `u` (R355). -/
def State.evict (s : State) (u v t : Nat) : State :=
  match (s.queueOf v).getLast? with
  | none => s
  | some x =>
    let s := s.queuePut v (s.queueOf v).dropLast
    let s := (s.entryDrop v x).voqTouch (s.l5Of v)
    ((s.schUpdate 0 v).cnt (R.ADM_CNT.at u) 0x28).cnt (R.ADM_CNT.at t) 0x20

/-- Add an entry of `n` cells to queue `q` under charge `k`. -/
def State.admPut (s : State) (k n q : Nat) (p : Pkt) (buf : Nat) (mirror : Bool) (adj : Option Nat) : State :=
  let s := (s.charge k n q p.port p.tc).cnt (R.ADM_CNT.at p.tc) 0x00
  s.enqueue q { p := p, cells := n, charge := k, cls := p.tc, port := p.port, buf := buf, mirror := mirror, adjOver := adj }

/-- A packet that admission turns away: its class's counter and, for a lossless one, HDRM_DROP (R353, R358). -/
def State.admDrop (s : State) (q : Nat) (p : Pkt) : State :=
  let s := s.schCnt 0 q 2 p.bytes.length
  if s.lossless p.tc then
    (s.cnt (R.ADM_CNT.at p.tc) 0x30).setEvt R.ADM_EVT R.ADM_EVT_EN F.ADM_EVT_HDRM_DROP (eg 11 1)
  else s.cnt (R.ADM_CNT.at p.tc) (0x08 + 8 * min p.colour 2)

/-- The queue of an entry is disabled (R365). -/
def State.queDisabled (s : State) : State :=
  (s.cnt R.QUE_CNT 0).setEvt R.QUE_EVT R.QUE_EVT_EN F.QUE_EVT_DISABLED_DROP (eg 12 0)

/-- Admit a packet to its queue, with the buffer it shares or a new one: the buffer, or none when it is dropped. -/
def State.admitOne (s : State) (p : Pkt) (n : Nat) (share : Option Nat) (mirror : Bool) (adj : Option Nat) :
    State × Option Nat :=
  let q := p.queue
  if !(s.sent 0 q).en then (s.queDisabled, none)
  else
    let put (s : State) (k : Nat) : State × Option Nat :=
      let (s, b) := match share with
        | some b => (s.pktRef b, b)
        | none => s.pktAlloc p.slice n p.bytes.length
      (s.admPut k n q p b mirror adj, some b)
    match s.admitTest n q p.port p.tc p.colour with
    | .charge k => put s k
    | .push u v => put (s.evict u v p.tc) 3
    | .drop => (s.admDrop q p, none)

/-- The ingress mirror copy of an admitted packet (R446, R448): it shares the buffer and is admitted on its own account. -/
def State.mirrorIngress (s : State) (p : Pkt) (n buf : Nat) : State :=
  match s.mirIn p with
  | none => s
  | some j =>
    match s.mirTake j with
    | (s, none) => s
    | (s, some seq) =>
      let q := s.rd (F.SVY_MIRROR_QUEUE.at j)
      let c : Pkt := { p with bytes := s.mirBytes j seq p p.bytes none, tc := s.rd (F.SVY_MIRROR_TC.at j), queue := q, nh := none }
      let (s, r) := s.admitOne c n (some buf) true (some (s.rd (F.SVY_MIRROR_ADJ.at j)))
      match r with
      | some _ => s.cnt (R.SVY_MIRROR_CNT.at j) 0
      | none => s.mirDrop j

/-- A packet that has crossed Passage: stream unit, admission, enqueue, mirror copy (R353, R401, R446). -/
def State.packetAdmit (s : State) : State :=
  match s.adm.arrive with
  | [] => s
  | h :: l =>
    let s := s.admUpd (fun a => { a with arrive := l })
    match s.stream h.p with
    | (s, none) => s.nhDone h.p
    | (s, some p) =>
      let n := cellsOf p.bytes.length
      match s.admitOne p n none false none with
      | (s, none) => s.nhDone p
      | (s, some b) => s.mirrorIngress p n b

/-! ### Passage (R21, R359) -/

/-- A packet leaves its slice for the TM die: a lossless class without credit is held in the 2 MiB buffer. -/
def State.toPassage (s : State) (p : Pkt) : State :=
  let q := mget (fun _ => []) s.adm.hold p.slice
  if s.adm.withheld.contains (8 * p.slice + p.tc) then
    if 2 ^ 21 < q.foldl (fun n h => n + h.p.bytes.length) 0 + p.bytes.length then
      ((s.cnt (R.ADM_CNT.at p.tc) 0x38).setEvt R.ADM_EVT R.ADM_EVT_EN F.ADM_EVT_HOLD_DROP (eg 11 1)).nhDone p
    else
      (s.admUpd (fun a => { a with hold := mset (fun _ => []) a.hold p.slice (q ++ [{ p := p }]) })).holdWatch p.slice p.tc
  else s.admUpd (fun a => { a with arrive := a.arrive ++ [{ p := p }] })

/-! ### Departures and flushes (R347, R372, R376) -/

/-- A selected packet leaves its queue: its charge is credited, its reference and next-hop count fall. -/
def State.depart (s : State) (q : Nat) (x : QPkt) : State :=
  let s := (s.uncharge q x).pktUnref x.buf
  if x.mirror then s else s.nhDone x.p

/-- The flush of a queue ends: every packet is dropped and counted (R376). -/
def State.queFlushed (s : State) : State :=
  match s.sq.flush with
  | none => s
  | some q =>
    let l := s.queueOf q
    let s := { s with sq := { s.sq with flush := none } }
    let s := foldS l (fun x s => (s.entryDrop q x).cnt R.QUE_CNT 8) (s.queuePut q [])
    ((s.voqTouch (s.l5Of q)).schUpdate 0 q).schDone true 0

/-- A QUE WRITE with its change of RESV (R351, R376): one that would take RESV beyond B changes nothing (log entry 38). -/
def State.queWrite (s : State) (i : Nat) : State :=
  if s.schBusy true || decide (schCount 0 ≤ i) then s.schCmd true 1 0 i
  else
    let w0 := s.schW 0 0
    let new : SEnt := { s.sent 0 i with w0 := w0 }
    let a := s.queMin (s.sent 0 i)
    let b := s.queMin new
    let t := s.schCmd true 1 0 i
    if t.rd F.QUE_IND_STATUS_ERR ≠ 0 then t
    else if a < b ∧ s.admB < s.admResv + b - a then
      (s.setEvt R.ADM_EVT R.ADM_EVT_EN F.ADM_EVT_RESV_ERR (eg 11 1)).schDone true 7
    else (t.resvSet (s.admResv + b - a)).credits

end Sys2Proof.Machine
end

