-- ==== Sys2Proof/Machine/Echo.lean ====
section
/-! DEFINITION. Echo (R263–R273): scans, automaton images, loading, swapping, reload. -/

namespace Sys2Proof.Machine

/-- Echo instance `n`. -/
def State.ech (s : State) (n : Nat) : EchoInst := mget (fun _ => {}) s.echo.inst n

/-- Store an instance. -/
def State.echPut (s : State) (n : Nat) (x : EchoInst) : State :=
  { s with echo := { s.echo with inst := mset (fun _ => {}) s.echo.inst n x } }

/-- The active bank of instance `n`. -/
def State.actBank (s : State) (n : Nat) : Nat := b2n (bitN (s.rd F.PAT_STATUS_ACT_BANK) n)

/-- A bank. -/
def EchoInst.bank (x : EchoInst) (b : Nat) : EchoBank := if b = 0 then x.bank0 else x.bank1

/-- Set a bank. -/
def EchoInst.setBank (x : EchoInst) (b : Nat) (v : EchoBank) : EchoInst :=
  if b = 0 then { x with bank0 := v } else { x with bank1 := v }

/-- A PAT counter. -/
def State.patCnt (s : State) (n off : Nat) (k : Nat := 1) : State := s.cnt (R.PAT_CNT.at n) off k

/-! ### Scans (R264–R269) -/

/-- Insert a match (id, end) in the order of R266: by end offset, then by id. -/
def insMatch (m : Nat × Nat) : List (Nat × Nat) → List (Nat × Nat)
  | [] => [m]
  | x :: l => if m.2 < x.2 ∨ (m.2 = x.2 ∧ m.1 ≤ x.1) then m :: x :: l else x :: insMatch m l

/-- The matches of an automaton in a byte string, in order, those that R266 can report. -/
def matchesOf (body data : Bytes) : List (Nat × Nat) :=
  ((Config.echoMatches body data).filter (fun m => decide (m.1 < 4096) && decide (1 ≤ m.2) && decide (m.2 ≤ data.length))).foldl
    (fun l m => if l.contains m then l else insMatch m l) []

/-- The scan result word of R266. -/
def echoWord (status : Nat) (hit : Option (Nat × Nat)) (multi : Bool) (scanned : Nat) : Nat :=
  status * 2 ^ 60 + b2n multi * 2 ^ 59
    + (match hit with | some (id, e) => id * 2 ^ 47 + e * 2 ^ 16 | none => 0) + scanned

/-- The result of a scan on a bank, with whether a match is reported and others exist (R266, R267). -/
def scanResult (b : EchoBank) (j : EchoJob) : Nat × Bool × Bool :=
  if j.noStart then (echoWord 3 none false 0, false, false)
  else if b.bad then (echoWord 6 none false 0, false, false)
  else match b.body with
    | none => (echoWord 4 none false 0, false, false)
    | some body =>
      let l := matchesOf body j.data
      let after := match j.cur with
        | none => l
        | some (e, id) => l.filter (fun m => decide (e < m.2) || (decide (m.2 = e) && decide (id < m.1)))
      match after.head? with
      | none => (echoWord 1 none false j.data.length, false, false)
      | some m => (echoWord 0 (some m) (decide (1 < l.length)) j.data.length, true, decide (1 < l.length))

/-- Pending bytes of an instance. -/
def EchoInst.bytes (x : EchoInst) : Nat := x.jobs.foldl (fun n j => n + j.data.length) 0

/-- Queue a scan. -/
def State.echQueue (s : State) (n : Nat) (j : EchoJob) : State :=
  let x := s.ech n
  s.echPut n { x with jobs := x.jobs ++ [j] }

/-- The bank whose automaton governs a request stamp: the one before the last swap for older requests (R272). -/
def State.bankAt (s : State) (n stamp : Nat) : Nat :=
  if (s.ech n).swapAt ≤ stamp then s.actBank n else 1 - s.actBank n

/-- The thread that holds the packet of a handle. -/
def State.handleThr (s : State) (g h : Nat) : Option Nat :=
  ((s.galI g).thr.find? (fun x => match x.2.pkt with | some k => k.handle == h && !k.egr | none => false)).map (·.1)

/-- A scan leaves the queue and completes (R266, R269): an engine's result goes to its descriptor, a packet's to the packet's
token, or waits for its thread; the DETAIL of an engine's status word is open (log entry 60). -/
def State.scanDone (s : State) (n : Nat) : State :=
  let x := s.ech n
  match x.jobs with
  | [] => s
  | j :: l =>
    let (w, hit, multi) := scanResult (x.bank (s.bankAt n j.stamp)) j
    let s := s.echPut n { x with jobs := l }
    let s := s.patCnt n (if j.cur.isSome then 0x38 else if j.noStart then 0x28 else 0x00)
    let s := if j.noStart then s else s.patCnt n 0x08 j.data.length
    let s := if hit then s.patCnt n 0x10 else s
    let s := if multi then s.patCnt n 0x18 else s
    match j.handle with
    | none =>
      let discard := match (s.thrI n j.thr).tok j.tok with | some t => t.discard | none => 2
      let s := if discard = 2 then s else s.memWr n j.thr (j.buf + 16) 8 w
      let (f, s) := s.draw
      s.tokComplete n j.thr j.tok 0 f.toNat
    | some h =>
      match s.handleThr n h with
      | some i => match ((s.thrI n i).toks.find? (fun e => match e.2 with | some { req := .echo, discard := _, done := none } => true | _ => false)) with
        | some e => s.tokResult n i e.1 w
        | none => s
      | none => let x := s.ech n; s.echPut n { x with ready := x.ready ++ [(h, w)] }

/-- Bytes a packet's scan covers by profile `k`, or none when the named header is absent (R265). -/
def State.scanRange (s : State) (k : Nat) (p : Pkt) : Option Bytes :=
  let kind := s.rd (F.PAT_PROF_KIND.at k)
  let h := if kind = 0 then p.hdrs.getLast? else findHdr p.hdrs kind (s.rd (F.PAT_PROF_INST.at k))
  let mx := s.rd (F.PAT_PROF_MAXLEN.at k)
  match h with
  | none => none
  | some h => if mx = 0 then none else some ((p.bytes.drop (h.off + h.len + s.rd (F.PAT_PROF_OFS.at k))).take mx)

/-- The first skip of a tick raises ECHO_SKIPPED (R268). -/
def State.echSkip (s : State) (n : Nat) : State :=
  let s := s.patCnt n 0x20
  if s.echo.skipSeen then s else { s.raise (eg 9 3) with echo := { s.echo with skipSeen := true } }

/-- A packet with an ECHO action enters gallery `n` with handle `h`: its scan is queued, or is skipped (R264, R268); false when
the packet is dropped. -/
def State.packetScan (s : State) (n h : Nat) (p : Pkt) : State × Bool :=
  match p.echo with
  | none => (s, true)
  | some k =>
    let r := s.scanRange k p
    let data := r.getD []
    if s.rd F.PAT_CFG_QMAX * 1024 < (s.ech n).bytes + data.length then
      let s := s.echSkip n
      if s.on F.PAT_CFG_OVF_ACT then (s, false)
      else let x := s.ech n; (s.echPut n { x with ready := x.ready ++ [(h, echoWord 2 none false 0)] }, true)
    else (s.echQueue n ⟨0, 0, some h, 0, data, none, r.isNone, p.stamp⟩, true)

/-! ### Images (R270, R271) -/

/-- The header's checks: 0 good, 1 PAT_BAD_FORMAT, 2 PAT_TOO_LARGE, 3 PAT_BAD_SRC for an image that passes the end of the
staging area. -/
def patCheck (b : Bytes) (ofs : Nat) : Nat :=
  let n := leN b 0x14 4
  if leN b 0 4 ≠ 0x4543484F ∨ leN b 4 2 ≠ 1 ∨ leN b 6 2 ≠ 0 ∨ leN b 8 4 ≠ 0x28800001 ∨ leN b 0x24 28 ≠ 0
    ∨ leN b 0x0C 4 = 0 ∨ leN b 0x10 4 = 0 then 1
  else if 65536 < leN b 0x0C 4 ∨ 4096 < leN b 0x10 4 ∨ 3 * 2 ^ 20 < n then 2
  else if 2 ^ 25 < ofs + 64 + n then 3
  else if leN b 0x20 4 ≠ fcs (b.take 0x20 ++ zeros 4 ++ (b.drop 0x24).take (28 + n)) then 1
  else 0

/-- The bytes of the staging area from an offset, header and largest body. -/
def State.stageBytes (s : State) (ofs : Nat) : Bytes :=
  let base := s.rd64 R.PAT_STAGE_BASE + ofs
  let n := min (s.tw (base + 0x14)) (3 * 2 ^ 20)
  (s.tBytes base ((64 + n + 3) / 4)).take (64 + n)

/-- BUSY of PAT. -/
def State.patBusy (s : State) : Bool := s.on F.PAT_STATUS_BUSY

/-- A PAT command ends: LOAD and SWAP read 0 again (R11). -/
def State.patDone (s : State) (err : Nat) : State :=
  let s := (s.wr F.PAT_CTRL_LOAD 0).wr F.PAT_CTRL_SWAP 0
  (((s.wr F.PAT_STATUS_BUSY 0).wr F.PAT_STATUS_ERR err).wr F.PAT_STATUS_DONE 1).raise (eg 9 5)

/-- LOAD (R271): the image at PAT_LOAD_SRC is checked and its copy starts. -/
def State.patLoad (s : State) : State :=
  if s.patBusy then s.wr F.PAT_STATUS_WR_IGNORED 1 else
  let ofs := s.rd F.PAT_LOAD_SRC_OFS
  let e := if ofs % 256 ≠ 0 then 3 else patCheck (s.stageBytes ofs) ofs
  if e ≠ 0 then s.patDone e
  else { ((s.wr F.PAT_CTRL_LOAD 1).wr F.PAT_STATUS_BUSY 1).wr F.PAT_STATUS_ERR 0 with echo := { s.echo with load := some (s.rd F.PAT_CTRL_SLICE_MASK, ofs) } }

/-- Account of bank `b` of instance `n` (PAT_ACCT). -/
def State.patAcct (s : State) (n b : Nat) (img : Option (Bytes × Nat)) : State :=
  let a := (R.PAT_ACCT.at n).addr + 0x20 * b
  let w (i v : Nat) (s : State) : State := s.wrw (a + i) (BitVec.ofNat 32 v)
  match img with
  | none => w 0 0 (w 4 0 (w 8 0 (w 0x0C 0 (w 0x10 0 (w 0x14 0 (w 0x18 0 s))))))
  | some (h, ofs) =>
    w 0 1 (w 4 (leN h 0x0C 4) (w 8 (leN h 0x10 4) (w 0x0C (leN h 0x14 4) (w 0x10 (leN h 0x18 4) (w 0x14 (leN h 0x1C 4) (w 0x18 ofs s))))))

/-- LOADED and SRC of a bank. -/
def State.patLoaded (s : State) (n b : Nat) : Option Nat :=
  let a := (R.PAT_ACCT.at n).addr + 0x20 * b
  if (s.rdw a).toNat % 2 = 1 then some (s.rdw (a + 0x18)).toNat else none

/-- Bank `b` of instance `n` is loaded again from its recorded staging offset (R273). -/
def State.echReloadBank (s : State) (n b : Nat) : State :=
  match s.patLoaded n b with
  | none => s.echPut n ((s.ech n).setBank b {})
  | some ofs =>
    let img := s.stageBytes ofs
    if patCheck img ofs = 0 then s.echPut n ((s.ech n).setBank b { body := some (img.drop 64) })
    else ((s.echPut n ((s.ech n).setBank b {})).patAcct n b none).raise (eg 9 4)

/-- The active bank of instance `n` is loaded again. -/
def State.echReload (s : State) (n : Nat) : State := s.echReloadBank n (s.actBank n)

/-- Instance `n` is under an online gallery test and has not been reloaded yet (R505). -/
def State.echTesting (s : State) (n : Nat) : Bool :=
  match s.bist.gt with | some t => t.g == n && decide (t.step ≤ 6) | none => false

/-- The bit of the instance under test in a mask (R505). -/
def State.echHeld (s : State) (m : Nat) : Nat :=
  ((List.range 8).filter (fun n => bitN m n && s.echTesting n)).foldl (fun k n => k + 2 ^ n) 0

/-- The copy in progress ends: the load's, but for an instance under test, else the reload of banks that met an error (R271,
R273, R505). -/
def State.patLoadDone (s : State) : State :=
  match s.echo.load with
  | some (m, ofs) =>
    let img := s.stageBytes ofs
    let wait := s.echHeld m
    let s := foldS ((List.range 8).filter (fun n => bitN (m - wait) n)) (fun n s =>
      let b := 1 - s.actBank n
      (s.echPut n ((s.ech n).setBank b { body := some (img.drop 64) })).patAcct n b (some (img, ofs))) s
    if wait = 0 then { s.patDone 0 with echo := { s.echo with load := none } }
    else { s with echo := { s.echo with load := some (wait, ofs) } }
  | none => foldS ((List.range 8).filter (fun n => ((s.ech n).bank (s.actBank n)).bad)) (fun n s => s.echReload n) s

/-- An uncorrectable error in the automaton memory of instance `n` (R273). -/
def State.echError (s : State) (n : Nat) : State :=
  let b := s.actBank n
  (s.echPut n ((s.ech n).setBank b { (s.ech n).bank b with bad := true })).patCnt n 0x30

/-- The power-up of instance `n` clears its banks; the active one is loaded again (R273). -/
def State.echPower (s : State) (n : Nat) : State :=
  let x := s.ech n
  let s := s.echPut n { x with bank0 := {}, bank1 := {}, jobs := [], ready := [] }
  ((s.patAcct n (1 - s.actBank n) none)).echReload n

/-! ### Swaps (R272) -/

/-- The banks of a mask change places, but for an instance under test (R505); the new ones govern stamps from `at16`. `tick`:
the tick the swap named, 0 for none. -/
def State.patSwapNow (s : State) (m at16 tick : Nat) : State :=
  let wait := s.echHeld m
  let m := m - wait
  let s := foldS ((List.range 8).filter (fun n => bitN m n)) (fun n s => s.echPut n { s.ech n with swapAt := at16 }) s
  let s := s.wr F.PAT_STATUS_ACT_BANK (s.rd F.PAT_STATUS_ACT_BANK ^^^ m)
  if wait = 0 then { s.patDone 0 with echo := { s.echo with swap := none } }
  else { (s.wr F.PAT_CTRL_SWAP 1).wr F.PAT_STATUS_BUSY 1 with echo := { s.echo with swap := some (wait, tick) } }

/-- The instance under test is reloaded, both banks, and what waited for it takes effect (R505). -/
def State.echAfterTest (s : State) (n : Nat) : State :=
  let x := s.ech n
  let s := s.echPut n { x with bank0 := {}, bank1 := {}, jobs := [], ready := [] }
  let s := (s.echReloadBank n 0).echReloadBank n 1
  let s := match s.echo.load with | some (m, _) => if m = 2 ^ n then s.patLoadDone else s | none => s
  match s.echo.swap with
  | some (m, t) =>
    if m = 2 ^ n ∧ (t = 0 ∨ t ≤ s.tick) then
      (if t = 0 then s else s.wr F.PAT_STATUS_TICK_LATE 1).patSwapNow m (stamp16 s.t16) t
    else s
  | none => s

/-- SWAP: at once, or pending for its tick. -/
def State.patSwap (s : State) : State :=
  if s.patBusy then s.wr F.PAT_STATUS_WR_IGNORED 1 else
  let m := s.rd F.PAT_CTRL_SLICE_MASK
  if !s.on F.PAT_CTRL_AT_TICK then s.patSwapNow m (stamp16 s.t16) 0
  else if !s.running then s.patDone 4
  else
    let t := s.rd64 R.PAT_SWAP_TICK
    let s := if s.tickPassed t then s.wr F.PAT_STATUS_TICK_LATE 1 else s
    let due := max t s.tb.nextTick
    { (s.wr F.PAT_CTRL_SWAP 1).wr F.PAT_STATUS_BUSY 1 with echo := { s.echo with swap := some (m, due) } }

/-- The swap that waits takes effect at its tick, which has been issued. -/
def State.patSwapDue (s : State) : State :=
  match s.echo.swap with
  | some (m, t) => if t ≤ s.tick ∧ s.running ∧ s.inMode mRUN then s.patSwapNow m (s.tickNs s.tick * 65536) t else s
  | none => s

end Sys2Proof.Machine
end

