-- ==== Sys2Proof/Machine/Egress.lean ====
section
/-! DEFINITION. The egress side: the edit (R181, R232, R233), PTP correction (R53–R58), egress queues and their scheduling
(R378, R396–R399), transmission, port hold (R361, R362), egress mirror copies (R446). -/

namespace Sys2Proof.Machine

/-! ### The edit (R232) -/

/-- End of the outer Ethernet header and of the VLAN tags directly after it. -/
def l2End (hs : List Hdr) : Nat :=
  hs.tail.foldl (fun e h => if h.kind = kVLAN ∧ h.off = e then h.off + h.len else e)
    (match hs with | h :: _ => h.off + h.len | [] => 14)

/-- The MPLS header directly after the outer layer-2 headers (log entry 49). -/
def topLabel (hs : List Hdr) : Option Hdr := hs.find? (fun h => h.kind == kMPLS && h.off == l2End hs)

/-- The first IP header. -/
def firstIp (hs : List Hdr) : Option Hdr := hs.find? (fun h => h.kind == kIPV4 || h.kind == kIPV6)

/-- Offset of the TTL or hop limit of an IP header. -/
def ttlOff (h : Hdr) : Nat := if h.kind = kIPV4 then h.off + 8 else h.off + 7

/-- Update a ones'-complement checksum at offset `o` for a change of the bytes covered from `old` to `new`. -/
def ckUpdate (b : Bytes) (o : Nat) (old new : Bytes) : Bytes :=
  let inv (n : Nat) : Nat := 65535 - n
  let fold (n : Nat) : Nat := (n % 65536 + n / 65536) % 65536 + (n % 65536 + n / 65536) / 65536
  splice b o (beB 2 (inv (fold (fold (inv (beN b o 2) + inv (onesSum old 0) + onesSum new 0)))))

/-- DEC_TTL: the TTL of a first IP header goes down by one, the IPv4 checksum with it; a TTL of 0 takes the free value `v`
(log entry 48). -/
def decTtl (b : Bytes) (h : Hdr) (v : Nat) : Bytes :=
  let o := ttlOff h
  let old := byteN b o
  let new := if old = 0 then v % 256 else old - 1
  let b' := splice b o (beB 1 new)
  if h.kind = kIPV4 then ckUpdate b' (h.off + 10) (slice b (h.off + 8) 2) (slice b' (h.off + 8) 2) else b'

/-- MPLS_PUSH: `n` entries from LABEL0 outermost, S on the last over no stack, TTL copied from the header below; `v` where no
header below has one (log entry 48). -/
def mplsPush (b : Bytes) (hs : List Hdr) (labels : List Nat) (v : Nat) : Bytes :=
  if labels.isEmpty then b else
  let e := l2End hs
  let ttl := match topLabel hs with
    | some h => byteN b (h.off + 3)
    | none => match firstIp hs with
      | some h => if h.off = e then byteN b (ttlOff h) else v % 256
      | none => v % 256
  let bos := (topLabel hs).isNone
  let n := labels.length
  let stack := (List.range n).flatMap (fun i =>
    beB 4 (bits (labels.getD i 0) 31 9 * 512 + b2n (bos && i + 1 == n) * 256 + ttl))
  let b := b.take e ++ stack ++ b.drop e
  if bos then splice b (e - 2) (beB 2 0x8847) else b

/-- An outer VLAN tag is present. -/
def tagged (hs : List Hdr) : Bool := match hs.drop 1 with | h :: _ => h.kind == kVLAN && h.off == 14 | [] => false

/-- VLAN_OP: 1 push, 2 replace outer, 3 pop outer. -/
def vlanOp (b : Bytes) (tag : Bool) (op tci : Nat) : Bytes :=
  let t := beB 2 0x8100 ++ beB 2 tci
  match op with
  | 1 => b.take 12 ++ t ++ b.drop 12
  | 2 => if tag then b.take 12 ++ t ++ b.drop 16 else b
  | 3 => if tag then b.take 12 ++ b.drop 16 else b
  | _ => b

/-- The operations of an adjacency in the order of R232, before the gallery. -/
def State.editBytes (s : State) (a : Nat) (b : Bytes) (hs : List Hdr) : State × Bytes :=
  let w (i : Nat) : Nat := s.tw (s.adjAddr a + 4 * i)
  let w0 := w 0
  let smac := s.rd64 (R.TBL_SMAC.at (bits w0 11 0))
  let dmac := bits (w 2) 15 0 * 2 ^ 32 + w 1
  let (v, s) := s.draw
  let n := if bits w0 25 23 ≤ 4 then bits w0 25 23 else v.toNat / 2 ^ 32 % 5
  let labels := (List.range n).map (fun i => w (3 + i))
  let b := if bitN w0 22 then (match topLabel hs with
      | some h => splice b h.off (beB 4 (bits (w 7) 19 0 * 2 ^ 12 + beN b h.off 4 % 2 ^ 12))
      | none => b) else b
  let b := if bitN w0 28 then (match firstIp hs with | some h => decTtl b h v.toNat | none => b) else b
  let b := mplsPush b hs labels (v.toNat / 256)
  let b := vlanOp b (tagged hs) (bits w0 27 26) (bits (w 2) 31 16)
  (s, if bitN w0 21 then splice b 0 (beB 6 dmac ++ beB 6 smac) else b)

/-! ### PTP (R53–R58) -/

/-- The PTP header of a frame. -/
def ptpHdr (hs : List Hdr) : Option Hdr := hs.find? (fun h => h.kind == kPTP)

/-- messageType of a PTP message. -/
def ptpType (b : Bytes) (h : Hdr) : Nat := byteN b h.off % 16

/-- The UDP header a PTP message follows. -/
def ptpUdp (hs : List Hdr) (h : Hdr) : Option Hdr := hs.find? (fun u => u.kind == kUDP && u.off + 8 == h.off)

/-- Event messages: Sync, Delay_Req, Pdelay_Req, Pdelay_Resp, over UDP on port 319 (R52). -/
def ptpEvent (b : Bytes) (hs : List Hdr) (h : Hdr) : Bool :=
  decide (ptpType b h < 4) && (match ptpUdp hs h with | some u => decide (beN b (u.off + 2) 2 = 319) | none => true)

/-- MODE of a port; 5–7 act as OFF. -/
def State.ptpMode (s : State) (port : Nat) : Nat :=
  if port < 146 ∧ s.rd (F.WRS_PORT_PTP_MODE.at port) ≤ 4 then s.rd (F.WRS_PORT_PTP_MODE.at port) else 0

/-- Add to correctionField. -/
def addCorr (b : Bytes) (h : Hdr) (d : Int) : Bytes :=
  splice b (h.off + 8) (beB 8 (tc 64 ((beN b (h.off + 8) 8 : Int) + d)))

/-- The UDP checksum over a changed PTP message (R58); none over IPv4 stays none. -/
def udpFix (old new : Bytes) (hs : List Hdr) (h : Hdr) : Bytes :=
  match ptpUdp hs h with
  | none => new
  | some u =>
    if beN new (u.off + 6) 2 = 0 then new
    else
      let b := ckUpdate new (u.off + 6) (old.drop h.off) (new.drop h.off)
      if beN b (u.off + 6) 2 = 0 then splice b (u.off + 6) (beB 2 0xFFFF) else b

/-- Signed value of a lane's ASYM. -/
def State.asym (s : State) (lane : Nat) : Int := sx 32 (s.rd (F.WRS_LANE_ASYM.at lane))

/-- On ingress of Sync and Pdelay_Resp the lane's ASYM is added (R57, log entry 47). -/
def State.ptpIngress (s : State) (p : Pkt) : Pkt :=
  match ptpHdr p.hdrs with
  | none => p
  | some h =>
    if s.ptpMode p.port ≠ 0 ∧ !p.badFcs ∧ ptpEvent p.bytes p.hdrs h ∧ (ptpType p.bytes h = 0 ∨ ptpType p.bytes h = 3) then
      { p with bytes := udpFix p.bytes (addCorr p.bytes h (s.asym p.lane)) p.hdrs h }
    else p

/-- PTP work on a frame that leaves by a port with egress stamp `e` on `lane`: two-step capture, one-step insertion,
residence time, link delay and asymmetry (R53–R58). -/
def State.ptpEgress (s : State) (port lane e : Nat) (p : Pkt) (hs : List Hdr) : State × Bytes :=
  match ptpHdr hs with
  | none => (s, p.bytes)
  | some h =>
    let b := p.bytes
    let m := s.ptpMode port
    let t := ptpType b h
    if m = 0 ∨ p.badFcs ∨ ¬ ptpEvent b hs h then (s, b) else
    let s1 := if m = 1 then s.tsfPush ⟨byteN b (h.off + 4), port, t, beN b (h.off + 30) 2, e⟩ else s
    let w := timeWords e
    let b1 := if m = 2 ∧ t = 0 then
        splice (addCorr b h (e % 65536 : Nat)) (h.off + 34)
          (beB 6 ((w.getD 3 0).toNat * 2 ^ 32 + (w.getD 2 0).toNat) ++ beB 4 (w.getD 1 0).toNat)
      else b
    let b2 := if 3 ≤ m ∧ p.stamped then
        let res := sx 53 (compactDiff (compact e) (compact p.stamp)) * 2048
        let ld : Int := if m = 4 ∧ t = 0 ∧ p.port < 146 then (s.rd (F.WRS_PORT_LDLY_LDLY.at p.port) : Nat) else 0
        addCorr b1 h (res + ld)
      else b1
    let b3 := if t = 1 ∨ t = 2 then addCorr b2 h (- s.asym lane) else b2
    (s1, if b3 = b then b else udpFix b b3 hs h)

/-! ### Egress queues (R378) -/

/-- Egress scheduling state of a port. -/
def State.egp (s : State) (p : Nat) : EgPort := mget (fun _ => {}) s.eport p

/-- Update it. -/
def State.egpUpd (s : State) (p : Nat) (f : EgPort → EgPort) : State := { s with eport := mupd (fun _ => {}) s.eport p f }

/-- The port exists as an egress port: line, tether or packet channel (R192). -/
def egPortOk (p : Nat) : Bool := decide (p < 146) || (decide (256 ≤ p) && decide (p < 400))

/-- The adjacency a frame is edited with. -/
def EgrFrame.adj (f : EgrFrame) : Nat := f.adjOver.getD f.p.adj

/-- A frame ends in the egress buffer: the adjacency count falls (R234). -/
def State.egEnd (s : State) (f : EgrFrame) : State := if f.plain then s else s.inflightDec true f.adj

/-- Frames of class `c` that port `p` has planned: the first ones of its queue (R396). -/
def State.planCnt (s : State) (p c : Nat) : Nat := ((s.pst p).planned.filter (fun x => x.cls == c)).length

/-- The frames of an egress queue that are not planned yet, head first. -/
def State.eqRest (s : State) (p c : Nat) : List EgrFrame := (s.eq p c).drop (s.planCnt p c)

/-- Remove the head of an egress queue. -/
def State.egPop (s : State) (p c : Nat) : State := s.eqSet p c (s.eq p c).tail

/-- Remove the first frame that is not planned. -/
def State.egDrop (s : State) (p c : Nat) : State :=
  let n := s.planCnt p c
  s.eqSet p c ((s.eq p c).take n ++ (s.eq p c).drop (n + 1))

/-- A frame enters egress queue (p, c), or is dropped for a flushed port (R362) or for want of a queue (log entry 46). -/
def State.egEnter (s : State) (p c : Nat) (f : EgrFrame) : State :=
  if !egPortOk p then s
  else if p < 146 ∧ s.on (F.ADM_EPORT_FLUSHED.at p) then s.cnt (R.ADM_PORT_CNT.at p) 0x10
  else
    let f : EgrFrame := { f with entry := stamp16 s.t16 }
    let s := if f.plain then s else s.inflightInc true f.adj
    s.eqSet p c (s.eq p c ++ [f])

/-- The egress buffer takes `n` more cells. -/
def State.egRoom (s : State) (n : Nat) : Bool :=
  decide (n ≤ s.poolFree 1) && decide (s.rd F.FAB_EGR_STATUS_COMMITTED + n ≤ cells1)

/-- The port may start frames: LINK 1, the raw state up and no hold (R149, R361), the bypass open where it is in use (R156), the mode RUN. -/
def State.portTx (s : State) (p : Nat) : Bool :=
  if p < 146 then
    s.mayStartFrame p && !s.on (F.ADM_EPORT_HOLDING.at p) && s.inMode mRUN
    && (!isTether p || !s.on (fBypEn (p - 144)) || s.byp (p - 144) == bOPEN)
  else egPortOk p && s.inMode mRUN && s.on ((F.OTN_PC_CFG_EN.on ((p - 256) / 8)).at ((p - 256) % 8))

/-- Class `t` of a port is paused for a frame whose first bit leaves at `t16` (R153): the pause began more than 100 ns
before. -/
def State.pausedAt (s : State) (p t t16 : Nat) : Bool :=
  s.pauses.any (fun x => x.port == p && s.priTc p x.pri == t && decide (x.start + 100 * 65536 < t16) && decide (t16 < x.stop))

/-- Transmission time of `n` bytes in ns (R396). -/
def State.txTime (s : State) (p n : Nat) : Nat := (n * 8 + s.rate p - 1) / max 1 (s.rate p)

/-- GAT_PORT field of a port; packet channels have none. -/
def State.gatPort (s : State) (f : Fld) (p : Nat) : Nat := if p < 146 then s.rd (f.at p) else 0

/-- P of a head frame, in 2⁻¹⁶ ns (R396). -/
def State.planAt (s : State) (p : Nat) (f : EgrFrame) : Nat :=
  let gal := !f.plain && bitN (s.tw (s.adjAddr f.adj)) 29
  max (stamp16 s.t16 + 650 * 65536 + (if gal then s.gatPort F.GAT_PORT_GAL_ALLOW p * 16 * 65536 else 0)) (s.egp p).busy

/-- T of a head frame in ns. -/
def State.planT (s : State) (p : Nat) (f : EgrFrame) : Nat :=
  s.txTime p (f.p.bytes.length + 24 + s.gatPort F.GAT_PORT_EDIT_ALLOW p)

/-- A frame of `t` ns that starts at `t16` fits the open run of gate (p, c) (R397). -/
def State.gateFits (s : State) (p c t16 t : Nat) : Bool :=
  if 146 ≤ p then true else
  s.gateOpen p c (t16 / 65536) &&
    (match s.gateEnd p c (t16 / 65536) with
     | none => true
     | some e => decide (t16 + t * 65536 + s.gatPort F.GAT_PORT_GUARD p * 65536 ≤ e * 65536))

/-- Key of the egress shaper of (p, c). -/
def egShaper (p c : Nat) : Nat := shpKey 7 (8 * p + c)

/-- State of the egress shaper; COMMITTED while it is not enabled (R383). -/
def State.egShpState (s : State) (p c : Nat) : Nat := if (s.shpI (egShaper p c)).en then s.shpState (egShaper p c) else 0

/-- SCH_EPORT field of class `c`. -/
def epFld (f : Fld) (p c : Nat) : Fld := let g := f.at p; { g with addr := g.addr + 4 * c }

/-- Level of class `c` at its port (R367), none while it is not eligible (R378). -/
def State.egLevel (s : State) (p c : Nat) : Option Nat :=
  match s.eqRest p c with
  | [] => none
  | f :: _ =>
    let at_ := s.planAt p f
    if f.whole && !s.pausedAt p c at_ && s.gateFits p c at_ (s.planT p f) && decide (s.egShpState p c ≠ 2) then
      some (8 * s.egShpState p c + s.rd (epFld F.SCH_EPORT_BAND p c))
    else none

/-- Finish tag, tag last served and level of class `c`. -/
def EgPort.tag (x : EgPort) (c : Nat) : Nat × Nat × Option Nat := mget (fun _ => (0, 0, none)) x.tags c

/-- Finish-tag increment of the head of class `c`. -/
def State.egDelta (s : State) (p c : Nat) : Nat :=
  match s.eqRest p c with
  | [] => 0
  | f :: _ => schDelta (f.p.bytes.length + 4) (max 1 (s.rd (epFld F.SCH_EPORT_WEIGHT p c)))

/-- Bring the classes of a port up to date: one that joins a level takes its tag (R370). -/
def State.egSync (s : State) (p : Nat) : State :=
  foldS (List.range 8) (fun c s =>
    let x := s.egp p
    let (f, fl, lev) := x.tag c
    let new := s.egLevel p c
    if new = lev then s else
    let f := match new with
      | some l => (tagMax (mget (fun _ => 0) x.v l) fl + s.egDelta p c) % 2 ^ 48
      | none => f
    s.egpUpd p (fun x => { x with tags := mset (fun _ => (0, 0, none)) x.tags c (f, fl, new) })) s

/-- The class a port serves next: the first level, the smallest tag, ties to the lowest class. -/
def EgPort.pick (x : EgPort) : Option Nat :=
  (List.range 8).foldl (fun best c => match (x.tag c).2.2 with
    | none => best
    | some l => match best with
      | none => some c
      | some b =>
        let lb := (x.tag b).2.2.getD 0
        if l < lb then some c
        else if l = lb ∧ ¬ notBefore (x.tag c).1 (x.tag b).1 then some c else some b) none

/-- The head of class `c` is LATE (R361): its gate closed between its entry and the rise of LINK. -/
def State.isLate (s : State) (p c : Nat) (f : EgrFrame) : Bool :=
  match (s.pst p).rise, (s.pst p).lastClose.getD c none with
  | some r, some k => decide (f.entry ≤ k) && decide (k < r)
  | _, _ => false

/-- Head frames that never leave are dropped: cut by a gap (R429), LATE (R361), longer than any window of their gate
(R398); `n` bounds them. -/
def State.egTrim (s : State) (p c : Nat) : Nat → State
  | 0 => s
  | n + 1 =>
    match s.eqRest p c with
    | [] => s
    | f :: _ =>
      if f.cut then State.egTrim ((s.egDrop p c).egEnd f) p c n
      else if 146 ≤ p then s
      else if s.isLate p c f then State.egTrim (((s.egDrop p c).egEnd f).cnt (R.ADM_PORT_CNT.at p) 0x08) p c n
      else
        let m := s.gateMax p c
        if f.whole && decide (0 < m) && decide (m < s.planT p f + s.gatPort F.GAT_PORT_GUARD p) && decide (m ≠ 2 ^ 32 - 1) then
          let s := ((s.egDrop p c).egEnd f).cnt (R.GAT_PORT_CNT.at p) 0
          let s := if s.gateSeen then s else { s with gateSeen := true }.gatEvt F.GAT_EVT_OVERSIZE
          State.egTrim s p c n
        else s

/-- A class is served (R370, R390): its level's virtual time and its shaper. -/
def State.egServe (s : State) (p c len : Nat) : State :=
  let (f, _, lev) := (s.egp p).tag c
  let s := s.egpUpd p (fun x => { x with
    v := match lev with | some l => mset (fun _ => 0) x.v l f | none => x.v
    tags := mset (fun _ => (0, 0, none)) x.tags c (f, f, none) })
  let k := egShaper p c
  if (s.shpI k).en then s.shpCharge k (max 1 ((len : Int) + 4 + sx 8 (s.shpI k).adj)).toNat else s

/-- Mark the first frame not planned as chosen. -/
def State.egMark (s : State) (p c : Nat) : State :=
  let n := s.planCnt p c
  { s with egr := mupd (fun _ => []) s.egr (p * 8 + c) (fun l => l.take n ++ ((l.drop n).take 1).map (fun f => { f with chosen := true })
    ++ l.drop (n + 1)) }

/-- A port that can start a frame plans the head frame of the class it serves next and charges its class and shaper for it, once
for each frame (R378, R390, R396, log entry 116). -/
def State.egSelect (s : State) (p : Nat) : State :=
  if !s.portTx p then s else
  let s := (foldS (List.range 8) (fun c s => s.egTrim p c ((s.eq p c).length + 1)) s).egSync p
  match (s.egp p).pick with
  | none => s
  | some c =>
    match s.eqRest p c with
    | [] => s
    | f :: _ =>
      let at_ := s.planAt p f
      let t := s.planT p f
      let s := if f.chosen then s else (s.egServe p c f.p.bytes.length).egMark p c
      (s.pstUpd p (fun x => { x with planned := x.planned ++ [⟨c, at_⟩] })).egpUpd p (fun x => { x with busy := at_ + t * 65536 })

/-! ### Transmission -/

/-- The egress copy of a frame that leaves (R446, R447). -/
def State.mirrorEgress (s : State) (p : Pkt) (port e : Nat) (b : Bytes) : State :=
  if p.copy then s else
  match s.mirEg port with
  | none => s
  | some j =>
    match s.mirTake j with
    | (s, none) => s
    | (s, some seq) =>
      let c : Pkt := { bytes := s.mirBytes j seq p b (some (port, e)), tc := s.rd (F.SVY_MIRROR_TC.at j), copy := true }
      let n := cellsOf c.bytes.length
      let dst := s.rd (F.SVY_MIRROR_PORT.at j)
      if s.egRoom n && egPortOk dst && !(decide (dst < 146) && s.on (F.ADM_EPORT_FLUSHED.at dst)) then
        (s.egEnter dst c.tc { cells := n, p := { c with egrPort := dst }, plain := true }).cnt (R.SVY_MIRROR_CNT.at j) 0
      else s.mirDrop j

/-- A frame with a wrong frame check sequence (R58). -/
def withBadFcs (b : Bytes) : Bytes := b ++ leB 4 (fcs b ^^^ 0xFFFFFFFF)

/-- A frame leaves port `port` with its first bit on `lane`, its first bit now (R51, R52, R54, R439, R453). -/
def State.transmit (s : State) (port lane : Nat) (p : Pkt) : State :=
  let lane := s.portLane port lane
  let (hs, _) := s.parse p.bytes
  let e := s.egressStamp lane
  let (s, b) := s.ptpEgress port lane e p hs
  let b := b ++ zeros (60 - b.length)
  let s := s.emit (.frame port e (if p.badFcs then withBadFcs b else withFcs b))
  let n := b.length + 4
  let s := s.onWire port n false
  let s := if port < 146 then (s.lpt port 8).lpt port 9 n
    else s.cnt ((R.OTN_PC_CNT.on ((port - 256) / 8)).at ((port - 256) % 8)) 0x10
  let s := s.bwAdd port true b.length e
  let s := s.latency p.stream (if p.stamped then some (compact p.stamp) else none) e
  let s := s.sojNote (2 ^ 18 + 8 * port + p.tc) (s.t16 - p.entry)
  let s := match (s.pst port).rise with
    | some r => if port < 146 ∧ p.entry < r then s.cnt (R.ADM_PORT_CNT.at port) 0x18 else s
    | none => s
  s.mirrorEgress p port e b

/-- A frame at the MAC starts at its P, behind a PFC frame that waits (R154); one whose class is paused at its actual start stays at the
MAC (R153); one that starts after its P is checked against its gate from its actual start (R399). -/
def State.macFrame (s : State) (port lane : Nat) (p : Pkt) : State :=
  let s := (s.advanceTo (p.plan * tuFrac)).toBoundary port
  let s := if port < 146 then (s.pfcBoundary port).toBoundary port else s
  if s.pausedAt port p.tc s.t16 then s.egpUpd port (fun x => { x with mac := p :: x.mac })
  else if s.t16 ≤ p.plan then s.transmit port lane p
  else if s.gateFits port p.tc s.t16 (s.txTime port (p.bytes.length + 24)) then s.transmit port lane p
  else (s.cnt (R.GAT_PORT_CNT.at port) 8).gatEvt F.GAT_EVT_GATE_MISSED

/-- A dequeued frame is parsed again, its faults counted (R181, R188), and passes the egress edit (R232–R234): a free adjacency
drops it, GAL sends it to the gallery of its port's slice; a plain copy is not edited. -/
def State.editFrame (s : State) (port lane : Nat) (f : EgrFrame) (p : Pkt) : State :=
  let sl := s.portSlice port
  let (hs, faults) := s.parse p.bytes
  let s := s.countParse sl true faults
  if f.plain then s.macFrame port lane p else
  let w0 := s.tw (s.adjAddr f.adj)
  let s := s.egEnd f
  if bits w0 31 30 = 0 then s.cnt (R.TBL_CNT.at sl) 0x58 else
  let (s, b) := s.editBytes f.adj p.bytes hs
  let p := { p with bytes := b, adj := f.adj }
  if bitN w0 29 then
    let (hs, faults) := s.parse b
    let t := stamp16 s.t16
    { s with galIn := s.galIn ++ [{ p := { p with hdrs := hs, faults := faults, slice := sl }, egr := true, slice := sl, at_ := t }] }
  else s.macFrame port lane p

/-- The first frame a port planned leaves, or the first one back from its gallery whose class is not paused (R54, R378, R399); a class
paused since then keeps its planned frames in their queue (R153). -/
def State.portTransmit (s : State) (port lane : Nat) : State :=
  if !s.portTx port then s else
  match (s.egp port).mac.find? (fun p => !s.pausedAt port p.tc (max p.plan s.t16)) with
  | some p => (s.egpUpd port (fun x => { x with mac := eraseFirst p x.mac })).macFrame port lane p
  | none =>
    match (s.pst port).planned with
    | [] => s
    | pl :: l =>
      match s.eq port pl.cls with
      | [] => s.pstUpd port (fun x => { x with planned := l })
      | f :: _ =>
        if s.pausedAt port pl.cls (max pl.start s.t16) then
          s.pstUpd port (fun x => { x with planned := l.filter (fun y => y.cls != pl.cls) })
        else
        let s := (s.pstUpd port (fun x => { x with planned := l })).egPop port pl.cls
        let p : Pkt := { f.p with egrPort := port, plan := pl.start, entry := f.entry, tc := pl.cls }
        s.editFrame port lane f p

/-! ### Frames of the control cores and of the lull path -/

/-- A tether port may start such a frame: R149, R156 and a mode that carries frames. -/
def State.directTx (s : State) (p : Nat) : Bool :=
  s.mayStartFrame p && (s.inMode mRUN || s.inMode mLULL) && (!s.on (fBypEn (p - 144)) || s.byp (p - 144) == bOPEN)

/-- One of them leaves at the next boundary between frames, with the work of R53–R57 where PTP is applied. -/
def State.directSend (s : State) (port : Nat) (x : Bool × Bytes) : State :=
  let s := s.toBoundary port
  let e := s.egressStamp port
  let (s, b) := if x.1 then
      let (hs, _) := s.parse x.2
      s.ptpEgress port port e { bytes := x.2, port := port } hs
    else (s, x.2)
  let f := withFcs (b ++ zeros (60 - b.length))
  (((s.emit (.frame port e f)).lpt port 8).lpt port 9 f.length).onWire port f.length false

/-- Those that wait leave in order, while the port may start frames. -/
def State.directPump (s : State) (port : Nat) : State :=
  if s.directTx port then
    let l := (s.pst port).direct
    foldS l (fun x s => s.directSend port x) (s.pstUpd port (fun x => { x with direct := [] }))
  else s

/-- A frame without FCS goes to a tether port (R482, R483, R480, R300): it waits while the port may start none (R149, R156). -/
def State.sendDirect (s : State) (port : Nat) (b : Bytes) (ptp : Bool := false) : State :=
  (s.pstUpd port (fun x => { x with direct := x.direct ++ [(ptp, b)] })).directPump port

end Sys2Proof.Machine
end

