-- ==== Sys2Proof/Machine/Fabric.lean ====
section
/-! DEFINITION. Tradewind (R413–R432): cells and links, credit, resequencing, sparing, the local loop, and arrivals at the
egress buffer. -/

namespace Sys2Proof.Machine

/-- Apply `f` to Tradewind's state. -/
def State.fabUpd (s : State) (f : FabState → FabState) : State := { s with fab := f s.fab }

/-- Set a bit of FAB_EVT. -/
def State.fabEvt (s : State) (f : Fld) : State := s.setEvt R.FAB_EVT R.FAB_EVT_EN f (eg 13 0)

/-- Fabric-attached and powered. -/
def State.fabOn (s : State) : Bool := s.on F.FAB_CFG_EN && !s.standalone && s.inMode mRUN

/-! ### Cells (R415–R417, R420) -/

/-- The 272 bytes of a cell with its link numbers. -/
def FCell.bytes (c : FCell) (typ lseq lack : Nat) : Bytes :=
  let h := typ * 2 ^ 94 + b2n c.sop * 2 ^ 93 + b2n c.eop * 2 ^ 92 + c.dst % 2048 * 2 ^ 81 + c.src % 2048 * 2 ^ 70
    + c.seq % 65536 * 2 ^ 54 + lseq % 256 * 2 ^ 46 + lack % 256 * 2 ^ 38 + c.target % 512 * 2 ^ 29 + c.adj % 2 ^ 20 * 2 ^ 9
    + c.last % 256 * 2
  let b := beB 12 h
  let pay := c.pay ++ zeros (256 - c.pay.length)
  b ++ beB 4 (fcs (b ++ pay)) ++ pay

/-- TYPE of a cell. -/
def FCell.typ (c : FCell) : Nat := if c.ctrl then 2 else 1

/-- Descriptor bytes of a packet (log entry 30). -/
def descBytes (x : QPkt) : Bytes :=
  let p := x.p
  (Config.descriptor [compact p.stamp, b2n p.stamped, p.tc, p.colour, p.queue, p.decision, p.port, p.faults,
    b2n p.stream.isSome, p.stream.getD 0, b2n x.adjOver.isSome, x.adjOver.getD 0, p.bytes.length, b2n p.badFcs] ++ zeros 32).take 32

/-- The cells of a selected packet for a destination and target (R416). -/
def packetCells (x : QPkt) (src dst target : Nat) : List FCell :=
  let b := descBytes x ++ x.p.bytes
  (List.range x.cells).map (fun i =>
    { sop := decide (i = 0), eop := decide (i + 1 = x.cells), dst := dst, src := src, target := target
      adj := x.adjOver.getD x.p.adj, last := if i + 1 = x.cells then (b.length - 1) % 256 else 0
      pay := slice b (256 * i) 256 })

/-- A 16-byte control message (R420). -/
def ctrlMsg (typ flags target backlog count : Nat) : Bytes :=
  beB 1 (typ * 16 + flags) ++ beB 1 0 ++ beB 2 target ++ beB 4 (min backlog (2 ^ 32 - 1)) ++ beB 4 (count % 2 ^ 32) ++ zeros 4

/-- A control cell of up to 16 messages is queued for a device. -/
def State.ctrlSend (s : State) (dst : Nat) (msgs : List Bytes) : State :=
  let src := s.rd F.FAB_CFG_DEV_ID
  s.fabUpd (fun f => { f with ctrl := f.ctrl ++ [{ ctrl := true, dst := dst, src := src, pay := msgs.flatten }] })

/-- A list in pieces of 16. -/
def chunks16 (l : List Bytes) : Nat → List (List Bytes)
  | 0 => []
  | n + 1 => if l.isEmpty then [] else l.take 16 :: chunks16 (l.drop 16) n

/-! ### Links (R414, R417, R419, R430, R431) -/

/-- A link. -/
def State.flink (s : State) (i : Nat) : FLink := mget (fun _ => {}) s.fab.links i

/-- Store a link. -/
def State.flinkPut (s : State) (i : Nat) (x : FLink) : State := s.fabUpd (fun f => { f with links := mset (fun _ => {}) f.links i x })

/-- FAB_LINK.STATE: 0 DOWN, 1 TRAINING, 2 SPARE, 3 ACTIVE, 4 FAILED. -/
def State.linkState (s : State) (i : Nat) : Nat := s.rd (F.FAB_LINK_STATE.at i)

/-- Links in a state. -/
def State.linksIn (s : State) (st : Nat) : List Nat := (List.range 192).filter (fun i => s.linkState i == st)

/-- Show FAB_STATUS; falling below MIN_LINKS sets BELOW_MIN (R430). Standalone, no link is there and no event fires (R432). -/
def State.fabShow (s : State) : State :=
  if s.standalone then s else
  let a := (s.linksIn 3).length
  let low := decide (a < s.rd F.FAB_CFG_MIN_LINKS)
  let was := s.on F.FAB_STATUS_BELOW_MIN
  let s := ((s.wr F.FAB_STATUS_ACTIVE a).wr F.FAB_STATUS_SPARES (s.linksIn 2).length).wr F.FAB_STATUS_BELOW_MIN (b2n low)
  if low && !was then s.fabEvt F.FAB_EVT_BELOW_MIN else s

/-- Put a cell on a link: it takes an LSEQ and stays until LACK covers it. -/
def State.putCell (s : State) (i : Nat) (c : FCell) : State :=
  let l := s.flink i
  let s := s.emit (.cell i (c.bytes c.typ l.lseq l.got))
  (s.flinkPut i { l with lseq := (l.lseq + 1) % 256, unack := l.unack ++ [(l.lseq, c)] }).cnt (R.FAB_LINK_CNT.at i) 0x00

/-- The next SEQ of the pair with a destination. -/
def State.takeSeq (s : State) (c : FCell) : State × FCell :=
  let n := mget (fun _ => 0) s.fab.seq c.dst
  (s.fabUpd (fun f => { f with seq := mset (fun _ => 0) f.seq c.dst ((n + 1) % 65536) }), { c with seq := n })

/-- One slot of the next link in rotation (R414, R417, R419): a trained spare carries an IDLE cell; an active link replayed cells
first, then CTRL, cells of a failed link, DATA, and an IDLE cell with 255 cells outstanding or nothing to send. -/
def State.cellSend (s : State) : State :=
  if !s.fabOn then s else
  let l := (List.range 192).filter (fun i => s.linkState i == 3 || s.linkState i == 2)
  match (l.filter (fun i => decide (s.fab.turn ≤ i)) ++ l.filter (fun i => decide (i < s.fab.turn))).head? with
  | none => s
  | some i =>
    let s := s.fabUpd (fun f => { f with turn := i + 1 })
    let x := s.flink i
    if s.linkState i = 2 then s.emit (.cell i (FCell.bytes {} 0 0 x.got)) else
    match x.again with
    | (n, c) :: rest =>
      let s := s.emit (.cell i (c.bytes c.typ n x.got))
      ((s.flinkPut i { x with again := rest }).cnt (R.FAB_LINK_CNT.at i) 0x18).cnt (R.FAB_LINK_CNT.at i) 0x00
    | [] =>
      let idle := s.emit (.cell i (FCell.bytes {} 0 0 x.got))
      if 255 ≤ x.unack.length then idle
      else match s.fab.ctrl, s.fab.again, s.fab.data with
        | c :: rest, _, _ =>
          let (s, c) := (s.fabUpd (fun f => { f with ctrl := rest })).takeSeq c
          (s.putCell i c).cnt R.FAB_CNT 0x10
        | [], c :: rest, _ => (s.fabUpd (fun f => { f with again := rest })).putCell i c
        | [], [], c :: rest =>
          let (s, c) := (s.fabUpd (fun f => { f with data := rest })).takeSeq c
          (s.putCell i c).cnt R.FAB_CNT 0x00
        | [], [], [] => idle

/-- An active link fails (R430): its unacknowledged cells go to the other links, a trained spare is due. -/
def State.linkFail (s : State) (i : Nat) : State :=
  if !s.fabOn || s.linkState i ≠ 3 then s else
  let cells := (s.flink i).unack.map (·.2)
  let s := (s.wr (F.FAB_LINK_STATE.at i) 4).flinkPut i {}
  let sp := (s.linksIn 2).length
  let s := s.fabUpd (fun f => { f with again := f.again ++ cells, spares := min (f.spares + 1) sp })
  (s.fabEvt F.FAB_EVT_LINK_FAIL).fabShow

/-- The lowest trained spare becomes active (R430). -/
def State.spareActivate (s : State) : State :=
  if !s.fabOn || s.fab.spares = 0 then s else
  match (s.linksIn 2).head? with
  | none => s
  | some i =>
    let s := (s.wr (F.FAB_LINK_STATE.at i) 3).fabUpd (fun f => { f with spares := f.spares - 1 })
    (s.fabEvt F.FAB_EVT_SPARE_USED).fabShow

/-- A failed link retrains (R431). -/
def State.linkRetrain (s : State) (i : Nat) (ok : Bool) : State :=
  if !s.fabOn || s.linkState i ≠ 4 || !ok then s else (((s.wr (F.FAB_LINK_STATE.at i) 2).flinkPut i {})).fabShow

/-! ### Credit (R421–R426, R432) -/

/-- Update the account of (source, port). -/
def State.fegUpd (s : State) (src p : Nat) (f : FEg → FEg) : State :=
  s.fabUpd (fun x => { x with eg := mupd (fun _ => {}) x.eg (src * 512 + p) f })

/-- Account of (source, port). -/
def State.feg (s : State) (src p : Nat) : FEg := mget (fun _ => {}) s.fab.eg (src * 512 + p)

/-- OUTSTANDING(p) changes by `+ up − down`; COMMITTED follows (R423). -/
def State.outstanding (s : State) (p up down : Nat) : State :=
  if !egPortOk p then s else
  let f := F.FAB_EPORT_OUTSTANDING.at p
  let down := min down (s.rd f + up)
  (s.wr f (s.rd f + up - down)).wr F.FAB_EGR_STATUS_COMMITTED (s.rd F.FAB_EGR_STATUS_COMMITTED + up - down)

/-- BUFFER(p). -/
def State.bufferOf (s : State) (p : Nat) : Nat := (List.range 8).foldl (fun n c => n + eqCells (s.eq p c)) 0

/-- Room for a grant of G cells to port `p` (R423). -/
def State.grantRoom (s : State) (p : Nat) : Bool :=
  let g := s.rd F.FAB_GRANT_CFG_CELLS
  egPortOk p && decide (s.bufferOf p + s.rd (F.FAB_EPORT_OUTSTANDING.at p) + g ≤ s.rd (F.FAB_EPORT_LIMIT.at p))
  && decide (s.rd F.FAB_EGR_STATUS_COMMITTED + g ≤ cells1)

/-- USED as a REQ carries it: cells sent on the links (log entry 35). -/
def State.usedSent (s : State) (n : Nat) : Nat :=
  let e := s.sent 5 n
  let dst := (s.sent 6 e.parent).dest
  let wait := (s.fab.data.filter (fun c => c.dst == dst && c.target == e.target)).length
  ((s.voqI n).used + 2 ^ 32 - wait % 2 ^ 32) % 2 ^ 32

/-- A REQ of VOQ group `n`. -/
def State.reqMsg (s : State) (n : Nat) (forfeit : Bool) : Bytes :=
  ctrlMsg 1 (b2n forfeit) (s.sent 5 n).target (s.voqBacklog n) (s.usedSent n)

/-- A source sends a REQ when its backlog has changed and is above zero, at most once in 200 ns (R422). -/
def State.reqSend (s : State) (n : Nat) : State :=
  if !s.fabOn || !(s.sent 5 n).en || s.voqBacklog n = 0 || s.voqBacklog n = (s.voqI n).asked then s else
  let s := match (s.voqI n).askedAt with | some t => s.advanceUp (t + 200) | none => s
  let up := s.tb.up
  let b := s.voqBacklog n
  let s := s.voqUpd n (fun v => { v with asked := b, askedAt := some up })
  s.ctrlSend (s.sent 6 (s.sent 5 n).parent).dest [s.reqMsg n false]

/-- The sources that request port `p`, in rotation of SRC after the one granted last; from the lowest SRC before the first grant. -/
def State.requesters (s : State) (p : Nat) : List Nat :=
  let l := (s.fab.eg.filter (fun x => decide (x.1 % 512 = p) && decide (x.2.since < x.2.backlog))).map (fun x => x.1 / 512)
  let last := mget (fun _ => 2048) s.fab.last p
  l.filter (fun i => decide (last < i)) ++ l.filter (fun i => decide (i ≤ last))

/-- The egress side grants G cells to the next requesting source of port `p` (R423). -/
def State.grantSend (s : State) (p : Nat) : State :=
  if !s.fabOn || !s.grantRoom p then s else
  match (s.requesters p).head? with
  | none => s
  | some src =>
    let g := s.rd F.FAB_GRANT_CFG_CELLS
    let s := (s.fegUpd src p (fun e => { e with granted := (e.granted + g) % 2 ^ 32, since := e.since + g })).outstanding p g 0
    let s := s.fabUpd (fun f => { f with last := mset (fun _ => 2048) f.last p src })
    s.ctrlSend src [ctrlMsg 2 0 p 0 (s.feg src p).granted]

/-- Resequencing of a source. -/
def State.frx (s : State) (src : Nat) : FRx := mget (fun _ => {}) s.fab.rx src

/-- Update it. -/
def State.frxUpd (s : State) (src : Nat) (f : FRx → FRx) : State :=
  s.fabUpd (fun x => { x with rx := mupd (fun _ => {}) x.rx src f })

/-- DCRED to a source whose cells have left resequencing (R424). -/
def State.dcredSend (s : State) (src : Nat) : State :=
  let r := s.frx src
  if !s.fabOn || r.returned = r.told then s else
  (s.frxUpd src (fun r => { r with told := r.returned })).ctrlSend src [ctrlMsg 3 0 0 0 r.returned]

/-- Every cumulative count is sent again (R422–R424): REQ of every group with a backlog, GRANT of every pair that holds one,
DCRED to every source. -/
def State.creditRefresh (s : State) : State :=
  if !s.fabOn then s else
  let reqs := ((s.schOf 5).filter (fun n => decide (s.voqBacklog n ≠ 0))).map
    (fun n => ((s.sent 6 (s.sent 5 n).parent).dest, s.reqMsg n false))
  let grants := (s.fab.eg.filter (fun x => x.2.granted != x.2.arrived)).map
    (fun x => (x.1 / 512, ctrlMsg 2 0 (x.1 % 512) 0 x.2.granted))
  let dcr := (s.fab.rx.filter (fun x => s.on (F.FAB_SRC_EN.at x.1))).map (fun x => (x.1, ctrlMsg 3 0 0 0 x.2.returned))
  let all := reqs ++ grants ++ dcr
  let dsts := (all.map (·.1)).eraseDups
  foldS dsts (fun d s =>
    let msgs := (all.filter (fun x => x.1 == d)).map (·.2)
    foldS (chunks16 msgs msgs.length) (fun l s => s.ctrlSend d l) s) s

/-- A VOQ group idle for IDLE_US forfeits its credit (R425, R432). -/
def State.voqForfeit (s : State) (n : Nat) : State :=
  let v := s.voqI n
  match v.idleAt with
  | none => s
  | some t =>
    if v.balance = 0 then s else
    let s := s.advanceUp (t + s.rd F.FAB_GRANT_CFG_IDLE_US * 1000)
    let bal := v.balance
    let s := (s.voqUpd n (fun v => { v with used := (v.used + bal) % 2 ^ 32 })).schUpdate 5 n
    if s.standalone then s.outstanding (s.sent 5 n).target 0 bal
    else (s.cnt R.FAB_CNT 0x48).ctrlSend (s.sent 6 (s.sent 5 n).parent).dest [s.reqMsg n true]

/-- The L5 node that names port `p`, in standalone use. -/
def State.l5For (s : State) (p : Nat) : Option Nat := (s.schOf 5).find? (fun n => (s.sent 5 n).target == p)

/-- The local loop is granted credit for port `p` (R432). -/
def State.loopGrant (s : State) (p : Nat) : State :=
  if !s.standalone || !s.inMode mRUN || !s.grantRoom p then s else
  match s.l5For p with
  | none => s
  | some n =>
    if s.voqBacklog n = 0 then s else
    let g := s.rd F.FAB_GRANT_CFG_CELLS
    let s := ((s.voqUpd n (fun v => { v with granted := (v.granted + g) % 2 ^ 32 })).voqTouch n).outstanding p g 0
    s.schUpdate 5 n

/-- A GRANT from device `dev` for TARGET `p` (R421). -/
def State.grantIn (s : State) (dev p count : Nat) : State :=
  match (s.schOf 5).find? (fun n => (s.sent 5 n).target == p && (s.sent 6 (s.sent 5 n).parent).dest == dev) with
  | none => s
  | some n => ((s.voqUpd n (fun v => { v with granted := count })).voqTouch n).schUpdate 5 n

/-- A DCRED from device `dev` (R421, R424). -/
def State.dcredIn (s : State) (dev count : Nat) : State :=
  match (s.schOf 6).find? (fun o => (s.sent 6 o).dest == dev) with
  | none => s
  | some o => { s with sq := { s.sq with returned := mset (fun _ => 0) s.sq.returned o count } }

/-- A REQ from device `dev` for port `p` (R426): its account is reconciled with USED. -/
def State.reqIn (s : State) (dev p backlog used : Nat) : State :=
  let e := s.feg dev p
  let lost := (used + 2 ^ 32 - e.arrived) % 2 ^ 32
  let lost := if lost < 2 ^ 31 then lost else 0
  let s := s.fegUpd dev p (fun e => { e with arrived := used, backlog := backlog, since := 0 })
  if lost = 0 then s else (s.outstanding p 0 lost).cnt R.FAB_CNT 0x40 lost

/-- Act on the messages of a control cell (R420). -/
def State.ctrlIn (s : State) (dev : Nat) (pay : Bytes) : State :=
  foldS (List.range 16) (fun i s =>
    let o := 16 * i
    let p := beN pay (o + 2) 2 % 512
    match byteN pay o / 16 with
    | 1 => s.reqIn dev p (beN pay (o + 4) 4) (beN pay (o + 8) 4)
    | 2 => s.grantIn dev p (beN pay (o + 8) 4)
    | 3 => s.dcredIn dev (beN pay (o + 8) 4)
    | _ => s) s

/-! ### Receiving (R428, R429) -/

/-- A cell leaves resequencing. -/
def State.release (s : State) (src : Nat) (c : FCell) : State :=
  if c.ctrl then s.ctrlIn src c.pay else
  let cut := (s.frx src).cut && !c.sop
  let s := if cut && !(s.frx src).counted then s.cnt R.FAB_CNT 0x38 else s
  let s := s.frxUpd src (fun r => { r with
    returned := (r.returned + 1) % 2 ^ 32, mid := !c.eop && !cut, cut := cut, counted := cut })
  let s := s.fegUpd src c.target (fun e => { e with arrived := (e.arrived + 1) % 2 ^ 32 })
  if cut then s.outstanding c.target 0 1
  else s.fabUpd (fun f => { f with arrive := f.arrive ++ [.cell src c] })

/-- Release held cells while the next one is there; `n` bounds them. -/
def State.releaseHeld (s : State) (src : Nat) : Nat → State
  | 0 => s
  | n + 1 =>
    let r := s.frx src
    match mget (fun _ => (none : Option FCell)) r.held r.next with
    | none => s
    | some c =>
      let s := s.frxUpd src (fun r => { r with held := mset (fun _ => none) r.held r.next none, next := (r.next + 1) % 65536 })
      State.releaseHeld (s.release src c) src n

/-- A gap in front of held cells is timed from its appearance. -/
def State.gapWatch (s : State) (src : Nat) (moved : Bool) : State :=
  let up := s.tb.up
  s.frxUpd src (fun r => { r with gapAt := if r.held.isEmpty then none else if moved || r.gapAt.isNone then some up else r.gapAt })

/-- A DATA or CTRL cell from a link enters resequencing (R428). -/
def State.reseq (s : State) (c : FCell) : State :=
  if !s.on (F.FAB_SRC_EN.at c.src) then s.cnt R.FAB_CNT 0x50 else
  let s := s.cnt R.FAB_CNT (if c.ctrl then 0x18 else 0x08)
  let r := s.frx c.src
  let d := (c.seq + 65536 - r.next) % 65536
  if 32768 ≤ d ∨ (mget (fun _ => (none : Option FCell)) r.held c.seq).isSome then s.cnt R.FAB_CNT 0x20
  else if s.rd (F.FAB_SRC_WIN.at c.src) + (if c.ctrl then 16 else 0) ≤ d then
    let s := s.cnt R.FAB_CNT 0x28
    if s.fab.overSeen then s
    else (s.fabUpd (fun f => { f with overSeen := true })).fabEvt F.FAB_EVT_RSQ_OVERRUN
  else
    let s := s.frxUpd c.src (fun r => { r with held := mset (fun _ => none) r.held c.seq (some c) })
    (s.releaseHeld c.src ((s.frx c.src).held.length + 1)).gapWatch c.src (decide (d = 0))

/-- Read a cell's header fields (R415). -/
def cellOf (b : Bytes) (d : Option Descr) : FCell :=
  let h := beN b 0 12
  { ctrl := decide (bits h 95 94 = 2), sop := bitN h 93, eop := bitN h 92, dst := bits h 91 81, src := bits h 80 70
    seq := bits h 69 54, target := bits h 37 29, adj := bits h 28 9, last := bits h 8 1, pay := b.drop 16, desc := d }

/-- LACK covers the cells up to it. -/
def acked : List (Nat × FCell) → Nat → List (Nat × FCell)
  | l, n => match l.findIdx? (fun x => x.1 == n) with | some i => l.drop (i + 1) | none => l

/-- A cell of 272 bytes arrives on a link (R415, R419, R428). `nak`: the peer's LACK reports an error (log entry 37). -/
def State.cellReceive (s : State) (i : Nat) (b : Bytes) (d : Option Descr) (nak : Bool) : State :=
  let typ := byteN b 0 / 64
  let h := beN b 0 12
  if !s.fabOn || b.length ≠ 272 || (s.linkState i ≠ 3 && s.linkState i ≠ 2) then s
  else if beN b 12 4 ≠ fcs (b.take 12 ++ b.drop 16) ∨ typ = 3 then s.cnt (R.FAB_LINK_CNT.at i) 0x10
  else
    let x := s.flink i
    let un := acked x.unack (bits h 45 38)
    let s := s.flinkPut i { x with unack := un, again := if nak then un else x.again.filter (fun c => un.contains c) }
    if typ = 0 then s
    else
      let s := s.cnt (R.FAB_LINK_CNT.at i) 0x08
      let n := bits h 53 46
      if n ≠ (x.got + 1) % 256 then s
      else (s.flinkPut i { s.flink i with got := n }).reseq (cellOf b d)

/-- The lowest SEQ held by a source, counted from the next one. -/
def FRx.lowest (r : FRx) : Option Nat :=
  r.held.foldl (fun best x => let d := (x.1 + 65536 - r.next) % 65536
    match best with | none => some d | some b => some (min b d)) none

/-- A SEQ missing for tRSQ is skipped and the packet it cut is dropped (R429, log entry 39). -/
def State.gapTimeout (s : State) (src : Nat) : State :=
  let r := s.frx src
  match r.gapAt, r.lowest with
  | some t, some d =>
    let s := s.advanceUp (t + s.rd F.FAB_TIMING_RSQ_NS)
    let s := s.cnt R.FAB_CNT 0x30 d
    let n := (r.next + d) % 65536
    let s := if r.mid then s.cnt R.FAB_CNT 0x38 else s
    let s := if s.fab.lostSeen then s
      else (s.fabUpd (fun f => { f with lostSeen := true })).fabEvt F.FAB_EVT_RSQ_LOST
    let s := (s.frxUpd src (fun r => { r with next := n, cut := true, mid := false, counted := r.mid || r.counted })).fabUpd
      (fun f => { f with arrive := f.arrive ++ [.gap src] })
    (s.releaseHeld src (r.held.length + 1)).gapWatch src true
  | _, _ => s

/-! ### Arrival at the egress buffer (R378, R429, R432) -/

/-- Egress port of an adjacency. -/
def State.adjPort (s : State) (a : Nat) : Nat := bits (s.tw (s.adjAddr a)) 20 12

/-- The first cell of a fabric packet: a frame opens in its egress queue. -/
def State.cellFirst (s : State) (src : Nat) (c : FCell) : State :=
  let d := c.desc.getD { tc := 0, colour := 0, stamp := 0, stamped := false, stream := none, queue := 0, port := 0, faults := 0, adjOver := none, len := 0 }
  let port := s.adjPort c.adj
  let p : Pkt := { bytes := c.pay.drop 32, port := d.port, stamp := d.stamp * 2048, stamped := d.stamped, tc := d.tc % 8
                   colour := d.colour % 4, stream := d.stream, queue := d.queue, faults := d.faults, adj := c.adj, egrPort := port
                   badFcs := d.badFcs, decision := d.decision }
  let p := if c.eop then { p with bytes := p.bytes.take (c.last + 1 - 32) } else p
  let n := (s.eq port p.tc).length
  let s := s.egEnter port p.tc { cells := 1, p := p, src := some src, whole := c.eop }
  let opened := decide (n < (s.eq port p.tc).length) && !c.eop
  s.frxUpd src (fun r => { r with at_ := if opened then some (8 * port + p.tc) else none })

/-- The frame a source has open, at the tail of its queue. -/
def State.openFrame (s : State) (src : Nat) : Option (Nat × Nat × EgrFrame) :=
  match (s.frx src).at_ with
  | none => none
  | some k =>
    match (s.eq (k / 8) (k % 8)).find? (fun f => f.src == some src && !f.whole && !f.cut) with
    | some f => some (k / 8, k % 8, f)
    | none => none

/-- Replace a frame of an egress queue. -/
def State.frameSet (s : State) (p c : Nat) (old new : EgrFrame) : State :=
  s.eqSet p c ((s.eq p c).map (fun (f : EgrFrame) => if f = old then new else f))

/-- A later cell of a fabric packet. -/
def State.cellNext (s : State) (src : Nat) (c : FCell) : State :=
  match s.openFrame src with
  | none => s
  | some (p, t, f) =>
    let pay := if c.eop then c.pay.take (c.last + 1) else c.pay
    let s := s.frameSet p t f { f with cells := f.cells + 1, p := { f.p with bytes := f.p.bytes ++ pay }, whole := c.eop }
    if c.eop then s.frxUpd src (fun r => { r with at_ := none }) else s

/-- A gap cut the packet in progress: its cells are dropped at the head of their queue (R429). -/
def State.cellGap (s : State) (src : Nat) : State :=
  match s.openFrame src with
  | none => s
  | some (p, t, f) => (s.frameSet p t f { f with cut := true }).frxUpd src (fun r => { r with at_ := none })

/-- The next arrival reaches the egress buffer (R378): its port is the adjacency's PORT now; OUTSTANDING falls. -/
def State.egArrive (s : State) : State :=
  match s.fab.arrive with
  | [] => s
  | a :: l =>
    let s := s.fabUpd (fun f => { f with arrive := l })
    match a with
    | .loop x target =>
      let port := s.adjPort (x.adjOver.getD x.p.adj)
      let s := s.outstanding target 0 x.cells
      s.egEnter port x.p.tc { cells := x.cells, p := { x.p with egrPort := port }, adjOver := x.adjOver }
    | .cell src c =>
      let s := s.outstanding c.target 0 1
      if c.sop then s.cellFirst src c else s.cellNext src c
    | .gap src => s.cellGap src

/-- The hierarchy selects a packet (R372) and its cells go to the fabric or the local loop. -/
def State.schedule (s : State) : State :=
  if !s.inMode mRUN then s else
  match s.select with
  | (s, none) => s
  | (s, some (q, x)) =>
    let n5 := s.l5Of q
    let target := (s.sent 5 n5).target
    let s := s.depart q x
    if s.standalone then s.fabUpd (fun f => { f with arrive := f.arrive ++ [.loop x target] })
    else
      let dst := (s.sent 6 (s.sent 5 n5).parent).dest
      let cells := packetCells x (s.rd F.FAB_CFG_DEV_ID) dst target
      s.fabUpd (fun f => { f with data := f.data ++ cells })

end Sys2Proof.Machine
end

