-- ==== Sys2Proof/Machine/Image.lean ====
section
/-! DEFINITION. Images, keys and the boot control record (R106, R110–R121, R126–R130). -/

namespace Sys2Proof.Machine

/-! ### Boot control record and slots (R114, R115) -/

/-- The governing record: the valid one with the higher GEN (R115). -/
def State.bcr (s : State) : Bcr :=
  match bcrRead s.nvm.bcrA, bcrRead s.nvm.bcrB with
  | some a, some b => if a.gen < b.gen then b else a
  | some a, none => a
  | none, some b => b
  | none, none => {}

/-- The entry of image type `k` = 1–4. -/
def Bcr.typ (b : Bcr) (k : Nat) : BcrType :=
  match k with | 1 => b.t1 | 2 => b.t2 | 3 => b.t3 | 4 => b.t4 | _ => {}

/-- Change an entry. -/
def Bcr.upd (b : Bcr) (k : Nat) (f : BcrType → BcrType) : Bcr :=
  match k with
  | 1 => { b with t1 := f b.t1 } | 2 => { b with t2 := f b.t2 } | 3 => { b with t3 := f b.t3 } | 4 => { b with t4 := f b.t4 } | _ => b

/-- Change the entries of a set of types, bit k − 1 for type k. -/
def Bcr.updSet (b : Bcr) (set : Nat) (f : BcrType → BcrType) : Bcr :=
  foldS ((List.range 4).filter (fun i => bitN set i)) (fun i b => b.upd (i + 1) f) b

/-- Types whose entry satisfies a test. -/
def Bcr.setOf (b : Bcr) (f : BcrType → Bool) : Nat :=
  ((List.range 4).filter (fun i => f (b.typ (i + 1)))).foldl (fun n i => n + 2 ^ i) 0

/-- BCR states. -/
def iIDLE : Nat := 0
/-- STAGED. -/
def iSTAGED : Nat := 1
/-- ARMED. -/
def iARMED : Nat := 2
/-- TRIAL. -/
def iTRIAL : Nat := 3

/-- The types in TRIAL. -/
def State.trialSet (s : State) : Nat := s.bcr.setOf (fun t => t.state == iTRIAL)

/-- The types armed with a mode. -/
def State.armedSet (s : State) (mode : Nat) : Nat := s.bcr.setOf (fun t => t.state == iARMED && t.armMode == mode)

/-- An image slot's bytes: those written, or those delivered. -/
def State.imgAt (s : State) (k slot : Nat) : Bytes :=
  match mget (fun _ => (none : Option Bytes)) s.nvm.img (2 * k + slot) with
  | some b => b
  | none => Config.factoryImage (2 * k + slot)

/-- Write an image slot; an empty image is an erased slot. -/
def State.imgPut (s : State) (k slot : Nat) (b : Bytes) : State :=
  { s with nvm := { s.nvm with img := mset (fun _ => none) s.nvm.img (2 * k + slot) (some b) } }

/-- The active and the inactive slot of a type. -/
def State.active (s : State) (k : Nat) : Nat := (s.bcr.typ k).active % 2
/-- The other slot. -/
def State.inactive (s : State) (k : Nat) : Nat := 1 - s.active k

/-- The slot a type runs from: the trial slot while in TRIAL (R124). -/
def State.slotInUse (s : State) (k : Nat) : Nat := if (s.bcr.typ k).state = iTRIAL then s.inactive k else s.active k

/-- Show the record in KPR_IMG and KPR_STATUS (R139). -/
def State.showBcr (s : State) : State :=
  let s := foldS [1, 2, 3, 4] (fun k s =>
    let t := s.bcr.typ k
    let s := (s.wr (F.KPR_IMG_ACTIVE.at (k - 1)) t.active).wr (F.KPR_IMG_STATE.at (k - 1)) t.state
    s.wr (F.KPR_IMG_ARM_MODE.at (k - 1)) t.armMode) s
  (s.wr F.KPR_STATUS_TRIAL (b2n (decide (s.trialSet ≠ 0)))).wr F.KPR_STATUS_UNREADABLE (s.bcr.setFlags % 2)

/-- The first sector holds the governing record. -/
def State.bcrInA (s : State) : Bool := decide (bcrRead s.nvm.bcrA = some s.bcr)

/-- Set what the sector that does not govern holds: nothing once it is erased. -/
def State.bcrSector (s : State) (inA : Bool) (r : Bytes) : State :=
  { s with nvm := if inA then { s.nvm with bcrB := r } else { s.nvm with bcrA := r } }

/-- The sector that does not govern is erased, and a new record written there, GEN one greater (R115). -/
def State.bcrWrite (s : State) (b : Bcr) : State :=
  let inA := s.bcrInA
  let r := bcrBytes { b with gen := s.bcr.gen + 1 }
  ((s.bcrSector inA []).bcrSector inA r).showBcr

/-! ### Verification (R110, R111, R116–R119) -/

/-- All bytes of a range are zero. -/
def zeroAt (b : Bytes) (o n : Nat) : Bool := (slice b o n).all (· == 0)

/-- Largest image of a type, prefix included (R116). -/
def imgMax (k : Nat) : Nat :=
  match k with
  | 1 => 256 * 2 ^ 10 | 2 => 32 * 2 ^ 20 | 3 => 8 * 2 ^ 20 | 4 => 8 * 2 ^ 20 | 5 => 16 * 2 ^ 10 | _ => 0

/-- Section types permitted in an image type (R117). -/
def sectOk (k t : Nat) : Bool :=
  match k with
  | 1 => t == 0x01 | 2 => t == 0x10 || t == 0x11 || t == 0x12 | 3 => t == 0x20 || t == 0x21 | 4 => t == 0x30 | 5 => t == 0x40
  | _ => false

/-- A section of an image. -/
structure Sect where
  typ : Nat
  off : Nat
  len : Nat
  target : Nat
  deriving DecidableEq, Repr

/-- Section `i` of an image. -/
def sectOf (b : Bytes) (i : Nat) : Sect :=
  let o := 0x70 + 16 * i
  ⟨byteN b o, leN b (o + 4) 4, leN b (o + 8) 4, leN b (o + 12) 4⟩

/-- The sections of an image. -/
def sections (b : Bytes) : List Sect := (List.range (leN b 0x38 2)).map (sectOf b)

/-- The bytes of a section. -/
def Sect.bytes (x : Sect) (b : Bytes) : Bytes := slice b (0x2000 + x.off) x.len

/-- No two sections overlap. -/
def disjoint : List Sect → Bool
  | [] => true
  | x :: l => l.all (fun y => decide (x.off + x.len ≤ y.off) || decide (y.off + y.len ≤ x.off)) && disjoint l

/-- Check 1 of R119: MAGIC, HDR_VER, HDR_LEN, sizes, sections, zero fields. -/
def imgFormat (b : Bytes) : Bool :=
  let k := byteN b 0x0C
  let body := leN b 0x30 4
  let n := leN b 0x38 2
  decide (leN b 0 4 = 0x4D494D47) && decide (leN b 4 2 = 1) && decide (leN b 6 2 = 0x200)
  && decide (0x2000 + body ≤ imgMax k) && decide (b.length = 0x2000 + body)
  && decide (leN b 0x0E 2 < 2) && (k == 2 || (decide (leN b 0x14 4 = 0) && decide (leN b 0x34 4 = 0)))
  && decide (1 ≤ n) && decide (n ≤ 8)
  && (List.range 8).all (fun i =>
    let o := 0x70 + 16 * i
    if i < n then
      let x := sectOf b i
      sectOk k x.typ && zeroAt b (o + 1) 3 && decide (x.off % 256 = 0) && decide (x.off + x.len ≤ body)
    else zeroAt b o 16)
  && disjoint (sections b)
  && zeroAt b 0x3A 6 && zeroAt b 0xF0 272 && zeroAt b 0x1EF3 269

/-- The 128-bit unit ID. -/
def State.unitId (s : State) : Nat := (List.range 4).foldl (fun n i => n + (s.rdw (R.KPR_UNIT_ID.addr + 4 * i)).toNat * 2 ^ (32 * i)) 0

/-- KPR_STATUS.LC (R104). -/
def State.lc (s : State) : Nat := s.rd F.KPR_STATUS_LC
/-- BLANK. -/
def lcBLANK : Nat := 0
/-- PROVISIONED. -/
def lcPROV : Nat := 1
/-- FIELD. -/
def lcFIELD : Nat := 2
/-- RETURNED. -/
def lcRET : Nat := 3
/-- SCRAPPED. -/
def lcSCRAP : Nat := 4

/-- Owner slot `i` of the current bank (R106). -/
def State.keySlot (s : State) (i : Nat) : KeySlot :=
  mget (fun _ => {}) s.nvm.owner (4 * s.rd F.KPR_LC_OWNER_BANK + i)

/-- Slot `i` can verify: programmed and not revoked. -/
def State.keyLive (s : State) (i : Nat) : Bool := let k := s.keySlot i; k.prog && !k.revoked

/-- Show the current bank's slots in KPR_LC. -/
def State.showKeys (s : State) : State :=
  let m (f : KeySlot → Bool) : Nat := ((List.range 4).filter (fun i => f (s.keySlot i))).foldl (fun n i => n + 2 ^ i) 0
  (s.wr F.KPR_LC_SLOT_PROG (m (·.prog))).wr F.KPR_LC_SLOT_REVOKED (m (·.revoked))

/-- Change owner slot `i` of the current bank. -/
def State.keyUpd (s : State) (i : Nat) (f : KeySlot → KeySlot) : State :=
  { s with nvm := { s.nvm with owner := mupd (fun _ => {}) s.nvm.owner (4 * s.rd F.KPR_LC_OWNER_BANK + i) f } }.showKeys

/-- KEY_SEL is permitted in the life-cycle state (R104) and the key block has the hash it names (R111). -/
def State.imgKey (s : State) (b : Bytes) : Bool :=
  let k := byteN b 0x0C
  let sel := byteN b 0x0D
  let h := Config.sha384 (slice b 0x200 0xA80)
  let maker := decide (sel = 0) && decide (h = Config.makerKeyHash)
  let owner := decide (1 ≤ sel) && decide (sel ≤ 4) && s.keyLive (sel - 1) && decide (h = (s.keySlot (sel - 1)).hash)
  if k = 5 then (maker || owner) && s.lc != lcSCRAP
  else if s.lc = lcPROV ∨ s.lc = lcFIELD then (if k = 1 then maker else owner)
  else maker && s.lc != lcSCRAP

/-- Both signatures verify over the digest D of bytes 0x0000–0x0C7F, under the keys of the key block: ECDSA P-384 with D as its hash value,
ML-DSA-87 with the 48 bytes of D as its message and an empty context (R110, R116). -/
def imgSigned (b : Bytes) : Bool :=
  let d := Config.sha384 (b.take 0xC80)
  Config.ecdsaP384Ok (slice b 0x200 96) d (slice b 0xC80 96)
    && Config.mlDsa87Ok (slice b 0x260 2592) (beB 48 d) [] (slice b 0xCE0 4627)

/-- Verify an image against type `k` (R119): the number of the first check that fails, 0 when none does. -/
def State.verify (s : State) (k : Nat) (b : Bytes) : Nat :=
  if !imgFormat b then 1
  else if leN b 8 4 ≠ 0x28800001 then 2
  else if byteN b 0x0C ≠ k then 3
  else if leN b 0x20 16 ≠ s.unitId ∧ (k = 5 ∨ leN b 0x20 16 ≠ 0) then 4
  else if !s.imgKey b then 5
  else if !imgSigned b then 6
  else if Config.sha384 (b.drop 0x2000) ≠ beN b 0x40 48 then 7
  else if k ≠ 5 ∧ (64 < leN b 0x10 4 ∨ leN b 0x10 4 < s.rd (F.KPR_SECVER_COUNT.at (k - 1))) then 8
  else 0

/-- STATUS code of a failed check (R119, R138). -/
def verifyCode (n : Nat) : Nat :=
  match n with
  | 0 => 0x00 | 1 => 0x10 | 2 => 0x11 | 3 => 0x10 | 4 => 0x12 | 5 => 0x13 | 6 => 0x14 | 7 => 0x15 | _ => 0x16

/-- A slot of a type verifies. -/
def State.slotGood (s : State) (k slot : Nat) : Bool := decide (s.verify k (s.imgAt k slot) = 0)

/-- SEC_VER of the image in use of type `k` enters KPR_IMG. -/
def State.showSecVer (s : State) (k : Nat) (b : Bytes) : State := s.wr (F.KPR_IMG_ACT_SEC_VER.at (k - 1)) (leN b 0x10 4)

/-! ### Reverts (R126, R127, R129) -/

/-- End a trial in the record: entries IDLE with the reason, KPR_UPD, and the EG0 event; ACTIVE stays. -/
def State.bcrRevert (s : State) (set reason : Nat) : State :=
  let s := s.bcrWrite (s.bcr.updSet set (fun t => { t with state := iIDLE, armMode := 0, revert := reason }))
  let s := ((s.wr F.KPR_UPD_SET set).wr F.KPR_UPD_REASON reason).wr F.KPR_UPD_WIN_LEFT 0
  { s.raise (eg 0 1) with kpr := { s.kpr with winEnd := none } }

/-- A set enters TRIAL: one record with TRIAL and TRIAL_STARTS 1, SET_FLAGS cleared, the non-live half erased as the shadow
(R124, R129). -/
def State.enterTrial (s : State) (set : Nat) (warm : Bool) : State :=
  let first := decide (s.trialSet = 0)
  let b := s.bcr.updSet set (fun t => { t with state := iTRIAL, starts := 1 })
  let s := s.bcrWrite (if first then { b with setFlags := 0 } else b)
  if !first then s else
  let n := if s.bcr.setLive = 0 then { s.nvm with half1 := [] } else { s.nvm with half0 := [] }
  { s with nvm := n, kpr := { s.kpr with trialWarm := warm } }.raise (eg 0 2)

/-- Load the programs of an engine image into gallery `g`: the section whose mask names it; false when there is none that
breaks no rule of R276. -/
def engProg (b : Bytes) (g : Nat) : Option Bytes :=
  ((sections b).find? (fun x => x.typ == 0x20 && bitN x.target g)).map (fun x => x.bytes b)

/-- The lull program of an engine image. -/
def lullProg (b : Bytes) : Option Bytes := ((sections b).find? (fun x => x.typ == 0x21)).map (fun x => x.bytes b)

/-- The SerDes microcode of a field-firmware image (R117, R118). -/
def serdesCode (b : Bytes) : Bytes := ((sections b).filter (fun x => x.typ == 0x12)).flatMap (fun x => x.bytes b)

/-- Load gallery `g` from an engine image (R276, R331); a missing or malformed section, or flues too large (R315), fail the load. -/
def State.loadGal (s : State) (g : Nat) (prog : Option Bytes) : State :=
  match prog with
  | some p => if progOk p && s.fluesFit g then s.galLoad g p else s.galEvt g F.GAL_EVT_LOAD_FAIL
  | none => s.galEvt g F.GAL_EVT_LOAD_FAIL

end Sys2Proof.Machine
end

