-- ==== Sys2Proof/Machine/Otn.lean ====
section
/-! DEFINITION. OTN framing, performance monitoring and the time-slot interchange (chapter 06). -/

namespace Sys2Proof.Machine

/-! ### Arrangements (R160–R162) -/

/-- MODE of an OTN group; 0 is Ethernet. -/
def State.grpMode (s : State) (g : Nat) : Nat := s.rd (F.OTN_GRP_CFG_MODE.at g)

/-- An OTN_IF_CFG field of OIg.k. -/
def ifc (f : Fld) (g k : Nat) : Fld := (f.on g).at k

/-- OIg.k is enabled in an OTN group. -/
def State.ifOn (s : State) (g k : Nat) : Bool := decide (s.grpMode g ≠ 0) && s.on (ifc F.OTN_IF_CFG_EN g k)

/-- Lanes an interface occupies (R160). -/
def State.ifLanes (s : State) (g k : Nat) : Nat :=
  match s.grpMode g with
  | 1 => s.rd (ifc F.OTN_IF_CFG_N g k)
  | 2 => s.rd (ifc F.OTN_IF_CFG_N g k) / 2
  | 3 => 4
  | _ => 0

/-- The interface that holds lane offset `l` of a group. -/
def State.ifOfLane (s : State) (g l : Nat) : Option Nat :=
  (List.range 8).find? (fun k => s.ifOn g k && decide (k ≤ l) && decide (l < k + s.ifLanes g k))

/-- Position `p` of a group exists (R162). -/
def State.posExists (s : State) (g p : Nat) : Bool :=
  let l := p / 40
  let j := p % 40
  match s.ifOfLane g l with
  | none => false
  | some k => match s.grpMode g with
    | 1 => decide (j < 20)
    | 2 => true
    | 3 => decide (j < 20) && decide (l = k)
    | _ => false

/-- A packet channel's field. -/
def pcf (f : Fld) (g c : Nat) : Fld := (f.on g).at c

/-- PCg.c is in use. -/
def State.pcOn (s : State) (g c : Nat) : Bool := decide (s.grpMode g ≠ 0) && s.on (pcf F.OTN_PC_CFG_EN g c)

/-- A position belongs to a packet channel of its group (R173). -/
def State.posInPc (s : State) (g p : Nat) : Bool :=
  (List.range 8).any (fun c => s.pcOn g c && decide (s.rd (pcf F.OTN_PC_CFG_FIRST g c) ≤ p)
    && decide (p < s.rd (pcf F.OTN_PC_CFG_FIRST g c) + s.rd (pcf F.OTN_PC_CFG_COUNT g c)))

/-! ### Alignment and defects (R163–R167) -/

/-- EG6 source of a group's defect changes. -/
def otnSrc (g : Nat) : Nat := eg 6 (g / 2)

/-- Set or clear a defect bit; a change raises the group's source (R164). -/
def State.defect (s : State) (g k : Nat) (f : Fld) (v : Bool) : State :=
  let f := ifc f g k
  if s.on f = v then s else (s.wr f (b2n v)).raise (otnSrc g)

/-- Lock bits of an interface's alignment processes. -/
def State.oif (s : State) (g k : Nat) : OtnIf := mget (fun _ => {}) s.otnIf (g * 8 + k)

/-- Update them. -/
def State.oifUpd (s : State) (g k : Nat) (f : OtnIf → OtnIf) : State :=
  { s with otnIf := mupd (fun _ => {}) s.otnIf (g * 8 + k) f }

/-- Conditions of a packet channel. -/
def State.opc (s : State) (g c : Nat) : OtnPc := mget (fun _ => {}) s.otnPc (g * 8 + c)

/-- Update them. -/
def State.opcUpd (s : State) (g c : Nat) (f : OtnPc → OtnPc) : State :=
  { s with otnPc := mupd (fun _ => {}) s.otnPc (g * 8 + c) f }

/-- Every lane of OIg.k carries a signal. -/
def State.lanesOk (s : State) (g k : Nat) : Bool := s.rd (ifc F.OTN_IF_STATUS_LANE_LOS g k) % 2 ^ s.ifLanes g k == 0

/-- The defects of R167 that fail the interface: dLOS, dLOFLOM, dLOL, dLOF, dLOM, and SM dTIM with TIM_ACT. -/
def State.ifFailed (s : State) (g k : Nat) : Bool :=
  !s.lanesOk g k || s.on (ifc F.OTN_IF_STATUS_LOFLOM g k) || s.on (ifc F.OTN_IF_STATUS_LOL g k)
  || s.on (ifc F.OTN_IF_STATUS_LOF g k) || s.on (ifc F.OTN_IF_STATUS_LOM g k)
  || (s.on (ifc F.OTN_IF_STATUS_TIM g k) && s.on (ifc F.OTN_IF_CFG_TIM_ACT g k))

/-- UP: in multiframe with no defect of R167; a defect that stands counts in the second in progress. -/
def State.ifUp (s : State) (g k : Nat) : State :=
  let s := if s.ifFailed g k then s.oifUpd g k (fun x => { x with seen := true }) else s
  s.wr (ifc F.OTN_IF_STATUS_UP g k) (b2n ((s.oif g k).mfas && !s.ifFailed g k))

/-- Downstream consequence of R167: ODU-AIS goes into every destination slot sourced from the interface. -/
def State.odAis (s : State) (g k : Nat) : Bool := s.ifOn g k && s.ifFailed g k

/-- Upstream consequence of R167: BDI is sent in SM of the interface. -/
def State.bdiTx (s : State) (g k : Nat) : Bool := s.ifOn g k && s.ifFailed g k

/-- PM dTIM with TIM_ACT, or a maintenance signal, on a packet channel's ODU (R167). -/
def State.pcFailed (s : State) (g c : Nat) : Bool :=
  ((s.opc g c).tim && s.on (pcf F.OTN_PC_CFG_TIM_ACT g c)) || (s.opc g c).maint

/-- A packet channel delivers frames (R167): the framer of its interface runs without a failing defect, and its ODU has none. -/
def State.pcDelivers (s : State) (g c : Nat) : Bool :=
  let k := s.rd (pcf F.OTN_PC_CFG_IF g c)
  s.pcOn g c && (s.oif g k).run && !s.ifFailed g k && !s.pcFailed g c

/-- Upstream consequence of R167 for a packet channel: BDI is sent in PM of its ODU. -/
def State.pcBdiTx (s : State) (g c : Nat) : Bool := s.pcOn g c && s.pcFailed g c

/-- A change of a packet channel's conditions; one that fails it counts in the second in progress. -/
def State.pcSet (s : State) (g c : Nat) (f : OtnPc → OtnPc) : State :=
  let s := s.opcUpd g c f
  if s.pcFailed g c then s.opcUpd g c (fun x => { x with seen := true }) else s

/-- In-frame or out of frame: OOF and the time it changed (R163, R164). -/
def State.setFas (s : State) (g k : Nat) (ok : Bool) : State :=
  let up := s.tb.up
  let s := if (s.oif g k).fas = ok then s else s.oifUpd g k (fun x => { x with fas := ok, fasAt := up })
  s.defect g k F.OTN_IF_STATUS_OOF (!ok)

/-- In multiframe or out of it: OOM and the time it changed. -/
def State.setMfas (s : State) (g k : Nat) (ok : Bool) : State :=
  let up := s.tb.up
  let s := if (s.oif g k).mfas = ok then s else s.oifUpd g k (fun x => { x with mfas := ok, mfasAt := up })
  s.defect g k F.OTN_IF_STATUS_OOM (!ok)

/-- FAS and MFAS out of lock. -/
def State.loseFas (s : State) (g k : Nat) : State := (s.setFas g k false).setMfas g k false

/-- The FlexO instance, by lane, that carries OTUC slice `i` (slice 1 is 0). -/
def State.sliceLane (s : State) (g i : Nat) : Nat := if s.grpMode g = 2 then i / 2 else i

/-- The instances of an OTUCn in dLOFLOM: no alignment-marker lock, or a slice offset from slice 1 (R163, R164). -/
def State.lofMask (s : State) (g k : Nat) : Nat :=
  let x := s.oif g k
  (List.range (s.ifLanes g k)).foldl (fun m l =>
    if !bitN x.am l || (List.range 16).any (fun i => s.sliceLane g i == l && bitN x.skew i) then m + 2 ^ l else m) 0

/-- Show dLOFLOM; a change on any instance raises the group's source (R164). -/
def State.showLof (s : State) (g k : Nat) : State :=
  let m := s.lofMask g k
  if (s.oif g k).lof = m then s
  else ((s.oifUpd g k (fun x => { x with lof := m })).wr (ifc F.OTN_IF_STATUS_LOFLOM g k) (b2n (m != 0))).raise (otnSrc g)

/-- A lane out of marker lock: dLOFLOM of its instance, or dLOL, and the processes below it (R163). -/
def State.loseLane (s : State) (g k i : Nat) : State :=
  let s := s.oifUpd g k (fun x => { x with am := if bitN x.am i then x.am - 2 ^ i else x.am, lol := false })
  (if s.grpMode g = 3 then s.defect g k F.OTN_IF_STATUS_LOL true else s.showLof g k).loseFas g k

/-- The framer of an enabled interface starts: no process is in lock (R163, log entry 131). -/
def State.framerStart (s : State) (g k : Nat) : State :=
  if !s.ifOn g k then s else
  let up := s.tb.up
  let s := { s with otnIf := mset (fun _ => {}) s.otnIf (g * 8 + k) { run := true, fasAt := up, mfasAt := up } }
  let s := (s.wr (ifc F.OTN_IF_STATUS_LANE_LOS g k) (2 ^ s.ifLanes g k - 1)).raise (otnSrc g)
  (s.loseLane g k 0).ifUp g k

/-- Every framer starts, with the line lanes. -/
def State.framersStart (s : State) : State :=
  foldS (List.range 18) (fun g s => foldS (List.range 8) (fun k s => s.framerStart g k) s) s

/-- A lane's signal is detected or lost (R163): dLOS, and on a loss every process below it. -/
def State.laneSignal (s : State) (g l : Nat) (ok : Bool) : State :=
  match s.ifOfLane g l with
  | none => s
  | some k =>
    if !(s.oif g k).run then s else
    let f := ifc F.OTN_IF_STATUS_LANE_LOS g k
    let i := l - k
    let v := s.rd f
    if bitN v i = !ok then s else
    let s := (s.wr f (if ok then v - 2 ^ i else setBit v i)).raise (otnSrc g)
    (if ok then s else s.loseLane g k i).ifUp g k

/-- Every process above FAS is in lock. -/
def State.aboveFas (s : State) (g k : Nat) : Bool :=
  s.lanesOk g k && (if s.grpMode g = 3 then (s.oif g k).lol else (s.oif g k).am % 2 ^ s.ifLanes g k == 2 ^ s.ifLanes g k - 1)

/-- Slice `i` is one of OIg.k's other than slice 1, and its instance is in lock (R164). -/
def State.sliceSeen (s : State) (g k i : Nat) : Bool :=
  decide (s.grpMode g ≠ 3) && decide (0 < i) && decide (i < s.rd (ifc F.OTN_IF_CFG_N g k)) && bitN (s.oif g k).am (s.sliceLane g i)

/-- A process goes into lock; it searches only while every process above it is in lock (R163). A slice is aligned to slice 1 again
(R164), and BDI or a packet channel's maintenance signal ends (R167). -/
def State.alignLock (s : State) (g k : Nat) (p : AlignProc) : State :=
  if !(s.oif g k).run then s else
  let s := match p with
    | .lane i =>
      if decide (s.grpMode g ≠ 3) && decide (i < s.ifLanes g k) && !bitN (s.rd (ifc F.OTN_IF_STATUS_LANE_LOS g k)) i then
        (s.oifUpd g k (fun x => { x with am := setBit x.am i })).showLof g k
      else s
    | .laneMarkers =>
      if decide (s.grpMode g = 3) && s.lanesOk g k then
        (s.oifUpd g k (fun x => { x with lol := true })).defect g k F.OTN_IF_STATUS_LOL false
      else s
    | .fas => if s.aboveFas g k then s.setFas g k true else s
    | .mfas => if s.aboveFas g k && (s.oif g k).fas then s.setMfas g k true else s
    | .slice i =>
      if s.sliceSeen g k i then (s.oifUpd g k (fun x => { x with skew := if bitN x.skew i then x.skew - 2 ^ i else x.skew })).showLof g k
      else s
    | .bdi => s.defect g k F.OTN_IF_STATUS_BDI false
    | .maint c => if decide (c < 8) && s.pcOn g c then s.pcSet g c (fun x => { x with maint := false }) else s
  s.ifUp g k

/-- A process loses lock, and the processes below it with it (R163). A slice is found offset from slice 1 by more than 1 frame
(R164), and BDI or a packet channel's maintenance signal begins (R167). -/
def State.alignLoss (s : State) (g k : Nat) (p : AlignProc) : State :=
  if !(s.oif g k).run then s else
  let s := match p with
    | .lane i => if decide (s.grpMode g ≠ 3) && bitN (s.oif g k).am i then s.loseLane g k i else s
    | .laneMarkers => if decide (s.grpMode g = 3) && (s.oif g k).lol then s.loseLane g k 0 else s
    | .fas => if (s.oif g k).fas then s.loseFas g k else s
    | .mfas => if (s.oif g k).mfas then s.setMfas g k false else s
    | .slice i => if s.sliceSeen g k i then (s.oifUpd g k (fun x => { x with skew := setBit x.skew i })).showLof g k else s
    | .bdi =>
      if (s.oif g k).fas then (s.oifUpd g k (fun x => { x with farSeen := true })).defect g k F.OTN_IF_STATUS_BDI true else s
    | .maint c => if decide (c < 8) && s.pcOn g c then s.pcSet g c (fun x => { x with maint := true }) else s
  s.ifUp g k

/-- OOF or OOM, or its absence, has persisted for 3 ms: dLOF or dLOM follows (R164); time passes to that instant. -/
def State.defectPersist (s : State) (g k : Nat) (lom : Bool) : State :=
  if !(s.oif g k).run then s else
  let s := s.advanceUp ((if lom then (s.oif g k).mfasAt else (s.oif g k).fasAt) + 3 * 10 ^ 6)
  let s := if lom then s.defect g k F.OTN_IF_STATUS_LOM (s.on (ifc F.OTN_IF_STATUS_OOM g k))
    else s.defect g k F.OTN_IF_STATUS_LOF (s.on (ifc F.OTN_IF_STATUS_OOF g k))
  s.ifUp g k

/-- Words of a byte string, byte i in bits [8(i mod 4)+7:8(i mod 4)] of word i div 4. -/
def State.wrBytes (s : State) (addr : Nat) : Nat → Bytes → State
  | 0, _ => s
  | n + 1, b => State.wrBytes (s.wrw addr (BitVec.ofNat 32 (leN b 0 4))) (addr + 4) n (b.drop 4)

/-- Bytes of consecutive words. -/
def State.rdBytes (s : State) (addr : Nat) : Nat → Bytes
  | 0 => []
  | n + 1 => leB 4 (s.rdw addr).toNat ++ State.rdBytes s (addr + 4) n

/-- OTN_TTI element `i` of group `g`. -/
def ttiAddr (g i : Nat) : Nat := (((R.OTN_TTI.on g).at i)).addr

/-- dTIM of an accepted TTI under TIM_MODE (R166). -/
def timOf (mode : Nat) (acc exp : Bytes) : Bool :=
  let sapi := slice acc 0 16 != slice exp 0 16
  let dapi := slice acc 16 16 != slice exp 16 16
  match mode with
  | 0 => false
  | 1 => sapi
  | 2 => dapi
  | _ => sapi || dapi

/-- A TTI is accepted (R166): SM of OIg.i for i < 8, PM of PCg.(i − 8) otherwise. -/
def State.ttiAccept (s : State) (g i : Nat) (tti : Bytes) : State :=
  let k := if i < 8 then i else s.rd (pcf F.OTN_PC_CFG_IF g (i - 8))
  let live := if i < 8 then s.ifOn g i else s.pcOn g (i - 8)
  if !live || !(s.oif g k).mfas then s else
  let s := s.wrBytes (ttiAddr g i + 0x80) 16 tti
  let tim := timOf (s.rd (ifc F.OTN_IF_CFG_TIM_MODE g k)) tti (s.rdBytes (ttiAddr g i) 8)
  if i < 8 then (s.defect g i F.OTN_IF_STATUS_TIM tim).ifUp g i
  else s.pcSet g (i - 8) (fun x => { x with tim := tim })

/-! ### Performance monitoring (R168–R172) -/

/-- The end of the second in progress, in SECONDS; one that ends now and is not evaluated yet is that one. -/
def State.nextSecond (s : State) : Nat :=
  let n := s.tb.now / (10 ^ 9 * tuNs)
  if decide (s.tb.now % (10 ^ 9 * tuNs) = 0) && decide (s.pmLast ≠ n) then n else n + 1

/-- A defect that R167 lists, or BDI at the far end, stood in the second for entity `ent` of a group: the second is severely errored
(log entry 131). -/
def State.secDefect (s : State) (g ent : Nat) (far : Bool) : Bool :=
  if ent < 8 then (if far then (s.oif g ent).farSeen else (s.oif g ent).seen)
  else !far && ((s.oif g (s.rd (pcf F.OTN_PC_CFG_IF g (ent - 8)))).seen || (s.opc g (ent - 8)).seen)

/-- The second of one end of entity `k` as observed; `a15` and `aDay` say whether its bins have closed. -/
def State.secOf (s : State) (obs : List PmObs) (k : Nat) (far a15 aDay : Bool) : PmSec :=
  let bad := s.secDefect (k / 16) (k % 16) far
  let q : PmSec := match obs.find? (fun o => o.grp == k / 16 && o.ent == k % 16 && o.far == far) with
    | some o => ⟨if bad || o.ses then 0 else o.bbe, bad || o.es || o.ses, bad || o.ses, 0, 0⟩
    | none => ⟨0, bad, bad, 0, 0⟩
  { q with age := b2n a15, dayAge := b2n (a15 && aDay) }

/-- A new second begins for the defects: those that stand count in it. -/
def State.secBegin (s : State) : State :=
  { s with
    otnIf := s.otnIf.map (fun (x : Nat × OtnIf) => (x.1, { x.2 with
      seen := s.ifFailed (x.1 / 8) (x.1 % 8), farSeen := s.on (ifc F.OTN_IF_STATUS_BDI (x.1 / 8) (x.1 % 8)) }))
    otnPc := s.otnPc.foldl (fun (m : SMap OtnPc) x => mset (fun _ => {}) m x.1 { x.2 with seen := s.pcFailed (x.1 / 8) (x.1 % 8) }) [] }

/-- Time reaches the end of a second, and each end of each entity is evaluated over it (R168); a second that ended at the closing
instant just applied belongs to the bin that closed (R169). Nothing is evaluated while the framers are off. -/
def State.pmSecond (s : State) (obs : List PmObs) : State :=
  if s.inMode mDORMANT || s.inMode mLULL then s else
  let t := s.nextSecond
  let s := s.advanceTo (t * 10 ^ 9 * tuNs)
  let s := s.pmCatchUp s.pmSus (t - 1)
  let late := decide (s.pmLate = some t)
  let day := s.dayCloses t
  let f (x : Nat × PmEnt) : PmEnt :=
    if !x.2.cur.valid then x.2
    else (x.2.second false (s.secOf obs x.1 false late day)).second true (s.secOf obs x.1 true late day)
  { s with pm := s.pm.map (fun (x : Nat × PmEnt) => (x.1, f x)), pmLast := t, pmLate := none : State }.secBegin

/-- A closing instant is reached: time passes to it, and every instant passed is applied in order (R171). In LULL the
instants wait for wake step W6. -/
def State.pmBinClose (s : State) : State :=
  if s.inMode mLULL || s.inMode mDORMANT then s else
  let s := s.advanceTo (s.pmNext * 10 ^ 9 * tuNs)
  s.pmCatchUp s.pmSus (s.ns / 10 ^ 9)

/-- The entities that are enabled have bins from the time they are (R171: SUSPECT). -/
def State.pmInit (s : State) : State :=
  let sec := s.ns / 10 ^ 9
  let ents := (List.range 18).flatMap (fun g => (List.range 16).filterMap (fun i =>
    if i < 8 then (if s.ifOn g i then some (g * 16 + i) else none) else if s.pcOn g (i - 8) then some (g * 16 + i) else none))
  { s with
    pm := ents.map (fun k => (k, { cur := PmBin.fresh sec true, day := PmBin.fresh sec true : PmEnt }))
    pmNext := (sec / 900 + 1) * 900
    pmLast := sec }

/-- Words of a bin as OTN_PM_DATA shows them. -/
def PmBin.words (b : PmBin) : List Nat := [b.start, b2n b.adjusted * 4 + b2n b.suspect * 2 + b2n b.valid] ++ b.cnt

/-- A write of OTN_PM_SEL copies the selected bin (R172). -/
def State.pmSel (s : State) (g ent bin : Nat) : State :=
  let e := mget (fun _ => ({} : PmEnt)) s.pm (g * 16 + ent)
  let b : PmBin := if 15 < ent then {} else if bin = 0 then e.cur else if bin ≤ 16 then e.recent.getD (bin - 1) {}
    else if bin = 17 then e.day else if bin = 18 then e.prev else {}
  let ws := b.words
  foldS (List.range 10) (fun i s => s.wrw ((R.OTN_PM_DATA.at g).addr + 4 * i) (BitVec.ofNat 32 (ws.getD i 0))) s

/-! ### Time-slot interchange (R175–R178) -/

/-- Entries of a TSI page that are not zero: (destination slot, word), in order. -/
def State.tsiPage (s : State) (base : Nat) : List (Nat × Word) :=
  (s.regs.filter (fun e => decide (base ≤ e.1) && decide (e.1 < base + 5760 * 4) && decide ((e.1 - base) % 4 = 0))).map (fun e => ((e.1 - base) / 4, e.2))

/-- A global slot exists (R162). -/
def State.slotOk (s : State) (n : Nat) : Bool := decide (n < 5760) && s.posExists (n / 320) (n % 320)

/-- Check one valid standby entry: 0, or the code of R177. -/
def State.tsiCheck (s : State) (d : Nat) (w : Word) : Nat :=
  let src := bits w.toNat 12 0
  if !bitN w.toNat 31 then 0
  else if !s.slotOk d || !s.slotOk src then 1
  else if s.posInPc (d / 320) (d % 320) || s.posInPc (src / 320) (src % 320) then 2
  else 0

/-- A rejected switch: ERR and ERR_IDX, both pages unchanged, GO clears. -/
def State.tsiReject (s : State) (err idx : Nat) : State :=
  (((s.wr F.TSI_STATUS_ERR err).wr F.TSI_STATUS_ERR_IDX idx).wr F.TSI_CTRL_GO 0).raise (eg 6 10)

/-- A write of 1 to TSI_CTRL.GO (R177, R178). -/
def State.tsiGo (s : State) : State :=
  if s.on F.TSI_STATUS_PENDING then s
  else if !s.running then s.tsiReject 3 0
  else match (s.tsiPage R.TSI_STBY.addr).find? (fun e => s.tsiCheck e.1 e.2 != 0) with
    | some (d, w) => s.tsiReject (s.tsiCheck d w) d
    | none =>
      let n := s.rd64 R.TSI_SW_TICK
      let late := s.tickPassed n
      let s := if late then s.wr F.TSI_STATUS_TICK_LATE 1 else s
      let s := ((s.wr F.TSI_STATUS_PENDING 1).wr F.TSI_STATUS_ERR 0).wr F.TSI_CTRL_GO 1
      let left := (List.range 18).flatMap (fun g => (List.range 8).filterMap (fun k => if s.ifOn g k then some (g * 8 + k) else none))
      { s with tsi := { tick := if late then s.tb.nextTick else n, left := left } }

/-- The destination slots of OIg.k take their standby entries. -/
def State.tsiCopy (s : State) (g k : Nat) (src dst : Nat) : State :=
  let lo := g * 320 + k * 40
  let hi := lo + s.ifLanes g k * 40
  let keep := s.regs.filter (fun e => decide (e.1 < dst + lo * 4) || decide (dst + hi * 4 ≤ e.1))
  let new := (s.regs.filter (fun e => decide (src + lo * 4 ≤ e.1) && decide (e.1 < src + hi * 4))).map
    (fun e => (e.1 - src + dst, e.2))
  { s with regs := new.foldl (fun m (e : Nat × Word) => mset regReset m e.1 e.2) keep }

/-- The first multiframe boundary at or after the switch tick: the interface's standby entries become active (R177). -/
def State.tsiGroup (s : State) (g k : Nat) : State :=
  if s.on F.TSI_STATUS_PENDING && s.tsi.left.contains (g * 8 + k) && s.running && !s.inMode mLULL then
    let s := s.advanceTo (s.tickNs s.tsi.tick * tuNs)
    let s := s.tsiCopy g k R.TSI_STBY.addr R.TSI_ACT.addr
    { s with tsi := { s.tsi with left := s.tsi.left.filter (· ≠ g * 8 + k) } }
  else s

/-- Tick of a switch: an interface out of multiframe, which has no boundary to wait for, switches at once (R178). -/
def State.tsiTick (s : State) (n : Nat) : State :=
  if s.on F.TSI_STATUS_PENDING && decide (s.tsi.tick ≤ n) then
    let now := s.tsi.left.filter (fun x => !(s.oif (x / 8) (x % 8)).mfas)
    let s1 := foldS now (fun x s => s.tsiCopy (x / 8) (x % 8) R.TSI_STBY.addr R.TSI_ACT.addr) s
    { s1 with tsi := { s1.tsi with left := s1.tsi.left.filter (fun x => !now.contains x) } }
  else s

/-- Every group has switched: the new active page is copied to standby and PENDING clears. -/
def State.tsiDone (s : State) : State :=
  if s.on F.TSI_STATUS_PENDING && s.tsi.left.isEmpty then
    let keep := s.regs.filter (fun e => decide (e.1 < R.TSI_STBY.addr) || decide (R.TSI_STBY.addr + 5760 * 4 ≤ e.1))
    let new := (s.tsiPage R.TSI_ACT.addr).map (fun e => (R.TSI_STBY.addr + e.1 * 4, e.2))
    let s := { s with regs := new.foldl (fun m (e : Nat × Word) => mset regReset m e.1 e.2) keep }
    let s := (((s.wr F.TSI_STATUS_PENDING 0).wr F.TSI_STATUS_DONE 1).wr F.TSI_CTRL_GO 0).wr64 R.TSI_SW_DONE_TICK s.tsi.tick
    s.raise (eg 6 9)
  else s

/-- Wake step W6: groups with a switch pending across LULL switch (R178). -/
def State.tsiWake (s : State) : State :=
  if s.on F.TSI_STATUS_PENDING then
    let s1 := foldS s.tsi.left (fun x s => s.tsiCopy (x / 8) (x % 8) R.TSI_STBY.addr R.TSI_ACT.addr) s
    { s1 with tsi := { s1.tsi with left := [] } }
  else s

/-- The content destination slot `d` sends (R167, R175): ODU-AIS from a failed source, OCI-free unequipped content where
no entry is valid, the source slot otherwise. -/
def State.tsiContent (s : State) (d : Nat) : TsiContent :=
  let w := (s.rdw (R.TSI_ACT.at d).addr).toNat
  if !bitN w 31 then .unequipped
  else
    let src := bits w 12 0
    match s.ifOfLane (src / 320) (src % 320 / 40) with
    | none => .unequipped
    | some k => if s.odAis (src / 320) k then .ais else .slot src (bits w 30 24)

end Sys2Proof.Machine
end

