-- ==== Sys2Proof/Machine/Modes.lean ====
section
/-! DEFINITION. Modes (R74–R101, R511, R512, R525–R529, R540–R542): transitions, cold restart, SAFEHOLD, MOD_CMD, LULL,
wake sources, RSQ, supplies and the thermal sensors. -/

namespace Sys2Proof.Machine

/-! ### Transitions and cold restart (R74, R75) -/

/-- Record a transition (MOD_TRANS, MOD_TRANS_TICK) with its event; `tick` is the tick then (R101). -/
def State.trans (s : State) (trig frm to_ tick : Nat) : State :=
  let s := ((s.wr F.MOD_TRANS_TRIGGER trig).wr F.MOD_TRANS_FROM frm).wr F.MOD_TRANS_TO to_
  (s.wr64 R.MOD_TRANS_TICK tick).raise (eg 3 0)

/-- CAD_TICK, 0 with Cadence stopped. -/
def State.transTick (s : State) : Nat := if s.running then s.tick else 0

/-- Words that a cold restart keeps: the always-on MOD_SAFE, MOD_RSQ and thermal sensors 0–7, and what fuses and NVM hold
(R74, R139, R540). -/
def coldKept : List Nat :=
  [R.MOD_SAFE.addr, R.MOD_RSQ.addr, R.MOD_THERM_STATUS.addr, R.KPR_LC.addr, R.KPR_UPD.addr]
  ++ (List.range 8).map (fun i => (R.MOD_THERM_TEMP.at i).addr)
  ++ (List.range 4).map (fun i => R.KPR_UNIT_ID.addr + 4 * i) ++ (List.range 4).map (fun i => (R.KPR_SECVER.at i).addr)

/-- The state after every domain but the always-on logic has been reset (R74, R86): registers at their Reset values. -/
def State.cold (s : State) : State :=
  let regs : SMap Word := coldKept.foldl (fun m a => mset regReset m a (s.rdw a)) []
  let md : ModeState := { porst := s.md.porst, rails := s.md.rails, sysclkBad := s.md.sysclkBad, tcxoBad := s.md.tcxoBad
                          wakeLow := s.md.wakeLow, hot := s.md.hot % 256, coolAt := s.md.coolAt }
  ({ regs := regs, tb := { up := s.tb.up }, nvm := s.nvm, md := md, i2cPtr := s.i2cPtr, tap := s.tap
     out := s.out, free := s.free, pending := s.pending : State }).wr F.KPR_STATUS_LC s.lc

/-- ASCENT begins at step 1 from a cold start (R74, R80); `fault` keeps FAULT_N asserted (R78). -/
def State.startAscent (s : State) (trig : Nat) (fault : Bool) : State :=
  let frm := s.mode
  let tick := if frm = mDORMANT then 0 else s.transTick
  let s := s.cold
  let s := (s.wr F.MOD_STATUS_MODE mASCENT).wr F.MOD_STATUS_STEP 1
  let s := { s with md := { s.md with rsqFault := fault, stepAt := s.tb.up } }
  s.trans trig frm mASCENT tick

/-- PORST_N asserted, a rail undervoltage or a SYSCLK failure: DORMANT (R75, R526, R529). -/
def State.dormant (s : State) : State :=
  let s := s.cold.wr F.MOD_RSQ_COUNT 0
  s.wr F.MOD_STATUS_MODE mDORMANT

/-- Rails in range, SYSCLK stable, PORST_N high and not SCRAPPED: ASCENT starts (R75, R525). -/
def State.mayAscend (s : State) : State :=
  if s.inMode mDORMANT && s.md.porst && s.md.rails == 0 && !s.md.sysclkBad && s.lc != lcSCRAP then s.startAscent 1 false else s

/-! ### Outputs (R78) -/

/-- FAULT_N is asserted. -/
def State.faultN (s : State) : Bool :=
  s.inMode mSAFEHOLD || (s.inMode mDORMANT && s.lc == lcSCRAP) || (s.inMode mASCENT && s.md.rsqFault)

/-- BYP_HB toggles (R98). -/
def State.heartbeat (s : State) : Bool :=
  s.keeperUp && !s.inMode mDORMANT && !(s.inMode mASCENT && decide (s.rd F.MOD_STATUS_STEP < 2))

/-! ### SAFEHOLD (R99) -/

/-- The packets of a gallery that have not been edited: in its input queue and in its threads. -/
def Gal.packets (x : Gal) : List Pkt :=
  x.inq.filterMap (fun y => if y.egr then none else some y.p)
    ++ x.thr.filterMap (fun y => match y.2.pkt with | some k => if k.egr then none else some k.p | none => none)

/-- The packets on the ingress side: in queues, held, on their way over Passage or to a gallery, in galleries. -/
def State.ingressPkts (s : State) : List Pkt :=
  s.sq.q.flatMap (fun x => x.2.map (·.p)) ++ s.adm.hold.flatMap (fun x => x.2.map (·.p)) ++ s.adm.arrive.map (·.p)
    ++ s.galIn.filterMap (fun x => if x.egr then none else some x.p) ++ s.gal.flatMap (fun x => x.2.packets)

/-- Packets in flight, in queues and in threads are lost; the counts of their next-hops and adjacencies fall (R234). -/
def State.dropTraffic (s : State) : State :=
  let s1 := foldS s.ingressPkts (fun p s => s.nhDone p) s
  let s1 := foldS (s.egr.flatMap (·.2)) (fun f s => s.egEnd f) s1
  { s1 with egr := [], eport := [], galIn := [], adm := {}, fab := { s1.fab with data := [], again := [], arrive := [], rx := [] }
            sq := { s1.sq with q := [], flush := none }
            portSt := s1.portSt.map (fun (e : Nat × PortSt) => (e.1, { e.2 with planned := [], direct := [] }))
            gal := s1.gal.map (fun (e : Nat × Gal) => (e.1, { e.2 with
              inq := [], thr := e.2.thr.map (fun (x : Nat × Thr) => (x.1, { x.2 with
                pkt := none, run := if x.2.pkt.isSome then .idle else x.2.run })) })) }

/-- MOD_CMD_RESULT with its event; the command is no longer pending. -/
def State.modResult (s : State) (cmd code : Nat) (late : Bool) : State :=
  let s := ((s.wr F.MOD_CMD_RESULT_TICK_LATE (b2n late)).wr F.MOD_CMD_RESULT_CMD cmd).wr F.MOD_CMD_RESULT_CODE code
  s.raise (eg 3 1)

/-- A pending command, or a LULL entry in progress, is overtaken (R77). -/
def State.overtake (s : State) : State :=
  let s := match s.md.pend with | some p => s.modResult p.cmd 8 p.late | none => s
  let s := match s.md.lullCmd with | some p => s.modResult p.cmd 8 p.late | none => s
  { s with md := { s.md with pend := none, lullCmd := none, passWait := none } }.wr F.MOD_STATUS_CMD_PEND 0

/-- Work of RUN that ends with the mode: command service with what it has not answered (R477), swap, gallery test, transition
phase. -/
def State.endRun (s : State) : State :=
  let s := if s.bist.gt.isSome then s.wr F.BIS_GTEST_STATUS_DONE 1 else s
  let s := { s with md := { s.md with runAt := none }, kpr := { s.kpr with swap := none, armTick := none }
                    bist := { s.bist with gt := none, gtAt := none }
                    ring := { s.ring with rsp := [] }, cmt := { s.cmt with batches := [], singles := [] } }
  let s := (s.wr F.HST_STATUS_SERVING 0).wr F.MOD_STATUS_DP_READY 0
  let s := (s.wr F.MOD_STATUS_PHASE 0).wr F.KPR_STATUS_SWAP_ACTIVE 0
  (s.wr F.BIS_GTEST_STATUS_ACTIVE 0).wr F.BIS_GTEST_CTRL_GO 0

/-- Enter SAFEHOLD with a reason and detail; `rsq` tells that RSQ acts, which switches the tethers off at once (R99). -/
def State.safehold (s : State) (reason detail trig : Nat) (rsq : Bool) : State :=
  let frm := s.mode
  if frm = mDORMANT ∨ frm = mSAFEHOLD then s else
  let s := ((s.bypEnter 0 bCLOSED).bypEnter 1 bCLOSED).linesOff.overtake.endRun
  let s := (s.wr F.MOD_STATUS_STEP 0).wr F.BIS_STATUS_PHASE 0
  let s := (s.wr F.MOD_SAFE_REASON reason).wr F.MOD_SAFE_DETAIL detail
  let s := (s.wr F.MOD_STATUS_MODE mSAFEHOLD).trans trig frm mSAFEHOLD s.transTick
  let s := s.dropTraffic
  if rsq then (s.tetherTx 0 false).tetherTx 1 false
  else let up := s.tb.up; (s.bypT 0 (fun t => { t with hold := some up })).bypT 1 (fun t => { t with hold := some up })

/-- ASCENT step `n` fails (R80). -/
def State.ascentFail (s : State) (n : Nat) : State := s.safehold 1 n 3 false

/-- Passage is declared failed (R20): SAFEHOLD, or after the transition in progress (R77). -/
def State.passageFail (s : State) (dir : Nat) : State :=
  if s.on F.MOD_STATUS_PHASE then { s with md := { s.md with passWait := some dir } } else s.safehold 3 dir 10 false

/-- A flit that failed its CRC is replayed (R20): counted per direction, PASSAGE_REPLAY raised. -/
def State.flitReplay (s : State) (dir : Nat) : State :=
  if s.inMode mDORMANT || s.inMode mLULL then s else
  let md := if dir = 0 then { s.md with replayTm := s.md.replayTm + 1 } else { s.md with replayFe := s.md.replayFe + 1 }
  { s with md := md }.raise (eg 15 5)

/-! ### Keeper failure (R511, R512) -/

/-- A lockstep miscompare (1) or a watchdog expiry (2). -/
def State.keeperFail (s : State) (cause : Nat) : State :=
  if s.inMode mDORMANT then s
  else
    let s := s.wr F.MOD_STATUS_KEEPER_UP 0
    if s.inMode mSAFEHOLD then { s with md := { s.md with held := true } } else
    let s := ((s.bypEnter 0 bCLOSED).bypEnter 1 bCLOSED).linesOff
    let s := ((s.tetherTx 0 false).tetherTx 1 false).wr F.MOD_RSQ_LAST_CAUSE cause
    let n := s.rd F.MOD_RSQ_COUNT
    if n < 3 then (s.wr F.MOD_RSQ_COUNT (n + 1)).startAscent 7 true
    else let s := s.safehold 2 cause 8 true; { s with md := { s.md with held := true } }

/-- After 600 s in RUN without a break MOD_RSQ.COUNT clears (R76). -/
def State.rsqClear (s : State) : State :=
  match s.md.runAt with
  | some t => if s.inMode mRUN then
      let s := (s.advanceUp (t + 600 * 10 ^ 9)).wr F.MOD_RSQ_COUNT 0
      { s with md := { s.md with runAt := none } }
    else s
  | none => s

/-! ### LULL entry (R88, R89) -/

/-- A warm swap is in progress, or a set is armed WARM or in TRIAL. -/
def State.swapBlocks (s : State) : Bool :=
  s.on F.KPR_STATUS_SWAP_ACTIVE || decide (s.armedSet 2 ≠ 0) || decide (s.trialSet ≠ 0)

/-- LULL entry starts: E1 and E2, in which line ports complete the frame in progress. -/
def State.lullEnter (s : State) (p : ModPend) : State :=
  let s := (s.wr F.MOD_STATUS_PHASE 1).raise (eg 3 2)
  { s with md := { s.md with lullCmd := some p, wakeSeen := false } }.linesOff true

/-- A packet on its way to a gallery that a tether port received. -/
def GIn.fromTether (x : GIn) : Bool := !x.egr && isTether x.p.port

/-- Packets that E3 discards: those in queues, on their way over Passage or to a gallery and in the egress buffer; tether frames bound for a gallery count as dropped in E4. -/
def State.queuedPackets (s : State) : Nat :=
  s.sq.q.foldl (fun n x => n + x.2.length) 0 + s.egr.foldl (fun n x => n + x.2.length) 0
    + s.adm.hold.foldl (fun n x => n + x.2.length) 0 + s.adm.arrive.length + (s.galIn.filter (fun x => !x.fromTether)).length

/-- Wake starts: PHASE is WAKING (W1). -/
def State.wakeStart (s : State) : State := (s.wr F.MOD_STATUS_PHASE 2).raise (eg 3 2)

/-- Commits that were due at a tick not acted on before LULL wait for the first tick in RUN (R243). -/
def State.commitsHeld (s : State) : State :=
  { s with cmt := { s.cmt with
      batches := s.cmt.batches.map (fun (b : Batch) => { b with due := none })
      singles := s.cmt.singles.map (fun (q : Single) => { q with due := none }) } }

/-- A pattern swap whose tick passed in LULL takes the next tick, and is late (R90, R272). -/
def State.patLate (s : State) : State :=
  match s.echo.swap with
  | some (m, t) =>
    if t ≠ 0 ∧ t ≤ s.tick then
      let n := s.tb.nextTick
      { s.wr F.PAT_STATUS_TICK_LATE 1 with echo := { s.echo with swap := some (m, n) } }
    else s
  | none => s

/-- LULL entry finishes: E3–E7 (R89). -/
def State.lullEntered (s : State) : State :=
  match s.md.lullCmd with
  | none => s
  | some p =>
    let s := s.svyLull
    let s := s.satInc F.MOD_LULL_FLUSH_COUNT s.queuedPackets
    let s := s.satInc F.MOD_LULL_DROPS_COUNT (s.galIn.filter (fun x => x.fromTether)).length
    let s := foldS (List.range 8) (fun g s =>
      let s := if decide (s.galState g = gSERVICE) then (s.galDrain g).galDrained g gOFF else s
      (s.galOff g).steer g false) s
    let s := s.dropTraffic
    let s := { s with echo := { s.echo with inst := s.echo.inst.map (fun (e : Nat × EchoInst) => (e.1, { e.2 with jobs := [], ready := [] })) } }
    let s := s.loadGal 0 (lullProg s.kpr.eng)
    let s := { s with md := { s.md with lullCmd := none, runAt := none, lullFree := 0 }, kpr := { s.kpr with serdes := [] } }
    let s := ((s.pmSuspect.commitsHeld.wr F.MOD_STATUS_PHASE 0).wr F.MOD_STATUS_DP_READY 0).wr F.MOD_STATUS_MODE mLULL
    (s.trans 4 mRUN mLULL s.transTick).modResult 1 0 p.late

/-- A wake source is recorded in MOD_WAKE_SRC. -/
def State.wakeNote (s : State) (src : Nat) : State :=
  (s.wr F.MOD_WAKE_SRC_SRC (setBit (s.rd F.MOD_WAKE_SRC_SRC) src)).raise (eg 3 9)

/-- A wake source (R92): 0 host, 1 WAKE_N, 2 and 3 a tether wake frame, 4 tick. -/
def State.wake (s : State) (src : Nat) : State :=
  let entering := decide (s.rd F.MOD_STATUS_PHASE = 1)
  if !(s.inMode mLULL || entering) then s else
  let s := s.wakeNote src
  if entering then { s with md := { s.md with wakeSeen := true } }
  else if s.on F.MOD_STATUS_PHASE then s else s.wakeStart

/-! ### MOD_CMD (R75, R88, R100, R101) -/

/-- Carry out an accepted command. -/
def State.modCarry (s : State) (p : ModPend) : State :=
  let s := { s with md := { s.md with pend := none } }.wr F.MOD_STATUS_CMD_PEND 0
  match p.cmd with
  | 1 => s.lullEnter p
  | 2 => (s.wake 0).modResult 2 0 false
  | 3 =>
    let s := ((s.bypShut 0).bypShut 1).linesOff.endRun.dropTraffic
    let s := (s.wr F.MOD_STATUS_MODE mPROBE).wr F.BIS_STATUS_PHASE 5
    let s := { s with md := { s.md with probe := 2, probeCfg := s.rdr R.BIS_PROBE_CFG } }
    let s := foldS (List.range 8) (fun g s => s.galOff g) s
    (s.trans 4 mRUN mPROBE s.transTick).modResult 3 0 false
  | 4 =>
    let s := if s.inMode mSAFEHOLD then s else (s.bypShut 0).bypShut 1
    (((s.bypWait 0).bypWait 1).startAscent 4 false).modResult 4 0 p.late
  | _ => (s.modResult 5 0 false).safehold 5 0 4 false

/-- The code a command is refused with, 0 when none (R88, R100, R101, R501). -/
def State.modRefuse (s : State) (cmd : Nat) (atTick : Bool) : Nat :=
  let m := s.mode
  let busy := s.md.pend.isSome
  let cad := atTick && !s.running
  match cmd with
  | 1 =>
    if m ≠ mRUN then 1 else if busy then 2
    else if !s.on F.MOD_LULL_CFG_LULL_EN then 10
    else if s.swapBlocks then 5
    else if s.on F.BIS_GTEST_STATUS_ACTIVE then 6
    else if s.on F.MOD_LULL_CFG_WAKE_PIN_EN && s.md.wakeLow then 4
    else if cad then 3 else 0
  | 2 => if m = mLULL ∨ s.rd F.MOD_STATUS_PHASE = 1 then 0 else 1
  | 3 => if m ≠ mRUN then 1 else if busy then 2 else if s.on F.BIS_GTEST_STATUS_ACTIVE then 6 else 0
  | 4 =>
    if m ≠ mRUN ∧ m ≠ mLULL ∧ m ≠ mSAFEHOLD then 1 else if busy then 2
    else if s.on F.MOD_THERM_STATUS_TRIP then 9 else if cad then 3 else 0
  | 5 => if m = mSAFEHOLD ∨ m = mDORMANT then 1 else if busy then 2 else 0
  | _ => 11

/-- A command is submitted: overtaken in its cycle (R77), refused, accepted, which clears MOD_RSQ.COUNT for a RESTART in SAFEHOLD (R76), kept for its tick or for the end of a transition, or
carried out. -/
def State.modCmd (s : State) (cmd : Nat) (atTick overtaken : Bool) : State :=
  if s.inMode mDORMANT then s
  else if overtaken then (if cmd = 2 then s.wakeNote 0 else s).modResult cmd 8 false
  else
    let at_ := atTick && (cmd == 1 || cmd == 4)
    let code := s.modRefuse cmd at_
    if code ≠ 0 then s.modResult cmd code false
    else
    let s := if cmd = 4 ∧ s.inMode mSAFEHOLD then s.wr F.MOD_RSQ_COUNT 0 else s
    if cmd = 2 then s.modCarry ⟨2, none, false⟩
    else if at_ then
      let t := s.rd64 R.MOD_CMD_TICK
      let late := s.tickPassed t
      let p : ModPend := ⟨cmd, some (if late then s.tb.nextTick else t), late⟩
      { s with md := { s.md with pend := some p } }.wr F.MOD_STATUS_CMD_PEND 1
    else if s.on F.MOD_STATUS_PHASE then { s with md := { s.md with pend := some ⟨cmd, none, false⟩ } }.wr F.MOD_STATUS_CMD_PEND 1
    else s.modCarry ⟨cmd, none, false⟩

/-- The tick a pending command names has been issued (R88). -/
def State.modTickDue (s : State) : State :=
  match s.md.pend with
  | some ⟨c, some t, l⟩ => if t < s.tb.nextTick ∧ s.running ∧ !s.on F.MOD_STATUS_PHASE then s.modCarry ⟨c, some t, l⟩ else s
  | _ => s

/-- What waited for a transition to end, in the order of R77: a Passage failure, a command, a wake source seen during entry. -/
def State.transEnded (s : State) : State :=
  match s.md.passWait with
  | some d => { s with md := { s.md with passWait := none } }.safehold 3 d 10 false
  | none =>
    let s := match s.md.pend with
      | some ⟨c, none, _⟩ => ({ s with md := { s.md with pend := none } }.wr F.MOD_STATUS_CMD_PEND 0).modCmd c false false
      | _ => s
    if s.md.wakeSeen && s.lull && !s.on F.MOD_STATUS_PHASE then { s with md := { s.md with wakeSeen := false } }.wakeStart else s

/-- The Keeper submits a MOD_CMD of its own (R107, R108, R126, R134): a command that waits is overtaken by it, and it waits for the end of
a transition like any other (log entry 129). -/
def State.keeperCmd (s : State) (cmd : Nat) : State :=
  if s.inMode mDORMANT then s else
  let s := match s.md.pend with
    | some p => ({ s with md := { s.md with pend := none } }.wr F.MOD_STATUS_CMD_PEND 0).modResult p.cmd 8 p.late
    | none => s
  if cmd = 5 ∧ s.inMode mSAFEHOLD then s
  else if cmd = 4 ∧ s.on F.MOD_THERM_STATUS_TRIP then s.modResult 4 9 false
  else if s.on F.MOD_STATUS_PHASE then { s with md := { s.md with pend := some ⟨cmd, none, false⟩ } }.wr F.MOD_STATUS_CMD_PEND 1
  else s.modCarry ⟨cmd, none, false⟩

/-- LULL entry finishes, and what waited for it acts. -/
def State.lullEntryDone (s : State) : State := if s.md.lullCmd.isSome then s.lullEntered.transEnded else s

/-! ### Exit from LULL (R93, R94) -/

/-- A register of a block that is served before RUN (R85). -/
def earlyWord (a : Nat) : Bool := match findBlock regBlocks a with | some b => b.early | none => false

/-- A word of a domain that LULL switches off: all but those served before RUN, GAL0's and the tether ports'. -/
def offWord (a : Nat) : Bool :=
  !earlyWord a && !(decide (0x700000 ≤ a) && decide (a < 0x780000))
  && !(decide (0x3900000 ≤ a) && decide (a < 0x3910000))
  && !(decide (R.LPT_CFG.addr + 144 * 0x1000 ≤ a) && decide (a < R.LPT_CFG.addr + 146 * 0x1000))

/-- Registers whose read-only fields show what a unit of a domain that was off holds: nothing, after a wake. -/
def liveNames : List String :=
  ["LPT_STATUS", "OTN_IF_STATUS", "OTN_PM_DATA", "OTN_TTI", "TBL_LEARN_STATUS", "ACL_STATUS", "SCH_EQ_DEPTH", "ADM_SHARED_USED",
    "ADM_HDRM_USED", "ADM_PG", "ADM_EPORT", "FAB_EGR_STATUS", "FAB_EPORT", "SHP_SWEEP", "SHP_SOJ_DATA", "SVY_BW", "PMC_SFIFO",
    "PMC_SFIFO_STATUS", "CLS_IND_STATUS", "ACL_IND_STATUS", "QUE_IND_STATUS", "SCH_IND_STATUS", "SHP_IND_STATUS", "GAT_IND_STATUS",
    "SVY_IND_STATUS"]

/-- A word of a domain that was off, restored by field firmware (R86, R93): what hardware records or counts is at Reset, what is
configured stands. -/
def wakeWord (a : Nat) (w : Word) : Word :=
  match regRow a with
  | none => w
  | some (r, ix) => r.fields.foldl (fun w f =>
      if f.acc = .w1c ∨ f.acc = .rc ∨ f.acc = .cnt ∨ r.name = "PMC_VAL" ∨ (f.acc = .ro ∧ liveNames.contains r.name) then putBits w f.hi f.lo (fieldReset r ix f) else w) w

/-- A scheduler entry whose domain was off: as configured and empty; its counters, in the table region, stand (R438). -/
def SEnt.woken (x : SEnt) : SEnt := { w0 := x.w0, w1 := x.w1, w2 := x.w2, disc := x.disc, cnt := x.cnt }

/-- The on-die storage of the domains that were off is clear (R86): queues, learn queues, sojourn marks, links, alignment, sample FIFOs,
policers, pauses, latches of gates and streams, held low words and latched high words (R9); registers stand as `wakeWord` says. -/
def State.wakeClear (s : State) : State :=
  let now := s.t16
  { s with
    regs := s.regs.foldl (fun (m : SMap Word) x => mset regReset m x.1 (if offWord x.1 then wakeWord x.1 x.2 else x.2)) []
    held := s.held.filter (fun x => !offWord x.1)
    latch := s.latch.filter (fun x => !offWord x.1)
    learn := {}, look := {}, soj := {}, adm := {}, fab := {}, eport := [], punt := {}, pauses := [], pauseSince := [], pauseFrac := []
    otnIf := [], otnPc := []
    acl := { s.acl with repair := [], row := [] }
    pmcSt := { s.pmcSt with fifo := s.pmcSt.fifo.filter (fun x => x.1 == 0), due := s.pmcSt.due.filter (fun x => x.1 == 0) }
    sq := { ents := s.sq.ents.map (fun (e : Nat × SEnt) => (e.1, e.2.woken)) }
    gate := s.gate.map (fun (e : Nat × GateInst) => (e.1, { e.2 with prev := none, since := now, lastClose := [] }))
    stm := s.stm.map (fun (e : Nat × Stm) => (e.1, { e.2 with
      oversize := false, closed := false, red := false, takeAny := true, recSeq := 0, hist := 0, lastPass := 0 })) }

/-- The image of type `k` in use, when it verifies (R119). -/
def State.imageUp (s : State) (k : Nat) : Option Bytes :=
  let b := s.imgAt k (s.slotInUse k)
  if s.verify k b = 0 then some b else none

/-- W1–W5: domains power up clear; buckets, gates and stream latches start again; Hoard rebuilds its stacks; the engine-program and
field-firmware images are verified, GAL1–GAL7 and the SerDes microcontrollers loaded from them (R93, R118, R119, R400, R438, R505). -/
def State.wakeDomains (s : State) : State :=
  let s := s.wakeClear.shpInitAll.poolsBuild
  let s := foldS (List.range 8) (fun n s => s.echPower n) s
  let img := s.imageUp 3
  let code := match s.imageUp 2 with | some b => serdesCode b | none => []
  let s := { s with kpr := { s.kpr with serdes := code } }
  let s := match img with | some b => { s with kpr := { s.kpr with engPrev := s.kpr.eng, eng := b } } | none => s
  foldS (List.range 7) (fun i s => (s.hrdReclaim (i + 1)).loadGal (i + 1) (img.bind (fun b => engProg b (i + 1)))) s.svyWake

/-- W6: GAL0 drains the lull path, S0 is steered to GAL1, line ports start, RUN is declared (R93, R151, R171, R178). -/
def State.lullExitDone (s : State) : State :=
  if !(s.inMode mLULL) || decide (s.rd F.MOD_STATUS_PHASE ≠ 2) then s else
  let s := s.wakeDomains
  let held := s.galHolds 0 + s.galIn.length
  let s := if held = 0 then s else (s.galCnt 0 0x20 held).galEvt 0 F.GAL_EVT_DRAIN_DROP
  let s := (({ s with galIn := [] }).galOff 0).steer 0 true
  let s := (s.wr F.MOD_STATUS_PHASE 0).wr F.MOD_STATUS_DP_READY 1
  let up := s.tb.up
  let s := { s.wr F.MOD_STATUS_MODE mRUN with md := { s.md with runAt := some up } }
  let s := s.trans 5 mLULL mRUN s.transTick
  let s := s.patLate.tsiWake.pmCatchUp true (s.ns / 10 ^ 9)
  let s := foldS (List.range 144) (fun p s => if s.inUse p then s.startAttempt p else s) s.framersStart
  s.transEnded

/-- GAL0 is loaded with its normal program (R94). -/
def State.gal0Return (s : State) : State :=
  if s.inMode mRUN && s.on (F.GAL_STATUS_STEERED.at 0) && decide (s.galState 0 = gOFF) && s.bist.gt.isNone then
    (s.hrdReclaim 0).loadGal 0 (engProg s.kpr.eng 0)
  else s

/-! ### Supplies and clocks (R525–R529) -/

/-- Rail `i` falls below its UV threshold. -/
def State.railLow (s : State) (i : Nat) : State :=
  { s with md := { s.md with rails := setBit s.md.rails i } }.dormant

/-- Rail `i` is back in range. -/
def State.railOk (s : State) (i : Nat) : State :=
  { s with md := { s.md with rails := if bitN s.md.rails i then s.md.rails - 2 ^ i else s.md.rails } }.mayAscend

/-- SYSCLK fails. -/
def State.sysclkFail (s : State) : State := { s with md := { s.md with sysclkBad := true } }.dormant

/-- SYSCLK is good again. -/
def State.sysclkOk (s : State) : State := { s with md := { s.md with sysclkBad := false } }.mayAscend

/-- TCXO_IN fails: REF_OK[4] clears with its event and both DPLLs hold (R529). -/
def State.tcxoFail (s : State) : State :=
  if s.inMode mDORMANT || s.md.sysclkBad then s else
  let up := s.tb.up
  (({ s with md := { s.md with tcxoBad := true } }.refSee 4 (some up)).setRef 4 false).holdLast

/-! ### Thermal sensors (R540–R542) -/

/-- A temperature word as a signed number. -/
def tempOf (v : Nat) : Int := sx 16 v

/-- A word that says invalid. -/
def tempBad (v : Nat) : Bool := v == 0x8000

/-- Sensor `i` can be read: the HBM sensors once their stack is trained (R540). -/
def State.sensorOn (s : State) (i : Nat) : Bool := decide (i < 8) || s.on (F.BIS_HBM_STATUS_TRAINED.at (i - 8))

/-- The reading of one sensor: TEMP, WARN with its event, and whether it reached the trip threshold. -/
def State.sensorRead (s : State) (i v : Nat) : State :=
  let v := if s.sensorOn i then v else 0x8000
  let s := s.wr (F.MOD_THERM_TEMP_TEMP.at i) v
  let w := s.rd F.MOD_THERM_STATUS_WARN
  let th : Int := s.rd F.MOD_THERM_CFG_WARN
  if tempBad v then s
  else if th ≤ tempOf v ∧ !bitN w i then (s.wr F.MOD_THERM_STATUS_WARN (setBit w i)).raise (eg 3 7)
  else if tempOf v < th - 16 ∧ bitN w i then s.wr F.MOD_THERM_STATUS_WARN (w - 2 ^ i)
  else s

/-- A sensor's last reading is valid and at or above 112 °C. -/
def State.sensorHot (s : State) (i : Nat) : Bool :=
  let v := s.rd (F.MOD_THERM_TEMP_TEMP.at i)
  !tempBad v && decide (896 ≤ tempOf v)

/-- The sensor a trip names (R542): two consecutive readings at the threshold, or a die
of which a sensor was read without a valid one (log entry 126). -/
def State.tripSensor (s : State) (before : Nat) (read : List Nat) : Option Nat :=
  let bad (l : List Nat) : Bool := l.all (fun i => tempBad (s.rd (F.MOD_THERM_TEMP_TEMP.at i)))
  let hit (i : Nat) : Bool := (read.contains i && bitN before i && s.sensorHot i)
    || (i == 0 && read.any (fun k => decide (k < 5)) && bad [0, 1, 2, 3, 4])
    || (i == 5 && read.any (fun k => decide (5 ≤ k) && decide (k < 8)) && bad [5, 6, 7])
  (List.range 16).find? hit

/-- A reading of some sensors (R540–R542). -/
def State.thermal (s : State) (l : List (Nat × Nat)) : State :=
  let before := s.md.hot
  let s := foldS l (fun x s => s.sensorRead x.1 x.2) s
  let hot := (List.range 16).foldl (fun n i => if (if (l.map (·.1)).contains i then s.sensorHot i else bitN before i) then n + 2 ^ i else n) 0
  let cool := (List.range 16).all (fun i =>
    let v := s.rd (F.MOD_THERM_TEMP_TEMP.at i); tempBad v || decide (tempOf v < 776))
  let up := s.tb.up
  let since := if cool then some (s.md.coolAt.getD up) else none
  let s := { s with md := { s.md with hot := hot, coolAt := since } }
  match s.tripSensor before (l.map (·.1)) with
  | none => s
  | some i =>
    let s := if s.on F.MOD_THERM_STATUS_TRIP then s else (s.wr F.MOD_THERM_STATUS_TRIP 1).raise (eg 3 8)
    s.safehold 4 i 9 false

/-- Every valid sensor has read below 97 °C for 1 s: THERM_TRIP_N is released (R542). -/
def State.tripRelease (s : State) : State :=
  match s.md.coolAt with
  | some t => if s.on F.MOD_THERM_STATUS_TRIP then (s.advanceUp (t + 10 ^ 9)).wr F.MOD_THERM_STATUS_TRIP 0 else s
  | none => s

/-! ### Wake sources of time and pin (R92) -/

/-- WAKE_N is low for 1 µs, or high again. -/
def State.wakePin (s : State) (low : Bool) : State :=
  let s := { s with md := { s.md with wakeLow := low } }
  if low && s.on F.MOD_LULL_CFG_WAKE_PIN_EN then s.wake 1 else s

/-- Tick MOD_WAKE_TICK is reached. -/
def State.wakeTick (s : State) : State :=
  if s.on F.MOD_LULL_CFG_WAKE_TICK_EN && s.running && decide (s.rd64 R.MOD_WAKE_TICK ≤ s.tick) then s.wake 4 else s

end Sys2Proof.Machine
end

