-- ==== Sys2Proof/Machine/Ingress.lean ====
section
/-! DEFINITION. Reception (R50, R81, R91, R92, R146, R147, R152, R156–R158) and the ingress pipeline from parser to Passage or
gallery (R179–R215, R253–R256, R264). -/

namespace Sys2Proof.Machine

/-! ### The pipeline -/

/-- What becomes of a packet at the end of the pipeline: Passage or its gallery, a punt, a drop. -/
def State.pipeEnd (s : State) (p : Pkt) (v : Verdict) : State :=
  match v with
  | .drop => s.nhDone p
  | .punt r => (s.nhDone p).puntPacket r p
  | .forward => if p.gal then { s with galIn := s.galIn ++ [{ p := p, egr := false, slice := p.slice, at_ := s.t16 }] } else s.toPassage p

/-- A pass that ends the packet's way through the lookup stage: the ACL over its verdict (R256). -/
def State.passEnd (s : State) (p : Pkt) (prof : Nat) (e : PassEnv) (v : Verdict) : State :=
  let (s, p, v) := s.aclPass p prof e v
  s.pipeEnd p v

/-- The second pass. -/
def State.lastPass (s : State) (p : Pkt) (prof : Nat) (e : PassEnv) : State :=
  match s.lookPass p prof e with
  | (s, p, .done v) => s.passEnd p prof e v
  | (s, p, _) => s.pipeEnd p .drop

/-- Lookup and ACL of a classified packet: a pass that recirculates is followed by the second (R215, R251). The results of a
pass ended by RECIRC_EN are kept for the gallery, and a search of it that is exhausted punts (R259). -/
def State.passes (s : State) (p : Pkt) (e1 e2 : PassEnv) : State :=
  match s.lookPass p p.lkpProf e1 with
  | (s, p, .done v) => s.passEnd p p.lkpProf e1 v
  | (s, p, .lost) => s.pipeEnd p .drop
  | (s, p, .retry) => s.lastPass p p.lkpProf e2
  | (s, p, .again prof) =>
    let (s, q, _, _, lost) := s.aclResults p p.lkpProf e1
    if lost then s.pipeEnd q (.punt 12) else s.lastPass { p with look1 := q.look } prof e2

/-- A received or injected packet through the ingress pipeline of its slice. -/
def State.pipeline (s : State) (p : Pkt) (e1 e2 : PassEnv) : State :=
  let (hs, f) := s.parse p.bytes
  let s := s.countParse p.slice false f
  let p := s.ptpIngress { p with hdrs := hs, faults := f }
  let (s, p, v) := s.classify p
  match v with
  | .drop => s.learnOnly p
  | .punt r => (s.learnOnly p).puntPacket r p
  | .forward => s.passes p e1 e2

/-! ### Reception -/

/-- A port can receive: in use with alignment, or an OTN packet channel that delivers (R167). -/
def State.receives (s : State) (p : Nat) : Bool :=
  if p < 146 then
    s.inUse p && s.on (F.LPT_STATUS_ALIGNED.at p) && !s.inMode mDORMANT
    && !(decide (p < 144) && (s.inMode mLULL || s.on F.MOD_STATUS_PHASE))
  else decide (256 ≤ p) && decide (p < 400) && s.pcDelivers ((p - 256) / 8) ((p - 256) % 8) && !s.inMode mDORMANT
    && !(s.inMode mLULL || s.on F.MOD_STATUS_PHASE)

/-- EtherType after the addresses. -/
def etherType (b : Bytes) : Nat := beN b 12 2

/-- PCP of the outer VLAN tag, 0 when untagged (R91). -/
def outerPcp (b : Bytes) : Nat := if etherType b = 0x8100 ∨ etherType b = 0x88A8 ∨ etherType b = 0x9100 then byteN b 14 / 32 else 0

/-- A tether wake frame (R92). -/
def State.wakeFrame (s : State) (p : Nat) (b : Bytes) : Bool :=
  s.on (if p = 144 then F.MOD_LULL_CFG_WAKE_TP0 else F.MOD_LULL_CFG_WAKE_TP1)
  && decide (etherType b = 0x88B5) && decide (beN b 14 4 = s.rd F.MOD_WAKE_CODE_CODE)

/-- Time in 2⁻¹⁶ ns that a frame of `n` bytes, FCS included, takes of the lull path's rate, at most 10 Gb/s (R91). -/
def State.lullTime (s : State) (n : Nat) : Nat := n * 80 * 65536 / max 1 (min 100 (s.rd F.MOD_LULL_CFG_RATE))

/-- The lull path (R91): PTP messages go to the control cores, with R57 applied, other frames through mask and rate to GAL0: the
aggregate admitted rate never exceeds RATE (log entry 128). -/
def State.lullPath (s : State) (p : Pkt) : State :=
  let (hs, f) := s.parse p.bytes
  let p : Pkt := s.ptpIngress { p with hdrs := hs, faults := f }
  if (ptpHdr hs).isSome then s.emit (.lullCores p.port p.bytes)
  else if !bitN (s.rd F.MOD_LULL_CFG_TC_MASK) (outerPcp p.bytes) || s.rd F.MOD_LULL_CFG_RATE = 0 || decide (s.t16 < s.md.lullFree) then
    s.satInc F.MOD_LULL_DROPS_COUNT
  else
    let free := s.t16 + s.lullTime (p.bytes.length + 4)
    { s with galIn := s.galIn ++ [{ p := { p with gal := true }, egr := false, slice := 0, at_ := s.t16 }]
             md := { s.md with lullFree := free } }

/-- Count a frame of an OTN packet channel (0x00 good, 0x08 discarded). -/
def State.pcCnt (s : State) (p : Nat) (bad : Bool) : State :=
  s.cnt ((R.OTN_PC_CNT.on ((p - 256) / 8)).at ((p - 256) % 8)) (if bad then 8 else 0)

/-- A tether port whose bypass is in use and not OPEN carries no frame (R156). -/
def State.byIdles (s : State) (port : Nat) : Bool := isTether port && s.on (fBypEn (port - 144)) && decide (s.byp (port - 144) ≠ bOPEN)

/-- A good frame that the MAC delivers: tether rules, counting, then the lull path or the pipeline. -/
def State.macDeliver (s : State) (port : Nat) (p : Pkt) (e1 e2 : PassEnv) : State :=
  let b := p.bytes
  let n := port - 144
  if etherType b == 0x88B6 then
    if isTether port && s.on (F.LPT_CTRL_TMGMT_EN.at port) && s.link port && decide (beN b 0 6 = s.rd64 (R.LPT_STATION_ADDR.at port)) then
      s.puntPacket 6 p
    else s.lpt port 5
  else if s.byIdles port then s.lpt port 5
  else
    let s := ((s.lpt port 0).lpt port 1 (b.length + 4)).bwAdd port false b.length p.stamp
    if isTether port && (s.inMode mLULL || decide (s.rd F.MOD_STATUS_PHASE = 1)) && s.wakeFrame port b then
      let s := s.wake (2 + n)
      if s.inMode mLULL then s.emit (.lullCores port b) else s
    else if s.inMode mLULL then s.lullPath p
    else s.pipeline p e1 e2

/-- A frame is received whole, its FCS at its end, on `lane` (R50, R146, R147, R152). -/
def State.receive (s : State) (port lane : Nat) (f : Bytes) (e1 e2 : PassEnv) : State :=
  if !s.receives port then s else
  let lane := s.portLane port lane
  let stamp := s.ingressStamp lane
  let b := f.take (f.length - 4)
  let p : Pkt := { bytes := b, port := port, slice := s.portSlice port, stamp := stamp, stamped := true, lane := lane }
  if 146 ≤ port then
    if f.length < 64 ∨ 9216 < f.length ∨ !fcsGood f ∨ !s.inMode mRUN then s.pcCnt port true
    else if etherType b = 0x8808 then s.pcCnt port true
    else (s.pcCnt port false).bwAdd port false b.length stamp |>.pipeline p e1 e2
  else if f.length < 64 then s.lpt port 3
  else if s.rd (F.LPT_MAC_CFG_MAX_LEN.at port) < f.length then s.lpt port 4
  else
    let up := s.adminUp port && (s.inMode mRUN || s.inMode mLULL)
    if !fcsGood f then
      let (hs, _) := s.parse b
      let ev := match ptpHdr hs with | some h => ptpEvent b hs h | none => false
      let m := s.ptpMode port
      let s := s.lpt port 2
      if ev && (m == 3 || m == 4) && up && s.inMode mRUN && !s.byIdles port then s.pipeline { p with badFcs := true } e1 e2 else s
    else if !up then s.lpt port 5
    else if etherType b = 0x8808 then
      if s.pfcOn port && isPfc b then s.pfcReceive port b stamp else s.lpt port 6
    else s.macDeliver port p e1 e2

/-- A packet reaches a gallery's input: it is given its handle, its Echo scan is requested or skipped, and it is dispatched,
queued or dropped (R264, R275, R306). -/
def State.galleryInput (s : State) (g : Nat) : State :=
  match s.nextArrival g with
  | none => s
  | some x =>
    if s.galState g ≠ gSERVICE then s else
    let s := { s with galIn := eraseFirst x s.galIn }
    let h := (s.galI g).handle + 1
    let s := s.galUpd g (fun y => { y with handle := h })
    let (s, keep) := if x.egr then (s, true) else s.packetScan g h x.p
    if keep then s.galAccept g { x with handle := h } else s.nhDone x.p

end Sys2Proof.Machine
end

