-- ==== Sys2Proof/Machine/EngBase.lean ====
section
/-! DEFINITION. What the engine instructions are built from (R278–R304): register access, the one way an instruction is
issued, ALU functions, comparisons, the header window, metadata, requests. -/

namespace Sys2Proof.Machine

/-! ### Registers and issue -/

/-- A G register of the issuing thread. -/
def State.greg (s : State) (d : Iss) (r : GReg) : Nat := s.rg d.c.g.val d.c.ix r.toNat

/-- Write a G register of the issuing thread. -/
def State.gput (s : State) (d : Iss) (r : GReg) (v : Nat) : State := s.rgSet d.c.g.val d.c.ix r.toNat v

/-- The issuing thread. -/
def State.thrOf (s : State) (d : Iss) : Thr := s.thrI d.c.g.val d.c.ix

/-- Update the issuing thread. -/
def State.thrPut (s : State) (d : Iss) (f : Thr → Thr) : State := s.thrUpd d.c.g.val d.c.ix f

/-- Count a performance event of the issuing thread. -/
def State.pmcOf (s : State) (d : Iss) (ev : Nat) : State := s.pmc d.c.g.val d.c.ix ev

/-- Issue instruction `i`, whose word the thread must fetch (R301, R303). -/
def State.eng (s : State) (d : Iss) (i : Instr) (body : State → State × Ctl) : State :=
  s.issue d ((engWord i).getD 0) body

/-- An instruction that writes `f` of the state to rd. -/
def State.engRd (s : State) (d : Iss) (i : Instr) (rd : GReg) (f : State → Nat) : State :=
  s.eng d i (fun s => (s.gput d rd (f s), .next))

/-! ### ALU (R302–R304) -/

/-- Word size of the general registers. -/
def w64 : Nat := 2 ^ 64

/-- rd = ra − rb. -/
def aluSub (a b : Nat) : Nat := (a + (w64 - b % w64)) % w64

/-- Arithmetic right shift. -/
def aluSra (a n : Nat) : Nat := tc 64 (sx 64 a / (2 ^ (n % 64) : Nat))

/-- Left shift. -/
def aluSll (a n : Nat) : Nat := a * 2 ^ (n % 64) % w64

/-- Right shift. -/
def aluSrl (a n : Nat) : Nat := a / 2 ^ (n % 64)

/-- Left rotation. -/
def aluRol (a n : Nat) : Nat := a * 2 ^ (n % 64) % w64 + a / 2 ^ (64 - n % 64)

/-- Right rotation. -/
def aluRor (a n : Nat) : Nat := aluRol a (64 - n % 64)

/-- Leading zeros of the low `n` bits; 64 of a zero register (log entry 75). -/
def aluClz : Nat → Nat → Nat
  | 0, _ => 0
  | n + 1, a => if a.testBit n then 0 else 1 + aluClz n a

/-- Trailing zeros among `n` bits. -/
def aluCtz : Nat → Nat → Nat
  | 0, _ => 0
  | n + 1, a => if a % 2 = 1 then 0 else 1 + aluCtz n (a / 2)

/-- One bits among the low `n` bits. -/
def popCount : Nat → Nat → Nat
  | 0, _ => 0
  | n + 1, a => a % 2 + popCount n (a / 2)

/-- The low `n` bytes in reverse order. -/
def byteSwap : Nat → Nat → Nat
  | 0, _ => 0
  | n + 1, a => a % 256 * 256 ^ n + byteSwap n (a / 256)

/-- Ones' complement sum of two 16-bit values with the carry folded in. -/
def aluCsum (a b : Nat) : Nat := let x := a % 65536 + b % 65536; x % 65536 + x / 65536

/-- Signed minimum and maximum. -/
def aluMin (a b : Nat) : Nat := if sx 64 a ≤ sx 64 b then a else b
/-- The greater as signed numbers. -/
def aluMax (a b : Nat) : Nat := if sx 64 a ≤ sx 64 b then b else a

/-- An immediate of `w` bits sign-extended to 64 bits. -/
def sext (w n : Nat) : Nat := tc 64 (sx w n)

/-- Condition CC over ra and rb (R302). -/
def condCC (cc a b : Nat) : Bool :=
  match cc with
  | 0 => a == b
  | 1 => a != b
  | 2 => decide (sx 64 a < sx 64 b)
  | 3 => decide (sx 64 b ≤ sx 64 a)
  | 4 => decide (a < b)
  | 5 => decide (b ≤ a)
  | 6 => decide (a &&& b ≠ 0)
  | _ => decide (a &&& b = 0)

/-- CB: how a condition combines with PD (R302). -/
def combine (cb : Nat) (p c : Bool) : Bool :=
  match cb with
  | 0 => c
  | 1 => p && c
  | 2 => p || c
  | _ => p && !c

/-- PF of two predicates (R302). -/
def predFn (pf : Nat) (a b : Bool) : Bool :=
  match pf with
  | 0 => a && b
  | 1 => a || b
  | 2 => a != b
  | 3 => a && !b
  | 4 => a || !b
  | 5 => !(a && b)
  | 6 => true
  | _ => false

/-- A predicate of the issuing thread. -/
def State.pred (s : State) (d : Iss) (p : PReg) : Bool := s.pd d.c.g.val d.c.ix p.toNat

/-- Write a predicate of the issuing thread. -/
def State.predPut (s : State) (d : Iss) (p : PReg) (v : Bool) : State := s.pdSet d.c.g.val d.c.ix p.toNat v

/-- A compare: PD combined with the condition. -/
def State.compare (s : State) (d : Iss) (pd : PReg) (cb cc a b : Nat) : State :=
  s.predPut d pd (combine cb (s.pred d pd) (condCC cc a b))

/-- Bits [pos + lenm1 : pos] of a value. -/
def extract (a pos lenm1 : Nat) : Nat := a / 2 ^ pos % 2 ^ (lenm1 + 1)

/-- They sign-extended. -/
def extractS (a pos lenm1 : Nat) : Nat := sext (lenm1 + 1) (extract a pos lenm1)

/-- A bit-field instruction: FLT_ILLEGAL when POS + LENM1 exceeds 63 (R299). -/
def State.engField (s : State) (d : Iss) (i : Instr) (rd : GReg) (pos lenm1 : State → Nat) (f : State → Nat) : State :=
  s.eng d i (fun s => if 63 < pos s + lenm1 s then (s, .flt 1 0) else (s.gput d rd (f s), .next))

/-- Target of a branch by a signed number of instructions. -/
def branchTo (pc ofs : Nat) : Nat := (((pc : Int) + sx 22 ofs) % 65536).toNat

/-! ### Header window (R283) -/

/-- The packet the issuing thread holds. -/
def State.pktOf (s : State) (d : Iss) : Option GPkt := (s.thrOf d).pkt

/-- Bytes the window holds; none without a packet (log entry 76). -/
def State.hwLen (s : State) (d : Iss) : Nat := match s.pktOf d with | some k => k.hwLen | none => 0

/-- Bytes of the packet in the window. -/
def State.hwBytes (s : State) (d : Iss) : Bytes := match s.pktOf d with | some k => k.p.bytes.take k.hwLen | none => []

/-- Read `n` bytes of the window at `o`, the first byte most significant; those beyond it read zero. -/
def State.hwRead (s : State) (d : Iss) (o n : Nat) : Nat := beN (s.hwBytes d) o n

/-- Write `n` bytes of the window at `o`. -/
def State.hwWrite (s : State) (d : Iss) (o n v : Nat) : State :=
  s.thrPut d (fun x => { x with pkt := x.pkt.map (fun k => { k with p := { k.p with bytes := splice k.p.bytes o (beB n v) } }) })

/-- Window offset of HWL and HWS: OFS10 is unsigned and counts bytes. -/
def State.hwOfs (s : State) (d : Iss) (ra : GReg) (ofs : BitVec 10) : Nat := (s.greg d ra + ofs.toNat) % w64

/-- A delta keeps the sum of all deltas within bounds. -/
def GPkt.mayAdjust (k : GPkt) (dl : Int) : Bool := decide (-(k.hw0 : Int) ≤ k.delta + dl) && decide (k.delta + dl ≤ 128)

/-- HWADJ by `dl`: zero bytes in front, or bytes removed. -/
def GPkt.adjust (k : GPkt) (dl : Int) : GPkt :=
  { k with
    delta := k.delta + dl
    hwLen := ((k.hwLen : Int) + dl).toNat
    p := { k.p with bytes := if 0 ≤ dl then zeros dl.toNat ++ k.p.bytes else k.p.bytes.drop (-dl).toNat } }

/-! ### Metadata (R284) -/

/-- A header's KIND and offset word. -/
def hdrWord (h : Hdr) : Nat := h.kind % 256 * 65536 + h.off % 1024

/-- What MDL reads at an index: none where it faults. -/
def State.mdRead (s : State) (k : GPkt) (idx : Nat) : Option Nat :=
  let p := k.p
  let ing (v : Nat) : Option Nat := if k.egr then none else some v
  if 0x30 ≤ idx ∧ idx ≤ 0x47 then some (match p.hdrs[idx - 0x30]? with | some h => hdrWord h | none => 0)
  else if 0x0D ≤ idx ∧ idx ≤ 0x1A then ing (p.look.getD (idx - 0x0D) 0)
  else if 0x8D ≤ idx ∧ idx ≤ 0x9A then ing (p.look1.getD (idx - 0x8D) 0)
  else if 0x20 ≤ idx ∧ idx ≤ 0x23 then
    if k.egr then some (let a := s.adjAddr p.adj + 32 + 8 * (idx - 0x20); s.tw a + s.tw (a + 4) * 2 ^ 32) else none
  else match idx with
    | 0x00 => some p.bytes.length
    | 0x01 => some (if k.egr then p.egrPort else p.port)
    | 0x02 => some p.slice
    | 0x03 => some (compact p.stamp)
    | 0x04 => some p.tc
    | 0x05 => some p.colour
    | 0x06 => ing p.queue
    | 0x07 => ing p.decision
    | 0x08 => some p.adj
    | 0x09 => ing p.nhUser
    | 0x0A => ing (match p.stream with | some n => 65536 + n | none => 0)
    | 0x0B => some p.faults
    | 0x0C => ing (s.vrf p.port * 65536 + p.lkpProf)
    | 0x2F => some p.hdrs.length
    | _ => none

/-- What MDS writes at an index: none where it faults. `lull`: PORT is writable in the lull program. -/
def mdWrite (lull : Bool) (k : GPkt) (idx v : Nat) : Option GPkt :=
  let p := k.p
  let ing (p : Pkt) : Option GPkt := if k.egr then none else some { k with p := p }
  match idx with
  | 0x01 => if lull then some { k with p := { p with port := v % 512 } } else none
  | 0x04 => ing { p with tc := v % 8 }
  | 0x05 => ing { p with colour := colourOf (v % 4) }
  | 0x06 => ing { p with queue := v % 2 ^ 18 }
  | 0x08 => ing { p with adj := v % 2 ^ 20 }
  | 0x0A => ing { p with stream := if bitN v 16 then some (v % 65536) else none }
  | _ => none

/-! ### Data space (R280–R282) -/

/-- Address of an M-format load or store: the signed offset counts accesses. -/
def State.dataAddr (s : State) (d : Iss) (ra : GReg) (ofs : BitVec 10) (n : Nat) : Nat :=
  (((s.greg d ra : Int) + sx 10 ofs.toNat * n) % (w64 : Int)).toNat

/-- A load of `n` bytes to rd. -/
def State.load (s : State) (d : Iss) (rd : GReg) (a n : Nat) : State × Ctl :=
  let f := memFault d.c.ix a n false
  if f ≠ 0 then (s, .flt f 0) else (s.gput d rd (s.memRd d.c.g.val d.c.ix a n), .next)

/-- A store of `n` bytes; `lost` says that the completion port writes the same scratchpad word in its cycle (R328). -/
def State.store (s : State) (d : Iss) (a n v : Nat) (lost : Bool) : State × Ctl :=
  let g := d.c.g.val
  let i := d.c.ix
  let f := memFault i a n false
  if f ≠ 0 then (s, .flt f 0)
  else if lost && inScratch a n then
    let key := match memKey i a with | some (_, k) => k | none => 0
    (s.writeLost g i (key % 8192 * 8) (s.thrI g i).pc, .next)
  else (s.memWr g i a n v, .next)

/-- ATOM: rd receives the old value, memory the new one; `f` sees old value, rb and rd (R304). -/
def State.engAtom (s : State) (d : Iss) (i : Instr) (rd ra rb : GReg) (dbl : Bool) (f : Nat → Nat → Nat → Nat) : State :=
  s.eng d i (fun s =>
    let g := d.c.g.val
    let n := if dbl then 8 else 4
    let a := s.greg d ra
    let flt := memFault d.c.ix a n true
    if flt ≠ 0 then (s, .flt flt 0) else
    let old := s.memRd g d.c.ix a n
    let new := f old (s.greg d rb % 256 ^ n) (s.greg d rd % 256 ^ n)
    ((s.memWr g d.c.ix a n new).gput d rd old, .next))

/-! ### Requests (R286–R293) -/

/-- Every byte of a range lies in the data space. -/
def inData (i a n : Nat) : Bool := decide (a < 2 ^ 32) && (List.range n).all (fun k => (memKey i (a + k)).isSome)

/-- Read `n` bytes of the data space. -/
def State.dataBytes (s : State) (d : Iss) (a n : Nat) : Bytes := s.memGet d.c.g.val d.c.ix a n

/-- Take the lowest free token for a request and write its number to rd; without one the thread waits (R286). `act` follows
with the token. -/
def State.request (s : State) (d : Iss) (rd : GReg) (r : Req) (act : State → Nat → State) : State × Ctl :=
  match (s.thrOf d).freeTok with
  | none => (s.pmcOf d 0x0E, .stall .full)
  | some n =>
    let s := (s.tokSet d.c.g.val d.c.ix n (some { req := r })).gput d rd n
    (act s n, .next)

/-- A request that completes at once with a status. -/
def State.requestDone (s : State) (d : Iss) (rd : GReg) (status : Nat) : State × Ctl :=
  s.request d rd .off (fun s n => s.tokComplete d.c.g.val d.c.ix n status 0)

/-- Bytes of the result of a lookup kind (R289). -/
def lkpSize (kind : Nat) : Nat := match kind with | 0 => 32 | 2 => 16 | 5 => 64 | _ => 8

/-- Generation of a request (R289): at the packet's ingress stamp, or now. -/
def State.reqGen (s : State) (d : Iss) : Nat :=
  s.genFor (match s.pktOf d with | some k => k.p.stamp | none => stamp16 s.t16)

/-- The request an LKP makes from its key block or index; a table not in use, a key wider than the table's KEY_WIDTH (log
entry 78), an unknown AF and an index out of range are bad arguments. -/
def State.lkpReq (s : State) (d : Iss) (kind tbl a buf : Nat) : LkpReq :=
  let b := if kind ≤ 1 then s.dataBytes d a 24 else []
  let r : LkpReq := { kind := kind, tbl := tbl, key := a, slice := d.c.g.val, vrf := 0, af := 0, gen := s.reqGen d, buf := buf, bad := false }
  match kind with
  | 0 =>
    let key := leN b 0 16
    { r with
      key := key
      slice := if bitN (byteN b 16) 3 then byteN b 16 % 8 else d.c.g.val
      bad := !s.emOn tbl || decide (2 ^ s.rd (F.TBL_EM_CFG_KEY_WIDTH.at tbl) ≤ key) }
  | 1 =>
    let af := byteN b 16
    { r with key := if af = 0 then beN b 0 4 else beN b 0 16, af := af, vrf := leN b 18 2, bad := decide (1 < af) }
  | 3 => { r with bad := decide (65536 ≤ a) }
  | _ => { r with bad := decide (2 ^ 20 ≤ a) }

/-- LKP of a kind (R288, R289, R300). -/
def State.engLkp (s : State) (d : Iss) (i : Instr) (kind tbl : Nat) (rd ra rb : GReg) : State :=
  s.eng d i (fun s =>
    let a := s.greg d ra
    let buf := s.greg d rb
    let f := bufFault buf (lkpSize kind)
    if f ≠ 0 then (s, .flt f 0)
    else if kind ≤ 1 ∧ !inData d.c.ix a 24 then (s, .flt 3 0)
    else if s.lull then s.requestDone d rd 2
    else s.request d rd (.lkp (s.lkpReq d kind tbl a buf)) (fun s _ => s.pmcOf d 0x0A))

/-- What a lookup finds: the bytes of its result, none on a miss, and the entry whose HIT it sets. -/
def State.lkpFind (s : State) (r : LkpReq) : Option (Bytes × Option (Nat × EmEnt)) :=
  match r.kind with
  | 0 => (s.emFind r.tbl r.slice r.key r.gen).map (fun x => (s.tBytes (s.emAddr x.1) 8, some x))
  | 1 => (s.lpmFind r.vrf r.af r.key r.gen).map (fun x => (leB 8 (2 ^ 63 + x % 2 ^ 48), none))
  | 2 => some (s.tBytes (s.nhAddr r.key) 4, none)
  | 3 => some (s.tBytes (s.grpAddr r.key) 2, none)
  | 4 => some (s.tBytes (s.memAddr r.key) 1 ++ zeros 4, none)
  | _ => some (s.tBytes (s.adjAddr r.key) 16, none)

/-- `n` bytes that are open (log entry 3). -/
def State.openBytes (s : State) : Nat → Bytes × State
  | 0 => ([], s)
  | n + 1 =>
    let (v, s) := s.draw
    let (l, s) := State.openBytes s n
    (BitVec.ofNat 8 v.toNat :: l, s)

/-- The reads of an engine lookup in its gallery's slice: of its buckets' lines, or at most one of an indexed entry; false while the
slice has no credit for them (R250, R289; log entry 136). -/
def State.lkpReads (s : State) (g : Nat) (r : LkpReq) : State × Bool :=
  match r.kind with
  | 0 => let (b0, b1) := s.emBuckets r.tbl (s.emSlice r.tbl r.slice) r.key; s.spendReads g [b0, b1] [] 0 false
  | 1 => let (s, l) := s.bucketLines (s.pivotFor r.vrf r.af r.key (afWidth r.af)); s.spendReads g [] l 0 false
  | _ => let (v, s) := s.draw; s.spendReads g [] [] (v.toNat % 2) false

/-- A lookup completes: its result enters the buffer, then its token completes (R287–R289). `ecc`: an uncorrectable error in
what it read. -/
def State.lkpDone (s : State) (g i n : Nat) (t : Tok) (r : LkpReq) (ecc : Bool) : State :=
  let put (s : State) (b : Bytes) : State := if t.discard = 2 then s else s.memPut g i r.buf b
  if r.bad then s.tokComplete g i n 3 0
  else if ecc then
    let (b, s) := s.openBytes (lkpSize r.kind)
    (put s b).tokComplete g i n 4 0
  else match s.lkpFind r with
    | none => (put s (zeros (lkpSize r.kind))).tokComplete g i n 1 0
    | some (b, hit) =>
      let s := match hit with
        | some (ix, e) => if s.on (F.TBL_EM_CFG_HIT_EN.at r.tbl) && !e.hit then s.emWrite ix { e with hit := true } else s
        | none => s
      (put s b).tokComplete g i n 0 0

/-- Completion of a lookup's token; a token of another kind stays, and so does one that waits for read credit (R289). -/
def State.lkpComplete (s : State) (g i n : Nat) (ecc : Bool) : State :=
  match (s.thrI g i).tok n with
  | some { req := .lkp r, discard := k, done := none } =>
    let (s, ok) := if r.bad then (s, true) else s.lkpReads g r
    if ok then s.lkpDone g i n { req := .lkp r, discard := k } r ecc else s
  | _ => s

/-- ACL: the search of the slice's TCAM for the key in the 96-byte block at ra (R290). -/
def State.engAcl (s : State) (d : Iss) (i : Instr) (next : Bool) (rd ra : GReg) (e : AclEnv) : State :=
  s.eng d i (fun s =>
    let a := s.greg d ra
    let g := d.c.g.val
    let f := bufFault a 96
    if f ≠ 0 then (s, .flt f 0)
    else if s.lull then (s.gput d rd (2 ^ 61), .next)
    else
      let b := s.dataBytes d a 96
      let key := leN b 0 80
      let (s, r) := if next then s.aclStep g key (aclCursor (leN b 80 4)) e else s.aclSearch g key e
      match r.hit with
      | none => (s.gput d rd (b2n r.exhausted * 2 ^ 61), .next)
      | some (j, x) =>
        let s := s.memPut g d.c.ix (a + 88) (leB 8 x.action)
        (s.gput d rd (2 ^ 63 + b2n r.multi * 2 ^ 62 + j % 16384 * 65536 + x.prio % 65536), .next))

/-- The bytes an engine scan covers: packet bytes or gallery memory; none when the range does not lie in it. -/
def State.echoData (s : State) (d : Iss) (mem : Bool) (start len : Nat) : Option Bytes :=
  if mem then
    if 0x100000 ≤ start ∧ start + len ≤ 0x300000 then some (s.dataBytes d start len) else none
  else match s.pktOf d with
    | some k => if start + len ≤ k.p.bytes.length then some (slice k.p.bytes start len) else none
    | none => none

/-- ECHO: a scan by the gallery's Echo instance, from the start or after the cursor (R291, R300). -/
def State.engEcho (s : State) (d : Iss) (i : Instr) (after mem : Bool) (rd ra : GReg) : State :=
  s.eng d i (fun s =>
    let a := s.greg d ra
    let g := d.c.g.val
    let f := bufFault a 24
    if f ≠ 0 then (s, .flt f 0)
    else if s.lull then
      s.request d rd .off (fun s n => (s.memWr g d.c.ix (a + 16) 8 (echoWord 5 none false 0)).tokComplete g d.c.ix n 0 0)
    else
    let b := s.dataBytes d a 24
    let len := leN b 4 2
    match (if 1 ≤ len ∧ len ≤ 12288 then s.echoData d mem (leN b 0 4) len else none) with
    | none => s.requestDone d rd 3
    | some data =>
      if s.rd F.PAT_CFG_QMAX * 1024 < (s.ech g).bytes + len then (s, .stall (.echoQ len))
      else
        let stamp := match s.pktOf d with | some k => k.p.stamp | none => stamp16 s.t16
        let cur := if after then some (leN b 8 2, leN b 10 2) else none
        s.request d rd .echo (fun s n => (s.echQueue g ⟨d.c.ix, n, none, a, data, cur, false, stamp⟩).pmcOf d 0x0B))

/-- HRD: a request to Hoard (R292, R300). -/
def State.engHrd (s : State) (d : Iss) (i : Instr) (rd ra : GReg) (op : State → Nat → Nat → State) : State :=
  s.eng d i (fun s =>
    let v := s.greg d ra
    if s.lull then s.requestDone d rd 2
    else s.request d rd (.hrd none) (fun s n => (op s n v).pmcOf d 0x0C))

/-- A DMA descriptor's request (R293); a range outside its space is a bad argument. -/
def State.dmaReq (s : State) (d : Iss) (dir : Nat) (b : Bytes) : DmaReq :=
  let remote := leN b 0 8
  let loc := leN b 8 4
  let len := leN b 12 4
  let gal := s.galI d.c.g.val
  let localOk := inScratch loc len || (decide (0x100000 ≤ loc) && decide (loc + len ≤ 0x300000))
  let remoteOk := match dir with
    | 0 => match s.pktOf d with | some k => decide (remote + len ≤ k.p.bytes.length) | none => false
    | 1 => decide (remote + len ≤ s.tblSize)
    | 2 => decide (gal.winBase ≤ remote) && decide (remote + len ≤ gal.winBase + gal.winSize)
    | _ => s.handleOk (remote / 2 ^ 32) && decide (remote % 256 + len ≤ 256)
  { dir := dir, remote := remote, loc := loc, len := len
    bad := !(localOk && remoteOk && decide (1 ≤ len) && decide (len ≤ 4096)) }

/-- DMA in a direction (R293, R300): the descriptor must lie in the data space, local and table addresses are 8-byte
aligned. -/
def State.engDma (s : State) (d : Iss) (i : Instr) (dir : Nat) (rd ra : GReg) : State :=
  s.eng d i (fun s =>
    let a := s.greg d ra
    if !inData d.c.ix a 16 then (s, .flt 3 0) else
    let b := s.dataBytes d a 16
    let r := s.dmaReq d dir b
    if r.loc % 8 ≠ 0 ∨ ((dir = 1 ∨ dir = 2) ∧ r.remote % 8 ≠ 0) then (s, .flt 4 0)
    else if s.lull ∧ dir ≠ 0 then s.requestDone d rd 2
    else s.request d rd (.dma r) (fun s _ => s.pmcOf d 0x0D))

/-- Bytes of scratch cell `h` from offset `o`. -/
def State.cellBytes (s : State) (h o : Nat) : Nat → Bytes
  | 0 => []
  | n + 1 => BitVec.ofNat 8 (s.cellWord h (o / 8) / 256 ^ (o % 8)) :: State.cellBytes s h (o + 1) n

/-- Write bytes into a scratch cell. -/
def State.cellPut (s : State) (h o : Nat) : Bytes → State
  | [] => s
  | b :: l =>
    let w := s.cellWord h (o / 8)
    let k := 256 ^ (o % 8)
    State.cellPut (s.cellWordSet h (o / 8) (w - w / k % 256 * k + b.toNat * k)) h (o + 1) l

/-- Write bytes into the table region. -/
def State.tPut (s : State) (a : Nat) : Bytes → State
  | [] => s
  | b :: l => State.tPut (s.tByteSet a b) (a + 1) l

/-- The model holds the bytes at offset `a` of the table region: the structures at TBL_BASE but the LPM buckets, the staging area,
the engine data windows (R22, R222, R229, R270, R293; log entry 108). -/
def State.tShown (s : State) (a : Nat) : Bool :=
  let within (b n : Nat) : Bool := decide (b ≤ a) && decide (a < b + n)
  within (s.tblBase 0) (2 ^ 31) || within (s.tblBase 2) (2 ^ 24) || within (s.tblBase 3) (2 ^ 19) || within (s.tblBase 4) (2 ^ 22)
  || within (s.tblBase 5) (2 ^ 26) || within (s.tblBase 6) (2 ^ 22) || within (s.tblBase 7) (2 ^ 22)
  || within (s.rd64 R.PAT_STAGE_BASE) (2 ^ 25)
  || (List.range 8).any (fun g => within (s.galI g).winBase (s.galI g).winSize)

/-- Bytes of the table region as a read returns them: those of structures whose layout is not given are open. -/
def State.tRead (s : State) (a : Nat) : Nat → Bytes × State
  | 0 => ([], s)
  | n + 1 =>
    let (b, s) := if s.tShown a then (s.tByte a, s) else
      let (v, s) := s.draw
      (BitVec.ofNat 8 v.toNat, s)
    let (l, s) := State.tRead s (a + 1) n
    (b :: l, s)

/-- A DMA moves its bytes, then its token completes. -/
def State.dmaDone (s : State) (g i n : Nat) (t : Tok) (r : DmaReq) (ecc : Bool) : State :=
  let h := r.remote / 2 ^ 32
  let put (s : State) (b : Bytes) : State := if t.discard = 2 then s else s.memPut g i r.loc b
  if r.bad then s.tokComplete g i n 3 0
  else if ecc then
    if r.dir = 2 ∨ r.dir = 4 then s.tokComplete g i n 4 0
    else let (b, s) := s.openBytes r.len; (put s b).tokComplete g i n 4 0
  else
    let s := match r.dir with
      | 0 => match (s.thrI g i).pkt with | some k => put s (slice k.p.bytes r.remote r.len) | none => s
      | 1 => let (b, s) := s.tRead r.remote r.len; put s b
      | 2 => s.tPut r.remote (s.memGet g i r.loc r.len)
      | 3 => put s (s.cellBytes h (r.remote % 256) r.len)
      | _ => s.cellPut h (r.remote % 256) (s.memGet g i r.loc r.len)
    s.tokComplete g i n 0 0

/-- Completion of a DMA's token. -/
def State.dmaComplete (s : State) (g i n : Nat) (ecc : Bool) : State :=
  match (s.thrI g i).tok n with
  | some { req := .dma r, discard := k, done := none } => s.dmaDone g i n { req := .dma r, discard := k } r ecc
  | _ => s

end Sys2Proof.Machine
end

