-- ==== Sys2Proof/Machine/HostCmdBase.lean ====
section
/-! DEFINITION. Command service (R473–R477, R482): when field firmware takes a command, and the response it writes. -/

namespace Sys2Proof.Machine

/-- HSTATUS values of R475. -/
def hOK : Nat := 0
/-- CMD_UNKNOWN. -/
def hUNKNOWN : Nat := 1
/-- CMD_BAD_LEN. -/
def hBAD_LEN : Nat := 2
/-- CMD_BUF_FAULT. -/
def hBUF_FAULT : Nat := 3
/-- CMD_DOMAIN_OFF. -/
def hDOMAIN_OFF : Nat := 4
/-- CMD_DENIED. -/
def hDENIED : Nat := 5
/-- CMD_RESULT_TRUNC. -/
def hTRUNC : Nat := 6
/-- CMD_BAD_ARG. -/
def hBAD_ARG : Nat := 7

/-- Field firmware serves commands: running, in RUN or LULL, outside steps 2–4 of a warm swap (R133, R477). -/
def State.serving (s : State) : Bool := s.on F.HST_STATUS_SERVING && (s.inMode mRUN || s.inMode mLULL) && !s.kpr.hold

/-- The command can be taken: from a ring that holds it with room for its response, or from a tether port with TMGMT_EN. -/
def State.canTake (s : State) (h : CmdHdr) : Bool :=
  s.serving && (match h.tether with
    | none => s.ringOn rCMD && decide (s.cons rCMD ≠ s.prod rCMD) && s.ring.rsp.isEmpty && s.entryRoom rRSP
    | some (n, _) => s.on (F.LPT_CTRL_TMGMT_EN.at (144 + n.val)) && s.link (144 + n.val))

/-- Take the command: CONS advances and COMMANDS counts. -/
def State.take (s : State) (h : CmdHdr) : State :=
  let s := s.cnt R.HST_CNT 0x18
  match h.tether with
  | none => s.setCons rCMD ((s.cons rCMD + 1) % s.ringSize rCMD)
  | some (n, src) => { s with tmSrc := src.toNat, tmPort := 144 + n.val }

/-- Result capacity of a command: BUF_LEN with a buffer, 0 without; up to 8,192 bytes over tether management (R473, R482). -/
def CmdHdr.cap (h : CmdHdr) : Nat :=
  match h.tether with
  | none => if h.bufAddr.toNat = 0 then 0 else h.bufLen
  | some _ => min h.bufLen 8192

/-- ARG_LEN is legal: what the command needs, and within BUF_LEN when longer than 40 bytes; over tether management the
arguments lie in the frame (R473, R482). -/
def CmdHdr.lenOk (h : CmdHdr) (need : Nat) : Bool :=
  decide (h.argLen = need) && (decide (h.argLen ≤ 40) || h.tether.isSome || decide (h.argLen ≤ h.cap))

/-- A response (R474); its TICK is `tick`, or CAD_TICK when it is written. -/
def response (op flags seq code hst resLen : Nat) (tick : Option Nat) (inl : Bytes) : RspWait :=
  { pre := leB 2 op ++ leB 1 flags ++ zeros 1 ++ leB 2 seq ++ leB 1 code ++ leB 1 hst ++ leB 4 resLen ++ zeros 4
    tick := tick
    post := (inl ++ zeros 40).take 40 }

/-- A tether management frame to `dst` with the 4-byte prefix, without its FCS (R482). -/
def State.tmFrame (s : State) (port dst b2 : Nat) (body : Bytes) : Bytes :=
  let b := beB 6 dst ++ beB 6 (s.rd64 (R.LPT_STATION_ADDR.at port)) ++ beB 2 0x88B6 ++ beB 2 1 ++ beB 1 b2 ++ zeros 1 ++ body
  b ++ zeros (60 - b.length)

/-- Write a response: a result of at most 40 bytes inline, a longer one to the buffer, cut to its length (R473, R474,
R482). `flags2` adds bits above IN_BUF. -/
def State.respond (s : State) (h : CmdHdr) (op code hst : Nat) (final : Bool) (res : Bytes) (tick : Option Nat) (flags2 : Nat := 0) :
    State :=
  let long := decide (40 < res.length)
  let cut := long && decide (h.cap < res.length)
  let out := if long then res.take h.cap else res
  let hst := if cut then hTRUNC else hst
  let inBuf := long && decide (out.length ≠ 0)
  let flags := b2n final + b2n inBuf * 2 + flags2
  let body := response op flags h.seq.toNat code hst out.length tick (if long then [] else res)
  match h.tether with
  | none =>
    let s := if inBuf then s.emit (.dmaWrite h.bufAddr.toNat out) else s
    s.rspPut body
  | some (n, src) =>
    let p := 144 + n.val
    let room := s.rd (F.LPT_MAC_CFG_MAX_LEN.at p) - (14 + 4 + 64 + 4)
    let cutF := inBuf && decide (room < out.length)
    let out := if cutF then out.take room else out
    let body := response op flags h.seq.toNat code (if cutF then hTRUNC else hst) out.length tick (if long then [] else res)
    s.sendDirect p (s.tmFrame p src.toNat 0 (body.bytes s.tick ++ (if inBuf then out else [])))

/-- The response that refuses or completes a command without a result. -/
def State.answer (s : State) (h : CmdHdr) (op code hst : Nat) : State := s.respond h op code hst true [] none

/-- Serve a command: taken, its length checked, arguments longer than 40 bytes read from its buffer, its body run (R473, R475, R477).
A command that cannot be taken waits in its ring. -/
def State.serve (s : State) (h : CmdHdr) (op need : Nat) (body : State → State) : State :=
  if !s.canTake h then s
  else
    let s := s.take h
    if !h.lenOk need then s.answer h op 0 hBAD_LEN
    else if h.bufFault && decide (40 < h.argLen) && h.tether.isNone then s.answer h op 0 hBUF_FAULT
    else body s

/-- Serve a table command: refused with CMD_DOMAIN_OFF in LULL (R477). -/
def State.serveTable (s : State) (h : CmdHdr) (op need : Nat) (body : State → State) : State :=
  s.serve h op need (fun s => if s.inMode mLULL then s.answer h op 0 hDOMAIN_OFF else body s)

/-- An unsolicited NOTICE response (R477): to the response ring, where it waits for room, or to the last tether command's source (R482). -/
def State.notice (s : State) (body : Bytes) : State :=
  let r := response 0x8001 1 0 0 0 body.length none body
  let s := s.rspPut r
  if s.tmSrc = 0 then s else
  let p := s.tmPort
  if s.on (F.LPT_CTRL_TMGMT_EN.at p) && s.link p then s.sendDirect p (s.tmFrame p s.tmSrc 0 (r.bytes s.tick)) else s

end Sys2Proof.Machine
end

