-- ==== Sys2Proof/Machine/EngCtl.lean ====
section
/-! DEFINITION. Flues, waits, packet disposition and special registers of the engines (R294–R298, R315–R323). -/

namespace Sys2Proof.Machine

/-! ### Flues (R315–R318) -/

/-- A flue instruction: FLT_ARG when the flue is not enabled. -/
def State.engFlue (s : State) (d : Iss) (i : Instr) (idx : BitVec 8) (body : State → State × Ctl) : State :=
  s.eng d i (fun s => if !s.flueOn d.c.g.val idx.toNat then (s, .flt 8 0) else body s)

/-- The thread waits in line for a reservation. -/
def State.inLine (s : State) (d : Iss) (f : Nat) : Bool := (s.flueWait d.c.g.val f).any (fun w => w.1 == d.c.ix)

/-- FRES of `k` words (R316): a reservation granted while the thread waited is taken up; a new one is granted, waits in line, or
faults. -/
def State.flueReserve (s : State) (d : Iss) (f k : Nat) : State × Ctl :=
  let g := d.c.g.val
  let x := s.thrOf d
  match x.resvIn f with
  | some r =>
    if r.fresh then
      (s.thrPut d (fun x => { x with resv := x.resv.map (fun q => if q.flue = f then { q with fresh := false } else q) }), .next)
    else (s, .flt 8 0)
  | none =>
    if s.inLine d f then (s, .stall (.fres f))
    else if k = 0 ∨ 32 < k ∨ s.rd (flc F.GAL_FLUE_CAP g f) < k ∨ 4 ≤ x.resv.length then (s, .flt 8 0)
    else
      let fits := (s.flueWait g f).isEmpty && decide (k ≤ s.flueSpace g f)
      let s := s.thrPut d (fun x => { x with lost := x.lost.filter (· ≠ f) })
      if fits then
        (s.thrPut d (fun x => { x with resv := x.resv ++ [⟨f, k, [], false⟩] }), .next)
      else ((s.flueWaitPut g f (s.flueWait g f ++ [(d.c.ix, k)])).pmcOf d 0x0F, .stall (.fres f))

/-- FPUT of a word (R317, R319). -/
def State.flueStage (s : State) (d : Iss) (f v : Nat) : State × Ctl :=
  let x := s.thrOf d
  if x.lost.contains f then (s, .next) else
  match x.resvIn f with
  | none => (s, .flt 8 0)
  | some r =>
    if r.size ≤ r.staged.length then (s, .flt 8 0)
    else (s.thrPut d (fun x => { x with resv := x.resv.map (fun q => if q.flue = f then { q with staged := q.staged ++ [v] } else q) }), .next)

/-- FCMT (R317, R319): the staged words become one message, what was not staged returns to free space. -/
def State.flueCommit (s : State) (d : Iss) (rd : GReg) (f : Nat) : State × Ctl :=
  let g := d.c.g.val
  let x := s.thrOf d
  if x.lost.contains f then
    ((s.thrPut d (fun x => { x with lost := x.lost.filter (· ≠ f) })).gput d rd 0, .next)
  else match x.resvIn f with
    | none => (s.gput d rd 0, .next)
    | some r =>
      let s := s.thrPut d (fun x => { x with resv := x.resv.filter (fun q => q.flue != f) })
      let s := (s.fluePut g f (s.flueWords g f ++ r.staged)).flueFreed g f
      (s.gput d rd r.staged.length, .next)

/-- FGET (R318). -/
def State.flueGet (s : State) (d : Iss) (rd : GReg) (f : Nat) : State × Ctl :=
  let g := d.c.g.val
  if s.flueRx g f ≠ d.c.ix then (s, .flt 8 0) else
  match s.flueWords g f with
  | [] => ((match (s.thrOf d).run with | .stall _ => s | _ => s.pmcOf d 0x0F), .stall (.fget f))
  | w :: l => (((s.fluePut g f l).flueFreed g f).gput d rd w, .next)

/-- FLEN (R318). -/
def State.flueLen (s : State) (d : Iss) (rd : GReg) (f : Nat) : State × Ctl :=
  if s.flueRx d.c.g.val f ≠ d.c.ix then (s, .flt 8 0)
  else (s.gput d rd (s.flueWords d.c.g.val f).length, .next)

/-! ### Waits (R286, R296) -/

/-- Return the status of token `n` and free it. -/
def State.tokTake (s : State) (d : Iss) (rd : GReg) (n : Nat) : State × Ctl :=
  match (s.thrOf d).tok n with
  | some { req := _, discard := _, done := some w } => ((s.tokSet d.c.g.val d.c.ix n none).gput d rd w, .next)
  | _ => (s, .stall (.tok (2 ^ n)))

/-- WAIT for one token. -/
def State.waitTok (s : State) (d : Iss) (rd : GReg) (v : Nat) : State × Ctl :=
  if 16 ≤ v ∨ ((s.thrOf d).tok v).isNone then (s, .flt 11 0) else s.tokTake d rd v

/-- WAIT for any token of a mask: the lowest complete one; a named token that is free faults (log entry 80). -/
def State.waitAny (s : State) (d : Iss) (rd : GReg) (m : Nat) : State × Ctl :=
  let l := (List.range 16).filter (fun n => bitN m n)
  let x := s.thrOf d
  if l.any (fun n => (x.tok n).isNone) then (s, .flt 11 0)
  else match l.find? (fun n => bitN x.tokDone n) with
    | some n => s.tokTake d rd n
    | none => (s, .stall (.tok (m % 65536)))

/-- WAIT for any event of a mask: the fired events, cleared. -/
def State.waitEv (s : State) (d : Iss) (rd : GReg) (m : Nat) : State × Ctl :=
  let fired := s.eventsOf d.c.g.val d.c.ix &&& (m % 16)
  if fired = 0 then (s, .stall (.events (m % 16)))
  else ((s.thrPut d (fun x => { x with events := x.events &&& (15 - fired) })).gput d rd fired, .next)

/-- TEST: PD says whether the token is complete; with FN[0] a complete one is freed. -/
def State.testTok (s : State) (d : Iss) (pd : PReg) (v : Nat) (free : Bool) : State :=
  let c := decide (v < 16) && bitN (s.thrOf d).tokDone v
  (if c && free then s.tokSet d.c.g.val d.c.ix v none else s).predPut d pd c

/-! ### Counters and time (R294, R295) -/

/-- CNT (R294, R300, R433). -/
def State.cntAdd (s : State) (i n : Nat) : State :=
  let add (m : SMap Nat) (k n : Nat) : SMap Nat := mupd (fun _ => 0) m k (fun v => min (v + n) (2 ^ 64 - 1))
  { s with engCnt := add (add s.engCnt (2 * i) 1) (2 * i + 1) n }

/-- What TIME reads at an index, the time before a step of the same period of the time clock (R48, R295): FLT_ARG for one not listed, FLT_NO_PKT for 4 without a packet. -/
def State.timeRead (s : State) (d : Iss) (idx : Nat) : Nat ⊕ Nat :=
  match idx with
  | 0 => .inl (compact (stamp16 s.cap16))
  | 1 => .inl (s.capTime / tuNs % w64)
  | 2 => .inl (s.capTime / tuNs / 10 ^ 9 % 2 ^ 48)
  | 3 => .inl s.tick
  | 4 => match s.pktOf d with | some k => .inl (compact k.p.stamp) | none => .inr 7
  | _ => .inr 8

/-! ### Packets (R277, R285, R297) -/

/-- PKT READY ends start-up or the background work of a tick (R277, R314). -/
def State.pktReady (s : State) (d : Iss) : State × Ctl :=
  let g := d.c.g.val
  let gal := s.galI g
  if (s.pktOf d).isSome then (s, .flt 7 0) else
  let s := s.thrPut d (fun x => { x with
    started := true, bgDone := true
    run := if x.role = 1 then .idle else if x.role = 2 then .budget else .ready
    pc := if x.role = 3 then gal.entSup else x.pc })
  let s := s.galServe g
  (s.dispatch g, .done)

/-- The thread ends its work on its packet, which goes on by `out`: it waits for its tokens, discards their statuses and is
idle (R297). -/
def State.pktEnd (s : State) (d : Iss) (out : State → GPkt → State) : State × Ctl :=
  match s.pktOf d with
  | none => (s, .flt 7 0)
  | some k =>
    if (s.thrOf d).tokBusy ≠ 0 then (s, .stall .pkt)
    else
      let s := (s.thrPut d (fun x => { x with pkt := none, toks := [], run := .idle })).pmcOf d 0x11
      ((out s k).dispatch d.c.g.val, .done)

/-- PKT SEND (R285, R297, R300): to Passage, to the packet's port, or out of the tether port PORT names in LULL. -/
def State.pktSend (s : State) (k : GPkt) : State :=
  if s.lull then
    if isTether k.p.port && s.link k.p.port then s.sendDirect k.p.port k.p.bytes true
    else s.satInc F.MOD_LULL_DROPS_COUNT
  else if k.egr then s.egpUpd k.p.egrPort (fun x => { x with mac := x.mac ++ [k.p] })
  else s.toPassage k.p

/-- PKT DROP. -/
def State.pktDrop (s : State) (g : Nat) (k : GPkt) : State :=
  let s := s.galCnt g 0x50
  if k.egr then s else s.nhDone k.p

/-- PKT PUNT (R204). -/
def State.pktPunt (s : State) (g reason : Nat) (k : GPkt) : State :=
  let s := s.galCnt g 0x58
  (if k.egr then s else s.nhDone k.p).puntPacket reason k.p k.egr

/-! ### Special registers (R298, R323) -/

/-- The thread THR_SEL names. -/
def selThr (sel : Nat) : Nat := 8 * bits sel 6 4 + bits sel 2 0

/-- What MFS reads: the state with a popped notification, and the value or the fault (R298, R323). -/
def State.mfsRead (s : State) (d : Iss) (idx : Nat) : State × (Nat ⊕ Nat) :=
  let g := d.c.g.val
  let i := d.c.ix
  let x := s.thrOf d
  let gal := s.galI g
  match idx with
  | 0x00 => (s, .inl (g * 256 + d.c.e.val * 16 + d.c.t.val))
  | 0x01 => (s, .inl x.role)
  | 0x02 => (s, .inl x.tokBusy)
  | 0x03 => (s, .inl x.tokDone)
  | 0x04 => (s, .inl (s.eventsOf g i))
  | 0x05 => (s, .inl x.timer)
  | 0x06 => (s, .inl gal.winBase)
  | 0x07 => (s, .inl gal.winSize)
  | 0x08 => (s, .inl (b2n s.lull))
  | n =>
    if n < 0x10 ∨ 0x20 ≤ n then (s, .inr 1)
    else if i ≠ 0 then (s, .inr 10)
    else match n with
      | 0x10 => (s.galUpd g (fun y => { y with notes := y.notes.tail }), .inl (gal.notes.headD 0))
      | 0x11 => (s, .inl gal.notes.length)
      | 0x12 => (s, .inl gal.sel)
      | 0x13 => (s, .inl (s.haltedReg g (selThr gal.sel) (bits gal.sel 12 8) (bitN gal.sel 16)))
      | 0x14 => (s, .inl 0)
      | 0x15 => (s, .inl 0)
      | 0x16 => (s, .inl 0)
      | 0x17 =>
        if s.saHolds g then let (v, s) := s.draw; (s, .inl (v.toNat % 65536 * 65536 + 1)) else (s, .inl 0)
      | _ => (s, .inr 1)

/-- MFS: the value to rd, or the fault. -/
def State.engMfs (s : State) (d : Iss) (i : Instr) (rd : GReg) (idx : Nat) : State :=
  s.eng d i (fun s => match s.mfsRead d idx with
    | (s, .inl v) => (s.gput d rd v, .next)
    | (s, .inr f) => (s, .flt f 0))

/-- What MTS does with a value, or its fault (R298, R323). -/
def State.mtsWrite (s : State) (d : Iss) (idx v : Nat) : State × Ctl :=
  let g := d.c.g.val
  let sel := (s.galI g).sel
  let t := selThr sel
  if idx = 0x05 then (s.thrPut d (fun x => { x with timer := v % 2 ^ 48, armed := decide (v % 2 ^ 48 ≠ 0) }), .next)
  else if idx ≤ 0x08 then (s, .flt 10 0)
  else if idx < 0x10 ∨ 0x20 ≤ idx then (s, .flt 1 0)
  else if d.c.ix ≠ 0 then (s, .flt 10 0)
  else match idx with
    | 0x12 => (s.galUpd g (fun y => { y with sel := b2n (bitN v 16) * 65536 + bits v 12 8 * 256 + bits v 6 4 * 16 + bits v 2 0 }), .next)
    | 0x13 => (s.haltedRegSet g t (bits sel 12 8) (bitN sel 16) v, .next)
    | 0x14 => (s.thrCmd g t (v % 8) (bits v 31 16), .next)
    | 0x15 => (s.synthPost g v, .next)
    | 0x16 => (s.reclaim g t (v % 128), .next)
    | 0x10 => (s, .flt 10 0)
    | 0x11 => (s, .flt 10 0)
    | 0x17 => (s, .flt 10 0)
    | _ => (s, .flt 1 0)

/-- MTS. -/
def State.engMts (s : State) (d : Iss) (i : Instr) (ra : GReg) (idx : Nat) : State :=
  s.eng d i (fun s => s.mtsWrite d idx (s.greg d ra))

/-- THR_CMD with one operation: the row's event is an MTS whose value names that operation. -/
def State.engThrCmd (s : State) (d : Iss) (i : Instr) (ra : GReg) (op : Nat) : State :=
  if s.greg d ra % 8 = op then s.engMts d i ra 0x14 else s

end Sys2Proof.Machine
end

