-- ==== Sys2Proof/Machine/EngAlu.lean ====
section
/-! DEFINITION. Engine instructions: ALU, compares, predicates, branches and bit fields (R302–R304). -/

namespace Sys2Proof.Machine

/-- `v` in the `n` bits of `a` from bit `pos`. -/
def insertBits (a v pos n : Nat) : Nat := a - a / 2 ^ pos % 2 ^ n * 2 ^ pos + v % 2 ^ n * 2 ^ pos

/-- ALU FN ADD (R304). -/
def execAdd (d : Iss) (rd ra rb : GReg) (s : State) : Out1 :=
  .next (s.engRd d (.add d rd ra rb) rd fun s => s.greg d ra + s.greg d rb)

/-- ALU FN SUB (R304). -/
def execSub (d : Iss) (rd ra rb : GReg) (s : State) : Out1 :=
  .next (s.engRd d (.sub d rd ra rb) rd fun s => aluSub (s.greg d ra) (s.greg d rb))

/-- ALU FN AND (R304). -/
def execAnd (d : Iss) (rd ra rb : GReg) (s : State) : Out1 :=
  .next (s.engRd d (.and_ d rd ra rb) rd fun s => s.greg d ra &&& s.greg d rb)

/-- ALU FN OR (R304). -/
def execOr (d : Iss) (rd ra rb : GReg) (s : State) : Out1 :=
  .next (s.engRd d (.or_ d rd ra rb) rd fun s => s.greg d ra ||| s.greg d rb)

/-- ALU FN XOR (R304). -/
def execXor (d : Iss) (rd ra rb : GReg) (s : State) : Out1 :=
  .next (s.engRd d (.xor_ d rd ra rb) rd fun s => s.greg d ra ^^^ s.greg d rb)

/-- ALU FN ANDN, ra AND NOT rb (R304). -/
def execAndn (d : Iss) (rd ra rb : GReg) (s : State) : Out1 :=
  .next (s.engRd d (.andn d rd ra rb) rd fun s => s.greg d ra &&& (w64 - 1 - s.greg d rb))

/-- ALU FN shift left logical by rb[5:0] (R304). -/
def execSll (d : Iss) (rd ra rb : GReg) (s : State) : Out1 :=
  .next (s.engRd d (.sll d rd ra rb) rd fun s => aluSll (s.greg d ra) (s.greg d rb))

/-- ALU FN shift right logical (R304). -/
def execSrl (d : Iss) (rd ra rb : GReg) (s : State) : Out1 :=
  .next (s.engRd d (.srl d rd ra rb) rd fun s => aluSrl (s.greg d ra) (s.greg d rb))

/-- ALU FN shift right arithmetic (R304). -/
def execSra (d : Iss) (rd ra rb : GReg) (s : State) : Out1 :=
  .next (s.engRd d (.sra d rd ra rb) rd fun s => aluSra (s.greg d ra) (s.greg d rb))

/-- ALU FN rotate left (R304). -/
def execRol (d : Iss) (rd ra rb : GReg) (s : State) : Out1 :=
  .next (s.engRd d (.rol d rd ra rb) rd fun s => aluRol (s.greg d ra) (s.greg d rb))

/-- ALU FN rotate right (R304). -/
def execRor (d : Iss) (rd ra rb : GReg) (s : State) : Out1 :=
  .next (s.engRd d (.ror d rd ra rb) rd fun s => aluRor (s.greg d ra) (s.greg d rb))

/-- ALU FN MUL, low 64 bits (R304). -/
def execMul (d : Iss) (rd ra rb : GReg) (s : State) : Out1 :=
  .next (s.engRd d (.mul d rd ra rb) rd fun s => s.greg d ra * s.greg d rb)

/-- ALU FN MULHU, high 64 bits unsigned (R304). -/
def execMulhu (d : Iss) (rd ra rb : GReg) (s : State) : Out1 :=
  .next (s.engRd d (.mulhu d rd ra rb) rd fun s => s.greg d ra * s.greg d rb / w64)

/-- ALU FN signed minimum (R304). -/
def execMin (d : Iss) (rd ra rb : GReg) (s : State) : Out1 :=
  .next (s.engRd d (.min_ d rd ra rb) rd fun s => aluMin (s.greg d ra) (s.greg d rb))

/-- ALU FN signed maximum (R304). -/
def execMax (d : Iss) (rd ra rb : GReg) (s : State) : Out1 :=
  .next (s.engRd d (.max_ d rd ra rb) rd fun s => aluMax (s.greg d ra) (s.greg d rb))

/-- ALU FN unsigned minimum (R304). -/
def execMinu (d : Iss) (rd ra rb : GReg) (s : State) : Out1 :=
  .next (s.engRd d (.minu d rd ra rb) rd fun s => min (s.greg d ra) (s.greg d rb))

/-- ALU FN unsigned maximum (R304). -/
def execMaxu (d : Iss) (rd ra rb : GReg) (s : State) : Out1 :=
  .next (s.engRd d (.maxu d rd ra rb) rd fun s => max (s.greg d ra) (s.greg d rb))

/-- ALU FN 32-bit add, zero-extended (R304). -/
def execAdd32 (d : Iss) (rd ra rb : GReg) (s : State) : Out1 :=
  .next (s.engRd d (.add32 d rd ra rb) rd fun s => (s.greg d ra + s.greg d rb) % 2 ^ 32)

/-- ALU FN 32-bit subtract, zero-extended (R304). -/
def execSub32 (d : Iss) (rd ra rb : GReg) (s : State) : Out1 :=
  .next (s.engRd d (.sub32 d rd ra rb) rd fun s => aluSub (s.greg d ra) (s.greg d rb) % 2 ^ 32)

/-- ALU FN ones'-complement 16-bit sum with carry folded (R304). -/
def execCsum16 (d : Iss) (rd ra rb : GReg) (s : State) : Out1 :=
  .next (s.engRd d (.csum16 d rd ra rb) rd fun s => aluCsum (s.greg d ra) (s.greg d rb))

/-- ALU FN count leading zeros (R304). -/
def execClz (d : Iss) (rd ra : GReg) (s : State) : Out1 :=
  .next (s.engRd d (.clz d rd ra) rd fun s => aluClz 64 (s.greg d ra))

/-- ALU FN count trailing zeros (R304). -/
def execCtz (d : Iss) (rd ra : GReg) (s : State) : Out1 :=
  .next (s.engRd d (.ctz d rd ra) rd fun s => aluCtz 64 (s.greg d ra))

/-- ALU FN population count (R304). -/
def execPopc (d : Iss) (rd ra : GReg) (s : State) : Out1 :=
  .next (s.engRd d (.popc d rd ra) rd fun s => popCount 64 (s.greg d ra))

/-- ALU FN byte swap of 64 bits (R304). -/
def execBswap64 (d : Iss) (rd ra : GReg) (s : State) : Out1 :=
  .next (s.engRd d (.bswap64 d rd ra) rd fun s => byteSwap 8 (s.greg d ra))

/-- ALU FN byte swap of the low word, zero-extended (R304). -/
def execBswap32 (d : Iss) (rd ra : GReg) (s : State) : Out1 :=
  .next (s.engRd d (.bswap32 d rd ra) rd fun s => byteSwap 4 (s.greg d ra))

/-- ALU FN byte swap of 16 bits (R304). -/
def execBswap16 (d : Iss) (rd ra : GReg) (s : State) : Out1 :=
  .next (s.engRd d (.bswap16 d rd ra) rd fun s => byteSwap 2 (s.greg d ra))

/-- rd = ra + sign-extended IMM12 (R303). -/
def execAddi (d : Iss) (rd ra : GReg) (imm : BitVec 12) (s : State) : Out1 :=
  .next (s.engRd d (.addi d rd ra imm) rd fun s => s.greg d ra + sext 12 imm.toNat)

/-- rd = ra AND zero-extended IMM12 (R303). -/
def execAndi (d : Iss) (rd ra : GReg) (imm : BitVec 12) (s : State) : Out1 :=
  .next (s.engRd d (.andi d rd ra imm) rd fun s => s.greg d ra &&& imm.toNat)

/-- rd = ra OR zero-extended IMM12 (R303). -/
def execOri (d : Iss) (rd ra : GReg) (imm : BitVec 12) (s : State) : Out1 :=
  .next (s.engRd d (.ori d rd ra imm) rd fun s => s.greg d ra ||| imm.toNat)

/-- rd = ra XOR zero-extended IMM12 (R303). -/
def execXori (d : Iss) (rd ra : GReg) (imm : BitVec 12) (s : State) : Out1 :=
  .next (s.engRd d (.xori d rd ra imm) rd fun s => s.greg d ra ^^^ imm.toNat)

/-- Shift or rotate by immediate, as IMM12[11:9] selects (R302). -/
def execShi (d : Iss) (rd ra : GReg) (sel : BitVec 3) (amt : BitVec 6) (s : State) : Out1 :=
  .next (s.eng d (.shi d rd ra sel amt) fun s =>
    let v := s.greg d ra
    match sel.toNat with
    | 0 => (s.gput d rd (aluSll v amt.toNat), .next)
    | 1 => (s.gput d rd (aluSrl v amt.toNat), .next)
    | 2 => (s.gput d rd (aluSra v amt.toNat), .next)
    | 3 => (s.gput d rd (aluRol v amt.toNat), .next)
    | _ => (s, .flt 1 0))

/-- rd = IMM16, zero- or sign-extended (R303). -/
def execMovi (d : Iss) (rd : GReg) (x : Bool) (imm : BitVec 16) (s : State) : Out1 :=
  .next (s.engRd d (.movi d rd x imm) rd fun _ => if x then sext 16 imm.toNat else imm.toNat)

/-- rd[31:16] = IMM16 (R303). -/
def execMovk1 (d : Iss) (rd : GReg) (imm : BitVec 16) (s : State) : Out1 :=
  .next (s.engRd d (.movk1 d rd imm) rd fun s => insertBits (s.greg d rd) imm.toNat 16 16)

/-- rd[47:32] = IMM16 (R303). -/
def execMovk2 (d : Iss) (rd : GReg) (imm : BitVec 16) (s : State) : Out1 :=
  .next (s.engRd d (.movk2 d rd imm) rd fun s => insertBits (s.greg d rd) imm.toNat 32 16)

/-- rd[63:48] = IMM16 (R303). -/
def execMovk3 (d : Iss) (rd : GReg) (imm : BitVec 16) (s : State) : Out1 :=
  .next (s.engRd d (.movk3 d rd imm) rd fun s => insertBits (s.greg d rd) imm.toNat 48 16)

/-- Combine predicate PD with the comparison ra CC rb (R302). -/
def execCmp (d : Iss) (pd : PReg) (cb : BitVec 2) (ra rb : GReg) (cc : BitVec 3) (s : State) : Out1 :=
  .next (s.eng d (.cmp d pd cb ra rb cc) fun s =>
    (s.compare d pd cb.toNat cc.toNat (s.greg d ra) (s.greg d rb), .next))

/-- Combine predicate PD with the comparison ra CC IMM9 (R302). -/
def execCmpi (d : Iss) (pd : PReg) (cb : BitVec 2) (ra : GReg) (cc : BitVec 3) (imm : BitVec 9) (s : State) : Out1 :=
  .next (s.eng d (.cmpi d pd cb ra cc imm) fun s =>
    (s.compare d pd cb.toNat cc.toNat (s.greg d ra) (sext 9 imm.toNat), .next))

/-- PD = PA PF PB (R302). -/
def execPset (d : Iss) (pd pa pb : PReg) (pf : BitVec 3) (s : State) : Out1 :=
  .next (s.eng d (.pset d pd pa pb pf) fun s =>
    (s.predPut d pd (predFn pf.toNat (s.pred d pa) (s.pred d pb)), .next))

/-- Relative branch (R303). -/
def execBr (d : Iss) (ofs : BitVec 22) (s : State) : Out1 :=
  .next (s.eng d (.br d ofs) fun s => (s, .jump (branchTo (s.thrOf d).pc ofs.toNat)))

/-- G31 = index + 1, then branch (R303). -/
def execCall (d : Iss) (ofs : BitVec 22) (s : State) : Out1 :=
  .next (s.eng d (.call d ofs) fun s =>
    (s.gput d 31 (((s.thrOf d).pc + 1) % 65536), .jump (branchTo (s.thrOf d).pc ofs.toNat)))

/-- Jump to index ra[15:0] (R303). -/
def execJr (d : Iss) (ra : GReg) (s : State) : Out1 := .next (s.eng d (.jr d ra) fun s => (s, .jump (s.greg d ra % 65536)))

/-- Extract a bit field, zero-extended (R303). -/
def execExt (d : Iss) (rd ra : GReg) (pos lenm1 : BitVec 6) (s : State) : Out1 :=
  .next (s.engField d (.ext d rd ra pos lenm1) rd (fun _ => pos.toNat) (fun _ => lenm1.toNat) fun s =>
    extract (s.greg d ra) pos.toNat lenm1.toNat)

/-- Extract a bit field, sign-extended (R303). -/
def execExts (d : Iss) (rd ra : GReg) (pos lenm1 : BitVec 6) (s : State) : Out1 :=
  .next (s.engField d (.exts d rd ra pos lenm1) rd (fun _ => pos.toNat) (fun _ => lenm1.toNat) fun s =>
    extractS (s.greg d ra) pos.toNat lenm1.toNat)

/-- Insert a bit field into rd (R303). -/
def execIns (d : Iss) (rd ra : GReg) (pos lenm1 : BitVec 6) (s : State) : Out1 :=
  .next (s.engField d (.ins d rd ra pos lenm1) rd (fun _ => pos.toNat) (fun _ => lenm1.toNat) fun s =>
    insertBits (s.greg d rd) (s.greg d ra) pos.toNat (lenm1.toNat + 1))

/-- Extract a bit field whose position and length come from rb (R303). -/
def execExtv (d : Iss) (rd ra rb : GReg) (sgn : Bool) (s : State) : Out1 :=
  .next (s.engField d (.extv d rd ra rb sgn) rd (fun s => s.greg d rb % 64) (fun s => s.greg d rb / 256 % 64) fun s =>
    let v := s.greg d rb
    if sgn then extractS (s.greg d ra) (v % 64) (v / 256 % 64) else extract (s.greg d ra) (v % 64) (v / 256 % 64))

end Sys2Proof.Machine
end

