-- ==== Sys2Proof/Machine/EngMem.lean ====
section
/-! DEFINITION. Engine instructions: header window, metadata, data space, atomics and counters (R280–R284, R294, R304). -/

namespace Sys2Proof.Machine

/-- Read 1, 2, 4 or 8 bytes of the header window, big-endian (R283). -/
def execHwl (d : Iss) (r ra : GReg) (sz : BitVec 2) (ofs : BitVec 10) (s : State) : Out1 :=
  .next (s.eng d (.hwl d r ra sz ofs) fun s =>
    let n := 2 ^ sz.toNat
    let o := s.hwOfs d ra ofs
    if 640 < o + n then (s, .flt 5 0) else (s.gput d r (s.hwRead d o n), .next))

/-- Write bytes into the header window (R283). -/
def execHws (d : Iss) (r ra : GReg) (sz : BitVec 2) (ofs : BitVec 10) (s : State) : Out1 :=
  .next (s.eng d (.hws d r ra sz ofs) fun s =>
    let n := 2 ^ sz.toNat
    let o := s.hwOfs d ra ofs
    if 640 < o + n ∨ s.hwLen d < o + n then (s, .flt 5 0) else (s.hwWrite d o n (s.greg d r), .next))

/-- Prepend or remove bytes at the front of the packet and return the new HW_LEN (R283). -/
def execHwadj (d : Iss) (rd ra : GReg) (imm : BitVec 12) (s : State) : Out1 :=
  .next (s.eng d (.hwadj d rd ra imm) fun s =>
    let dl := sx 64 (s.greg d ra + sext 12 imm.toNat)
    match s.pktOf d with
    | none => if dl = 0 then (s.gput d rd 0, .next) else (s, .flt 5 0)
    | some k =>
      if k.mayAdjust dl then
        let k := k.adjust dl
        ((s.thrPut d (fun x => { x with pkt := some k })).gput d rd k.hwLen, .next)
      else (s, .flt 5 0))

/-- Read a packet metadata field by index (R284). -/
def execMdl (d : Iss) (rd : GReg) (idx : BitVec 8) (s : State) : Out1 :=
  .next (s.eng d (.mdl d rd idx) fun s =>
    match s.pktOf d with
    | none => let (v, s) := s.draw; (s.gput d rd v.toNat, .next)
    | some k => match s.mdRead k idx.toNat with
      | some v => (s.gput d rd v, .next)
      | none => (s, .flt 6 0))

/-- Write a packet metadata field by index (R284). -/
def execMds (d : Iss) (ra : GReg) (idx : BitVec 8) (s : State) : Out1 :=
  .next (s.eng d (.mds d ra idx) fun s =>
    match s.pktOf d with
    | none => (s, .next)
    | some k => match mdWrite s.lull k idx.toNat (s.greg d ra) with
      | some k => (s.thrPut d (fun x => { x with pkt := some k }), .next)
      | none => (s, .flt 6 0))

/-- Load from the data space (R280). -/
def execLd (d : Iss) (r ra : GReg) (sz : BitVec 2) (ofs : BitVec 10) (s : State) : Out1 :=
  .next (s.eng d (.ld d r ra sz ofs) fun s => s.load d r (s.dataAddr d ra ofs (2 ^ sz.toNat)) (2 ^ sz.toNat))

/-- Posted store to the data space (R282). -/
def execSt (d : Iss) (r ra : GReg) (sz : BitVec 2) (ofs : BitVec 10) (lost : Bool) (s : State) : Out1 :=
  .next (s.eng d (.st d r ra sz ofs lost) fun s =>
    s.store d (s.dataAddr d ra ofs (2 ^ sz.toNat)) (2 ^ sz.toNat) (s.greg d r) lost)

/-- Indexed load from the data space (R280). -/
def execLdx (d : Iss) (rd ra rb : GReg) (sz : BitVec 2) (s : State) : Out1 :=
  .next (s.eng d (.ldx d rd ra rb sz) fun s => s.load d rd ((s.greg d ra + s.greg d rb) % w64) (2 ^ sz.toNat))

/-- Indexed posted store to the data space (R282). -/
def execStx (d : Iss) (r ra rb : GReg) (sz : BitVec 2) (lost : Bool) (s : State) : Out1 :=
  .next (s.eng d (.stx d r ra rb sz lost) fun s =>
    s.store d ((s.greg d ra + s.greg d rb) % w64) (2 ^ sz.toNat) (s.greg d r) lost)

/-- Atomic add, returning the old value (R304). -/
def execAtomAdd (d : Iss) (rd ra rb : GReg) (dbl : Bool) (s : State) : Out1 :=
  .next (s.engAtom d (.atomAdd d rd ra rb dbl) rd ra rb dbl fun old b _ => old + b)

/-- Atomic AND, returning the old value (R304). -/
def execAtomAnd (d : Iss) (rd ra rb : GReg) (dbl : Bool) (s : State) : Out1 :=
  .next (s.engAtom d (.atomAnd d rd ra rb dbl) rd ra rb dbl fun old b _ => old &&& b)

/-- Atomic OR, returning the old value (R304). -/
def execAtomOr (d : Iss) (rd ra rb : GReg) (dbl : Bool) (s : State) : Out1 :=
  .next (s.engAtom d (.atomOr d rd ra rb dbl) rd ra rb dbl fun old b _ => old ||| b)

/-- Atomic XOR, returning the old value (R304). -/
def execAtomXor (d : Iss) (rd ra rb : GReg) (dbl : Bool) (s : State) : Out1 :=
  .next (s.engAtom d (.atomXor d rd ra rb dbl) rd ra rb dbl fun old b _ => old ^^^ b)

/-- Atomic swap, returning the old value (R304). -/
def execAtomSwap (d : Iss) (rd ra rb : GReg) (dbl : Bool) (s : State) : Out1 :=
  .next (s.engAtom d (.atomSwap d rd ra rb dbl) rd ra rb dbl fun _ b _ => b)

/-- Atomic unsigned minimum, returning the old value (R304). -/
def execAtomUmin (d : Iss) (rd ra rb : GReg) (dbl : Bool) (s : State) : Out1 :=
  .next (s.engAtom d (.atomUmin d rd ra rb dbl) rd ra rb dbl fun old b _ => min old b)

/-- Atomic unsigned maximum, returning the old value (R304). -/
def execAtomUmax (d : Iss) (rd ra rb : GReg) (dbl : Bool) (s : State) : Out1 :=
  .next (s.engAtom d (.atomUmax d rd ra rb dbl) rd ra rb dbl fun old b _ => max old b)

/-- Atomic compare-and-swap, returning the old value (R304). -/
def execAtomCas (d : Iss) (rd ra rb : GReg) (dbl : Bool) (s : State) : Out1 :=
  .next (s.engAtom d (.atomCas d rd ra rb dbl) rd ra rb dbl fun old b r => if old = r then b else old)

/-- Posted add to an engine counter pair (R294). -/
def execCnt (d : Iss) (ra rb : GReg) (s : State) : Out1 :=
  .next (s.eng d (.cnt d ra rb) fun s =>
    if s.lull then (s, .next)
    else if 262144 ≤ s.greg d ra then (s, .flt 8 0)
    else (s.cntAdd (s.greg d ra) (s.greg d rb), .next))

/-- Wait until every posted store and counter update of the thread has taken effect (R282). -/
def execFence (d : Iss) (s : State) : Out1 := .next (s.eng d (.fence d) fun s => (s, .next))

end Sys2Proof.Machine
end

