-- ==== Sys2Proof/Machine/Keeper.lean ====
section
/-! DEFINITION. The Keeper (R102–R109, R120–R138): mailbox, tokens, life cycle and keys, image update, settings, trial and
warm swap. -/

namespace Sys2Proof.Machine

/-! ### Mailbox (R103, R136–R138) -/

/-- What a request does: the state, STATUS, DETAIL, payload of the answer, and what follows once it is answered. -/
structure MbxAns where
  s : State
  status : Nat
  detail : Nat := 0
  pay : Bytes := []
  next : State → State := id

/-- STATUS codes of R138. -/
def mOK : Nat := 0x00
/-- MBX_DENIED. -/
def mDENIED : Nat := 0x01
/-- MBX_BAD_ARG. -/
def mBAD_ARG : Nat := 0x02
/-- MBX_BAD_STATE. -/
def mBAD_STATE : Nat := 0x03
/-- MBX_NVM_ERROR. -/
def mNVM_ERROR : Nat := 0x04
/-- TOKEN_INVALID. -/
def mTOKEN : Nat := 0x20
/-- SETTINGS_FULL. -/
def mFULL : Nat := 0x21

/-- The Keeper serves requests. -/
def State.kprServes (s : State) : Bool := s.keeperUp && !s.md.held && !s.inMode mDORMANT

/-- Word `i` of KPR_MBX_REQ. -/
def State.mbxWord (s : State) (i : Nat) : Nat := s.rd (F.KPR_MBX_REQ_DATA.at i)

/-- The payload of the host's request: LEN bytes from word 4. -/
def State.mbxPayload (s : State) : Bytes :=
  ((List.range ((s.mbxWord 1 + 3) / 4)).flatMap (fun i => leB 4 (s.mbxWord (4 + i)))).take (s.mbxWord 1)

/-- The header of the host's request breaks no rule: LEN at most 4,080, zero fields zero (R136). -/
def State.mbxFormat (s : State) : Bool :=
  decide (s.mbxWord 1 ≤ 4080) && decide (bits (s.mbxWord 0) 15 8 = 0) && decide (s.mbxWord 2 = 0) && decide (s.mbxWord 3 = 0)

/-- Words of a byte string, the last one padded with zeros. -/
def wordsOf (b : Bytes) : List Nat := (List.range ((b.length + 3) / 4)).map (fun i => leN b (4 * i) 4)

/-- Write words to KPR_MBX_RSP from word `i`. -/
def State.mbxPut (s : State) (i : Nat) : List Nat → State
  | [] => s
  | w :: l => State.mbxPut (s.wr (F.KPR_MBX_RSP_DATA.at i) w) (i + 1) l

/-- The response to the host: header and payload, then PENDING clears, DONE sets and EG0 rises (R136). -/
def State.mbxRespond (s : State) (status detail : Nat) (pay : Bytes) : State :=
  let seq := bits (s.mbxWord 0) 31 16
  let s := (s.mbxPut 0 [seq * 65536 + status, pay.length, detail, 0]).mbxPut 4 (wordsOf pay)
  ((s.wr F.KPR_MBX_STATUS_PENDING 0).wr F.KPR_MBX_STATUS_DONE 1).wr F.KPR_MBX_CTRL_GO 0 |>.raise (eg 0 0)

/-- The response to a control core (R136). -/
def State.mbxToCore (s : State) (c seq status detail : Nat) (pay : Bytes) : State :=
  s.emit (.mbx c (leB 4 (seq * 65536 + status) ++ leB 4 pay.length ++ leB 4 detail ++ zeros 4 ++ pay))

/-- The host request whose CODE no request has is answered at once. -/
def State.mbxUnknown (s : State) : State :=
  let c := s.mbxWord 0 % 256
  if s.kprServes && s.on F.KPR_MBX_STATUS_PENDING && (c == 0 || decide (0x13 < c)) then s.mbxRespond mBAD_ARG 0 [] else s

/-! ### Tokens (R105, R121) -/

/-- A token held authorises request `code` with its arguments under the current challenge; `ok` judges its KEY_SEL. -/
def State.tokenOk (s : State) (code : Nat) (args : Bytes) (ok : Nat → Bool) (b : Bytes) : Bool :=
  match sections b with
  | [x] =>
    let t := x.bytes b
    x.typ == 0x40 && ok (byteN b 0x0D) && decide (36 ≤ t.length) && byteN t 0 == code && zeroAt t 1 3
      && decide (slice t 4 32 = s.kpr.nonce) && decide (s.kpr.nonce.length = 32) && decide (t.drop 36 = args)
  | _ => false

/-- A maker token. -/
def isMaker (sel : Nat) : Bool := sel == 0

/-- An owner command, signed with a programmed, unrevoked slot other than `but`. -/
def State.isOwner (s : State) (but : Option Nat) (sel : Nat) : Bool :=
  decide (1 ≤ sel) && decide (sel ≤ 4) && s.keyLive (sel - 1) && !(but == some (sel - 1))

/-- Use the tokens that satisfy each of a list of tests: they are discarded; none when one is missing. -/
def State.useTokens (s : State) : List (Bytes → Bool) → Option State
  | [] => some s
  | p :: l =>
    match s.kpr.tokens.find? p with
    | none => none
    | some t => State.useTokens { s with kpr := { s.kpr with tokens := eraseFirst t s.kpr.tokens } } l

/-- A request that a maker token or an owner command authorises. -/
def State.withTokens (s : State) (l : List (Bytes → Bool)) (act : State → MbxAns) : MbxAns :=
  match s.useTokens l with
  | none => { s := s, status := mTOKEN }
  | some s => act s

/-! ### Life cycle and keys (R104–R109) -/

/-- The life-cycle state changes; debug gating follows at once (R105): a DEBUG_UNLOCK is in force in PROVISIONED and RETURNED only (R137). -/
def State.setLc (s : State) (n : Nat) : State :=
  let s := if n = lcPROV ∨ n = lcRET then s else s.wr F.KPR_STATUS_MAKER_DBG 0
  (s.wr F.KPR_STATUS_LC n).raise (eg 0 7)

/-- Step 4 of R108: the current owner bank is blown, the journal and every owner-signed image slot erased, HBM zero. -/
def State.zeroise (s : State) : State :=
  let s := foldS (List.range 4) (fun i s => s.keyUpd i (fun _ => ⟨true, true, 2 ^ 384 - 1⟩)) s
  let s := { s with nvm := { s.nvm with half0 := [], half1 := [], dev := {} } }
  let s := foldS [1, 2, 3, 4] (fun k s => foldS [0, 1] (fun sl s =>
    let sel := byteN (s.imgAt k sl) 0x0D
    if 1 ≤ sel ∧ sel ≤ 4 then s.imgPut k sl [] else s) s) s
  { s with tmem := [], routes := [], pivots := [], look := {}, engCnt := [] }.raise (eg 0 8)

/-- LC_PROVISION (R105). -/
def State.lcProvision (s : State) (args : Bytes) : MbxAns :=
  if s.lc = lcRET ∧ 3 ≤ s.rd F.KPR_LC_RETURNS then { s := s, status := mBAD_STATE } else
  s.withTokens [s.tokenOk 0x0D args isMaker] fun s =>
    let s := if s.lc = lcRET then
      ((s.wr F.KPR_LC_RETURNS (s.rd F.KPR_LC_RETURNS + 1)).wr F.KPR_LC_OWNER_BANK (s.rd F.KPR_LC_OWNER_BANK + 1)).showKeys
      else s
    { s := s.setLc lcPROV, status := mOK }

/-- LC_FIELD. -/
def State.lcField (s : State) (args : Bytes) : MbxAns :=
  s.withTokens [s.tokenOk 0x0E args (s.isOwner none)] fun s => { s := s.setLc lcFIELD, status := mOK }

/-- Steps 4 and 5 of R108, once the device is in SAFEHOLD: owner material goes, the ZEROISED fuse is blown and the Keeper submits
RESTART. -/
def State.returnGo (s : State) : State :=
  if s.kpr.returning && s.inMode mSAFEHOLD && s.kprServes then
    ({ s.zeroise with kpr := { s.kpr with returning := false } }.wr F.KPR_LC_ZEROISED 1).keeperCmd 4
  else s

/-- LC_RETURN (R108). -/
def State.lcReturn (s : State) (args : Bytes) : MbxAns :=
  if !s.inMode mRUN && !s.inMode mSAFEHOLD then { s := s, status := mBAD_STATE } else
  s.withTokens [s.tokenOk 0x0F args isMaker, s.tokenOk 0x0F args (s.isOwner none)] fun s =>
    { s := { s.setLc lcRET with kpr := { s.kpr with returning := true } }, status := mOK
      next := fun s => if s.inMode mRUN then (s.keeperCmd 5).returnGo else s.returnGo }

/-- LC_SCRAP (R105, R107). -/
def State.lcScrap (s : State) (args : Bytes) : MbxAns :=
  let who := if s.lc = lcFIELD then s.isOwner none else isMaker
  s.withTokens [s.tokenOk 0x10 args who] fun s =>
    { s := s.setLc lcSCRAP, status := mOK, next := fun s => s.keeperCmd 5 }

/-- KEY_PROGRAM (R106). -/
def State.keyProgram (s : State) (args : Bytes) : MbxAns :=
  let i := leN args 0 4
  if args.length ≠ 52 ∨ 4 ≤ i then { s := s, status := mBAD_ARG }
  else if (s.keySlot i).prog then { s := s, status := mBAD_STATE }
  else
    let act (s : State) : MbxAns := { s := s.keyUpd i (fun _ => ⟨true, false, beN args 4 48⟩), status := mOK }
    if s.lc = lcPROV ∧ (List.range 4).all (fun j => !(s.keySlot j).prog) then act s
    else s.withTokens [s.tokenOk 0x11 args (s.isOwner (some i))] act

/-- KEY_REVOKE (R106). -/
def State.keyRevoke (s : State) (args : Bytes) : MbxAns :=
  let i := leN args 0 4
  if args.length ≠ 4 ∨ 4 ≤ i then { s := s, status := mBAD_ARG }
  else if !s.keyLive i || (List.range 4).all (fun j => j == i || !s.keyLive j) then { s := s, status := mBAD_STATE }
  else s.withTokens [s.tokenOk 0x12 args (s.isOwner (some i))] fun s =>
    { s := s.keyUpd i (fun k => { k with revoked := true }), status := mOK }

/-- GET_CHALLENGE: a new nonce; the tokens held are discarded (R121). -/
def State.getChallenge (s : State) : MbxAns :=
  let (a, s) := s.draw
  let (b, s) := s.draw
  let (c, s) := s.draw
  let (d, s) := s.draw
  let n := leB 8 a.toNat ++ leB 8 b.toNat ++ leB 8 c.toNat ++ leB 8 d.toNat
  { s := { s with kpr := { s.kpr with nonce := n, tokens := [] } }, status := mOK, pay := n }

/-- DEBUG_UNLOCK (R137). -/
def State.debugUnlock (s : State) (args : Bytes) : MbxAns :=
  s.withTokens [s.tokenOk 0x13 args isMaker] fun s => { s := s.wr F.KPR_STATUS_MAKER_DBG 1, status := mOK }

/-! ### Image update (R122, R123, R125, R132) -/

/-- GET_INFO: life cycle, slots and versions (log entry 69). -/
def State.kprInfo (s : State) : Bytes :=
  leB 4 (s.rdr R.KPR_STATUS) ++ leB 4 (s.rdr R.KPR_LC)
    ++ (List.range 4).flatMap (fun i => leB 4 (s.rdr (R.KPR_IMG.at i)))
    ++ (List.range 4).flatMap (fun i => leB 4 (s.rdr (R.KPR_SECVER.at i)))

/-- IMG_BEGIN (R122). -/
def State.imgBegin (s : State) (b : Bytes) : MbxAns :=
  let k := leN b 0 4
  let n := leN b 4 4
  if b.length ≠ 8 ∨ k = 0 ∨ 5 < k ∨ imgMax k < n ∨ n = 0 then { s := s, status := mBAD_ARG }
  else
    let rx : ImgRx := { typ := k, total := n }
    if k = 5 then { s := { s with kpr := { s.kpr with rx := some rx } }, status := mOK }
    else if 2 ≤ (s.bcr.typ k).state then { s := s, status := mBAD_STATE }
    else
      let s := (s.bcrWrite (s.bcr.upd k (fun t => { t with state := iIDLE }))).imgPut k (s.inactive k) []
      { s := { s with kpr := { s.kpr with rx := some rx } }, status := mOK }

/-- IMG_DATA (R122). -/
def State.imgData (s : State) (b : Bytes) : MbxAns :=
  match s.kpr.rx with
  | none => { s := s, status := mBAD_STATE }
  | some rx =>
    let d := b.drop 4
    if b.length < 5 ∨ leN b 0 4 ≠ rx.data.length ∨ rx.total < rx.data.length + d.length then { s := s, status := mBAD_ARG }
    else
      let rx := { rx with data := rx.data ++ d }
      let s := { s with kpr := { s.kpr with rx := some rx } }
      { s := if rx.typ = 5 then s else s.imgPut rx.typ (s.inactive rx.typ) rx.data, status := mOK }

/-- IMG_END (R119, R121, R122). -/
def State.imgEnd (s : State) : MbxAns :=
  match s.kpr.rx with
  | none => { s := s, status := mBAD_STATE }
  | some rx =>
    let s0 := { s with kpr := { s.kpr with rx := none } }
    if rx.data.length ≠ rx.total then { s := s, status := mBAD_STATE } else
    let n := s.verify rx.typ rx.data
    if n ≠ 0 then { s := s0, status := verifyCode n, detail := n }
    else if rx.typ = 5 then
      if 2 ≤ s.kpr.tokens.length then { s := s0, status := mBAD_STATE }
      else { s := { s0 with kpr := { s0.kpr with tokens := s0.kpr.tokens ++ [rx.data] } }, status := mOK }
    else { s := (s0.bcrWrite (s0.bcr.upd rx.typ (fun t => { t with state := iSTAGED }))).raise (eg 0 10), status := mOK }

/-- DPLL A is in FREERUN, or has been LOCKED for at least 60 s. -/
def State.dpllReady (s : State) : Bool :=
  let d := s.rd F.WRS_STATUS_DPLLA_STATE
  d == dFREERUN || (d == dLOCKED && decide (s.tb.lockAtA + 60 * 10 ^ 9 ≤ s.tb.up))

/-- The conditions of a WARM set (R132). -/
def State.warmOk (s : State) : Bool :=
  s.inMode mRUN && !s.on F.MOD_STATUS_PHASE && !s.on F.MOD_STATUS_CMD_PEND && !s.on F.BIS_GTEST_STATUS_ACTIVE && s.running
  && s.dpllReady

/-- ARM (R123, R132). -/
def State.imgArm (s : State) (b : Bytes) : MbxAns :=
  let set := leN b 0 4
  let mode := leN b 4 4
  let ks := (List.range 4).filter (fun i => bitN set i)
  if b.length ≠ 20 ∨ set = 0 ∨ 16 ≤ set ∨ (mode ≠ 1 ∧ mode ≠ 2) then { s := s, status := mBAD_ARG }
  else if s.trialSet ≠ 0 ∨ s.armedSet 1 ≠ 0 ∨ s.armedSet 2 ≠ 0 ∨ !ks.all (fun i => (s.bcr.typ (i + 1)).state == iSTAGED) then
    { s := s, status := mBAD_STATE }
  else if mode = 2 ∧ !ks.all (fun i => (i == 1 || i == 2) && decide (leN (s.imgAt (i + 1) (s.inactive (i + 1))) 0x0E 2 % 2 = 1)) then
    { s := s, status := mBAD_ARG }
  else if mode = 2 ∧ !s.warmOk then { s := s, status := mBAD_STATE }
  else
    let s := s.bcrWrite (s.bcr.updSet set (fun t => { t with state := iARMED, armMode := mode }))
    let tick := if mode = 2 ∧ leN b 8 4 ≠ 0 then some (max (leN b 12 8) s.tb.nextTick) else none
    { s := { s with kpr := { s.kpr with armTick := tick } }, status := mOK }

/-- DISARM (R123): not once its swap has started. -/
def State.imgDisarm (s : State) : MbxAns :=
  let set := s.armedSet 1 + s.armedSet 2
  if set = 0 ∨ s.kpr.swap.isSome then { s := s, status := mBAD_STATE }
  else
    let s := s.bcrWrite (s.bcr.updSet set (fun t => { t with state := iSTAGED, armMode := 0 }))
    { s := { s with kpr := { s.kpr with armTick := none } }, status := mOK }

/-- The records of a settings half: 0 or 1. -/
def State.half (s : State) (h : Nat) : List (Nat × Bytes) := if h = 0 then s.nvm.half0 else s.nvm.half1

/-- Set the records of a half. -/
def State.halfPut (s : State) (h : Nat) (l : List (Nat × Bytes)) : State :=
  { s with nvm := if h = 0 then { s.nvm with half0 := l } else { s.nvm with half1 := l } }

/-- Raise the fuse counters of a set to the security versions of the images in use (R120). -/
def State.raiseSecVer (s : State) (set : Nat) : State :=
  foldS ((List.range 4).filter (fun i => bitN set i)) (fun i s =>
    let v := leN (s.imgAt (i + 1) (s.active (i + 1))) 0x10 4
    s.wr (F.KPR_SECVER_COUNT.at i) (max (s.rd (F.KPR_SECVER_COUNT.at i)) v)) s

/-- CONFIRM (R120, R125): a shadow half that holds records is valid (log entry 83). -/
def State.imgConfirm (s : State) : MbxAns :=
  let set := s.trialSet
  if set = 0 then { s := s, status := mBAD_STATE }
  else
    let b := s.bcr.updSet set (fun t => { t with active := 1 - t.active % 2, state := iIDLE, armMode := 0 })
    let live := if (s.half (1 - b.setLive)).isEmpty then b.setLive else 1 - b.setLive
    let s := (s.bcrWrite { b with setLive := live }).raiseSecVer set
    { s := { s.raise (eg 0 3) with kpr := { s.kpr with winEnd := none } }, status := mOK }

/-! ### Warm swap (R132–R134) -/

/-- Show whether a swap is active, with its event. -/
def State.swapShow (s : State) (on : Bool) : State := (s.wr F.KPR_STATUS_SWAP_ACTIVE (b2n on)).raise (eg 0 (if on then 4 else 5))

/-- Put the swap at a step. -/
def State.swapAt (s : State) (w : Swap) : State := { s with kpr := { s.kpr with swap := some w } }

/-- Step 2 begins: field firmware receives SWAP_PREPARE and takes no further host command (R133). -/
def State.swapHold (s : State) (w : Swap) : State :=
  { s.swapAt { w with step := 2 } with kpr := { s.kpr with swap := some { w with step := 2 }, hold := true } }.emit .swapPrepare

/-- The set of a swap holds image type `k`. -/
def Swap.has (w : Swap) (k : Nat) : Bool := bitN w.set (k - 1)

/-- The next gallery in service from `g` on; 8 when none is left. -/
def State.nextGal (s : State) (g : Nat) : Nat :=
  ((List.range 8).find? (fun i => decide (g ≤ i) && decide (s.galState i = gSERVICE))).getD 8

/-- The swap ends: SWAP_ACTIVE clears and, after a swap forward, the window starts (R124, R133). -/
def State.swapEnd (s : State) (w : Swap) : State :=
  let until_ := s.tb.up + s.rd F.KPR_CONFIRM_WIN_SECONDS * 10 ^ 9
  let s := { s with kpr := { s.kpr with swap := none, hold := false, winEnd := if w.back then none else some until_ } }
  (if w.has 3 then s.showSecVer 3 s.kpr.eng else s).swapShow false

/-- Step 5 at gallery `g` or a later one in service, or the end. -/
def State.swapGal (s : State) (w : Swap) (g : Nat) : State :=
  let n := s.nextGal g
  if !w.has 3 || n = 8 then s.swapEnd w else (s.swapAt { w with step := 5, gal := n }).galDrain n

/-- A warm swap back, from its own start (R134): the previous images are the verified copies kept in staging, where the swap had come
to exchange them; steps 2–4 are skipped where field firmware was not changed. -/
def State.swapBack (s : State) (set : Nat) (exchanged fwChanged : Bool) : State :=
  let w : Swap := { step := 2, back := true, set := set, start := s.tb.up }
  let s := s.wr F.KPR_STATUS_SWAP_ACTIVE 1
  let s := if exchanged && w.has 3 then { s with kpr := { s.kpr with eng := s.kpr.engPrev } } else s
  let s := if exchanged && w.has 2 then { s with kpr := { s.kpr with fw := s.kpr.fwPrev } } else s
  if fwChanged then s.swapHold w else { s with kpr := { s.kpr with hold := false } }.swapGal w 0

/-! ### Reverts (R126, R130) -/

/-- A register word with its Loaded fields back at Reset (R84). -/
def loadedReset (a : Nat) (w : Word) : Word :=
  match regRow a with
  | none => w
  | some (r, ix) => r.fields.foldl (fun w f => if f.loaded then putBits w f.hi f.lo (fieldReset r ix f) else w) w

/-- Every register and table written from a configuration image is cleared (R84). -/
def State.configClear (s : State) : State :=
  let regs := s.regs.foldl (fun (m : SMap Word) x =>
    if earlyWord x.1 ∨ decide (0x3A00000 ≤ x.1) then mset regReset m x.1 (loadedReset x.1 x.2) else m) []
  { s with regs := regs, tmem := [], routes := [], pivots := [], look := {}, cls := [], acl := {}, shp := {}, gate := [], stm := [], sq := {}, svy := {}, hrd := {} }

/-- A type armed COLD enters TRIAL when the start sequence reaches its load; an image that fails ends the trial of the set with
TRIAL_VERIFY_FAIL (R124, R126). -/
def State.trialAt (s : State) (k : Nat) : State :=
  let t := s.bcr.typ k
  if t.state = iARMED ∧ t.armMode = 1 then
    let s := s.enterTrial (2 ^ (k - 1)) false
    if s.slotGood k (s.inactive k) then s else s.bcrRevert (s.trialSet + s.armedSet 1) 4
  else s

/-- The image a type is loaded from: its slot in use, or the other one where that fails outside a trial (R80). -/
def State.loadSlot (s : State) (k : Nat) : Option Nat :=
  let u := s.slotInUse k
  if s.slotGood k u then some u
  else if (s.bcr.typ k).state ≠ iTRIAL ∧ s.slotGood k (1 - u) then some (1 - u) else none

/-- Step 4 begins: field firmware and engine images are chosen and verified, every gallery and the SerDes microcontrollers are loaded
(R80, R118, R124, R331); the step fails when an image or a program is missing. -/
def State.step4Start (s : State) : State :=
  let s := (s.trialAt 2).trialAt 3
  match s.loadSlot 2, s.loadSlot 3 with
  | some a, some b =>
    let eng := s.imgAt 3 b
    let fw := s.imgAt 2 a
    let s := { (s.showSecVer 2 fw).showSecVer 3 eng with kpr := { s.kpr with
      eng := eng, fw := fw, serdes := serdesCode fw, fwUp := false, hold := false, wait := [] } }
    let s := foldS (List.range 8) (fun g s => (s.galOff g).loadGal g (engProg eng g)) s
    if (List.range 8).all (fun g => s.galState g == gLOADING) then s else s.ascentFail 4
  | _, _ => s.ascentFail 4

/-- ASCENT returns to step 4 with the previous slots (R130). -/
def State.ascentBack (s : State) : State :=
  let s := s.configClear
  let up := s.tb.up
  ({ s.wr F.MOD_STATUS_STEP 4 with md := { s.md with stepAt := up } }).step4Start

/-- A trial ends with a reason (R126): back to step 4 of ASCENT, a warm swap back, or a RESTART; PROBE ends in a cold start of its own. -/
def State.revert (s : State) (set reason : Nat) : State :=
  let warm := s.kpr.trialWarm
  let s := s.bcrRevert set reason
  let step := s.rd F.MOD_STATUS_STEP
  if s.inMode mASCENT ∧ step < 4 then s
  else if s.inMode mASCENT ∧ step ≤ 5 then s.ascentBack
  else if s.inMode mRUN ∧ warm then s.swapBack set true (bitN set 1)
  else if s.inMode mPROBE then s
  else s.keeperCmd 4

/-- REVERT (R126). -/
def State.imgRevert (s : State) : MbxAns :=
  let set := s.trialSet
  if set = 0 ∨ s.inMode mPROBE then { s := s, status := mBAD_STATE } else { s := s, status := mOK, next := fun s => s.revert set 5 }

/-- SETTINGS_UNREADABLE (R130). -/
def State.setUnreadable (s : State) : MbxAns :=
  let set := s.trialSet
  if set = 0 then { s := s, status := mBAD_STATE }
  else
    let s := (s.bcrWrite { s.bcr with setFlags := 1 }).raise (eg 0 6)
    { s := s, status := mOK, next := fun s => s.revert set 2 }

/-- The confirmation window ends (R126). -/
def State.windowExpired (s : State) : State :=
  match s.kpr.winEnd with
  | some t => if s.trialSet ≠ 0 then let s := s.advanceUp t; s.revert s.trialSet 1 else s
  | none => s

/-- WIN_LEFT reaches 60 seconds (R489). -/
def State.windowLow (s : State) : State :=
  match s.kpr.winEnd with
  | some t => if s.trialSet ≠ 0 ∧ s.tb.up ≤ t - 60 * 10 ^ 9 then (s.advanceUp (t - 60 * 10 ^ 9)).raise (eg 0 11) else s
  | none => s

/-! ### Settings (R128, R129) -/

/-- Bytes of a record in the journal: its header of 16 bytes and its value (log entry 69). -/
def recBytes (r : Nat × Bytes) : Nat := 16 + r.2.length

/-- Bytes of a list of records. -/
def halfBytes (l : List (Nat × Bytes)) : Nat := l.foldl (fun n r => n + recBytes r) 0

/-- The last record of each key, in order. -/
def compactRecs : List (Nat × Bytes) → List (Nat × Bytes)
  | [] => []
  | r :: l => if l.any (fun x => x.1 == r.1) then compactRecs l else r :: compactRecs l

/-- Size of a settings half. -/
def halfMax : Nat := 8 * 2 ^ 20

/-- SETTINGS_READ: key and half selector (0 live, 1 shadow); a key without a record reads empty (log entry 84). -/
def State.settingsRead (s : State) (b : Bytes) : MbxAns :=
  let sel := leN b 16 4
  if b.length ≠ 20 ∨ 1 < sel then { s := s, status := mBAD_ARG }
  else if sel = 1 ∧ s.trialSet = 0 then { s := s, status := mBAD_STATE }
  else
    let l := s.half (if sel = 0 then s.bcr.setLive else 1 - s.bcr.setLive)
    { s := s, status := mOK, pay := match (l.reverse.find? (fun r => r.1 == leN b 0 16)) with | some r => r.2 | none => [] }

/-- SETTINGS_WRITE (R128, R129). -/
def State.settingsWrite (s : State) (b : Bytes) : MbxAns :=
  if b.length < 16 ∨ 16 + 4064 < b.length then { s := s, status := mBAD_ARG } else
  let r : Nat × Bytes := (leN b 0 16, b.drop 16)
  let live := s.bcr.setLive
  if s.trialSet ≠ 0 then
    let l := s.half (1 - live) ++ [r]
    if halfMax < halfBytes l then { s := s, status := mFULL } else { s := s.halfPut (1 - live) l, status := mOK }
  else
    let l := s.half live ++ [r]
    if halfBytes l ≤ halfMax then { s := s.halfPut live l, status := mOK }
    else
      let c := compactRecs l
      if halfMax < halfBytes c then { s := s, status := mFULL }
      else { s := (s.halfPut (1 - live) c).bcrWrite { s.bcr with setLive := 1 - live }, status := mOK }

/-! ### Steps of a swap (R133, R134) -/

/-- A set armed WARM starts its swap, at its tick when it names one. -/
def State.swapStart (s : State) : State :=
  let set := s.armedSet 2
  let due := match s.kpr.armTick with | none => true | some t => s.running && decide (t ≤ s.tick)
  if set ≠ 0 ∧ s.kpr.swap.isNone ∧ due = true ∧ s.inMode mRUN ∧ s.kprServes then
    ({ s with kpr := { s.kpr with armTick := none } }.swapAt { step := 1, back := false, set := set, start := s.tb.up }).swapShow true
  else s

/-- Step 1 ends: the armed images are copied to staging and verified, the copies in use kept there (R134); one that fails ends the swap
with TRIAL_VERIFY_FAIL. -/
def State.swapVerified (s : State) (w : Swap) : State :=
  let ks := [2, 3].filter (fun k => w.has k)
  if !ks.all (fun k => s.slotGood k (s.inactive k)) then
    ({ s.bcrRevert w.set 4 with kpr := { s.kpr with swap := none, winEnd := none } }).swapShow false
  else
    let s := if w.has 3 then { s with kpr := { s.kpr with engPrev := s.kpr.eng, eng := s.imgAt 3 (s.inactive 3) } } else s
    let s := if w.has 2 then { s with kpr := { s.kpr with fwPrev := s.kpr.fw, fw := s.imgAt 2 (s.inactive 2) } } else s
    if w.has 2 then s.swapHold w else (s.enterTrial w.set true).swapGal w 0

/-- Step 2 ends: TRIAL is written, a DPLL A that is LOCKED with the servo goes to HOLDOVER, and the control cores are reset. -/
def State.swapPrepared (s : State) (w : Swap) : State :=
  let s := if w.back then s else s.enterTrial w.set true
  let s := if s.servo then s.loseA else s
  { s with kpr := { s.kpr with fwUp := false, wait := [] } }.swapAt { w with step := 3 }

/-- Step 3 ends: the control cores start the new firmware, whose mailbox requests are served from now on. -/
def State.swapLoaded (s : State) (w : Swap) : State :=
  { s.showSecVer 2 s.kpr.fw with kpr := { s.kpr with fwUp := true } }.swapAt { w with step := 4 }

/-- API version of the field firmware delivered for stepping A1 (R473, R476). -/
def apiVersion : Nat := 1

/-- Field firmware has started: it takes host commands and gives its notices (R477). -/
def State.fwStarted (s : State) : State :=
  let s := { s with kpr := { s.kpr with fwUp := true, hold := false } }
  s.notice ([2, 0] ++ leB 2 apiVersion)

/-- UPDATE_REVERTED of the previous firmware, from KPR_UPD (R127, R477). -/
def State.revertNotice (s : State) : State :=
  if s.rd F.KPR_UPD_REASON = 0 then s
  else s.notice [1, BitVec.ofNat 8 (s.rd F.KPR_UPD_REASON), BitVec.ofNat 8 (s.rd F.KPR_UPD_SET)]

/-- A step of the warm swap completes (R133). -/
def State.swapStep (s : State) : State :=
  match s.kpr.swap with
  | none => s
  | some w =>
    match w.step with
    | 1 => s.swapVerified w
    | 2 => s.swapPrepared w
    | 3 => s.swapLoaded w
    | 4 => let s := s.fwStarted; (if w.back then s.revertNotice else s).swapGal w 0
    | _ => if s.galState w.gal = gSERVICE then s.swapGal { w with done := w.done + 1 } (w.gal + 1) else s

/-- When the step in progress must have ended, in ms from the start of the swap (R133). -/
def Swap.max (w : Swap) : Nat :=
  match w.step with
  | 1 => 250 | 2 => 270 | 3 => 330 | 4 => 900 | _ => (if w.has 2 then 900 else 250) + 110 * (w.done + 1)

/-- A step passes its maximum (R134): the swap fails and runs back, or the device restarts when it is a swap back. -/
def State.swapTimeout (s : State) : State :=
  match s.kpr.swap with
  | none => s
  | some w =>
    let s := s.advanceUp (w.start + w.max * 10 ^ 6)
    if w.back then s.keeperCmd 4
    else (s.bcrRevert w.set 6).swapBack w.set (decide (w.step ≠ 1)) (w.has 2 && decide (3 ≤ w.step))

/-! ### Gallery loads and drains by the Keeper (R277, R331, R332) -/

/-- The program gallery `g` is loaded with: in LULL GAL0 runs the lull program. -/
def State.progFor (s : State) (g : Nat) : Option Bytes := if s.lull then lullProg s.kpr.eng else engProg s.kpr.eng g

/-- The Keeper loads gallery `g`, which is off, drained or tested: in ASCENT from step 4, in RUN, and GAL0 in LULL. -/
def State.loadByKeeper (s : State) (g : Nat) : State :=
  let st := s.galState g
  let may := (s.inMode mASCENT && decide (4 ≤ s.rd F.MOD_STATUS_STEP)) || s.inMode mRUN || (s.lull && g == 0)
  let failed := (match s.bist.gt with | some t => t.g == g | none => false) || bitN s.bist.gfail g
  if s.keeperUp && may && !failed && (st == gOFF || (st == gLOADING && (s.galI g).loadAt.isNone)) then
    (s.hrdReclaim g).loadGal g (s.progFor g)
  else s

/-- A drain ends (R332): the gallery goes to be loaded, or to its test. -/
def State.drainEnd (s : State) (g : Nat) : State :=
  if s.galState g ≠ gDRAINING then s else
  match s.bist.gt with
  | some t =>
    if t.g = g then
      let s := (s.galDrained g gTEST).hrdReclaim g
      { s.wr F.BIS_STATUS_PHASE 6 with bist := { s.bist with gt := some { t with step := 3 } } }
    else (s.galDrained g gLOADING).hrdReclaim g
  | none => (s.galDrained g gLOADING).hrdReclaim g

/-- Not every thread reached PKT READY within 1 ms of the load (R277). -/
def State.loadTimeout (s : State) (g : Nat) : State :=
  match (s.galI g).loadAt with
  | none => s
  | some t =>
    if s.galState g ≠ gLOADING then s else
    let s := s.advanceUp (t + 10 ^ 6)
    let s := (s.galOff g).galEvt g F.GAL_EVT_LOAD_FAIL
    if s.inMode mASCENT then s.ascentFail 4
    else match s.kpr.swap with
      | some w => if w.step = 5 ∧ w.gal = g then s.swapTimeout else s
      | none => s

/-- Engine thread debug is permitted (R104, R333). -/
def State.engDebug (s : State) : Bool :=
  if s.lc = lcFIELD then s.on F.KPR_DBG_ENG_DBG_EN
  else s.lc = lcBLANK ∨ ((s.lc = lcPROV ∨ s.lc = lcRET) ∧ s.on F.KPR_STATUS_MAKER_DBG)

/-! ### The capability table and the order of service (R103, R136, R137) -/

/-- A row of the capability table: the host and field firmware may make the request, the life-cycle state permits it, it writes NVM,
what it does. -/
structure MbxRow where
  host : Bool
  fw : Bool
  lc : Bool
  nvm : Bool
  body : State → Bytes → MbxAns

/-- The capability table by CODE, with the life-cycle restrictions of R104–R106 (R137). -/
def State.mbxRow (s : State) (code : Nat) : MbxRow :=
  match code with
  | 0x01 => ⟨true, true, true, false, fun s _ => { s := s, status := mOK, pay := s.kprInfo }⟩
  | 0x02 => ⟨true, true, true, true, State.imgBegin⟩
  | 0x03 => ⟨true, true, true, true, State.imgData⟩
  | 0x04 => ⟨true, true, true, true, fun s _ => s.imgEnd⟩
  | 0x05 => ⟨true, true, true, true, State.imgArm⟩
  | 0x06 => ⟨true, true, true, true, fun s _ => s.imgDisarm⟩
  | 0x07 => ⟨false, true, true, true, fun s _ => s.imgConfirm⟩
  | 0x08 => ⟨true, true, true, true, fun s _ => s.imgRevert⟩
  | 0x09 => ⟨false, true, true, true, fun s _ => s.setUnreadable⟩
  | 0x0A => ⟨false, true, true, false, State.settingsRead⟩
  | 0x0B => ⟨false, true, true, true, State.settingsWrite⟩
  | 0x0C => ⟨true, false, true, false, fun s _ => s.getChallenge⟩
  | 0x0D => ⟨true, false, s.lc == lcBLANK || s.lc == lcRET, false, State.lcProvision⟩
  | 0x0E => ⟨true, false, s.lc == lcPROV, false, State.lcField⟩
  | 0x0F => ⟨true, false, s.lc == lcFIELD, false, State.lcReturn⟩
  | 0x10 => ⟨true, false, s.lc != lcSCRAP, false, State.lcScrap⟩
  | 0x11 => ⟨true, false, s.lc == lcPROV || s.lc == lcFIELD, false, State.keyProgram⟩
  | 0x12 => ⟨true, false, s.lc == lcPROV || s.lc == lcFIELD, false, State.keyRevoke⟩
  | 0x13 => ⟨true, false, s.lc == lcPROV || s.lc == lcRET, false, State.debugUnlock⟩
  | _ => ⟨false, false, false, false, fun s _ => { s := s, status := mDENIED }⟩

/-- Serve a request with its payload (R103, R138): refused with MBX_DENIED where the requester or the life-cycle state is not permitted
it, then with MBX_BAD_ARG where its header is malformed; a failing erase or program of NVM ends it with MBX_NVM_ERROR and without
effect. -/
def State.mbxRun (s : State) (code : Nat) (may fmt : Bool) (nvm : Option Word) (pay : Bytes) : MbxAns :=
  let row := s.mbxRow code
  if !may || !row.lc then { s := s, status := mDENIED }
  else if !fmt then { s := s, status := mBAD_ARG }
  else
    let r := row.body s pay
    match nvm with
    | some off => if row.nvm && decide (r.status = mOK) then { s := s.raise (eg 0 9), status := mNVM_ERROR, detail := off.toNat } else r
    | none => r

/-- Serve a control core's request. -/
def State.mbxCore (s : State) (x : CoreReq) : State :=
  if !s.kpr.fwUp then s else
  let r := s.mbxRun x.code (s.mbxRow x.code).fw (decide (x.pay.length ≤ 4080)) x.nvm x.pay
  r.next (r.s.mbxToCore x.core x.seq r.status r.detail r.pay)

/-- The requests of control cores that came after the host's are served in their order. -/
def State.mbxWaiting (s : State) : State := foldS s.kpr.wait (fun x s => s.mbxCore x) { s with kpr := { s.kpr with wait := [] } }

/-- The Keeper serves request `code` in the order of the GO writes (R136): the host's that is pending, or a core's, which waits while an
earlier request of the host's is pending; a core has one request at a time. -/
def State.mbx (s : State) (m : Mbx) (code : Nat) : State :=
  if !s.kprServes then s else
  match m.src with
  | .host =>
    if s.on F.KPR_MBX_STATUS_PENDING && decide (s.mbxWord 0 % 256 = code) then
      let r := s.mbxRun code ((s.mbxRow code).host && !bitN (s.rd F.KPR_CAP_MASK_DENY) code) s.mbxFormat m.nvm s.mbxPayload
      (r.next (r.s.mbxRespond r.status r.detail r.pay)).mbxWaiting
    else s
  | .core c seq pay =>
    let x : CoreReq := ⟨c.val, seq.toNat, code, pay, m.nvm⟩
    if s.on F.KPR_MBX_STATUS_PENDING then
      if !s.kpr.fwUp || s.kpr.wait.any (fun y => y.core == c.val) then s
      else { s with kpr := { s.kpr with wait := s.kpr.wait ++ [x] } }
    else s.mbxCore x

end Sys2Proof.Machine
end

