-- ==== Sys2Proof/Machine/Bist.lean ====
section
/-! DEFINITION. Self-test and repair (R490–R513): results, fail log, repair, HBM, online gallery test, PROBE, ECC. -/

namespace Sys2Proof.Machine

/-! ### Logs (R494, R499, R513) -/

/-- Show the head of the fail log and its level. -/
def State.showFail (s : State) : State :=
  (s.wr64 R.BIS_FAIL_LOG (s.bist.failLog.headD 0)).wr F.BIS_FAIL_STATUS_LEVEL s.bist.failLog.length

/-- Add a record to the fail log; one that finds it full is counted in LOST. -/
def State.failPush (s : State) (r : Nat) : State :=
  if 1024 ≤ s.bist.failLog.length then s.satInc F.BIS_FAIL_STATUS_LOST
  else { s with bist := { s.bist with failLog := s.bist.failLog ++ [r] } }.showFail

/-- Remove the head of the fail log. -/
def State.failPop (s : State) : State := { s with bist := { s.bist with failLog := s.bist.failLog.tail } }.showFail

/-- A fail-log record (R494). -/
def failRecord (src outcome : Nat) (w : FailWord) : Nat :=
  2 ^ 63 + src * 2 ^ 61 + outcome * 2 ^ 59 + w.mem % 2 ^ 17 * 2 ^ 42 + w.row % 2 ^ 26 * 2 ^ 16
    + (w.bits.foldl min (w.bits.headD 0)) % 256 * 256 + min w.bits.length 255

/-- Show the head of the HBM log. -/
def State.showHbm (s : State) : State := s.wr64 R.BIS_HBM_LOG (s.bist.hbmLog.headD 0)

/-- Add a record to the HBM log, a FIFO of 256. -/
def State.hbmPush (s : State) (kind : Nat) (x : HbmFail) : State :=
  let r := 2 ^ 63 + kind * 2 ^ 61 + x.stack.val * 2 ^ 58 + x.pch.val * 2 ^ 52 + x.bank.val * 2 ^ 47 + x.row.toNat * 2 ^ 29
  if 256 ≤ s.bist.hbmLog.length then s else { s with bist := { s.bist with hbmLog := s.bist.hbmLog ++ [r] } }.showHbm

/-- Remove the head of the HBM log. -/
def State.hbmPop (s : State) : State := { s with bist := { s.bist with hbmLog := s.bist.hbmLog.tail } }.showHbm

/-! ### Repair of one memory instance (R495) -/

/-- Put a number into an ascending list, once. -/
def insertAsc (n : Nat) : List Nat → List Nat
  | [] => [n]
  | a :: l => if n < a then n :: a :: l else if n = a then a :: l else a :: insertAsc n l

/-- Elements without repetition, ascending. -/
def ascending (l : List Nat) : List Nat := l.foldl (fun m n => insertAsc n m) []

/-- Failing cells, as (row, bit), that no listed row or column covers. -/
def uncovered (c : List (Nat × Nat)) (rows cols : List Nat) : List (Nat × Nat) :=
  c.filter (fun x => !rows.contains x.1 && !cols.contains x.2)

/-- The rows and columns that spares replace, from the failing cells and the free spare rows and columns; none when a failure
stays uncovered. -/
def repairPlan (c : List (Nat × Nat)) (fr fc : Nat) : Option (List Nat × List Nat) :=
  let rowsOf (l : List (Nat × Nat)) (b : Nat) : Nat := (ascending ((l.filter (fun x => x.2 == b)).map (·.1))).length
  let colsOf (l : List (Nat × Nat)) (r : Nat) : Nat := (ascending ((l.filter (fun x => x.1 == r)).map (·.2))).length
  let cols := ((ascending (c.map (·.2))).filter (fun b => decide (fr < rowsOf c b))).take fc
  let c1 := uncovered c [] cols
  let rows := ((ascending (c1.map (·.1))).filter (fun r => decide (fc - cols.length < colsOf c1 r))).take fr
  let c2 := uncovered c1 rows []
  let rows := rows ++ (ascending (c2.map (·.1))).take (fr - rows.length)
  let c3 := uncovered c2 rows []
  let cols := cols ++ (ascending (c3.map (·.2))).take (fc - cols.length)
  if (uncovered c rows cols).isEmpty then some (rows, cols) else none

/-- The LBIST partition of an instance (BIS_MEM_INFO.PART). -/
def memPart (m : Nat) : Nat := Config.memInfo m 0 % 128

/-- Spare rows and columns of an instance in use: the maker's, later fuses', soft ones. -/
def State.spareUsed (s : State) (m : Nat) : Nat × Nat :=
  let f := mget (fun _ => (0, 0)) s.nvm.fuse m
  let x := mget (fun _ => (0, 0)) s.bist.soft m
  (Config.memInfo m 6 + f.1 + x.1, Config.memInfo m 7 + f.2 + x.2)

/-- Failing cells of an instance. -/
def TestRes.cells (t : TestRes) (m : Nat) : List (Nat × Nat) :=
  (t.words.filter (fun w => w.mem == m)).flatMap (fun w => w.bits.map (fun b => (w.row, b)))

/-- The instances that fail. -/
def TestRes.mems (t : TestRes) : List Nat := ascending (t.words.map (·.mem))

/-- The repair of an instance; none when it is unrepairable, or fails the test that follows its repair (R493, R495). -/
def State.memPlan (s : State) (t : TestRes) (m : Nat) : Option (List Nat × List Nat) :=
  let u := s.spareUsed m
  if t.retest.contains m then none else repairPlan (t.cells m) (Config.memInfo m 4 % 256 - u.1) (Config.memInfo m 5 % 16 - u.2)

/-- Instances that are unrepairable. -/
def State.unrepairable (s : State) (t : TestRes) : List Nat := t.mems.filter (fun m => (s.memPlan t m).isNone)

/-- Make the repairs: in fuses, or soft. -/
def State.repair (s : State) (t : TestRes) (fuse : Bool) : State :=
  foldS t.mems (fun m s =>
    match s.memPlan t m with
    | none => s
    | some (r, c) =>
      let up (x : Nat × Nat) : Nat × Nat := (x.1 + r.length, x.2 + c.length)
      if fuse then { s with nvm := { s.nvm with fuse := mupd (fun _ => (0, 0)) s.nvm.fuse m up } }
      else { s with bist := { s.bist with soft := mupd (fun _ => (0, 0)) s.bist.soft m up } }) s

/-! ### Spare engines (R497) -/

/-- A partition's LBIST mismatched. -/
def TestRes.lbistBad (t : TestRes) (p : Nat) : Bool := t.lbist.any (fun r => r.part == p && !r.pass)

/-- The partition of an engine. -/
def engPart (g k : Nat) : Nat := 29 + 9 * g + k

/-- A partition is an engine's. -/
def isEngPart (p : Nat) : Bool := decide (29 ≤ p) && decide (p ≤ 100)

/-- Physical engine `k` of gallery `g` fails. -/
def State.engBad (s : State) (t : TestRes) (g k : Nat) : Bool :=
  t.lbistBad (engPart g k) || (s.unrepairable t).any (fun m => memPart m == engPart g k)

/-- Physical engines behind the logical ones of gallery `g`. -/
def State.physUsed (s : State) (g : Nat) : List Nat :=
  (List.range 8).map (fun e => bits (s.rd (F.GAL_MAP_PHYS.at g)) (4 * e + 3) (4 * e))

/-- The spare of gallery `g` is free and passes. -/
def State.spareGood (s : State) (t : TestRes) (g : Nat) : Bool :=
  bitN (s.rd F.BIS_GTEST_STATUS_SPARE_FREE) g && !s.engBad t g 8

/-- Failing engines in use. -/
def State.engFailing (s : State) (t : TestRes) (g : Nat) : List Nat := (s.physUsed g).filter (fun k => s.engBad t g k)

/-- The spare covers the failing engine of gallery `g`. -/
def State.spareCovers (s : State) (t : TestRes) (g : Nat) : Bool :=
  decide ((s.engFailing t g).length = 1) && s.spareGood t g

/-- The engines of gallery `g` cannot all be made good. -/
def State.galUnrep (s : State) (t : TestRes) (g : Nat) : Bool := !(s.engFailing t g).isEmpty && !s.spareCovers t g

/-- The map that skips physical engine `k`. -/
def skipMap (k : Nat) : Nat := (List.range 8).foldl (fun n e => n + (if e < k then e else e + 1) * 16 ^ e) 0

/-- Apply a test's result to the map of gallery `g`. -/
def State.mapRepair (s : State) (t : TestRes) (g : Nat) : State :=
  let free := s.rd F.BIS_GTEST_STATUS_SPARE_FREE
  let clear (s : State) : State := if bitN free g then s.wr F.BIS_GTEST_STATUS_SPARE_FREE (free - 2 ^ g) else s
  if s.spareCovers t g then
    let k := (s.engFailing t g).headD 0
    ((clear s).wr (F.GAL_MAP_PHYS.at g) (skipMap k)).wr (F.BIS_LBIST_RES_SPARED.at (engPart g k)) 1
  else if s.engBad t g 8 then clear s else s

/-! ### Results of a test (R491, R494) -/

/-- Partitions this unit tests: 116 not in standalone use. -/
def State.partTested (s : State) (p : Nat) : Bool := decide (1 ≤ p) && decide (p ≤ 116) && !(p == 116 && s.on F.GLB_CAPS_STANDALONE)

/-- The partitions that ASCENT step 2 and PROBE test. -/
def State.partsTested (s : State) : List Nat := (List.range 117).filter (fun p => s.partTested p)

/-- Store LBIST results; a partition without a result in the list passed. -/
def State.lbistStore (s : State) (t : TestRes) (parts : List Nat) : State :=
  foldS (parts.filter (fun p => s.partTested p)) (fun p s =>
    let r := t.lbist.find? (fun r => r.part == p && !r.pass)
    let s := (s.wr (F.BIS_LBIST_RES_RUN.at p) 1).wr (F.BIS_LBIST_RES_PASS.at p) (b2n r.isNone)
    s.wr (F.BIS_LBIST_RES_MISR.at p) (match r with | some r => r.misr | none => Config.lbistSig p)) s

/-- Delri runs, so partition 0 passed its LBIST (R490). -/
def State.lbistKeeper (s : State) : State :=
  ((s.wr (F.BIS_LBIST_RES_RUN.at 0) 1).wr (F.BIS_LBIST_RES_PASS.at 0) 1).wr (F.BIS_LBIST_RES_MISR.at 0) (Config.lbistSig 0)

/-- Only what concerns the partitions `ps` and their memories; a word fails in some bits, each named once. -/
def TestRes.within (t : TestRes) (ps : List Nat) : TestRes :=
  ⟨t.lbist.filter (fun r => ps.contains r.part),
    (t.words.filter (fun w => !w.bits.isEmpty && ps.contains (memPart w.mem))).map (fun (w : FailWord) => { w with bits := ascending w.bits }),
    t.retest.filter (fun m => ps.contains (memPart m))⟩

/-- OUTCOME of a failing word. -/
def State.failOutcome (s : State) (t : TestRes) (fuse : Bool) (w : FailWord) : Nat :=
  let p := memPart w.mem
  if (s.memPlan t w.mem).isSome then b2n fuse
  else if isEngPart p && s.spareCovers t ((p - 29) / 9) && (s.engFailing t ((p - 29) / 9)).contains ((p - 29) % 9) then 2 else 3

/-- The records of a test's failing words. -/
def State.failRecords (s : State) (t : TestRes) (src : Nat) (fuse : Bool) : List Nat :=
  t.words.map (fun w => failRecord src (s.failOutcome t fuse w) w)

/-- Log the failing words of a test. -/
def State.failWords (s : State) (t : TestRes) (src : Nat) (fuse : Bool) : State :=
  foldS (s.failRecords t src fuse) (fun r s => s.failPush r) s

/-- A test leaves something unrepairable: a partition, a memory outside the engines, or an engine without a spare. -/
def State.testBad (s : State) (t : TestRes) : Bool :=
  t.lbist.any (fun r => !r.pass && s.partTested r.part && !isEngPart r.part)
  || (s.unrepairable t).any (fun m => !isEngPart (memPart m))
  || (List.range 8).any (fun g => s.galUnrep t g)

/-- Partitions that mismatch. -/
def State.lbistFails (s : State) (t : TestRes) : Nat := (ascending ((t.lbist.filter (fun r => !r.pass && s.partTested r.part)).map (·.part))).length

/-! ### ASCENT steps 2 and 3 (R490, R496, R499, R502) -/

/-- What the device record restores (R502, R510). -/
def State.devRestore (s : State) : State :=
  let d := s.nvm.dev
  let s := s.wrr R.BIS_PROBE_RES d.probe
  let s := foldS d.lanes (fun x s => s.wrr (R.BIS_PROBE_LANE.at x.1) x.2) s
  let s := match d.fatal with | some (l, _) => s.wr64 R.BIS_ECC_LOG l | none => s
  { s with bist := { s.bist with failLog := d.fails } }.showFail

/-- Step 2 begins: the fail log is emptied and the device record restored. -/
def State.bistStart (s : State) : State :=
  { s with bist := { s.bist with failLog := [] } }.devRestore.wr F.BIS_STATUS_PHASE 1

/-- Step 2 ends: Passage wires, LBIST, MBIST and repair; true when it fails. -/
def State.bistDone (s : State) (e : StepEnv) : State × Bool :=
  if 96 < e.wiresFe ∨ 96 < e.wiresTm then (s.wr F.BIS_STATUS_PHASE 0, true) else
  let s := (s.wr F.BIS_PASSAGE_FE_TM e.wiresFe).wr F.BIS_PASSAGE_TM_FE e.wiresTm
  let t := e.test.within s.partsTested
  let s := s.lbistStore t (List.range 117)
  let s := s.wr F.BIS_GTEST_STATUS_SPARE_FREE 255
  let bad := s.testBad t
  let s := (s.wr F.BIS_STATUS_LBIST_FAILS (s.lbistFails t)).wr F.BIS_STATUS_UNREPAIRABLE (min (s.unrepairable t).length 255)
  let s := s.failWords t 0 false
  let s := foldS (List.range 8) (fun g s => s.mapRepair t g) s
  ((s.repair t false).wr F.BIS_STATUS_PHASE 0, bad)

/-- One failing HBM row in step 3: a post-package repair, else a remap row, else it is unrepairable. -/
def State.hbmRow (s : State) (x : HbmFail) : State :=
  let u := s.rd (F.BIS_HBM_STATUS_REMAP_USED.at x.stack.val)
  if x.ppr && x.fixed then ((s.satInc (F.BIS_HBM_STATUS_PPR_USED.at x.stack.val)).hbmPush 0 x).raise (eg 15 3)
  else if u < 64 ∧ (x.ppr ∨ x.fixed) then ((s.wr (F.BIS_HBM_STATUS_REMAP_USED.at x.stack.val) (u + 1)).hbmPush 1 x).raise (eg 15 3)
  else s.hbmPush 3 x

/-- A failing row takes neither. -/
def State.hbmRowBad (s : State) (x : HbmFail) : Bool :=
  !(x.ppr && x.fixed) && !(decide (s.rd (F.BIS_HBM_STATUS_REMAP_USED.at x.stack.val) < 64) && (x.ppr || x.fixed))

/-- Step 3 ends: training, test and repair of the stacks, which are left zero (R87); true when it fails. -/
def State.hbmDone (s : State) (e : StepEnv) : State × Bool :=
  let s := foldS (List.range 8) (fun i s =>
    let ok := b2n (!e.untrained.any (fun x => x.val == i))
    (s.wr (F.BIS_HBM_STATUS_TRAINED.at i) ok).wr (F.HBM_STACK_STATUS_READY.at i) ok) s
  let r := e.hbm.foldl (fun (p : State × Bool) x => (p.1.hbmRow x, p.2 || p.1.hbmRowBad x)) (s, false)
  ({ r.1 with tmem := [], routes := [], pivots := [], look := {}, engCnt := [] }.wr F.BIS_STATUS_PHASE 0, r.2 || !e.untrained.isEmpty)

/-! ### Remap in operation and ECC (R500, R507, R508, R510) -/

/-- A row of a stack as one number. -/
def HbmFail.rowNo (x : HbmFail) : Nat := ((x.stack.val * 64 + x.pch.val) * 32 + x.bank.val) * 2 ^ 18 + x.row.toNat

/-- A row is copied to a free remap row, which takes over; with none free it stays in use. -/
def State.hbmCopy (s : State) (x : HbmFail) : State :=
  let u := s.rd (F.BIS_HBM_STATUS_REMAP_USED.at x.stack.val)
  let s := { s with bist := { s.bist with rows := s.bist.rows.filter (fun r => r.1 ≠ x.rowNo) } }
  if 64 ≤ u then s
  else (((s.wr (F.BIS_HBM_STATUS_REMAP_USED.at x.stack.val) (u + 1)).cnt R.BIS_CNT 0x28).hbmPush 2 x).raise (eg 15 3)

/-- A correctable error of a row is noted beside those of the last second; 256 rows are followed, and whether one more takes the place
of the oldest is open (log entry 138). -/
def State.rowNote (s : State) (x : HbmFail) : State :=
  let up := s.tb.up
  let l := s.bist.rows.filter (fun r => decide (up < r.2 + 10 ^ 9))
  let n := (ascending (l.map (·.1))).length
  if l.any (fun r => r.1 == x.rowNo) || decide (n < 256) then { s with bist := { s.bist with rows := l ++ [(x.rowNo, up)] } }
  else
    let (v, s) := s.draw
    let old := (l.head?.map (·.1)).getD 0
    { s with bist := { s.bist with rows := if v.getLsbD 0 then l.filter (fun r => r.1 ≠ old) ++ [(x.rowNo, up)] else l } }

/-- An error that a controller meets in a row, in RUN and LULL: a correctable one, at which the row is remapped when ROW_THRESH of them
lie within one second, or an uncorrectable one (R500). -/
def State.hbmError (s : State) (x : HbmFail) (ue : Bool) : State :=
  if !s.inMode mRUN && !s.inMode mLULL then s else
  let s := (s.cnt R.BIS_CNT (if ue then 0x20 else 0x18)).cnt (R.HBM_CNT.at x.stack.val) (if ue then 0x18 else 0x10)
  if ue then (s.uncorrected x.rowNo).hbmCopy x
  else
    let s := s.rowNote x
    if max 1 (s.rd F.BIS_CFG_ROW_THRESH) ≤ (s.bist.rows.filter (fun r => r.1 == x.rowNo)).length then s.hbmCopy x else s

/-- Set a counter of the table region to its saturated value (R437). -/
def State.cntSaturate (s : State) (c : CntRef) : State :=
  let top := 2 ^ 64 - 1
  match c with
  | .engine i => { s with engCnt := mset (fun _ => 0) s.engCnt i top }
  | .acl sl i => if 16384 ≤ i then s else { s with acl := { s.acl with hits := mset (fun _ => 0) s.acl.hits (sl.val * 16384 + i) top } }
  | .sched k j =>
    { s with sq := { s.sq with ents := mupd (fun _ => {}) s.sq.ents k (fun (x : SEnt) => { x with cnt := x.cnt.set j top }) } }
  | .stream i j => { s with stm := mupd (fun _ => {}) s.stm i (fun (x : Stm) => { x with cnt := x.cnt.set j top }) }
  | .hist c b j =>
    let f (x : HBank) : HBank :=
      match j with
      | 32 => { x with count := top }
      | 33 => { x with sum := top }
      | 34 => { x with neg := top }
      | _ => if j < 32 then { x with bins := mset (fun _ => 0) x.bins j top } else x
    { s with svy := { s.svy with ctx := mupd (fun _ => {}) s.svy.ctx c (fun (x : HCtx) =>
      if b = 0 then { x with b0 := f x.b0 } else { x with b1 := f x.b1 }) } }

/-- What an uncorrectable error does in the structure that reads it. -/
def State.eccEffect (s : State) (k : EccKind) : State :=
  match k with
  | .plain => s
  | .packet egq i =>
    match (s.eq (egq / 8) (egq % 8))[i]? with
    | some f => (s.frameSet (egq / 8) (egq % 8) f { f with cut := true }).cnt R.BIS_CNT 0x10
    | none => s
  | .fatal =>
    if s.keeperUp then
      let rec_ := (s.rd64 R.BIS_ECC_LOG, s.tick)
      { s with nvm := { s.nvm with dev := { s.nvm.dev with fatal := some rec_ } } }.keeperCmd 4
    else s
  | .counter l => foldS l (fun c s => s.cntSaturate c) s
  | .pointers _ => s.cellsLost 0 1
  | .metaLine p => s.cellsLost p.val 15
  | .echo n => s.echError n.val

/-- What is at stake in an instance: one that BIS_MEM_INFO marks FATAL has no other rule. -/
def EccKind.of (mem : Nat) : EccKind → EccKind
  | .plain => if Config.memInfo mem 1 % 2 = 1 then .fatal else .plain
  | k => k

/-- A row shows errors; an uncorrectable one also has its effect where the row is read (R500, R437). -/
def State.hbmRemap (s : State) (x : HbmFail) (ue : Option EccKind) : State :=
  let t := s.hbmError x ue.isSome
  match ue with
  | some k => if s.inMode mRUN || s.inMode mLULL then t.eccEffect k else t
  | none => t

/-- An ECC error that a read or a scrubber meets in an on-die memory. -/
def State.eccError (s : State) (mem addr : Nat) (k : EccKind) (ue : Bool) : State :=
  if s.inMode mDORMANT then s
  else if !ue then ((s.cnt R.BIS_CNT 0x00).eccLog mem addr false).raise (eg 15 1)
  else (((s.cnt R.BIS_CNT 0x08).eccLog mem addr true).raise (eg 15 2)).eccEffect (k.of mem)

/-- A write of BIS_MEM_SEL loads the three words of BIS_MEM_INFO (R513). -/
def State.memSel (s : State) (m : Nat) : State :=
  let s := s.wr F.BIS_MEM_SEL_MEM m
  let i (k : Nat) : Nat := Config.memInfo m k
  let u := s.spareUsed m
  let none_ := decide (i 2 % 2 ^ 24 = 0)
  let s := ((s.wr F.BIS_MEM_SEL_PART (i 0)).wr F.BIS_MEM_SEL_FATAL (i 1)).wr F.BIS_MEM_SEL_ROWS (i 2)
  let s := ((s.wr F.BIS_MEM_SEL_WIDTH (i 3)).wr F.BIS_MEM_SEL_SPARE_ROWS (i 4)).wr F.BIS_MEM_SEL_SPARE_COLS (i 5)
  (s.wr F.BIS_MEM_SEL_ROWS_USED (if none_ then 0 else u.1)).wr F.BIS_MEM_SEL_COLS_USED (if none_ then 0 else u.2)

/-! ### Online gallery test (R503–R505) -/

/-- The code a request for gallery `g` is refused with, 0 when accepted. -/
def State.gtRefuse (s : State) (g : Nat) (atTick : Bool) : Nat :=
  if s.bist.gt.isSome then 1
  else if s.kpr.swap.isSome || decide (s.armedSet 2 ≠ 0) then 2
  else if !s.inMode mRUN || s.on F.MOD_STATUS_PHASE then 3
  else if s.galState ((g + 1) % 8) ≠ gSERVICE ∨ s.on (F.GAL_STATUS_SERVING_NBR.at g) then 4
  else if atTick && !s.running then 5 else 0

/-- The test starts: T1. A gallery that is not in service has nothing to drain; its slice is steered all the same (R29). -/
def State.gtStart (s : State) (g : Nat) : State :=
  let s := { s with bist := { s.bist with gt := some { g := g, step := 2 } } }
  let s := ((s.wr F.BIS_GTEST_STATUS_ACTIVE 1).wr F.BIS_GTEST_STATUS_RESULT 0).cnt R.BIS_CNT 0x38
  if s.galState g = gSERVICE then s.galDrain g
  else
    let s := ((s.wr (F.GAL_STATUS_STATE.at g) gTEST).steer g true).wr F.BIS_STATUS_PHASE 6
    { s with bist := { s.bist with gt := some { g := g, step := 3 } } }

/-- A request for a test of gallery `g`, at tick `t` when one is given; true when it is accepted. -/
def State.gtRequest (s : State) (g : Nat) (t : Option Nat) : State × Bool :=
  let n := s.gtRefuse g t.isSome
  let s := (s.wr F.BIS_GTEST_STATUS_GAL g).wr F.BIS_GTEST_STATUS_REJECT n
  if n ≠ 0 then (s.wr F.BIS_GTEST_STATUS_DONE 1, false)
  else match t with
    | none => (s.gtStart g, true)
    | some t => ({ s with bist := { s.bist with gtAt := some (g, if s.tickPassed t then s.tb.nextTick else t) } }, true)

/-- A write of BIS_GTEST_CTRL (R503); GO reads 1 until the test it requested ends, and is ignored until then (R11). -/
def State.gtWrite (s : State) (v : Nat) : State :=
  let s := (s.wr F.BIS_GTEST_CTRL_AT_TICK (bits v 31 31)).wr F.BIS_GTEST_CTRL_GAL (bits v 10 8)
  if v % 2 = 1 ∧ !s.on F.BIS_GTEST_CTRL_GO then
    let r := s.gtRequest (bits v 10 8) (if bitN v 31 then some (s.rd64 R.BIS_GTEST_TICK) else none)
    r.1.wr F.BIS_GTEST_CTRL_GO (b2n r.2)
  else s

/-- The Keeper's turn, every GTEST_AUTO_S seconds. -/
def State.gtAuto (s : State) : State :=
  if !s.on F.BIS_CFG_GTEST_AUTO_S || !s.kprServes then s else
  let g := s.bist.turn % 8
  let s := s.advanceUp (s.bist.autoAt + s.rd F.BIS_CFG_GTEST_AUTO_S * 10 ^ 9)
  let up := s.tb.up
  let r := { s with bist := { s.bist with turn := (g + 1) % 8, autoAt := up } }.gtRequest g none
  if r.2 then r.1 else r.1.cnt R.BIS_CNT 0x48

/-- The tick of a request has been issued in RUN: the test starts, or is refused as a request made now would be (log entry 139). -/
def State.gtTickDue (s : State) : State :=
  match s.bist.gtAt with
  | some (g, t) =>
    if s.running && s.inMode mRUN && decide (t ≤ s.tick) then
      let r := { s with bist := { s.bist with gtAt := none } }.gtRequest g none
      r.1.wr F.BIS_GTEST_CTRL_GO (b2n r.2)
    else s
  | none => s

/-- The test ends with a result. -/
def State.gtEnd (s : State) (g result : Nat) : State :=
  let s := { s with bist := { s.bist with gt := none } }
  let s := ((s.wr F.BIS_GTEST_STATUS_RESULT result).wr F.BIS_GTEST_STATUS_ACTIVE 0).wr F.BIS_GTEST_STATUS_DONE 1
  let s := s.wr F.BIS_GTEST_CTRL_GO (b2n s.bist.gtAt.isSome)
  let s := (s.wr F.BIS_STATUS_PHASE 0).raise (eg 15 4)
  if result = 3 then { (s.galOff g).cnt R.BIS_CNT 0x40 with bist := { s.bist with gfail := setBit s.bist.gfail g } } else s

/-- A word with its Loaded fields from `v`. -/
def loadedWord (fs : List RField) (old v : Word) : Word :=
  fs.foldl (fun w f => if f.loaded then putBits w f.hi f.lo (bits v.toNat f.hi f.lo) else w) old

/-- A register of the domain of gallery `g`: its page but for its first four registers, and its PMC page (R506). -/
def galPage (g a : Nat) : Bool :=
  (decide (0x700000 + g * 0x80000 + 0x10 ≤ a) && decide (a < 0x700000 + (g + 1) * 0x80000))
  || (decide (0x3900000 + g * 0x10000 ≤ a) && decide (a < 0x3900000 + (g + 1) * 0x10000))

/-- The domain of gallery `g` powers up after a test (R86): its registers at Reset, their Loaded fields as the image the Keeper holds
configures them (R12, R83, log entry 140), its sample FIFO and its held and latched words clear. -/
def State.galPower (s : State) (g : Nat) : State :=
  let s := { s with
    regs := s.regs.filter (fun x => !galPage g x.1)
    held := s.held.filter (fun x => !galPage g x.1)
    latch := s.latch.filter (fun x => !galPage g x.1)
    pmcSt := { due := s.pmcSt.due.filter (fun x => x.1 ≠ g), fifo := s.pmcSt.fifo.filter (fun x => x.1 ≠ g)
               runAt := s.pmcSt.runAt.filter (fun x => x.1 ≠ g) } }
  foldS (s.kpr.cfgCopy.filter (fun x => galPage g x.1)) (fun x s =>
    match regRow x.1 with
    | some (r, _) => s.wrw x.1 (loadedWord r.fields (s.rdw x.1) x.2)
    | none => s) s

/-- The partitions of a gallery. -/
def galParts (g : Nat) : List Nat := (21 + g) :: (List.range 9).map (engPart g)

/-- The memories and engines of gallery `g` cannot be made good. -/
def State.gtBad (s : State) (t : TestRes) (g : Nat) : Bool :=
  t.lbistBad (21 + g) || (s.unrepairable t).any (fun m => !isEngPart (memPart m)) || s.galUnrep t g

/-- T5: repair and the new map, or FAILED. -/
def State.gtRepair (s : State) (t : Gtest) : State :=
  if s.gtBad t.res t.g || bitN s.bist.gfail t.g then s.gtEnd t.g 3
  else
    let fixed := s.spareCovers t.res t.g || !t.res.words.isEmpty
    let s := (s.mapRepair t.res t.g).repair t.res false
    { s with bist := { s.bist with gt := some { t with step := 6, repaired := fixed } } }

/-- A step of the gallery test completes (R504). -/
def State.gtStep (s : State) (e : TestRes) : State :=
  match s.bist.gt with
  | none => s
  | some t =>
    let g := t.g
    let e := e.within (galParts g)
    let goto_ (s : State) (t : Gtest) : State := { s with bist := { s.bist with gt := some t } }
    match t.step with
    | 2 => s.drainEnd g
    | 3 => goto_ (s.lbistStore e (galParts g)) { t with step := 4, res := { t.res with lbist := e.lbist } }
    | 4 =>
      let res : TestRes := { e with lbist := t.res.lbist }
      goto_ (s.failWords res 2 false) { t with step := 5, res := res }
    | 5 => s.gtRepair t
    | 6 =>
      let s := (((s.galOff g).galPower g).loadGal g (engProg s.kpr.eng g)).echAfterTest g
      if s.galState g = gLOADING then goto_ s { t with step := 7 } else s.gtEnd g 3
    | _ =>
      if s.galState g = gSERVICE then s.gtEnd g (if t.repaired then 2 else 1)
      else if s.galState g = gOFF then s.gtEnd g 3 else s

/-! ### PROBE (R501, R502) -/

/-- A lane's result: at most one bit error passes. -/
def laneWord (errs : Nat) : Nat := 2 ^ 31 + b2n (decide (errs ≤ 1)) * 2 ^ 30 + min errs (2 ^ 30 - 1)

/-- Lane results, for the lanes tested. -/
def State.probeLanes (s : State) : SMap Nat :=
  (List.range 338).filterMap (fun i => let w := s.rdr (R.BIS_PROBE_LANE.at i); if w = 0 then none else some (i, w))

/-- A failure was seen. -/
def State.probeFail (s : State) (b : Bool) : State := { s with bist := { s.bist with probeBad := s.bist.probeBad || b } }

/-- The next PROBE step. -/
def State.probeNext (s : State) (n : Nat) : State := { s with md := { s.md with probe := n } }

/-- P6: the device record is stored and the device restarts. -/
def State.probeEnd (s : State) : State :=
  let s := (s.wr F.BIS_PROBE_RES_VALID 1).wr F.BIS_PROBE_RES_PASS (b2n (!s.bist.probeBad))
  let d : DevRec := { s.nvm.dev with probe := s.rdr R.BIS_PROBE_RES, lanes := s.probeLanes, fails := s.bist.probeRecs }
  ({ s with nvm := { s.nvm with dev := d } }.startAscent 6 false).modResult 4 0 false

/-- A failing row that PROBE finds is logged and not repaired (R490); KIND is open (log entry 141). -/
def State.hbmFound (s : State) (x : HbmFail) : State :=
  let (v, s) := s.draw
  s.hbmPush (v.toNat % 4) x

/-- Bit errors of a lane. -/
def ProbeEnv.errors (e : ProbeEnv) (i : Nat) : Nat :=
  match e.lanes.find? (fun x => x.1.val == i) with | some x => x.2 | none => 0

/-- A PROBE step completes (R501). -/
def State.probeStep (s : State) (e : ProbeEnv) : State :=
  if !s.inMode mPROBE then s else
  let t := e.test.within s.partsTested
  match s.md.probe with
  | 2 =>
    let s := (s.wrr R.BIS_PROBE_RES 0).lbistStore t (List.range 117)
    let n := s.lbistFails t
    (({ s with bist := { s.bist with probeBad := false } }.probeFail (decide (n ≠ 0))).wr F.BIS_PROBE_RES_LBIST_FAILS (min n 255)).probeNext 3
  | 3 =>
    let t := { t with lbist := [] }
    let fuse := bitN s.md.probeCfg 1 && (s.lc == lcBLANK || s.lc == lcPROV || s.lc == lcRET)
    let n := (s.unrepairable t).length
    let recs := (s.failRecords t 1 fuse).take 256
    let s := ({ s with bist := { s.bist with probeRecs := recs } }.failWords t 1 fuse).wr F.BIS_PROBE_RES_MEM_UNREP (min n 1023)
    ((if fuse then s.repair t true else s).probeFail (!t.words.isEmpty || !t.retest.isEmpty)).probeNext 4
  | 4 => ((foldS e.hbm (fun x s => s.hbmFound x) s).probeFail (!e.hbm.isEmpty)).probeNext 5
  | 5 =>
    let s :=
      if bitN s.md.probeCfg 0 then
        let bad := ((List.range 338).filter (fun i => Nat.blt 1 (e.errors i))).length
        let s := foldS (List.range 338) (fun i s => s.wrr (R.BIS_PROBE_LANE.at i) (laneWord (e.errors i))) s
        (s.wr F.BIS_PROBE_RES_LANES_FAILED bad).probeFail (decide (bad ≠ 0))
      else s
    s.probeNext 6
  | _ => s.probeEnd

end Sys2Proof.Machine
end

