-- ==== Sys2Proof/Machine/Pmc.lean ====
section
/-! DEFINITION. Engine performance counters (R454–R458): RUN at a tick, samples. -/

namespace Sys2Proof.Machine

/-- Samples a gallery holds. -/
def State.pmcFifo (s : State) (g : Nat) : List Nat := mget (fun _ => []) s.pmcSt.fifo g

/-- Set them: head and level show in PMC_SFIFO and its status. -/
def State.pmcFifoSet (s : State) (g : Nat) (l : List Nat) : State :=
  let s := { s with pmcSt := { s.pmcSt with fifo := mset (fun _ => []) s.pmcSt.fifo g l } }
  (s.wr64 (R.PMC_SFIFO.at g) (l.headD 0)).wr (F.PMC_SFIFO_STATUS_LEVEL.at g) l.length

/-- Events that hold for cycles, which no command carries (log entry 26): cycles, slots not retired, conflicts, waits. -/
def pmcTimed (ev : Nat) : Bool := [0x01, 0x03, 0x04, 0x05, 0x09, 0x12].contains ev

/-- Counter `j` of gallery `g`, if it counts such an event and runs, has gone on by a free amount. -/
def State.pmcFree (s : State) (g j : Nat) : State :=
  if pmcTimed (s.rd ((F.PMC_SEL_EVENT.on g).at j)) && s.on (F.PMC_CTRL_RUN.at g) && s.on ((F.PMC_SEL_EN.on g).at j) then
    let (v, s) := s.draw
    let r := (R.PMC_VAL.on g).at j
    s.wr64 r (min (s.rd64 r + v.toNat) (2 ^ 48 - 1))
  else s

/-- RUN of a gallery is written: what counted until now stands. -/
def State.pmcSetRun (s : State) (g run : Nat) : State :=
  (foldS (List.range 64) (fun j s => s.pmcFree g j) s).wr (F.PMC_CTRL_RUN.at g) run

/-- A write of PMC_SEL: what its counter counted until now stands. -/
def State.pmcSel (s : State) (g j v : Nat) : State := (s.pmcFree g j).wrr ((R.PMC_SEL.on g).at j) (v &&& 0xE0FF00FF)

/-- A write of PMC_CTRL (R455): RUN at once, or at PMC_TICK. -/
def State.pmcRun (s : State) (g : Nat) (run atTick : Bool) : State :=
  let s := s.wr (F.PMC_CTRL_AT_TICK.at g) (b2n atTick)
  if atTick then
    let t := max (s.rd64 (R.PMC_TICK.at g)) s.tb.nextTick
    { s with pmcSt := { s.pmcSt with runAt := mset (fun _ => none) s.pmcSt.runAt g (some (b2n run, t)) } }
  else { s.pmcSetRun g (b2n run) with pmcSt := { s.pmcSt with runAt := mset (fun _ => none) s.pmcSt.runAt g none } }

/-- The tick of a RUN write has been issued. -/
def State.pmcRunDue (s : State) (g : Nat) : State :=
  match mget (fun _ => (none : Option (Nat × Nat))) s.pmcSt.runAt g with
  | some (v, t) =>
    if t ≤ s.tick ∧ s.running then
      { s.pmcSetRun g v with pmcSt := { s.pmcSt with runAt := mset (fun _ => none) s.pmcSt.runAt g none } }
    else s
  | none => s

/-- Counter `c` of engine `e` has reached SAMPLE_AT and restarted: it pushes a sample that names thread `t` and an instruction index
that thread retires (R457). One that counts cycles reaches it when the command comes. -/
def State.pmcSample (s : State) (g e c t idx : Nat) : State :=
  let j := 8 * e + c
  let k := (g, e, c, t)
  let timed := pmcTimed (s.rd ((F.PMC_SEL_EVENT.on g).at j)) && s.on (F.PMC_CTRL_RUN.at g) && s.on ((F.PMC_SEL_EN.on g).at j)
    && s.on ((F.PMC_SEL_SAMPLE_EN.on g).at j)
  if s.pmcSt.due.contains k || timed then
    let s := if s.pmcSt.due.contains k then { s with pmcSt := { s.pmcSt with due := s.pmcSt.due.erase k } }
      else s.wr64 ((R.PMC_VAL.on g).at j) 0
    let l := s.pmcFifo g
    if 256 ≤ l.length then s.satInc (F.PMC_SFIFO_STATUS_LOST.at g)
    else
      let w := idx % 65536 * 2 ^ 48 + e * 2 ^ 45 + t * 2 ^ 42 + c * 2 ^ 39 + s.ns % 2 ^ 38
      let s := s.pmcFifoSet g (l ++ [w])
      if 128 ≤ l.length + 1 then s.raise (eg 14 (1 + g)) else s
  else s

/-- A low-word read of PMC_SFIFO pops the head. -/
def State.pmcPop (s : State) (g : Nat) : State := s.pmcFifoSet g (s.pmcFifo g).tail

/-- The mirrored value at offset `o` of PMC_UVIEW (R458). -/
def State.uview (s : State) (o : Nat) : Nat :=
  if s.on F.PMC_USER_EN_EN then
    let k := o / 8
    s.rd64 ((R.PMC_VAL.on (k / 64)).at (k % 64)) / 2 ^ (32 * (o / 4 % 2)) % 2 ^ 32
  else 0

end Sys2Proof.Machine
end

