-- ==== Sys2Proof/Machine/Bar0.lean ====
section
/-! DEFINITION. BAR0 (R8–R12, R85, R433–R436, R464, R506, R514–R520): what a host read or write of a word does, access codes,
64-bit pairs, locks, ranges, and the action each register starts. -/

namespace Sys2Proof.Machine

/-! ### Level sources (R485, R489) -/

/-- A level source is raised. -/
def State.levelUp (s : State) (src : Nat) : Bool :=
  let g := src / 16
  let o := src % 16
  let port (p : Nat) : Bool := s.evtSum (R.LPT_EVT.at p) (R.LPT_EVT_EN.at p)
  match g with
  | 1 => o == 9 && !s.tsf.isEmpty
  | 4 => (List.range 8).any (fun i => port (8 * o + i))
  | 5 => if o < 2 then (List.range 8).any (fun i => port (128 + 8 * o + i)) else decide (o < 4) && port (142 + o)
  | 10 => decide (o < 8) && s.evtSum (R.GAL_EVT.at o) (R.GAL_EVT_EN.at o)
  | 11 => (o == 0 && s.evtSum R.HRD_EVT R.HRD_EVT_EN) || (o == 1 && s.evtSum R.ADM_EVT R.ADM_EVT_EN)
  | 12 => (o == 0 && s.evtSum R.QUE_EVT R.QUE_EVT_EN) || (o == 1 && s.evtSum R.GAT_EVT R.GAT_EVT_EN)
  | 13 => o == 0 && s.evtSum R.FAB_EVT R.FAB_EVT_EN
  | 14 => (o == 0 && s.evtSum R.SVY_EVT R.SVY_EVT_EN)
      || (decide (1 ≤ o) && decide (o ≤ 8) && decide (128 ≤ s.rd (F.PMC_SFIFO_STATUS_LEVEL.at (o - 1))))
  | 15 => o == 0 && s.evtSum R.HST_EVT R.HST_EVT_EN
  | _ => false

/-- The level sources. -/
def levelSources : List Nat :=
  [25] ++ (List.range 16).map (64 + ·) ++ (List.range 4).map (80 + ·) ++ (List.range 8).map (160 + ·) ++ [176, 177, 192, 193, 208]
  ++ (List.range 9).map (224 + ·) ++ [240]

/-- A level source that the write has made raised. -/
def State.levelRose (old s : State) (src : Nat) : State := if !old.levelUp src && s.levelUp src then s.raise src else s

/-! ### Access classes (R8, R85, R506, R515) -/

/-- The ranges of R515 outside every block. -/
def barReserved (a : Nat) : Bool := (findBlock regBlocks a).isNone

/-- The gallery under test has left its packets (T2) and is not back in service. -/
def State.underTest (s : State) (g : Nat) : Bool := match s.bist.gt with | some t => t.g == g && decide (3 ≤ t.step) | none => false

/-- LBIST or MBIST runs on every partition: ASCENT step 2, and PROBE steps P2 and P3. -/
def State.allUnderTest (s : State) : Bool :=
  (s.inMode mASCENT && decide (s.rd F.MOD_STATUS_STEP = 2)) || (s.inMode mPROBE && decide (s.md.probe ≤ 3))

/-- The access completes with BUSY (R506): pages of the gallery under test but for its first four registers, and the registers
of a partition under test, which among the early blocks is TIME's. -/
def State.barBusy (s : State) (a : Nat) : Bool :=
  (List.range 8).any (fun g => s.underTest g && galPage g a)
  || (s.allUnderTest && decide (0x40000 ≤ a) && decide (a < 0x60000))

/-- The block of the access is not served while DP_READY is 0. -/
def State.barEarly (s : State) (a : Nat) : Bool := !s.dpReady && !earlyWord a

/-- Record an access in GLB_ERR_LOG, if it is free, and count it (R517). -/
def State.barError (s : State) (kind a : Nat) (write : Bool) : State :=
  let s := s.cnt R.GLB_ERR_CNT
  if s.on F.GLB_ERR_LOG_KIND then s else s.wr64 R.GLB_ERR_LOG (kind * 2 ^ 56 + b2n write * 2 ^ 55 + a % 2 ^ 28)

/-- Record an access that is BUSY (R506). -/
def State.barBusyLog (s : State) (a : Nat) (write : Bool) : State :=
  let s := s.cnt R.BIS_CNT 0x30
  if s.on F.BIS_BUSY_LOG_CODE then s else s.wr64 R.BIS_BUSY_LOG (2 ^ 56 + b2n write * 2 ^ 55 + a % 2 ^ 26)

/-! ### Values computed at the read -/

/-- The thread GAL_DBG_CTRL selects. -/
def State.dbgThr (s : State) (g : Nat) : Nat := 8 * s.rd (F.GAL_DBG_CTRL_ENGINE.at g) + s.rd (F.GAL_DBG_CTRL_THREAD.at g)

/-- The register GAL_DBG_SEL selects of a halted thread; zero while it is not halted. -/
def State.dbgRead (s : State) (g : Nat) : Nat :=
  let x := s.thrI g (s.dbgThr g)
  if !x.halted then 0
  else if s.on (F.GAL_DBG_SEL_PRED.at g) then x.preds % 256
  else s.rg g (s.dbgThr g) (s.rd (F.GAL_DBG_SEL_REG.at g))

/-- A write of GAL_DBG_DATA. -/
def State.dbgPut (s : State) (g v : Nat) : State :=
  let i := s.dbgThr g
  if !(s.thrI g i).halted then s
  else if s.on (F.GAL_DBG_SEL_PRED.at g) then s.thrUpd g i (fun x => { x with preds := v % 256 ||| 1 })
  else s.rgSet g i (s.rd (F.GAL_DBG_SEL_REG.at g)) v

/-- WIN_LEFT: seconds left of the confirmation window, 0 outside TRIAL. -/
def State.winLeft (s : State) : Nat :=
  match s.kpr.winEnd with
  | some t => if s.trialSet = 0 then 0 else (t - s.tb.up + (10 ^ 9 - 1)) / 10 ^ 9
  | none => 0

/-- A port in use runs FEC: every line port (R142), a tether port with one selected (R155). -/
def State.hasFec (s : State) (p : Nat) : Bool := s.inUse p && (decide (p < 144) || s.on (F.LPT_CFG_FEC.at p))

/-- A counter whose events no command carries has gone on by a free amount (log entries 43 and 130). -/
def State.freeCount (s : State) (a : Nat) : State :=
  let (v, s) := s.draw
  s.cnt ⟨a, 0, 0⟩ 0 v.toNat

/-- UTIL of a stack is a free value, one for each millisecond of Windrose time (R518). -/
def State.showUtil (s : State) (h : Nat) : State :=
  let ms := s.ns / 10 ^ 6 + 1
  if (mget (fun _ => (0, 0)) s.hbmUtil h).1 = ms then s else
  let (v, s) := s.draw
  { s.wr (F.HBM_STACK_STATUS_UTIL.at h) (v.toNat % 101) with hbmUtil := mset (fun _ => (0, 0)) s.hbmUtil h (ms, v.toNat % 101) }

/-- Bring the fields that show live state up to date before a read of word `a`. -/
def State.refresh (s : State) (name : String) (ix : List Nat) (a : Nat) : State :=
  let g := ix.headD 0
  let i := ix.getD 1 0
  match name with
  | "WRS_TIME" => if a = R.WRS_TIME.addr then s.wrTime R.WRS_TIME s.t16 else s
  | "KPR_UPD" => s.wr F.KPR_UPD_WIN_LEFT s.winLeft
  | "GAL_STATUS" => (s.wr (F.GAL_STATUS_NOTE_LEVEL.at g) (s.galI g).notes.length).wr (F.GAL_STATUS_SA_ACTIVE.at g) (b2n (s.saHolds g))
  | "GAL_IN_STATUS" => s.wr (F.GAL_IN_STATUS_LEVEL.at g) (s.galI g).inq.length
  | "GAL_FLUE_STATUS" =>
    let lv := (mget (fun _ => []) (s.galI g).flue i).length
    (s.wr ((F.GAL_FLUE_STATUS_RESERVED.on g).at i) (s.flueReserved g i)).wr ((F.GAL_FLUE_STATUS_LEVEL.on g).at i) lv
  | "GAL_THR" => s.wrw a (BitVec.ofNat 32 (s.thrWord g i))
  | "GAL_DBG_DATA" => if a = (R.GAL_DBG_DATA.at g).addr then s.wr64 (R.GAL_DBG_DATA.at g) (s.dbgRead g) else s
  | "PMC_VAL" => if a % 8 = 0 then s.pmcFree g i else s
  | "PMC_UVIEW" =>
    let k := (a - R.PMC_UVIEW.addr) / 8
    let s := if a % 8 = 0 then s.pmcFree (k / 64) (k % 64) else s
    s.wrw a (BitVec.ofNat 32 (s.uview (a - R.PMC_UVIEW.addr)))
  | "HST_STATUS" => s.wr F.HST_STATUS_TMGMT (b2n (s.on (F.LPT_CTRL_TMGMT_EN.at 144) || s.on (F.LPT_CTRL_TMGMT_EN.at 145)))
  | "HST_PCIE_STATUS" =>
    let (v, s) := s.draw
    (s.wrw a (BitVec.ofNat 32 (v.toNat % 2 ^ 11))).wr F.HST_PCIE_STATUS_D3HOT (b2n s.pcie.d3hot)
  | "HBM_STACK_STATUS" => s.showUtil g
  | "HBM_CNT" => if a % 32 = 0 ∨ a % 32 = 8 then s.freeCount a else s
  | "OTN_PC_CNT" => if a % 32 = 24 && s.pcOn g i then s.freeCount a else s
  | "LPT_CNT" => if decide (12 ≤ i) && decide (i ≤ 14) && a % 8 = 0 && s.hasFec g then s.freeCount a else s
  | _ => s

/-! ### Reads (R9, R11, R436) -/

/-- What the host sees of a word: its fields, write-only ones and reserved bits as zero. -/
def readable (fs : List RField) (w : Word) : Word :=
  BitVec.ofNat 32 (fs.foldl (fun n f => if f.acc = .wo then n else n + bits w.toNat f.hi f.lo * 2 ^ f.lo) 0)

/-- A word with its RC fields cleared. -/
def rcCleared (fs : List RField) (w : Word) : Word := fs.foldl (fun w f => if f.acc = .rc then putBits w f.hi f.lo 0 else w) w

/-- Fields of the word at `a`. -/
def fieldsAt (a : Nat) : List RField := match regRow a with | some (r, _) => r.fields | none => []

/-- Clear the RC fields of the word at `a`. -/
def State.rcClear (s : State) (a : Nat) : State := s.wrw a (rcCleared (fieldsAt a) (s.rdw a))

/-- The word belongs to a counter of R433. -/
def isCounter (fs : List RField) : Bool := fs.any (fun f => f.acc = .cnt)

/-- What follows a read of a word: heads popped, low-water marks restarted. -/
def State.popped (s : State) (name : String) (ix : List Nat) (a : Nat) : State :=
  let g := ix.headD 0
  match name with
  | "WRS_TSF" => if a = R.WRS_TSF.addr + 0xC then s.tsfPop else s
  | "BIS_FAIL_LOG" => if a = R.BIS_FAIL_LOG.addr then s.failPop else s
  | "BIS_HBM_LOG" => if a = R.BIS_HBM_LOG.addr then s.hbmPop else s
  | "PMC_SFIFO" => if a = (R.PMC_SFIFO.at g).addr then s.pmcPop g else s
  | "HRD_POOL_STATUS" => if a % 16 = 12 then s.wr (F.HRD_POOL_STATUS_LOW_WATER.at g) (s.rd (F.HRD_POOL_STATUS_FREE.at g)) else s
  | _ => s

/-- In standalone use the registers of FAB that do not govern the local loop read zero and ignore writes (R432). -/
def State.fabGone (s : State) (name : String) : Bool :=
  s.standalone && ["FAB_TIMING", "FAB_EVT", "FAB_EVT_EN", "FAB_LINK", "FAB_DEST", "FAB_SRC", "FAB_CNT", "FAB_LINK_CNT"].contains name

/-- A read of an assigned word: its value, and what the read changes. -/
def State.regRead (s : State) (a : Nat) : State × Word :=
  match regRow a with
  | none => (s, 0)
  | some (r, ix) =>
    if s.fabGone r.name then (s, 0) else
    let s := s.refresh r.name ix a
    let w := readable r.fields (s.rdw a)
    match r.role with
    | .w32 => ((s.rcClear a).popped r.name ix a, w)
    | .lo =>
      let h := readable (fieldsAt (a + 4)) (s.rdw (a + 4))
      let s := { s with latch := mset (fun _ => none) s.latch (a + 4) (some h) }
      let s := (s.rcClear a).rcClear (a + 4)
      let s := if isCounter r.fields && s.on F.SVY_CNT_CFG_COR then s.wr64 ⟨a, 0, 0⟩ 0 else s
      (s.popped r.name ix a, w)
    | .hi =>
      match mget (fun _ => (none : Option Word)) s.latch a with
      | some l => ({ s with latch := mset (fun _ => none) s.latch a none }, l)
      | none => (s, w)

/-! ### Writes (R9, R11, R520) -/

/-- A lock condition holds for the element (R520). -/
def State.locked (s : State) (l : Lock) (ix : List Nat) : Bool :=
  match l with
  | .none => false
  | .config => s.on F.GLB_CAPS_CFG_VALID
  | .cadence => s.on F.CAD_CTRL_EN
  | .trial => decide (s.trialSet ≠ 0)
  | .gallery => let x := s.galState (ix.headD 0); x == gDRAINING || x == gSERVICE || x == gTEST
  | .ring => s.on (F.HST_RING_EN.at (ix.headD 0))

/-- The word after a host write of `v`, field by field (R10, R11). -/
def State.merged (s : State) (r : RegRow) (ix : List Nat) (old v : Word) : Word :=
  r.fields.foldl (fun w f =>
    let n := bits v.toNat f.hi f.lo
    let o := bits old.toNat f.hi f.lo
    match f.acc with
    | .rw | .wo | .cnt => putBits w f.hi f.lo n
    | .rwl => if s.locked f.lock ix then w else putBits w f.hi f.lo n
    | .w1c => putBits w f.hi f.lo (o - (o &&& n))
    | .w1s => putBits w f.hi f.lo (o ||| n)
    | .ring => if hostProduces (ix.headD 0) == decide (r.off = 0x100C) then putBits w f.hi f.lo n else w
    | .ro | .rc | .sc => w) old

/-- A field of the written value that its register's range refuses keeps its old value. -/
def keepUnless (ok : Nat → Bool) (f : Fld) (old v : Word) : Word :=
  if ok (bits v.toNat f.hi f.lo) then v else putBits v f.hi f.lo (bits old.toNat f.hi f.lo)

/-- The value with the fields out of range left as they are. -/
def State.inRange (s : State) (name : String) (ix : List Nat) (old v : Word) : Word :=
  let within (a b n : Nat) : Bool := decide (a ≤ n) && decide (n ≤ b)
  match name with
  | "KPR_CONFIRM_WIN" => keepUnless (within 10 3600) F.KPR_CONFIRM_WIN_SECONDS old v
  | "LPT_MAC_CFG" => keepUnless (within 1518 12288) F.LPT_MAC_CFG_MAX_LEN old v
  | "LPT_LINK_CFG" =>
    keepUnless (within 0 1000) F.LPT_LINK_CFG_DOWN_HOLD old (keepUnless (within 0 10000) F.LPT_LINK_CFG_UP_HOLD old v)
  | "OTN_PM_CFG" => keepUnless (fun n => within 0 85500 n && decide (n % 900 = 0)) F.OTN_PM_CFG_DAY_OFS old v
  | "GAL_BG" => keepUnless (within 0 1500) F.GAL_BG_BUDGET old v
  | "GAL_SA" => keepUnless (within 256 65535) F.GAL_SA_LIMIT old v
  | "ADM_HOLD_CFG" => keepUnless (fun n => decide (n < bits v.toNat 31 16)) F.ADM_HOLD_CFG_XON old v
  | "ADM_EPORT" => keepUnless (within 0 100000) F.ADM_EPORT_HOLD_US old v
  | "FAB_GRANT_CFG" => keepUnless (within 49 1024) F.FAB_GRANT_CFG_CELLS old v
  | "SVY_RING_CFG" => keepUnless (fun n => within 16 30 n && !s.on F.SVY_RING_CFG_EN) F.SVY_RING_CFG_LOG2_SIZE old v
  | "MOD_THERM_CFG" => keepUnless (within 0 840) F.MOD_THERM_CFG_WARN old v
  | _ => let _ := ix; v

/-- A write that a busy unit ignores: the state with WR_IGNORED set. -/
def State.writeBlocked (s : State) (name : String) : Option State :=
  let busy (b w : Fld) : Option State := if s.on b then some (s.wr w 1) else none
  match name with
  | "CLS_IND_CMD" | "CLS_IND_DATA" => busy F.CLS_IND_STATUS_BUSY F.CLS_IND_STATUS_WR_IGNORED
  | "ACL_IND_CMD" | "ACL_IND_DATA" => busy F.ACL_IND_STATUS_BUSY F.ACL_IND_STATUS_WR_IGNORED
  | "QUE_IND_CMD" | "QUE_IND_DATA" => busy F.QUE_IND_STATUS_BUSY F.QUE_IND_STATUS_WR_IGNORED
  | "SCH_IND_CMD" | "SCH_IND_DATA" => busy F.SCH_IND_STATUS_BUSY F.SCH_IND_STATUS_WR_IGNORED
  | "SHP_IND_CMD" | "SHP_IND_DATA" => busy F.SHP_IND_STATUS_BUSY F.SHP_IND_STATUS_WR_IGNORED
  | "GAT_IND_CMD" | "GAT_IND_DATA" => busy F.GAT_IND_STATUS_BUSY F.GAT_IND_STATUS_WR_IGNORED
  | "SVY_IND_CMD" | "SVY_IND_DATA" => busy F.SVY_IND_STATUS_BUSY F.SVY_IND_STATUS_WR_IGNORED
  | "KPR_MBX_REQ" => busy F.KPR_MBX_STATUS_PENDING F.KPR_MBX_STATUS_WR_IGNORED
  | "TSI_STBY" => busy F.TSI_STATUS_PENDING F.TSI_STATUS_WR_IGNORED
  | "PAT_CTRL" | "PAT_LOAD_SRC" | "PAT_SWAP_TICK" => busy F.PAT_STATUS_BUSY F.PAT_STATUS_WR_IGNORED
  | _ => none

/-- GO of the Keeper mailbox (R136): ignored while PENDING; an unknown CODE is answered at once. -/
def State.mbxGo (s : State) : State :=
  if s.on F.KPR_MBX_STATUS_PENDING || !s.kprServes then s
  else ((s.wr F.KPR_MBX_STATUS_PENDING 1).wr F.KPR_MBX_CTRL_GO 1).mbxUnknown

/-- A write of HST_RING +0x08: the enable, after the other fields. -/
def State.ringWritten (s : State) (i : Nat) (en : Bool) : State := if en then s.ringEnable i else s.ringDisable i

/-- Sources of level kind raised now, one bit per source. -/
def State.levels (s : State) : Nat := levelSources.foldl (fun n src => if s.levelUp src then setBit n src else n) 0

/-- The digest ring is enabled: the interval in progress counts from here, with the levels that stand (R487). -/
def State.digestBegun (old s : State) (i : Nat) : State :=
  if i = rDIGEST && !old.on (F.HST_RING_EN.at i) && s.on (F.HST_RING_EN.at i) then { s with ev := { s.ev with raised := s.levels } }
  else s

/-- A message held in the PBA goes out once its vector can send (R486). -/
def State.unmasked (s : State) (v : Nat) : State :=
  if s.pba v && s.vecOpen v then
    let s := s.setPba v 0
    if s.pcie.d3hot || !s.holdoffPassed v then s.deferMsg v else s.sendMsg v
  else s

/-- Sources whose bit is set in word `w` of an event register. -/
def evtBits (w v : Nat) : List Nat := ((List.range 32).filter (fun i => bitN v i)).map (32 * w + ·)

/-- Replace a reserve of admission, unless RESV would pass B (R351). -/
def State.reserve (s : State) (a users : Nat) (f : Fld) (w : Word) : State :=
  s.resvChange (s.rd f * users) (bits w.toNat f.hi f.lo * users) (fun s => s.wrw a w)

/-- Registers a write of which is wholly its unit's work; `v` is the written word. -/
def State.unitWrite (s : State) (name : String) (ix : List Nat) (a : Nat) (v : Word) : Option State :=
  let n := v.toNat
  let i := ix.headD 0
  match name with
  | "CAD_CTRL" => some (s.cadEn (bitN n 0))
  | "CAD_PERIOD" => some (s.shpSettle.cadPeriod (bits n 19 0))
  | "CAD_PHASE" => some (s.cadPhase (bits n 19 0))
  | "MOD_CMD" => some (s.modCmd (bits n 3 0) (bitN n 7) false)
  | "KPR_MBX_CTRL" => some (if bitN n 0 then s.mbxGo else s)
  | "OTN_PM_SEL" => some (s.pmSel i (bits n 15 8) (bits n 7 0))
  | "SHP_SOJ_SEL" => some (s.sojSel (bitN n 31) (bits n 17 0))
  | "PMC_SEL" => some (s.pmcSel i (ix.getD 1 0) n)
  | "PMC_CTRL" => some (s.pmcRun i (bitN n 0) (bitN n 1))
  | "EVT_FORCE" => some (foldS (evtBits i n) (fun src s => s.raise src) s)
  | "BIS_GTEST_CTRL" => some (s.gtWrite n)
  | "BIS_MEM_SEL" => if a = R.BIS_MEM_SEL.addr then some (s.memSel (bits n 16 0)) else none
  | "ADM_PROF" =>
    if a % 16 = 4 then some (s.reserve a (s.profUsers i) (F.ADM_PROF_MIN.at i) (BitVec.ofNat 32 (bits n 15 0))) else none
  | "ADM_CLASS" => if a % 16 = 4 then some (s.reserve a 1 (F.ADM_CLASS_MIN.at i) (BitVec.ofNat 32 (bits n 28 0))) else none
  | "ADM_PORT" => some (s.reserve a 1 (F.ADM_PORT_MIN.at i) (BitVec.ofNat 32 (bits n 15 0)))
  | "ADM_PG" => if a % 8 = 4 then some (s.reserve a 1 (F.ADM_PG_HDRM.at i) (BitVec.ofNat 32 (bits n 15 0))) else none
  | _ => none

/-- What the written word `v` starts, once its fields are stored; `old` is the state before, `e` the soft errors an ACL STEP
meets. -/
def State.written (old s : State) (name : String) (ix : List Nat) (a : Nat) (v : Word) (e : AclEnv) : State :=
  let n := v.toNat
  let i := ix.headD 0
  match name with
  | "WRS_CTRL" | "WRS_RCLK" => State.refsWritten old s
  | "WRS_SET_CTRL" => if bitN n 0 then s.timeSetGo else s
  | "WRS_ADJ_FREQ" => s.adjFreqWritten
  | "WRS_ADJ_PHASE" => s.phaseCorrect (sx 64 (s.rd64 R.WRS_ADJ_PHASE))
  | "MOD_BYP_CTRL" => State.bypCtrlWritten old (State.bypCtrlWritten old s 0) 1
  | "LPT_CTRL" => State.adminWritten old s i
  | "ADM_LOSSLESS" | "ADM_CLASS" => s.credits
  | "LPT_PFC_MAP" => s.showPaused i
  | "OTN_IF_CFG" => if (s.oif i (ix.getD 1 0)).run then s.ifUp i (ix.getD 1 0) else s
  | "OTN_PC_CFG" => s.pcSet i (ix.getD 1 0) id
  | "LPT_EVT" | "LPT_EVT_EN" => State.levelRose old s (if i < 128 then 64 + i / 8 else if i < 144 then 80 + (i - 128) / 8 else i - 62)
  | "TSI_CTRL" => if bitN n 0 then s.tsiGo else s
  | "CLS_IND_CMD" => if bits n 1 0 = 0 then s else s.clsCmd (bits n 1 0)
  | "ACL_IND_CMD" => if bits n 2 0 = 0 then s else s.aclCmd (bits n 2 0) e
  | "QUE_IND_CMD" =>
    if bits n 2 0 = 0 then s else if bits n 2 0 = 1 then s.queWrite (bits n 25 8) else s.schCmd true (bits n 2 0) 0 (bits n 25 8)
  | "SCH_IND_CMD" => if bits n 2 0 = 0 then s else s.schCmd false (bits n 2 0) (bits n 30 28) (bits n 27 12)
  | "SHP_IND_CMD" => if bits n 1 0 = 0 then s else s.shpCmd (bits n 1 0) (bits n 31 28) (bits n 27 8)
  | "GAT_IND_CMD" => if bits n 3 0 = 0 then s else s.gatCmd (bits n 3 0) (bits n 31 30) (bits n 29 14) (bits n 13 4)
  | "SVY_IND_CMD" => if bits n 2 0 = 0 then s else s.svyCmd (bits n 2 0) (bits n 27 12)
  | "CLS_PUNT_CFG" | "CLS_PUNT_AGG" => { s with punt := old.puntSync.punt }
  | "PAT_CTRL" =>
    let s := if bitN n 0 then s.patLoad else s
    if bitN n 1 then s.patSwap else s
  | "GAL_EVT" | "GAL_EVT_EN" => State.levelRose old s (160 + i)
  | "GAL_DBG_CTRL" => if bits n 2 0 = 0 then s else s.dbgOp i (s.dbgThr i) (bits n 2 0) s.engDebug
  | "GAL_DBG_DATA" => s.dbgPut i (s.rd64 (R.GAL_DBG_DATA.at i))
  | "HRD_EVT" | "HRD_EVT_EN" => State.levelRose old s 176
  | "ADM_EVT" | "ADM_EVT_EN" => State.levelRose old s 177
  | "QUE_EVT" | "QUE_EVT_EN" => State.levelRose old s 192
  | "GAT_EVT" | "GAT_EVT_EN" => State.levelRose old s 193
  | "FAB_CFG" => s.fabShow
  | "FAB_EVT" | "FAB_EVT_EN" => State.levelRose old s 208
  | "SVY_EVT" | "SVY_EVT_EN" => State.levelRose old s 224
  | "HST_EVT" | "HST_EVT_EN" => State.levelRose old s 240
  | "HST_RING" =>
    if a = (R.HST_RING.at i).addr + 8 then
      State.digestBegun old ((s.wr (F.HST_RING_EN.at i) (old.rd (F.HST_RING_EN.at i))).ringWritten i (bitN n 31)) i
    else if i = rDIGEST then s.digestPump else if i = rRSP then s.rspPump else s
  | "HST_MSIX_TABLE" => if a % 16 = 12 then s.unmasked i else s
  | "EVT_PEND" => foldS (evtBits i n) (fun src s => if s.levelUp src then s.raise src else s) s
  | "EVT_EN" =>
    foldS (evtBits i n) (fun src s =>
      if !old.evtEn src && s.evtPend src then s.trigger (s.rd (F.EVT_MAP_VECTOR.at src)) else s) s
  | _ => s

/-- A 32-bit word is written. -/
def State.wordWrite (s : State) (r : RegRow) (ix : List Nat) (a : Nat) (v : Word) (e : AclEnv) : State :=
  match s.unitWrite r.name ix a v with
  | some s => s
  | none => State.written s (s.wrw a (s.merged r ix (s.rdw a) (s.inRange r.name ix (s.rdw a) v))) r.name ix a v e

/-- The high word of a 64-bit register is written: the register changes as a whole, with the low word held, or with its current
value where none is (R9). -/
def State.pairWrite (s : State) (r : RegRow) (ix : List Nat) (a : Nat) (v : Word) (e : AclEnv) : State :=
  let lo := a - 4
  let s0 := match mget (fun _ => (none : Option Word)) s.held lo with
    | some l =>
      let s1 := { s with held := mset (fun _ => none) s.held lo none }
      match regRow lo with
      | some (rl, il) => s1.wrw lo (s1.merged rl il (s1.rdw lo) l)
      | none => s1
    | none => match regRow lo with
      | some (rl, il) => s.refresh rl.name il lo
      | none => s
  State.written s (s0.wrw a (s0.merged r ix (s0.rdw a) v)) r.name ix a v e

/-- A write of an assigned word. -/
def State.regWrite (s : State) (a : Nat) (v : Word) (e : AclEnv := .clean) : State :=
  match regRow a with
  | none => s
  | some (r, ix) =>
    if s.fabGone r.name then s else
    match s.writeBlocked r.name with
    | some s => s
    | none =>
      match r.role with
      | .w32 => s.wordWrite r ix a v e
      | .lo => { s with held := mset (fun _ => none) s.held a (some v) }
      | .hi => s.pairWrite r ix a v e

/-! ### Host accesses -/

/-- A host read of BAR0 offset `a`, 32 bits (R8, R10, R85, R506, R515): the value it completes with. -/
def State.bar0Get (s : State) (a : Nat) : State × Word :=
  if a % 4 ≠ 0 then (s.barError 1 a false, 0)
  else if barReserved a then (s.barError 2 a false, 0)
  else if s.barBusy a then (s.barBusyLog a false, 0)
  else if s.barEarly a then (s.barError 3 a false, 0)
  else s.regRead a

/-- A host read: its completion is emitted. -/
def State.bar0Read (s : State) (a : Nat) : State :=
  if s.inMode mDORMANT then s
  else if a % 4 ≠ 0 then (s.barError 1 a false).emit (.unsupported a)
  else let (s, w) := s.bar0Get a; s.emit (.read a w)

/-- A host write of BAR0 offset `a`, 32 bits. -/
def State.bar0Write (s : State) (a : Nat) (v : Word) (e : AclEnv := .clean) : State :=
  if s.inMode mDORMANT then s
  else if a % 4 ≠ 0 then (s.barError 1 a true).emit (.unsupported a)
  else if barReserved a then s.barError 2 a true
  else if s.barBusy a then s.barBusyLog a true
  else if s.barEarly a then s.barError 3 a true
  else s.regWrite a v e

/-- A host access: a write when it has a value. -/
def State.bar0Access (s : State) (a : Nat) (w : Option Word) : State :=
  match w with | some v => s.bar0Write a v | none => s.bar0Read a

/-- An access of another size, or not aligned: Unsupported Request, KIND 1 (R8). -/
def State.bar0Bad (s : State) (a : Nat) (write : Bool) : State :=
  if s.inMode mDORMANT then s else (s.barError 1 a write).emit (.unsupported a)

/-- The IND_CMD register of a block with a submitted OP: the host write of it. -/
def State.indWrite (s : State) (r : Reg) (v : Word) (hi op : Nat) (e : AclEnv := .clean) : State :=
  s.bar0Write r.addr (putBits v hi 0 op) e

/-- The host write of GAL_DBG_CTRL that names a thread and an operation (R333). -/
def State.dbgWrite (s : State) (c : ThrId) (op : Nat) : State :=
  s.bar0Write (R.GAL_DBG_CTRL.at c.g.val).addr (BitVec.ofNat 32 (c.e.val * 2 ^ 16 + c.t.val * 2 ^ 12 + op))

end Sys2Proof.Machine
end

