-- ==== Sys2Proof/Machine/EngPkt.lean ====
section
/-! DEFINITION. Packet, flue, special-register, supervisor and debug operations of the engines, gallery input and loading (R274–R334). -/

namespace Sys2Proof.Machine

/-- Read the current stamp, time, seconds, tick or ingress stamp as IDX selects (R295). -/
def execTime (d : Iss) (rd : GReg) (idx : BitVec 8) (s : State) : Out1 :=
  .next (s.eng d (.time d rd idx) fun s => match s.timeRead d idx.toNat with
    | .inl v => (s.gput d rd v, .next)
    | .inr f => (s, .flt f 0))

/-- Reserve words in a flue, waiting when it lacks space (R316). -/
def execFres (d : Iss) (ra : GReg) (idx : BitVec 8) (s : State) : Out1 :=
  .next (s.engFlue d (.fres d ra idx) idx fun s => s.flueReserve d idx.toNat (s.greg d ra))

/-- Stage a word of the thread's message in a flue (R317). -/
def execFput (d : Iss) (ra : GReg) (idx : BitVec 8) (s : State) : Out1 :=
  .next (s.engFlue d (.fput d ra idx) idx fun s => s.flueStage d idx.toNat (s.greg d ra))

/-- Fence, then commit the staged words to a flue as one message (R317). -/
def execFcmt (d : Iss) (rd : GReg) (idx : BitVec 8) (s : State) : Out1 :=
  .next (s.engFlue d (.fcmt d rd idx) idx fun s => s.flueCommit d rd idx.toNat)

/-- Receiving thread reads the next committed word of a flue, waiting when empty (R318). -/
def execFget (d : Iss) (rd : GReg) (idx : BitVec 8) (s : State) : Out1 :=
  .next (s.engFlue d (.fget d rd idx) idx fun s => s.flueGet d rd idx.toNat)

/-- Receiving thread reads the number of committed words not yet read (R318). -/
def execFlen (d : Iss) (rd : GReg) (idx : BitVec 8) (s : State) : Out1 :=
  .next (s.engFlue d (.flen d rd idx) idx fun s => s.flueLen d rd idx.toNat)

/-- Halt with cause SVC and notify the supervisor (R299). -/
def execSvc (d : Iss) (code : BitVec 16) (s : State) : Out1 :=
  .next (s.eng d (.svc d code) fun s => (s, .flt 12 code.toNat))

/-- End start-up or background work; the gallery enters service when every thread has done so (R277). -/
def execPktReady (d : Iss) (s : State) : Out1 := .next (s.eng d (.pktReady d) fun s => s.pktReady d)

/-- The packet continues to Passage or to its port after outstanding tokens complete (R297). -/
def execPktSend (d : Iss) (s : State) : Out1 := .next (s.eng d (.pktSend d) fun s => s.pktEnd d fun s k => s.pktSend k)

/-- The packet is dropped and counted (R297). -/
def execPktDrop (d : Iss) (s : State) : Out1 :=
  .next (s.eng d (.pktDrop d) fun s => s.pktEnd d fun s k => s.pktDrop d.c.g.val k)

/-- The packet is punted with a reason of 16–63 (R297). -/
def execPktPunt (d : Iss) (reason : BitVec 6) (s : State) : Out1 :=
  .next (s.eng d (.pktPunt d reason) fun s =>
    if (s.pktOf d).isSome ∧ reason.toNat < 16 then (s, .flt 8 0)
    else s.pktEnd d fun s k => s.pktPunt d.c.g.val reason.toNat k)

/-- Read a special register (R298). -/
def execMfs (d : Iss) (rd : GReg) (idx : BitVec 8) (s : State) : Out1 := .next (s.engMfs d (.mfs d rd idx) rd idx.toNat)

/-- Write a special register (R298). -/
def execMts (d : Iss) (ra : GReg) (idx : BitVec 8) (s : State) : Out1 := .next (s.engMts d (.mts d ra idx) ra idx.toNat)

/-- The supervisor reads NOTE and pops the head notification (R323). -/
def execNotePop (d : Iss) (rd : GReg) (s : State) : Out1 := .next (s.engMfs d (.notePop d rd) rd 0x10)

/-- The supervisor writes a register of the selected halted thread (R323). -/
def execThrRegWrite (d : Iss) (ra : GReg) (s : State) : Out1 := .next (s.engMts d (.thrRegWrite d ra) ra 0x13)

/-- THR_CMD RESUME runs the halted instruction again (R322). -/
def execThrResume (d : Iss) (ra : GReg) (s : State) : Out1 := .next (s.engThrCmd d (.thrResume d ra) ra 1)

/-- THR_CMD SKIP continues at the next instruction (R322). -/
def execThrSkip (d : Iss) (ra : GReg) (s : State) : Out1 := .next (s.engThrCmd d (.thrSkip d ra) ra 2)

/-- THR_CMD JUMP continues at the given index (R322). -/
def execThrJump (d : Iss) (ra : GReg) (s : State) : Out1 := .next (s.engThrCmd d (.thrJump d ra) ra 3)

/-- THR_CMD RESTART drops the thread's packet, frees its state and returns it to idle (R322). -/
def execThrRestart (d : Iss) (ra : GReg) (s : State) : Out1 := .next (s.engThrCmd d (.thrRestart d ra) ra 4)

/-- The supervisor posts SYNTH to chosen threads (R323). -/
def execSynthPost (d : Iss) (ra : GReg) (s : State) : Out1 := .next (s.engMts d (.synthPost d ra) ra 0x15)

/-- The supervisor reclaims a halted thread's flue reservation (R319). -/
def execReclaim (d : Iss) (ra : GReg) (s : State) : Out1 := .next (s.engMts d (.reclaim d ra) ra 0x16)

/-- A thread issues an instruction with opcode 0x31–0x3F, which faults with FLT_ILLEGAL and notifies the supervisor (R303).
-/
def execReservedOpcode (d : Iss) (w : Word) (s : State) : Out1 :=
  match decodeEngine ⟨d.c, d.ecc, false, AclEnv.clean⟩ w.toNat with
  | some _ => .fault .illFormed
  | none => .next (s.eng d (.reservedOpcode d w) fun s =>
      if bits w.toNat 27 22 = 0x1E ∧ 0x60 ≤ bits w.toNat 6 0 then
        let f := bufFault (s.rg d.c.g.val d.c.ix (bits w.toNat 11 7)) 8
        (if f ≠ 0 then (s, .flt f 0)
         else if s.lull then s.requestDone d (BitVec.ofNat 5 (bits w.toNat 21 17)) 2
         else s.requestDone d (BitVec.ofNat 5 (bits w.toNat 21 17)) 3)
      else (s, .flt 1 0))

/-- A thread halted for GAL_LEASH.US while holding a reservation queues a LEASH notification per flue (R319). -/
def execLeashExpired (c : ThrId) (s : State) : Out1 := .next (s.leash c.g.val c.ix)

/-- The still-air condition holding for LIMIT cycles queues a notification and raises EG10 (R326). -/
def execStillAir (g : Fin 8) (s : State) : Out1 := .next (s.stillAir g.val)

/-- A thread's compact time reaches its TIMER value and its TIMER event fires (R296). -/
def execThreadTimer (c : ThrId) (s : State) : Out1 := .next (s.thrTimer c.g.val c.ix)

/-- GAL_DBG_CTRL HALT stops a thread at its next instruction boundary (R333). -/
def execDbgHalt (c : ThrId) (s : State) : Out1 := .next (s.dbgWrite c 1)

/-- GAL_DBG_CTRL STEP retires one instruction and halts again (R333). -/
def execDbgStep (c : ThrId) (s : State) : Out1 := .next (s.dbgWrite c 2)

/-- GAL_DBG_CTRL RESUME resumes a debug-halted thread (R333). -/
def execDbgResume (c : ThrId) (s : State) : Out1 := .next (s.dbgWrite c 3)

/-- GAL_DBG_CTRL RESTART restarts a thread, the supervisor included (R324). -/
def execDbgRestart (c : ThrId) (s : State) : Out1 := .next (s.dbgWrite c 4)

/-- A queued packet is dispatched to an idle worker, which receives G1–G3 and starts at its entry (R275). -/
def execPacketDispatch (g : Fin 8) (s : State) : Out1 := .next (s.dispatch g.val)

/-- A packet reaches a gallery's input and is dispatched, queued, or dropped when the queue is full (R306). -/
def execGalleryInput (g : Fin 8) (s : State) : Out1 := .next (s.galleryInput g.val)

/-- A drain ends when no packet remains or after 10 ms, dropping held packets and reclaiming buffers (R332). -/
def execDrainEnd (g : Fin 8) (s : State) : Out1 := .next (s.drainEnd g.val)

/-- Threads not all at PKT READY within 1 ms of the load fail it (R277). -/
def execGalleryLoadTimeout (g : Fin 8) (s : State) : Out1 := .next (s.loadTimeout g.val)

/-- A gallery's storage is cleared, GMEM copied and its threads started (R331). -/
def execGalleryLoad (g : Fin 8) (s : State) : Out1 := .next (s.loadByKeeper g.val)

/-- A waiter that has waited STARVE_US sets POOL_STARVED and raises EG11 (R345). -/
def execPoolStarved (k : Fin 10) (s : State) : Out1 := .next (s.poolStarved k.val)

/-- A free-pointer cache below 2,048 is refilled from HBM in reads of 64 pointers (R337). -/
def execStackCacheRefill (k : Fin 8) (bad : Nat) (s : State) : Out1 := .next (s.stackRefill k.val bad)

/-- A free-pointer cache above 6,144 spills to HBM in writes of 64 pointers (R337). -/
def execStackCacheSpill (k : Fin 8) (s : State) : Out1 := .next (s.stackSpill k.val)

/-- An Echo scan completes and its result goes to the packet's token or the requesting thread (R269). -/
def execEchoScanDone (g : Fin 8) (s : State) : Out1 := .next (s.scanDone g.val)

end Sys2Proof.Machine
end

