-- ==== Sys2Proof/Machine/EngReq.lean ====
section
/-! DEFINITION. Engine instructions: requests, their completions and waits (R286–R296). -/

namespace Sys2Proof.Machine

/-- Asynchronous exact-match lookup in a table, returning a token (R289). -/
def execLkpEm (d : Iss) (rd ra rb : GReg) (tbl : BitVec 4) (s : State) : Out1 :=
  .next (s.engLkp d (.lkpEm d rd ra rb tbl) 0 tbl.toNat rd ra rb)

/-- Asynchronous LPM lookup, returning a token (R289). -/
def execLkpLpm (d : Iss) (rd ra rb : GReg) (s : State) : Out1 := .next (s.engLkp d (.lkpLpm d rd ra rb) 1 0 rd ra rb)

/-- Asynchronous next-hop read, returning a token (R289). -/
def execLkpNh (d : Iss) (rd ra rb : GReg) (s : State) : Out1 := .next (s.engLkp d (.lkpNh d rd ra rb) 2 0 rd ra rb)

/-- Asynchronous ECMP group read, returning a token (R289). -/
def execLkpEcmpGroup (d : Iss) (rd ra rb : GReg) (s : State) : Out1 :=
  .next (s.engLkp d (.lkpEcmpGroup d rd ra rb) 3 0 rd ra rb)

/-- Asynchronous ECMP member read, returning a token (R289). -/
def execLkpEcmpMember (d : Iss) (rd ra rb : GReg) (s : State) : Out1 :=
  .next (s.engLkp d (.lkpEcmpMember d rd ra rb) 4 0 rd ra rb)

/-- Asynchronous adjacency read, returning a token (R289). -/
def execLkpAdj (d : Iss) (rd ra rb : GReg) (s : State) : Out1 := .next (s.engLkp d (.lkpAdj d rd ra rb) 5 0 rd ra rb)

/-- A lookup request writes its result buffer and completes its token (R289). -/
def execLkpComplete (c : ThrId) (n : Fin 16) (ecc : Bool) (s : State) : Out1 := .next (s.lkpComplete c.g.val c.ix n.val ecc)

/-- Synchronous ACL search through the gallery's port, returning the governing match (R290). -/
def execAclSearch (d : Iss) (rd ra : GReg) (e : AclEnv) (s : State) : Out1 :=
  .next (s.engAcl d (.aclSearch d rd ra e) false rd ra e)

/-- Synchronous ACL search returning the first match after the cursor (R290). -/
def execAclSearchNext (d : Iss) (rd ra : GReg) (e : AclEnv) (s : State) : Out1 :=
  .next (s.engAcl d (.aclSearchNext d rd ra e) true rd ra e)

/-- An engine requests an Echo scan of packet bytes or gallery memory (R291). -/
def execEchoScanRequest (d : Iss) (rd ra : GReg) (mem : Bool) (s : State) : Out1 :=
  .next (s.engEcho d (.echoScanRequest d rd ra mem) false mem rd ra)

/-- An engine requests an Echo step after a cursor (R291). -/
def execEchoStepRequest (d : Iss) (rd ra : GReg) (mem : Bool) (s : State) : Out1 :=
  .next (s.engEcho d (.echoStepRequest d rd ra mem) true mem rd ra)

/-- Request a scratch buffer from a pool (R292). -/
def execHrdAlloc (d : Iss) (rd ra : GReg) (s : State) : Out1 :=
  .next (s.engHrd d (.hrdAlloc d rd ra) rd ra fun s n v => s.hrdAlloc d.c.g.val d.c.ix n v)

/-- Release one reference to a scratch buffer, freeing it at zero, after Hoard's checks (R347). -/
def execHrdFree (d : Iss) (rd ra : GReg) (s : State) : Out1 :=
  .next (s.engHrd d (.hrdFree d rd ra) rd ra fun s n v => s.hrdFree d.c.g.val d.c.ix n v)

/-- Add one reference to a scratch buffer, after Hoard's checks (R347). -/
def execHrdRef (d : Iss) (rd ra : GReg) (s : State) : Out1 :=
  .next (s.engHrd d (.hrdRef d rd ra) rd ra fun s n v => s.hrdRef d.c.g.val d.c.ix n v)

/-- A Hoard request completes, for an ALLOC when a buffer is given to the waiter (R345). -/
def execHrdComplete (c : ThrId) (n : Fin 16) (s : State) : Out1 := .next (s.hrdComplete c.g.val c.ix n.val)

/-- DMA copy of packet bytes into local memory (R293). -/
def execDmaPacketToLocal (d : Iss) (rd ra : GReg) (s : State) : Out1 :=
  .next (s.engDma d (.dmaPacketToLocal d rd ra) 0 rd ra)

/-- DMA copy of table-region bytes into local memory (R293). -/
def execDmaTableToLocal (d : Iss) (rd ra : GReg) (s : State) : Out1 := .next (s.engDma d (.dmaTableToLocal d rd ra) 1 rd ra)

/-- DMA copy of local memory into the engine data window (R293). -/
def execDmaLocalToTable (d : Iss) (rd ra : GReg) (s : State) : Out1 := .next (s.engDma d (.dmaLocalToTable d rd ra) 2 rd ra)

/-- DMA copy of scratch cell bytes into local memory (R293). -/
def execDmaCellToLocal (d : Iss) (rd ra : GReg) (s : State) : Out1 := .next (s.engDma d (.dmaCellToLocal d rd ra) 3 rd ra)

/-- DMA copy of local memory into a scratch cell (R293). -/
def execDmaLocalToCell (d : Iss) (rd ra : GReg) (s : State) : Out1 := .next (s.engDma d (.dmaLocalToCell d rd ra) 4 rd ra)

/-- A DMA request finishes its copy and completes its token (R293). -/
def execDmaComplete (c : ThrId) (n : Fin 16) (ecc : Bool) (s : State) : Out1 := .next (s.dmaComplete c.g.val c.ix n.val ecc)

/-- Wait for one token and return its status (R296). -/
def execWaitToken (d : Iss) (rd ra : GReg) (s : State) : Out1 :=
  .next (s.eng d (.waitToken d rd ra) fun s => s.waitTok d rd (s.greg d ra))

/-- Wait for any token of a mask and return the lowest complete one (R296). -/
def execWaitAny (d : Iss) (rd ra : GReg) (s : State) : Out1 :=
  .next (s.eng d (.waitAny d rd ra) fun s => s.waitAny d rd (s.greg d ra))

/-- Wait for any event of a mask, return and clear the fired events (R296). -/
def execWaitEvent (d : Iss) (rd ra : GReg) (s : State) : Out1 :=
  .next (s.eng d (.waitEvent d rd ra) fun s => s.waitEv d rd (s.greg d ra))

/-- Test whether a token is complete, optionally freeing it (R296). -/
def execTest (d : Iss) (pd : PReg) (ra : GReg) (free : Bool) (s : State) : Out1 :=
  .next (s.eng d (.test d pd ra free) fun s => (s.testTok d pd (s.greg d ra) free, .next))

end Sys2Proof.Machine
end

