-- ==== Sys2Proof/Machine/Limits.lean ====
section
/-! DEFINITION. The limits a configuration image must keep (R84): ports (R25, R141, R142, R144), OTN arrangements (R160, R161),
user-defined headers (R191), key widths (R193, R207, R252), scratch pools (R335), classes (R351), L5 targets (R379), fabric links
and windows (R413, R428), the region split (R22). -/

namespace Sys2Proof.Machine

/-- A line mode of R142: SPEED and width. -/
def lineMode (speed width : Nat) : Bool :=
  [(1, 1), (2, 4), (2, 2), (2, 1), (3, 4), (3, 2), (3, 1), (4, 8), (4, 4), (4, 2), (5, 8), (5, 4)].contains (speed, width)

/-- Line port `p` breaks no rule: unused, or a mode of R142 on aligned lanes no other port has, in a group that is not OTN's. -/
def State.portFits (s : State) (p : Nat) : Bool :=
  let w := s.rd (F.LPT_CFG_WIDTH.at p)
  !s.inUse p || (lineMode (s.rd (F.LPT_CFG_SPEED.at p)) w && decide (p % w = 0)
    && (List.range w).all (fun i => i == 0 || !s.inUse (p + i)) && decide (s.grpMode (p / 8) = 0))

/-- Tether port `p` is unused or runs 25GBASE-R, in slice 0 (R155). -/
def State.tetherFits (s : State) (p : Nat) : Bool :=
  !s.inUse p || (decide (s.rd (F.LPT_CFG_SPEED.at p) = 6) && decide (s.rd (F.LPT_CFG_WIDTH.at p) = 1)
    && decide (s.rd (F.LPT_CFG_SLICE.at p) = 0))

/-- Rate of a slice's line ports and packet channels in Gb/s (R25, R174). -/
def State.sliceRate (s : State) (sl : Nat) : Nat :=
  (List.range 144).foldl (fun n p => if s.rd (F.LPT_CFG_SLICE.at p) = sl ∧ s.inUse p then n + s.rate p else n) 0
  + (List.range 144).foldl (fun n c =>
      if s.rd (pcf F.OTN_PC_CFG_SLICE (c / 8) (c % 8)) = sl ∧ s.pcOn (c / 8) (c % 8)
      then n + 5 * s.rd (pcf F.OTN_PC_CFG_COUNT (c / 8) (c % 8)) else n) 0

/-- The ports keep R25, R141, R142 and R155. -/
def State.portsFit (s : State) : Bool :=
  (List.range 144).all (fun p => s.portFits p) && s.tetherFits 144 && s.tetherFits 145
  && (List.range 8).all (fun sl => decide (s.sliceRate sl ≤ 3600))

/-- Interface OIg.k keeps R160. -/
def State.ifFits (s : State) (g k : Nat) : Bool :=
  let n := s.rd (ifc F.OTN_IF_CFG_N g k)
  let m := s.grpMode g
  !s.ifOn g k || (decide (k + s.ifLanes g k ≤ 8) && (List.range (s.ifLanes g k)).all (fun i => i == 0 || !s.ifOn g (k + i))
    && (if m = 1 then decide (1 ≤ n) && decide (n ≤ 8)
        else if m = 2 then decide (2 ≤ n) && decide (n ≤ 16) && decide (n % 2 = 0)
        else k == 0 || k == 4))

/-- Packet channel PCg.c keeps R173: COUNT positions that exist, all in the interface it names, and none of another channel's. -/
def State.pcFits (s : State) (g c : Nat) : Bool :=
  let first (c : Nat) := s.rd (pcf F.OTN_PC_CFG_FIRST g c)
  let cnt (c : Nat) := s.rd (pcf F.OTN_PC_CFG_COUNT g c)
  let k := s.rd (pcf F.OTN_PC_CFG_IF g c)
  !s.pcOn g c || (decide (1 ≤ cnt c) && decide (cnt c ≤ 80)
    && (List.range (cnt c)).all (fun i => s.posExists g (first c + i) && s.ifOfLane g ((first c + i) / 40) == some k)
    && (List.range 8).all (fun d => d == c || !s.pcOn g d || decide (first c + cnt c ≤ first d) || decide (first d + cnt d ≤ first c)))

/-- Sum of the widths of `n` descriptors from word `a`. -/
def State.descWidth (s : State) (a n : Nat) : Nat := (s.descs a n).foldl (fun m d => m + d.width) 0

/-- The widths of an exact-match slot's set equal its table's KEY_WIDTH (R207). -/
def State.emWidthFits (s : State) (prof i : Nat) : Bool :=
  let b := s.profByte F.TBL_PROF_EM prof i
  !bitN b 7 || s.descWidth (R.TBL_KEYX.addr + 16 * (s.profByte F.TBL_PROF_KEYX prof i % 64)) 4 == s.rd (F.TBL_EM_CFG_KEY_WIDTH.at (bits b 5 2))

/-- Exact-match table EMk keeps R222: its size, its place in the pool, and no bucket of another table. -/
def State.emFits (s : State) (k : Nat) : Bool :=
  let base (k : Nat) := s.rd (F.TBL_EM_CFG_BASE.at k)
  let size (k : Nat) := 2 ^ s.rd (F.TBL_EM_CFG_LOG2_SIZE.at k)
  let n := s.rd (F.TBL_EM_CFG_LOG2_SIZE.at k)
  !s.emOn k || (decide (10 ≤ n) && decide (n ≤ 24) && decide (base k % size k = 0) && decide (base k + size k ≤ 16777216)
    && (List.range 16).all (fun j => j == k || !s.emOn j || decide (base k + size k ≤ base j) || decide (base j + size j ≤ base k)))

/-- Keys and user-defined headers keep R191, R193, R207 and R252. -/
def State.keysFit (s : State) : Bool :=
  (List.range 16).all (fun i =>
    [0, 1, 2, 5].contains (s.rd (F.PRS_UDH_NXT_SPACE.at i)) && decide (s.rd (F.PRS_UDH_NXT_WIDTH.at i) ≤ 16)
    && decide (s.descWidth (R.CLS_EXTRACT.addr + 32 * i) 8 ≤ 160) && decide (s.descWidth (R.ACL_KEYX.addr + 80 * i) 20 ≤ 576)
    && (List.range 4).all (fun j => s.emWidthFits i j))

/-- Bytes of the table region that R22 gives Hoard's structures for pool 0 (stack, links, metadata area in units of 16 MiB, R339), the
exact-match and LPM tables and the counters, and the tables of R229 and the staging area take (R271). -/
def State.tblTaken (s : State) : Nat :=
  8 * s.cells0 + (metaLines s.cells0 + 2 ^ 24 - 1) / 2 ^ 24 * 2 ^ 24 + 5 * 2 ^ 29
    + (2 ^ 24 + 2 ^ 19 + 2 ^ 22 + 2 ^ 26 + 2 ^ 22 + 2 ^ 22) + 2 ^ 25

/-- Bytes of an enabled scratch pool: its cells, its stack, its metadata (R335, R337, R339). -/
def State.scrBytes (s : State) (g : Nat) : Nat :=
  let n := s.rd (F.HRD_POOL_CFG_CELLS.at g)
  if s.on (F.HRD_POOL_CFG_EN.at g) then 260 * n + metaLines n else 0

/-- The enabled scratch pools fit the free part of the table region (R22, R335). -/
def State.scratchFits (s : State) : Bool :=
  (List.range 8).all (fun g => decide (s.rd (F.HRD_POOL_CFG_CELLS.at g) ≤ 2 ^ 24))
  && decide (s.tblTaken + (List.range 8).foldl (fun n g => n + s.scrBytes g) 0 ≤ s.tblSize)

/-- Every enabled entry lies under an enabled one, and targets and destinations are distinct (R364, R374, R375, R379). -/
def State.treeFits (s : State) : Bool :=
  (List.range 7).all (fun l => (s.schOf l).all (fun i =>
    let e := s.sent l i
    (l == 6 || (decide (e.parent < schCount (l + 1)) && (s.sent (l + 1) e.parent).en)) && s.schUnique l i e))

/-- In standalone use every L5 TARGET names a configured port (R379). -/
def State.targetsFit (s : State) : Bool :=
  !s.standalone || (s.schOf 5).all (fun i =>
    let t := (s.sent 5 i).target
    if t < 256 then s.inUse t else s.pcOn ((t - 256) / 8) ((t - 256) % 8))

/-- Fabric links and resequencing windows keep R413 and R428. -/
def State.fabricFits (s : State) : Bool :=
  decide (((List.range 192).filter (fun i => s.rd (F.FAB_LINK_ROLE.at i) == 2)).length ≤ 12)
  && (List.range 2048).all (fun i => !s.on (F.FAB_SRC_EN.at i) ||
    (decide (64 ≤ s.rd (F.FAB_SRC_WIN.at i)) && decide (s.rd (F.FAB_SRC_WIN.at i) ≤ 16384)))
  && decide ((List.range 2048).foldl (fun n i => if s.on (F.FAB_SRC_EN.at i) then n + s.rd (F.FAB_SRC_WIN.at i) + 16 else n) 0 ≤ 65536)

/-- The state that an image has loaded keeps every limit of R84. -/
def State.limitsKept (s : State) : Bool :=
  let t := s.rd F.GLB_CAPS_TABLE_GIB
  decide (8 ≤ t) && decide (t ≤ 64) && decide (t % 8 = 0)
  && s.portsFit && (List.range 18).all (fun g => (List.range 8).all (fun k => s.ifFits g k && s.pcFits g k)) && s.keysFit && (List.range 16).all (fun k => s.emFits k)
  && s.scratchFits
  && (List.range 8).all (fun c => !(s.on (F.ADM_CLASS_LOSSLESS.at c) && s.on (F.ADM_CLASS_VICTIM.at c)))
  && s.treeFits && s.targetsFit && s.fabricFits

end Sys2Proof.Machine
end

