-- ==== Sys2Proof/Machine/Host17.lean ====
section
/-! DEFINITION. The PCIe function, the table window, inject records, event frames, host commands, I2C and the TAP (R104,
R462–R466, R475–R489, R534). -/

namespace Sys2Proof.Machine

/-! ### PCIe function (R463) -/

/-- Registers of the HST and EVT blocks, whose bases follow each other. -/
def hostWord (a : Nat) : Bool := decide (0x20000 ≤ a) && decide (a < 0x40000)

/-- The words of HST that always show the live state. -/
def hostLive (a : Nat) : Bool := a == R.HST_PCIE_STATUS.addr || a == R.HST_STATUS.addr

/-- Function Level Reset, hot reset or loss of the link: HST and EVT at Reset but the live status, MSI-X table clear, every ring
disabled; levels that stand set their EVT_PEND bits again (R463, R485). -/
def State.funcReset (s : State) : State :=
  if s.inMode mDORMANT then s else
  let keep (a : Nat) : Bool := !hostWord a || hostLive a
  let s := { s with
    regs := s.regs.filter (fun x => keep x.1), held := s.held.filter (fun x => keep x.1)
    latch := s.latch.filter (fun x => keep x.1), pcie := {}, ring := {}
    ev := { s.ev with raised := 0, lastMsg := [], deferred := [], digPend := none } }
  foldS levelSources (fun src s => if s.levelUp src then s.raise src else s) s

/-- The function enters D3hot. -/
def State.d3Enter (s : State) : State := if s.inMode mDORMANT then s else { s with pcie := { s.pcie with d3hot := true } }

/-- Send each deferred message whose hold-off has passed. -/
def State.sendDue (s : State) : State :=
  foldS s.ev.deferred (fun v s =>
    if s.ev.deferred.contains v && s.holdoffPassed v then (if s.vecOpen v then s.sendMsg v else s.setPba v 1) else s) s

/-- The function returns to D0: rings resume and the messages held go out (R463). -/
def State.d0Return (s : State) : State :=
  if !s.pcie.d3hot then s else ({ s with pcie := { s.pcie with d3hot := false } }.sendDue).digestPump.rspPump

/-! ### MSI-X (R486) -/

/-- The hold-off of a vector with a deferred message ends. -/
def State.holdoffEnds (s : State) (v : Nat) : State :=
  if !s.ev.deferred.contains v || s.pcie.d3hot then s else
  let s := match mget (fun _ => (none : Option Nat)) s.ev.lastMsg v with
    | some t => s.advanceUp (t + s.rd (F.EVT_VEC_CFG_HOLDOFF_US.at v) * 1000)
    | none => s
  if s.vecOpen v then s.sendMsg v
  else { s.setPba v 1 with ev := { s.ev with deferred := s.ev.deferred.filter (· ≠ v) } }

/-- A mask bit of the MSI-X table, the Function Mask or MSI-X Enable is written so that vectors open. -/
def State.unmask (s : State) (u : Unmask) : State :=
  if s.inMode mDORMANT then s else
  match u with
  | .vector v => (s.wr (F.HST_MSIX_TABLE_MASK.at v.val) 0).unmasked v.val
  | .function => foldS (List.range 256) (fun v s => s.unmasked v) { s with pcie := { s.pcie with funcMask := false } }
  | .enable => foldS (List.range 256) (fun v s => s.unmasked v) { s with pcie := { s.pcie with msixEn := true } }

/-! ### Table window (R465, R466) -/

/-- Table-region byte of BAR2 offset `o`. -/
def State.winAddr (s : State) (o : Nat) : Nat := s.rd F.HST_WIN_BASE_MIB * 2 ^ 20 + o

/-- HBM serves accesses: it is not in self-refresh (log entry 107). -/
def State.hbmUp (s : State) : Bool := !s.inMode mLULL

/-- A BAR2 read of `n` bytes; `ecc`: it meets an uncorrectable error. -/
def State.bar2Read (s : State) (o n : Nat) (ecc : Bool) : State :=
  if s.inMode mDORMANT then s else
  let a := s.winAddr o
  let m := min n (s.tblSize - a)
  let (b, s) := if s.hbmUp then s.tRead a m else s.openBytes m
  let bad := ecc && decide (m ≠ 0)
  let s := s.emit (.bar2 o (b ++ zeros (n - m)) bad)
  if bad then (s.cnt R.HST_CNT 0x08).hstEvt F.HST_EVT_WIN_POISON else s

/-- The host may write byte `a` of the table region. -/
def State.winMay (s : State) (a : Nat) : Bool :=
  let st := s.rd64 R.PAT_STAGE_BASE
  (decide (st ≤ a) && decide (a < st + 2 ^ 25))
  || (List.range 8).any (fun g => decide ((s.galI g).winBase ≤ a) && decide (a < (s.galI g).winBase + (s.galI g).winSize))

/-- A BAR2 write: in full inside the permitted ranges, ignored beyond the end of the region, otherwise denied. -/
def State.bar2Write (s : State) (o : Nat) (b : Bytes) : State :=
  if s.inMode mDORMANT then s else
  let a := s.winAddr o
  let m := min b.length (s.tblSize - a)
  if m = 0 then s
  else if (List.range m).all (fun i => s.winMay (a + i)) then (if s.hbmUp then s.tPut a (b.take m) else s)
  else (s.cnt R.HST_CNT).hstEvt F.HST_EVT_WIN_DENIED

/-! ### Inject records (R479, R480) -/

/-- The port takes injected frames: it is configured. -/
def State.portUsed (s : State) (p : Nat) : Bool :=
  if p < 146 then s.inUse p else decide (256 ≤ p) && decide (p < 400) && s.pcOn ((p - 256) / 8) ((p - 256) % 8)

/-- The longest frame of a port, FCS included. -/
def State.maxLen (s : State) (p : Nat) : Nat := if p < 146 then s.rd (F.LPT_MAC_CFG_MAX_LEN.at p) else 9216

/-- A record of R479, its header of 32 bytes included. -/
structure Inj where
  len : Nat
  mode : Nat
  flen : Nat
  adjEn : Bool
  colour : Nat
  tc : Nat
  port : Nat
  adj : Nat

/-- The fields of a record. -/
def injOf (b : Bytes) : Inj :=
  let w (i : Nat) : Nat := leN b (4 * i) 4
  ⟨bits (w 0) 23 0, bits (w 1) 31 30, bits (w 1) 13 0, bitN (w 2) 14, bits (w 2) 13 12, bits (w 2) 11 9, bits (w 2) 8 0, bits (w 3) 19 0⟩

/-- RECORD_LEN is a multiple of 64 and lies before PROD. -/
def State.injLenOk (s : State) (i : Nat) (n : Nat) : Bool := decide (n % 64 = 0) && decide (64 ≤ n) && decide (n ≤ s.ringUsed i)

/-- The record keeps R479 and R480. -/
def State.injOk (s : State) (x : Inj) (b : Bytes) : Bool :=
  decide (x.mode ≤ 1) && s.portUsed x.port && decide (60 ≤ x.flen) && decide (x.flen + 4 ≤ s.maxLen x.port)
  && decide (32 + x.flen ≤ x.len) && (List.range 4).all (fun i => decide (leN b (16 + 4 * i) 4 = 0))
  && (!x.adjEn || decide (s.adjPort x.adj = x.port))
  && (!s.inMode mLULL || (decide (x.mode = 0) && isTether x.port && !x.adjEn))

/-- Discarded under INJ_BAD. -/
def State.injBad (s : State) (i : Nat) : State := (s.cnt (R.HST_RING_CNT.at i) 8).hstEvt F.HST_EVT_INJ_BAD

/-- A good record's frame: to the egress queue, to the pipeline, or in LULL to the tether MAC (R480). -/
def State.injFrame (s : State) (x : Inj) (f : Bytes) (e1 e2 : PassEnv) : State :=
  if s.inMode mLULL then s.sendDirect x.port f true
  else if x.mode = 0 then
    if s.egRoom (cellsOf f.length) then
      let p : Pkt := { bytes := f, port := x.port, tc := x.tc, colour := x.colour, adj := x.adj, egrPort := x.port }
      s.egEnter x.port x.tc { cells := cellsOf f.length, p := p, plain := !x.adjEn, adjOver := if x.adjEn then some x.adj else none }
    else s.cnt R.HST_CNT 0x10
  else s.pipeline { bytes := f, port := x.port, slice := s.portSlice x.port, stamp := stamp16 s.t16 } e1 e2

/-- The inject ring whose turn it is: the first in rotation that holds a record. -/
def State.injNext (s : State) : Option Nat :=
  ((List.range 32).map (fun k => 40 + (s.ring.injTurn - 40 + 1 + k) % 32)).find?
    (fun i => s.ringOn i && decide (s.cons i ≠ s.prod i))

/-- The record at the head of inject ring `r` is served in its turn (R480). -/
def State.inject (s : State) (r : Nat) (b : Bytes) (e1 e2 : PassEnv) : State :=
  let i := rINJ r
  if s.injNext ≠ some i ∨ !(s.inMode mRUN || s.inMode mLULL) then s else
  let x := injOf b
  let s := { s with ring := { s.ring with injTurn := i } }
  let ok := s.injLenOk i x.len
  let (next, s) := if ok then ((s.cons i + x.len) % s.ringSize i, s) else
    let (v, s) := s.draw
    (v.toNat % (s.ringSize i / 64) * 64, s)
  let typ := bits (leN b 0 4) 31 24
  let s := if typ = 0xFF ∧ ok then s
    else if typ = 1 ∧ ok ∧ decide (x.len ≤ b.length) ∧ s.injOk x b then
      (s.cnt (R.HST_RING_CNT.at i) 0).injFrame x (slice b 32 x.flen) e1 e2
    else s.injBad i
  s.setCons i next

/-! ### Event frames (R483) -/

/-- Sources of EVT_EN raised in the closed intervals since the last event frame. -/
def State.tmDue (s : State) : Bool :=
  (List.range 8).any (fun w => decide (s.ev.tmRaised / 2 ^ (32 * w) % 2 ^ 32 &&& s.rdr (R.EVT_EN.at w) ≠ 0))

/-- An event frame leaves tether port `n`: enabled, due, and spaced by HOLDOFF_MS. -/
def State.eventFrame (s : State) (n : Nat) : State :=
  let p := 144 + n
  let spaced := match s.ev.tmAt with
    | none => true
    | some t => decide (t + s.rd F.EVT_TMGMT_HOLDOFF_MS * 10 ^ 6 ≤ s.tb.up)
  if !(s.on F.EVT_TMGMT_EN && s.on (F.LPT_CTRL_TMGMT_EN.at p) && s.link p && decide (s.tmSrc ≠ 0) && spaced && s.tmDue
      && (s.inMode mRUN || s.inMode mLULL)) then s else
  let (v, s) := s.draw
  let b := digestBytes s.ev.closed v.toNat s.ev.tmCount s.digestInfo s.ev.tmRaised s.pendWord
  let up := s.tb.up
  let s := s.sendDirect p (s.tmFrame p s.tmSrc 1 b)
  { s with ev := { s.ev with tmRaised := 0, tmCount := 0, tmAt := some up } }

/-! ### Commands of field firmware (R475, R476) -/

/-- Result of GET_INFO. -/
def State.infoBytes (s : State) : Bytes :=
  leB 2 apiVersion ++ leB 8 (leN (s.imgAt 2 (s.slotInUse 2)) 0x18 8)
    ++ (List.range 4).map (fun i => BitVec.ofNat 8 (s.rd (F.KPR_IMG_ACT_SEC_VER.at i)))
    ++ [BitVec.ofNat 8 s.mode, BitVec.ofNat 8 (s.rd F.GLB_CAPS_STANDALONE)] ++ leB 2 (s.rd F.FAB_CFG_DEV_ID) ++ zeros 6 ++ leB 16 s.unitId

/-- GET_INFO. -/
def State.cmdInfo (s : State) (h : CmdHdr) : State := s.serve h 1 0 fun s => s.respond h 1 0 hOK true s.infoBytes none

/-- PING. -/
def State.cmdPing (s : State) (h : CmdHdr) (args : Bytes) : State :=
  s.serve h 2 (if h.argLen ≤ 40 then h.argLen else 0) fun s => s.respond h 2 0 hOK true ((args ++ zeros h.argLen).take h.argLen) none

/-- Why an access to `n` words from `o` is refused before it is made: its HSTATUS. -/
def accessRefused (o n : Nat) : Option Nat :=
  if n = 0 ∨ 1024 < n then some hBAD_LEN else if o % 4 ≠ 0 ∨ 2 ^ 28 < o + 4 * n then some hBAD_ARG else none

/-- Read words in order with all their side effects. -/
def State.readWords (s : State) (a : Nat) : Nat → State × Bytes
  | 0 => (s, [])
  | n + 1 =>
    let (s, w) := s.bar0Get a
    let (s, l) := State.readWords s (a + 4) n
    (s, leB 4 w.toNat ++ l)

/-- REG_READ. -/
def State.cmdRegRead (s : State) (h : CmdHdr) (o n : Nat) : State :=
  s.serve h 3 8 fun s => match accessRefused o n with
    | some c => s.answer h 3 0 c
    | none => let (s, b) := s.readWords o n; s.respond h 3 0 hOK true b none

/-- REG_WRITE may write word `a`: not of HST or EVT, of KPR only the mailbox. -/
def mayRegWrite (a : Nat) : Bool :=
  !hostWord a && !(decide (0x10000 ≤ a) && decide (a < 0x20000)
    && !(match regRow a with | some (r, _) => ["KPR_MBX_CTRL", "KPR_MBX_REQ", "KPR_MBX_STATUS"].contains r.name | none => false))

/-- Write words in order. -/
def State.writeWords (s : State) (a : Nat) : List Word → State
  | [] => s
  | w :: l => State.writeWords (s.bar0Write a w) (a + 4) l

/-- REG_WRITE. -/
def State.cmdRegWrite (s : State) (h : CmdHdr) (o : Nat) (ws : List Word) : State :=
  s.serve h 4 (8 + 4 * ws.length) fun s => match accessRefused o ws.length with
    | some c => s.answer h 4 0 c
    | none =>
      if (List.range ws.length).all (fun i => mayRegWrite (o + 4 * i)) then (s.writeWords o ws).answer h 4 0 hOK
      else s.answer h 4 0 hDENIED

/-- CONFIRM_UPDATE: field firmware sends CONFIRM to the Keeper; `nvm`: an erase or program of it fails (R125, R138). -/
def State.cmdConfirm (s : State) (h : CmdHdr) (nvm : Bool) : State :=
  s.serve h 5 0 fun s =>
    let r := s.imgConfirm
    if r.status = mOK ∧ nvm then (s.raise (eg 0 9)).answer h 5 mNVM_ERROR hOK else r.s.answer h 5 r.status hOK

/-- TIME_GET. -/
def State.cmdTime (s : State) (h : CmdHdr) : State :=
  s.serve h 6 0 fun s =>
    let (s, w) := s.regRead R.WRS_TIME.addr
    let time := leB 4 w.toNat ++ [4, 8, 12].flatMap (fun i => leB 4 (s.rdw (R.WRS_TIME.addr + i)).toNat)
    s.respond h 6 0 hOK true (time ++ leB 4 (s.rdr R.WRS_STATUS) ++ zeros 4 ++ leB 8 s.tick) none

/-- A servo command: taken and answered with the CODE its firmware defines (log entry 109). -/
def State.cmdServo (s : State) (h : CmdHdr) (op : Nat) : State :=
  if op / 256 ≠ 1 then s else
  s.serve h op h.argLen fun s => let (v, s) := s.draw; s.answer h op (v.toNat % 256) hOK

/-- Opcodes of the command table (R476). -/
def opKnown (op : Nat) : Bool :=
  (decide (1 ≤ op) && decide (op ≤ 6)) || (decide (0x10 ≤ op) && decide (op ≤ 0x1D)) || decide (op / 256 = 1)

/-- A command whose OPCODE is not in the table. -/
def State.cmdUnknown (s : State) (h : CmdHdr) (op : Nat) : State :=
  if opKnown op || !s.canTake h then s else (s.take h).answer h op 0 hUNKNOWN

/-! ### I2C (R484) -/

/-- The register at a pointer. -/
def State.i2cWord (s : State) (p : Nat) : Nat × State :=
  if p = 0 then (s.rdr R.GLB_PART % 65536, s)
  else if p = 1 then (s.rd F.GLB_STEP_STEP, s)
  else if p = 2 then (if s.inMode mDORMANT then 0 else s.rdr R.MOD_STATUS % 65536, s)
  else if p = 3 then (s.rdr R.MOD_SAFE % 65536, s)
  else if p = 4 then (s.lc + s.rd F.MOD_RSQ_COUNT * 2 ^ 8, s)
  else if 8 ≤ p ∧ p < 16 then (s.unitId / 2 ^ (16 * (15 - p)) % 65536, s)
  else if 16 ≤ p ∧ p < 32 then (s.rd (F.MOD_THERM_TEMP_TEMP.at (p - 16)), s)
  else if p = 0x20 then let (v, s) := s.draw; (v.toNat % 65536, s)
  else if p = 0x21 then
    let s := s.refresh "HST_PCIE_STATUS" [] R.HST_PCIE_STATUS.addr
    (s.rdr R.HST_PCIE_STATUS % 65536, s)
  else (0, s)

/-- `n` registers from the pointer, which advances. -/
def State.i2cGet (s : State) : Nat → Bytes × State
  | 0 => ([], s)
  | n + 1 =>
    let (v, s) := s.i2cWord s.i2cPtr
    let (l, s) := State.i2cGet { s with i2cPtr := (s.i2cPtr + 1) % 256 } n
    (beB 2 v ++ l, s)

/-- Supplies are present (log entry 110). -/
def State.powered (s : State) : Bool := decide (s.md.rails = 0)

/-- A read of `n` registers. -/
def State.i2cRead (s : State) (n : Nat) : State :=
  if !s.powered then s else let (b, s) := s.i2cGet n; s.emit (.i2c b)

/-- A write of RECOVERY: MOD_CMD `cmd` in RETURNED, otherwise its data bytes are refused. -/
def State.i2cRecovery (s : State) (cmd : Nat) : State :=
  if !s.powered then s
  else
    let s := { s with i2cPtr := 0x40 }
    if s.lc = lcRET then s.modCmd cmd false false else s.emit .i2cNak

/-! ### TAP (R104, R534) -/

/-- The life-cycle state permits a TAP instruction (log entry 71). -/
def State.tapMay (s : State) (i : TapInstr) : Bool :=
  let unlocked := (s.lc == lcPROV || s.lc == lcRET) && s.on F.KPR_STATUS_MAKER_DBG
  match i with
  | .bypass | .idcode => true
  | .boundary | .acBoundary => s.lc == lcBLANK || s.lc == lcFIELD || unlocked
  | .internalScan | .keeperDebug => s.lc == lcBLANK || unlocked

/-- An instruction takes effect, or BYPASS in its place; IDCODE is shifted out. -/
def State.tapLoad (s : State) (i : TapInstr) : State :=
  let i := if s.tapMay i then i else .bypass
  let s := { s with tap := i }
  if i = .idcode then s.emit (.tdo 0x1288098F) else s

end Sys2Proof.Machine
end

