-- ==== Sys2Proof/Machine/TableCmd.lean ====
section
/-! DEFINITION. The commit engine (R226, R236–R244): table commands, relocation, batches, staging, commit and settling. -/

namespace Sys2Proof.Machine

/-- Status codes of R237. -/
def cOK : Nat := 0x00
/-- TABLE_PATH_FULL. -/
def cPATH_FULL : Nat := 0x01
/-- TABLE_FULL. -/
def cFULL : Nat := 0x02
/-- ENTRY_EXISTS. -/
def cEXISTS : Nat := 0x03
/-- ENTRY_NOT_FOUND. -/
def cNOT_FOUND : Nat := 0x04
/-- ENTRY_DRAINING. -/
def cDRAINING : Nat := 0x05
/-- BAD_TABLE. -/
def cBAD_TABLE : Nat := 0x06
/-- BAD_ARG. -/
def cBAD_ARG : Nat := 0x07
/-- BATCH_FULL. -/
def cBATCH_FULL : Nat := 0x08
/-- BATCH_QUEUE_FULL. -/
def cQUEUE_FULL : Nat := 0x09
/-- COMMIT_LATE. -/
def cLATE : Nat := 0x0A
/-- BATCH_ABORTED. -/
def cABORTED : Nat := 0x0B
/-- WALK_END. -/
def cWALK_END : Nat := 0x0C

/-! ### Listing -/

/-- Indices of the pool's entries that hold anything, in order. -/
def State.emListed (s : State) : List Nat :=
  let b := s.tblBase 0
  s.tListed.filterMap (fun a =>
    if decide (b ≤ a) && decide (a < b + 67108864 * 32) && decide ((a - b) % 32 = 28) then some ((a - b) / 32) else none)

/-- Indices of the entries of table `k` that hold anything. -/
def State.emOf (s : State) (k : Nat) : List Nat :=
  let lo := s.rd (F.TBL_EM_CFG_BASE.at k) * 4
  let hi := lo + 4 * 2 ^ s.rd (F.TBL_EM_CFG_LOG2_SIZE.at k)
  s.emListed.filter (fun i => decide (lo ≤ i) && decide (i < hi))

/-! ### Relocation (R226) -/

/-- The slots of an occupant's other bucket. -/
def State.otherSlots (s : State) (i : Nat) : List Nat :=
  let e := s.emRead i
  let (b0, b1) := s.emBuckets e.tbl e.slice e.key
  let b := if i / 4 = b0 then b1 else b0
  [b * 4, b * 4 + 1, b * 4 + 2, b * 4 + 3]

/-- One level of the breadth-first search: every path extended by its last occupant's other slots, no slot twice. -/
def State.extendPaths (s : State) (paths : List (List Nat)) (seen : List Nat) : List (List Nat) × List Nat :=
  paths.foldl (fun acc p =>
    (s.otherSlots (p.headD 0)).foldl (fun acc i =>
      if acc.2.contains i then acc else (acc.1 ++ [i :: p], i :: acc.2)) acc) ([], seen)

/-- The first shortest path of at most `n` moves that ends in a free slot; newest slot first. -/
def State.bfs (s : State) : Nat → List (List Nat) → List Nat → Option (List Nat)
  | 0, _, _ => none
  | n + 1, paths, seen =>
    let (next, seen) := s.extendPaths paths seen
    match next.find? (fun p => !(s.emRead (p.headD 0)).valid) with
    | some p => some p
    | none => if next.isEmpty then none else State.bfs s n next seen

/-- An elementary write of pool entry `i`: its line leaves every slice's cache (R228). -/
def State.emLine (s : State) (i : Nat) : State :=
  foldS (List.range 8) (fun sl s => { s with look := { s.look with
    lines := mupd (fun _ => []) s.look.lines (2 * sl) (fun x => x.filter (· ≠ i / 4)) } }) s

/-- Write a pool entry as the commit engine does. -/
def State.emPut (s : State) (i : Nat) (e : EmEnt) : State := (s.emWrite i e).emLine i

/-- Make the moves of a path, into the free end first (R226). -/
def State.moveAlong (s : State) : List Nat → State
  | dst :: src :: l =>
    State.moveAlong ((((s.emPut dst (s.emRead src)).emShadowSet dst (s.emShadow src)).emFree src).emLine src) (src :: l)
  | _ => s

/-- A free slot for a key, and the state with the moves made, and their number. -/
def State.makeRoom (s : State) (k sl key : Nat) : Option (State × Nat × Nat) :=
  let slots := s.emSlots k sl key
  match slots.find? (fun i => !(s.emRead i).valid) with
  | some i => some (s, i, 0)
  | none =>
    match s.bfs 8 (slots.map (fun i => [i])) slots with
    | none => none
    | some path =>
      let s := s.moveAlong path
      some ({ s with cmt := { s.cmt with moves := s.cmt.moves + (path.length - 1) } }, path.getLastD 0, path.length - 1)

/-! ### Content writes (R236, R241, R242) -/

/-- The table argument names an exact-match table in use and the key fits its width. -/
def State.emArgOk (s : State) (k key : Nat) : Bool :=
  decide (k < 16) && s.emOn k && decide (key < 2 ^ s.rd (F.TBL_EM_CFG_KEY_WIDTH.at k))

/-- Key block of an LPM command: AF, prefix length, VRF, address with the bits below the prefix cleared (R289, R476). -/
def lpmKey (b : Bytes) : Nat × Nat × Nat × Nat :=
  let af := byteN b 16
  let len := byteN b 17
  let a := if af = 0 then beN b 0 4 else beN b 0 16
  let w := afWidth af
  (af, len, leN b 18 2, a / 2 ^ (w - len) * 2 ^ (w - len))

/-- The arguments of an LPM command are well formed. -/
def lpmArgOk (b : Bytes) : Bool := decide (byteN b 16 ≤ 1) && decide (byteN b 17 ≤ afWidth (byteN b 16))

/-- Mark an entry as deleted by generation `gen` (R241): one that the same generation added is freed; one that another pending
generation added keeps that one, and `gen` beside it (log entry 133). -/
def State.emMarkDel (s : State) (i gen : Nat) : State :=
  let e := s.emRead i
  if e.vis = 1 ∧ e.gen = gen then (s.emFree i).emLine i
  else if e.vis = 1 then (s.emShadowSet i (some gen)).emLine i
  else s.emPut i { e with vis := 2, gen := gen }

/-- Stage an exact-match write with generation `gen`: status and elementary writes. -/
def State.stageEm (s : State) (o : BOp) (gen : Nat) : State × Nat × Nat :=
  let k := o.table
  let key := leN o.key 0 16
  let sl := s.emSlice k o.slice
  if !s.emArgOk k key then (s, cBAD_TABLE, 0)
  else if 7 < o.slice then (s, cBAD_ARG, 0)
  else
    let new : EmEnt := { valid := true, vis := 1, static := o.static, hit := false, tbl := k, slice := sl, gen := gen
                         user := leN o.content 8 4, stn := bits (leN o.content 0 8) 56 48, fwd := leN o.content 0 6, key := key }
    match o.kind, s.emFind k sl key gen with
    | .insert, some _ => (s, cEXISTS, 0)
    | .insert, none =>
      match s.makeRoom k sl key with
      | none => (s, cPATH_FULL, 0)
      | some (s, i, m) => (s.emPut i new, cOK, 2 * m + 1)
    | .delete, some (i, _) => (s.emMarkDel i gen, cOK, 1)
    | .modify, some (i, e) =>
      match (s.emSlots k sl key).find? (fun j => !(s.emRead j).valid) with
      | none => (s, cPATH_FULL, 0)
      | some j => ((s.emPut j { new with static := e.static || o.static }).emMarkDel i gen, cOK, 1)
    | _, none => (s, cNOT_FOUND, 0)

/-- Mark a route as deleted by `gen`, as `emMarkDel` does an entry. -/
def State.delRoute (s : State) (r : Route) (gen : Nat) : State :=
  let s := match r.place with | some (b, k) => s.lpmLine b k | none => s
  { s with routes :=
      if r.vis = 1 ∧ r.gen = gen then s.routes.filter (fun x => x != r)
      else s.routes.map (fun x => if x ≠ r then x else if r.vis = 1 then { x with del := some gen } else { x with vis := 2, gen := gen }) }

/-- A new route is placed, and the fallbacks under it follow; the elementary writes of layout. -/
def State.addRoute (s : State) (r : Route) : State × Nat := let (s, w) := s.lpmPlace r 130; (s.refall r.vrf r.af, w)

/-- Stage an LPM write: an insert always succeeds below 75% of the slots, and may fail above (R218). -/
def State.stageLpm (s : State) (o : BOp) (gen : Nat) : State × Nat × Nat :=
  if !lpmArgOk o.key then (s, cBAD_ARG, 0) else
  let (af, len, vrf, addr) := lpmKey o.key
  let new : Route := { vrf := vrf, af := af, addr := addr, len := len, fwd := leN o.content 0 6, vis := 1, gen := gen }
  let cur := s.routes.find? (fun r => !r.copy && r.sameAs new && r.visible gen)
  let full := decide (8388608 < s.lpmSlots + afSlots af)
  match o.kind, cur with
  | .insert, some _ => (s, cEXISTS, 0)
  | .insert, none =>
    if s.lpmSlots < 6291456 then let (s, w) := s.addRoute new; (s, cOK, w + 1)
    else
      let (f, s) := s.draw
      if full || f.toNat % 2 == 1 then (s, cFULL, 0) else let (s, w) := s.addRoute new; (s, cOK, w + 1)
  | .delete, some r => ((s.delRoute r gen).refall vrf af, cOK, 1)
  | .modify, some r =>
    if full then (s, cFULL, 0) else let (s, w) := (s.delRoute r gen).addRoute new; (s, cOK, w + 1)
  | _, none => (s, cNOT_FOUND, 0)

/-- Stage one content write. -/
def State.stageOp (s : State) (o : BOp) (gen : Nat) : State × Nat × Nat :=
  if o.table = 16 then s.stageLpm o gen else if o.table < 16 then s.stageEm o gen else (s, cBAD_ARG, 0)

/-- Two content writes name the same key or prefix. -/
def State.sameKey (s : State) (x y : BOp) : Bool :=
  x.table == y.table &&
    (if x.table = 16 then lpmKey x.key == lpmKey y.key
     else leN x.key 0 16 == leN y.key 0 16 && s.emSlice x.table x.slice == s.emSlice y.table y.slice)

/-- The entries of a batch that count: a later one for the same key replaces the earlier (R240). -/
def State.lastOps (s : State) : List (Nat × BOp) → List (Nat × BOp)
  | [] => []
  | x :: l => if l.any (fun y => s.sameKey x.2 y.2) then State.lastOps s l else x :: State.lastOps s l

/-- Number a batch's entries by their position. -/
def numbered (l : List BOp) : List (Nat × BOp) := (l.foldl (fun (a : List (Nat × BOp) × Nat) o => (a.1 ++ [(a.2, o)], a.2 + 1)) ([], 0)).1

/-- Stage a whole batch: the state, the failed entries with their codes, the write count (R240, R242). -/
def State.stageBatch (s : State) (ops : List BOp) (gen : Nat) : State × List (Nat × Nat) × Nat :=
  (s.lastOps (numbered ops)).foldl (fun (a : State × List (Nat × Nat) × Nat) x =>
    let (s, c, n) := a.1.stageOp x.2 gen
    (s, if c = cOK then a.2.1 else a.2.1 ++ [(x.1, c)], a.2.2 + n)) (s, [], 0)

/-! ### Generations in commit order (R241, R243) -/

/-- The next generation to give a write: above the committed one and those pending. -/
def State.nextGen (s : State) : Nat := (s.genNow + s.cmt.pend.length + 1) % 65536

/-- Renumber a pending generation when `x` commits before generations given earlier: `x` becomes the next one. -/
def regen (next x g : Nat) : Nat :=
  let d (v : Nat) : Nat := (v + 65536 - next) % 65536
  if g = x then next else if d g < d x then (g + 1) % 65536 else g

/-- Renumber pending generations wherever they stand. -/
def State.mapGens (s : State) (f : Nat → Nat) : State :=
  let f (g : Nat) : Nat := if s.cmt.pend.contains g then f g else g
  let s := foldS s.emListed (fun i s =>
    let e := s.emRead i
    if e.valid && decide (e.vis ≠ 0) then s.emWrite i { e with gen := f e.gen } else s) s
  { s with
    routes := s.routes.map (fun r => { r with gen := if r.vis = 0 then r.gen else f r.gen, del := r.del.map f })
    pivots := s.pivots.map (fun p => { p with gen := f p.gen })
    cmt := { s.cmt with
      shadow := s.cmt.shadow.map (fun x => (x.1, x.2.map f))
      pend := s.cmt.pend.map f
      batches := s.cmt.batches.map (fun (b : Batch) => { b with gen := f b.gen })
      singles := s.cmt.singles.map (fun (q : Single) => { q with gen := f q.gen }) } }

/-- Renumber the pending entries so that generation `x` commits next (log entry 20). -/
def State.renumber (s : State) (x : Nat) : State :=
  let next := (s.genNow + 1) % 65536
  if x = next then s else s.mapGens (regen next x)

/-- What generation `g` wrote governs from its commit on (R244): other entries of a key it touched, left visible by a write that
committed before it, are deleted by it, and one it added is no longer deleted by such a write. -/
def State.governEm (s : State) (g : Nat) : State :=
  let touched (i : Nat) : Bool :=
    let e := s.emRead i
    e.valid && ((decide (e.vis ≠ 0) && e.gen == g) || s.emShadow i == some g)
  foldS (s.emListed.filter touched) (fun i s =>
    let e := s.emRead i
    let s := if decide (e.vis = 1) && e.gen == g && (match s.emShadow i with | some d => d != g && genReached g d | none => false)
      then s.emShadowSet i none else s
    foldS (s.emListed.filter (fun j =>
      let x := s.emRead j
      j != i && x.isFor e.tbl e.slice e.key && s.emVisible j x g && !(decide (x.vis = 1) && x.gen == g)))
      (fun j s => s.emMarkDel j g) s) s

/-- The same for routes. -/
def State.governLpm (s : State) (g : Nat) : State :=
  let touched (r : Route) : Bool := !r.copy && ((decide (r.vis ≠ 0) && r.gen == g) || r.del == some g)
  let s := foldS (s.routes.filter touched) (fun r s =>
    let late := decide (r.vis = 1) && r.gen == g && (match r.del with | some d => d != g && genReached g d | none => false)
    let s := if late then { s with routes := s.routes.map (fun x => if x = r then { x with del := none } else x) } else s
    foldS (s.routes.filter (fun x => !x.copy && x.sameAs r && decide (x ≠ r) && x.visible g && !(decide (x.vis = 1) && x.gen == g)))
      (fun x s => s.delRoute x g) s) s
  foldS s.pivots (fun p s => s.refallOne p) s

/-- Commit generation `x` at tick `n`: every slice switches at the tick's instant (R243). -/
def State.commitGen (s : State) (x n : Nat) : State :=
  let s := s.renumber x
  let g := (s.genNow + 1) % 65536
  let s := (s.governEm g).governLpm g
  let s := (s.wr F.TBL_COMMIT_STATUS_GEN g).wr64 R.TBL_COMMIT_TICK n
  let inst := s.tickNs n * 65536
  { s with cmt := { s.cmt with
      hist := (g, inst) :: s.cmt.hist
      pend := s.cmt.pend.filter (· ≠ g)
      settle := s.cmt.settle ++ [(g, inst)] } }

/-- Settle a committed generation: PEND_ADD becomes LIVE, or PEND_DEL of the generation kept beside it; PEND_DEL is freed (R241). -/
def State.settleGen (s : State) (g : Nat) : State :=
  let s := foldS s.emListed (fun i s =>
    let e := s.emRead i
    if e.valid && e.gen == g && decide (e.vis = 1) then
      match s.emShadow i with
      | some d => (s.emWrite i { e with vis := 2, gen := d }).emShadowSet i none
      | none => s.emWrite i { e with vis := 0 }
    else if e.valid && e.gen == g && decide (e.vis = 2) then s.emFree i else s) s
  let keep := s.routes.filter (fun (r : Route) => !(r.gen == g && r.vis == 2))
  let live (r : Route) : Route :=
    if r.gen = g ∧ r.vis = 1 then (match r.del with | some d => { r with vis := 2, gen := d, del := none } | none => { r with vis := 0 }) else r
  { s with routes := keep.map live }.refallAll

/-- The commit tick plus 2 µs of the oldest unsettled commit has come (R241); generations before it are needed no more. -/
def State.settle (s : State) : State :=
  match s.cmt.settle with
  | [] => s
  | (g, inst) :: l =>
    let s := (s.advanceTo ((inst + 2000 * 65536) * tuFrac)).settleGen g
    { s with cmt := { s.cmt with settle := l, hist := s.cmt.hist.take (l.length + 1) } }

/-! ### Batches (R240, R242, R243) -/

/-- The batch with an id. -/
def State.batch (s : State) (id : Nat) : Option Batch := s.cmt.batches.find? (fun b => b.id == id)

/-- Replace or drop a batch. -/
def State.batchUpd (s : State) (id : Nat) (f : Batch → Option Batch) : State :=
  { s with cmt := { s.cmt with batches := s.cmt.batches.filterMap (fun b => if b.id = id then f b else some b) } }

/-- Batches submitted and not committed, in submission order. -/
def State.queued (s : State) : List Batch := s.cmt.batches.filter (fun b => b.submitted)

/-- Show QUEUED and STAGING. -/
def State.showCommit (s : State) : State :=
  (s.wr F.TBL_COMMIT_STATUS_QUEUED s.queued.length).wr F.TBL_COMMIT_STATUS_STAGING
    (b2n (s.queued.any (fun b => decide (b.stageAt ≤ s.tick) && decide (s.tick < b.earliest))))

/-- BATCH_SUBMIT accepted in interval T: w from the table as the batches before it stage it, E = T + s + 2 (R242). -/
def State.submit (s : State) (b : Batch) (c : Nat) (h : CmdHdr) : State × Nat × Nat :=
  let dry := (s.queued.filter (fun x => !x.staged)).foldl (fun (s : State) x => (s.stageBatch x.ops x.gen).1) s
  let gen := s.nextGen
  let w := (dry.stageBatch b.ops gen).2.2
  let t := s.queued.foldl (fun m x => max m x.earliest) s.tick
  let e := t + (w + 255) / 256 + 2
  let nb : Batch := { b with submitted := true, commitAt := c, earliest := e, stageAt := t + 2, writes := w, gen := gen, hdr := h }
  let rest := s.cmt.batches.filter (fun x => x.id != b.id)
  let s := { s with cmt := { s.cmt with batches := rest ++ [nb], pend := s.cmt.pend ++ [gen] } }
  (s.showCommit, w, e)

/-- Forget a pending generation that will not commit; the ones given after it move down. -/
def State.dropGen (s : State) (g : Nat) : State :=
  let d (v : Nat) : Nat := (v + 65536 - g) % 65536
  let s := { s with cmt := { s.cmt with pend := s.cmt.pend.filter (· ≠ g) } }
  s.mapGens (fun x => if d x < 32768 then (x + 65535) % 65536 else x)

/-- An ALL_OR_NONE batch with a failed entry: nothing of it stays, and it completes with BATCH_ABORTED (R240). -/
def State.abortBatch (s : State) (b : Batch) (failed : List (Nat × Nat)) : State :=
  let s := ((s.batchUpd b.id (fun _ => none)).dropGen b.gen).raise (eg 2 12)
  (s.respond b.hdr 0x001C cABORTED hOK true (failed.flatMap (fun x => leB 4 (x.1 * 256 + x.2))) none).showCommit

/-- Elementary writes reach HBM: each takes one pipeline slot from every slice (R228). -/
def State.stealSlots (s : State) (n : Nat) : State :=
  if n = 0 then s else foldS (List.range 8) (fun sl s => s.cnt (R.TBL_CNT.at sl) 0x78 n) s

/-- Elementary writes that the batch being staged makes in interval `n`, at most 256 (R242). -/
def State.stagedIn (s : State) (n : Nat) : Nat :=
  match s.queued.find? (fun b => b.staged && decide (b.stageAt ≤ n) && decide (n < b.earliest)) with
  | none => 0
  | some b => min 256 (b.writes - 256 * (n - b.stageAt))

/-- STATE of an entry of table 17 or 18; tables 19 and 20 have none. -/
def State.entState (s : State) (t i : Nat) : Nat := if t = 17 then s.nhState i else if t = 18 then s.adjState i else 0

/-- The byte offset of a structure entry in tables 17–20. -/
def State.entAddr (s : State) (t i : Nat) : Nat :=
  match t with | 17 => s.nhAddr i | 18 => s.adjAddr i | 19 => s.grpAddr i | _ => s.memAddr i

/-- Words of a content image. -/
def imgWords (b : Bytes) : List Nat := (List.range (b.length / 4)).map (fun i => leN b (4 * i) 4)

/-- An image with STATE ACTIVE in word 0 (tables 17 and 18). -/
def activeImg (t : Nat) (l : List Nat) : List Nat :=
  if t = 17 ∨ t = 18 then (match l with | [] => [] | w :: r => (w % 2 ^ 30 + 2 ^ 30) :: r) else l

/-- The status of a write to tables 17–20 by the STATE it finds (R234, R236). -/
def entCode (k : EntKind) (t st : Nat) : Nat :=
  match k with
  | .write => if st = 0 then cOK else cDRAINING
  | .modify => if t ≠ 17 ∧ t ≠ 18 then cOK else if st = 1 then cOK else if st = 2 then cDRAINING else cNOT_FOUND
  | .delete => if st = 1 then cOK else if st = 0 then cNOT_FOUND else cDRAINING

/-- A write to tables 17–20 is made in HBM: the entry becomes ACTIVE with its content, or DRAINING; its response carries tick `n`
(R230, R233, R234, R244). -/
def State.entDo (s : State) (n : Nat) (o : EntOp) : State :=
  let t := o.args.table.toNat
  let i := o.args.index.toNat
  let c := entCode o.kind t (s.entState t i)
  let s := if c ≠ cOK then s
    else if o.kind = .delete then (s.entDrain (t == 18) i).stealSlots 1
    else (s.twPut (s.entAddr t i) (activeImg t (imgWords o.args.content))).stealSlots 1
  s.respond o.hdr o.opcode c hOK true [] (some n)

/-- The writes to tables 17–20 accepted before the interval of tick `n` are made in it, in order (R244). -/
def State.entsTick (s : State) (n : Nat) : State :=
  let l := s.cmt.ents
  foldS (l.filter (fun o => decide (o.acceptedAt < n))) (fun o s => s.entDo n o)
    { s with cmt := { s.cmt with ents := l.filter (fun o => decide (n ≤ o.acceptedAt)) } }

/-- The batch whose intervals have come at tick `n` is staged. -/
def State.stageDue (s : State) (n : Nat) : State :=
  match s.queued.find? (fun b => !b.staged && decide (b.stageAt ≤ n)) with
  | none => s
  | some b =>
    let (s1, failed, _) := s.stageBatch b.ops b.gen
    if b.aon && !failed.isEmpty then s.abortBatch b failed
    else s1.batchUpd b.id (fun b => some { b with staged := true, failed := failed })

/-- Singles accepted before tick `n`, oldest first, are staged while the budget lasts (R244); `m` bounds how many. -/
def State.stageSingles (s : State) (n budget : Nat) : Nat → State
  | 0 => s
  | m + 1 =>
    match s.cmt.singles.find? (fun q => q.stagedAt.isNone && decide (q.acceptedAt < n)) with
    | none => s
    | some q =>
      if budget = 0 then s else
      let (s1, c, w) := s.stageOp q.op q.gen
      if c = cOK then
        let s1 := s1.stealSlots w
        State.stageSingles { s1 with cmt := { s1.cmt with
          singles := s1.cmt.singles.map (fun (x : Single) => if x.gen = q.gen then { x with stagedAt := some n } else x) } } n (budget - w) m
      else
        let s := { s with cmt := { s.cmt with singles := s.cmt.singles.filter (fun x => x.gen != q.gen) } }.dropGen q.gen
        State.stageSingles (if q.answer then s.respond q.hdr q.opcode c hOK true [] none else s) n budget m

/-- Batches and singles whose commit tick is `n` (R243, R244). -/
def State.markDue (s : State) (n : Nat) : State :=
  { s with cmt := { s.cmt with
      batches := s.cmt.batches.map (fun (b : Batch) =>
        if b.staged && b.due.isNone && decide (max b.commitAt b.earliest ≤ n) then { b with due := some n } else b)
      singles := s.cmt.singles.map (fun (q : Single) =>
        if q.due.isNone && (match q.stagedAt with | some t => decide (t < n) | none => false) then { q with due := some n } else q) } }

/-- Work of the commit engine at tick `n`: commits that are due, writes to tables 17–20, then staging: the batch whose intervals have
come, and singles with the budget left (R242–R244). A single left over is spilled work (R73, log entry 105). -/
def State.stagingTick (s : State) (n : Nat) : State :=
  let s := ((s.markDue n).entsTick n).stageDue n
  let used := s.stagedIn n
  let s := (s.stealSlots used).stageSingles n (256 - used) s.cmt.singles.length
  let s := if s.cmt.singles.any (fun q => q.stagedAt.isNone && decide (q.acceptedAt < n)) then s.overrun 2 else s
  s.showCommit

/-- A batch commits at its tick (R243): GEN, COMMIT_DONE, and the FINAL response with COMMIT_LATE when the tick is not the
one named; in LULL it waits. -/
def State.batchCommit (s : State) (id : Nat) : State :=
  if !s.inMode mRUN then s else
  match s.batch id with
  | none => s
  | some b =>
    match b.due with
    | none => s
    | some n =>
      let late := decide (n ≠ b.commitAt)
      let s := ((s.batchUpd id (fun _ => none)).commitGen b.gen n).raise (eg 2 10)
      let s := if late then s.raise (eg 2 11) else s
      let s := s.respond b.hdr 0x001C (if late then cLATE else cOK) hOK true
        (b.failed.flatMap (fun x => leB 4 (x.1 * 256 + x.2))) (some n)
      s.showCommit

/-- The oldest staged single commits at the first tick after it was staged (R244); in LULL it waits. -/
def State.singleCommit (s : State) : State :=
  if !s.inMode mRUN then s else
  match s.cmt.singles.find? (fun q => q.due.isSome) with
  | none => s
  | some q =>
    let n := q.due.getD 0
    let late := decide (q.acceptedAt + 2 < n)
    let s := { s with cmt := { s.cmt with singles := s.cmt.singles.filter (fun x => x.gen != q.gen) } }
    let s := s.commitGen q.gen n
    let s := if late then s.raise (eg 2 11) else s
    if q.answer then s.respond q.hdr q.opcode (if late then cLATE else cOK) hOK true [] (some n) else s

/-! ### Commands (R236, R476) -/

/-- Content bytes of a table's entry (R476). -/
def contentLen (t : Nat) : Nat :=
  if t < 16 then 12 else match t with | 16 => 6 | 17 => 16 | 18 => 64 | 19 => 8 | 20 => 4 | _ => 0

/-- Accept a content write without a batch: it gets its own generation and waits for staging (R244). -/
def State.acceptSingle (s : State) (o : BOp) (h : CmdHdr) (opc : Nat) (ans : Bool) : State :=
  let g := s.nextGen
  { s with cmt := { s.cmt with
      pend := s.cmt.pend ++ [g]
      singles := s.cmt.singles ++ [⟨o, g, s.tick, none, h, opc, ans, none⟩] } }

/-- Queue a content write in a batch. -/
def State.intoBatch (s : State) (a : TblArgs) (o : BOp) (h : CmdHdr) (opc : Nat) : State :=
  match s.batch a.batch.toNat with
  | none => s.answer h opc cBAD_ARG hOK
  | some b =>
    if b.submitted then s.answer h opc cBAD_ARG hOK
    else if 4096 ≤ b.ops.length then s.answer h opc cBATCH_FULL hOK
    else (s.batchUpd b.id (fun b => some { b with ops := b.ops ++ [o] })).answer h opc cOK hOK

/-- INSERT, DELETE and MODIFY of tables 0–16: into the batch named, or as a single that is checked at once. -/
def State.contentCmd (s : State) (a : TblArgs) (kind : OpKind) (h : CmdHdr) (opc : Nat) : State :=
  let o : BOp := ⟨kind, a.table.toNat, a.slice.toNat, a.key, a.content, a.static⟩
  if 16 < a.table.toNat then s.answer h opc cBAD_ARG hOK
  else if a.batch = 0xFF then
    let (_, c, _) := s.stageOp o s.nextGen
    if c = cOK then s.acceptSingle o h opc true else s.answer h opc c hOK
  else s.intoBatch a o h opc

/-- Entries of a structure table (R229). -/
def entCount (t : Nat) : Nat := if t = 19 then 65536 else 1048576

/-- An ECMP group image has SIZE 0–256. -/
def imgOk (t : Nat) (b : Bytes) : Bool := t != 19 || decide (leN b 4 4 ≤ 256)

/-- A write to tables 17–20 is accepted and waits for the next interval (R244). -/
def State.acceptEnt (s : State) (k : EntKind) (a : TblArgs) (h : CmdHdr) (opc : Nat) : State :=
  let t := s.tick
  { s with cmt := { s.cmt with ents := s.cmt.ents ++ [⟨k, a, h, opc, t⟩] } }

/-- NH_WRITE, ADJ_WRITE and ECMP_WRITE: an entry in state FREE is written and becomes ACTIVE (R230, R234, R236). -/
def State.entWrite (s : State) (ok : Bool) (a : TblArgs) (h : CmdHdr) (opc : Nat) : State :=
  if !ok || decide (entCount a.table.toNat ≤ a.index.toNat) || !imgOk a.table.toNat a.content then s.answer h opc cBAD_ARG hOK
  else s.acceptEnt .write a h opc

/-- MODIFY of tables 17–20: an ACTIVE entry's content is replaced in place (R233, R234). -/
def State.entModify (s : State) (a : TblArgs) (h : CmdHdr) (opc : Nat) : State :=
  if decide (entCount a.table.toNat ≤ a.index.toNat) || !imgOk a.table.toNat a.content then s.answer h opc cBAD_ARG hOK
  else s.acceptEnt .modify a h opc

/-- NH_DELETE and ADJ_DELETE: STATE becomes DRAINING (R234). -/
def State.entDelete (s : State) (adj : Bool) (a : TblArgs) (h : CmdHdr) (opc : Nat) : State :=
  let t := if adj then 18 else 17
  if a.table.toNat ≠ t ∨ entCount t ≤ a.index.toNat then s.answer h opc cBAD_ARG hOK
  else s.acceptEnt .delete a h opc

/-- The 32-byte image of a route: its key block, its result and two zero bytes (the form in which SEARCH and NEXT return one; log entry 21). -/
def Route.bytes (r : Route) : Bytes :=
  (if r.af = 0 then beB 4 r.addr ++ zeros 12 else beB 16 r.addr) ++ leB 1 r.af ++ leB 1 r.len ++ leB 2 r.vrf ++ zeros 4
    ++ leB 6 r.fwd ++ zeros 2

/-- SEARCH: the visible entry (R236). -/
def State.searchCmd (s : State) (a : TblArgs) (h : CmdHdr) (opc : Nat) : State :=
  let t := a.table.toNat
  let i := a.index.toNat
  let found (b : Bytes) : State := s.respond h opc cOK hOK true b none
  if t < 16 then
    if !s.emArgOk t (leN a.key 0 16) then s.answer h opc cBAD_TABLE hOK
    else match s.emFind t a.slice.toNat (leN a.key 0 16) s.genNow with
      | some (ix, _) => found (s.tBytes (s.emAddr ix) 8)
      | none => s.answer h opc cNOT_FOUND hOK
  else if t = 16 then
    if !lpmArgOk a.key then s.answer h opc cBAD_ARG hOK else
    let (af, len, vrf, addr) := lpmKey a.key
    match s.routes.find? (fun r => !r.copy && r.vrf == vrf && r.af == af && r.addr == addr && r.len == len && r.visible s.genNow) with
    | some r => found r.bytes
    | none => s.answer h opc cNOT_FOUND hOK
  else if t ≤ 20 then
    if entCount t ≤ i then s.answer h opc cBAD_ARG hOK
    else if (t = 17 ∨ t = 18) ∧ s.entState t i = 0 then s.answer h opc cNOT_FOUND hOK
    else found (s.tBytes (s.entAddr t i) (contentLen t / 4))
  else s.answer h opc cBAD_ARG hOK

/-- The entries that a walk of a table visits from cursor `cur` on, at least `n` of them where there are so many, each with the cursor
behind it (R238). -/
def State.walkRest (s : State) (t cur n : Nat) : List (Nat × Bytes) :=
  if t < 16 then
    (s.emOf t).filterMap (fun i =>
      let e := s.emRead i
      if decide (cur ≤ i) && e.valid && s.emVisible i e s.genNow then some (i, s.tBytes (s.emAddr i) 8) else none)
  else
    let k := contentLen t
    let ix := if t ≤ 18 then
        let b := s.entAddr t 0
        ((s.tListed.filterMap (fun a =>
          if decide (b ≤ a) && decide (a < b + entCount t * k) then some ((a - b) / k) else none)).eraseDups).filter
          (fun i => decide (cur ≤ i) && decide (s.entState t i ≠ 0))
      else (List.range (min (n + 1) (entCount t - cur))).map (cur + ·)
    ix.map (fun i => (i, s.tBytes (s.entAddr t i) (k / 4)))

/-- The visible routes after the one a cursor names, 0 naming the start (R238). -/
def State.walkRoutes (s : State) (cur : Nat) : List Route :=
  let l := s.routes.filter (fun r => !r.copy && r.visible s.genNow)
  if cur = 0 then l else match mget (fun _ => none) s.cmt.curs cur with
    | some r => l.filter (fun x => r.before x)
    | none => []

/-- The cursor behind a route: a number under which the commit engine keeps its prefix (log entry 134). -/
def State.routeCursor (s : State) (r : Route) : State × Nat :=
  let c := s.cmt.curNext + 1
  ({ s with cmt := { s.cmt with curNext := c, curs := mset (fun _ => none) s.cmt.curs c (some r) } }, c)

/-- NEXT: up to COUNT entries after the cursor and the new cursor; CLEAR_HIT clears HIT in those returned (R227, R238). -/
def State.nextCmd (s : State) (a : TblArgs) (h : CmdHdr) (opc : Nat) : State :=
  let t := a.table.toNat
  let n := a.index.toNat
  if 20 < t then s.answer h opc cBAD_ARG hOK
  else if t < 16 ∧ !s.emOn t then s.answer h opc cBAD_TABLE hOK
  else if n = 0 ∨ 64 < n then s.answer h opc cBAD_ARG hOK
  else
    let cur := leN a.key 0 16
    let s := if cur = 0 then { s with cmt := { s.cmt with walkAt := mset (fun _ => 0) s.cmt.walkAt t s.cmt.moves } } else s
    let moved := decide (mget (fun _ => 0) s.cmt.walkAt t ≠ s.cmt.moves)
    if t = 16 then
      let rest := s.walkRoutes cur
      let got := rest.take n
      let (s, cur') := match got.getLast? with | some r => s.routeCursor r | none => (s, cur)
      s.respond h opc (if rest.length ≤ n then cWALK_END else cOK) hOK true (leB 16 cur' ++ got.flatMap Route.bytes) none (b2n moved * 4)
    else
      let rest := s.walkRest t cur n
      let got := rest.take n
      let s := if a.clearHit && decide (t < 16) then
        foldS got (fun x s => s.emWrite x.1 { s.emRead x.1 with hit := false }) s else s
      let cur' := match got.getLast? with | some x => x.1 + 1 | none => cur
      s.respond h opc (if rest.length ≤ n then cWALK_END else cOK) hOK true (leB 16 cur' ++ got.flatMap (·.2)) none (b2n moved * 4)

/-- FLUSH_PORT: every non-STATIC entry learnt on the port whose generation is older than the current one is deleted as a
single-entry write; the response gives their number (R239). -/
def State.flushCmd (s : State) (a : TblArgs) (h : CmdHdr) (opc : Nat) : State :=
  let t := a.table.toNat
  let g := s.genNow
  if 15 < t then s.answer h opc cBAD_ARG hOK
  else if !s.emOn t then s.answer h opc cBAD_TABLE hOK
  else
    let hit := (s.emOf t).filter (fun i =>
      let e := s.emRead i
      e.valid && !e.static && s.emVisible i e g && e.stn == a.index.toNat % 512 && e.gen != g && genReached g e.gen)
    let s1 := foldS hit (fun i s =>
      let e := s.emRead i
      s.acceptSingle ⟨.delete, t, e.slice, leB 16 e.key ++ zeros 8, [], false⟩ h opc false) s
    s1.respond h opc cOK hOK true (leB 4 hit.length) none

/-- BATCH_OPEN: the lowest free id (R236). -/
def State.batchOpen (s : State) (a : TblArgs) (h : CmdHdr) (opc : Nat) : State :=
  match (List.range 16).find? (fun i => (s.batch i).isNone) with
  | none => s.answer h opc cBATCH_FULL hOK
  | some i =>
    let b : Batch := { id := i, aon := a.allOrNone, hdr := h }
    { s with cmt := { s.cmt with batches := s.cmt.batches ++ [b] } }.respond h opc cOK hOK true (leB 1 i) none

/-- BATCH_SUBMIT: w and E at once, without FINAL (R240, R242, R477). -/
def State.batchSubmit (s : State) (a : TblArgs) (h : CmdHdr) (opc : Nat) : State :=
  match s.batch a.batch.toNat with
  | none => s.answer h opc cBAD_ARG hOK
  | some b =>
    if b.submitted then s.answer h opc cBAD_ARG hOK
    else if 8 ≤ s.queued.length then s.answer h opc cQUEUE_FULL hOK
    else
      let (s, w, e) := s.submit b a.tick.toNat h
      s.respond h opc cOK hOK false (leB 4 w ++ zeros 4 ++ leB 8 e) none

/-- BATCH_ABORT: a batch not yet staging is discarded; one already submitted completes with BATCH_ABORTED (R236). -/
def State.batchAbort (s : State) (a : TblArgs) (h : CmdHdr) (opc : Nat) : State :=
  match s.batch a.batch.toNat with
  | none => s.answer h opc cBAD_ARG hOK
  | some b =>
    if b.submitted && decide (b.stageAt ≤ s.tick) then s.answer h opc cBAD_ARG hOK
    else
      let s := s.batchUpd b.id (fun _ => none)
      let s := if b.submitted then (s.dropGen b.gen).answer b.hdr 0x001C cABORTED hOK else s
      (s.answer h opc cOK hOK).showCommit

end Sys2Proof.Machine
end

