-- ==== Sys2Proof/Machine/Tick.lean ====
section
/-! DEFINITION. A tick (R63, R73): the interval before it closes for the digest and the event frames, then every tick-driven unit
does its work. -/

namespace Sys2Proof.Machine

/-- The interval in progress closes (R483, R487): a source counts when it was raised in it or stands raised now; the next
interval starts with the levels that stand. -/
def State.closeInterval (s : State) : State :=
  let lv := s.levels
  match s.ev.open_ with
  | none => { s with ev := { s.ev with raised := lv, tmCur := lv } }
  | some n =>
    let bits := s.ev.raised ||| lv
    let s := { s with ev := { s.ev with
      raised := lv, tmCur := lv, tmRaised := s.ev.tmRaised ||| s.ev.tmCur ||| lv, tmCount := s.ev.tmCount + 1, closed := n } }
    s.digestClose n bits

/-! ### Learn flush (R249) -/

/-- The next slice after the one served last that has a notification. -/
def State.learnNext (s : State) : Option Nat :=
  ((List.range 8).map (fun k => (s.learn.turn + 1 + k) % 8)).find? (fun sl => !(s.learnQ sl).isEmpty)

/-- Write up to `n` notifications, one per slice in turn, while the learn ring has room; the number written. -/
def State.learnPump (s : State) : Nat → State × Nat
  | 0 => (s, 0)
  | n + 1 =>
    if !s.entryRoom rLEARN then (s, 0) else
    match s.learnNext with
    | none => (s, 0)
    | some sl =>
      match s.learnQ sl with
      | [] => (s, 0)
      | l :: q =>
        let s := ((s.learnSet sl q).produceEntry rLEARN l.bytes).cnt (R.TBL_CNT.at sl) 0x40
        let (s, k) := State.learnPump { s with learn := { s.learn with turn := sl } } n
        (s, k + 1)

/-- The flush of a tick: what the last tick left queued is reported as spilled work (R73), LEARN_FLUSH when this one wrote any. -/
def State.learnFlush (s : State) : State :=
  let s := if s.learn.spill then s.overrun 3 else s
  let (s, k) := s.learnPump 1024
  let s := if k = 0 then s else s.raise (eg 8 2)
  { s with learn := { s.learn with spill := s.learnNext.isSome } }

/-! ### The tick -/

/-- Events that are raised once per tick at most may be raised again (R205, R251, R268). -/
def State.newTick (s : State) : State :=
  { s with punt := { s.punt with dropSeen := [] }, learn := { s.learn with bwSeen := false }
           echo := { s.echo with skipSeen := false }, fab := { s.fab with overSeen := false, lostSeen := false } }

/-- Shapers refill, tick numbers passed over included, and those below zero are refreshed; what they apply to is brought up to date (R386, R387). -/
def State.shapersTick (s : State) : State :=
  let l := s.shp.neg.take 48000
  foldS l (fun k s => s.shaperSync k) ({ s with shp := { s.shp with owed := 0 } }.shpTick (1 + s.shp.owed))

/-- Work of the units of RUN at tick `n`. -/
def State.runTick (s : State) (n : Nat) : State :=
  let s := (((s.gateTick n).shapersTick.sojTick n).stagingTick n).tsiTick n
  let s := (s.learnFlush.svyTick n)
  s.galTicks (List.range 8)

/-- Cadence issues its next tick (R63, R65, R66). -/
def State.cadTick (s : State) : State :=
  if !s.on F.CAD_CTRL_EN || s.inMode mDORMANT then s else
  let s := s.closeInterval.issueTick
  let n := s.tick
  let s := { s with ev := { s.ev with open_ := some n } }.newTick.calApply
  (if s.inMode mRUN then s.runTick n else if s.inMode mLULL then s.galTicks [0] else s).thaw

end Sys2Proof.Machine
end

