-- ==== Sys2Proof/Machine/ExecBar0.lean ====
section
/-! DEFINITION. Host accesses to BAR0 (R8–R11, R85, R506, R515) and pops of the log FIFOs. -/

namespace Sys2Proof.Machine

/-- IND_CMD of a block. -/
def indReg (b : IndBlock) : Reg :=
  match b with
  | .cls => R.CLS_IND_CMD | .acl => R.ACL_IND_CMD | .que => R.QUE_IND_CMD | .sch => R.SCH_IND_CMD | .shp => R.SHP_IND_CMD
  | .gat => R.GAT_IND_CMD | .svy => R.SVY_IND_CMD

/-- A host write to a register that has no row of its own, applied under the access code of each field (R11). -/
def execRegisterWrite (a : BitVec 28) (v : Word) (s : State) : Out1 := .next (s.bar0Write a.toNat v)

/-- A BAR0 access that is not 32 bits or not 4-byte aligned completes with Unsupported Request, is ignored and is logged as
KIND 1 (R8). -/
def execBar0BadAccess (a : BitVec 28) (write : Bool) (s : State) : Out1 := .next (s.bar0Bad a.toNat write)

/-- A read of the low word of a 64-bit register latches its high word in the same cycle (R9). -/
def execLowWordRead (a : BitVec 28) (s : State) : Out1 := .next (s.bar0Read a.toNat)

/-- A write of the low word of a 64-bit register is held until the high word is written (R9). -/
def execLowWordWrite (a : BitVec 28) (v : Word) (s : State) : Out1 := .next (s.bar0Write a.toNat v)

/-- A write of the high word of a 64-bit register changes the whole register, using any held low word (R9). -/
def execHighWordWrite (a : BitVec 28) (v : Word) (s : State) : Out1 := .next (s.bar0Write a.toNat v)

/-- A host read of an RC field returns the value and then clears it (R11). -/
def execRcRead (a : BitVec 28) (s : State) : Out1 := .next (s.bar0Read a.toNat)

/-- An access to a reserved BAR0 range reads zero, ignores the write and is recorded in GLB_ERR_LOG (R515). -/
def execReservedRangeAccess (a : BitVec 28) (w : Option Word) (s : State) : Out1 := .next (s.bar0Access a.toNat w)

/-- An access to a block that is not served while DP_READY is 0 completes normally as zero or ignored (R85). -/
def execEarlyBlockAccess (a : BitVec 28) (w : Option Word) (s : State) : Out1 := .next (s.bar0Access a.toNat w)

/-- A BAR0 access to a partition under test completes as BUSY and is logged in BIS_BUSY_LOG (R506). -/
def execBusyAccess (a : BitVec 28) (w : Option Word) (s : State) : Out1 := .next (s.bar0Access a.toNat w)

/-- An IND_CMD write with an OP value the block does not define completes with its BAD_ARG error and changes nothing (R382).
-/
def execIndCmdBadOp (b : IndBlock) (v : Word) (s : State) : Out1 := .next (s.bar0Write (indReg b).addr v)

end Sys2Proof.Machine
end

