-- ==== Sys2Proof/Machine/ExecClass.lean ====
section
/-! DEFINITION. Classification, ACL and Echo commands (R200–R205, R257–R273). -/

namespace Sys2Proof.Machine

/-- Each microsecond of Windrose time, every punt bucket gains RATE units up to its ceiling (R204). -/
def execPuntRefill (s : State) : Out1 := .next (s.puntRefill)

/-- Indirect WRITE of a classification rule in three cycles, VALID last, in every slice of the mask (R200). -/
def execClsWrite (v : Word) (s : State) : Out1 := .next (s.indWrite R.CLS_IND_CMD v 1 1)

/-- Indirect READ of a classification rule from the lowest-numbered slice in the mask (R201). -/
def execClsRead (v : Word) (s : State) : Out1 := .next (s.indWrite R.CLS_IND_CMD v 1 2)

/-- Indirect INVALIDATE clears VALID of a classification rule (R200). -/
def execClsInvalidate (v : Word) (s : State) : Out1 := .next (s.indWrite R.CLS_IND_CMD v 1 3)

/-- Indirect WRITE of an ACL entry, its verify copy and backing copy in every slice of the mask (R257). -/
def execAclWrite (v : Word) (s : State) : Out1 := .next (s.indWrite R.ACL_IND_CMD v 2 1)

/-- Indirect READ of an ACL entry from the lowest-numbered slice in the mask (R257). -/
def execAclRead (v : Word) (s : State) : Out1 := .next (s.indWrite R.ACL_IND_CMD v 2 2)

/-- Indirect INVALIDATE of an ACL entry (R257). -/
def execAclInvalidate (v : Word) (s : State) : Out1 := .next (s.indWrite R.ACL_IND_CMD v 2 3)

/-- Indirect STEP returns the next verified ACL match after the cursor (R258). -/
def execAclStep (v : Word) (e : AclEnv) (s : State) : Out1 := .next (s.indWrite R.ACL_IND_CMD v 2 4 e)

/-- Indirect READ_CNT returns an ACL entry's hit counter (R262). -/
def execAclReadCnt (v : Word) (s : State) : Out1 := .next (s.indWrite R.ACL_IND_CMD v 2 5)

/-- Every 64 cycles the scrubber compares one TCAM row with its verify copy and rewrites it if they differ (R261). -/
def execAclScrubRow (sl : Fin 8) (sees : ScrubSees) (s : State) : Out1 := .next (s.aclScrub sl.val sees)

/-- PAT_CTRL.LOAD checks an automaton image and starts copying it to the standby banks (R271). -/
def execPatLoad (v : Word) (s : State) : Out1 := .next (s.bar0Write R.PAT_CTRL.addr (v ||| 1))

/-- The automaton copy into the standby banks completes (R271). -/
def execPatLoadDone (s : State) : Out1 := .next (s.patLoadDone)

/-- PAT_CTRL.SWAP exchanges active and standby banks, at once or at a tick (R272). -/
def execPatSwap (v : Word) (s : State) : Out1 := .next (s.bar0Write R.PAT_CTRL.addr (v ||| 2))

/-- A swap requested with AT_TICK takes effect at its tick (R272). -/
def execPatSwapDue (s : State) : Out1 := .next (s.patSwapDue)

end Sys2Proof.Machine
end

