-- ==== Sys2Proof/Machine/ExecFab.lean ====
section
/-! DEFINITION. Tradewind (R413–R432), Survey and the engine counters (R439–R459). -/

namespace Sys2Proof.Machine

/-- Tradewind sends a cell on a link slot, sprayed in rotation, CTRL before DATA (R417). -/
def execFabricCellSend (s : State) : Out1 := .next (s.cellSend)

/-- A fabric cell arrives, is checked and replayed if needed, and is resequenced or discarded (R428). -/
def execFabricCellReceive (i : Fin 192) (b : Bytes) (desc : Option Descr) (nak : Bool) (s : State) : Out1 :=
  .next (s.cellReceive i.val b desc nak)

/-- A source sends a REQ for a VOQ group when its backlog rises or changes (R422). -/
def execReqSend (n : Nat) (s : State) : Out1 := .next (s.reqSend n)

/-- The egress side grants G cells to a requesting source when room allows (R423). -/
def execGrantSend (p : Fin 400) (s : State) : Out1 := .next (s.grantSend p.val)

/-- The receiver returns destination credit as cells leave resequencing (R424). -/
def execDcredSend (src : BitVec 11) (s : State) : Out1 := .next (s.dcredSend src.toNat)

/-- Every tREFRESH, cumulative REQ, GRANT and DCRED counts are sent again (R422). -/
def execCreditRefresh (s : State) : Out1 := .next (s.creditRefresh)

/-- A VOQ group idle for IDLE_US forfeits its port credit with a FORFEIT REQ (R425). -/
def execVoqForfeit (n : Nat) (s : State) : Out1 := .next (s.voqForfeit n)

/-- In standalone use the egress side grants credit to the local loop (R432). -/
def execLocalLoopGrant (p : Fin 400) (s : State) : Out1 := .next (s.loopGrant p.val)

/-- A SEQ missing for tRSQ is skipped and the packet it cut is dropped (R429). -/
def execReseqGapTimeout (src : BitVec 11) (s : State) : Out1 := .next (s.gapTimeout src.toNat)

/-- A failed active link stops carrying cells and its unacknowledged cells are resent elsewhere (R430). -/
def execFabricLinkFail (i : Fin 192) (s : State) : Out1 := .next (s.linkFail i.val)

/-- The lowest trained spare link becomes active within tSPARE (R430). -/
def execSpareActivate (s : State) : Out1 := .next (s.spareActivate)

/-- A failed link retrains every second and on success becomes a trained spare (R431). -/
def execLinkRetrain (i : Fin 192) (ok : Bool) (s : State) : Out1 := .next (s.linkRetrain i.val ok)

/-- A waiting dump-ring record is written once the ring has room (R451). -/
def execDumpRecordWrite (s : State) : Out1 := .next (s.dumpWaiting)

/-- Indirect SVY WRITE_CFG writes a context's histogram configuration (R459). -/
def execSvyWriteCfg (v : Word) (s : State) : Out1 := .next (s.indWrite R.SVY_IND_CMD v 2 1)

/-- Indirect SVY READ_CFG returns a context's histogram configuration (R459). -/
def execSvyReadCfg (v : Word) (s : State) : Out1 := .next (s.indWrite R.SVY_IND_CMD v 2 2)

/-- Indirect SVY READ_HIST returns the completed window (R444). -/
def execSvyReadHist (v : Word) (s : State) : Out1 := .next (s.indWrite R.SVY_IND_CMD v 2 3)

/-- Indirect SVY READ_CUR returns the current window so far (R444). -/
def execSvyReadCur (v : Word) (s : State) : Out1 := .next (s.indWrite R.SVY_IND_CMD v 2 4)

/-- A write of PMC_CTRL.RUN starts or stops counting, at once or at PMC_TICK (R455). -/
def execPmcRunWrite (g : Fin 8) (v : Word) (s : State) : Out1 := .next (s.bar0Write (R.PMC_CTRL.at g.val).addr v)

/-- A RUN write with AT_TICK takes effect at its tick (R455). -/
def execPmcRunTickDue (g : Fin 8) (s : State) : Out1 := .next (s.pmcRunDue g.val)

/-- A sampling counter reaching SAMPLE_AT restarts and pushes a sample into the FIFO (R457). -/
def execPmcSample (g e n t : Fin 8) (idx : BitVec 16) (s : State) : Out1 :=
  .next (s.pmcSample g.val e.val n.val t.val idx.toNat)

/-- A read of the low word of PMC_SFIFO pops the head sample (R457). -/
def execPmcSfifoPop (g : Fin 8) (s : State) : Out1 := .next (s.bar0Read (R.PMC_SFIFO.at g.val).addr)

end Sys2Proof.Machine
end

