-- ==== Sys2Proof/Machine/ExecHost.lean ====
section
/-! DEFINITION. The PCIe function, rings, events, I2C (R462–R489) and self-test (R490–R513). -/

namespace Sys2Proof.Machine

/-- An FLR, hot reset or link loss disables every ring, resets HST and EVT and clears the MSI-X table (R463). -/
def execFunctionLevelReset (k : ResetKind) (s : State) : Out1 :=
  .next (match k with | .flr => s.funcReset | .hot => s.funcReset | .linkLoss => s.funcReset)

/-- In D3hot the device serves no ring and sends no message until return to D0 (R463). -/
def execD3hotEntry (s : State) : Out1 := .next (s.d3Enter)

/-- The PCIe function returns from D3hot to D0 and rings and messages resume (R463). -/
def execReturnToD0 (s : State) : Out1 := .next (s.d0Return)

/-- A BAR2 read returns table-region bytes, poisoned on an uncorrectable error (R465). -/
def execBar2Read (o : BitVec 32) (n : Nat) (ecc : Bool) (s : State) : Out1 := .next (s.bar2Read o.toNat n ecc)

/-- A BAR2 write takes effect only in the staging area or engine windows and is otherwise denied (R466). -/
def execBar2Write (o : BitVec 32) (b : Bytes) (s : State) : Out1 := .next (s.bar2Write o.toNat b)

/-- A write of EN from 0 to 1 resets the ring's indices and clears STOPPED (R470). -/
def execRingEnable (i : Fin 72) (v : Word) (s : State) : Out1 :=
  .next (s.bar0Write ((R.HST_RING.at i.val).addr + 8) (v ||| 0x80000000))

/-- A write of EN 0 stops the ring after the entry in progress (R470). -/
def execRingDisable (i : Fin 72) (s : State) : Out1 :=
  .next (s.bar0Write ((R.HST_RING.at i.val).addr + 8) (s.rdw ((R.HST_RING.at i.val).addr + 8) &&& 0x7FFFFFFF))

/-- A failed or timed-out ring DMA stops the ring and records the error (R471). -/
def execDmaError (i : Fin 72) (addr : BitVec 64) (s : State) : Out1 := .next (s.dmaError i.val addr.toNat)

/-- An inject record is taken from its ring in rotation and sent to an egress queue or the ingress pipeline (R480). -/
def execInjectRecord (r : Fin 32) (b : Bytes) (e1 e2 : PassEnv) (s : State) : Out1 := .next (s.inject r.val b e1 e2)

/-- When HOLDOFF_US ends after a trigger, the vector sends its deferred message (R486). -/
def execMsixHoldoffExpired (v : Fin 256) (s : State) : Out1 := .next (s.holdoffEnds v.val)

/-- Unmasking a vector with a pending PBA bit sends one message (R486). -/
def execMsixUnmask (u : Unmask) (s : State) : Out1 := .next (s.unmask u)

/-- A write of EVT_FORCE raises each selected source once as a pulse (R489). -/
def execEvtForce (i : Fin 8) (v : Word) (s : State) : Out1 := .next (s.bar0Write (R.EVT_FORCE.at i.val).addr v)

/-- An event frame with the digest goes to the tether master, spaced by HOLDOFF_MS (R483). -/
def execTmgmtEventFrame (n : Fin 2) (s : State) : Out1 := .next (s.eventFrame n.val)

/-- A ring index shadow write held back by the 100 ns spacing is written when the spacing ends, so the last value always
reaches host memory (R469). -/
def execIndexShadowWrite (i : Fin 72) (s : State) : Out1 := .next (s.shadowDue i.val)

/-- An I2C write sets the 8-bit register pointer (R484). -/
def execI2cPointerWrite (v : BitVec 8) (s : State) : Out1 := .next (if s.powered then { s with i2cPtr := v.toNat } else s)

/-- An I2C read returns 16-bit registers and advances the pointer (R484). -/
def execI2cRegisterRead (n : Nat) (s : State) : Out1 := .next (s.i2cRead n)

/-- An I2C RECOVERY write of RESTART acts as MOD_CMD RESTART in RETURNED (R484). -/
def execI2cRecoveryRestart (s : State) : Out1 := .next (s.i2cRecovery 4)

/-- An I2C RECOVERY write of SAFEHOLD acts as MOD_CMD SAFEHOLD in RETURNED (R484). -/
def execI2cRecoverySafehold (s : State) : Out1 := .next (s.i2cRecovery 5)

/-- A write of BIS_GTEST_CTRL.GO requests an online gallery test, at once or at a tick (R503). -/
def execGtestGo (v : Word) (s : State) : Out1 := .next (s.bar0Write R.BIS_GTEST_CTRL.addr (v ||| 1))

/-- Every GTEST_AUTO_S seconds the Keeper requests a test of the next gallery (R503). -/
def execGtestAuto (s : State) : Out1 := .next (s.gtAuto)

/-- A gallery test requested with AT_TICK starts at its tick (R503). -/
def execGtestTickDue (s : State) : Out1 := .next (s.gtTickDue)

/-- An online gallery test step completes and the next starts, ending in service or FAILED (R504). -/
def execGtestStepDone (e : TestRes) (s : State) : Out1 := .next (s.gtStep e)

/-- A PROBE step completes and the next starts; at P6 the results are stored and RESTART is submitted (R501). -/
def execProbeStepDone (e : ProbeEnv) (s : State) : Out1 := .next (s.probeStep e)

/-- A failing HBM row is copied to a remap row, which takes over when the copy ends (R500). -/
def execHbmRowRemap (x : HbmFail) (ue : Option EccKind) (s : State) : Out1 := .next (s.hbmRemap x ue)

/-- Background scrubbers read every on-die memory once per second and correct errors (R507). -/
def execEccScrub (mem : BitVec 17) (addr : BitVec 26) (k : EccKind) (ue : Bool) (s : State) : Out1 :=
  .next (s.eccError mem.toNat addr.toNat k ue)

/-- A low-word read of BIS_FAIL_LOG pops the head record (R494). -/
def execFailLogPop (s : State) : Out1 := .next (s.bar0Read R.BIS_FAIL_LOG.addr)

/-- A low-word read of BIS_HBM_LOG pops the head record (R513). -/
def execHbmLogPop (s : State) : Out1 := .next (s.bar0Read R.BIS_HBM_LOG.addr)

/-- A write of BIS_MEM_SEL loads the BIS_MEM_INFO words of that instance in one cycle (R493). -/
def execBisMemSelWrite (v : Word) (s : State) : Out1 := .next (s.bar0Write R.BIS_MEM_SEL.addr v)

end Sys2Proof.Machine
end

