-- ==== Sys2Proof/Machine/ExecKeeper.lean ====
section
/-! DEFINITION. Keeper mailbox, update, life cycle and warm swap (R102–R138). -/

namespace Sys2Proof.Machine

/-- Mailbox GET_INFO returns the life cycle, slots and versions (R137). -/
def execKprGetInfo (m : Mbx) (s : State) : Out1 :=
  .next (s.mbx m 0x01)

/-- Mailbox IMG_BEGIN sets the type to IDLE and erases its inactive slot, or opens a token in Keeper memory (R122). -/
def execImgBegin (m : Mbx) (s : State) : Out1 := .next (s.mbx m 0x02)

/-- Mailbox IMG_DATA writes image bytes at the next contiguous offset (R122). -/
def execImgData (m : Mbx) (s : State) : Out1 := .next (s.mbx m 0x03)

/-- Mailbox IMG_END verifies the image under R119 and sets the type STAGED on success (R122). -/
def execImgEnd (m : Mbx) (s : State) : Out1 := .next (s.mbx m 0x04)

/-- Mailbox ARM arms a set of staged types for a COLD or WARM update (R123). -/
def execArm (m : Mbx) (s : State) : Out1 := .next (s.mbx m 0x05)

/-- Mailbox DISARM returns an armed set to STAGED (R123). -/
def execDisarm (m : Mbx) (s : State) : Out1 := .next (s.mbx m 0x06)

/-- Mailbox CONFIRM from field firmware makes the trial slots active, moves the live settings half and raises the fuse
counters (R125). -/
def execConfirm (m : Mbx) (s : State) : Out1 :=
  .next (s.mbx m 0x07)

/-- Mailbox REVERT ends a trial with HOST_REVERT and returns to the previous images (R126). -/
def execRevert (m : Mbx) (s : State) : Out1 := .next (s.mbx m 0x08)

/-- Trial field firmware reports it cannot read the settings, and the Keeper reverts at once (R130). -/
def execSettingsUnreadable (m : Mbx) (s : State) : Out1 :=
  .next (s.mbx m 0x09)

/-- Mailbox SETTINGS_READ reads a key from the live half or the shadow (R129). -/
def execSettingsRead (m : Mbx) (s : State) : Out1 := .next (s.mbx m 0x0A)

/-- Mailbox SETTINGS_WRITE appends a record to the live half, or to the shadow during a trial (R128). -/
def execSettingsWrite (m : Mbx) (s : State) : Out1 := .next (s.mbx m 0x0B)

/-- Mailbox GET_CHALLENGE returns a new 32-byte nonce and discards the tokens held (R121). -/
def execGetChallenge (m : Mbx) (s : State) : Out1 :=
  .next (s.mbx m 0x0C)

/-- Mailbox LC_PROVISION moves BLANK or RETURNED to PROVISIONED under a maker token (R105). -/
def execLcProvision (m : Mbx) (s : State) : Out1 :=
  .next (s.mbx m 0x0D)

/-- Mailbox LC_FIELD moves PROVISIONED to FIELD under an owner command (R105). -/
def execLcField (m : Mbx) (s : State) : Out1 :=
  .next (s.mbx m 0x0E)

/-- Mailbox LC_RETURN moves FIELD to RETURNED and zeroises owner material (R108). -/
def execLcReturn (m : Mbx) (s : State) : Out1 :=
  .next (s.mbx m 0x0F)

/-- Mailbox LC_SCRAP blows the SCRAPPED fuse and submits SAFEHOLD (R107). -/
def execLcScrap (m : Mbx) (s : State) : Out1 :=
  .next (s.mbx m 0x10)

/-- Mailbox KEY_PROGRAM writes an owner key hash into an unprogrammed slot of the current bank (R106). -/
def execKeyProgram (m : Mbx) (s : State) : Out1 :=
  .next (s.mbx m 0x11)

/-- Mailbox KEY_REVOKE blows the revoke fuse of an owner slot (R106). -/
def execKeyRevoke (m : Mbx) (s : State) : Out1 :=
  .next (s.mbx m 0x12)

/-- Mailbox DEBUG_UNLOCK enables maker debug until the next cold start, under a maker token (R137). -/
def execDebugUnlock (m : Mbx) (s : State) : Out1 :=
  .next (s.mbx m 0x13)

/-- The confirmation window ends without CONFIRM, and the Keeper reverts with WINDOW_EXPIRED (R126). -/
def execConfirmWindowExpired (s : State) : Out1 := .next (s.windowExpired)

/-- A set armed WARM starts its warm swap, at once or at its named tick (R133). -/
def execWarmSwapStart (s : State) : Out1 := .next (s.swapStart)

/-- A warm swap step completes and the next starts; at step 6 the swap ends and the window starts (R133). -/
def execWarmSwapStepDone (s : State) : Out1 := .next (s.swapStep)

/-- A warm swap step passes its maximum, the swap fails with SWAP_FAIL and a warm swap back starts (R134). -/
def execSwapStepTimeout (s : State) : Out1 := .next (s.swapTimeout)

/-- During a trial, KPR_UPD.WIN_LEFT reaches 60 seconds and the EG0 source WINDOW_LOW is raised (R489). -/
def execWindowLow (s : State) : Out1 := .next (s.windowLow)

end Sys2Proof.Machine
end

