-- ==== Sys2Proof/Machine/Ascent.lean ====
section
/-! DEFINITION. ASCENT (R80–R84, R109, R124, R126): what the end of each step does and what its failure does. -/

namespace Sys2Proof.Machine

/-! ### Steps -/

/-- The step in progress; power-up finds step 1 (log entry 1). -/
def State.ascStep (s : State) : Nat := max 1 (s.rd F.MOD_STATUS_STEP)

/-- A step has lasted `us`: MOD_ASCENT_TIME records it. -/
def State.ascTime (s : State) (n us : Nat) : State :=
  (s.advanceUp (s.md.stepAt + us * 1000)).wr (F.MOD_ASCENT_TIME_US.at (n - 1)) us

/-- Step `n` begins. -/
def State.ascBegin (s : State) (n : Nat) : State :=
  let up := s.tb.up
  { s.wr F.MOD_STATUS_STEP n with md := { s.md with stepAt := up } }

/-! ### Step 1: Delri (R80, R107, R109, R126) -/

/-- A set in TRIAL meets a cold start: it reverts. -/
def State.trialRestart (s : State) : State := if s.trialSet = 0 then s else s.bcrRevert (s.trialSet + s.armedSet 1) 3

/-- The flash is reset before its first access, its SFDP table read, and it is switched to 8D-8D-8D (R532). -/
def State.flashStart (s : State) : State :=
  { (((s.emit .xspiReset).emit .xspiSfdp).emit .xspi8d) with kpr := { s.kpr with flash8d := true } }

/-- Delri is verified and started, the other slot serving where the first fails; none when step 1 fails, as it does where no copy of
the partition table is valid (R114). -/
def State.delriStart (s : State) : Option State :=
  if s.lc = lcSCRAP then none else
  if !ptValid s.nvm.ptA && !ptValid s.nvm.ptB then none else
  let s := s.trialRestart.trialAt 1
  match s.loadSlot 1 with
  | none => none
  | some k =>
    let s := ((s.showSecVer 1 (s.imgAt 1 k)).wr F.MOD_STATUS_KEEPER_UP 1).showBcr.showKeys.lbistKeeper
    some (if s.lc = lcRET ∧ !s.on F.KPR_LC_ZEROISED then s.zeroise.wr F.KPR_LC_ZEROISED 1 else s)

/-! ### Step 5: the configuration image (R83, R84, R90) -/

/-- One word an image loads: region split, topology and placements, which the host cannot write, a field that only host writes find
locked (R12, R520), or a register write. -/
def State.cfgWord (s : State) (a : Nat) (v : Word) : State :=
  match regRow a with
  | none => s
  | some (r, ix) =>
    match r.name with
    | "GLB_CAPS" => (s.wr F.GLB_CAPS_STANDALONE (bits v.toNat 8 8)).wr F.GLB_CAPS_TABLE_GIB (bits v.toNat 6 0)
    | "TBL_BASE" | "PAT_STAGE_BASE" => s.wrw a v
    | "GAL_FLUE" | "KPR_CONFIRM_WIN" => s.wrw a (loadedWord r.fields (s.rdw a) (s.inRange r.name ix (s.rdw a) v))
    | _ => s.regWrite a v

/-- An indirect command was refused. -/
def State.indFailed (s : State) : Bool :=
  s.on F.CLS_IND_STATUS_ERR || s.on F.ACL_IND_STATUS_ERR || s.on F.QUE_IND_STATUS_ERR || s.on F.SCH_IND_STATUS_ERR
  || s.on F.SHP_IND_STATUS_ERR || s.on F.GAT_IND_STATUS_ERR || s.on F.SVY_IND_STATUS_ERR

/-- A word of an indirect window: IND_CMD, IND_STATUS or IND_DATA of a block. -/
def indWord (a : Nat) : Bool :=
  match regRow a with
  | none => false
  | some (r, _) =>
    ["CLS_IND_CMD", "CLS_IND_STATUS", "CLS_IND_DATA", "ACL_IND_CMD", "ACL_IND_STATUS", "ACL_IND_DATA", "QUE_IND_CMD",
      "QUE_IND_STATUS", "QUE_IND_DATA", "SCH_IND_CMD", "SCH_IND_STATUS", "SCH_IND_DATA", "SHP_IND_CMD", "SHP_IND_STATUS",
      "SHP_IND_DATA", "GAT_IND_CMD", "GAT_IND_STATUS", "GAT_IND_DATA", "SVY_IND_CMD", "SVY_IND_STATUS",
      "SVY_IND_DATA"].contains r.name

/-- The load leaves no trace in the indirect windows nor in CLS_DONE and ACL_DONE: they are the host's (log entry 102). -/
def State.indForget (s0 s : State) : State :=
  let s := foldS ((s.regs.filter (fun x => indWord x.1)).map (·.1)) (fun a s => s.wrw a (s0.rdw a)) s
  foldS [eg 7 1, eg 9 2] (fun src s =>
    if s0.evtPend src then s else
    { s.wr ⟨(R.EVT_PEND.at (src / 32)).addr, 0, 0, src % 32, src % 32⟩ 0 with
      ev := { s.ev with raised := s0.ev.raised, tmCur := s0.ev.tmCur } }) s

/-- The words of an image are loaded, the table region being 16 GiB where the image names no size (R22); none when one of its
entries is refused or a limit is broken. -/
def State.cfgLoad (s : State) (l : List (BitVec 26 × Word)) : Option State :=
  let s := s.wr F.GLB_CAPS_TABLE_GIB 16
  let r := l.foldl (fun (p : State × Bool) x => let s := p.1.cfgWord x.1.toNat x.2; (s, p.2 || s.indFailed)) (s, false)
  let s := State.indForget s r.1
  let s := s.wr F.SCH_TOPO_STANDALONE (b2n (s.on F.GLB_CAPS_STANDALONE))
  let s := s.wr F.FAB_CFG_EN (b2n (!s.on F.GLB_CAPS_STANDALONE))
  if !r.2 && s.limitsKept then some s else none

/-- The image of slot `k` is accepted: it verifies, field firmware does not reject it, and it loads. -/
def State.cfgTry (s : State) (e : StepEnv) (k : Nat) : Option State :=
  if s.slotGood 4 k && !bitN e.reject.toNat k then s.cfgLoad (if k = 0 then e.loadsA else e.loadsB) else none

/-- The engine data windows that the loaded programs request (R293). -/
def State.winAssign (s : State) (l : List (BitVec 40)) : State :=
  foldS (List.range 8) (fun g s =>
    let n := match engProg s.kpr.eng g with | some p => leN p 0x34 4 | none => 0
    s.galUpd g (fun x => { x with winBase := (l.getD g 0).toNat, winSize := n * 2 ^ 20 })) s

/-- Fabric links train as their ROLE says: active, spare, or failed where one did not (R413, R431). -/
def State.linksTrain (s : State) (l : List (Fin 192)) : State :=
  if s.standalone then s else
  (foldS (List.range 192) (fun i s =>
    let r := s.rd (F.FAB_LINK_ROLE.at i)
    let ok := l.any (fun x => x.val == i)
    s.wr (F.FAB_LINK_STATE.at i) (if r = 1 then (if ok then 3 else 4) else if r = 2 then (if ok then 2 else 4) else 0)) s).fabShow

/-- The standby page of the TSI becomes active (R177). -/
def State.tsiLoad (s : State) : State :=
  foldS (s.tsiPage R.TSI_STBY.addr) (fun x s => s.wrw (R.TSI_ACT.addr + 4 * x.1) x.2) s

/-- The data path is set up from an accepted image, of which the Keeper keeps a copy (R83), time is set and Cadence enabled; the configuration locks apply (R520). -/
def State.cfgFinish (s : State) (e : StepEnv) (slot : Nat) : State :=
  let s := (s.showSecVer 4 (s.imgAt 4 slot)).winAssign e.wins
  let copy := (if slot = 0 then e.loadsA else e.loadsB).map (fun x => (x.1.toNat, x.2))
  let s := { s with kpr := { s.kpr with cfgSlot := slot, cfgCopy := copy } }
  let s := s.poolsBuild
  let s := foldS (List.range 8) (fun g s => s.scratchBuild g) s
  let s := (s.resvSet s.admResv).credits
  let s := s.schDiscs.shpInitAll.tsiLoad.linksTrain e.links
  let s := (s.stepTo (e.time * tuFrac)).pmInit
  (s.cadEn true).wr F.GLB_CAPS_CFG_VALID 1

/-- Step 5 ends. -/
def State.configDone (s : State) (e : StepEnv) : State × Bool :=
  let set := s.trialSet + s.armedSet 1
  let s1 := s.trialAt 4
  if s1.trialSet = 0 ∧ set ≠ 0 then (s1.ascentBack, false) else
  let u := s1.slotInUse 4
  match s1.cfgTry e u with
  | some s2 => (s2.cfgFinish e u, true)
  | none =>
    if (s1.bcr.typ 4).state = iTRIAL then (s1.revert s1.trialSet 7, false)
    else match s1.cfgTry e (1 - u) with
      | some s2 => (s2.cfgFinish e (1 - u), true)
      | none => (s1.ascentFail 5, false)

/-! ### Steps 6–8 -/

/-- Step 6 begins: line ports start. -/
def State.linesStart (s : State) : State := foldS (List.range 144) (fun p s => s.startAttempt p) (s.ascBegin 6).framersStart

/-- Step 7 begins: tether ports start on the bypass loop, and the bypass machines start (R96). -/
def State.tethersStart (s : State) : State :=
  let s := ((s.ascBegin 7).startAttempt 144).startAttempt 145
  (s.bypEval 0).bypEval 1

/-- The Keeper declares RUN: the confirmation window of a trial starts (R80, R124, R478). -/
def State.declareRun (s : State) : State :=
  let up := s.tb.up
  let until_ := up + s.rd F.KPR_CONFIRM_WIN_SECONDS * 10 ^ 9
  let win := if s.trialSet = 0 then none else some until_
  let s := { s with md := { s.md with runAt := some up, rsqFault := false }, kpr := { s.kpr with winEnd := win } }
  let s := ((s.wr F.MOD_STATUS_STEP 0).wr F.MOD_STATUS_DP_READY 1).wr F.HST_STATUS_SERVING 1
  let s := (s.wr F.MOD_STATUS_MODE mRUN).trans 2 mASCENT mRUN s.transTick
  let s := if s.rd F.MOD_RSQ_COUNT = 0 then s else s.raise (eg 3 10)
  (s.bypEval 0).bypEval 1

/-- A step of ASCENT completes (R80). Step 4 waits for every gallery to enter service (R277), steps 6 and 7 for their ports, step 8
for Cadence to run (R81). -/
def State.ascentStep (s : State) (e : StepEnv) : State :=
  if !s.inMode mASCENT then s else
  let n := s.ascStep
  match n with
  | 1 => match (s.ascTime 1 e.us).flashStart.delriStart with
    | none => (s.ascTime 1 e.us).flashStart.ascentFail 1
    | some s => (s.ascBegin 2).bistStart
  | 2 =>
    let r := (s.ascTime 2 e.us).bistDone e
    if r.2 then r.1.ascentFail 2 else (r.1.ascBegin 3).wr F.BIS_STATUS_PHASE 4
  | 3 =>
    let r := (s.ascTime 3 e.us).hbmDone e
    if r.2 then r.1.ascentFail 3 else (r.1.ascBegin 4).step4Start
  | 4 =>
    if (List.range 8).all (fun g => s.galState g == gSERVICE) then (s.ascTime 4 e.us).fwStarted.revertNotice.ascBegin 5 else s
  | 5 => let r := (s.ascTime 5 e.us).configDone e; if r.2 then r.1.linesStart else r.1
  | 6 =>
    if (List.range 144).all (fun p => !(s.inUse p && s.adminUp p) || s.link p) then (s.ascTime 6 e.us).tethersStart else s
  | 7 => if s.link 144 && s.link 145 then (s.ascTime 7 e.us).ascBegin 8 else s
  | _ => if s.running then (s.ascTime 8 e.us).declareRun else s

/-- Step `n` ends `ms` after it began whatever its ports do (R80). -/
def State.ascTimeout (s : State) (n ms : Nat) (next : State → State) : State :=
  if s.inMode mASCENT ∧ s.ascStep = n then next (s.ascTime n (ms * 1000)) else s

end Sys2Proof.Machine
end

