-- ==== Sys2Proof/Machine/ExecModes.lean ====
section
/-! DEFINITION. Modes, start-up, LULL, bypass and Passage (R20, R74–R101, R525–R529, R540–R542). -/

namespace Sys2Proof.Machine

/-- A Passage flit that fails its CRC is replayed from the sender's replay buffer, and the replay is counted (R20). -/
def execFlitReplay (dir : Fin 2) (s : State) : Out1 := .next (s.flitReplay dir.val)

/-- When one flit fails 16 consecutive replays, Passage is declared failed and the device enters SAFEHOLD (R20). -/
def execPassageFail (dir : Fin 2) (s : State) : Out1 := .next ((s.passageFail dir.val).returnGo)

/-- Assertion of PORST_N puts the device in DORMANT and drives the bypass pins low (R75). -/
def execPorstAssert (s : State) : Out1 := .next ({ s with md := { s.md with porst := false } }.dormant)

/-- Release of PORST_N with rails and SYSCLK good starts ASCENT tPOR later, unless the device is SCRAPPED (R525). -/
def execPorstRelease (s : State) : Out1 := .next ({ s with md := { s.md with porst := true } }.mayAscend)

/-- An ASCENT step completes and the next starts; at step 8 the Keeper declares RUN (R80). -/
def execAscentStepDone (e : StepEnv) (s : State) : Out1 := .next (s.ascentStep e)

/-- ASCENT step 6 ends 3.0 s after it began, even if some line ports are not up (R80). -/
def execLineStartTimeout (s : State) : Out1 := .next (s.ascTimeout 6 3000 (·.tethersStart))

/-- ASCENT step 7 ends 0.5 s after it began, even if the tether links are not up (R80). -/
def execTetherStartTimeout (s : State) : Out1 := .next (s.ascTimeout 7 500 (·.ascBegin 8))

/-- MOD_CMD LULL is checked and starts LULL entry at once or at its tick (R88). -/
def execLull (atTick overtaken : Bool) (s : State) : Out1 := .next (s.modCmd 1 atTick overtaken)

/-- MOD_CMD WAKE is a host wake source that starts exit from LULL (R92). -/
def execWake (overtaken : Bool) (s : State) : Out1 := .next (s.modCmd 2 false overtaken)

/-- MOD_CMD PROBE, accepted in RUN, takes the device offline for destructive self-test (R501). -/
def execProbe (overtaken : Bool) (s : State) : Out1 := .next (s.modCmd 3 false overtaken)

/-- MOD_CMD RESTART starts a cold restart, at once or at its tick (R75). -/
def execRestart (atTick overtaken : Bool) (s : State) : Out1 := .next (s.modCmd 4 atTick overtaken)

/-- MOD_CMD SAFEHOLD puts the device in SAFEHOLD with reason HOST_SAFEHOLD (R75). -/
def execSafehold (overtaken : Bool) (s : State) : Out1 := .next ((s.modCmd 5 false overtaken).returnGo)

/-- A write of MOD_CMD with a CMD value outside 0x1–0x5 completes with REJ_UNKNOWN and raises an EG3 event (R101). -/
def execModCmdUnknown (cmd : BitVec 4) (s : State) : Out1 := .next (s.modCmd cmd.toNat false false)

/-- A MOD_CMD submitted with AT_TICK is carried out at its named tick, or at the next one with TICK_LATE (R88). -/
def execModCmdTickDue (s : State) : Out1 := .next (s.modTickDue)

/-- LULL entry steps E2–E6 finish, and the mode becomes LULL at E7 (R89). -/
def execLullEntryComplete (s : State) : Out1 := .next ((s.lullEntryDone).returnGo)

/-- WAKE_N held low for at least 1 µs with WAKE_PIN_EN set starts exit from LULL (R92). -/
def execWakePin (low : Bool) (s : State) : Out1 := .next (s.wakePin low)

/-- Reaching tick MOD_WAKE_TICK with WAKE_TICK_EN set starts exit from LULL (R92). -/
def execWakeTick (s : State) : Out1 := .next (s.wakeTick)

/-- Wake steps W1–W5 finish, and at W6 the lull path drains, the tether MACs switch back and RUN is declared (R93). -/
def execLullExitComplete (s : State) : Out1 := .next ((s.lullExitDone).returnGo)

/-- After RUN resumes, GAL0 is loaded with its normal program and steering of S0 to GAL1 ends (R94). -/
def execGal0Return (s : State) : Out1 := .next (s.gal0Return)

/-- After 600 s without a break in RUN, MOD_RSQ.COUNT is cleared (R76). -/
def execRsqCountClear (s : State) : Out1 := .next (s.rsqClear)

/-- A write to MOD_BYP_CTRL that changes FORCE_CLOSEn or ENn closes a bypass or lets it start LOOP_CHECK (R97). -/
def execBypCtrlWrite (v : Word) (s : State) : Out1 := .next (s.bar0Write R.MOD_BYP_CTRL.addr v)

/-- After the loop link has been up for SETTLE, the bypass moves from LOOP_CHECK to OPENING and BYPn_EN goes high (R96). -/
def execBypSettleExpired (n : Fin 2) (s : State) : Out1 := .next (s.bypSettled n.val)

/-- With no neighbour link within RELINK, BYPn_EN falls, FAILSn counts and the bypass enters BACKOFF (R96). -/
def execBypRelinkTimeout (n : Fin 2) (s : State) : Out1 := .next (s.bypRelink n.val)

/-- After RETRY in BACKOFF, the bypass returns to LOOP_CHECK (R96). -/
def execBypRetryExpired (n : Fin 2) (s : State) : Out1 := .next (s.bypRetry n.val)

/-- tBYP_HOLD after BYPn_EN falls, the tether transmitter is switched off (R97). -/
def execBypHoldExpired (n : Fin 2) (s : State) : Out1 := .next (s.bypHoldEnd n.val)

/-- The hardware watchdog expires after tWD without service, a Keeper failure that RSQ handles (R511). -/
def execWatchdogExpiry (s : State) : Out1 := .next (s.keeperFail 2)

/-- The Keeper checker finds a difference between the two cores, a Keeper failure that RSQ handles (R511). -/
def execLockstepMiscompare (s : State) : Out1 := .next (s.keeperFail 1)

/-- Clearing of a newly powered domain completes, and reads stalled on it proceed (R86). -/
def execMemClearDone (s : State) : Out1 := .next (s)

/-- A rail below its UV threshold for 2 µs acts as an assertion of PORST_N (R526). -/
def execRailUndervoltage (i : Fin 7) (s : State) : Out1 := .next (s.railLow i.val)

/-- A supply rail comes back above its UV threshold while PORST_N is high, and ASCENT starts tPOR after the last of the
three start conditions holds (R525). -/
def execRailInRange (i : Fin 7) (s : State) : Out1 := .next (s.railOk i.val)

/-- SYSCLK absent or off by more than 1,000 ppm acts as an assertion of PORST_N (R529). -/
def execSysclkFail (s : State) : Out1 := .next (s.sysclkFail)

/-- SYSCLK becomes present and within limits again after a failure, and ASCENT follows under R525 tPOR later (R529). -/
def execSysclkStable (s : State) : Out1 := .next (s.sysclkOk)

/-- TCXO_IN absent or out of limits clears REF_OK[4] and puts both DPLLs in HOLDOVER (R529). -/
def execTcxoFail (s : State) : Out1 := .next (s.tcxoFail)

/-- Each thermal sensor takes its periodic reading (R540). -/
def execThermalReading (l : List (Fin 16 × BitVec 16)) (s : State) : Out1 :=
  .next ((s.thermal (l.map (fun (x : Fin 16 × BitVec 16) => (x.1.val, x.2.toNat)))).returnGo)

/-- After every valid sensor reads below 97 °C for 1 s, THERM_TRIP_N is released (R542). -/
def execThermTripRelease (s : State) : Out1 := .next (s.tripRelease)

/-- An instruction loaded through the IEEE 1149.1 TAP takes effect, or selects BYPASS when the life-cycle state forbids it
(R534). -/
def execTapInstruction (i : TapInstr) (s : State) : Out1 := .next (s.tapLoad i)

end Sys2Proof.Machine
end

