-- ==== Sys2Proof/Machine/ExecOtn.lean ====
section
/-! DEFINITION. OTN framing, performance monitoring and the time-slot interchange (R160–R178). -/

namespace Sys2Proof.Machine

/-- A lane's signal is detected for 100 µs or lost for 10 µs, which sets or clears dLOS (R163). -/
def execOtnLaneSignal (g : Fin 18) (l : Fin 8) (ok : Bool) (s : State) : Out1 := .next (s.laneSignal g.val l.val ok)

/-- An alignment process sees two consecutive valid frames or markers and goes into lock (R163). -/
def execOtnAlignLock (g : Fin 18) (k : Fin 8) (p : AlignProc) (s : State) : Out1 := .next (s.alignLock g.val k.val p)

/-- An alignment process sees five consecutive errored frames or markers and loses lock, with the processes below it (R163).
-/
def execOtnAlignLoss (g : Fin 18) (k : Fin 8) (p : AlignProc) (s : State) : Out1 := .next (s.alignLoss g.val k.val p)

/-- OOF or OOM persisting for 3 ms raises dLOF or dLOM, and in-frame persisting for 3 ms clears it (R164). -/
def execDefectPersistence (g : Fin 18) (k : Fin 8) (lom : Bool) (s : State) : Out1 :=
  .next (s.defectPersist g.val k.val lom)

/-- The same TTI in three consecutive multiframes is accepted, and dTIM is raised or cleared (R166). -/
def execTtiAccept (g : Fin 18) (i : Fin 16) (tti : Bytes) (s : State) : Out1 := .next (s.ttiAccept g.val i.val tti)

/-- At the end of each second, BBE, ES, SES and UAS are evaluated for every monitored entity (R168). -/
def execPmSecondEnd (l : List PmObs) (s : State) : Out1 := .next (s.pmSecond l)

/-- At a 15-minute or day closing instant, the PM bins roll over in one cycle (R169). -/
def execPmBinClose (s : State) : Out1 := .next (s.pmBinClose)

/-- A write to OTN_PM_SEL copies the selected bin into OTN_PM_DATA in one cycle (R172). -/
def execPmSelWrite (g : Fin 18) (v : Word) (s : State) : Out1 := .next (s.bar0Write (R.OTN_PM_SEL.at g.val).addr v)

/-- A write of 1 to TSI_CTRL.GO checks the standby page and schedules a page switch for the tick (R177). -/
def execTsiGo (v : Word) (s : State) : Out1 := .next (s.bar0Write R.TSI_CTRL.addr (v ||| 1))

/-- At the first multiframe boundary at or after the tick, a group's standby connections become active (R177). -/
def execTsiGroupSwitch (g : Fin 18) (k : Fin 8) (s : State) : Out1 := .next (s.tsiGroup g.val k.val)

/-- When every group has switched, the active page is copied to standby and PENDING clears (R177). -/
def execTsiSwitchDone (s : State) : Out1 := .next (s.tsiDone)

end Sys2Proof.Machine
end

