-- ==== Sys2Proof/Machine/ExecPorts.lean ====
section
/-! DEFINITION. Line and tether ports (R141–R159), reception and the ingress pipeline. -/

namespace Sys2Proof.Machine

/-- A frame whose first bit came `part`/32 ns after the present time is received whole, stamped, checked by the MAC and taken
through the ingress pipeline (R38, R146). -/
def execFrameReceive (port : Fin 400) (lane : Fin 146) (f : Bytes) (e1 e2 : PassEnv) (part : Fin 32) (s : State) : Out1 :=
  .next ((s.passPart part.val).receive port.val lane.val f e1 e2)

/-- A condition of link up is lost, the frame in transmission is aborted and DOWN_HOLD starts (R148). -/
def execLinkRawDown (p : Fin 146) (c : LinkCause) (s : State) : Out1 := .next (s.rawDown p.val c)

/-- All conditions of link up hold again, and UP_HOLD starts (R148). -/
def execLinkRawUp (p : Fin 146) (cal : List LaneCal) (s : State) : Out1 := .next ((s.rawUpAgain p.val cal).directPump p.val)

/-- A loss lasting DOWN_HOLD makes LINK fall, counts LINK_DOWN, fires the port event and opens the port hold window (R148).
-/
def execDownHoldExpired (p : Fin 146) (s : State) : Out1 := .next (s.downHoldExpired p.val)

/-- A recovery lasting UP_HOLD makes LINK rise (R148). -/
def execUpHoldExpired (p : Fin 146) (s : State) : Out1 := .next ((s.upHoldExpired p.val).directPump p.val)

/-- Writing ADMIN_UP 0 acts as a link loss and switches the transmitter off, and writing 1 starts the port (R149). -/
def execAdminUpWrite (p : Fin 146) (v : Word) (s : State) : Out1 := .next (s.bar0Write (R.LPT_CTRL.at p.val).addr v)

/-- Auto-negotiation completes, or leaves the port down with AN_FAIL (R145). -/
def execAnComplete (p : Fin 146) (ok : Bool) (s : State) : Out1 := .next (s.anComplete p.val ok)

/-- A start attempt passes the tUP or tUP_AN maximum and ends (R150). -/
def execPortStartTimeout (p : Fin 146) (s : State) : Out1 := .next (s.attemptTimeout p.val)

/-- tRETRY after a failed attempt, the next start attempt begins (R150). -/
def execPortRetryExpired (p : Fin 146) (s : State) : Out1 := .next (s.retryExpired p.val)

/-- A partner signal appears on a lane between attempts, and the next attempt begins at once (R150). -/
def execPartnerSignal (p : Fin 146) (s : State) : Out1 := .next (s.partnerSignal p.val)

/-- The pause timer of a priority runs out and its class may start frames again (R153). -/
def execPfcPauseExpired (p : Fin 146) (pri : Fin 8) (s : State) : Out1 := .next (s.pauseExpired p.val pri.val)

/-- At the next frame boundary the MAC sends a PFC frame for XOFF, refresh or release (R154). -/
def execPfcFrameSend (p : Fin 144) (s : State) : Out1 := .next (s.pfcBoundary p.val)

/-- While XOFF persists, the MAC repeats the PFC frame every REFRESH (R154). -/
def execPfcRefresh (p : Fin 144) (s : State) : Out1 := .next (s.pfcRefresh p.val)

/-- A class paused for more than 100 ms sets the PFC_STORM event (R159). -/
def execPfcStorm (p : Fin 144) (t : Fin 8) (s : State) : Out1 := .next (s.pfcStorm p.val t.val)

end Sys2Proof.Machine
end

