-- ==== Sys2Proof/Machine/ExecTables.lean ====
section
/-! DEFINITION. Table commands (R226–R244) and host commands (R475, R476). -/

namespace Sys2Proof.Machine

/-- ARG_LEN of a table command that uses only the header: 16 bytes, or 40 with its key block (log entry 113). -/
def CmdHdr.shortNeed (h : CmdHdr) : Nat := if h.argLen = 40 then 40 else 16

/-- Table command INSERT adds an entry, relocating occupants along a chain of at most 8 moves (R226). -/
def execInsert (h : CmdHdr) (a : TblArgs) (s : State) : Out1 :=
  .next (s.serveTable h 0x0010 (40 + contentLen a.table.toNat) fun s => s.contentCmd a .insert h 0x0010)

/-- Table command DELETE marks an entry PEND_DEL for its generation (R241). -/
def execDelete (h : CmdHdr) (a : TblArgs) (s : State) : Out1 :=
  .next (s.serveTable h 0x0011 40 fun s => s.contentCmd a .delete h 0x0011)

/-- Table command MODIFY replaces an entry's content without relocation (R241). -/
def execModify (h : CmdHdr) (a : TblArgs) (s : State) : Out1 :=
  .next (s.serveTable h 0x0012 (40 + contentLen a.table.toNat) fun s => if a.table.toNat ≤ 16 then s.contentCmd a .modify h 0x0012
  else if a.table.toNat ≤ 20 then s.entModify a h 0x0012 else s.answer h 0x0012 cBAD_ARG hOK)

/-- Table command SEARCH returns the visible entry (R236). -/
def execSearch (h : CmdHdr) (a : TblArgs) (s : State) : Out1 :=
  .next (s.serveTable h 0x0013 (if a.table.toNat ≤ 16 then 40 else h.shortNeed) fun s => s.searchCmd a h 0x0013)

/-- Table command NEXT returns up to COUNT entries after the cursor and the new cursor (R238). -/
def execNext (h : CmdHdr) (a : TblArgs) (s : State) : Out1 := .next (s.serveTable h 0x0014 40 fun s => s.nextCmd a h 0x0014)

/-- Table command FLUSH_PORT deletes the older non-STATIC entries learnt on a port (R239). -/
def execFlushPort (h : CmdHdr) (a : TblArgs) (s : State) : Out1 :=
  .next (s.serveTable h 0x0015 h.shortNeed fun s => s.flushCmd a h 0x0015)

/-- Table command NH_WRITE writes a next-hop in state FREE and makes it ACTIVE at its HBM write (R236). -/
def execNhWrite (h : CmdHdr) (a : TblArgs) (s : State) : Out1 :=
  .next (s.serveTable h 0x0016 (40 + contentLen 17) fun s => s.entWrite (a.table.toNat == 17) a h 0x0016)

/-- Table command ADJ_WRITE writes an adjacency in state FREE and makes it ACTIVE (R236). -/
def execAdjWrite (h : CmdHdr) (a : TblArgs) (s : State) : Out1 :=
  .next (s.serveTable h 0x0017 (40 + contentLen 18) fun s => s.entWrite (a.table.toNat == 18) a h 0x0017)

/-- Table command ECMP_WRITE writes an ECMP group or member entry in one write (R230). -/
def execEcmpWrite (h : CmdHdr) (a : TblArgs) (s : State) : Out1 :=
  .next (s.serveTable h 0x0018 (40 + contentLen a.table.toNat) fun s => s.entWrite (a.table.toNat == 19 || a.table.toNat == 20) a h 0x0018)

/-- Table command NH_DELETE sets a next-hop to DRAINING (R234). -/
def execNhDelete (h : CmdHdr) (a : TblArgs) (s : State) : Out1 :=
  .next (s.serveTable h 0x0019 h.shortNeed fun s => s.entDelete false a h 0x0019)

/-- Table command ADJ_DELETE sets an adjacency to DRAINING (R234). -/
def execAdjDelete (h : CmdHdr) (a : TblArgs) (s : State) : Out1 :=
  .next (s.serveTable h 0x001A h.shortNeed fun s => s.entDelete true a h 0x001A)

/-- Table command BATCH_OPEN returns a batch id (R236). -/
def execBatchOpen (h : CmdHdr) (a : TblArgs) (s : State) : Out1 :=
  .next (s.serveTable h 0x001B h.shortNeed fun s => s.batchOpen a h 0x001B)

/-- Table command BATCH_SUBMIT queues a batch for staging and returns its write count and earliest tick (R242). -/
def execBatchSubmit (h : CmdHdr) (a : TblArgs) (s : State) : Out1 :=
  .next (s.serveTable h 0x001C h.shortNeed fun s => s.batchSubmit a h 0x001C)

/-- Table command BATCH_ABORT discards a batch not yet staging (R236). -/
def execBatchAbort (h : CmdHdr) (a : TblArgs) (s : State) : Out1 :=
  .next (s.serveTable h 0x001D h.shortNeed fun s => s.batchAbort a h 0x001D)

/-- At its commit tick, every slice switches to the batch's generation and the FINAL response is written (R243). -/
def execBatchCommit (id : BitVec 8) (s : State) : Out1 := .next (s.batchCommit id.toNat)

/-- After the commit tick plus 2 µs, PEND_ADD entries become LIVE and PEND_DEL entries are freed (R241). -/
def execBatchSettle (s : State) : Out1 := .next (s.settle)

/-- A single-entry content write commits at the first tick after it is staged (R244). -/
def execSingleEntryCommit (s : State) : Out1 := .next (s.singleCommit)

/-- A DRAINING entry whose in-flight count is zero after HOLDOFF becomes FREE and raises ADJ_FREED (R234). -/
def execAdjFreed (adj : Bool) (i : BitVec 20) (s : State) : Out1 := .next (s.entFreed adj i.toNat)

/-- Host command GET_INFO returns API version, build, versions, mode, topology, DEV_ID and unit ID (R476). -/
def execGetInfo (h : CmdHdr) (s : State) : Out1 := .next (s.cmdInfo h)

/-- Host command PING returns its argument bytes (R476). -/
def execPing (h : CmdHdr) (args : Bytes) (s : State) : Out1 := .next (s.cmdPing h args)

/-- Host command REG_READ reads COUNT consecutive BAR0 words with their read side effects (R476). -/
def execRegRead (h : CmdHdr) (o : BitVec 28) (n : Nat) (s : State) : Out1 := .next (s.cmdRegRead h o.toNat n)

/-- Host command REG_WRITE writes COUNT consecutive BAR0 words in order, outside refused ranges (R476). -/
def execRegWrite (h : CmdHdr) (o : BitVec 28) (ws : List Word) (s : State) : Out1 := .next (s.cmdRegWrite h o.toNat ws)

/-- Host command CONFIRM_UPDATE makes field firmware send CONFIRM to the Keeper (R476). -/
def execConfirmUpdate (h : CmdHdr) (nvm : Option Word) (s : State) : Out1 := .next (s.cmdConfirm h nvm.isSome)

/-- Host command TIME_GET returns WRS_TIME, WRS_STATUS and CAD_TICK (R476). -/
def execTimeGet (h : CmdHdr) (s : State) : Out1 := .next (s.cmdTime h)

/-- A servo and PTP profile command, defined by the servo firmware (R476). -/
def execServoCommand (h : CmdHdr) (op : BitVec 16) (s : State) : Out1 := .next (s.cmdServo h op.toNat)

/-- Field firmware takes a command whose OPCODE is not in the command table and answers it with CMD_UNKNOWN (R475). -/
def execCommandUnknown (h : CmdHdr) (op : BitVec 16) (s : State) : Out1 := .next (s.cmdUnknown h op.toNat)

end Sys2Proof.Machine
end

