-- ==== Sys2Proof/Machine/ExecTime.lean ====
section
/-! DEFINITION. Time base and Cadence (R36–R73). -/

namespace Sys2Proof.Machine

/-- A write of WRS_ADJ_FREQ sets DPLL A's frequency offset, clamped to ±100 ppm, or stores it while a PPS input is selected
(R45). -/
def execAdjFreqWrite (v : Word) (s : State) : Out1 := .next (s.bar0Write R.WRS_ADJ_FREQ.addr v)

/-- A write of the high word of WRS_ADJ_PHASE slews, steps or rejects a phase correction (R46). -/
def execPhaseCorrection (v : Word) (s : State) : Out1 := .next (s.bar0Write (R.WRS_ADJ_PHASE.addr + 4) v)

/-- A slew finishes applying its correction, and SLEWING clears (R46). -/
def execSlewComplete (s : State) : Out1 := .next (s.slewDone)

/-- A write of 1 to WRS_SET_CTRL.GO applies WRS_TIME_SET at once as a step, or arms it for the next PPS edge (R48). -/
def execTimeSetGo (v : Word) (s : State) : Out1 := .next (s.bar0Write R.WRS_SET_CTRL.addr (v ||| 1))

/-- A rising edge on PPS_IN0 or PPS_IN1 is captured into WRS_PPS_IN_STAMP and applies any armed time-set (R43). -/
def execPpsInEdge (n : Fin 2) (s : State) : Out1 := .next (if s.inMode mDORMANT then s else s.ppsEdge n.val)

/-- A reference with no PPS edge for 1.5 s, or no clock activity for 10 µs, is lost, and the DPLL enters HOLDOVER or FREERUN
or falls back to the other PPS input (R43). -/
def execRefLost (r : Fin 5) (s : State) : Out1 := .next (if s.inMode mDORMANT then s else s.refLost r.val)

/-- A reference that has been present and within limits for 2 s becomes qualified, and the DPLL moves to ACQUIRE (R43). -/
def execRefQualified (r : Fin 5) (s : State) : Out1 := .next (if s.inMode mDORMANT then s else s.refQualified r.val)

/-- After 16 consecutive comparisons within limits, a DPLL moves from ACQUIRE to LOCKED (R42). -/
def execDpllLocked (b : Bool) (s : State) : Out1 := .next (s.dpllLock b)

/-- A pulse is driven on PPS_OUTn at each whole second of Windrose time plus OFFSET, when its conditions hold (R79). -/
def execPpsOutPulse (n : Fin 2) (s : State) : Out1 := .next (s.ppsOut n.val)

/-- A read of WRS_TSF at 0x0AC pops the head entry of the two-step FIFO (R53). -/
def execTsfPop (s : State) : Out1 := .next (s.bar0Read (R.WRS_TSF.addr + 0xC))

/-- A read of WRS_TIME at 0x010 latches all four time words in the same cycle (R36). -/
def execTimeReadLatch (s : State) : Out1 := .next (s.bar0Read R.WRS_TIME.addr)

/-- Every WRS_CAL.INTERVAL ms, the lane delays are measured again without interrupting traffic (R59). -/
def execBackgroundRecal (l : List LaneCal) (s : State) : Out1 := .next (if s.inMode mDORMANT then s else s.recal l)

/-- A write of CAD_CTRL.EN starts ticks at least 2 µs later, or stops them at once (R65). -/
def execCadEnWrite (v : Word) (s : State) : Out1 := .next (s.bar0Write R.CAD_CTRL.addr v)

/-- A write of CAD_PERIOD is range-checked against CAD_PHASE and the lock, and is otherwise ignored with CFG_ERR (R64). -/
def execCadPeriodWrite (v : Word) (s : State) : Out1 := .next (s.bar0Write R.CAD_PERIOD.addr v)

/-- A write of CAD_PHASE is range-checked against CAD_PERIOD and the lock, and is otherwise ignored with CFG_ERR (R64). -/
def execCadPhaseWrite (v : Word) (s : State) : Out1 := .next (s.bar0Write R.CAD_PHASE.addr v)

/-- Cadence issues tick n at its instant and every tick-driven unit starts that tick's work (R63). -/
def execTick (s : State) : Out1 := .next (s.cadTick)

end Sys2Proof.Machine
end

