-- ==== Sys2Proof/Machine/ExecTm.lean ====
section
/-! DEFINITION. Admission, queues, scheduling, egress, shapers, gates and streams (R351–R412). -/

namespace Sys2Proof.Machine

/-- A packet arriving on the TM die is processed by the stream unit and admitted, pushed in, held in headroom or dropped
(R353). -/
def execPacketAdmit (s : State) : Out1 := .next (s.packetAdmit)

/-- The hierarchy selects a packet from an outlet down to a queue, charges shapers and sends its cells (R372). -/
def execSchedulerSelect (s : State) : Out1 := .next (s.schedule)

/-- A packet's cells arrive at the egress buffer and it enters its egress queue, or is dropped for a flushed port (R378). -/
def execEgressCellArrival (s : State) : Out1 := .next (s.egArrive)

/-- When a port can start a frame, its scheduler picks an eligible egress queue and plans the head frame against its gate
(R378). -/
def execEgressPortSelect (p : Fin 400) (s : State) : Out1 := .next (s.egSelect p.val)

/-- A frame passes the egress edit and leaves the port with its egress stamp and PTP handling (R54). -/
def execPortFrameTransmit (p : Fin 400) (lane : Fin 146) (s : State) : Out1 := .next (s.portTransmit p.val lane.val)

/-- At the end of the hold window without LINK rising, the port's egress frames are flushed (R362). -/
def execPortHoldEnd (p : Fin 146) (s : State) : Out1 := .next (s.holdEnd p.val)

/-- Indirect QUE WRITE replaces a queue entry (R376). -/
def execQueWrite (v : Word) (s : State) : Out1 := .next (s.indWrite R.QUE_IND_CMD v 2 1)

/-- Indirect QUE READ returns a queue entry (R380). -/
def execQueRead (v : Word) (s : State) : Out1 := .next (s.indWrite R.QUE_IND_CMD v 2 2)

/-- Indirect QUE FLUSH starts dropping every packet of a suspended queue (R376). -/
def execQueFlush (v : Word) (s : State) : Out1 := .next (s.indWrite R.QUE_IND_CMD v 2 3)

/-- A queue flush finishes and BUSY clears (R376). -/
def execQueFlushDone (s : State) : Out1 := .next (s.queFlushed)

/-- Indirect QUE READ_CNT returns a queue's counters (R380). -/
def execQueReadCnt (v : Word) (s : State) : Out1 := .next (s.indWrite R.QUE_IND_CMD v 2 4)

/-- Indirect SCH WRITE replaces a node entry (R376). -/
def execSchWrite (v : Word) (s : State) : Out1 := .next (s.indWrite R.SCH_IND_CMD v 2 1)

/-- Indirect SCH READ returns a node entry (R381). -/
def execSchRead (v : Word) (s : State) : Out1 := .next (s.indWrite R.SCH_IND_CMD v 2 2)

/-- Indirect SCH REBUILD recomputes a suspended node's discipline and clears its fair state (R369). -/
def execSchRebuild (v : Word) (s : State) : Out1 := .next (s.indWrite R.SCH_IND_CMD v 2 3)

/-- A REBUILD completes within 1 µs and BUSY clears (R369). -/
def execSchRebuildDone (s : State) : Out1 := .next (s.rebuilt)

/-- Indirect SCH READ_CNT returns a node's counters (R381). -/
def execSchReadCnt (v : Word) (s : State) : Out1 := .next (s.indWrite R.SCH_IND_CMD v 2 4)

/-- Indirect SHP WRITE stores new rates, bursts and mode (R388). -/
def execShpWrite (v : Word) (s : State) : Out1 := .next (s.indWrite R.SHP_IND_CMD v 1 1)

/-- Indirect SHP READ returns a shaper or meter entry (R409). -/
def execShpRead (v : Word) (s : State) : Out1 := .next (s.indWrite R.SHP_IND_CMD v 1 2)

/-- Indirect SHP INIT sets both buckets to their ceilings (R388). -/
def execShpInit (v : Word) (s : State) : Out1 := .next (s.indWrite R.SHP_IND_CMD v 1 3)

/-- Indirect GAT WRITE of an administrative list entry or a stream context (R394). -/
def execGatWrite (v : Word) (s : State) : Out1 := .next (s.indWrite R.GAT_IND_CMD v 3 1)

/-- Indirect GAT READ of an administrative entry or a context (R394). -/
def execGatRead (v : Word) (s : State) : Out1 := .next (s.indWrite R.GAT_IND_CMD v 3 2)

/-- Indirect GAT READ_OPER of an operating list entry (R394). -/
def execGatReadOper (v : Word) (s : State) : Out1 := .next (s.indWrite R.GAT_IND_CMD v 3 3)

/-- Indirect GAT WRITE_HDR of the administrative cycle, length and switch tick (R394). -/
def execGatWriteHdr (v : Word) (s : State) : Out1 := .next (s.indWrite R.GAT_IND_CMD v 3 4)

/-- Indirect GAT READ_HDR of a list header (R410). -/
def execGatReadHdr (v : Word) (s : State) : Out1 := .next (s.indWrite R.GAT_IND_CMD v 3 5)

/-- Indirect GAT SWITCH checks the administrative list and schedules it for SWITCH_TICK (R394). -/
def execGatSwitch (v : Word) (s : State) : Out1 := .next (s.indWrite R.GAT_IND_CMD v 3 6)

/-- Indirect GAT CANCEL withdraws a pending switch (R394). -/
def execGatCancel (v : Word) (s : State) : Out1 := .next (s.indWrite R.GAT_IND_CMD v 3 7)

/-- Indirect GAT RESTORE makes the administrative list operating at once with its recorded BASE (R394). -/
def execGatRestore (v : Word) (s : State) : Out1 := .next (s.indWrite R.GAT_IND_CMD v 3 8)

/-- Indirect GAT READ_CNT returns a stream context's counters (R411). -/
def execGatReadCnt (v : Word) (s : State) : Out1 := .next (s.indWrite R.GAT_IND_CMD v 3 9)

/-- Indirect GAT CLEAR clears a context's latched states and sets TAKE_ANY (R411). -/
def execGatClear (v : Word) (s : State) : Out1 := .next (s.indWrite R.GAT_IND_CMD v 3 10)

/-- At SWITCH_TICK the administrative list becomes operating and cycle 0 starts (R394). -/
def execGateListSwitch (k : Nat) (s : State) : Out1 := .next (s.gateSwitch k)

/-- The new operating list is copied back to the administrative list and PENDING clears (R394). -/
def execGateSwitchCopyDone (k : Nat) (s : State) : Out1 := .next (s.gateCopied k)

/-- An interval of an operating gate control list ends at its instant of Windrose time, the gate states change and held
frames of newly opened gates are considered again (R393). -/
def execGateIntervalEnd (k : Nat) (s : State) : Out1 := .next (s.gateIntervalEnd k)

/-- A write of SHP_SOJ_SEL copies the current and previous sojourn marks (R408). -/
def execSojSelWrite (v : Word) (s : State) : Out1 := .next (s.bar0Write R.SHP_SOJ_SEL.addr v)

end Sys2Proof.Machine
end

