-- ==== Sys2Proof/Machine/Dispatch.lean ====
section
/-! DEFINITION. `exec`: what each command does to everything but the queue, one arm per row of the opcode table. -/

namespace Sys2Proof.Machine

def exec (i : Instr) (s : State) : Host.Outcome State Fault Refusal :=
  match i with
  | .registerWrite a v => Sys2Proof.Machine.execRegisterWrite a v s
  | .bar0BadAccess a write => Sys2Proof.Machine.execBar0BadAccess a write s
  | .lowWordRead a => Sys2Proof.Machine.execLowWordRead a s
  | .lowWordWrite a v => Sys2Proof.Machine.execLowWordWrite a v s
  | .highWordWrite a v => Sys2Proof.Machine.execHighWordWrite a v s
  | .rcRead a => Sys2Proof.Machine.execRcRead a s
  | .reservedRangeAccess a w => Sys2Proof.Machine.execReservedRangeAccess a w s
  | .earlyBlockAccess a w => Sys2Proof.Machine.execEarlyBlockAccess a w s
  | .busyAccess a w => Sys2Proof.Machine.execBusyAccess a w s
  | .flitReplay dir => Sys2Proof.Machine.execFlitReplay dir s
  | .passageFail dir => Sys2Proof.Machine.execPassageFail dir s
  | .adjFreqWrite v => Sys2Proof.Machine.execAdjFreqWrite v s
  | .phaseCorrection v => Sys2Proof.Machine.execPhaseCorrection v s
  | .slewComplete => Sys2Proof.Machine.execSlewComplete s
  | .timeSetGo v => Sys2Proof.Machine.execTimeSetGo v s
  | .ppsInEdge n => Sys2Proof.Machine.execPpsInEdge n s
  | .refLost r => Sys2Proof.Machine.execRefLost r s
  | .refQualified r => Sys2Proof.Machine.execRefQualified r s
  | .dpllLocked b => Sys2Proof.Machine.execDpllLocked b s
  | .ppsOutPulse n => Sys2Proof.Machine.execPpsOutPulse n s
  | .tsfPop => Sys2Proof.Machine.execTsfPop s
  | .timeReadLatch => Sys2Proof.Machine.execTimeReadLatch s
  | .backgroundRecal l => Sys2Proof.Machine.execBackgroundRecal l s
  | .cadEnWrite v => Sys2Proof.Machine.execCadEnWrite v s
  | .cadPeriodWrite v => Sys2Proof.Machine.execCadPeriodWrite v s
  | .cadPhaseWrite v => Sys2Proof.Machine.execCadPhaseWrite v s
  | .tick => Sys2Proof.Machine.execTick s
  | .porstAssert => Sys2Proof.Machine.execPorstAssert s
  | .porstRelease => Sys2Proof.Machine.execPorstRelease s
  | .ascentStepDone e => Sys2Proof.Machine.execAscentStepDone e s
  | .lineStartTimeout => Sys2Proof.Machine.execLineStartTimeout s
  | .tetherStartTimeout => Sys2Proof.Machine.execTetherStartTimeout s
  | .lull atTick overtaken => Sys2Proof.Machine.execLull atTick overtaken s
  | .wake overtaken => Sys2Proof.Machine.execWake overtaken s
  | .probe overtaken => Sys2Proof.Machine.execProbe overtaken s
  | .restart atTick overtaken => Sys2Proof.Machine.execRestart atTick overtaken s
  | .safehold overtaken => Sys2Proof.Machine.execSafehold overtaken s
  | .modCmdTickDue => Sys2Proof.Machine.execModCmdTickDue s
  | .lullEntryComplete => Sys2Proof.Machine.execLullEntryComplete s
  | .wakePin low => Sys2Proof.Machine.execWakePin low s
  | .wakeTick => Sys2Proof.Machine.execWakeTick s
  | .lullExitComplete => Sys2Proof.Machine.execLullExitComplete s
  | .gal0Return => Sys2Proof.Machine.execGal0Return s
  | .rsqCountClear => Sys2Proof.Machine.execRsqCountClear s
  | .bypCtrlWrite v => Sys2Proof.Machine.execBypCtrlWrite v s
  | .bypSettleExpired n => Sys2Proof.Machine.execBypSettleExpired n s
  | .bypRelinkTimeout n => Sys2Proof.Machine.execBypRelinkTimeout n s
  | .bypRetryExpired n => Sys2Proof.Machine.execBypRetryExpired n s
  | .bypHoldExpired n => Sys2Proof.Machine.execBypHoldExpired n s
  | .watchdogExpiry => Sys2Proof.Machine.execWatchdogExpiry s
  | .lockstepMiscompare => Sys2Proof.Machine.execLockstepMiscompare s
  | .memClearDone => Sys2Proof.Machine.execMemClearDone s
  | .probeStepDone e => Sys2Proof.Machine.execProbeStepDone e s
  | .kprGetInfo m => Sys2Proof.Machine.execKprGetInfo m s
  | .imgBegin m => Sys2Proof.Machine.execImgBegin m s
  | .imgData m => Sys2Proof.Machine.execImgData m s
  | .imgEnd m => Sys2Proof.Machine.execImgEnd m s
  | .arm m => Sys2Proof.Machine.execArm m s
  | .disarm m => Sys2Proof.Machine.execDisarm m s
  | .confirm m => Sys2Proof.Machine.execConfirm m s
  | .revert m => Sys2Proof.Machine.execRevert m s
  | .settingsUnreadable m => Sys2Proof.Machine.execSettingsUnreadable m s
  | .settingsRead m => Sys2Proof.Machine.execSettingsRead m s
  | .settingsWrite m => Sys2Proof.Machine.execSettingsWrite m s
  | .getChallenge m => Sys2Proof.Machine.execGetChallenge m s
  | .lcProvision m => Sys2Proof.Machine.execLcProvision m s
  | .lcField m => Sys2Proof.Machine.execLcField m s
  | .lcReturn m => Sys2Proof.Machine.execLcReturn m s
  | .lcScrap m => Sys2Proof.Machine.execLcScrap m s
  | .keyProgram m => Sys2Proof.Machine.execKeyProgram m s
  | .keyRevoke m => Sys2Proof.Machine.execKeyRevoke m s
  | .debugUnlock m => Sys2Proof.Machine.execDebugUnlock m s
  | .confirmWindowExpired => Sys2Proof.Machine.execConfirmWindowExpired s
  | .warmSwapStart => Sys2Proof.Machine.execWarmSwapStart s
  | .warmSwapStepDone => Sys2Proof.Machine.execWarmSwapStepDone s
  | .swapStepTimeout => Sys2Proof.Machine.execSwapStepTimeout s
  | .frameReceive port lane f e1 e2 part => Sys2Proof.Machine.execFrameReceive port lane f e1 e2 part s
  | .linkRawDown p c => Sys2Proof.Machine.execLinkRawDown p c s
  | .linkRawUp p cal => Sys2Proof.Machine.execLinkRawUp p cal s
  | .downHoldExpired p => Sys2Proof.Machine.execDownHoldExpired p s
  | .upHoldExpired p => Sys2Proof.Machine.execUpHoldExpired p s
  | .adminUpWrite p v => Sys2Proof.Machine.execAdminUpWrite p v s
  | .anComplete p ok => Sys2Proof.Machine.execAnComplete p ok s
  | .portStartTimeout p => Sys2Proof.Machine.execPortStartTimeout p s
  | .portRetryExpired p => Sys2Proof.Machine.execPortRetryExpired p s
  | .partnerSignal p => Sys2Proof.Machine.execPartnerSignal p s
  | .pfcPauseExpired p pri => Sys2Proof.Machine.execPfcPauseExpired p pri s
  | .pfcFrameSend p => Sys2Proof.Machine.execPfcFrameSend p s
  | .pfcRefresh p => Sys2Proof.Machine.execPfcRefresh p s
  | .pfcStorm p t => Sys2Proof.Machine.execPfcStorm p t s
  | .otnLaneSignal g l ok => Sys2Proof.Machine.execOtnLaneSignal g l ok s
  | .otnAlignLock g k p => Sys2Proof.Machine.execOtnAlignLock g k p s
  | .otnAlignLoss g k p => Sys2Proof.Machine.execOtnAlignLoss g k p s
  | .defectPersistence g k lom => Sys2Proof.Machine.execDefectPersistence g k lom s
  | .ttiAccept g ix tti => Sys2Proof.Machine.execTtiAccept g ix tti s
  | .pmSecondEnd l => Sys2Proof.Machine.execPmSecondEnd l s
  | .pmBinClose => Sys2Proof.Machine.execPmBinClose s
  | .pmSelWrite g v => Sys2Proof.Machine.execPmSelWrite g v s
  | .tsiGo v => Sys2Proof.Machine.execTsiGo v s
  | .tsiGroupSwitch g k => Sys2Proof.Machine.execTsiGroupSwitch g k s
  | .tsiSwitchDone => Sys2Proof.Machine.execTsiSwitchDone s
  | .puntRefill => Sys2Proof.Machine.execPuntRefill s
  | .clsWrite v => Sys2Proof.Machine.execClsWrite v s
  | .clsRead v => Sys2Proof.Machine.execClsRead v s
  | .clsInvalidate v => Sys2Proof.Machine.execClsInvalidate v s
  | .insert h a => Sys2Proof.Machine.execInsert h a s
  | .delete h a => Sys2Proof.Machine.execDelete h a s
  | .modify h a => Sys2Proof.Machine.execModify h a s
  | .search h a => Sys2Proof.Machine.execSearch h a s
  | .next_ h a => Sys2Proof.Machine.execNext h a s
  | .flushPort h a => Sys2Proof.Machine.execFlushPort h a s
  | .nhWrite h a => Sys2Proof.Machine.execNhWrite h a s
  | .adjWrite h a => Sys2Proof.Machine.execAdjWrite h a s
  | .ecmpWrite h a => Sys2Proof.Machine.execEcmpWrite h a s
  | .nhDelete h a => Sys2Proof.Machine.execNhDelete h a s
  | .adjDelete h a => Sys2Proof.Machine.execAdjDelete h a s
  | .batchOpen h a => Sys2Proof.Machine.execBatchOpen h a s
  | .batchSubmit h a => Sys2Proof.Machine.execBatchSubmit h a s
  | .batchAbort h a => Sys2Proof.Machine.execBatchAbort h a s
  | .batchCommit id => Sys2Proof.Machine.execBatchCommit id s
  | .batchSettle => Sys2Proof.Machine.execBatchSettle s
  | .singleEntryCommit => Sys2Proof.Machine.execSingleEntryCommit s
  | .adjFreed adj ix => Sys2Proof.Machine.execAdjFreed adj ix s
  | .getInfo h => Sys2Proof.Machine.execGetInfo h s
  | .ping h args => Sys2Proof.Machine.execPing h args s
  | .regRead h o n => Sys2Proof.Machine.execRegRead h o n s
  | .regWrite h o ws => Sys2Proof.Machine.execRegWrite h o ws s
  | .confirmUpdate h nvm => Sys2Proof.Machine.execConfirmUpdate h nvm s
  | .timeGet h => Sys2Proof.Machine.execTimeGet h s
  | .servoCommand h op => Sys2Proof.Machine.execServoCommand h op s
  | .aclWrite v => Sys2Proof.Machine.execAclWrite v s
  | .aclRead v => Sys2Proof.Machine.execAclRead v s
  | .aclInvalidate v => Sys2Proof.Machine.execAclInvalidate v s
  | .aclStep v e => Sys2Proof.Machine.execAclStep v e s
  | .aclReadCnt v => Sys2Proof.Machine.execAclReadCnt v s
  | .aclScrubRow sl sees => Sys2Proof.Machine.execAclScrubRow sl sees s
  | .echoScanDone g => Sys2Proof.Machine.execEchoScanDone g s
  | .patLoad v => Sys2Proof.Machine.execPatLoad v s
  | .patLoadDone => Sys2Proof.Machine.execPatLoadDone s
  | .patSwap v => Sys2Proof.Machine.execPatSwap v s
  | .patSwapDue => Sys2Proof.Machine.execPatSwapDue s
  | .galleryInput g => Sys2Proof.Machine.execGalleryInput g s
  | .packetDispatch g => Sys2Proof.Machine.execPacketDispatch g s
  | .galleryLoad g => Sys2Proof.Machine.execGalleryLoad g s
  | .galleryLoadTimeout g => Sys2Proof.Machine.execGalleryLoadTimeout g s
  | .drainEnd g => Sys2Proof.Machine.execDrainEnd g s
  | .leashExpired c => Sys2Proof.Machine.execLeashExpired c s
  | .stillAir g => Sys2Proof.Machine.execStillAir g s
  | .threadTimer c => Sys2Proof.Machine.execThreadTimer c s
  | .add d rd ra rb => Sys2Proof.Machine.execAdd d rd ra rb s
  | .sub d rd ra rb => Sys2Proof.Machine.execSub d rd ra rb s
  | .and_ d rd ra rb => Sys2Proof.Machine.execAnd d rd ra rb s
  | .or_ d rd ra rb => Sys2Proof.Machine.execOr d rd ra rb s
  | .xor_ d rd ra rb => Sys2Proof.Machine.execXor d rd ra rb s
  | .andn d rd ra rb => Sys2Proof.Machine.execAndn d rd ra rb s
  | .sll d rd ra rb => Sys2Proof.Machine.execSll d rd ra rb s
  | .srl d rd ra rb => Sys2Proof.Machine.execSrl d rd ra rb s
  | .sra d rd ra rb => Sys2Proof.Machine.execSra d rd ra rb s
  | .rol d rd ra rb => Sys2Proof.Machine.execRol d rd ra rb s
  | .ror d rd ra rb => Sys2Proof.Machine.execRor d rd ra rb s
  | .mul d rd ra rb => Sys2Proof.Machine.execMul d rd ra rb s
  | .mulhu d rd ra rb => Sys2Proof.Machine.execMulhu d rd ra rb s
  | .min_ d rd ra rb => Sys2Proof.Machine.execMin d rd ra rb s
  | .max_ d rd ra rb => Sys2Proof.Machine.execMax d rd ra rb s
  | .minu d rd ra rb => Sys2Proof.Machine.execMinu d rd ra rb s
  | .maxu d rd ra rb => Sys2Proof.Machine.execMaxu d rd ra rb s
  | .clz d rd ra => Sys2Proof.Machine.execClz d rd ra s
  | .ctz d rd ra => Sys2Proof.Machine.execCtz d rd ra s
  | .popc d rd ra => Sys2Proof.Machine.execPopc d rd ra s
  | .bswap64 d rd ra => Sys2Proof.Machine.execBswap64 d rd ra s
  | .bswap32 d rd ra => Sys2Proof.Machine.execBswap32 d rd ra s
  | .bswap16 d rd ra => Sys2Proof.Machine.execBswap16 d rd ra s
  | .add32 d rd ra rb => Sys2Proof.Machine.execAdd32 d rd ra rb s
  | .sub32 d rd ra rb => Sys2Proof.Machine.execSub32 d rd ra rb s
  | .csum16 d rd ra rb => Sys2Proof.Machine.execCsum16 d rd ra rb s
  | .addi d rd ra imm => Sys2Proof.Machine.execAddi d rd ra imm s
  | .andi d rd ra imm => Sys2Proof.Machine.execAndi d rd ra imm s
  | .ori d rd ra imm => Sys2Proof.Machine.execOri d rd ra imm s
  | .xori d rd ra imm => Sys2Proof.Machine.execXori d rd ra imm s
  | .shi d rd ra sel amt => Sys2Proof.Machine.execShi d rd ra sel amt s
  | .movi d rd x imm => Sys2Proof.Machine.execMovi d rd x imm s
  | .movk1 d rd imm => Sys2Proof.Machine.execMovk1 d rd imm s
  | .movk2 d rd imm => Sys2Proof.Machine.execMovk2 d rd imm s
  | .movk3 d rd imm => Sys2Proof.Machine.execMovk3 d rd imm s
  | .cmp d pd cb ra rb cc => Sys2Proof.Machine.execCmp d pd cb ra rb cc s
  | .cmpi d pd cb ra cc imm => Sys2Proof.Machine.execCmpi d pd cb ra cc imm s
  | .pset d pd pa pb pf => Sys2Proof.Machine.execPset d pd pa pb pf s
  | .br d ofs => Sys2Proof.Machine.execBr d ofs s
  | .call d ofs => Sys2Proof.Machine.execCall d ofs s
  | .jr d ra => Sys2Proof.Machine.execJr d ra s
  | .ext d rd ra pos lenm1 => Sys2Proof.Machine.execExt d rd ra pos lenm1 s
  | .exts d rd ra pos lenm1 => Sys2Proof.Machine.execExts d rd ra pos lenm1 s
  | .ins d rd ra pos lenm1 => Sys2Proof.Machine.execIns d rd ra pos lenm1 s
  | .extv d rd ra rb sgn => Sys2Proof.Machine.execExtv d rd ra rb sgn s
  | .hwl d r ra sz ofs => Sys2Proof.Machine.execHwl d r ra sz ofs s
  | .hws d r ra sz ofs => Sys2Proof.Machine.execHws d r ra sz ofs s
  | .hwadj d rd ra imm => Sys2Proof.Machine.execHwadj d rd ra imm s
  | .mdl d rd idx => Sys2Proof.Machine.execMdl d rd idx s
  | .mds d ra idx => Sys2Proof.Machine.execMds d ra idx s
  | .ld d r ra sz ofs => Sys2Proof.Machine.execLd d r ra sz ofs s
  | .st d r ra sz ofs lost => Sys2Proof.Machine.execSt d r ra sz ofs lost s
  | .ldx d rd ra rb sz => Sys2Proof.Machine.execLdx d rd ra rb sz s
  | .stx d r ra rb sz lost => Sys2Proof.Machine.execStx d r ra rb sz lost s
  | .atomAdd d rd ra rb dbl => Sys2Proof.Machine.execAtomAdd d rd ra rb dbl s
  | .atomAnd d rd ra rb dbl => Sys2Proof.Machine.execAtomAnd d rd ra rb dbl s
  | .atomOr d rd ra rb dbl => Sys2Proof.Machine.execAtomOr d rd ra rb dbl s
  | .atomXor d rd ra rb dbl => Sys2Proof.Machine.execAtomXor d rd ra rb dbl s
  | .atomSwap d rd ra rb dbl => Sys2Proof.Machine.execAtomSwap d rd ra rb dbl s
  | .atomUmin d rd ra rb dbl => Sys2Proof.Machine.execAtomUmin d rd ra rb dbl s
  | .atomUmax d rd ra rb dbl => Sys2Proof.Machine.execAtomUmax d rd ra rb dbl s
  | .atomCas d rd ra rb dbl => Sys2Proof.Machine.execAtomCas d rd ra rb dbl s
  | .lkpEm d rd ra rb tbl => Sys2Proof.Machine.execLkpEm d rd ra rb tbl s
  | .lkpLpm d rd ra rb => Sys2Proof.Machine.execLkpLpm d rd ra rb s
  | .lkpNh d rd ra rb => Sys2Proof.Machine.execLkpNh d rd ra rb s
  | .lkpEcmpGroup d rd ra rb => Sys2Proof.Machine.execLkpEcmpGroup d rd ra rb s
  | .lkpEcmpMember d rd ra rb => Sys2Proof.Machine.execLkpEcmpMember d rd ra rb s
  | .lkpAdj d rd ra rb => Sys2Proof.Machine.execLkpAdj d rd ra rb s
  | .lkpComplete c n ecc => Sys2Proof.Machine.execLkpComplete c n ecc s
  | .aclSearch d rd ra e => Sys2Proof.Machine.execAclSearch d rd ra e s
  | .aclSearchNext d rd ra e => Sys2Proof.Machine.execAclSearchNext d rd ra e s
  | .echoScanRequest d rd ra mem => Sys2Proof.Machine.execEchoScanRequest d rd ra mem s
  | .echoStepRequest d rd ra mem => Sys2Proof.Machine.execEchoStepRequest d rd ra mem s
  | .hrdAlloc d rd ra => Sys2Proof.Machine.execHrdAlloc d rd ra s
  | .hrdFree d rd ra => Sys2Proof.Machine.execHrdFree d rd ra s
  | .hrdRef d rd ra => Sys2Proof.Machine.execHrdRef d rd ra s
  | .hrdComplete c n => Sys2Proof.Machine.execHrdComplete c n s
  | .poolStarved k => Sys2Proof.Machine.execPoolStarved k s
  | .dmaPacketToLocal d rd ra => Sys2Proof.Machine.execDmaPacketToLocal d rd ra s
  | .dmaTableToLocal d rd ra => Sys2Proof.Machine.execDmaTableToLocal d rd ra s
  | .dmaLocalToTable d rd ra => Sys2Proof.Machine.execDmaLocalToTable d rd ra s
  | .dmaCellToLocal d rd ra => Sys2Proof.Machine.execDmaCellToLocal d rd ra s
  | .dmaLocalToCell d rd ra => Sys2Proof.Machine.execDmaLocalToCell d rd ra s
  | .dmaComplete c n ecc => Sys2Proof.Machine.execDmaComplete c n ecc s
  | .cnt d ra rb => Sys2Proof.Machine.execCnt d ra rb s
  | .time d rd idx => Sys2Proof.Machine.execTime d rd idx s
  | .waitToken d rd ra => Sys2Proof.Machine.execWaitToken d rd ra s
  | .waitAny d rd ra => Sys2Proof.Machine.execWaitAny d rd ra s
  | .waitEvent d rd ra => Sys2Proof.Machine.execWaitEvent d rd ra s
  | .test d pd ra free => Sys2Proof.Machine.execTest d pd ra free s
  | .fres d ra idx => Sys2Proof.Machine.execFres d ra idx s
  | .fput d ra idx => Sys2Proof.Machine.execFput d ra idx s
  | .fcmt d rd idx => Sys2Proof.Machine.execFcmt d rd idx s
  | .fget d rd idx => Sys2Proof.Machine.execFget d rd idx s
  | .flen d rd idx => Sys2Proof.Machine.execFlen d rd idx s
  | .svc d code => Sys2Proof.Machine.execSvc d code s
  | .pktReady d => Sys2Proof.Machine.execPktReady d s
  | .pktSend d => Sys2Proof.Machine.execPktSend d s
  | .pktDrop d => Sys2Proof.Machine.execPktDrop d s
  | .pktPunt d reason => Sys2Proof.Machine.execPktPunt d reason s
  | .mfs d rd idx => Sys2Proof.Machine.execMfs d rd idx s
  | .mts d ra idx => Sys2Proof.Machine.execMts d ra idx s
  | .notePop d rd => Sys2Proof.Machine.execNotePop d rd s
  | .thrRegWrite d ra => Sys2Proof.Machine.execThrRegWrite d ra s
  | .thrResume d ra => Sys2Proof.Machine.execThrResume d ra s
  | .thrSkip d ra => Sys2Proof.Machine.execThrSkip d ra s
  | .thrJump d ra => Sys2Proof.Machine.execThrJump d ra s
  | .thrRestart d ra => Sys2Proof.Machine.execThrRestart d ra s
  | .synthPost d ra => Sys2Proof.Machine.execSynthPost d ra s
  | .reclaim d ra => Sys2Proof.Machine.execReclaim d ra s
  | .fence d => Sys2Proof.Machine.execFence d s
  | .dbgHalt c => Sys2Proof.Machine.execDbgHalt c s
  | .dbgStep c => Sys2Proof.Machine.execDbgStep c s
  | .dbgResume c => Sys2Proof.Machine.execDbgResume c s
  | .dbgRestart c => Sys2Proof.Machine.execDbgRestart c s
  | .stackCacheRefill k bad => Sys2Proof.Machine.execStackCacheRefill k bad s
  | .stackCacheSpill k => Sys2Proof.Machine.execStackCacheSpill k s
  | .packetAdmit => Sys2Proof.Machine.execPacketAdmit s
  | .schedulerSelect => Sys2Proof.Machine.execSchedulerSelect s
  | .egressCellArrival => Sys2Proof.Machine.execEgressCellArrival s
  | .egressPortSelect p => Sys2Proof.Machine.execEgressPortSelect p s
  | .portFrameTransmit p lane => Sys2Proof.Machine.execPortFrameTransmit p lane s
  | .portHoldEnd p => Sys2Proof.Machine.execPortHoldEnd p s
  | .queWrite v => Sys2Proof.Machine.execQueWrite v s
  | .queRead v => Sys2Proof.Machine.execQueRead v s
  | .queFlush v => Sys2Proof.Machine.execQueFlush v s
  | .queFlushDone => Sys2Proof.Machine.execQueFlushDone s
  | .queReadCnt v => Sys2Proof.Machine.execQueReadCnt v s
  | .schWrite v => Sys2Proof.Machine.execSchWrite v s
  | .schRead v => Sys2Proof.Machine.execSchRead v s
  | .schRebuild v => Sys2Proof.Machine.execSchRebuild v s
  | .schRebuildDone => Sys2Proof.Machine.execSchRebuildDone s
  | .schReadCnt v => Sys2Proof.Machine.execSchReadCnt v s
  | .shpWrite v => Sys2Proof.Machine.execShpWrite v s
  | .shpRead v => Sys2Proof.Machine.execShpRead v s
  | .shpInit v => Sys2Proof.Machine.execShpInit v s
  | .gatWrite v => Sys2Proof.Machine.execGatWrite v s
  | .gatRead v => Sys2Proof.Machine.execGatRead v s
  | .gatReadOper v => Sys2Proof.Machine.execGatReadOper v s
  | .gatWriteHdr v => Sys2Proof.Machine.execGatWriteHdr v s
  | .gatReadHdr v => Sys2Proof.Machine.execGatReadHdr v s
  | .gatSwitch v => Sys2Proof.Machine.execGatSwitch v s
  | .gatCancel v => Sys2Proof.Machine.execGatCancel v s
  | .gatRestore v => Sys2Proof.Machine.execGatRestore v s
  | .gatReadCnt v => Sys2Proof.Machine.execGatReadCnt v s
  | .gatClear v => Sys2Proof.Machine.execGatClear v s
  | .gateListSwitch k => Sys2Proof.Machine.execGateListSwitch k s
  | .gateSwitchCopyDone k => Sys2Proof.Machine.execGateSwitchCopyDone k s
  | .sojSelWrite v => Sys2Proof.Machine.execSojSelWrite v s
  | .fabricCellSend => Sys2Proof.Machine.execFabricCellSend s
  | .fabricCellReceive ix b desc nak => Sys2Proof.Machine.execFabricCellReceive ix b desc nak s
  | .reqSend n => Sys2Proof.Machine.execReqSend n s
  | .grantSend p => Sys2Proof.Machine.execGrantSend p s
  | .dcredSend src => Sys2Proof.Machine.execDcredSend src s
  | .creditRefresh => Sys2Proof.Machine.execCreditRefresh s
  | .voqForfeit n => Sys2Proof.Machine.execVoqForfeit n s
  | .localLoopGrant p => Sys2Proof.Machine.execLocalLoopGrant p s
  | .reseqGapTimeout src => Sys2Proof.Machine.execReseqGapTimeout src s
  | .fabricLinkFail ix => Sys2Proof.Machine.execFabricLinkFail ix s
  | .spareActivate => Sys2Proof.Machine.execSpareActivate s
  | .linkRetrain ix ok => Sys2Proof.Machine.execLinkRetrain ix ok s
  | .dumpRecordWrite => Sys2Proof.Machine.execDumpRecordWrite s
  | .svyWriteCfg v => Sys2Proof.Machine.execSvyWriteCfg v s
  | .svyReadCfg v => Sys2Proof.Machine.execSvyReadCfg v s
  | .svyReadHist v => Sys2Proof.Machine.execSvyReadHist v s
  | .svyReadCur v => Sys2Proof.Machine.execSvyReadCur v s
  | .pmcRunWrite g v => Sys2Proof.Machine.execPmcRunWrite g v s
  | .pmcRunTickDue g => Sys2Proof.Machine.execPmcRunTickDue g s
  | .pmcSample g e n t idx => Sys2Proof.Machine.execPmcSample g e n t idx s
  | .pmcSfifoPop g => Sys2Proof.Machine.execPmcSfifoPop g s
  | .functionLevelReset k => Sys2Proof.Machine.execFunctionLevelReset k s
  | .d3hotEntry => Sys2Proof.Machine.execD3hotEntry s
  | .bar2Read o n ecc => Sys2Proof.Machine.execBar2Read o n ecc s
  | .bar2Write o b => Sys2Proof.Machine.execBar2Write o b s
  | .ringEnable ix v => Sys2Proof.Machine.execRingEnable ix v s
  | .ringDisable ix => Sys2Proof.Machine.execRingDisable ix s
  | .dmaError ix addr => Sys2Proof.Machine.execDmaError ix addr s
  | .injectRecord r b e1 e2 => Sys2Proof.Machine.execInjectRecord r b e1 e2 s
  | .msixHoldoffExpired v => Sys2Proof.Machine.execMsixHoldoffExpired v s
  | .msixUnmask u => Sys2Proof.Machine.execMsixUnmask u s
  | .evtForce ix v => Sys2Proof.Machine.execEvtForce ix v s
  | .tmgmtEventFrame n => Sys2Proof.Machine.execTmgmtEventFrame n s
  | .i2cPointerWrite v => Sys2Proof.Machine.execI2cPointerWrite v s
  | .i2cRegisterRead n => Sys2Proof.Machine.execI2cRegisterRead n s
  | .i2cRecoveryRestart => Sys2Proof.Machine.execI2cRecoveryRestart s
  | .i2cRecoverySafehold => Sys2Proof.Machine.execI2cRecoverySafehold s
  | .gtestGo v => Sys2Proof.Machine.execGtestGo v s
  | .gtestAuto => Sys2Proof.Machine.execGtestAuto s
  | .gtestTickDue => Sys2Proof.Machine.execGtestTickDue s
  | .gtestStepDone e => Sys2Proof.Machine.execGtestStepDone e s
  | .hbmRowRemap x ue => Sys2Proof.Machine.execHbmRowRemap x ue s
  | .eccScrub mem addr k ue => Sys2Proof.Machine.execEccScrub mem addr k ue s
  | .failLogPop => Sys2Proof.Machine.execFailLogPop s
  | .hbmLogPop => Sys2Proof.Machine.execHbmLogPop s
  | .bisMemSelWrite v => Sys2Proof.Machine.execBisMemSelWrite v s
  | .railUndervoltage ix => Sys2Proof.Machine.execRailUndervoltage ix s
  | .sysclkFail => Sys2Proof.Machine.execSysclkFail s
  | .tcxoFail => Sys2Proof.Machine.execTcxoFail s
  | .thermalReading l => Sys2Proof.Machine.execThermalReading l s
  | .thermTripRelease => Sys2Proof.Machine.execThermTripRelease s
  | .gateIntervalEnd k => Sys2Proof.Machine.execGateIntervalEnd k s
  | .railInRange ix => Sys2Proof.Machine.execRailInRange ix s
  | .sysclkStable => Sys2Proof.Machine.execSysclkStable s
  | .returnToD0 => Sys2Proof.Machine.execReturnToD0 s
  | .windowLow => Sys2Proof.Machine.execWindowLow s
  | .indexShadowWrite ix => Sys2Proof.Machine.execIndexShadowWrite ix s
  | .commandUnknown h op => Sys2Proof.Machine.execCommandUnknown h op s
  | .modCmdUnknown cmd => Sys2Proof.Machine.execModCmdUnknown cmd s
  | .reservedOpcode d w => Sys2Proof.Machine.execReservedOpcode d w s
  | .indCmdBadOp b v => Sys2Proof.Machine.execIndCmdBadOp b v s
  | .tapInstruction ix => Sys2Proof.Machine.execTapInstruction ix s

end Sys2Proof.Machine
end

