-- ==== Sys2Proof/Safety.lean ====
section
/-! DEFINITION. What counts as a safe outcome, and the terms in which the statements speak of an engine instruction. -/

namespace Sys2Proof.Machine

/-- The outcome is a next state. -/
def goesOn (o : Host.Outcome State Fault Refusal) : Prop := ∃ t, o = .next t

/-- Instruction `i` issues on its thread and acts (R301, R303): the thread can issue and fetches the word of `i`, whose guard holds,
and no read of it meets an uncorrectable error. -/
def issues (s : State) (d : Iss) (i : Instr) : Prop :=
  s.canIssue d.c.g.val d.c.ix = true ∧ (s.thrOf d).pc < (s.galI d.c.g.val).codeLen
    ∧ engWord i = some (mget (fun _ => 0) (s.galI d.c.g.val).code (s.thrOf d).pc)
    ∧ s.pd d.c.g.val d.c.ix d.pg.toNat ≠ d.pn ∧ d.ecc = false

/-- The words of the performance counters of the gallery of `d`, which count its events (R454). -/
def pmcWords (d : Iss) (a : Nat) : Prop :=
  (R.PMC_VAL.on d.c.g.val).addr ≤ a ∧ a < (R.PMC_VAL.on d.c.g.val).addr + 512

/-- `t` is `u` with the instruction of `d` retired, at index `pc` next (R301, R314, R333, R454): the thread is ready there, or
debug-halted when it was stepping; a background thread that has started has one instruction of its budget less; a thread other than the
supervisor restarts the still-air condition (R326); the performance counters of the gallery may have counted and come to samples; the
thread's other state, every other thread, every other register and everything else is as in `u`. -/
def retired (u t : State) (d : Iss) (pc : Nat) : Prop :=
  t.thrOf d = (if (u.thrOf d).step then
      { u.thrOf d with pc := pc, run := .haltD, was := .ready, step := false, haltAt := u.tb.up, leashed := [] }
    else { u.thrOf d with pc := pc, run := .ready })
  ∧ (∀ h j, ¬(h = d.c.g.val ∧ j = d.c.ix) → t.thrI h j = u.thrI h j)
  ∧ (∀ h, t.galI h = { u.galI h with
      thr := (t.galI h).thr, budget := (t.galI h).budget, saAt := (t.galI h).saAt, saFired := (t.galI h).saFired })
  ∧ (t.galI d.c.g.val).budget = (if (u.thrOf d).role = 2 ∧ (u.thrOf d).started then (u.galI d.c.g.val).budget - 1
      else (u.galI d.c.g.val).budget)
  ∧ (t.galI d.c.g.val).saAt = (if d.c.ix = 0 then (u.galI d.c.g.val).saAt else u.tb.up)
  ∧ (t.galI d.c.g.val).saFired = ((u.galI d.c.g.val).saFired && decide (d.c.ix = 0))
  ∧ (∀ h, h ≠ d.c.g.val → t.galI h = u.galI h)
  ∧ (∀ a, ¬pmcWords d a → t.rdw a = u.rdw a)
  ∧ ∃ l, { t with regs := u.regs, gal := u.gal } = { u with pmcSt := { u.pmcSt with due := u.pmcSt.due ++ l } }

/-- The instruction of `d` faults: its thread has acted and halts there with a cause and a code (R299, R320, R326). -/
def State.faulted (s : State) (d : Iss) (cause code : Nat) : State :=
  (s.saTouch d.c.g.val d.c.ix).haltThr d.c.g.val d.c.ix cause code

/-- The index after the instruction of `d`. -/
def nextPc (s : State) (d : Iss) : Nat := ((s.thrOf d).pc + 1) % 2 ^ 16

/-- Token `n` is the lowest free one of a thread (R286). -/
def Thr.lowestFree (x : Thr) (n : Nat) : Prop := n < 16 ∧ x.tok n = none ∧ ∀ m < n, x.tok m ≠ none

/-- The thread of `d` takes token `n` for request `r` and rd holds its number. -/
def State.asked (s : State) (d : Iss) (rd : GReg) (n : Nat) (r : Req) : State :=
  (s.tokSet d.c.g.val d.c.ix n (some { req := r })).gput d rd n

/-- That token is complete at once with a status. -/
def State.answered (s : State) (d : Iss) (rd : GReg) (n status : Nat) : State :=
  ((s.asked d rd n .off).saTouch d.c.g.val d.c.ix).tokSet d.c.g.val d.c.ix n
    (some { req := .off, done := some (status * 2 ^ 56 + n * 2 ^ 52) })

/-- The host's access to BAR0 offset `a` reaches its register (R8, R85, R506, R515): aligned, assigned, not in DORMANT, its block
served, its partition not under test. -/
def State.serves (s : State) (a : Nat) : Prop :=
  s.inMode mDORMANT = false ∧ a % 4 = 0 ∧ barReserved a = false ∧ s.barBusy a = false ∧ s.barEarly a = false

/-- `s` with the fields of the one-word register at `a` stored as a host write of `v` stores them (R11). -/
def State.hostPut (s : State) (a : Nat) (v : Word) : State :=
  match regRow a with | some (r, ix) => s.wrw a (s.merged r ix (s.rdw a) v) | none => s

/-- The host's access to IND_CMD register `r` reaches a block that is not busy (R382). -/
def State.takes (s : State) (r : Reg) (busy : Fld) : Prop := s.serves r.addr ∧ s.rd busy = 0

/-- `s` with the fields of an IND_CMD register stored for operation `op`. -/
def State.cmdPut (s : State) (r : Reg) (v : Word) (hi op : Nat) : State := s.hostPut r.addr (putBits v hi 0 op)

/-- `s` with the 64-bit register at `lo` stored by a host write of `v` to its high word: as a whole, with a low word held (R9). -/
def State.pairPut (s : State) (lo : Nat) (v : Word) : State :=
  match mget (fun _ => (none : Option Word)) s.held lo with
  | some l => ({ s with held := mset (fun _ => none) s.held lo none }.hostPut lo l).hostPut (lo + 4) v
  | none => s.hostPut (lo + 4) v

end Sys2Proof.Machine
end

