-- ==== Sys2Proof/WellFormed.lean ====
section
/-! DEFINITION. Which commands are well formed: what the types of the operands do not say. A command that is not well formed is not
the event its row names. -/

namespace Sys2Proof

open Machine

/-- The thread, guard and read error of an engine instruction; none for every other command. -/
def Instr.iss : Instr → Option Iss
  | .add d _ _ _ => some d
  | .sub d _ _ _ => some d
  | .and_ d _ _ _ => some d
  | .or_ d _ _ _ => some d
  | .xor_ d _ _ _ => some d
  | .andn d _ _ _ => some d
  | .sll d _ _ _ => some d
  | .srl d _ _ _ => some d
  | .sra d _ _ _ => some d
  | .rol d _ _ _ => some d
  | .ror d _ _ _ => some d
  | .mul d _ _ _ => some d
  | .mulhu d _ _ _ => some d
  | .min_ d _ _ _ => some d
  | .max_ d _ _ _ => some d
  | .minu d _ _ _ => some d
  | .maxu d _ _ _ => some d
  | .clz d _ _ => some d
  | .ctz d _ _ => some d
  | .popc d _ _ => some d
  | .bswap64 d _ _ => some d
  | .bswap32 d _ _ => some d
  | .bswap16 d _ _ => some d
  | .add32 d _ _ _ => some d
  | .sub32 d _ _ _ => some d
  | .csum16 d _ _ _ => some d
  | .addi d _ _ _ => some d
  | .andi d _ _ _ => some d
  | .ori d _ _ _ => some d
  | .xori d _ _ _ => some d
  | .shi d _ _ _ _ => some d
  | .movi d _ _ _ => some d
  | .movk1 d _ _ => some d
  | .movk2 d _ _ => some d
  | .movk3 d _ _ => some d
  | .cmp d _ _ _ _ _ => some d
  | .cmpi d _ _ _ _ _ => some d
  | .pset d _ _ _ _ => some d
  | .br d _ => some d
  | .call d _ => some d
  | .jr d _ => some d
  | .ext d _ _ _ _ => some d
  | .exts d _ _ _ _ => some d
  | .ins d _ _ _ _ => some d
  | .extv d _ _ _ _ => some d
  | .hwl d _ _ _ _ => some d
  | .hws d _ _ _ _ => some d
  | .hwadj d _ _ _ => some d
  | .mdl d _ _ => some d
  | .mds d _ _ => some d
  | .ld d _ _ _ _ => some d
  | .st d _ _ _ _ _ => some d
  | .ldx d _ _ _ _ => some d
  | .stx d _ _ _ _ _ => some d
  | .atomAdd d _ _ _ _ => some d
  | .atomAnd d _ _ _ _ => some d
  | .atomOr d _ _ _ _ => some d
  | .atomXor d _ _ _ _ => some d
  | .atomSwap d _ _ _ _ => some d
  | .atomUmin d _ _ _ _ => some d
  | .atomUmax d _ _ _ _ => some d
  | .atomCas d _ _ _ _ => some d
  | .lkpEm d _ _ _ _ => some d
  | .lkpLpm d _ _ _ => some d
  | .lkpNh d _ _ _ => some d
  | .lkpEcmpGroup d _ _ _ => some d
  | .lkpEcmpMember d _ _ _ => some d
  | .lkpAdj d _ _ _ => some d
  | .aclSearch d _ _ _ => some d
  | .aclSearchNext d _ _ _ => some d
  | .echoScanRequest d _ _ _ => some d
  | .echoStepRequest d _ _ _ => some d
  | .hrdAlloc d _ _ => some d
  | .hrdFree d _ _ => some d
  | .hrdRef d _ _ => some d
  | .dmaPacketToLocal d _ _ => some d
  | .dmaTableToLocal d _ _ => some d
  | .dmaLocalToTable d _ _ => some d
  | .dmaCellToLocal d _ _ => some d
  | .dmaLocalToCell d _ _ => some d
  | .cnt d _ _ => some d
  | .time d _ _ => some d
  | .waitToken d _ _ => some d
  | .waitAny d _ _ => some d
  | .waitEvent d _ _ => some d
  | .test d _ _ _ => some d
  | .fres d _ _ => some d
  | .fput d _ _ => some d
  | .fcmt d _ _ => some d
  | .fget d _ _ => some d
  | .flen d _ _ => some d
  | .svc d _ => some d
  | .pktReady d => some d
  | .pktSend d => some d
  | .pktDrop d => some d
  | .pktPunt d _ => some d
  | .mfs d _ _ => some d
  | .mts d _ _ => some d
  | .notePop d _ => some d
  | .thrRegWrite d _ => some d
  | .thrResume d _ => some d
  | .thrSkip d _ => some d
  | .thrJump d _ => some d
  | .thrRestart d _ => some d
  | .synthPost d _ => some d
  | .reclaim d _ => some d
  | .fence d => some d
  | .reservedOpcode d _ => some d
  | _ => none

namespace Machine

/-- The role of the register word at a BAR0 offset: none where it is reserved. -/
def wordRole (a : Nat) : Option WordRole := (regRow a).map (fun x => x.1.role)

/-- The operation codes an indirect command register defines (R519). -/
def IndBlock.ops : IndBlock → List Nat
  | .cls => [1, 2, 3]
  | .acl => [1, 2, 3, 4, 5]
  | .que => [1, 2, 3, 4]
  | .sch => [1, 2, 3, 4]
  | .shp => [1, 2, 3]
  | .gat => [1, 2, 3, 4, 5, 6, 7, 8, 9, 10]
  | .svy => [1, 2, 3, 4]

/-- The OP field of an indirect command word. -/
def IndBlock.op (b : IndBlock) (v : Word) : Nat :=
  match b with
  | .cls | .shp => bits v.toNat 1 0
  | .acl | .que | .sch | .svy => bits v.toNat 2 0
  | .gat => bits v.toNat 3 0

/-- The sizes of the key and content fields of a table command (R476). -/
def TblArgs.wf (a : TblArgs) : Bool := decide (a.key.length = 24) && decide (a.content.length ≤ 72)

/-- The lengths of a host command's header are 32-bit fields (R473). -/
def CmdHdr.wf (h : CmdHdr) : Bool := decide (h.argLen < 2 ^ 32) && decide (h.bufLen < 2 ^ 32)

/-- Sensors of a reading, each once. -/
def onceEach (l : List Nat) : Bool := decide (l.Nodup)

end Machine

/-- The command is one that its row names. -/
def Instr.wf : Instr → Bool
  | .shi _ _ _ sel _ => decide (sel.toNat < 4)
  | .ext _ _ _ pos len => decide (pos.toNat + len.toNat ≤ 63)
  | .exts _ _ _ pos len => decide (pos.toNat + len.toNat ≤ 63)
  | .ins _ _ _ pos len => decide (pos.toNat + len.toNat ≤ 63)
  | .reservedOpcode d w =>
    (decodeEngine ⟨d.c, d.ecc, false, AclEnv.clean⟩ w.toNat).isNone && decide (w.toNat / 2 ^ 28 = b2n d.pn * 8 + d.pg.toNat)
  | .registerWrite a _ => decide (a.toNat % 4 = 0) && decide (wordRole a.toNat = some .w32)
  | .lowWordRead a => decide (a.toNat % 4 = 0) && decide (wordRole a.toNat = some .lo)
  | .lowWordWrite a _ => decide (a.toNat % 4 = 0) && decide (wordRole a.toNat = some .lo)
  | .highWordWrite a _ => decide (a.toNat % 4 = 0) && decide (wordRole a.toNat = some .hi)
  | .rcRead a => decide (a.toNat % 4 = 0) && (fieldsAt a.toNat).any (fun f => decide (f.acc = .rc))
  | .reservedRangeAccess a _ => decide (a.toNat % 4 = 0) && (regRow a.toNat).isNone
  | .earlyBlockAccess a _ => decide (a.toNat % 4 = 0) && !barReserved a.toNat && !earlyWord a.toNat
  | .busyAccess a _ => decide (a.toNat % 4 = 0) && !barReserved a.toNat
  | .modCmdUnknown cmd => decide (cmd.toNat = 0) || decide (5 < cmd.toNat)
  | .indCmdBadOp b v => decide (b.op v ≠ 0) && !b.ops.contains (b.op v)
  | .insert h a => h.wf && a.wf
  | .delete h a => h.wf && a.wf
  | .modify h a => h.wf && a.wf
  | .search h a => h.wf && a.wf
  | .thermalReading l => onceEach (l.map (fun x => x.1.val))
  | _ => true

end Sys2Proof
end

