-- ==== Sys2Proof/Certificates/Slice0/Obligations.lean ====
section
/-! DEFINITION. The statements of this model for the provers. -/

open Sys2Proof Sys2Proof.Machine

/-- For each of the 20 ALU functions of two registers, on an instruction that issues: exec answers a next state in which rd
holds the result of the function on the 64-bit values of ra and rb, and nothing else has changed but what retiring an
instruction changes. Shifts and rotations are by rb[5:0]; ADD32 and SUB32 zero-extend a 32-bit result; CSUM16 folds the carry
of the sum of the low halves back in. (R303, R304.) -/
def Obligations.AluFunctionsWriteTheirResults : Prop :=
  ∀ (s : State) (d : Iss) (rd ra rb : GReg),
    let a := s.greg d ra
    let b := s.greg d rb
    let A := BitVec.ofNat 64 a
    let B := BitVec.ofNat 64 b
    let n := b % 64
    let c := a % 65536 + b % 65536
    ∀ p ∈ ([(.add d rd ra rb, A + B), (.sub d rd ra rb, A - B), (.and_ d rd ra rb, A &&& B), (.or_ d rd ra rb, A ||| B),
        (.xor_ d rd ra rb, A ^^^ B), (.andn d rd ra rb, A &&& ~~~B), (.sll d rd ra rb, A <<< n), (.srl d rd ra rb, A >>> n),
        (.sra d rd ra rb, A.sshiftRight n), (.rol d rd ra rb, A.rotateLeft n), (.ror d rd ra rb, A.rotateRight n),
        (.mul d rd ra rb, A * B), (.mulhu d rd ra rb, BitVec.ofNat 64 (a * b / 2 ^ 64)),
        (.min_ d rd ra rb, if A.slt B then A else B), (.max_ d rd ra rb, if A.slt B then B else A),
        (.minu d rd ra rb, if A.ult B then A else B), (.maxu d rd ra rb, if A.ult B then B else A),
        (.add32 d rd ra rb, (A.setWidth 32 + B.setWidth 32).setWidth 64),
        (.sub32 d rd ra rb, (A.setWidth 32 - B.setWidth 32).setWidth 64),
        (.csum16 d rd ra rb, BitVec.ofNat 64 (if c < 65536 then c else c - 65535))] : List (Instr × BitVec 64)),
      issues s d p.1 → ∃ t, exec p.1 s = .next t ∧ retired (s.gput d rd p.2.toNat) t d (nextPc s d)

/-- For CLZ, CTZ, POPC, BSWAP64, BSWAP32 and BSWAP16 on an instruction that issues: exec answers a next state in which rd
holds v and nothing else has changed but what retiring changes, where v is: the number of zero bits above the highest one bit
of ra (64 when ra is zero: log entry 75, the model's inference), the number of zero bits below its lowest one bit (64
likewise), the number of its one bits, or its low 8, 4 or 2 bytes in reverse order, zero-extended. (R303, R304.) -/
def Obligations.AluCountsAndByteSwaps : Prop :=
  ∀ (s : State) (d : Iss) (rd ra : GReg),
    let a := s.greg d ra
    (issues s d (.clz d rd ra) → ∃ t v, exec (.clz d rd ra) s = .next t ∧ retired (s.gput d rd v) t d (nextPc s d)
      ∧ v ≤ 64 ∧ a < 2 ^ (64 - v) ∧ (v < 64 → 2 ^ (63 - v) ≤ a))
    ∧ (issues s d (.ctz d rd ra) → ∃ t v, exec (.ctz d rd ra) s = .next t ∧ retired (s.gput d rd v) t d (nextPc s d)
      ∧ v ≤ 64 ∧ a % 2 ^ v = 0 ∧ (v < 64 → a.testBit v = true))
    ∧ (issues s d (.popc d rd ra) → ∃ t, exec (.popc d rd ra) s = .next t
      ∧ retired (s.gput d rd ((List.range 64).countP (fun i => a.testBit i))) t d (nextPc s d))
    ∧ ∀ p ∈ ([(.bswap64 d rd ra, 8), (.bswap32 d rd ra, 4), (.bswap16 d rd ra, 2)] : List (Instr × Nat)),
      issues s d p.1 → ∃ t v, exec p.1 s = .next t ∧ retired (s.gput d rd v) t d (nextPc s d)
        ∧ v < 256 ^ p.2 ∧ ∀ k < p.2, v / 256 ^ k % 256 = a / 256 ^ (p.2 - 1 - k) % 256

/-- On an instruction that issues, exec answers a next state in which rd holds the result and nothing else has changed but
what retiring changes: ADDI adds the sign-extended IMM12; ANDI, ORI and XORI use it zero-extended; SHI shifts or rotates as
IMM12[11:9] says (0 SLL, 1 SRL, 2 SRA, 3 ROL); MOVI writes IMM16 zero- or sign-extended; MOVK1 to MOVK3 replace 16 bits of rd.
(R302, R303.) -/
def Obligations.ImmediateInstructionsWriteTheirResults : Prop :=
  ∀ (s : State) (d : Iss) (rd ra : GReg) (imm : BitVec 12) (x : BitVec 16) (sx : Bool) (amt : BitVec 6),
    let A := BitVec.ofNat 64 (s.greg d ra)
    let D := BitVec.ofNat 64 (s.greg d rd)
    let put (k : Nat) : BitVec 64 := (D &&& ~~~((0xFFFF : BitVec 64) <<< k)) ||| (x.setWidth 64 <<< k)
    ∀ p ∈ ([(.addi d rd ra imm, A + imm.signExtend 64), (.andi d rd ra imm, A &&& imm.setWidth 64),
        (.ori d rd ra imm, A ||| imm.setWidth 64), (.xori d rd ra imm, A ^^^ imm.setWidth 64),
        (.shi d rd ra 0 amt, A <<< amt.toNat), (.shi d rd ra 1 amt, A >>> amt.toNat), (.shi d rd ra 2 amt, A.sshiftRight amt.toNat),
        (.shi d rd ra 3 amt, A.rotateLeft amt.toNat),
        (.movi d rd sx x, if sx then x.signExtend 64 else x.setWidth 64),
        (.movk1 d rd x, put 16), (.movk2 d rd x, put 32), (.movk3 d rd x, put 48)] : List (Instr × BitVec 64)),
      issues s d p.1 → ∃ t, exec p.1 s = .next t ∧ retired (s.gput d rd p.2.toNat) t d (nextPc s d)

/-- On an instruction that issues, CMP and CMPI answer a next state in which predicate PD is its old value combined, as CB
says (0 replace, 1 AND, 2 OR, 3 AND NOT), with the condition CC over ra and rb, or ra and the sign-extended IMM9: EQ, NE,
signed LT and GE, unsigned LT and GE, any common bit set, none set; PSET answers one in which PD is the function PF of PA and
PB. Nothing else has changed but what retiring changes. (R302, R303.) -/
def Obligations.ComparesCombineAConditionIntoAPredicate : Prop :=
  ∀ (s : State) (d : Iss) (pd pa pb : PReg) (ra rb : GReg) (imm : BitVec 9),
    let cond (A B : BitVec 64) (cc : BitVec 3) : Bool :=
      if cc = 0 then A == B else if cc = 1 then A != B else if cc = 2 then A.slt B else if cc = 3 then !A.slt B
      else if cc = 4 then A.ult B else if cc = 5 then !A.ult B else if cc = 6 then (A &&& B) != 0 else (A &&& B) == 0
    let comb (cb : BitVec 2) (p c : Bool) : Bool := if cb = 0 then c else if cb = 1 then p && c else if cb = 2 then p || c else p && !c
    let A := BitVec.ofNat 64 (s.greg d ra)
    let B := BitVec.ofNat 64 (s.greg d rb)
    let p := s.pred d pd
    let x := s.pred d pa
    let y := s.pred d pb
    (∀ cb cc, issues s d (.cmp d pd cb ra rb cc) → ∃ t, exec (.cmp d pd cb ra rb cc) s = .next t
        ∧ retired (s.predPut d pd (comb cb p (cond A B cc))) t d (nextPc s d))
    ∧ (∀ cb cc, issues s d (.cmpi d pd cb ra cc imm) → ∃ t, exec (.cmpi d pd cb ra cc imm) s = .next t
        ∧ retired (s.predPut d pd (comb cb p (cond A (imm.signExtend 64) cc))) t d (nextPc s d))
    ∧ ∀ q ∈ ([(0, x && y), (1, x || y), (2, x ^^ y), (3, x && !y), (4, x || !y), (5, !(x && y)), (6, true), (7, false)]
        : List (BitVec 3 × Bool)),
      issues s d (.pset d pd pa pb q.1) → ∃ t, exec (.pset d pd pa pb q.1) s = .next t
        ∧ retired (s.predPut d pd q.2) t d (nextPc s d)

/-- On an instruction that issues, BR answers a next state whose thread is at its index plus the signed 22-bit offset, modulo
2^16; CALL does the same after writing the index that follows into G31; JR goes to the index in ra[15:0]. A false guard makes
any of them advance to the next index only, the guard-false count apart. Nothing else has changed but what retiring changes.
(R278, R301, R303.) -/
def Obligations.BranchesGoToTheirTarget : Prop :=
  ∀ (s : State) (d : Iss) (ofs : BitVec 22) (ra : GReg),
    let target := (((s.thrOf d).pc : Int) + ofs.toInt) % 65536
    (issues s d (.br d ofs) → ∃ t, exec (.br d ofs) s = .next t ∧ retired s t d target.toNat)
    ∧ (issues s d (.call d ofs) → ∃ t, exec (.call d ofs) s = .next t ∧ retired (s.gput d 31 (nextPc s d)) t d target.toNat)
    ∧ (issues s d (.jr d ra) → ∃ t, exec (.jr d ra) s = .next t ∧ retired s t d (s.greg d ra % 2 ^ 16))

/-- On an instruction that issues with POS + LENM1 at most 63: EXT writes the bits [POS + LENM1 : POS] of ra zero-extended,
EXTS sign-extended, INS replaces those bits of rd by the low bits of ra, and EXTV takes POS and LENM1 from rb[5:0] and
rb[13:8] and sign-extends when its flag is set; nothing else has changed but what retiring changes. With POS + LENM1 above 63
each of them halts its thread with FLT_ILLEGAL and writes nothing. (R299, R303.) -/
def Obligations.BitFieldsAreExtractedAndInserted : Prop :=
  ∀ (s : State) (d : Iss) (rd ra rb : GReg) (pos len : BitVec 6) (sgn : Bool),
    let A := BitVec.ofNat 64 (s.greg d ra)
    let D := BitVec.ofNat 64 (s.greg d rd)
    let b := s.greg d rb
    let ones (l : Nat) : BitVec 64 := BitVec.ofNat 64 (2 ^ (l + 1) - 1)
    let field (p l : Nat) : BitVec 64 := (A >>> p) &&& ones l
    let fieldS (p l : Nat) : BitVec 64 := ((A >>> p) <<< (63 - l)).sshiftRight (63 - l)
    ∀ p ∈ ([(.ext d rd ra pos len, pos.toNat, len.toNat, field pos.toNat len.toNat),
        (.exts d rd ra pos len, pos.toNat, len.toNat, fieldS pos.toNat len.toNat),
        (.ins d rd ra pos len, pos.toNat, len.toNat,
          (D &&& ~~~(ones len.toNat <<< pos.toNat)) ||| ((A &&& ones len.toNat) <<< pos.toNat)),
        (.extv d rd ra rb sgn, b % 64, b / 256 % 64,
          if sgn then fieldS (b % 64) (b / 256 % 64) else field (b % 64) (b / 256 % 64))]
        : List (Instr × Nat × Nat × BitVec 64)),
      issues s d p.1 →
        (p.2.1 + p.2.2.1 ≤ 63 → ∃ t, exec p.1 s = .next t ∧ retired (s.gput d rd p.2.2.2.toNat) t d (nextPc s d))
        ∧ (63 < p.2.1 + p.2.2.1 → exec p.1 s = .next (s.faulted d 1 0))

/-- For every well-formed engine instruction of thread d but the four THR_CMD events (whose event presumes the value written):
when the thread can issue it and its guard is false, exec answers a next state that has retired it with no other effect; when
the thread cannot issue, or the word it fetches is another one, exec answers the same state (the event does not happen).
(R301, R303.) -/
def Obligations.FalseGuardsOnlyAdvance : Prop :=
  ∀ (s : State) (i : Instr) (d : Iss), i.iss = some d →
    i.wf = true → (∀ ra, i ≠ .thrResume d ra ∧ i ≠ .thrSkip d ra ∧ i ≠ .thrJump d ra ∧ i ≠ .thrRestart d ra) →
    (s.canIssue d.c.g.val d.c.ix = true → (s.thrOf d).pc < (s.galI d.c.g.val).codeLen →
      engWord i = some (mget (fun _ => 0) (s.galI d.c.g.val).code (s.thrOf d).pc) →
      s.pd d.c.g.val d.c.ix d.pg.toNat = d.pn → ∃ t, exec i s = .next t ∧ retired s t d (nextPc s d))
    ∧ (s.canIssue d.c.g.val d.c.ix = false → exec i s = .next s)
    ∧ ((s.thrOf d).pc < (s.galI d.c.g.val).codeLen →
      engWord i ≠ some (mget (fun _ => 0) (s.galI d.c.g.val).code (s.thrOf d).pc) → exec i s = .next s)

/-- After a write of v to G register r of a thread, register q of any thread reads v modulo 2^64 if it is the written one and
r is not 0, and as before otherwise; G0 always reads zero and discards writes. The same holds of the predicates, of which P0
always reads 1. Nothing else of the state changes. (R278, R301.) -/
def Obligations.RegistersReadAsWritten : Prop :=
  ∀ (s : State) (d c : Iss) (r q : GReg) (p o : PReg) (v : Nat) (b : Bool),
    ((s.gput d r v).greg c q = if c.c.g = d.c.g ∧ c.c.ix = d.c.ix ∧ q = r ∧ r ≠ 0 then v % 2 ^ 64 else s.greg c q)
    ∧ s.greg c 0 = 0 ∧ s.gput d 0 v = s
    ∧ ((s.predPut d p b).pred c o = if c.c.g = d.c.g ∧ c.c.ix = d.c.ix ∧ o = p ∧ p ≠ 0 then b else s.pred c o)
    ∧ s.pred c 0 = true ∧ s.predPut d 0 b = s
    ∧ (∀ h j, (s.gput d r v).thrI h j = { s.thrI h j with regs := ((s.gput d r v).thrI h j).regs }
        ∧ (s.predPut d p b).thrI h j = { s.thrI h j with preds := ((s.predPut d p b).thrI h j).preds })
    ∧ (∀ h, (s.gput d r v).galI h = { s.galI h with thr := ((s.gput d r v).galI h).thr }
        ∧ (s.predPut d p b).galI h = { s.galI h with thr := ((s.predPut d p b).galI h).thr })
    ∧ { s.gput d r v with gal := s.gal } = s ∧ { s.predPut d p b with gal := s.gal } = s

/-- On an instruction that issues and whose access of 1, 2, 4 or 8 bytes meets no address or alignment fault: LD and LDX
answer a next state in which the register holds the little-endian bytes at the address, zero-extended; ST and STX one in which
memory holds the low bytes of the register there, or, when the completion port writes the same scratchpad word, one in which
the store is lost and notified; FENCE one that has only retired. The address is ra plus the signed offset times the size, or
ra + rb. (R280, R281, R282, R303.) -/
def Obligations.LoadsAndStoresAccessTheDataSpace : Prop :=
  ∀ (s : State) (d : Iss) (r ra rb : GReg) (sz : BitVec 2) (ofs : BitVec 10) (lost : Bool),
    let g := d.c.g.val
    let i := d.c.ix
    let n := 2 ^ sz.toNat
    let a := (((s.greg d ra : Int) + ofs.toInt * n) % 2 ^ 64).toNat
    let x := (s.greg d ra + s.greg d rb) % 2 ^ 64
    let word (b : Nat) : Nat := match memKey i b with | some (_, k) => k % 8192 * 8 | none => 0
    let after (b : Nat) : State :=
      if (lost && inScratch b n) = true then s.writeLost g i (word b) (s.thrOf d).pc else s.memWr g i b n (s.greg d r)
    (memFault i a n false = 0 →
      (issues s d (.ld d r ra sz ofs) → ∃ t, exec (.ld d r ra sz ofs) s = .next t
        ∧ retired (s.gput d r (s.memRd g i a n)) t d (nextPc s d))
      ∧ (issues s d (.st d r ra sz ofs lost) → ∃ t, exec (.st d r ra sz ofs lost) s = .next t
        ∧ retired (after a) t d (nextPc s d)))
    ∧ (memFault i x n false = 0 →
      (issues s d (.ldx d r ra rb sz) → ∃ t, exec (.ldx d r ra rb sz) s = .next t
        ∧ retired (s.gput d r (s.memRd g i x n)) t d (nextPc s d))
      ∧ (issues s d (.stx d r ra rb sz lost) → ∃ t, exec (.stx d r ra rb sz lost) s = .next t
        ∧ retired (after x) t d (nextPc s d)))
    ∧ (issues s d (.fence d) → ∃ t, exec (.fence d) s = .next t ∧ retired s t d (nextPc s d))

/-- For an access of 1, 2, 4 or 8 bytes without a fault: after a store of v, a load of the same size at the same address by
the same thread reads v modulo 256^n; every byte of every gallery's memories that is not one of the n stored bytes reads as
before, through whichever thread and alias it is read; and nothing but the memories of that gallery changes. (R280, R281.) -/
def Obligations.StoresChangeExactlyTheirBytes : Prop :=
  ∀ (s : State) (g i a n v : Nat), n = 1 ∨ n = 2 ∨ n = 4 ∨ n = 8 → memFault i a n false = 0 →
    let place (j b : Nat) : Option Nat := (memKey j b).map (fun k => 8 * k.2 + b % 8)
    (s.memWr g i a n v).memRd g i a n = v % 256 ^ n
    ∧ (∀ h j b, (h ≠ g ∨ ∀ k < n, place j b ≠ place i (a + k)) → (s.memWr g i a n v).memRd h j b 1 = s.memRd h j b 1)
    ∧ (∀ h, (s.memWr g i a n v).galI h = { s.galI h with mem := ((s.memWr g i a n v).galI h).mem })
    ∧ { s.memWr g i a n v with gal := s.gal } = s

/-- On an instruction that issues and whose word or double access meets no fault (the scratchpad takes none): each ATOM
answers a next state in which rd holds the old value and memory the old value combined with rb: added, AND, OR, XOR, replaced,
unsigned minimum, unsigned maximum, or for CAS rb when the old value equals rd and the old value otherwise. (R280, R303,
R304.) -/
def Obligations.AtomicsReturnTheOldValue : Prop :=
  ∀ (s : State) (d : Iss) (rd ra rb : GReg) (dbl : Bool),
    let g := d.c.g.val
    let i := d.c.ix
    let n := if dbl then 8 else 4
    let a := s.greg d ra
    let old := s.memRd g i a n
    let b := s.greg d rb % 256 ^ n
    ∀ p ∈ ([(.atomAdd d rd ra rb dbl, old + b), (.atomAnd d rd ra rb dbl, old &&& b), (.atomOr d rd ra rb dbl, old ||| b),
        (.atomXor d rd ra rb dbl, old ^^^ b), (.atomSwap d rd ra rb dbl, b), (.atomUmin d rd ra rb dbl, min old b),
        (.atomUmax d rd ra rb dbl, max old b),
        (.atomCas d rd ra rb dbl, if old = s.greg d rd % 256 ^ n then b else old)] : List (Instr × Nat)),
      issues s d p.1 → memFault i a n true = 0 →
        ∃ t, exec p.1 s = .next t ∧ retired ((s.memWr g i a n p.2).gput d rd old) t d (nextPc s d)

/-- On an instruction that issues: HWL within the 640 bytes of the window answers a next state in which the register holds the
n bytes from its offset, most significant first, bytes beyond HW_LEN as zero; HWS within HW_LEN one in which the packet holds
the low n bytes of the register there; HWADJ with a delta that keeps the sum of deltas between minus the first HW_LEN and 128
one in which the packet has that many zero bytes in front, or that many bytes removed, and rd the new HW_LEN. Outside those
bounds each halts its thread with cause 5. Without a packet the window is empty (log entry 76, the model's choice). (R283,
R303.) -/
def Obligations.HeaderWindowInstructionsActOnThePacket : Prop :=
  ∀ (s : State) (d : Iss) (r ra : GReg) (sz : BitVec 2) (ofs : BitVec 10) (imm : BitVec 12),
    let n := 2 ^ sz.toNat
    let o := (s.greg d ra + ofs.toNat) % 2 ^ 64
    let dl := (BitVec.ofNat 64 (s.greg d ra) + imm.signExtend 64).toInt
    let halt := s.faulted d 5 0
    (∀ k, s.pktOf d = some k →
      (issues s d (.hwl d r ra sz ofs) →
        (o + n ≤ 640 → ∃ t v, exec (.hwl d r ra sz ofs) s = .next t ∧ retired (s.gput d r v) t d (nextPc s d) ∧ v < 256 ^ n
          ∧ ∀ j < n, v / 256 ^ (n - 1 - j) % 256 = byteN (k.p.bytes.take k.hwLen) (o + j))
        ∧ (640 < o + n → exec (.hwl d r ra sz ofs) s = .next halt))
      ∧ (issues s d (.hws d r ra sz ofs) →
        (o + n ≤ min 640 k.hwLen → ∃ t, exec (.hws d r ra sz ofs) s = .next t
          ∧ retired (s.thrPut d (fun x => { x with pkt := some { k with p := { k.p with
              bytes := splice k.p.bytes o (beB n (s.greg d r)) } } })) t d (nextPc s d))
        ∧ (min 640 k.hwLen < o + n → exec (.hws d r ra sz ofs) s = .next halt))
      ∧ (issues s d (.hwadj d r ra imm) →
        (-(k.hw0 : Int) ≤ k.delta + dl → k.delta + dl ≤ 128 → ∃ t, exec (.hwadj d r ra imm) s = .next t
          ∧ retired ((s.thrPut d (fun x => { x with pkt := some { k with
              delta := k.delta + dl, hwLen := ((k.hwLen : Int) + dl).toNat
              p := { k.p with bytes := if 0 ≤ dl then zeros dl.toNat ++ k.p.bytes else k.p.bytes.drop (-dl).toNat } } })).gput d r
              ((k.hwLen : Int) + dl).toNat) t d (nextPc s d))
        ∧ (k.delta + dl < -(k.hw0 : Int) ∨ 128 < k.delta + dl → exec (.hwadj d r ra imm) s = .next halt)))
    ∧ (s.pktOf d = none →
      (issues s d (.hwl d r ra sz ofs) → o + n ≤ 640 → ∃ t, exec (.hwl d r ra sz ofs) s = .next t ∧ retired (s.gput d r 0) t d (nextPc s d))
      ∧ (issues s d (.hws d r ra sz ofs) → exec (.hws d r ra sz ofs) s = .next halt)
      ∧ (issues s d (.hwadj d r ra imm) → (dl = 0 → ∃ t, exec (.hwadj d r ra imm) s = .next t
          ∧ retired (s.gput d r 0) t d (nextPc s d)) ∧ (dl ≠ 0 → exec (.hwadj d r ra imm) s = .next halt)))

/-- On an instruction that issues on a thread that holds a packet: MDL answers a next state in which rd holds the field the
index names: length, port, slice, compact ingress stamp, TC, colour, adjacency, parse faults, number of headers and the 24
header words; on an ingress packet also queue, decision, NH user word, stream, VRF and lookup profile, the lookup data and
their first-pass copies; on an egress packet also the adjacency's four user words. MDS answers one in which, on an ingress
packet, TC, colour, queue, adjacency or stream has the new value, or in LULL the port. An index without a field in the
direction halts the thread with cause 6, and so does an MDS of a field that cannot be written. Without a packet, MDL reads a
free value and MDS changes nothing (log entry 76, the model's choice). (R284, R303.) -/
def Obligations.MetadataFieldsReadAndWrite : Prop :=
  ∀ (s : State) (d : Iss) (rd ra : GReg) (idx : BitVec 8),
    let v := s.greg d ra
    let reads (x : BitVec 8) (w : Nat) : Prop := issues s d (.mdl d rd x) → ∃ t, exec (.mdl d rd x) s = .next t
      ∧ retired (s.gput d rd w) t d (nextPc s d)
    (∀ k, s.pktOf d = some k →
      let p := k.p
      let writes (x : BitVec 8) (q : Pkt) : Prop := issues s d (.mds d ra x) → ∃ t, exec (.mds d ra x) s = .next t
        ∧ retired (s.thrPut d (fun y => { y with pkt := some { k with p := q } })) t d (nextPc s d)
      (∀ e ∈ ([(0x00, p.bytes.length), (0x01, if k.egr then p.egrPort else p.port), (0x02, p.slice), (0x03, compact p.stamp), (0x04, p.tc),
          (0x05, p.colour), (0x08, p.adj), (0x0B, p.faults), (0x2F, p.hdrs.length)] : List (BitVec 8 × Nat)), reads e.1 e.2)
      ∧ (∀ j : Fin 24, reads (BitVec.ofNat 8 (0x30 + j.val))
          (match p.hdrs[j.val]? with | some h => h.kind % 256 * 65536 + h.off % 1024 | none => 0))
      ∧ (k.egr = false →
        (∀ e ∈ ([(0x06, p.queue), (0x07, p.decision), (0x09, p.nhUser), (0x0A, match p.stream with | some n => 65536 + n | none => 0),
            (0x0C, s.vrf p.port * 65536 + p.lkpProf)] : List (BitVec 8 × Nat)), reads e.1 e.2)
        ∧ (∀ j : Fin 14, reads (BitVec.ofNat 8 (0x0D + j.val)) (p.look.getD j.val 0)
            ∧ reads (BitVec.ofNat 8 (0x8D + j.val)) (p.look1.getD j.val 0))
        ∧ ∀ e ∈ ([(0x04, { p with tc := v % 8 }), (0x05, { p with colour := min (v % 4) 2 }), (0x06, { p with queue := v % 2 ^ 18 }),
            (0x08, { p with adj := v % 2 ^ 20 }), (0x0A, { p with stream := if v.testBit 16 then some (v % 65536) else none })]
              : List (BitVec 8 × Pkt)), writes e.1 e.2)
      ∧ (s.inMode mLULL = true → writes 0x01 { p with port := v % 512 })
      ∧ (k.egr = true → ∀ j : Fin 4, let a := s.adjAddr p.adj + 32 + 8 * j.val
          reads (BitVec.ofNat 8 (0x20 + j.val)) (s.tw a + s.tw (a + 4) * 2 ^ 32))
      ∧ (s.mdRead k idx.toNat = none ↔ idx.toNat ∈ [0x1B, 0x1C, 0x1D, 0x1E, 0x1F, 0x24, 0x25, 0x26, 0x27, 0x28, 0x29, 0x2A, 0x2B, 0x2C, 0x2D,
            0x2E] ∨ (0x48 ≤ idx.toNat ∧ idx.toNat < 0x8D) ∨ 0x9B ≤ idx.toNat ∨ (k.egr = false ∧ 0x20 ≤ idx.toNat ∧ idx.toNat ≤ 0x23)
          ∨ (k.egr = true ∧ (idx.toNat ∈ [0x06, 0x07, 0x09, 0x0A] ∨ (0x0C ≤ idx.toNat ∧ idx.toNat ≤ 0x1A) ∨ 0x8D ≤ idx.toNat)))
      ∧ (s.mdRead k idx.toNat = none → issues s d (.mdl d rd idx) → exec (.mdl d rd idx) s = .next (s.faulted d 6 0))
      ∧ (¬(k.egr = false ∧ idx.toNat ∈ [0x04, 0x05, 0x06, 0x08, 0x0A]) → ¬(s.inMode mLULL = true ∧ idx = 0x01) →
          issues s d (.mds d ra idx) → exec (.mds d ra idx) s = .next (s.faulted d 6 0)))
    ∧ (s.pktOf d = none →
      (issues s d (.mdl d rd idx) → ∃ t, exec (.mdl d rd idx) s = .next t
        ∧ retired (s.draw.2.gput d rd s.draw.1.toNat) t d (nextPc s d))
      ∧ (issues s d (.mds d ra idx) → ∃ t, exec (.mds d ra idx) s = .next t ∧ retired s t d (nextPc s d)))

/-- When thread i of gallery g halts with a cause and a code: the thread is halted by a fault at its instruction, nothing else
of it changes (thread 0 also receives SYNTH, as it does on every halt); the notification with the cause, engine, thread, code
and index is last in the queue; no other thread changes but thread 0, which has SYNTH posted; memories, flues and the packets
of other threads stay. A fetch at CODE_LEN or beyond halts with cause 2, an uncorrectable error in a read with cause 9; SVC
and a reserved opcode halt so, with causes 12 and 1; a reserved opcode is one that decodes to no instruction, LKP of kind 6 or
7 apart. (R299, R320, R321, R324.) -/
def Obligations.FaultsHaltTheirThread : Prop :=
  (∀ (s : State) (g i cause code : Nat),
    let t := s.haltThr g i cause code
    let pc := (s.thrI g i).pc
    let h := { s.thrI g i with run := .haltF, haltAt := s.tb.up, leashed := [], step := false }
    t.thrI g i = (if i = 0 then { h with events := h.events ||| 2 } else h)
    ∧ (i ≠ 0 → t.thrI g 0 = { s.thrI g 0 with events := (s.thrI g 0).events ||| 2 })
    ∧ (∀ e j, ¬(e = g ∧ (j = i ∨ j = 0)) → t.thrI e j = s.thrI e j)
    ∧ (t.galI g).notes = ((s.galI g).notes ++ [noteWord cause i code pc]).take 512
    ∧ (∀ e, t.galI e = { s.galI e with thr := (t.galI e).thr, notes := (t.galI e).notes })
    ∧ (∀ e, e ≠ g → t.galI e = s.galI e)
    ∧ { t with regs := s.regs, ev := s.ev, out := s.out, gal := s.gal } = s)
  ∧ (∀ (s : State) (d : Iss) (i : Instr), i.iss = some d → i.wf = true →
    (∀ ra, i ≠ .thrResume d ra ∧ i ≠ .thrSkip d ra ∧ i ≠ .thrJump d ra ∧ i ≠ .thrRestart d ra) →
    s.canIssue d.c.g.val d.c.ix = true →
    ((s.galI d.c.g.val).codeLen ≤ (s.thrOf d).pc → exec i s = .next (s.haltThr d.c.g.val d.c.ix 2 0))
    ∧ ((s.thrOf d).pc < (s.galI d.c.g.val).codeLen → engWord i = some (mget (fun _ => 0) (s.galI d.c.g.val).code (s.thrOf d).pc) →
      s.pd d.c.g.val d.c.ix d.pg.toNat ≠ d.pn → d.ecc = true → exec i s = .next (s.haltThr d.c.g.val d.c.ix 9 0)))
  ∧ (∀ (s : State) (d : Iss) (code : BitVec 16), issues s d (.svc d code) →
    exec (.svc d code) s = .next (s.faulted d 12 code.toNat))
  ∧ (∀ (s : State) (d : Iss) (w : Word), decodeEngine ⟨d.c, d.ecc, false, AclEnv.clean⟩ w.toNat = none →
    ¬(bits w.toNat 27 22 = 0x1E ∧ 0x60 ≤ bits w.toNat 6 0) →
    s.canIssue d.c.g.val d.c.ix = true → (s.thrOf d).pc < (s.galI d.c.g.val).codeLen →
    mget (fun _ => 0) (s.galI d.c.g.val).code (s.thrOf d).pc = w.toNat → s.pd d.c.g.val d.c.ix d.pg.toNat ≠ d.pn → d.ecc = false →
    exec (.reservedOpcode d w) s = .next (s.faulted d 1 0))

/-- On an instruction that issues outside LULL, with a result buffer in the scratchpad that is 8-byte aligned, a key block
within the data space where the kind has one, and token n the lowest free one: each LKP answers a next state in which token n
is outstanding for a request of its kind with that buffer and rd holds n, and nothing else has changed but what retiring
changes. EM and LPM take the key from the 24 bytes at ra; the other kinds take ra as the index, out of range when it is 65,536
or more for an ECMP group and 2^20 or more for the rest. In LULL the token is complete at once with status 2. Without a free
token the thread waits. A buffer or key block outside its space or misaligned halts it with its cause. A word of kind 6 or 7
takes a token that is complete with status 3 (log entry 74). (R286, R288, R289.) -/
def Obligations.LookupRequestsTakeAToken : Prop :=
  ∀ (s : State) (d : Iss) (rd ra rb : GReg) (tbl : BitVec 4) (n : Nat),
    let a := s.greg d ra
    let buf := s.greg d rb
    let b := s.dataBytes d a 24
    let runs (i : Instr) (ok : LkpReq → Prop) : Prop :=
      issues s d i → ∃ t r, exec i s = .next t ∧ retired (s.asked d rd n (.lkp r)) t d (nextPc s d) ∧ r.buf = buf ∧ ok r
    (s.inMode mLULL = false → (s.thrOf d).lowestFree n →
      (bufFault buf 32 = 0 → inData d.c.ix a 24 = true → runs (.lkpEm d rd ra rb tbl) (fun r => r.kind = 0 ∧ r.tbl = tbl.toNat
        ∧ r.key = leN b 0 16 ∧ r.slice = (if (byteN b 16).testBit 3 then byteN b 16 % 8 else d.c.g.val)
        ∧ (r.bad = false ↔ s.emOn tbl.toNat = true ∧ r.key < 2 ^ s.rd (F.TBL_EM_CFG_KEY_WIDTH.at tbl.toNat))))
      ∧ (bufFault buf 8 = 0 → inData d.c.ix a 24 = true → runs (.lkpLpm d rd ra rb) (fun r => r.kind = 1 ∧ r.vrf = leN b 18 2
        ∧ r.af = byteN b 16 ∧ r.key = (if byteN b 16 = 0 then beN b 0 4 else beN b 0 16) ∧ (r.bad = false ↔ byteN b 16 ≤ 1)))
      ∧ (bufFault buf 16 = 0 → runs (.lkpNh d rd ra rb) (fun r => r.kind = 2 ∧ r.key = a ∧ (r.bad = false ↔ a < 2 ^ 20)))
      ∧ (bufFault buf 8 = 0 → runs (.lkpEcmpGroup d rd ra rb) (fun r => r.kind = 3 ∧ r.key = a ∧ (r.bad = false ↔ a < 65536)))
      ∧ (bufFault buf 8 = 0 → runs (.lkpEcmpMember d rd ra rb) (fun r => r.kind = 4 ∧ r.key = a ∧ (r.bad = false ↔ a < 2 ^ 20)))
      ∧ (bufFault buf 64 = 0 → runs (.lkpAdj d rd ra rb) (fun r => r.kind = 5 ∧ r.key = a ∧ (r.bad = false ↔ a < 2 ^ 20))))
    ∧ (∀ p ∈ ([(.lkpEm d rd ra rb tbl, 32, true), (.lkpLpm d rd ra rb, 8, true), (.lkpNh d rd ra rb, 16, false),
        (.lkpEcmpGroup d rd ra rb, 8, false), (.lkpEcmpMember d rd ra rb, 8, false), (.lkpAdj d rd ra rb, 64, false)]
          : List (Instr × Nat × Bool)), issues s d p.1 →
      (bufFault buf p.2.1 ≠ 0 → exec p.1 s = .next (s.faulted d (bufFault buf p.2.1) 0))
      ∧ (bufFault buf p.2.1 = 0 → (p.2.2 && !inData d.c.ix a 24) = true → exec p.1 s = .next (s.faulted d 3 0))
      ∧ (bufFault buf p.2.1 = 0 → (p.2.2 && !inData d.c.ix a 24) = false →
        (s.inMode mLULL = true → (s.thrOf d).lowestFree n → ∃ t, exec p.1 s = .next t ∧ retired (s.answered d rd n 2) t d (nextPc s d))
        ∧ ((∀ m < 16, (s.thrOf d).tok m ≠ none) → ∃ t, exec p.1 s = .next t
            ∧ t.thrOf d = { s.thrOf d with run := .stall .full })))
    ∧ (∀ w : Word, (Instr.reservedOpcode d w).wf = true → bits w.toNat 27 22 = 0x1E → 0x60 ≤ bits w.toNat 6 0 →
      (s.thrOf d).lowestFree n → issues s d (.reservedOpcode d w) →
      let f := bufFault (s.rg d.c.g.val d.c.ix (bits w.toNat 11 7)) 8
      (f ≠ 0 → exec (.reservedOpcode d w) s = .next (s.faulted d f 0))
      ∧ (f = 0 → ∃ t, exec (.reservedOpcode d w) s = .next t
        ∧ retired (s.answered d (BitVec.ofNat 5 (bits w.toNat 21 17)) n (if s.inMode mLULL then 2 else 3)) t d (nextPc s d)))

/-- A token that completes holds the status word STATUS in [63:56], the token in [55:52] and the detail below. LKP completes
the token of an outstanding lookup: with TOK_BAD_ARG and no bytes for a bad request; once the slice has credit for its reads
(log entry 136), with TOK_MISS and a zero result on a miss, or with status 0 and the bytes of what was found, an exact-match
hit setting HIT where enabled, or with TOK_ECC and open bytes (log entry 3); HRD with Hoard's status and detail once it has
answered; DMA with TOK_BAD_ARG for a bad request, else with status 0 after the bytes have moved between packet, table window
or scratch cell and local memory. (R286, R287, R289, R292, R293, R345.) -/
def Obligations.CompletionsDeliverTheirResult : Prop :=
  ∀ (s : State) (c : ThrId) (n : Fin 16),
    let g := c.g.val
    let i := c.ix
    let ends (u : State) (q : Req) (status detail : Nat) : State := (u.saTouch g i).tokSet g i n.val
      (some { req := q, done := some (status * 2 ^ 56 + n.val * 2 ^ 52 + detail % 2 ^ 52) })
    (∀ r, (s.thrI g i).tok n.val = some { req := .lkp r } →
      (r.bad = true → exec (.lkpComplete c n false) s = .next (ends s (.lkp r) 3 0))
      ∧ (r.bad = false →
        let (u, ok) := s.lkpReads g r
        (ok = false → exec (.lkpComplete c n false) s = .next u)
        ∧ (ok = true →
          (u.lkpFind r = none →
            exec (.lkpComplete c n false) s = .next (ends (u.memPut g i r.buf (zeros (lkpSize r.kind))) (.lkp r) 1 0))
          ∧ (∀ b, u.lkpFind r = some (b, none) → exec (.lkpComplete c n false) s = .next (ends (u.memPut g i r.buf b) (.lkp r) 0 0))
          ∧ (∀ b ix e, u.lkpFind r = some (b, some (ix, e)) →
            let h := if u.on (F.TBL_EM_CFG_HIT_EN.at r.tbl) = true ∧ e.hit = false then u.emWrite ix { e with hit := true } else u
            exec (.lkpComplete c n false) s = .next (ends (h.memPut g i r.buf b) (.lkp r) 0 0))
          ∧ (let (b, f) := u.openBytes (lkpSize r.kind)
            exec (.lkpComplete c n true) s = .next (ends (f.memPut g i r.buf b) (.lkp r) 4 0)))))
    ∧ (∀ r : LkpReq, (r.kind = 2 → s.lkpFind r = some (s.tBytes (s.nhAddr r.key) 4, none))
      ∧ (r.kind = 3 → s.lkpFind r = some (s.tBytes (s.grpAddr r.key) 2, none))
      ∧ (r.kind = 5 → s.lkpFind r = some (s.tBytes (s.adjAddr r.key) 16, none)))
    ∧ (∀ w, (s.thrI g i).tok n.val = some { req := .hrd (some w) } →
      exec (.hrdComplete c n) s = .next (ends s (.hrd (some w)) (w / 2 ^ 52) (w % 2 ^ 52)))
    ∧ (∀ r, (s.thrI g i).tok n.val = some { req := .dma r } →
      (r.bad = true → exec (.dmaComplete c n false) s = .next (ends s (.dma r) 3 0))
      ∧ (r.bad = false →
        (r.dir = 0 → ∀ k, (s.thrI g i).pkt = some k →
          exec (.dmaComplete c n false) s = .next (ends (s.memPut g i r.loc (slice k.p.bytes r.remote r.len)) (.dma r) 0 0))
        ∧ (r.dir = 2 → exec (.dmaComplete c n false) s = .next (ends (s.tPut r.remote (s.memGet g i r.loc r.len)) (.dma r) 0 0))
        ∧ (r.dir = 3 → exec (.dmaComplete c n false) s =
            .next (ends (s.memPut g i r.loc (s.cellBytes (r.remote / 2 ^ 32) (r.remote % 256) r.len)) (.dma r) 0 0))
        ∧ (r.dir = 4 → exec (.dmaComplete c n false) s =
            .next (ends (s.cellPut (r.remote / 2 ^ 32) (r.remote % 256) (s.memGet g i r.loc r.len)) (.dma r) 0 0))))

/-- On an instruction that issues outside LULL with a 96-byte block in the scratchpad, aligned: ACL SEARCH, and SEARCH NEXT
from the cursor at bytes 80-83, answer a next state in which the search of the slice has been made for the 80-byte key; on a
match rd holds HIT, MULTI, the index and the priority, and bytes 88-95 of the block hold the entry's action; otherwise rd
holds only whether the verify retries were exhausted. In LULL rd receives bit 61 and no search is made. (R254, R290.) -/
def Obligations.AclSearchesReturnTheGoverningMatch : Prop :=
  ∀ (s : State) (d : Iss) (rd ra : GReg) (e : AclEnv), bufFault (s.greg d ra) 96 = 0 →
    let a := s.greg d ra
    let g := d.c.g.val
    let b := s.dataBytes d a 96
    let key := leN b 0 80
    let found (u : State) (multi : Bool) (j : Nat) (x : AclEnt) : State :=
      (u.memPut g d.c.ix (a + 88) (leB 8 x.action)).gput d rd (2 ^ 63 + b2n multi * 2 ^ 62 + j % 16384 * 65536 + x.prio % 65536)
    ∀ p ∈ ([(.aclSearch d rd ra e, s.aclSearch g key e), (.aclSearchNext d rd ra e, s.aclStep g key (aclCursor (leN b 80 4)) e)]
        : List (Instr × (State × AclRes))), issues s d p.1 →
      (s.inMode mLULL = true → ∃ t, exec p.1 s = .next t ∧ retired (s.gput d rd (2 ^ 61)) t d (nextPc s d))
      ∧ (s.inMode mLULL = false →
        (p.2.2.hit = none → ∃ t, exec p.1 s = .next t
          ∧ retired (p.2.1.gput d rd (b2n p.2.2.exhausted * 2 ^ 61)) t d (nextPc p.2.1 d))
        ∧ (∀ j x, p.2.2.hit = some (j, x) → ∃ t, exec p.1 s = .next t
          ∧ retired (found p.2.1 p.2.2.multi j x) t d (nextPc (found p.2.1 p.2.2.multi j x) d)))

/-- On an instruction that issues outside LULL with token n the lowest free one: an Echo scan or step request with a valid
descriptor, whose bytes lie in its source and fit the Echo queue, takes token n and queues the scan with the cursor of the
step; HRD ALLOC, FREE and REF take token n and Hoard serves the request; each of the five DMA directions with a descriptor in
the data space and 8-byte aligned addresses takes token n for the copy the descriptor describes. rd holds n, and nothing else
has changed but what retiring changes. In LULL the token is complete at once: with status 2 for HRD and for a DMA other than
from the packet, with status 0 and the lull result word for Echo. A bad Echo descriptor completes with status 3; a full Echo
queue makes the thread wait. (R286, R291, R292, R293.) -/
def Obligations.EchoHoardAndDmaRequestsTakeAToken : Prop :=
  ∀ (s : State) (d : Iss) (rd ra : GReg) (n : Nat), (s.thrOf d).lowestFree n →
    let a := s.greg d ra
    let g := d.c.g.val
    let i := d.c.ix
    let runs (i : Instr) (u : State) : Prop := issues s d i → ∃ t, exec i s = .next t ∧ retired u t d (nextPc u d)
    (s.inMode mLULL = false →
      (∀ mem data, bufFault a 24 = 0 →
        let b := s.dataBytes d a 24
        let len := leN b 4 2
        1 ≤ len → len ≤ 12288 → s.echoData d mem (leN b 0 4) len = some data →
        (s.ech g).bytes + len ≤ s.rd F.PAT_CFG_QMAX * 1024 →
        let stamp := match s.pktOf d with | some k => k.p.stamp | none => stamp16 s.t16
        runs (.echoScanRequest d rd ra mem) ((s.asked d rd n .echo).echQueue g ⟨i, n, none, a, data, none, false, stamp⟩)
        ∧ runs (.echoStepRequest d rd ra mem)
            ((s.asked d rd n .echo).echQueue g ⟨i, n, none, a, data, some (leN b 8 2, leN b 10 2), false, stamp⟩))
      ∧ runs (.hrdAlloc d rd ra) ((s.asked d rd n (.hrd none)).hrdAlloc g i n a)
      ∧ runs (.hrdFree d rd ra) ((s.asked d rd n (.hrd none)).hrdFree g i n a)
      ∧ runs (.hrdRef d rd ra) ((s.asked d rd n (.hrd none)).hrdRef g i n a)
      ∧ (inData i a 16 = true →
        ∀ p ∈ ([(.dmaPacketToLocal d rd ra, 0), (.dmaTableToLocal d rd ra, 1), (.dmaLocalToTable d rd ra, 2),
            (.dmaCellToLocal d rd ra, 3), (.dmaLocalToCell d rd ra, 4)] : List (Instr × Nat)),
          let r := s.dmaReq d p.2 (s.dataBytes d a 16)
          r.loc % 8 = 0 → (p.2 = 1 ∨ p.2 = 2 → r.remote % 8 = 0) → runs p.1 (s.asked d rd n (.dma r))
            ∧ r.dir = p.2 ∧ r.remote = leN (s.dataBytes d a 16) 0 8 ∧ r.loc = leN (s.dataBytes d a 16) 8 4
            ∧ r.len = leN (s.dataBytes d a 16) 12 4))
    ∧ (∀ mem, bufFault a 24 = 0 →
      let b := s.dataBytes d a 24
      let len := leN b 4 2
      let done (i : Instr) (status : Nat) : Prop := issues s d i → ∃ t, exec i s = .next t
        ∧ retired (s.answered d rd n status) t d (nextPc s d)
      ∀ e ∈ [Instr.echoScanRequest d rd ra mem, .echoStepRequest d rd ra mem],
        (s.inMode mLULL = false → (len = 0 ∨ 12288 < len ∨ s.echoData d mem (leN b 0 4) len = none) → done e 3)
        ∧ (s.inMode mLULL = false → ∀ data, 1 ≤ len → len ≤ 12288 → s.echoData d mem (leN b 0 4) len = some data →
            s.rd F.PAT_CFG_QMAX * 1024 < (s.ech g).bytes + len →
            issues s d e → ∃ t, exec e s = .next t ∧ t.thrOf d = { s.thrOf d with run := .stall (.echoQ len) })
        ∧ (s.inMode mLULL = true → issues s d e → ∃ t, exec e s = .next t
            ∧ retired ((((s.asked d rd n .off).memWr g i (a + 16) 8 (5 * 2 ^ 60)).saTouch g i).tokSet g i n
              (some { req := .off, done := some (n * 2 ^ 52) })) t d (nextPc s d)))
    ∧ (s.inMode mLULL = true →
      let done (i : Instr) : Prop := issues s d i → ∃ t, exec i s = .next t ∧ retired (s.answered d rd n 2) t d (nextPc s d)
      (∀ e ∈ [Instr.hrdAlloc d rd ra, .hrdFree d rd ra, .hrdRef d rd ra], done e)
      ∧ (inData i a 16 = true → ∀ p ∈ ([(.dmaTableToLocal d rd ra, 1), (.dmaLocalToTable d rd ra, 2), (.dmaCellToLocal d rd ra, 3),
          (.dmaLocalToCell d rd ra, 4)] : List (Instr × Nat)),
          let r := s.dmaReq d p.2 (s.dataBytes d a 16)
          r.loc % 8 = 0 → (p.2 ≤ 2 → r.remote % 8 = 0) → done p.1))

/-- For an outstanding request of token n by thread i of gallery g: ALLOC from the gallery's own enabled pool with a free cell
gives a cell one reference, zero-fills it, takes it from the pool and answers status 0 with its handle; REF of an allocated
cell of that pool with fewer than 255 references adds one and answers the new count; FREE with more than one reference takes
one away and answers status 0. (R336, R339, R342, R347.) -/
def Obligations.HoardServesScratchRequests : Prop :=
  ∀ (s : State) (g i n h : Nat) (t : Tok), (s.thrI g i).tok n = some t →
    let answer (u : State) (detail : Nat) : State := u.tokSet g i n (some { t with req := .hrd (some detail) })
    (s.scrCells (2 + g) ≠ 0 → s.poolFree (2 + g) ≠ 0 →
      let c := s.freeCell (2 + g)
      s.hrdAlloc g i n (2 + g) = answer (((c.1.scrSet c.2 1).cellZero c.2).poolTake (2 + g) 1) c.2)
    ∧ (s.handleOk h = true → h / 2 ^ 28 = 2 + g → s.scrRefs h ≠ 0 →
      (s.scrRefs h ≠ 255 → s.hrdRef g i n h = answer (s.scrSet h (s.scrRefs h + 1)) (s.scrRefs h + 1))
      ∧ (s.scrRefs h ≠ 1 → s.hrdFree g i n h = answer (s.scrSet h (s.scrRefs h - 1)) 0))

/-- On an instruction that issues: WAIT on a token that is complete answers a next state in which rd holds its status word and
the token is free; WAIT ANY does so for the lowest complete token of a mask whose tokens are all in use; WAIT EVENT with a
fired event of the mask writes the fired ones to rd and clears them; TEST writes to PD whether the token is complete and with
FN[0] frees a complete one. A WAIT on a token still outstanding leaves the instruction to be presented again, the thread
stalled; so does WAIT ANY while none of the mask is complete, and WAIT EVENT while none has fired. A WAIT that names a free
token halts the thread with cause 11 (for a mask: log entry 80, the model's choice). (R286, R287, R296.) -/
def Obligations.WaitsReturnStatusesAndEvents : Prop :=
  ∀ (s : State) (d : Iss) (rd ra : GReg) (pd : PReg) (free : Bool),
    let g := d.c.g.val
    let i := d.c.ix
    let x := s.thrOf d
    let v := s.greg d ra
    let taken (n w : Nat) : State := (s.tokSet g i n none).gput d rd w
    (∀ q k w, v < 16 → x.tok v = some ⟨q, k, some w⟩ → issues s d (.waitToken d rd ra) →
      ∃ t, exec (.waitToken d rd ra) s = .next t ∧ retired (taken v w) t d (nextPc s d))
    ∧ (∀ q k, v < 16 → x.tok v = some ⟨q, k, none⟩ → issues s d (.waitToken d rd ra) →
      ∃ t, exec (.waitToken d rd ra) s = .next t ∧ (t.thrOf d) = { x with run := .stall (.tok (2 ^ v)) })
    ∧ (∀ n q k w, n < 16 → bitN v n = true → x.tok n = some ⟨q, k, some w⟩ → bitN x.tokDone n = true →
        (∀ m < n, bitN v m = true → bitN x.tokDone m = false) → (∀ m < 16, bitN v m = true → x.tok m ≠ none) →
        issues s d (.waitAny d rd ra) →
        ∃ t, exec (.waitAny d rd ra) s = .next t ∧ retired (taken n w) t d (nextPc s d))
    ∧ (16 ≤ v ∨ x.tok v = none → issues s d (.waitToken d rd ra) → exec (.waitToken d rd ra) s = .next (s.faulted d 11 0))
    ∧ (∀ m < 16, bitN v m = true → x.tok m = none → issues s d (.waitAny d rd ra) → exec (.waitAny d rd ra) s = .next (s.faulted d 11 0))
    ∧ ((∀ m < 16, bitN v m = true → x.tok m ≠ none ∧ bitN x.tokDone m = false) → issues s d (.waitAny d rd ra) →
      ∃ t, exec (.waitAny d rd ra) s = .next t ∧ t.thrOf d = { x with run := .stall (.tok (v % 65536)) })
    ∧ (s.eventsOf g i &&& (v % 16) = 0 → issues s d (.waitEvent d rd ra) →
      ∃ t, exec (.waitEvent d rd ra) s = .next t ∧ t.thrOf d = { x with run := .stall (.events (v % 16)) })
    ∧ (let fired := s.eventsOf g i &&& (v % 16)
      fired ≠ 0 → issues s d (.waitEvent d rd ra) → ∃ t, exec (.waitEvent d rd ra) s = .next t
        ∧ retired ((s.thrPut d (fun x => { x with events := x.events &&& (15 - fired) })).gput d rd fired) t d (nextPc s d))
    ∧ (let c := decide (v < 16) && bitN x.tokDone v
      issues s d (.test d pd ra free) → ∃ t, exec (.test d pd ra free) s = .next t
        ∧ retired ((if c && free then s.tokSet g i v none else s).predPut d pd c) t d (nextPc s d))

/-- On an instruction that issues: CNT with an index below 262,144, outside LULL, answers a next state in which the first
counter of the pair has one more and the second rb more, each saturating at 2^64 - 1, and no token is taken; with an index out
of range it halts the thread with cause 8, and in LULL it has no effect; TIME reads the compact stamp, the nanoseconds, the
seconds, the tick number, or the ingress stamp of the packet held. Nothing else has changed but what retiring changes. An
index of TIME outside the list halts the thread with cause 8, and the ingress stamp without a packet with cause 7. (R294.) -/
def Obligations.CountersAndTimeReads : Prop :=
  ∀ (s : State) (d : Iss) (rd ra rb : GReg),
    let k := s.greg d ra
    let add (m : SMap Nat) (j n : Nat) : SMap Nat := mset (fun _ => 0) m j (min (mget (fun _ => 0) m j + n) (2 ^ 64 - 1))
    (issues s d (.cnt d ra rb) →
      (s.inMode mLULL = false → k < 262144 → ∃ t, exec (.cnt d ra rb) s = .next t
        ∧ retired { s with engCnt := add (add s.engCnt (2 * k) 1) (2 * k + 1) (s.greg d rb) } t d (nextPc s d))
      ∧ (s.inMode mLULL = false → 262144 ≤ k → exec (.cnt d ra rb) s = .next (s.faulted d 8 0))
      ∧ (s.inMode mLULL = true → ∃ t, exec (.cnt d ra rb) s = .next t ∧ retired s t d (nextPc s d)))
    ∧ (∀ p ∈ ([(0, compact (stamp16 s.cap16)), (1, s.capTime / tuNs % 2 ^ 64), (2, s.capTime / tuNs / 10 ^ 9 % 2 ^ 48), (3, s.tick)]
        : List (BitVec 8 × Nat)), issues s d (.time d rd p.1) → ∃ t, exec (.time d rd p.1) s = .next t
        ∧ retired (s.gput d rd p.2) t d (nextPc s d))
    ∧ (∀ p, s.pktOf d = some p → issues s d (.time d rd 4) → ∃ t, exec (.time d rd 4) s = .next t
        ∧ retired (s.gput d rd (compact p.p.stamp)) t d (nextPc s d))
    ∧ (s.pktOf d = none → issues s d (.time d rd 4) → exec (.time d rd 4) s = .next (s.faulted d 7 0))
    ∧ (∀ idx : BitVec 8, 5 ≤ idx.toNat → issues s d (.time d rd idx) →
        exec (.time d rd idx) s = .next (s.faulted d 8 0))

/-- On an instruction that issues, with the flue enabled: FRES of 1 to 32 words, at most the capacity, by a thread without a
reservation there, with fewer than four in all and not in line, reserves them at once when nobody waits and they fit; FPUT
appends its word to the staged message of a reservation with room; FCMT appends the staged words as one message, frees what
was not staged and returns the number; FGET by the receiving thread reads the oldest committed word and frees its space; FLEN
reads the number of committed words. (R315, R316, R317, R318.) -/
def Obligations.FluesCarryMessages : Prop :=
  ∀ (s : State) (d : Iss) (rd ra : GReg) (idx : BitVec 8), s.flueOn d.c.g.val idx.toNat = true →
    let g := d.c.g.val
    let f := idx.toNat
    let k := s.greg d ra
    let x := s.thrOf d
    (x.resvIn f = none → s.inLine d f = false → 1 ≤ k → k ≤ 32 → k ≤ s.rd (flc F.GAL_FLUE_CAP g f) → x.resv.length < 4 →
      s.flueWait g f = [] → k ≤ s.flueSpace g f → issues s d (.fres d ra idx) → ∃ t, exec (.fres d ra idx) s = .next t
        ∧ retired ((s.thrPut d (fun x => { x with lost := x.lost.filter (· ≠ f) })).thrPut d (fun x =>
            { x with resv := x.resv ++ [⟨f, k, [], false⟩] })) t d (nextPc s d))
    ∧ (∀ r, x.resvIn f = some r → x.lost.contains f = false →
      (r.staged.length < r.size → issues s d (.fput d ra idx) → ∃ t, exec (.fput d ra idx) s = .next t
        ∧ retired (s.thrPut d (fun x => { x with resv := x.resv.map (fun q =>
            if q.flue = f then { q with staged := q.staged ++ [k] } else q) })) t d (nextPc s d))
      ∧ (issues s d (.fcmt d rd idx) → ∃ t, exec (.fcmt d rd idx) s = .next t
        ∧ let u := (((s.thrPut d (fun x => { x with resv := x.resv.filter (fun q => q.flue != f) })).fluePut g f
            (s.flueWords g f ++ r.staged)).flueFreed g f).gput d rd r.staged.length
          retired u t d (nextPc u d)))
    ∧ (s.flueRx g f = d.c.ix →
      (∀ w l, s.flueWords g f = w :: l → issues s d (.fget d rd idx) → ∃ t, exec (.fget d rd idx) s = .next t
        ∧ let u := ((s.fluePut g f l).flueFreed g f).gput d rd w
          retired u t d (nextPc u d))
      ∧ (issues s d (.flen d rd idx) → ∃ t, exec (.flen d rd idx) s = .next t
        ∧ retired (s.gput d rd (s.flueWords g f).length) t d (nextPc s d)))

/-- On an instruction that issues: READY on a thread without a packet marks it started, puts a worker to idle, a background
thread to its budget wait and the supervisor to ENTRY_SUPER, lets the gallery enter service if it was the last, and
dispatches; SEND, DROP and PUNT with a reason of 16-63, on a thread that holds packet k and has no outstanding token, free its
tokens, leave it idle, pass the packet on (to Passage or its port, in LULL out of the tether port it names where its link is
up; counted as dropped; to the punt path) and dispatch. The instruction retires. With tokens outstanding the thread waits;
READY with a packet, or another one without, halts it with cause 7, and PUNT with a reason below 16 with cause 8. (R277, R285,
R297, R306, R314.) -/
def Obligations.PacketDispositionsEndTheWork : Prop :=
  ∀ (s : State) (d : Iss),
    let g := d.c.g.val
    let ends (i : Instr) (u : State) : Prop := issues s d i → exec i s = .next (((u.dispatch g).saTouch g d.c.ix).retire g d.c.ix)
    let stops (i : Instr) (cause : Nat) : Prop := issues s d i → exec i s = .next (s.faulted d cause 0)
    (s.pktOf d = none → ends (.pktReady d) ((s.thrPut d (fun x => { x with
        started := true, bgDone := true
        run := if x.role = 1 then .idle else if x.role = 2 then .budget else .ready
        pc := if x.role = 3 then (s.galI g).entSup else x.pc })).galServe g))
    ∧ (∀ k, s.pktOf d = some k → (s.thrOf d).tokBusy = 0 →
      let idle := (s.thrPut d (fun x => { x with pkt := none, toks := [], run := .idle })).pmcOf d 0x11
      let gone (u : State) : State := if k.egr then u else u.nhDone k.p
      (s.inMode mLULL = false → ends (.pktSend d) (if k.egr then
          idle.egpUpd k.p.egrPort (fun x => { x with mac := x.mac ++ [k.p] }) else idle.toPassage k.p))
      ∧ (s.inMode mLULL = true → ends (.pktSend d) (if (isTether k.p.port && idle.link k.p.port) = true then
          idle.sendDirect k.p.port k.p.bytes true else idle.satInc F.MOD_LULL_DROPS_COUNT))
      ∧ ends (.pktDrop d) (gone (idle.galCnt g 0x50))
      ∧ (∀ reason : BitVec 6, 16 ≤ reason.toNat →
          ends (.pktPunt d reason) ((gone (idle.galCnt g 0x58)).puntPacket reason.toNat k.p k.egr)))
    ∧ (s.pktOf d ≠ none → stops (.pktReady d) 7 ∧ ∀ reason : BitVec 6, reason.toNat < 16 → stops (.pktPunt d reason) 8)
    ∧ (s.pktOf d = none → stops (.pktSend d) 7 ∧ stops (.pktDrop d) 7 ∧ ∀ reason, stops (.pktPunt d reason) 7)
    ∧ (s.pktOf d ≠ none → (s.thrOf d).tokBusy ≠ 0 →
      ∀ i ∈ Instr.pktSend d :: .pktDrop d :: (List.range 48).map (fun n => .pktPunt d (BitVec.ofNat 6 (16 + n))),
        issues s d i → ∃ t, exec i s = .next t ∧ t.thrOf d = { s.thrOf d with run := .stall .pkt })

/-- On an instruction that issues: MFS reads THREAD, ROLE, tokens outstanding and done, events, TIMER and the engine data
window; MTS writes TIMER, which arms it unless zero; the supervisor's MFS of NOTE pops the head notification (zero when none
waits), of NOTE_CNT reads their number, and its MTS of THR_SEL selects a thread and register. Another thread that uses a
supervisor register halts with cause 10, a write of a read-only one with cause 10, and an index that is none with cause 1.
(R298, R322, R323.) -/
def Obligations.SpecialRegistersReadAndWrite : Prop :=
  ∀ (s : State) (d : Iss) (rd ra : GReg),
    let g := d.c.g.val
    let x := s.thrOf d
    let y := s.galI g
    let v := s.greg d ra
    (∀ p ∈ ([(0x00, g * 256 + d.c.e.val * 16 + d.c.t.val), (0x01, x.role), (0x02, x.tokBusy), (0x03, x.tokDone),
        (0x04, s.eventsOf g d.c.ix), (0x05, x.timer), (0x06, y.winBase), (0x07, y.winSize), (0x08, b2n (s.inMode mLULL))] : List (BitVec 8 × Nat)),
      issues s d (.mfs d rd p.1) → ∃ t, exec (.mfs d rd p.1) s = .next t ∧ retired (s.gput d rd p.2) t d (nextPc s d))
    ∧ (issues s d (.mts d ra 0x05) → ∃ t, exec (.mts d ra 0x05) s = .next t
      ∧ retired (s.thrPut d (fun x => { x with timer := v % 2 ^ 48, armed := decide (v % 2 ^ 48 ≠ 0) })) t d (nextPc s d))
    ∧ (d.c.ix = 0 →
      (issues s d (.notePop d rd) → ∃ t, exec (.notePop d rd) s = .next t
        ∧ retired ((s.galUpd g (fun z => { z with notes := z.notes.tail })).gput d rd (y.notes.headD 0)) t d (nextPc s d))
      ∧ (issues s d (.mfs d rd 0x11) → ∃ t, exec (.mfs d rd 0x11) s = .next t
        ∧ retired (s.gput d rd y.notes.length) t d (nextPc s d))
      ∧ (issues s d (.mts d ra 0x12) → ∃ t, exec (.mts d ra 0x12) s = .next t
        ∧ retired (s.galUpd g (fun z => { z with
            sel := b2n (v.testBit 16) * 65536 + v / 256 % 32 * 256 + v / 16 % 8 * 16 + v % 8 })) t d (nextPc s d)))
    ∧ (d.c.ix ≠ 0 → (issues s d (.notePop d rd) → exec (.notePop d rd) s = .next (s.faulted d 10 0))
      ∧ ∀ idx ∈ ([0x12, 0x13, 0x14, 0x15, 0x16] : List (BitVec 8)), issues s d (.mts d ra idx) →
        exec (.mts d ra idx) s = .next (s.faulted d 10 0))
    ∧ ∀ idx : BitVec 8,
      ((9 ≤ idx.toNat ∧ idx.toNat < 0x10) ∨ 0x18 ≤ idx.toNat → d.c.ix = 0 ∨ idx.toNat < 0x10 ∨ 0x20 ≤ idx.toNat →
        (issues s d (.mfs d rd idx) → exec (.mfs d rd idx) s = .next (s.faulted d 1 0))
        ∧ (issues s d (.mts d ra idx) → exec (.mts d ra idx) s = .next (s.faulted d 1 0)))
      ∧ (idx.toNat ≤ 8 → idx ≠ 5 → issues s d (.mts d ra idx) → exec (.mts d ra idx) s = .next (s.faulted d 10 0))

/-- On an instruction of the supervisor (thread 0) that issues, with the selected thread i halted: RESUME lets it run again at
its instruction (where the debugger halted it, as it was), SKIP at the next, JUMP at the index given; a register write writes
the selected register, or the predicates; RESTART applies the restart of the thread; RECLAIM of a flue where it holds a
reservation frees that reservation and counts it; SYNTH is posted to every thread of the mask that has a role, halted or not.
With the selected thread not halted all but SYNTH have no effect. Each of them then retires. (R319, R322, R323.) -/
def Obligations.SupervisorCommandsActOnTheSelectedThread : Prop :=
  ∀ (s : State) (d : Iss) (ra : GReg), d.c.ix = 0 →
    let g := d.c.g.val
    let sel := (s.galI g).sel
    let i := 8 * (sel / 16 % 8) + sel % 8
    let v := s.greg d ra
    let does (c : Instr) (u : State) : Prop := issues s d c → ∃ t, exec c s = .next t ∧ retired u t d (nextPc u d)
    ((s.thrI g i).halted = true →
      (v % 8 = 1 → does (.thrResume d ra) (s.thrGo g i))
      ∧ (v % 8 = 2 → does (.thrSkip d ra)
          ((s.thrUpd g i (fun x => { x with pc := (x.pc + 1) % 2 ^ 16 })).thrGo g i))
      ∧ (v % 8 = 3 → does (.thrJump d ra)
          ((s.thrUpd g i (fun x => { x with pc := v / 2 ^ 16 % 2 ^ 16 })).thrGo g i))
      ∧ (v % 8 = 4 → does (.thrRestart d ra) (s.thrRestart g i))
      ∧ (sel.testBit 16 = false → does (.thrRegWrite d ra) (s.rgSet g i (sel / 256 % 32) v))
      ∧ (sel.testBit 16 = true →
          does (.thrRegWrite d ra) (s.thrUpd g i (fun x => { x with preds := v % 256 / 2 * 2 })))
      ∧ (((s.thrI g i).resvIn (v % 128)).isSome = true → does (.reclaim d ra)
          (((s.thrUpd g i (fun x => { x with lost := v % 128 :: x.lost })).dropResv g i (fun r => r.flue == v % 128)).galCnt
            g 0x40)))
    ∧ ((s.thrI g i).halted = false →
      (v % 8 = 1 → does (.thrResume d ra) s) ∧ (v % 8 = 2 → does (.thrSkip d ra) s) ∧ (v % 8 = 3 → does (.thrJump d ra) s)
      ∧ (v % 8 = 4 → does (.thrRestart d ra) s) ∧ does (.thrRegWrite d ra) s ∧ does (.reclaim d ra) s)
    ∧ does (.synthPost d ra) (foldS ((List.range 64).filter (fun j => v.testBit j)) (fun j s =>
        s.thrUpd g j (fun x => if x.role = 0 then x else { x with events := x.events ||| 2 })) s)

/-- LEASH_EXPIRED of a halted thread with reservations lets time reach the halt plus GAL_LEASH.US, marks the flues and queues
one notification of cause 17 for each flue not yet marked; STILL_AIR, when the condition holds and has not fired, lets time
reach GAL_SA.LIMIT cycles after its start, queues a notification of cause 16, sets the gallery's event and counts;
THREAD_TIMER of an armed thread whose timer lies ahead lets Windrose reach it, disarms the timer and sets event bit 3. (R296,
R319, R320, R321, R326.) -/
def Obligations.ThreadEventsNotify : Prop :=
  ∀ (s : State) (c : ThrId),
    let g := c.g.val
    let i := c.ix
    let x := s.thrI g i
    (x.halted = true → x.resv ≠ [] →
      let u := s.advanceUp (x.haltAt + s.rd (F.GAL_LEASH_US.at g) * 1000)
      let new := (x.resv.map (·.flue)).filter (fun f => !x.leashed.contains f)
      exec (.leashExpired c) s = .next (foldS new (fun f s => s.note g (noteWord 17 i f x.pc))
        (u.thrUpd g i (fun x => { x with leashed := x.leashed ++ new }))))
    ∧ (s.saHolds g = true → (s.galI g).saFired = false →
      exec (.stillAir c.g) s = .next (((((s.advanceUp ((s.galI g).saAt + (s.rd (F.GAL_SA_LIMIT.at g) + 2) / 3)).galUpd g (fun y =>
        { y with saFired := true })).note g (noteWord 16 0 0 0)).galEvt g
        F.GAL_EVT_STILL_AIR).galCnt g 0x38))
    ∧ (let d := (x.timer + 2 ^ 48 - s.ns % 2 ^ 48) % 2 ^ 48
      x.armed = true → d < 2 ^ 47 → exec (.threadTimer c) s = .next ((s.advanceTo ((s.ns + d) * tuNs)).thrUpd g i (fun x =>
        { x with armed := false, events := x.events ||| 8 })))

/-- When the host's access is served, a write of GAL_DBG_CTRL with a thread and an operation stores the two fields, keeps
DENIED, and, with engine debug permitted: HALT stops a thread with a role that is not halted, remembering what it was doing;
STEP lets a debug-halted thread issue one instruction; RESUME lets it go on. Without permission each of them sets DENIED only.
RESTART restarts the thread either way. (R324, R333.) -/
def Obligations.DebugCommandsControlAThread : Prop :=
  ∀ (s : State) (c : ThrId),
    let g := c.g.val
    let i := c.ix
    let a := (R.GAL_DBG_CTRL.at g).addr
    s.serves a →
    ∃ w : Word, bits w.toNat 18 16 = c.e.val ∧ bits w.toNat 14 12 = c.t.val ∧ bits w.toNat 19 19 = s.rd (F.GAL_DBG_CTRL_DENIED.at g) ∧
      let u := s.wrw a w
      let x := u.thrI g i
      (s.engDebug = true →
        (x.halted = false → x.role ≠ 0 → exec (.dbgHalt c) s = .next (((u.dropWait g i).saTouch g i).thrUpd g i (fun x => { x with
          run := .haltD, haltAt := u.tb.up, leashed := [], step := false, was := match x.run with | .stall _ => .ready | r => r })))
        ∧ (x.run = .haltD → x.was = .ready → exec (.dbgStep c) s = .next (u.thrUpd g i (fun x => { x with run := .ready, step := true })))
        ∧ (x.run = .haltD → exec (.dbgResume c) s = .next (u.thrGo g i))
        ∧ (x.run ≠ .haltD → exec (.dbgStep c) s = .next u ∧ exec (.dbgResume c) s = .next u))
      ∧ (s.engDebug = false → ∀ k ∈ [Instr.dbgHalt c, .dbgStep c, .dbgResume c],
          exec k s = .next (u.wr (F.GAL_DBG_CTRL_DENIED.at g) 1))
      ∧ exec (.dbgRestart c) s = .next (u.thrRestart g i)

/-- PACKET_DISPATCH gives the head of the input queue to the next idle worker. GALLERY_INPUT of a gallery in service takes the
earliest arrival, gives it a handle and accepts it, an ingress packet with an Echo action after queueing its scan, or, where
the queue has no room for it and OVF_ACT is 1, drops it as skipped. GALLERY_LOAD of a gallery that is off in RUN with the
Keeper up reclaims its scratch buffers and loads its program. A load that times out in RUN outside a swap reaches 1 ms after
its start, switches the gallery off and sets LOAD_FAIL. DRAIN_END outside a test ends the drain in LOADING and reclaims its
buffers. (R275, R277, R306, R307, R331, R332, R350.) -/
def Obligations.GalleriesTakePacketsLoadAndDrain : Prop :=
  ∀ (s : State) (g : Fin 8),
    (∀ i x l, s.idleWorker g.val = some i → (s.galI g.val).inq = x :: l →
      exec (.packetDispatch g) s = .next ((s.galUpd g.val (fun y => { y with inq := l })).dispatchTo g.val i x))
    ∧ (∀ x, s.nextArrival g.val = some x → s.galState g.val = gSERVICE → x.p.echo = none →
      let h := (s.galI g.val).handle + 1
      exec (.galleryInput g) s = .next (({ s with galIn := eraseFirst x s.galIn }.galUpd g.val (fun y =>
        { y with handle := h })).galAccept g.val { x with handle := h }))
    ∧ (∀ x k, s.nextArrival g.val = some x → s.galState g.val = gSERVICE → x.egr = false → x.p.echo = some k →
      let h := (s.galI g.val).handle + 1
      let u := { s with galIn := eraseFirst x s.galIn }.galUpd g.val (fun y => { y with handle := h })
      let data := (s.scanRange k x.p).getD []
      ((s.ech g.val).bytes + data.length ≤ s.rd F.PAT_CFG_QMAX * 1024 → exec (.galleryInput g) s = .next ((u.echQueue g.val
        ⟨0, 0, some h, 0, data, none, (s.scanRange k x.p).isNone, x.p.stamp⟩).galAccept g.val { x with handle := h }))
      ∧ (s.rd F.PAT_CFG_QMAX * 1024 < (s.ech g.val).bytes + data.length → (u.echSkip g.val).on F.PAT_CFG_OVF_ACT = true →
          exec (.galleryInput g) s = .next ((u.echSkip g.val).nhDone x.p)))
    ∧ (s.keeperUp = true → s.inMode mRUN = true → s.bist.gt = none → bitN s.bist.gfail g.val = false → s.galState g.val = gOFF →
      exec (.galleryLoad g) s = .next ((s.hrdReclaim g.val).loadGal g.val (engProg s.kpr.eng g.val)))
    ∧ (∀ t0, (s.galI g.val).loadAt = some t0 → s.galState g.val = gLOADING → s.inMode mRUN = true → s.kpr.swap = none →
      exec (.galleryLoadTimeout g) s = .next (((s.advanceUp (t0 + 10 ^ 6)).galOff g.val).galEvt g.val F.GAL_EVT_LOAD_FAIL))
    ∧ (s.galState g.val = gDRAINING → s.bist.gt = none →
      exec (.drainEnd g) s = .next ((s.galDrained g.val gLOADING).hrdReclaim g.val))

/-- STACK_CACHE_REFILL of a cache below 2,048 adds up to 64 of the free pointers it does not hold, less those that fail
parity, which leave service; STACK_CACHE_SPILL of one above 6,144 takes 64 away. POOL_STARVED of the oldest unmarked waiter
lets time reach its STARVE_US, marks it and sets POOL_STARVED. ECHO_SCAN_DONE takes the scan from its queue and counts it, its
bytes, a hit and further matches: an engine's result word enters the descriptor and its token completes with status 0 and an
open detail (log entry 60); a packet's completes the Echo token of its thread with the result word (log entry 135), or waits
for the packet's dispatch. (R266, R269, R337, R343, R345.) -/
def Obligations.CachesWaitersAndScans : Prop :=
  ∀ (s : State),
    (∀ (k : Fin 8) bad, s.stackCache k.val < 2048 →
      let n := min 64 (s.stackFree k.val - s.stackCache k.val)
      exec (.stackCacheRefill k bad) s =
        .next (((s.stackCacheSet k.val (s.stackCache k.val + n - min bad n)).stackLose k.val (min bad n)).cellsLost 0 (min bad n)))
    ∧ (∀ k : Fin 8, 6144 < s.stackCache k.val → exec (.stackCacheSpill k) s = .next (s.stackCacheSet k.val (s.stackCache k.val - 64)))
    ∧ (∀ (k : Fin 10) w, (s.waitOf k.val).find? (fun w => !w.starved) = some w →
      let u := s.advanceUp (w.at_ + s.rd (F.HRD_POOL_CFG_STARVE_US.at (k.val - 2)) * 1000)
      exec (.poolStarved k) s = .next ((u.waitShow k.val ((u.waitOf k.val).map (fun x =>
        if x = w then { x with starved := true } else x))).setEvt R.HRD_EVT R.HRD_EVT_EN F.HRD_EVT_POOL_STARVED (eg 11 0)))
    ∧ (∀ (g : Fin 8) j l, (s.ech g.val).jobs = j :: l →
      let r := scanResult ((s.ech g.val).bank (s.bankAt g.val j.stamp)) j
      let u := (s.echPut g.val { s.ech g.val with jobs := l }).patCnt g.val
        (if j.cur.isSome = true then 0x38 else if j.noStart = true then 0x28 else 0x00)
      let u := if j.noStart = true then u else u.patCnt g.val 0x08 j.data.length
      let u := if r.2.1 = true then u.patCnt g.val 0x10 else u
      let u := if r.2.2 = true then u.patCnt g.val 0x18 else u
      (j.handle = none → ∀ q, (s.thrI g.val j.thr).tok j.tok = some { req := q } →
        let v := u.memWr g.val j.thr (j.buf + 16) 8 r.1
        exec (.echoScanDone g) s = .next (v.draw.2.tokComplete g.val j.thr j.tok 0 v.draw.1.toNat))
      ∧ (∀ h, j.handle = some h → u.handleThr g.val h = none →
        exec (.echoScanDone g) s = .next (u.echPut g.val { u.ech g.val with ready := (u.ech g.val).ready ++ [(h, r.1)] }))
      ∧ (∀ h i n t, j.handle = some h → u.handleThr g.val h = some i →
        (u.thrI g.val i).toks.find? (fun e => match e.2 with
          | some { req := .echo, discard := _, done := none } => true | _ => false) = some (n, t) →
        exec (.echoScanDone g) s = .next (u.tokResult g.val i n r.1)))

/-- In DORMANT every BAR0 access leaves the state as it is. In every other mode an access that is not 32 bits or not aligned
is recorded as KIND 1 and completes with Unsupported Request; an aligned one to a reserved range is recorded as KIND 2, one to
a partition under test is recorded as BUSY, and one to a block that is not served is recorded as KIND 3: reads complete with
zero and writes are ignored. Recording counts the access and fills the log when it is free. (R8, R10, R85, R506, R515, R517.)
-/
def Obligations.AccessesThatReachNoRegisterAreRecorded : Prop :=
  ∀ (s : State) (a : BitVec 28),
    let n := a.toNat
    let done (u : State) (w : Option Word) : State := if w.isSome then u else u.emit (.read n 0)
    (s.inMode mDORMANT = true → ∀ (wr : Bool) (w : Option Word), ∀ c ∈ [Instr.bar0BadAccess a wr, .reservedRangeAccess a w,
      .busyAccess a w, .earlyBlockAccess a w], exec c s = .next s)
    ∧ (s.inMode mDORMANT = false →
      (∀ wr, exec (.bar0BadAccess a wr) s = .next ((s.barError 1 n wr).emit (.unsupported n)))
      ∧ (n % 4 = 0 → ∀ w : Option Word,
        (barReserved n = true → exec (.reservedRangeAccess a w) s = .next (done (s.barError 2 n w.isSome) w))
        ∧ (barReserved n = false → s.barBusy n = true → exec (.busyAccess a w) s = .next (done (s.barBusyLog n w.isSome) w))
        ∧ (barReserved n = false → s.barBusy n = false → s.barEarly n = true →
          exec (.earlyBlockAccess a w) s = .next (done (s.barError 3 n w.isSome) w))))
    ∧ (∀ k wr, let u := s.cnt R.GLB_ERR_CNT
      (u.rd F.GLB_ERR_LOG_KIND = 0 →
        s.barError k n wr = u.wr64 R.GLB_ERR_LOG (k * 2 ^ 56 + (if wr then 2 ^ 55 else 0) + n))
      ∧ (u.rd F.GLB_ERR_LOG_KIND ≠ 0 → s.barError k n wr = u))

/-- In a row of the register map whose fields are bit ranges of one word that do not overlap, as those of every row are, a
host write gives each RW, WO and counter field the written value, each lockable field the written value unless its lock holds,
clears the bits of a W1C field written as 1 and sets those of a W1S field, gives a ring index the written value where it is
the one of that ring that the host writes, and leaves RO, RC and self-clearing fields as they are; a read shows each field,
write-only ones as zero; and after a read the RC fields are zero and all others as before. (R10, R11, R520.) -/
def Obligations.AccessCodesDecideEachField : Prop :=
  (∀ b ∈ regBlocks, ∀ r ∈ b.rows, (∀ f ∈ r.fields, f.lo ≤ f.hi ∧ f.hi ≤ 31) ∧
    r.fields.Pairwise (fun f g => f.hi < g.lo ∨ g.hi < f.lo)) ∧
  ∀ (s : State) (r : RegRow) (ix : List Nat) (old v : Word),
    (∀ f ∈ r.fields, f.lo ≤ f.hi ∧ f.hi ≤ 31) → r.fields.Pairwise (fun f g => f.hi < g.lo ∨ g.hi < f.lo) →
    ∀ f ∈ r.fields,
      let at_ (w : Word) : Nat := bits w.toNat f.hi f.lo
      ((f.acc = .rw ∨ f.acc = .wo ∨ f.acc = .cnt) → at_ (s.merged r ix old v) = at_ v)
      ∧ (f.acc = .rwl → at_ (s.merged r ix old v) = if s.locked f.lock ix then at_ old else at_ v)
      ∧ (f.acc = .w1c → ∀ i, f.lo ≤ i → i ≤ f.hi →
        (s.merged r ix old v).toNat.testBit i = (old.toNat.testBit i && !v.toNat.testBit i))
      ∧ (f.acc = .w1s → at_ (s.merged r ix old v) = at_ old ||| at_ v)
      ∧ (f.acc = .ring → at_ (s.merged r ix old v) =
        if hostProduces (ix.headD 0) = decide (r.off = 0x100C) then at_ v else at_ old)
      ∧ ((f.acc = .ro ∨ f.acc = .rc ∨ f.acc = .sc) → at_ (s.merged r ix old v) = at_ old)
      ∧ at_ (readable r.fields old) = (if f.acc = .wo then 0 else at_ old)
      ∧ at_ (rcCleared r.fields old) = (if f.acc = .rc then 0 else at_ old)

/-- For a BAR0 access that reaches its register, which is not one of FAB that standalone use switches off: a read of a one-
word register completes with its readable value and clears its RC fields; a read of a low word also latches the readable high
word, clears a counter when clear-on-read is set, and completes; a write of a low word that is not blocked is held; a write of
a high word with a low word held changes both words and drops the held one, and without one leaves the low word at its current
value; a read of a high word completes with the latched value, which serves that one read (the model's choice, log entry 29),
and else with the current one; a write of a one-word register that no unit takes over stores it field by field and starts what
the register starts. (R9, R11, R435.) -/
def Obligations.HostReadsAndWritesOfWordsAndPairs : Prop :=
  ∀ (s : State) (a : BitVec 28) (r : RegRow) (ix : List Nat) (v : Word),
    let n := a.toNat
    s.serves n → regRow n = some (r, ix) → s.fabGone r.name = false →
    let u := s.refresh r.name ix n
    let w := readable r.fields (u.rdw n)
    (r.role = .w32 → exec (.rcRead a) s = .next (((u.rcClear n).popped r.name ix n).emit (.read n w)))
    ∧ (r.role = .lo →
      let x := { u with latch := mset (fun _ => none) u.latch (n + 4) (some (readable (fieldsAt (n + 4)) (u.rdw (n + 4)))) }
      let y := (x.rcClear n).rcClear (n + 4)
      let z := if isCounter r.fields && y.on F.SVY_CNT_CFG_COR then y.wr64 ⟨n, 0, 0⟩ 0 else y
      exec (.lowWordRead a) s = .next ((z.popped r.name ix n).emit (.read n w)))
    ∧ (r.role = .hi →
      (∀ l, mget (fun _ => (none : Option Word)) u.latch n = some l →
        exec (.rcRead a) s = .next ({ u with latch := mset (fun _ => none) u.latch n none }.emit (.read n l)))
      ∧ (mget (fun _ => (none : Option Word)) u.latch n = none → exec (.rcRead a) s = .next (u.emit (.read n w))))
    ∧ (s.writeBlocked r.name = none →
      (r.role = .lo → exec (.lowWordWrite a v) s = .next { s with held := mset (fun _ => none) s.held n (some v) })
      ∧ (r.role = .hi →
        ∀ rl il, regRow (n - 4) = some (rl, il) →
        (mget (fun _ => (none : Option Word)) s.held (n - 4) = none → let x := s.refresh rl.name il (n - 4)
          exec (.highWordWrite a v) s = .next (State.written s (x.wrw n (x.merged r ix (x.rdw n) v)) r.name ix n v .clean))
        ∧ (∀ l, mget (fun _ => (none : Option Word)) s.held (n - 4) = some l →
          let x := { s with held := mset (fun _ => none) s.held (n - 4) none }
          let y := x.wrw (n - 4) (x.merged rl il (x.rdw (n - 4)) l)
          exec (.highWordWrite a v) s = .next (State.written s (y.wrw n (y.merged r ix (y.rdw n) v)) r.name ix n v .clean)))
      ∧ (r.role = .w32 → s.unitWrite r.name ix n v = none → exec (.registerWrite a v) s = .next
        (State.written s (s.wrw n (s.merged r ix (s.rdw n) (s.inRange r.name ix (s.rdw n) v))) r.name ix n v .clean)))

/-- When the host's access to IND_CMD of a block is served and the block is not busy, a write of it that names an index in
range and an OP the block does not define stores the fields of the register and completes with the block's BAD_ARG error: QUE
and SCH with 7, GAT with 5 and SVY with 1; ACL, which has none, with a free code, or with 2 when it names no slice (log entry
124). (R382, R412, R437.) -/
def Obligations.UndefinedIndirectOpsCompleteWithBadArg : Prop :=
  ∀ (s : State) (v : Word),
    let put (r : Reg) : State := s.hostPut r.addr v
    (s.takes R.ACL_IND_CMD F.ACL_IND_STATUS_BUSY → 5 < bits v.toNat 2 0 → let u := put R.ACL_IND_CMD
      (u.rd F.ACL_IND_CMD_SLICE_MASK = 0 → exec (.indCmdBadOp .acl v) s = .next (u.aclDone 2))
      ∧ (u.rd F.ACL_IND_CMD_SLICE_MASK ≠ 0 → exec (.indCmdBadOp .acl v) s = .next (u.draw.2.aclDone (u.draw.1.toNat % 8))))
    ∧ (s.takes R.QUE_IND_CMD F.QUE_IND_STATUS_BUSY → 4 < bits v.toNat 2 0 → bits v.toNat 25 8 < 262144 →
      exec (.indCmdBadOp .que v) s = .next ((put R.QUE_IND_CMD).schDone true 7))
    ∧ (s.takes R.SCH_IND_CMD F.SCH_IND_STATUS_BUSY → 4 < bits v.toNat 2 0 → bits v.toNat 30 28 ≠ 0 →
      bits v.toNat 27 12 < schCount (bits v.toNat 30 28) →
      exec (.indCmdBadOp .sch v) s = .next ((put R.SCH_IND_CMD).schDone false 7))
    ∧ (s.takes R.GAT_IND_CMD F.GAT_IND_STATUS_BUSY →
      (bits v.toNat 31 30 < 2 → 8 < bits v.toNat 3 0 → gatIndexOk (bits v.toNat 31 30) (bits v.toNat 29 14) 0 false = true →
        exec (.indCmdBadOp .gat v) s = .next ((put R.GAT_IND_CMD).gatDone 5))
      ∧ (bits v.toNat 31 30 = 2 → bits v.toNat 3 0 ∉ [0, 1, 2, 9, 10] →
        exec (.indCmdBadOp .gat v) s = .next ((put R.GAT_IND_CMD).gatDone 5)))
    ∧ (s.takes R.SVY_IND_CMD F.SVY_IND_STATUS_BUSY → 4 < bits v.toNat 2 0 →
      exec (.indCmdBadOp .svy v) s = .next ((put R.SVY_IND_CMD).svyDone 1))

/-- With the servo selected, a served write of WRS_ADJ_FREQ within 100 ppm becomes DPLL A's offset, and one beyond is clamped
with ADJ_CLAMP; with a PPS input selected it is only stored. A phase correction with the servo selected starts a slew inside
SLEW_WINDOW, steps time outside it when Cadence is off or STEP_EN is set, and is else rejected with ADJ_REJECT; with a PPS
input selected it does nothing. A slew in progress completes when the time its rest takes at RATE has passed. A time-set whose
nanoseconds are in range arms with AT_PPS and else applies, stepping time or, with Cadence on and no STEP_EN, setting SET_ERR;
one out of range sets SET_ERR. A PPS edge is noted, captures its stamp and applies an armed set. A reference lost or gained
changes REF_OK at its instant and moves the DPLLs that follow it, DPLL A falling back where it may; a DPLL in ACQUIRE that
reports lock moves to LOCKED. (That a servo write takes DPLL A out of HOLDOVER only is log entry 117; rate and end of a slew,
and what a loop follows, log entry 127.) (R37, R42, R43, R45, R46, R48, R53.) -/
def Obligations.TimeIsSteeredByItsRules : Prop :=
  ∀ (s : State),
    (∀ v, s.serves R.WRS_ADJ_FREQ.addr →
      let u := s.hostPut R.WRS_ADJ_FREQ.addr v
      let f := sx 32 (u.rd F.WRS_ADJ_FREQ_FREQ)
      let put (c : Int) : State := { u with tb := { u.tb with freqA := c } }.noteFreq
      let clamped (c : Int) : State := ((put c).wr F.WRS_STATUS_ADJ_CLAMP 1).raise (eg 1 5)
      (u.servo = false → exec (.adjFreqWrite v) s = .next u)
      ∧ (u.servo = true →
        (-adjLimit ≤ f → f ≤ adjLimit → exec (.adjFreqWrite v) s = .next (put f).servoBack)
        ∧ (adjLimit < f → exec (.adjFreqWrite v) s = .next (clamped adjLimit).servoBack)
        ∧ (f < -adjLimit → exec (.adjFreqWrite v) s = .next (clamped (-adjLimit)).servoBack)))
    ∧ (∀ v, s.serves (R.WRS_ADJ_PHASE.addr + 4) →
      let u := s.pairPut R.WRS_ADJ_PHASE.addr v
      let p := sx 64 (u.rd64 R.WRS_ADJ_PHASE)
      let x := u.servoBack
      (u.servo = false → exec (.phaseCorrection v) s = .next u)
      ∧ (u.servo = true →
        (p.natAbs ≤ x.rd F.WRS_SLEW_WINDOW * 1000 → exec (.phaseCorrection v) s =
          .next ({ x with tb := { x.tb with slewLeft := p * tuPs } }.wr F.WRS_STATUS_SLEWING (if p = 0 then 0 else 1)))
        ∧ (x.rd F.WRS_SLEW_WINDOW * 1000 < p.natAbs →
          (x.rd F.CAD_CTRL_EN = 0 ∨ x.rd F.WRS_CTRL_STEP_EN ≠ 0 →
            exec (.phaseCorrection v) s = .next (x.stepTo ((x.tb.now : Int) + p * tuPs).toNat))
          ∧ (x.rd F.CAD_CTRL_EN ≠ 0 → x.rd F.WRS_CTRL_STEP_EN = 0 →
            exec (.phaseCorrection v) s = .next ((x.wr F.WRS_STATUS_ADJ_REJECT 1).raise (eg 1 4))))))
    ∧ (s.rd F.WRS_STATUS_SLEWING ≠ 0 → ∀ e, s.tb.slewLeft.natAbs ≤ e * s.slewRate →
      (∀ e', s.tb.slewLeft.natAbs ≤ e' * s.slewRate → e ≤ e') →
      exec .slewComplete s = .next ((s.advanceUp (s.tb.up + e)).wr F.WRS_STATUS_SLEWING 0))
    ∧ (∀ v, s.serves R.WRS_SET_CTRL.addr →
      let u := s.hostPut R.WRS_SET_CTRL.addr (v ||| 1)
      let x := u.wr F.WRS_SET_CTRL_GO 0
      let err (y : State) : State := (y.wr F.WRS_STATUS_SET_ERR 1).raise (eg 1 6)
      u.rd F.WRS_SET_CTRL_GO = 0 →
        (10 ^ 9 ≤ u.rd F.WRS_TIME_SET_NANOSECONDS → exec (.timeSetGo v) s = .next (err u))
        ∧ (u.rd F.WRS_TIME_SET_NANOSECONDS < 10 ^ 9 →
          (u.rd F.WRS_SET_CTRL_AT_PPS ≠ 0 → exec (.timeSetGo v) s = .next (u.wr F.WRS_SET_CTRL_GO 1))
          ∧ (u.rd F.WRS_SET_CTRL_AT_PPS = 0 → (x.rd F.CAD_CTRL_EN = 0 ∨ x.rd F.WRS_CTRL_STEP_EN ≠ 0) →
            exec (.timeSetGo v) s = .next (x.stepTo x.timeSetValue))
          ∧ (u.rd F.WRS_SET_CTRL_AT_PPS = 0 → x.rd F.CAD_CTRL_EN ≠ 0 → x.rd F.WRS_CTRL_STEP_EN = 0 →
            exec (.timeSetGo v) s = .next (err x))))
    ∧ (s.inMode mDORMANT = false →
      (∀ n : Fin 2, let up := s.tb.up
        let anew := s.ppsLast n.val = none ∨ s.refSeen n.val = none ∨ ∃ t, s.ppsLast n.val = some t ∧ t + 15 * 10 ^ 8 < up
        ∀ u, (anew → u = s.refSee n.val (some up)) → (¬anew → u = s) →
        let w := { u with tb := { u.tb with ppsAt := mset (fun _ => none) u.tb.ppsAt n.val (some up) } }
        let x := w.wrTime (R.WRS_PPS_IN_STAMP.at n.val) (stamp16 w.cap16)
        let y := if x.ppsA = some n.val then x.loopFreq else x
        let armed := y.rd F.WRS_SET_CTRL_GO ≠ 0 ∧ y.setPps = n.val
        (armed → exec (.ppsInEdge n) s = .next y.timeSetApply) ∧ (¬armed → exec (.ppsInEdge n) s = .next y))
      ∧ (∀ r : Fin 5, ∀ w, (r.val < 2 → ∀ t, s.ppsLast r.val = some t → w = s.advanceUp (t + 15 * 10 ^ 8)) →
        (2 ≤ r.val ∨ s.ppsLast r.val = none → w = s) →
        let u := (w.refSee r.val (if r.val < 2 then none else some w.tb.up)).setRef r.val false
        let x := if u.refB = some r.val then u.loseB else u
        (x.ppsA ≠ some r.val → exec (.refLost r) s = .next x)
        ∧ (x.ppsA = some r.val →
          (x.rd F.WRS_CTRL_PPS_FALLBACK ≠ 0 → x.refOk (1 - r.val) = true → exec (.refLost r) s =
            .next { x.raise (eg 1 3) with tb := { x.tb with fellBack := !x.tb.fellBack } })
          ∧ (x.rd F.WRS_CTRL_PPS_FALLBACK = 0 ∨ x.refOk (1 - r.val) = false → exec (.refLost r) s = .next x.loseA)))
      ∧ (∀ r : Fin 5, (r.val < 2 → s.refSeen r.val = none → exec (.refQualified r) s = .next s)
        ∧ (2 ≤ r.val ∨ s.refSeen r.val ≠ none →
          let w := (s.advanceUp ((s.refSeen r.val).getD 0 + 2 * 10 ^ 9)).setRef r.val true
          let u := if r.val = 2 then w.followC else w
          let x := if u.refB = some r.val then u.gainB else u
          exec (.refQualified r) s = .next (if x.ppsA = some r.val then x.gainA else x))))
    ∧ (let x := s.dpllA dLOCKED
      (s.rd F.WRS_STATUS_DPLLA_STATE = dACQUIRE → exec (.dpllLocked false) s = .next (if x.servo then x.noteFreq else x.loopFreq))
      ∧ (s.rd F.WRS_STATUS_DPLLA_STATE ≠ dACQUIRE → exec (.dpllLocked false) s = .next s))
    ∧ (s.rd F.WRS_STATUS_DPLLB_STATE = dACQUIRE → exec (.dpllLocked true) s = .next (s.dpllB dLOCKED).followB)
    ∧ (s.rd F.WRS_STATUS_DPLLB_STATE ≠ dACQUIRE → exec (.dpllLocked true) s = .next s)

/-- For a served write: CAD_CTRL.EN set with time set and Cadence off names the first tick at least 2 microseconds ahead,
without time set it is a configuration error, and cleared it stops ticks; CAD_PERIOD and CAD_PHASE are taken when Cadence is
off and they are in range and else change nothing but CFG_ERR with its event (a period's write first settles what the shapers
owe at the old one). A tick with Cadence on closes the interval, sets CAD_TICK to the next number with RUNNING, and starts the
work of RUN or of LULL. PPS_OUT pulses at the next whole second under its conditions. A read of the last word of WRS_TSF pops
the two-step FIFO; one of WRS_TIME latches all four words. Recalibration, INTERVAL after the last, keeps its results with
those of other lanes for the next tick. (R36, R53, R60, R63, R64, R65, R73, R79.) -/
def Obligations.CadenceAndTimeOutputsFollowTheirRules : Prop :=
  ∀ (s : State),
    (s.serves R.CAD_CTRL.addr →
      (∀ v : Word, v.getLsbD 0 = true →
        (s.rd F.WRS_STATUS_TIME_SET ≠ 0 → s.rd F.CAD_CTRL_EN = 0 → let u := s.wr F.CAD_CTRL_EN 1
          exec (.cadEnWrite v) s = .next { u with tb := { u.tb with nextTick := u.tickFrom (u.t16 + 2000 * 65536) } })
        ∧ (s.rd F.WRS_STATUS_TIME_SET = 0 → exec (.cadEnWrite v) s = .next ((s.wr F.CAD_STATUS_CFG_ERR 1).raise (eg 2 9))))
      ∧ (∀ v : Word, v.getLsbD 0 = false →
        exec (.cadEnWrite v) s = .next ((s.thaw.wr F.CAD_CTRL_EN 0).wr F.CAD_STATUS_RUNNING 0))
      ∧ (∀ v : Word, v.getLsbD 0 = true → s.rd F.WRS_STATUS_TIME_SET ≠ 0 → s.rd F.CAD_CTRL_EN ≠ 0 → exec (.cadEnWrite v) s = .next s))
    ∧ (∀ v : Word, s.serves R.CAD_PERIOD.addr → let n := v.toNat % 2 ^ 20
      let u := s.shpSettle
      let good := u.rd F.CAD_CTRL_EN = 0 ∧ 250 ≤ n ∧ n ≤ 1000000 ∧ u.rd F.CAD_PHASE_PHASE < n
      (good → exec (.cadPeriodWrite v) s = .next (u.wr F.CAD_PERIOD_PERIOD n))
      ∧ (¬good → exec (.cadPeriodWrite v) s = .next ((u.wr F.CAD_STATUS_CFG_ERR 1).raise (eg 2 9))))
    ∧ (∀ v : Word, s.serves R.CAD_PHASE.addr → let n := v.toNat % 2 ^ 20
      let good := s.rd F.CAD_CTRL_EN = 0 ∧ n < s.rd F.CAD_PERIOD_PERIOD
      (good → exec (.cadPhaseWrite v) s = .next (s.wr F.CAD_PHASE_PHASE n))
      ∧ (¬good → exec (.cadPhaseWrite v) s = .next ((s.wr F.CAD_STATUS_CFG_ERR 1).raise (eg 2 9))))
    ∧ (s.rd F.CAD_CTRL_EN ≠ 0 → s.inMode mDORMANT = false →
      let c := s.closeInterval
      let u := c.issueTick
      let x := { u with ev := { u.ev with open_ := some u.tick } }.newTick.calApply
      u.tick = c.tb.nextTick % 2 ^ 64 ∧ u.tb.nextTick = c.tb.nextTick + 1 ∧ u.rd F.CAD_STATUS_RUNNING = 1
      ∧ (x.inMode mRUN = true → exec .tick s = .next (x.runTick u.tick).thaw)
      ∧ (x.inMode mLULL = true → exec .tick s = .next (x.galTicks [0]).thaw)
      ∧ (x.inMode mRUN = false → x.inMode mLULL = false → exec .tick s = .next x.thaw))
    ∧ (∀ n : Fin 2, (s.inMode mRUN = true ∨ s.inMode mLULL = true) → s.rd (F.WRS_PPS_OUT_EN.at n.val) ≠ 0 →
      s.rd F.WRS_STATUS_TIME_SET ≠ 0 →
      let sec := (s.ns + (10 ^ 9 - 1)) / 10 ^ 9
      let u := s.advanceTo (sec * 10 ^ 9 * tuNs)
      exec (.ppsOutPulse n) s = .next (u.emit (.ppsOut n.val ((sec * 10 ^ 9 * 65536 : Int) +
        sx 16 (u.rd (F.WRS_PPS_OUT_OFFSET.at n.val)) * 2048) (max 1 (u.rd (F.WRS_PPS_OUT_WIDTH.at n.val))))))
    ∧ (s.serves (R.WRS_TSF.addr + 12) → ∃ t, exec .tsfPop s = .next t ∧ t.tsf = s.tsf.tail
      ∧ t.rd F.WRS_TSF_STATUS_LEVEL = (s.tsf.length - 1) % 2 ^ 13)
    ∧ (s.serves R.WRS_TIME.addr → ∃ t, exec .timeReadLatch s = .next t
      ∧ ∀ i < 4, t.rdw (R.WRS_TIME.addr + 4 * i) = (timeWords s.t16).getD i 0)
    ∧ (∀ l, s.inMode mDORMANT = false → s.rd F.WRS_CAL_EN ≠ 0 →
      let u := s.advanceUp (s.tb.calAt + s.rd F.WRS_CAL_INTERVAL * 10 ^ 6)
      let old := u.tb.calNext.filter (fun c => !l.any (fun d => d.lane == c.lane))
      exec (.backgroundRecal l) s = .next { u.wrapInc F.WRS_CAL_STATUS_PASSES with
        tb := { u.tb with calNext := old ++ l, calAt := u.tb.up } })
    ∧ (∀ l, s.rd F.WRS_CAL_EN = 0 → exec (.backgroundRecal l) s = .next s)

/-- PORST_N asserted, a rail low or SYSCLK bad puts the machine in DORMANT: every register but the always-on ones (and
MOD_RSQ, MOD_STATUS and the life-cycle display) is at its reset value, the always-on ones and the non-volatile memory are
kept, and MOD_RSQ.COUNT is 0. When the last of the three start conditions comes true in DORMANT and the device is not
SCRAPPED, ASCENT starts at step 1; otherwise only the condition is noted. Each step of ASCENT ends at its time and starts the
next, a failing one leads to SAFEHOLD; steps 6 and 7 end at their time limits whatever their ports do, and steps 4, 6, 7 and 8
end only when what they wait for is there. TCXO_IN failing clears its REF_OK bit, and the DPLLs hold their last frequency (one
in FREERUN stays there: log entry 127). (R74, R75, R80, R81, R525, R526, R529.) -/
def Obligations.SuppliesAndAscentLeadToRun : Prop :=
  ∀ (s : State),
    (∀ c x, (c, x) ∈ [(Instr.porstAssert, { s with md := { s.md with porst := false } }),
        (.sysclkFail, { s with md := { s.md with sysclkBad := true } })] ∨
        (∃ i : Fin 7, c = .railUndervoltage i ∧ x = { s with md := { s.md with rails := setBit s.md.rails i.val } }) →
      ∃ t, exec c s = .next t ∧ t.mode = mDORMANT ∧ t.rd F.MOD_RSQ_COUNT = 0 ∧ t.nvm = s.nvm ∧ t.egr = [] ∧ t.gal = []
        ∧ t.md.porst = x.md.porst ∧ t.md.rails = x.md.rails ∧ t.md.sysclkBad = x.md.sysclkBad
        ∧ (∀ a, a ∉ coldKept → a ≠ F.MOD_STATUS_MODE.addr → a ≠ F.KPR_STATUS_LC.addr → t.rdw a = regReset a)
        ∧ (∀ a ∈ coldKept, a ≠ R.MOD_RSQ.addr → t.rdw a = s.rdw a))
    ∧ (∀ c x, (c, x) ∈ [(Instr.porstRelease, { s with md := { s.md with porst := true } }),
        (.sysclkStable, { s with md := { s.md with sysclkBad := false } })] ∨
        (∃ i : Fin 7, c = .railInRange i ∧
          x = { s with md := { s.md with rails := if bitN s.md.rails i.val then s.md.rails - 2 ^ i.val else s.md.rails } }) →
      let starts := x.mode = mDORMANT ∧ x.md.porst = true ∧ x.md.rails = 0 ∧ x.md.sysclkBad = false ∧ x.lc ≠ lcSCRAP
      (starts → exec c s = .next (x.startAscent 1 false)) ∧ (¬starts → exec c s = .next x))
    ∧ (s.inMode mASCENT = true → ∀ e : StepEnv,
      (s.ascStep = 1 → let u := (s.ascTime 1 e.us).flashStart
        exec (.ascentStepDone e) s = .next (match u.delriStart with
          | some x => (x.ascBegin 2).bistStart
          | none => u.safehold 1 1 3 false))
      ∧ (s.ascStep = 2 → let r := (s.ascTime 2 e.us).bistDone e;
        exec (.ascentStepDone e) s = .next (if r.2 then r.1.safehold 1 2 3 false else (r.1.ascBegin 3).wr F.BIS_STATUS_PHASE 4))
      ∧ (s.ascStep = 3 → let r := (s.ascTime 3 e.us).hbmDone e;
        exec (.ascentStepDone e) s = .next (if r.2 then r.1.safehold 1 3 3 false else (r.1.ascBegin 4).step4Start))
      ∧ (s.ascStep = 4 → (∀ g < 8, s.galState g = gSERVICE) →
        exec (.ascentStepDone e) s = .next ((s.ascTime 4 e.us).fwStarted.revertNotice.ascBegin 5))
      ∧ (s.ascStep = 5 → let r := (s.ascTime 5 e.us).configDone e;
        exec (.ascentStepDone e) s = .next (if r.2 then r.1.linesStart else r.1))
      ∧ (s.ascStep = 6 → (∀ p < 144, s.inUse p = true → s.adminUp p = true → s.link p = true) →
        exec (.ascentStepDone e) s = .next (s.ascTime 6 e.us).tethersStart)
      ∧ (s.ascStep = 7 → s.link 144 = true → s.link 145 = true → exec (.ascentStepDone e) s = .next ((s.ascTime 7 e.us).ascBegin 8))
      ∧ (s.ascStep = 8 → s.running = true → exec (.ascentStepDone e) s = .next (s.ascTime 8 e.us).declareRun)
      ∧ ((s.ascStep = 4 ∧ ∃ g < 8, s.galState g ≠ gSERVICE) ∨
          (s.ascStep = 6 ∧ ∃ p < 144, s.inUse p = true ∧ s.adminUp p = true ∧ s.link p = false) ∨
          (s.ascStep = 7 ∧ (s.link 144 = false ∨ s.link 145 = false)) ∨ (s.ascStep = 8 ∧ s.running = false) →
        exec (.ascentStepDone e) s = .next s)
      ∧ (s.ascStep = 6 → exec .lineStartTimeout s = .next (s.ascTime 6 3000000).tethersStart)
      ∧ (s.ascStep = 7 → exec .tetherStartTimeout s = .next ((s.ascTime 7 500000).ascBegin 8)))
    ∧ (s.inMode mDORMANT = false → s.md.sysclkBad = false → exec .tcxoFail s =
      .next (({ s with md := { s.md with tcxoBad := true } }.refSee 4 (some s.tb.up)).setRef 4 false).holdLast)

/-- Outside DORMANT: a command that a SAFEHOLD of the same cycle overtakes completes with code 8, one that is refused with its
code, one outside 1 to 5 with code 11. An accepted LULL or RESTART for a tick pends, named for that tick or late for the next;
an accepted one at once, with no transition in progress, starts LULL entry, wakes, enters PROBE, restarts or enters SAFEHOLD;
during a transition SAFEHOLD waits for its end. A pending command is carried out once its tick has been issued. A RESTART
accepted in SAFEHOLD clears MOD_RSQ.COUNT; one carried out elsewhere, and PROBE, let the bypasses fall first. What has led to
SAFEHOLD carries on a life-cycle return that waits for it. LULL entry completes, wake sources that are enabled act, wake steps
end in RUN, GAL0 returns to its program and 600 s of RUN clear MOD_RSQ.COUNT. (R75, R76, R77, R88, R89, R92, R93, R94, R101,
R501.) -/
def Obligations.ModeCommandsFollowTheirRules : Prop :=
  ∀ (s : State),
    (s.inMode mDORMANT = false →
      let fin (c : Nat) (u : State) : State := if c = 5 then u.returnGo else u
      let counted (c : Nat) : State := if c = 4 ∧ s.inMode mSAFEHOLD then s.wr F.MOD_RSQ_COUNT 0 else s
      (∀ at_ o, ∀ x ∈ [(Instr.lull at_ o, 1, at_), (.wake o, 2, false), (.probe o, 3, false), (.restart at_ o, 4, at_),
          (.safehold o, 5, false)],
        (o = true → exec x.1 s = .next (fin x.2.1 ((if x.2.1 = 2 then s.wakeNote 0 else s).modResult x.2.1 8 false)))
        ∧ (o = false → s.modRefuse x.2.1 x.2.2 ≠ 0 →
          exec x.1 s = .next (fin x.2.1 (s.modResult x.2.1 (s.modRefuse x.2.1 x.2.2) false))))
      ∧ (∀ c : BitVec 4, c = 0 ∨ 5 < c.toNat → exec (.modCmdUnknown c) s = .next (s.modResult c.toNat 11 false))
      ∧ (∀ x ∈ [(Instr.lull true false, 1), (.restart true false, 4)], s.modRefuse x.2 true = 0 →
        let u := counted x.2
        let n := u.rd64 R.MOD_CMD_TICK
        let late := decide (n < u.tb.nextTick)
        exec x.1 s = .next ({ u with md := { u.md with pend := some ⟨x.2, some (if late then u.tb.nextTick else n), late⟩ } }.wr
          F.MOD_STATUS_CMD_PEND 1))
      ∧ (let ready (c : Nat) : State := { counted c with md := { (counted c).md with pend := none } }.wr F.MOD_STATUS_CMD_PEND 0
        (s.modRefuse 2 false = 0 → exec (.wake false) s = .next (((ready 2).wake 0).modResult 2 0 false))
        ∧ (s.rd F.MOD_STATUS_PHASE = 0 →
          (s.modRefuse 1 false = 0 → exec (.lull false false) s = .next ((ready 1).lullEnter ⟨1, none, false⟩))
          ∧ (s.modRefuse 3 false = 0 → ∃ t, exec (.probe false) s = .next t ∧ t.md.probe = 2 ∧ t.mode = mPROBE ∧ t.egr = []
            ∧ t.sq.q = [] ∧ t.rd F.MOD_CMD_RESULT_CODE = 0 ∧ t.rd F.MOD_CMD_RESULT_CMD = 3)
          ∧ (s.modRefuse 4 false = 0 → let u := ready 4
            let w := if u.inMode mSAFEHOLD then u else (u.bypShut 0).bypShut 1
            exec (.restart false false) s = .next ((((w.bypWait 0).bypWait 1).startAscent 4 false).modResult 4 0 false))
          ∧ (s.modRefuse 5 false = 0 →
            exec (.safehold false) s = .next (((ready 5).modResult 5 0 false).safehold 5 0 4 false).returnGo))
        ∧ (s.rd F.MOD_STATUS_PHASE ≠ 0 → ∀ x ∈ [(Instr.probe false, 3), (.restart false false, 4), (.safehold false, 5)],
          s.modRefuse x.2 false = 0 → exec x.1 s = .next (fin x.2
            ({ counted x.2 with md := { (counted x.2).md with pend := some ⟨x.2, none, false⟩ } }.wr F.MOD_STATUS_CMD_PEND 1)))))
    ∧ (∀ p n, s.md.pend = some p → p.tick = some n → n < s.tb.nextTick → s.running = true → s.rd F.MOD_STATUS_PHASE = 0 →
      exec .modCmdTickDue s = .next (s.modCarry p))
    ∧ (∀ p, s.md.lullCmd = some p → exec .lullEntryComplete s = .next s.lullEntered.transEnded.returnGo)
    ∧ (let u := { s with md := { s.md with wakeLow := true } }
      (u.rd F.MOD_LULL_CFG_WAKE_PIN_EN ≠ 0 → exec (.wakePin true) s = .next (u.wake 1))
      ∧ (u.rd F.MOD_LULL_CFG_WAKE_PIN_EN = 0 → exec (.wakePin true) s = .next u)
      ∧ exec (.wakePin false) s = .next { s with md := { s.md with wakeLow := false } })
    ∧ (s.rd F.MOD_LULL_CFG_WAKE_TICK_EN ≠ 0 → s.running = true → s.rd64 R.MOD_WAKE_TICK ≤ s.tick → exec .wakeTick s = .next (s.wake 4))
    ∧ (s.inMode mLULL = true → s.rd F.MOD_STATUS_PHASE = 2 →
      let a := s.wakeDomains
      let held := a.galHolds 0 + a.galIn.length
      let b := if held = 0 then a else (a.galCnt 0 0x20 held).galEvt 0 F.GAL_EVT_DRAIN_DROP
      let c := ((({ b with galIn := [] }.galOff 0).steer 0 true).wr F.MOD_STATUS_PHASE 0).wr F.MOD_STATUS_DP_READY 1
      let d := { c.wr F.MOD_STATUS_MODE mRUN with md := { c.md with runAt := some c.tb.up } }
      let e := d.trans 5 mLULL mRUN d.transTick
      let f := (e.patLate.tsiWake.pmCatchUp true (e.ns / 10 ^ 9)).framersStart
      exec .lullExitComplete s =
        .next (foldS (List.range 144) (fun p s => if s.inUse p then s.startAttempt p else s) f).transEnded.returnGo)
    ∧ (s.inMode mRUN = true →
      (s.rd (F.GAL_STATUS_STEERED.at 0) ≠ 0 → s.galState 0 = gOFF → s.bist.gt = none →
        exec .gal0Return s = .next ((s.hrdReclaim 0).loadGal 0 (engProg s.kpr.eng 0)))
      ∧ (∀ n, s.md.runAt = some n → let u := (s.advanceUp (n + 600 * 10 ^ 9)).wr F.MOD_RSQ_COUNT 0
        exec .rsqCountClear s = .next { u with md := { u.md with runAt := none } }))

/-- A served write of MOD_BYP_CTRL stores its fields and closes, or lets start, each bypass it concerns. In LOOP_CHECK with
the loop link up SETTLE leads to OPENING in RUN and LULL; RELINK without a link counts a failure and leads to BACKOFF; RETRY
leads back to LOOP_CHECK; the hold after a fall ends (5 ms is the model's choice for it, log entry 12). A Keeper failure
restarts the machine up to three times and then leads to SAFEHOLD; in SAFEHOLD it only takes the Keeper down. Passage replays
raise their event, sixteen failures lead to SAFEHOLD. Thermal readings show per sensor, and a trip leads to SAFEHOLD; it ends
1 s after all sensors are cool. A TAP instruction takes effect where the life-cycle state permits it, and is else BYPASS (log
entry 71); the end of clearing memories changes nothing more (log entry 114). (R20, R86, R95, R96, R97, R511, R534, R540,
R542.) -/
def Obligations.BypassesFailuresAndSensorsFollowTheirRules : Prop :=
  ∀ (s : State),
    (∀ v, s.serves R.MOD_BYP_CTRL.addr → let u := s.hostPut R.MOD_BYP_CTRL.addr v
      exec (.bypCtrlWrite v) s = .next (State.bypCtrlWritten s (State.bypCtrlWritten s u 0) 1))
    ∧ (∀ n : Fin 2,
      (∀ t, (s.bypTimers n.val).loopUp = some t → s.byp n.val = bLOOP_CHECK → (s.inMode mRUN = true ∨ s.inMode mLULL = true) →
        s.link (144 + n.val) = true →
        exec (.bypSettleExpired n) s = .next ((s.advanceUp (t + s.rd F.MOD_BYP_CTRL_SETTLE * 10 ^ 7)).bypEnter n.val bOPENING))
      ∧ (s.byp n.val = bOPENING → exec (.bypRelinkTimeout n) s =
        .next (((s.advanceUp ((s.bypTimers n.val).since + s.rd F.MOD_BYP_CTRL_RELINK * 10 ^ 6)).satInc (fBypFails n.val)).bypEnter n.val
          bBACKOFF))
      ∧ (s.byp n.val = bBACKOFF → exec (.bypRetryExpired n) s =
        .next ((s.advanceUp ((s.bypTimers n.val).since + s.rd F.MOD_BYP_CTRL_RETRY * 10 ^ 9)).bypEnter n.val bLOOP_CHECK))
      ∧ (∀ t, (s.bypTimers n.val).hold = some t → let u := (s.advanceUp (t + 5 * 10 ^ 6)).bypT n.val (fun t => { t with hold := none })
        exec (.bypHoldExpired n) s = .next (if u.inMode mRUN || u.inMode mLULL then u else u.tetherTx n.val false)))
    ∧ (s.inMode mDORMANT = false → ∀ x ∈ [(Instr.lockstepMiscompare, 1), (.watchdogExpiry, 2)],
      let u := s.wr F.MOD_STATUS_KEEPER_UP 0
      let d := ((((((u.bypEnter 0 bCLOSED).bypEnter 1 bCLOSED).linesOff).tetherTx 0 false).tetherTx 1 false).wr F.MOD_RSQ_LAST_CAUSE x.2)
      (u.inMode mSAFEHOLD = true → exec x.1 s = .next { u with md := { u.md with held := true } })
      ∧ (u.inMode mSAFEHOLD = false →
        (d.rd F.MOD_RSQ_COUNT < 3 → exec x.1 s = .next ((d.wr F.MOD_RSQ_COUNT (d.rd F.MOD_RSQ_COUNT + 1)).startAscent 7 true))
        ∧ (3 ≤ d.rd F.MOD_RSQ_COUNT → let h := d.safehold 2 x.2 8 true
          exec x.1 s = .next { h with md := { h.md with held := true } })))
    ∧ (s.inMode mDORMANT = false → s.inMode mLULL = false →
      exec (.flitReplay 0) s = .next ({ s with md := { s.md with replayTm := s.md.replayTm + 1 } }.raise (eg 15 5))
      ∧ exec (.flitReplay 1) s = .next ({ s with md := { s.md with replayFe := s.md.replayFe + 1 } }.raise (eg 15 5)))
    ∧ (∀ d : Fin 2, (s.rd F.MOD_STATUS_PHASE = 0 → exec (.passageFail d) s = .next (s.safehold 3 d.val 10 false).returnGo)
      ∧ (s.rd F.MOD_STATUS_PHASE ≠ 0 → exec (.passageFail d) s = .next { s with md := { s.md with passWait := some d.val } }.returnGo))
    ∧ exec .memClearDone s = .next s
    ∧ (∀ l : List (Fin 16 × BitVec 16),
      let r := l.map (fun x => (x.1.val, x.2.toNat))
      let u := foldS r (fun x s => s.sensorRead x.1 x.2) s
      let temp (i : Nat) : Nat := u.rd (F.MOD_THERM_TEMP_TEMP.at i)
      let cool := ∀ i < 16, tempBad (temp i) = true ∨ tempOf (temp i) < 776
      ∃ hot since, (∀ i < 16, bitN hot i = if i ∈ r.map (·.1) then u.sensorHot i else bitN s.md.hot i)
        ∧ (cool → since = some (u.md.coolAt.getD u.tb.up)) ∧ (¬cool → since = none)
        ∧ let x := { u with md := { u.md with hot := hot, coolAt := since } }
        (u.tripSensor s.md.hot (r.map (·.1)) = none → exec (.thermalReading l) s = .next x.returnGo)
        ∧ (∀ i, u.tripSensor s.md.hot (r.map (·.1)) = some i → exec (.thermalReading l) s = .next
          ((if x.on F.MOD_THERM_STATUS_TRIP then x else (x.wr F.MOD_THERM_STATUS_TRIP 1).raise (eg 3 8)).safehold 4 i 9 false).returnGo))
    ∧ (∀ (i : Fin 16) (v : BitVec 16), (s.sensorRead i.val v.toNat).rd (F.MOD_THERM_TEMP_TEMP.at i.val) =
      if s.sensorOn i.val then v.toNat else 0x8000)
    ∧ (∀ t, s.md.coolAt = some t → s.rd F.MOD_THERM_STATUS_TRIP ≠ 0 →
      exec .thermTripRelease s = .next ((s.advanceUp (t + 10 ^ 9)).wr F.MOD_THERM_STATUS_TRIP 0))
    ∧ (∀ i, (s.tapMay i = false → exec (.tapInstruction i) s = .next { s with tap := .bypass })
      ∧ (s.tapMay i = true → i ≠ .idcode → exec (.tapInstruction i) s = .next { s with tap := i })
      ∧ exec (.tapInstruction .idcode) s = .next ({ s with tap := .idcode }.emit (.tdo 0x1288098F)))

/-- While the Keeper serves: a pending host request with its CODE is answered MBX_DENIED when the host may not make it, its
DENY bit is set or the life-cycle state forbids it, MBX_BAD_ARG when its header breaks a rule, and else with what the request
does; a request of a control core likewise, answered to the core, when field firmware runs and no request of the host's is
pending, and else waits behind that. A request that writes NVM and would succeed ends with MBX_NVM_ERROR, its event and no
other effect when the erase or program fails. The response carries the sequence number and, for the host, clears PENDING and
sets DONE; then waiting core requests are served. A permitted, well-formed request completes: GET_INFO gives its words (log
entry 69); GET_CHALLENGE gives a nonce of free values and drops the tokens; KEY_PROGRAM of the first slots writes the hash;
with the token each needs, which is used up, LC_PROVISION and LC_FIELD change the life-cycle state, LC_SCRAP changes it and
leads to SAFEHOLD, LC_RETURN with its two tokens changes it and goes on by SAFEHOLD to the erasure and a RESTART, KEY_REVOKE
revokes a slot while another is live, DEBUG_UNLOCK unlocks. (R103, R104, R105, R106, R107, R108, R121, R136, R137, R138.) -/
def Obligations.TheKeeperAnswersEveryRequest : Prop :=
  ∀ (s : State) (m : Mbx), s.kprServes = true →
    (let reqs : List (Instr × Nat × Bool × Bool × Bool × Bool × (Bytes → MbxAns)) := [
      (.kprGetInfo m, 0x01, true, true, true, false, fun _ => { s := s, status := mOK, pay := s.kprInfo }),
      (.imgBegin m, 0x02, true, true, true, true, s.imgBegin), (.imgData m, 0x03, true, true, true, true, s.imgData),
      (.imgEnd m, 0x04, true, true, true, true, fun _ => s.imgEnd), (.arm m, 0x05, true, true, true, true, s.imgArm),
      (.disarm m, 0x06, true, true, true, true, fun _ => s.imgDisarm), (.confirm m, 0x07, false, true, true, true, fun _ => s.imgConfirm),
      (.revert m, 0x08, true, true, true, true, fun _ => s.imgRevert),
      (.settingsUnreadable m, 0x09, false, true, true, true, fun _ => s.setUnreadable),
      (.settingsRead m, 0x0A, false, true, true, false, s.settingsRead),
      (.settingsWrite m, 0x0B, false, true, true, true, s.settingsWrite),
      (.getChallenge m, 0x0C, true, false, true, false, fun _ => s.getChallenge),
      (.lcProvision m, 0x0D, true, false, s.lc == lcBLANK || s.lc == lcRET, false, s.lcProvision),
      (.lcField m, 0x0E, true, false, s.lc == lcPROV, false, s.lcField),
      (.lcReturn m, 0x0F, true, false, s.lc == lcFIELD, false, s.lcReturn),
      (.lcScrap m, 0x10, true, false, s.lc != lcSCRAP, false, s.lcScrap),
      (.keyProgram m, 0x11, true, false, s.lc == lcPROV || s.lc == lcFIELD, false, s.keyProgram),
      (.keyRevoke m, 0x12, true, false, s.lc == lcPROV || s.lc == lcFIELD, false, s.keyRevoke),
      (.debugUnlock m, 0x13, true, false, s.lc == lcPROV || s.lc == lcRET, false, s.debugUnlock)]
    ∀ c code host fw lc nvm body, (c, code, host, fw, lc, nvm, body) ∈ reqs →
      let done (r : MbxAns) : MbxAns := match m.nvm with
        | some off => if nvm && decide (r.status = mOK) then { s := s.raise (eg 0 9), status := mNVM_ERROR, detail := off.toNat } else r
        | none => r
      (m.src = .host → s.rd F.KPR_MBX_STATUS_PENDING ≠ 0 → s.mbxWord 0 % 256 = code →
        let reply (r : MbxAns) : Out1 := .next (r.next (r.s.mbxRespond r.status r.detail r.pay)).mbxWaiting
        let may := host = true ∧ (s.rd F.KPR_CAP_MASK_DENY).testBit code = false ∧ lc = true
        (¬may → exec c s = reply { s := s, status := mDENIED })
        ∧ (may → s.mbxFormat = false → exec c s = reply { s := s, status := mBAD_ARG })
        ∧ (may → s.mbxFormat = true → exec c s = reply (done (body s.mbxPayload))))
      ∧ (∀ k q pay, m.src = .core k q pay → s.kpr.fwUp = true →
        (s.rd F.KPR_MBX_STATUS_PENDING = 0 →
          let reply (r : MbxAns) : Out1 := .next (r.next (r.s.mbxToCore k.val q.toNat r.status r.detail r.pay))
          let may := fw = true ∧ lc = true
          (¬may → exec c s = reply { s := s, status := mDENIED })
          ∧ (may → 4080 < pay.length → exec c s = reply { s := s, status := mBAD_ARG })
          ∧ (may → pay.length ≤ 4080 → exec c s = reply (done (body pay))))
        ∧ (s.rd F.KPR_MBX_STATUS_PENDING ≠ 0 → (∀ y ∈ s.kpr.wait, y.core ≠ k.val) → exec c s = .next { s with
          kpr := { s.kpr with wait := s.kpr.wait ++ [⟨k.val, q.toNat, code, pay, m.nvm⟩] } })))
    ∧ (m.src = .host → m.nvm = none → s.rd F.KPR_MBX_STATUS_PENDING ≠ 0 → s.mbxFormat = true →
      let asks (code : Nat) : Prop := s.mbxWord 0 % 256 = code ∧ (s.rd F.KPR_CAP_MASK_DENY).testBit code = false
      let answered (u : State) (pay : Bytes) : State := u.mbxRespond mOK 0 pay
      let used (l : List Bytes) : State := { s with kpr := { s.kpr with tokens := l } }
      (asks 0x01 → exec (.kprGetInfo m) s = .next (answered s s.kprInfo).mbxWaiting)
      ∧ (asks 0x0C → let n := (List.range 4).flatMap (fun i => leB 8 (Config.freeValue (s.free + i)).toNat)
        exec (.getChallenge m) s =
          .next (answered { s with free := s.free + 4, kpr := { s.kpr with nonce := n, tokens := [] } } n).mbxWaiting)
      ∧ (∀ i h, asks 0x11 → i < 4 → h < 2 ^ 384 → s.mbxPayload = leB 4 i ++ beB 48 h → s.lc = lcPROV →
        (∀ j < 4, (s.keySlot j).prog = false) →
        exec (.keyProgram m) s = .next (answered (s.keyUpd i (fun _ => ⟨true, false, h⟩)) []).mbxWaiting)
      ∧ (∀ t l, s.kpr.tokens = t :: l →
        let token (code : Nat) (ok : Nat → Bool) : Prop := s.tokenOk code s.mbxPayload ok t = true
        (asks 0x0D → s.lc = lcBLANK → token 0x0D isMaker →
          exec (.lcProvision m) s = .next (answered ((used l).setLc lcPROV) []).mbxWaiting)
        ∧ (asks 0x0D → s.lc = lcRET → s.rd F.KPR_LC_RETURNS < 3 → token 0x0D isMaker →
          let u := ((used l).wr F.KPR_LC_RETURNS (s.rd F.KPR_LC_RETURNS + 1))
          let v := (u.wr F.KPR_LC_OWNER_BANK (u.rd F.KPR_LC_OWNER_BANK + 1)).showKeys
          exec (.lcProvision m) s = .next (answered (v.setLc lcPROV) []).mbxWaiting)
        ∧ (asks 0x0E → s.lc = lcPROV → token 0x0E (s.isOwner none) →
          exec (.lcField m) s = .next (answered ((used l).setLc lcFIELD) []).mbxWaiting)
        ∧ (asks 0x10 → s.lc ≠ lcSCRAP → token 0x10 (if s.lc = lcFIELD then s.isOwner none else isMaker) →
          exec (.lcScrap m) s = .next ((answered ((used l).setLc lcSCRAP) []).keeperCmd 5).mbxWaiting)
        ∧ (∀ i, asks 0x12 → (s.lc = lcPROV ∨ s.lc = lcFIELD) → i < 4 → s.mbxPayload = leB 4 i → s.keyLive i = true →
          (∃ j < 4, j ≠ i ∧ s.keyLive j = true) → token 0x12 (s.isOwner (some i)) →
          exec (.keyRevoke m) s = .next (answered ((used l).keyUpd i (fun k => { k with revoked := true })) []).mbxWaiting)
        ∧ (asks 0x13 → (s.lc = lcPROV ∨ s.lc = lcRET) → token 0x13 isMaker →
          exec (.debugUnlock m) s = .next (answered ((used l).wr F.KPR_STATUS_MAKER_DBG 1) []).mbxWaiting)
        ∧ (∀ t' l', l = t' :: l' → asks 0x0F → s.lc = lcFIELD → token 0x0F isMaker →
          s.tokenOk 0x0F s.mbxPayload (s.isOwner none) t' = true →
          let x := (used l').setLc lcRET
          let u := answered { x with kpr := { x.kpr with returning := true } } []
          s.inMode mRUN = true ∨ s.inMode mSAFEHOLD = true →
          exec (.lcReturn m) s = .next (if u.inMode mRUN then (u.keeperCmd 5).returnGo else u.returnGo).mbxWaiting)))

/-- Permitted and well formed, of the host or of a core: IMG_BEGIN of an idle or staged type makes it IDLE, erases its
inactive slot and opens the transfer; IMG_DATA at the next offset appends; IMG_END of a complete image answers the code of its
verification and stages it, or keeps a token, when that is good; ARM of staged types outside a trial arms them COLD, or WARM
for its tick where they may; DISARM returns an armed set to STAGED; CONFIRM of a trial makes its slots active, raises the fuse
counters and moves the settings half; REVERT and SETTINGS_UNREADABLE answer and lead to the revert with reasons 5 and 2;
SETTINGS_READ of the live half gives the last value of the key; SETTINGS_WRITE appends to the live half outside a trial. An
expired window reverts with reason 1, and WINDOW_LOW rises 60 s before it ends. A set armed WARM starts its swap at its tick,
each step leads to the next, one that passes its maximum reverts with reason 6 and swaps back, and a swap back that does
restarts the device. (Payload layouts are the model's, log entry 69.) (R120, R122, R123, R124, R125, R126, R128, R130, R133,
R134, R489.) -/
def Obligations.KeeperRequestsAndSwapsHaveTheirEffects : Prop :=
  ∀ (s : State),
    (∀ (m : Mbx) (p : Bytes), s.kprServes = true → m.nvm = none → ∀ (ans : State → (State → State) → Bytes → Out1) (asks : Nat → Prop),
      (m.src = .host ∧ s.rd F.KPR_MBX_STATUS_PENDING ≠ 0 ∧ s.mbxFormat = true ∧ s.mbxPayload = p
        ∧ (∀ code, asks code = (s.mbxWord 0 % 256 = code ∧ code ∉ [0x07, 0x09, 0x0A, 0x0B]
          ∧ (s.rd F.KPR_CAP_MASK_DENY).testBit code = false))
        ∧ (∀ u f y, ans u f y = .next (f (u.mbxRespond mOK 0 y)).mbxWaiting))
      ∨ (∃ k q, m.src = .core k q p ∧ s.kpr.fwUp = true ∧ s.rd F.KPR_MBX_STATUS_PENDING = 0 ∧ p.length ≤ 4080
        ∧ (∀ code, asks code = True) ∧ (∀ u f y, ans u f y = .next (f (u.mbxToCore k.val q.toNat mOK 0 y)))) →
      (∀ k n, asks 0x02 → 1 ≤ k → k ≤ 4 → 0 < n → n ≤ imgMax k → (s.bcr.typ k).state < 2 → p = leB 4 k ++ leB 4 n →
        let u := (s.bcrWrite (s.bcr.upd k (fun t => { t with state := iIDLE }))).imgPut k (s.inactive k) []
        exec (.imgBegin m) s = ans { u with kpr := { u.kpr with rx := some { typ := k, total := n } } } id [])
      ∧ (∀ n, asks 0x02 → 0 < n → n ≤ imgMax 5 → p = leB 4 5 ++ leB 4 n →
        exec (.imgBegin m) s = ans { s with kpr := { s.kpr with rx := some { typ := 5, total := n } } } id [])
      ∧ (∀ rx d, asks 0x03 → s.kpr.rx = some rx → rx.data.length < 2 ^ 32 → d ≠ [] → rx.data.length + d.length ≤ rx.total →
        p = leB 4 rx.data.length ++ d →
        let u := { s with kpr := { s.kpr with rx := some { rx with data := rx.data ++ d } } }
        exec (.imgData m) s = ans (if rx.typ = 5 then u else u.imgPut rx.typ (s.inactive rx.typ) (rx.data ++ d)) id [])
      ∧ (∀ rx, asks 0x04 → s.kpr.rx = some rx → rx.data.length = rx.total → s.verify rx.typ rx.data = 0 →
        let u := { s with kpr := { s.kpr with rx := none } }
        (rx.typ ≠ 5 →
          exec (.imgEnd m) s = ans ((u.bcrWrite (u.bcr.upd rx.typ (fun t => { t with state := iSTAGED }))).raise (eg 0 10)) id [])
        ∧ (rx.typ = 5 → s.kpr.tokens.length < 2 →
          exec (.imgEnd m) s = ans { u with kpr := { u.kpr with tokens := s.kpr.tokens ++ [rx.data] } } id []))
      ∧ (∀ set mode x, asks 0x05 → 0 < set → set < 16 → x.length = 12 → p = leB 4 set ++ leB 4 mode ++ x →
        s.trialSet = 0 → s.armedSet 1 = 0 → s.armedSet 2 = 0 →
        (∀ i < 4, set.testBit i = true → (s.bcr.typ (i + 1)).state = iSTAGED) →
        let u := s.bcrWrite (s.bcr.updSet set (fun t => { t with state := iARMED, armMode := mode }))
        let armed (t : Option Nat) : State := { u with kpr := { u.kpr with armTick := t } }
        (mode = 1 → exec (.arm m) s = ans (armed none) id [])
        ∧ (mode = 2 → s.warmOk = true → (∀ i < 4, set.testBit i = true → (i = 1 ∨ i = 2) ∧
            leN (s.imgAt (i + 1) (s.inactive (i + 1))) 0x0E 2 % 2 = 1) →
          exec (.arm m) s = ans (armed (if leN x 0 4 = 0 then none else some (max (leN x 4 8) u.tb.nextTick))) id []))
      ∧ (∀ set, asks 0x06 → set = s.armedSet 1 + s.armedSet 2 → set ≠ 0 → s.kpr.swap = none →
        let u := s.bcrWrite (s.bcr.updSet set (fun t => { t with state := iSTAGED, armMode := 0 }))
        exec (.disarm m) s = ans { u with kpr := { u.kpr with armTick := none } } id [])
      ∧ (s.trialSet ≠ 0 →
        let b := s.bcr.updSet s.trialSet (fun t => { t with active := 1 - t.active % 2, state := iIDLE, armMode := 0 })
        let live := if s.half (1 - b.setLive) = [] then b.setLive else 1 - b.setLive
        let u := ((s.bcrWrite { b with setLive := live }).raiseSecVer s.trialSet).raise (eg 0 3)
        (asks 0x07 → exec (.confirm m) s = ans { u with kpr := { u.kpr with winEnd := none } } id [])
        ∧ (asks 0x08 → s.inMode mPROBE = false → exec (.revert m) s = ans s (fun x => x.revert s.trialSet 5) [])
        ∧ (asks 0x09 → exec (.settingsUnreadable m) s =
          ans ((s.bcrWrite { s.bcr with setFlags := 1 }).raise (eg 0 6)) (fun x => x.revert s.trialSet 2) []))
      ∧ (∀ k, asks 0x0A → k < 2 ^ 128 → p = leB 16 k ++ leB 4 0 → exec (.settingsRead m) s = ans s id
        (match (s.half s.bcr.setLive).reverse.find? (fun r => r.1 == k) with | some r => r.2 | none => []))
      ∧ (∀ k v, asks 0x0B → k < 2 ^ 128 → v.length ≤ 4064 → p = leB 16 k ++ v → s.trialSet = 0 →
        halfBytes (s.half s.bcr.setLive ++ [(k, v)]) ≤ halfMax →
        exec (.settingsWrite m) s = ans (s.halfPut s.bcr.setLive (s.half s.bcr.setLive ++ [(k, v)])) id []))
    ∧ (s.trialSet ≠ 0 → ∀ t, s.kpr.winEnd = some t →
      (let w := s.advanceUp t;
        exec .confirmWindowExpired s = .next (w.revert w.trialSet 1))
      ∧ (s.tb.up ≤ t - 60 * 10 ^ 9 → exec .windowLow s = .next ((s.advanceUp (t - 60 * 10 ^ 9)).raise (eg 0 11))))
    ∧ (s.kprServes = true → s.inMode mRUN = true → s.kpr.swap = none → s.armedSet 2 ≠ 0 →
      (s.kpr.armTick = none ∨ ∃ t, s.kpr.armTick = some t ∧ s.running = true ∧ t ≤ s.tick) →
      let w : Swap := { step := 1, back := false, set := s.armedSet 2, start := s.tb.up }
      exec .warmSwapStart s = .next (({ s with kpr := { s.kpr with armTick := none } }.swapAt w).swapShow true))
    ∧ (∀ w, s.kpr.swap = some w →
      (w.step = 1 → exec .warmSwapStepDone s = .next (s.swapVerified w))
      ∧ (w.step = 2 → exec .warmSwapStepDone s = .next (s.swapPrepared w))
      ∧ (w.step = 3 → let u := s.showSecVer 2 s.kpr.fw
        exec .warmSwapStepDone s = .next ({ u with kpr := { u.kpr with fwUp := true } }.swapAt { w with step := 4 }))
      ∧ (w.step = 4 → exec .warmSwapStepDone s = .next
        ((if w.back then s.fwStarted.revertNotice else s.fwStarted).swapGal w 0))
      ∧ (w.step = 5 → s.galState w.gal = gSERVICE →
        exec .warmSwapStepDone s = .next (s.swapGal { w with done := w.done + 1 } (w.gal + 1)))
      ∧ w.max = (if w.step = 1 then 250 else if w.step = 2 then 270 else if w.step = 3 then 330 else if w.step = 4 then 900
        else (if w.has 2 then 900 else 250) + 110 * (w.done + 1))
      ∧ (let u := s.advanceUp (w.start + w.max * 10 ^ 6)
        (w.back = true → exec .swapStepTimeout s = .next (u.keeperCmd 4))
        ∧ (w.back = false → exec .swapStepTimeout s =
          .next ((u.bcrRevert w.set 6).swapBack w.set (decide (w.step ≠ 1)) (w.has 2 && decide (3 ≤ w.step))))))

/-- Of a port in use: a lost condition shows in its status bit, aborts the frame in transmission if the raw state was up, and
with LINK up makes it fall at once when DOWN_HOLD is 0 and else starts DOWN_HOLD; all conditions holding again clear the bits,
set the delays of every lane of the port and, with ADMIN_UP, end DOWN_HOLD, or raise LINK at once when UP_HOLD is 0, or start
UP_HOLD; frames of the control cores that waited then leave. Each hold that expires moves LINK. A served write of ADMIN_UP 0
switches the port off, one of 1 starts it. A running attempt ends at tUP or tUP_AN and waits; tRETRY after it, or at a partner
signal, the next begins; auto-negotiation sets AN_DONE or AN_FAIL with its event. (R145, R148, R149, R150, R59.) -/
def Obligations.LinksFollowCausesFiltersAndAttempts : Prop :=
  ∀ (s : State) (p : Fin 146),
    let n := p.val
    (s.inUse n = true →
      (∀ c : LinkCause,
        let u := match c with
          | .alignment => s.wr (F.LPT_STATUS_ALIGNED.at n) 0
          | .hiBer => (s.wr (F.LPT_STATUS_HI_BER.at n) 1).portEvt n F.LPT_EVT_HI_BER
          | .localFault => s.wr (F.LPT_STATUS_LF.at n) 1
          | .remoteFault => s.wr (F.LPT_STATUS_RF.at n) 1
        let x := (u.txAbort n).pstUpd n (fun x => { x with upAt := none, planned := [] })
        (s.rawUp n = false → exec (.linkRawDown p c) s = .next u)
        ∧ (s.rawUp n = true →
          (x.link n = false → exec (.linkRawDown p c) s = .next x)
          ∧ (x.link n = true → x.rd (F.LPT_LINK_CFG_DOWN_HOLD.at n) = 0 → exec (.linkRawDown p c) s = .next (x.linkFalls n))
          ∧ (x.link n = true → x.rd (F.LPT_LINK_CFG_DOWN_HOLD.at n) ≠ 0 →
            exec (.linkRawDown p c) s = .next (x.pstUpd n (fun y => { y with downAt := some x.tb.up })))))
      ∧ (∀ cal,
        let u := (((s.wr (F.LPT_STATUS_ALIGNED.at n) 1).wr (F.LPT_STATUS_HI_BER.at n) 0).wr (F.LPT_STATUS_LF.at n) 0).wr
          (F.LPT_STATUS_RF.at n) 0
        let x := u.measure n cal
        (x.adminUp n = false → exec (.linkRawUp p cal) s = .next (x.directPump n))
        ∧ (x.adminUp n = true →
          (x.link n = true → exec (.linkRawUp p cal) s = .next ((x.pstUpd n (fun y => { y with downAt := none })).directPump n))
          ∧ (x.link n = false → x.rd (F.LPT_LINK_CFG_UP_HOLD.at n) = 0 → exec (.linkRawUp p cal) s = .next ((x.linkRises n).directPump n))
          ∧ (x.link n = false → x.rd (F.LPT_LINK_CFG_UP_HOLD.at n) ≠ 0 →
            exec (.linkRawUp p cal) s = .next ((x.pstUpd n (fun y => { y with upAt := some x.tb.up })).directPump n)))))
    ∧ (∀ t, (s.pst n).downAt = some t → exec (.downHoldExpired p) s =
      .next ((s.advanceUp (t + s.rd (F.LPT_LINK_CFG_DOWN_HOLD.at n) * 10 ^ 6)).linkFalls n))
    ∧ (∀ t, (s.pst n).upAt = some t → exec (.upHoldExpired p) s =
      .next (((s.advanceUp (t + s.rd (F.LPT_LINK_CFG_UP_HOLD.at n) * 10 ^ 6)).linkRises n).directPump n))
    ∧ (∀ v, s.serves (R.LPT_CTRL.at n).addr → let u := s.hostPut (R.LPT_CTRL.at n).addr v
      (s.adminUp n = true → u.adminUp n = false → exec (.adminUpWrite p v) s = .next (((u.txAbort n).linkFalls n).pstUpd n
        (fun x => { x with txOn := false, att := .idle, downAt := none, upAt := none })))
      ∧ (s.adminUp n = false → u.adminUp n = true → let x := u.startAttempt n
        (x.rawUp n = false ∨ x.link n = true → exec (.adminUpWrite p v) s = .next x)
        ∧ (x.rawUp n = true → x.link n = false → exec (.adminUpWrite p v) s = .next (x.rawUpAgain n [])))
      ∧ (s.adminUp n = u.adminUp n → exec (.adminUpWrite p v) s = .next u))
    ∧ ((s.pst n).att = .running →
      exec (.portStartTimeout p) s = .next (let u := s.advanceUp ((s.pst n).attAt + (if s.usesAn n then 3 else 2) * 10 ^ 9)
        u.pstUpd n (fun x => { x with att := .waiting, attAt := u.tb.up, adapt := none }))
      ∧ (s.usesAn n = true → exec (.anComplete p true) s = .next (s.wr (F.LPT_STATUS_AN_DONE.at n) 1)
        ∧ exec (.anComplete p false) s = .next ((s.wr (F.LPT_STATUS_AN_FAIL.at n) 1).portEvt n F.LPT_EVT_AN_FAIL)))
    ∧ ((s.pst n).att = .waiting →
      exec (.portRetryExpired p) s = .next ((s.advanceUp ((s.pst n).attAt + 10 ^ 9)).startAttempt n)
      ∧ exec (.partnerSignal p) s = .next (s.startAttempt n))

/-- A frame whose first bit comes part/32 ns after the present time, at a line or tether port that receives: shorter than 64
bytes counts as RX short (index 3), longer than MAX_LEN as index 4, with a bad FCS as index 2, a PTP event message of a cut-
through port going on marked, while the port is not up as index 5, a PFC frame with PFC enabled is obeyed and another MAC
control frame is counted as index 6; any other good frame is delivered with the ingress stamp of its lane: on a line port
outside LULL counted and taken through the pipeline, or discarded (index 5) as a management frame, which on a tether port is
punted where that is enabled, and a tether port whose bypass is in use and not open discards. On a packet channel a bad or
control frame, and any before RUN, counts as discarded and a good one enters the pipeline. A pause timer that runs out is
removed at its end; waiting PFC changes go out in one frame, a standing XOFF is refreshed REFRESH after the last frame, and a
class paused for more than 100 ms raises PFC_STORM. (R38, R146, R147, R152, R153, R154, R156, R159, R173.) -/
def Obligations.FramesAreCheckedAndPfcIsServed : Prop :=
  ∀ (s : State),
    (∀ (r : State) (port : Fin 400) (lane : Fin 146) (f : Bytes) (e1 e2 : PassEnv) (part : Fin 32),
      let s := r.passPart part.val
      let n := port.val
      let b := f.take (f.length - 4)
      let l := s.portLane n lane.val
      let p : Pkt := { bytes := b, port := n, slice := s.portSlice n, stamp := s.ingressStamp l, stamped := true, lane := l }
      let c := Instr.frameReceive port lane f e1 e2 part
      (s.receives n = false → exec c r = .next s)
      ∧ (s.receives n = true → n < 146 →
        (f.length < 64 → exec c r = .next (s.lpt n 3))
        ∧ (64 ≤ f.length → s.rd (F.LPT_MAC_CFG_MAX_LEN.at n) < f.length → exec c r = .next (s.lpt n 4))
        ∧ (64 ≤ f.length → f.length ≤ s.rd (F.LPT_MAC_CFG_MAX_LEN.at n) →
          let up := s.adminUp n = true ∧ (s.inMode mRUN = true ∨ s.inMode mLULL = true)
          let event := ∃ h, ptpHdr (s.parse b).1 = some h ∧ ptpEvent b (s.parse b).1 h = true
          let through := event ∧ (s.ptpMode n = 3 ∨ s.ptpMode n = 4) ∧ s.adminUp n = true ∧ (s.lpt n 2).inMode mRUN = true
            ∧ (s.lpt n 2).byIdles n = false ∧ s.inMode mRUN = true
          (fcsGood f = false →
            (¬(event ∧ (s.ptpMode n = 3 ∨ s.ptpMode n = 4) ∧ up) → exec c r = .next (s.lpt n 2))
            ∧ (through → exec c r = .next ((s.lpt n 2).pipeline { p with badFcs := true } e1 e2)))
          ∧ (fcsGood f = true → ¬up → exec c r = .next (s.lpt n 5))
          ∧ (fcsGood f = true → up → etherType b = 0x8808 →
            (s.pfcOn n = true → isPfc b = true → exec c r = .next (s.pfcReceive n b p.stamp))
            ∧ (s.pfcOn n = false ∨ isPfc b = false → exec c r = .next (s.lpt n 6)))
          ∧ (fcsGood f = true → up → etherType b = 0x88B6 →
            (n < 144 → exec c r = .next (s.lpt n 5))
            ∧ (144 ≤ n → s.rd (F.LPT_CTRL_TMGMT_EN.at n) ≠ 0 → s.link n = true → beN b 0 6 = s.rd64 (R.LPT_STATION_ADDR.at n) →
              exec c r = .next (s.puntPacket 6 p)))
          ∧ (fcsGood f = true → up → etherType b ≠ 0x8808 → etherType b ≠ 0x88B6 →
            let u := ((s.lpt n 0).lpt n 1 (b.length + 4)).bwAdd n false b.length p.stamp
            (n < 144 → u.inMode mLULL = false → exec c r = .next (u.pipeline p e1 e2))
            ∧ (144 ≤ n → s.byIdles n = true → exec c r = .next (s.lpt n 5)))))
      ∧ (s.receives n = true → 146 ≤ n →
        let bad := f.length < 64 ∨ 9216 < f.length ∨ fcsGood f = false ∨ s.inMode mRUN = false ∨ etherType b = 0x8808
        (bad → exec c r = .next (s.pcCnt n true))
        ∧ (¬bad → exec c r = .next (((s.pcCnt n false).bwAdd n false b.length p.stamp).pipeline p e1 e2))))
    ∧ (∀ (p : Fin 146) (pri : Fin 8),
      let l := s.pauses.filter (fun x => x.port == p.val && x.pri == pri.val)
      l ≠ [] → let u := s.advanceTo (l.foldl (fun m x => max m x.stop) 0 * tuFrac)
      exec (.pfcPauseExpired p pri) s =
        .next ({ u with pauses := u.pauses.filter (fun x => !(x.port == p.val && x.pri == pri.val)) }.showPaused p.val))
    ∧ (∀ p : Fin 144, s.pfcOn p.val = true → s.mayStartFrame p.val = true →
      let x := s.pst p.val
      (x.pfcDue ≠ 0 ∨ x.pfcRel ≠ 0 → exec (.pfcFrameSend p) s = .next (s.sendPfc p.val (x.xoff &&& x.pfcDue) x.pfcRel))
      ∧ (x.xoff ≠ 0 → exec (.pfcRefresh p) s = .next ((s.advanceUp (x.pfcAt +
        max 1 (s.rd (F.LPT_PFC_REFRESH_REFRESH.at p.val)) * 1000)).sendPfc p.val x.xoff x.pfcRel)))
    ∧ (∀ (p : Fin 144) (t : Fin 8) a, s.pausedSince p.val t.val = some a →
      let u := s.advanceTo ((a + 10 ^ 8 * 65536 + 1) * tuFrac)
      (u.paused p.val t.val = true → exec (.pfcStorm p t) s = .next (u.portEvt p.val F.LPT_EVT_PFC_STORM))
      ∧ (u.paused p.val t.val = false → exec (.pfcStorm p t) s = .next s))

/-- While the framer of an interface runs: a lane signal that changes sets or clears its dLOS bit with the event, and a loss
takes alignment and FAS out of lock; lane alignment, FAS and MFAS go into lock only below processes in lock and clear their
defects, a loss sets them; a slice offset from slice 1 shows in dLOFLOM of its instance, BDI and a packet channel's
maintenance signal begin and end; OOF or OOM, or its absence, that has lasted 3 ms sets or clears dLOF or dLOM. A TTI accepted
in multiframe is stored and decides dTIM by TIM_MODE. At the end of a second each end of each entity is evaluated, in the bins
it belongs to; at the closing instant the bins roll over. A write of OTN_PM_SEL copies the bin. TSI GO with nothing pending is
rejected with 3 when Cadence is stopped and with the code of the first bad entry, and else pends for its tick or late for the
next; each group copies its standby entries at the tick, and when all have the pages are equal again. (R163, R164, R166, R168,
R169, R171, R172, R177, R178.) -/
def Obligations.OtnSupervisionAndInterchangeFollowTheirRules : Prop :=
  ∀ (s : State),
    (∀ (g : Fin 18) (l : Fin 8) k, s.ifOfLane g.val l.val = some k → (s.oif g.val k).run = true →
      let f := ifc F.OTN_IF_STATUS_LANE_LOS g.val k
      let i := l.val - k
      (bitN (s.rd f) i = true →
        exec (.otnLaneSignal g l true) s = .next (((s.wr f (s.rd f - 2 ^ i)).raise (otnSrc g.val)).ifUp g.val k)
        ∧ exec (.otnLaneSignal g l false) s = .next s)
      ∧ (bitN (s.rd f) i = false →
        exec (.otnLaneSignal g l true) s = .next s
        ∧ exec (.otnLaneSignal g l false) s =
          .next ((((s.wr f (setBit (s.rd f) i)).raise (otnSrc g.val)).loseLane g.val k i).ifUp g.val k)))
    ∧ (∀ (g : Fin 18) (k : Fin 8),
      let h := g.val
      let j := k.val
      let x := s.oif h j
      let end_ (u : State) : Out1 := .next (u.ifUp h j)
      (x.run = false → ∀ p, exec (.otnAlignLock g k p) s = .next s ∧ exec (.otnAlignLoss g k p) s = .next s)
      ∧ (x.run = true →
        (∀ i, s.grpMode h ≠ 3 → (i < s.ifLanes h j → bitN (s.rd (ifc F.OTN_IF_STATUS_LANE_LOS h j)) i = false →
            exec (.otnAlignLock g k (.lane i)) s = end_ ((s.oifUpd h j (fun x => { x with am := setBit x.am i })).showLof h j))
          ∧ (bitN x.am i = true → exec (.otnAlignLoss g k (.lane i)) s = end_ (s.loseLane h j i)))
        ∧ (s.grpMode h = 3 →
          (s.lanesOk h j = true → exec (.otnAlignLock g k .laneMarkers) s =
            end_ ((s.oifUpd h j (fun x => { x with lol := true })).defect h j F.OTN_IF_STATUS_LOL false))
          ∧ (x.lol = true → exec (.otnAlignLoss g k .laneMarkers) s = end_ (s.loseLane h j 0)))
        ∧ (s.aboveFas h j = true → exec (.otnAlignLock g k .fas) s = end_ (s.setFas h j true)
          ∧ (x.fas = true → exec (.otnAlignLock g k .mfas) s = end_ (s.setMfas h j true)))
        ∧ (s.aboveFas h j = false → exec (.otnAlignLock g k .fas) s = end_ s ∧ exec (.otnAlignLock g k .mfas) s = end_ s)
        ∧ (x.fas = true → exec (.otnAlignLoss g k .fas) s = end_ ((s.setFas h j false).setMfas h j false))
        ∧ (x.mfas = true → exec (.otnAlignLoss g k .mfas) s = end_ (s.setMfas h j false))
        ∧ (∀ i, s.sliceSeen h j i = true →
          exec (.otnAlignLoss g k (.slice i)) s = end_ ((s.oifUpd h j (fun x => { x with skew := setBit x.skew i })).showLof h j)
          ∧ exec (.otnAlignLock g k (.slice i)) s = end_ ((s.oifUpd h j (fun x =>
            { x with skew := if bitN x.skew i then x.skew - 2 ^ i else x.skew })).showLof h j))
        ∧ (x.fas = true → exec (.otnAlignLoss g k .bdi) s =
          end_ ((s.oifUpd h j (fun x => { x with farSeen := true })).defect h j F.OTN_IF_STATUS_BDI true))
        ∧ exec (.otnAlignLock g k .bdi) s = end_ (s.defect h j F.OTN_IF_STATUS_BDI false)
        ∧ (∀ c < 8, s.pcOn h c = true →
          exec (.otnAlignLoss g k (.maint c)) s = end_ (s.pcSet h c (fun x => { x with maint := true }))
          ∧ exec (.otnAlignLock g k (.maint c)) s = end_ (s.pcSet h c (fun x => { x with maint := false })))
        ∧ (let u := s.advanceUp (x.fasAt + 3 * 10 ^ 6)
          exec (.defectPersistence g k false) s = end_ (u.defect h j F.OTN_IF_STATUS_LOF (u.on (ifc F.OTN_IF_STATUS_OOF h j))))
        ∧ (let u := s.advanceUp (x.mfasAt + 3 * 10 ^ 6)
          exec (.defectPersistence g k true) s = end_ (u.defect h j F.OTN_IF_STATUS_LOM (u.on (ifc F.OTN_IF_STATUS_OOM h j)))))
      ∧ (∀ (i : Fin 16) tti, x.mfas = true →
        let u := s.wrBytes (ttiAddr h i.val + 0x80) 16 tti
        let tim := timOf (u.rd (ifc F.OTN_IF_CFG_TIM_MODE h j)) tti (u.rdBytes (ttiAddr h i.val) 8)
        (i.val = j → s.ifOn h j = true → exec (.ttiAccept g i tti) s = end_ (u.defect h j F.OTN_IF_STATUS_TIM tim))
        ∧ (8 ≤ i.val → s.pcOn h (i.val - 8) = true → s.rd (pcf F.OTN_PC_CFG_IF h (i.val - 8)) = j →
          exec (.ttiAccept g i tti) s = .next (u.pcSet h (i.val - 8) (fun x => { x with tim := tim })))))
    ∧ (s.inMode mDORMANT = false → s.inMode mLULL = false →
      (∀ obs, let t := s.nextSecond
        let u := s.advanceTo (t * 10 ^ 9 * tuNs)
        let v := u.pmCatchUp u.pmSus (t - 1)
        let late := decide (v.pmLate = some t)
        let day := v.dayCloses t
        ∃ w : State, exec (.pmSecondEnd obs) s = .next w.secBegin ∧ w.pmLast = t ∧ w.pmLate = none
          ∧ w.pm = v.pm.map (fun x => (x.1, if x.2.cur.valid then
            (x.2.second false (v.secOf obs x.1 false late day)).second true (v.secOf obs x.1 true late day) else x.2))
          ∧ { w with pm := v.pm, pmLast := v.pmLast, pmLate := v.pmLate } = v)
      ∧ (let u := s.advanceTo (s.pmNext * 10 ^ 9 * tuNs)
        exec .pmBinClose s = .next (u.pmCatchUp u.pmSus (u.ns / 10 ^ 9))))
    ∧ (∀ (g : Fin 18) (v : Word), s.serves (R.OTN_PM_SEL.at g.val).addr →
      ∃ t, exec (.pmSelWrite g v) s = .next t ∧ (bits v.toNat 15 8 < 16 → bits v.toNat 7 0 = 0 → ∀ i < 10,
        t.rdw ((R.OTN_PM_DATA.at g.val).addr + 4 * i) =
          BitVec.ofNat 32 ((mget (fun _ => ({} : PmEnt)) s.pm (g.val * 16 + bits v.toNat 15 8)).cur.words.getD i 0)))
    ∧ (∀ v : Word, s.serves R.TSI_CTRL.addr → let u := s.hostPut R.TSI_CTRL.addr (v ||| 1)
      u.rd F.TSI_STATUS_PENDING = 0 →
        (u.running = false → exec (.tsiGo v) s = .next (u.tsiReject 3 0))
        ∧ (u.running = true →
          (∀ e, (u.tsiPage R.TSI_STBY.addr).find? (fun e => u.tsiCheck e.1 e.2 != 0) = some e →
            exec (.tsiGo v) s = .next (u.tsiReject (u.tsiCheck e.1 e.2) e.1))
          ∧ ((u.tsiPage R.TSI_STBY.addr).find? (fun e => u.tsiCheck e.1 e.2 != 0) = none → ∃ t, exec (.tsiGo v) s = .next t
            ∧ t.rd F.TSI_STATUS_PENDING = 1 ∧ t.rd F.TSI_STATUS_ERR = 0
            ∧ t.tsi.tick = (if u.tickPassed (u.rd64 R.TSI_SW_TICK) then u.tb.nextTick else u.rd64 R.TSI_SW_TICK))))
    ∧ (∀ (g : Fin 18) (k : Fin 8), s.rd F.TSI_STATUS_PENDING ≠ 0 → s.tsi.left.contains (g.val * 8 + k.val) = true → s.running = true →
      s.inMode mLULL = false →
      let u := (s.advanceTo (s.tickNs s.tsi.tick * tuNs)).tsiCopy g.val k.val R.TSI_STBY.addr R.TSI_ACT.addr
      exec (.tsiGroupSwitch g k) s = .next { u with tsi := { u.tsi with left := u.tsi.left.filter (· ≠ g.val * 8 + k.val) } })
    ∧ (s.rd F.TSI_STATUS_PENDING ≠ 0 → s.tsi.left = [] → ∃ t, exec .tsiSwitchDone s = .next t ∧ t.rd F.TSI_STATUS_PENDING = 0
      ∧ t.rd F.TSI_STATUS_DONE = 1 ∧ t.rd64 R.TSI_SW_DONE_TICK = s.tsi.tick % 2 ^ 64
      ∧ (mwf regReset s.regs = true → ∀ d < 5760, t.rdw (R.TSI_STBY.at d).addr = s.rdw (R.TSI_ACT.at d).addr))

/-- A served indirect command of CLS or ACL with a slice in its mask: WRITE stores the image of IND_DATA in every slice named
unless it punts with a reason below 16; INVALIDATE clears VALID in each; READ shows the entry of the lowest slice; ACL STEP
shows the next verified match after the cursor or ends; READ_CNT shows the hit counter and clears it with clear-on-read; each
ends with its error code and DONE. Packets with no acting fault get their verdict from the entry that matches. A refill gives
every punt bucket RATE for each microsecond since the last, up to its ceiling. The ACL scrubber takes a queued row or the
next: a difference is rewritten, an uncorrectable copy counted, a lost entry invalidated. PAT LOAD checks an image and copies
it, LOAD reading 1 meanwhile; SWAP exchanges banks at once or, in RUN, at its tick; an instance under test keeps its bit
waiting. (R199, R200, R201, R202, R204, R257, R258, R261, R262, R271, R272, R519.) -/
def Obligations.ClassificationAclAndEchoTablesFollowTheirCommands : Prop :=
  ∀ (s : State),
    (∀ v, s.takes R.CLS_IND_CMD F.CLS_IND_STATUS_BUSY →
      (let u := s.cmdPut R.CLS_IND_CMD v 1 1
        let i := u.rd F.CLS_IND_CMD_INDEX
        let e := u.clsData
        u.rd F.CLS_IND_CMD_SLICE_MASK ≠ 0 →
          (bitN e.action 59 = true → bits e.action 58 53 < 16 → exec (.clsWrite v) s = .next (u.clsDone 1))
          ∧ (bitN e.action 59 = false ∨ 16 ≤ bits e.action 58 53 → exec (.clsWrite v) s =
            .next ((foldS (slicesOf (u.rd F.CLS_IND_CMD_SLICE_MASK)) (fun sl s => s.clsPut sl i e) u).clsDone 0)))
      ∧ (let u := s.cmdPut R.CLS_IND_CMD v 1 2
        u.rd F.CLS_IND_CMD_SLICE_MASK ≠ 0 → exec (.clsRead v) s = .next ((u.clsShow (mget (fun _ => {}) u.cls
          ((slicesOf (u.rd F.CLS_IND_CMD_SLICE_MASK)).headD 0 * 8192 + u.rd F.CLS_IND_CMD_INDEX))).clsDone 0))
      ∧ (let u := s.cmdPut R.CLS_IND_CMD v 1 3
        let i := u.rd F.CLS_IND_CMD_INDEX
        (u.rd F.CLS_IND_CMD_SLICE_MASK ≠ 0 → exec (.clsInvalidate v) s = .next ((foldS (slicesOf (u.rd F.CLS_IND_CMD_SLICE_MASK))
          (fun sl s => s.clsPut sl i { mget (fun _ => {}) s.cls (sl * 8192 + i) with valid := false }) u).clsDone 0))
        ∧ (u.rd F.CLS_IND_CMD_SLICE_MASK = 0 → exec (.clsInvalidate v) s = .next (u.clsDone 2))))
    ∧ (∀ v, s.takes R.ACL_IND_CMD F.ACL_IND_STATUS_BUSY → ∀ op, let u := s.cmdPut R.ACL_IND_CMD v 2 op
      let m := u.rd F.ACL_IND_CMD_SLICE_MASK
      let i := u.rd F.ACL_IND_CMD_INDEX
      let sl := (slicesOf m).headD 0
      let each (f : Nat → State → AclEnt) : State := (foldS (slicesOf m) (fun sl s => (s.aclSlot sl).aclPut sl i (f sl s)) u).wrapInc
        F.ACL_STATUS_WGEN
      m ≠ 0 →
        (op = 1 → bitN u.aclImage.action 62 = false ∨ 16 ≤ bits u.aclImage.action 61 56 →
          exec (.aclWrite v) s = .next ((each (fun _ _ => u.aclImage)).aclDone 0))
        ∧ (op = 2 → let x := u.aclEnt sl i
          exec (.aclRead v) s = .next ((((((u.aclSlot sl).aclWsSet 0 20 x.key).aclWsSet 20 20 x.mask).aclWsSet 41 2 x.action).aclWSet 40
            (b2n x.valid * 2 ^ 31 + x.prio)).aclDone 0))
        ∧ (op = 3 → exec (.aclInvalidate v) s = .next ((each (fun sl s => { s.aclEnt sl i with valid := false })).aclDone 0))
        ∧ (op = 4 → ∀ e, let r := (u.aclSlot sl).aclStep sl (u.aclWs 0 20) (aclCursor (u.aclW 43)) e
          (r.2.hit = none → exec (.aclStep v e) s = .next (r.1.aclDone 3))
          ∧ (∀ j x, r.2.hit = some (j, x) → exec (.aclStep v e) s = .next ((((r.1.aclWsSet 41 2 x.action).aclWSet 43
            (j * 2 ^ 16 + x.prio)).aclWSet 44 (r.1.rd F.ACL_STATUS_WGEN)).aclDone 0)))
        ∧ (op = 5 → let x := (u.aclWsSet 45 2 (mget (fun _ => 0) u.acl.hits (aclIx sl i))).aclDone 0
          (x.rd F.SVY_CNT_CFG_COR = 0 → exec (.aclReadCnt v) s = .next x)
          ∧ (x.rd F.SVY_CNT_CFG_COR ≠ 0 → exec (.aclReadCnt v) s =
            .next { x with acl := { x.acl with hits := mset (fun _ => 0) x.acl.hits (aclIx sl i) 0 } })))
    ∧ (∀ (p : Pkt) e, s.clsSearch p.slice (s.clsKey p.port p.bytes p.hdrs p.faults) = some e → s.faultVerdict p.faults = .forward →
      (bitN e.action 60 = true → (s.classify p).2.2 = .drop ∧ (s.classify p).1 = s.cnt (R.CLS_CNT.at p.slice) 0x08)
      ∧ (bitN e.action 60 = false → bitN e.action 59 = true → (s.classify p).2.2 = .punt (bits e.action 58 53))
      ∧ (bitN e.action 60 = false → bitN e.action 59 = false → (s.classify p).2.2 = .forward
        ∧ (bitN e.action 15 = true → (s.classify p).2.1.tc = bits e.action 14 12)
        ∧ (bitN e.action 52 = true → (s.classify p).1 = s.cnt (R.CLS_CNT.at p.slice) 0x18 ∧ (s.classify p).2.1.gal = true)))
    ∧ (s.punt.last ≤ s.puntInstant → let now : Bool := decide (s.tb.now % (1000 * tuNs) = 0) && decide (s.punt.last < s.puntInstant)
      let m := if now then s.puntInstant else s.puntInstant + 1
      ∃ t, exec .puntRefill s = .next t ∧ t.tb.now = m * (1000 * tuNs) ∧ t.punt.last = m
        ∧ ∀ k < 65, t.tokens k = min (s.tokens k + (m - s.punt.last) * (s.puntRate k).1) (s.puntRate k).2)
    ∧ (∀ (sl : Fin 8) (d : ScrubSees),
      let next := mget (fun _ => 0) s.acl.row sl.val
      let fix (s : State) : State := (s.aclSlot sl.val).cnt (R.ACL_CNT.at sl.val) 0x28
      let found (queued : Bool) (i : Nat) (s : State) : State :=
        match d with
        | .same => if queued then fix s else s
        | .differs => fix s
        | .copyUe => s.uncorrected i
        | .lost => (s.uncorrected i).aclLost sl.val i
      (s.rd F.ACL_SCRUB_EN = 0 → exec (.aclScrubRow sl d) s = .next s)
      ∧ (s.rd F.ACL_SCRUB_EN ≠ 0 →
        (∀ x, s.acl.repair.find? (fun x => x / 16384 == sl.val) = some x → exec (.aclScrubRow sl d) s =
          .next (found true (x % 16384) { s with acl := { s.acl with repair := s.acl.repair.filter (· ≠ x) } }))
        ∧ (s.acl.repair.find? (fun x => x / 16384 == sl.val) = none → exec (.aclScrubRow sl d) s =
          .next (found false next { s with acl := { s.acl with row := mset (fun _ => 0) s.acl.row sl.val ((next + 1) % 16384) } }))))
    ∧ (∀ v : Word, s.serves R.PAT_CTRL.addr → s.rd F.PAT_STATUS_BUSY = 0 →
      (v.getLsbD 1 = false → let u := s.hostPut R.PAT_CTRL.addr (v ||| 1)
        let o := u.rd F.PAT_LOAD_SRC_OFS
        (o % 256 = 0 → patCheck (u.stageBytes o) o = 0 → exec (.patLoad v) s =
          .next { ((u.wr F.PAT_CTRL_LOAD 1).wr F.PAT_STATUS_BUSY 1).wr F.PAT_STATUS_ERR 0 with
            echo := { u.echo with load := some (u.rd F.PAT_CTRL_SLICE_MASK, o) } })
        ∧ (o % 256 = 0 → patCheck (u.stageBytes o) o ≠ 0 → exec (.patLoad v) s = .next (u.patDone (patCheck (u.stageBytes o) o)))
        ∧ (o % 256 ≠ 0 → exec (.patLoad v) s = .next (u.patDone 3)))
      ∧ (v.getLsbD 1 = true → exec (.patLoad v) s = .next (s.hostPut R.PAT_CTRL.addr (v ||| 1)).patLoad.patSwap)
      ∧ (v.getLsbD 0 = false → let u := s.hostPut R.PAT_CTRL.addr (v ||| 2)
        let m := u.rd F.PAT_CTRL_SLICE_MASK
        (u.rd F.PAT_CTRL_AT_TICK = 0 → exec (.patSwap v) s = .next (u.patSwapNow m (stamp16 u.t16) 0))
        ∧ (u.rd F.PAT_CTRL_AT_TICK ≠ 0 → u.running = false → exec (.patSwap v) s = .next (u.patDone 4))
        ∧ (u.rd F.PAT_CTRL_AT_TICK ≠ 0 → u.running = true → u.tickPassed (u.rd64 R.PAT_SWAP_TICK) = false →
          exec (.patSwap v) s = .next { (u.wr F.PAT_CTRL_SWAP 1).wr F.PAT_STATUS_BUSY 1 with
            echo := { u.echo with swap := some (m, max (u.rd64 R.PAT_SWAP_TICK) u.tb.nextTick) } })
        ∧ (u.rd F.PAT_CTRL_AT_TICK ≠ 0 → u.running = true → u.tickPassed (u.rd64 R.PAT_SWAP_TICK) = true →
          exec (.patSwap v) s = .next { ((u.wr F.PAT_STATUS_TICK_LATE 1).wr F.PAT_CTRL_SWAP 1).wr F.PAT_STATUS_BUSY 1 with
            echo := { u.echo with swap := some (m, max (u.rd64 R.PAT_SWAP_TICK) u.tb.nextTick) } })))
    ∧ (∀ m o, s.echo.load = some (m, o) → (s.echHeld m = 0 → ∃ t, exec .patLoadDone s = .next t ∧ t.echo.load = none
        ∧ t.rd F.PAT_STATUS_BUSY = 0 ∧ t.rd F.PAT_STATUS_ERR = 0 ∧ t.rd F.PAT_CTRL_LOAD = 0)
      ∧ (s.echHeld m ≠ 0 → ∃ t, exec .patLoadDone s = .next t ∧ t.echo.load = some (s.echHeld m, o)))
    ∧ (∀ m n, s.echo.swap = some (m, n) → n ≤ s.tick → s.running = true → s.inMode mRUN = true →
      exec .patSwapDue s = .next (s.patSwapNow m (s.tickNs s.tick * 65536) n))

/-- For a table command that field firmware can take, `u` being the machine after it is taken: a wrong ARG_LEN is answered
CMD_BAD_LEN, a buffer that cannot be read CMD_BUF_FAULT, and in LULL the answer is CMD_DOMAIN_OFF (command lengths are the
model's reading, log entry 113). Otherwise INSERT, DELETE and MODIFY of tables 0 to 16 without a batch are accepted as a
single write when they would stage and answered with their code when not, and with a batch go into it; the writes to tables 17
to 20 are accepted, or answered BAD_ARG for an index or image that does not exist; made in the interval after, a write makes a
FREE entry ACTIVE with its content, MODIFY replaces an entry in place, a DELETE starts draining, each answered with its code
by the entry's STATE and its tick; SEARCH answers with the entry found; NEXT and FLUSH_PORT do theirs. (R226, R230, R234,
R236, R237, R238, R239, R244, R476, R477.) -/
def Obligations.TableCommandsActOrAnswerTheirCode : Prop :=
  ∀ (s : State) (h : CmdHdr) (a : TblArgs), s.canTake h = true →
    let u := s.take h
    let t := a.table.toNat
    let i := a.index.toNat
    let sh := h.shortNeed
    let bad : Bool := h.bufFault && decide (40 < h.argLen) && h.tether.isNone
    (∀ x ∈ [(Instr.insert h a, 0x0010, 40 + contentLen t), (.delete h a, 0x0011, 40), (.modify h a, 0x0012, 40 + contentLen t),
        (.search h a, 0x0013, if t ≤ 16 then 40 else sh), (.next_ h a, 0x0014, 40), (.flushPort h a, 0x0015, sh),
        (.nhWrite h a, 0x0016, 56), (.adjWrite h a, 0x0017, 104), (.ecmpWrite h a, 0x0018, 40 + contentLen t), (.nhDelete h a, 0x0019, sh),
        (.adjDelete h a, 0x001A, sh), (.batchOpen h a, 0x001B, sh), (.batchSubmit h a, 0x001C, sh), (.batchAbort h a, 0x001D, sh)],
      (h.lenOk x.2.2 = false → exec x.1 s = .next (u.answer h x.2.1 0 hBAD_LEN))
      ∧ (h.lenOk x.2.2 = true → bad = true → exec x.1 s = .next (u.answer h x.2.1 0 hBUF_FAULT))
      ∧ (h.lenOk x.2.2 = true → bad = false → u.inMode mLULL = true → exec x.1 s = .next (u.answer h x.2.1 0 hDOMAIN_OFF)))
    ∧ (u.inMode mLULL = false → bad = false →
      (∀ x ∈ [(Instr.insert h a, 0x0010, 40 + contentLen t, OpKind.insert), (.delete h a, 0x0011, 40, .delete),
          (.modify h a, 0x0012, 40 + contentLen t, .modify)],
        let o : BOp := ⟨x.2.2.2, t, a.slice.toNat, a.key, a.content, a.static⟩
        h.lenOk x.2.2.1 = true → t ≤ 16 →
          (a.batch = 0xFF → (u.stageOp o u.nextGen).2.1 = cOK → exec x.1 s = .next (u.acceptSingle o h x.2.1 true))
          ∧ (a.batch = 0xFF → (u.stageOp o u.nextGen).2.1 ≠ cOK →
            exec x.1 s = .next (u.answer h x.2.1 (u.stageOp o u.nextGen).2.1 hOK))
          ∧ (a.batch ≠ 0xFF → exec x.1 s = .next (u.intoBatch a o h x.2.1)))
      ∧ (let kept (k : EntKind) (op : Nat) : State := { u with cmt := { u.cmt with ents := u.cmt.ents ++ [⟨k, a, h, op, u.tick⟩] } }
        let fits : Bool := decide (i < entCount t) && imgOk t a.content
        (∀ x ∈ [(Instr.nhWrite h a, 0x0016, [17], contentLen 17), (.adjWrite h a, 0x0017, [18], contentLen 18),
            (.ecmpWrite h a, 0x0018, [19, 20], contentLen t)], h.lenOk (40 + x.2.2.2) = true →
          (t ∈ x.2.2.1 → fits = true → exec x.1 s = .next (kept .write x.2.1))
          ∧ (t ∉ x.2.2.1 ∨ fits = false → exec x.1 s = .next (u.answer h x.2.1 cBAD_ARG hOK)))
        ∧ (17 ≤ t → t ≤ 20 → h.lenOk (40 + contentLen t) = true →
          (fits = true → exec (.modify h a) s = .next (kept .modify 0x0012))
          ∧ (fits = false → exec (.modify h a) s = .next (u.answer h 0x0012 cBAD_ARG hOK)))
        ∧ (∀ x ∈ [(Instr.nhDelete h a, 0x0019, 17), (.adjDelete h a, 0x001A, 18)], h.lenOk sh = true →
          (t = x.2.2 → i < entCount t → exec x.1 s = .next (kept .delete x.2.1))
          ∧ (t ≠ x.2.2 ∨ entCount t ≤ i → exec x.1 s = .next (u.answer h x.2.1 cBAD_ARG hOK))))
      ∧ (∀ n k op d,
        let o : EntOp := ⟨k, a, h, op, d⟩
        let put : State := (u.twPut (u.entAddr t i) (activeImg t (imgWords a.content))).stealSlots 1
        let at_ (s : State) (c : Nat) : State := s.respond h op c hOK true [] (some n)
        u.entsTick n = foldS (u.cmt.ents.filter (fun o => decide (o.acceptedAt < n))) (fun o s => s.entDo n o)
          { u with cmt := { u.cmt with ents := u.cmt.ents.filter (fun o => decide (n ≤ o.acceptedAt)) } }
        ∧ (k = .write → (u.entState t i = 0 → u.entDo n o = at_ put cOK) ∧ (u.entState t i ≠ 0 → u.entDo n o = at_ u cDRAINING))
        ∧ (k = .modify → (t ≠ 17 → t ≠ 18 → u.entDo n o = at_ put cOK) ∧ (u.entState t i = 1 → u.entDo n o = at_ put cOK)
          ∧ (t = 17 ∨ t = 18 → u.entState t i = 2 → u.entDo n o = at_ u cDRAINING)
          ∧ (t = 17 ∨ t = 18 → u.entState t i = 0 → u.entDo n o = at_ u cNOT_FOUND))
        ∧ (k = .delete → (u.entState t i = 1 → u.entDo n o = at_ ((u.entDrain (t == 18) i).stealSlots 1) cOK)
          ∧ (u.entState t i = 0 → u.entDo n o = at_ u cNOT_FOUND)
          ∧ (u.entState t i = 2 → u.entDo n o = at_ u cDRAINING)))
      ∧ (t < 16 → h.lenOk 40 = true → u.emArgOk t (leN a.key 0 16) = true →
        (∀ x, u.emFind t a.slice.toNat (leN a.key 0 16) u.genNow = some x →
          exec (.search h a) s = .next (u.respond h 0x0013 cOK hOK true (u.tBytes (u.emAddr x.1) 8) none))
        ∧ (u.emFind t a.slice.toNat (leN a.key 0 16) u.genNow = none → exec (.search h a) s = .next (u.answer h 0x0013 cNOT_FOUND hOK)))
      ∧ (h.lenOk 40 = true → exec (.next_ h a) s = .next (u.nextCmd a h 0x0014))
      ∧ (h.lenOk sh = true → exec (.flushPort h a) s = .next (u.flushCmd a h 0x0015)))

/-- A batch opens with the lowest free id, is submitted once with its write count and earliest tick answered, and is aborted
before staging. In RUN a batch that is due commits at its tick and is answered, late when that tick is not the one named; a
staged single commits at the first tick after, late when that is not the second after it was accepted; in LULL both wait; a
commit settles 2 microseconds after its tick; a drained entry becomes FREE after the hold-off. GET_INFO, PING, REG_READ,
REG_WRITE, CONFIRM_UPDATE and TIME_GET that can be taken are answered with their results, a refused access with its HSTATUS, a
refused word with CMD_DENIED. A servo command is answered with a free code (log entry 109), an unknown one with CMD_UNKNOWN.
(R234, R236, R240, R241, R242, R243, R475, R476, R477.) -/
def Obligations.BatchesCommitAndHostCommandsAreAnswered : Prop :=
  ∀ (s : State) (h : CmdHdr),
    (∀ a, s.canTake h = true → h.lenOk h.shortNeed = true → let u := s.take h
      u.inMode mLULL = false →
        (∀ i, (List.range 16).find? (fun i => (u.batch i).isNone) = some i → let b : Batch := { id := i, aon := a.allOrNone, hdr := h }
          exec (.batchOpen h a) s =
            .next ({ u with cmt := { u.cmt with batches := u.cmt.batches ++ [b] } }.respond h 0x001B cOK hOK true (leB 1 i) none))
        ∧ (∀ b, u.batch a.batch.toNat = some b →
          (b.submitted = true → exec (.batchSubmit h a) s = .next (u.answer h 0x001C cBAD_ARG hOK))
          ∧ (b.submitted = false → 8 ≤ u.queued.length → exec (.batchSubmit h a) s = .next (u.answer h 0x001C cQUEUE_FULL hOK))
          ∧ (b.submitted = false → u.queued.length < 8 → let r := u.submit b a.tick.toNat h
            exec (.batchSubmit h a) s = .next (r.1.respond h 0x001C cOK hOK false (leB 4 r.2.1 ++ zeros 4 ++ leB 8 r.2.2) none))
          ∧ (b.submitted = false → exec (.batchAbort h a) s =
            .next (((u.batchUpd b.id (fun _ => none)).answer h 0x001D cOK hOK).showCommit))
          ∧ (b.submitted = true → u.tick < b.stageAt → exec (.batchAbort h a) s =
            .next (((((u.batchUpd b.id (fun _ => none)).dropGen b.gen).answer b.hdr 0x001C cABORTED hOK).answer h 0x001D cOK hOK).showCommit))
          ∧ (b.submitted = true → b.stageAt ≤ u.tick → exec (.batchAbort h a) s = .next (u.answer h 0x001D cBAD_ARG hOK)))
        ∧ (u.batch a.batch.toNat = none → exec (.batchSubmit h a) s = .next (u.answer h 0x001C cBAD_ARG hOK)
          ∧ exec (.batchAbort h a) s = .next (u.answer h 0x001D cBAD_ARG hOK)))
    ∧ (s.inMode mRUN = false → (∀ id, exec (.batchCommit id) s = .next s) ∧ exec .singleEntryCommit s = .next s)
    ∧ (∀ (id : BitVec 8) b n, s.inMode mRUN = true → s.batch id.toNat = some b → b.due = some n →
      let u := ((s.batchUpd id.toNat (fun _ => none)).commitGen b.gen n).raise (eg 2 10)
      let done (x : State) (c : Nat) : State := (x.respond b.hdr 0x001C c hOK true
        (b.failed.flatMap (fun x => leB 4 (x.1 * 256 + x.2))) (some n)).showCommit
      (n = b.commitAt → exec (.batchCommit id) s = .next (done u cOK))
      ∧ (n ≠ b.commitAt → exec (.batchCommit id) s = .next (done (u.raise (eg 2 11)) cLATE)))
    ∧ (∀ q n, s.inMode mRUN = true → s.cmt.singles.find? (fun q => q.due.isSome) = some q → q.due = some n →
      let u := { s with cmt := { s.cmt with singles := s.cmt.singles.filter (fun x => x.gen != q.gen) } }.commitGen q.gen n
      let said (x : State) (c : Nat) : State := if q.answer then x.respond q.hdr q.opcode c hOK true [] (some n) else x
      (n ≤ q.acceptedAt + 2 → exec .singleEntryCommit s = .next (said u cOK))
      ∧ (q.acceptedAt + 2 < n → exec .singleEntryCommit s = .next (said (u.raise (eg 2 11)) cLATE)))
    ∧ (∀ g at_ l, s.cmt.settle = (g, at_) :: l → let u := (s.advanceTo ((at_ + 2000 * 65536) * tuFrac)).settleGen g
      exec .batchSettle s = .next { u with cmt := { u.cmt with settle := l, hist := u.cmt.hist.take (l.length + 1) } })
    ∧ (∀ adj (i : BitVec 20) n, let a := if adj then s.adjAddr i.toNat else s.nhAddr i.toNat
      mget (fun _ => (none : Option Nat)) s.cmt.drainAt (i.toNat * 2 + b2n adj) = some n → bits (s.tw a) 31 30 = 2 →
      s.inflight adj i.toNat = 0 →
      let u := (s.advanceUp (n + s.rd F.TBL_DRAIN_CFG_HOLDOFF * 1000)).setEntState a 0
      exec (.adjFreed adj i) s = .next (({ u with cmt := { u.cmt with
        drainAt := mset (fun _ => none) u.cmt.drainAt (i.toNat * 2 + b2n adj) none } }.raise (eg 8 0)).emit (.adjFreed adj i.toNat)))
    ∧ (s.canTake h = true → let u := s.take h
      let bad : Bool := h.bufFault && decide (40 < h.argLen) && h.tether.isNone
      (h.lenOk 0 = true →
        exec (.getInfo h) s = .next (u.respond h 1 0 hOK true u.infoBytes none)
        ∧ (u.imgConfirm.status = mOK → exec (.confirmUpdate h none) s = .next (u.imgConfirm.s.answer h 5 mOK hOK)
          ∧ ∀ n, exec (.confirmUpdate h (some n)) s = .next ((u.raise (eg 0 9)).answer h 5 mNVM_ERROR hOK))
        ∧ (u.imgConfirm.status ≠ mOK → ∀ n, exec (.confirmUpdate h n) s = .next (u.imgConfirm.s.answer h 5 u.imgConfirm.status hOK))
        ∧ (∃ x : State, ∃ time : Bytes, exec (.timeGet h) s = .next (x.respond h 6 0 hOK true
          (time ++ leB 4 (x.rdr R.WRS_STATUS) ++ zeros 4 ++ leB 8 x.tick) none) ∧ time.length = 16 ∧ x.tb = u.tb))
      ∧ (h.argLen ≤ 40 → ∀ args, exec (.ping h args) s =
        .next (u.respond h 2 0 hOK true ((args ++ zeros h.argLen).take h.argLen) none))
      ∧ (40 < h.argLen → ∀ args, exec (.ping h args) s = .next (u.answer h 2 0 hBAD_LEN))
      ∧ (h.lenOk 8 = true → ∀ (o : BitVec 28) n,
        (∀ c, accessRefused o.toNat n = some c → exec (.regRead h o n) s = .next (u.answer h 3 0 c))
        ∧ (accessRefused o.toNat n = none → exec (.regRead h o n) s =
          .next ((u.readWords o.toNat n).1.respond h 3 0 hOK true (u.readWords o.toNat n).2 none)))
      ∧ (∀ (o : BitVec 28) ws, h.lenOk (8 + 4 * ws.length) = true →
        (bad = true → exec (.regWrite h o ws) s = .next (u.answer h 4 0 hBUF_FAULT))
        ∧ (bad = false → ∀ c, accessRefused o.toNat ws.length = some c → exec (.regWrite h o ws) s = .next (u.answer h 4 0 c))
        ∧ (bad = false → accessRefused o.toNat ws.length = none →
          ((∀ i < ws.length, mayRegWrite (o.toNat + 4 * i) = true) →
            exec (.regWrite h o ws) s = .next ((u.writeWords o.toNat ws).answer h 4 0 hOK))
          ∧ (∀ i < ws.length, mayRegWrite (o.toNat + 4 * i) = false → exec (.regWrite h o ws) s = .next (u.answer h 4 0 hDENIED))))
      ∧ (∀ op : BitVec 16,
        (op.toNat / 256 = 1 → h.lenOk h.argLen = true → bad = false → exec (.servoCommand h op) s =
          .next ({ u with free := u.free + 1 }.answer h op.toNat ((Config.freeValue u.free).toNat % 256) hOK))
        ∧ (opKnown op.toNat = false → exec (.commandUnknown h op) s = .next (u.answer h op.toNat 0 hUNKNOWN))))

/-- The next arrival on the TM die passes the stream unit and is admitted under the first charge of R353 that fits, else
counted as dropped. In RUN the hierarchy selects a packet from the first eligible outlet in rotation, which departs onto the
loop or as cells. A looped packet that arrives enters the queue of its adjacency's port; a fabric cell opens a frame of its
source or extends it, and a gap marks the open one as cut. A port that may start frames trims and updates its classes, and
plans the head of the class it picks, charged once per frame. The first planned frame of a class not paused leaves its queue
and is edited, or sent as it is. At the end of a hold window the port is flushed. (R351, R353, R360, R361, R362, R372, R378,
R396, R399, R401, R423.) -/
def Obligations.PacketsAreAdmittedScheduledAndSent : Prop :=
  ∀ (s : State),
    (∀ h l, s.adm.arrive = h :: l →
      let a := s.admUpd (fun a => { a with arrive := l })
      (∀ x, a.stream h.p = (x, none) → exec .packetAdmit s = .next (x.nhDone h.p))
      ∧ (∀ x p, a.stream h.p = (x, some p) →
        let n := cellsOf p.bytes.length
        ((x.sent 0 p.queue).en = false → exec .packetAdmit s = .next (x.queDisabled.nhDone p))
        ∧ ((x.sent 0 p.queue).en = true →
          (x.admitTest n p.queue p.port p.tc p.colour = .drop → exec .packetAdmit s = .next ((x.admDrop p.queue p).nhDone p))
          ∧ (∀ k, x.admitTest n p.queue p.port p.tc p.colour = .charge k →
            let b := x.pktAlloc p.slice n p.bytes.length
            exec .packetAdmit s = .next ((b.1.admPut k n p.queue p b.2 false none).mirrorIngress p n b.2))
          ∧ (∀ u v, x.admitTest n p.queue p.port p.tc p.colour = .push u v →
            let b := (x.evict u v p.tc).pktAlloc p.slice n p.bytes.length
            exec .packetAdmit s = .next ((b.1.admPut 3 n p.queue p b.2 false none).mirrorIngress p n b.2)))))
    ∧ (∀ n q p t c, let k := (s.sent 0 q).admProf
      (s.admitTest n q p t c = .charge 0 ↔ cntr s.adm.qu q + n ≤ s.rd (F.ADM_PROF_MIN.at k))
      ∧ (s.admitTest n q p t c = .charge 1 ↔
        s.rd (F.ADM_PROF_MIN.at k) < cntr s.adm.qu q + n ∧ cntr s.adm.pu p + n ≤ s.rd (F.ADM_PORT_MIN.at p))
      ∧ (s.admitTest n q p t c = .charge 2 ↔ s.rd (F.ADM_PROF_MIN.at k) < cntr s.adm.qu q + n
        ∧ s.rd (F.ADM_PORT_MIN.at p) < cntr s.adm.pu p + n ∧ cntr s.adm.cu t + n ≤ s.rd (F.ADM_CLASS_MIN.at t))
      ∧ (s.admitTest n q p t c = .charge 4 → s.lossless t = true
        ∧ cntr s.adm.hu (8 * p + t) + n ≤ s.rd (F.ADM_PG_HDRM.at (8 * p + t)))
      ∧ (s.admitTest n q p t c = .charge 3 → s.admDt n q p t c = true ∧ ((s.admSU + n : Nat) : Int) ≤ s.admS))
    ∧ (s.inMode mRUN = true →
      (∀ x, s.select = (x, none) → exec .schedulerSelect s = .next x)
      ∧ (∀ u q x, s.select = (u, some (q, x)) →
        let target := (u.sent 5 (u.l5Of q)).target
        let d := u.depart q x
        (d.standalone = true → exec .schedulerSelect s = .next (d.fabUpd (fun f => { f with arrive := f.arrive ++ [.loop x target] })))
        ∧ (d.standalone = false → let dst := (d.sent 6 (d.sent 5 (u.l5Of q)).parent).dest
          exec .schedulerSelect s =
            .next (d.fabUpd (fun f => { f with data := f.data ++ packetCells x (d.rd F.FAB_CFG_DEV_ID) dst target })))))
    ∧ (∀ x target l, s.fab.arrive = .loop x target :: l →
      let u := s.fabUpd (fun f => { f with arrive := l })
      let port := u.adjPort (x.adjOver.getD x.p.adj)
      exec .egressCellArrival s = .next ((u.outstanding target 0 x.cells).egEnter port x.p.tc
        { cells := x.cells, p := { x.p with egrPort := port }, adjOver := x.adjOver }))
    ∧ (∀ src c l, s.fab.arrive = .cell src c :: l →
      let u := (s.fabUpd (fun f => { f with arrive := l })).outstanding c.target 0 1
      (c.sop = true → exec .egressCellArrival s = .next (u.cellFirst src c))
      ∧ (c.sop = false → u.openFrame src = none → exec .egressCellArrival s = .next u)
      ∧ (∀ p t f, c.sop = false → u.openFrame src = some (p, t, f) →
        let d := u.frameSet p t f { f with
          cells := f.cells + 1, p := { f.p with bytes := f.p.bytes ++ (if c.eop then c.pay.take (c.last + 1) else c.pay) }, whole := c.eop }
        exec .egressCellArrival s = .next (if c.eop then d.frxUpd src (fun r => { r with at_ := none }) else d)))
    ∧ (∀ src l, s.fab.arrive = .gap src :: l →
      let u := s.fabUpd (fun f => { f with arrive := l })
      (u.openFrame src = none → exec .egressCellArrival s = .next u)
      ∧ ∀ p t f, u.openFrame src = some (p, t, f) → exec .egressCellArrival s =
          .next ((u.frameSet p t f { f with cut := true }).frxUpd src (fun r => { r with at_ := none })))
    ∧ (∀ p : Fin 400, s.portTx p.val = true →
      let u := (foldS (List.range 8) (fun c s => s.egTrim p.val c ((s.eq p.val c).length + 1)) s).egSync p.val
      ((u.egp p.val).pick = none → exec (.egressPortSelect p) s = .next u)
      ∧ (∀ c f l, (u.egp p.val).pick = some c → u.eqRest p.val c = f :: l →
        let x := if f.chosen then u else (u.egServe p.val c f.p.bytes.length).egMark p.val c
        exec (.egressPortSelect p) s = .next ((x.pstUpd p.val (fun y => { y with planned := y.planned ++ [⟨c, u.planAt p.val f⟩] })).egpUpd
          p.val (fun y => { y with busy := u.planAt p.val f + u.planT p.val f * 65536 }))))
    ∧ (∀ (p : Fin 400) (lane : Fin 146), s.portTx p.val = true →
      (∀ x, (s.egp p.val).mac.find? (fun x => !s.pausedAt p.val x.tc (max x.plan s.t16)) = some x →
        exec (.portFrameTransmit p lane) s =
          .next ((s.egpUpd p.val (fun y => { y with mac := eraseFirst x y.mac })).macFrame p.val lane.val x))
      ∧ (∀ pl l f r, (s.egp p.val).mac.find? (fun x => !s.pausedAt p.val x.tc (max x.plan s.t16)) = none →
        (s.pst p.val).planned = pl :: l → s.eq p.val pl.cls = f :: r →
        let u := (s.pstUpd p.val (fun x => { x with planned := l })).egPop p.val pl.cls
        let x : Pkt := { f.p with egrPort := p.val, plan := pl.start, entry := f.entry, tc := pl.cls }
        (s.pausedAt p.val pl.cls (max pl.start s.t16) = true → exec (.portFrameTransmit p lane) s =
          .next (s.pstUpd p.val (fun x => { x with planned := l.filter (fun y => y.cls != pl.cls) })))
        ∧ (s.pausedAt p.val pl.cls (max pl.start s.t16) = false →
          (f.plain = true → exec (.portFrameTransmit p lane) s =
            .next ((u.countParse (s.portSlice p.val) true (u.parse x.bytes).2).macFrame p.val lane.val x))
          ∧ (f.plain = false → exec (.portFrameTransmit p lane) s = .next (u.editFrame p.val lane.val f x)))))
    ∧ (∀ (p : Fin 400) (lane : Fin 146), s.portTx p.val = false →
      exec (.portFrameTransmit p lane) s = .next s ∧ exec (.egressPortSelect p) s = .next s)
    ∧ (∀ (p : Fin 146) n, (s.pst p.val).fall = some n → s.rd (F.ADM_EPORT_HOLDING.at p.val) ≠ 0 → exec (.portHoldEnd p) s =
      .next ((s.advanceTo ((n + (s.pst p.val).holdUs * 1000 * 65536) * tuFrac)).holdFlush p.val))

/-- For a served command of QUE or SCH with its index in range: READ shows the eight words, FLUSH or REBUILD of a suspended
entry starts with BUSY and of another is refused with 2, READ_CNT shows the counters and clears them with clear-on-read, SCH
WRITE that nothing refuses stores the writable bits, brings the entry and its parents up to date, and a refused one completes
with its code; a flush that ends drops every packet and clears BUSY, a rebuild that ends takes the discipline of the children.
For SHP with an index in range: WRITE stores rates and bursts unless its arguments break a rule, READ brings the instance up
to date and shows it, INIT fills both buckets, and each brings the entries it applies to up to date. A write of SHP_SOJ_SEL
copies the marks. (R369, R376, R380, R381, R382, R386, R388, R389, R408, R409, R412.) -/
def Obligations.QueueNodeAndShaperCommandsFollowTheirRules : Prop :=
  ∀ (s : State) (v : Word),
    let q (op : Nat) : State := s.cmdPut R.QUE_IND_CMD v 2 op
    let n (op : Nat) : State := s.cmdPut R.SCH_IND_CMD v 2 op
    let i := bits v.toNat 25 8
    let j := bits v.toNat 27 12
    let l := bits v.toNat 30 28
    (s.takes R.QUE_IND_CMD F.QUE_IND_STATUS_BUSY → i < 262144 →
      exec (.queRead v) s = .next (((q 2).schShow 0 ((q 2).schWords 0 i)).schDone true 0)
      ∧ ((s.sent 0 i).susp = true → exec (.queFlush v) s =
        .next (({ q 3 with sq := { s.sq with flush := some i } }).wr F.QUE_IND_STATUS_BUSY 1))
      ∧ ((s.sent 0 i).susp = false → exec (.queFlush v) s = .next ((q 3).schDone true 2))
      ∧ exec (.queReadCnt v) s = .next ((q 4).schReadCnt 0 i)
      ∧ exec (.queWrite v) s = .next ((q 1).queWrite i)
      ∧ ((q 1).schRefuse 0 i { s.sent 0 i with
            w0 := (schClean 0 ((q 1).schW 0 0) ((q 1).schW 0 1) ((q 1).schW 0 2)).1
            w1 := (schClean 0 ((q 1).schW 0 0) ((q 1).schW 0 1) ((q 1).schW 0 2)).2.1
            w2 := (schClean 0 ((q 1).schW 0 0) ((q 1).schW 0 1) ((q 1).schW 0 2)).2.2 } = 2 →
        exec (.queWrite v) s = .next ((q 1).schDone true 2)))
    ∧ (s.takes R.SCH_IND_CMD F.SCH_IND_STATUS_BUSY → j < schCount l → l ≠ 0 →
      exec (.schRead v) s = .next (((n 2).schShow l ((n 2).schWords l j)).schDone false 0)
      ∧ ((s.sent l j).susp = true → exec (.schRebuild v) s =
        .next (({ n 3 with sq := { s.sq with rebuild := some (sk l j) } }).wr F.SCH_IND_STATUS_BUSY 1))
      ∧ ((s.sent l j).susp = false → exec (.schRebuild v) s = .next ((n 3).schDone false 2))
      ∧ exec (.schReadCnt v) s = .next ((n 4).schReadCnt l j)
      ∧ (let u := n 1
        let c := schClean l (u.schW l 0) (u.schW l 1) (u.schW l 2)
        let old := u.sent l j
        let new : SEnt := { old with w0 := c.1, w1 := c.2.1, w2 := c.2.2 }
        (u.schRefuse l j new ≠ 0 → exec (.schWrite v) s = .next (u.schDone false (u.schRefuse l j new)))
        ∧ (u.schRefuse l j new = 0 →
          let a := if l < 6 ∧ old.parent ≠ new.parent then (u.schLeave l j).schUpdate (l + 1) old.parent else u
          let d := a.sentUpd l j (fun e => { e with w0 := c.1, w1 := c.2.1, w2 := c.2.2 })
          let e := if l < 6 ∧ new.en then d.schAttach (l + 1) new.parent else d
          exec (.schWrite v) s = .next ((e.schUpdate l j).schDone false 0))))
    ∧ (∀ k, s.sq.flush = some k →
      let u := foldS (s.queueOf k) (fun x s => (s.entryDrop k x).cnt R.QUE_CNT 8)
        ({ s with sq := { s.sq with flush := none } }.queuePut k [])
      exec .queFlushDone s = .next (((u.voqTouch (u.l5Of k)).schUpdate 0 k).schDone true 0))
    ∧ (∀ k, s.sq.rebuild = some k → let lv := k / 2 ^ 18
      let kids := s.childrenOf lv (k % 2 ^ 18)
      let a := foldS kids (fun c s => s.sentUpd (lv - 1) c (fun e => { e with lev := none, f := 0, flast := 0, d := 0 }))
        { s with sq := { s.sq with rebuild := none } }
      let b := a.sentUpd lv (k % 2 ^ 18) (fun e => { e with lv := [], disc := discOf kids.length })
      exec .schRebuildDone s = .next ((foldS kids (fun c s => s.schUpdate (lv - 1) c) b).schDone false 0))
    ∧ (s.takes R.SHP_IND_CMD F.SHP_IND_STATUS_BUSY →
      let t := bits v.toNat 31 28
      let m := bits v.toNat 27 8
      let k := shpKey t m
      let p (op : Nat) : State := s.cmdPut R.SHP_IND_CMD v 1 op;
      (shpIndexOk t m = false → ∀ x ∈ [(Instr.shpWrite v, 1), (.shpRead v, 2), (.shpInit v, 3)], exec x.1 s = .next ((p x.2).shpDone 1))
      ∧ (shpIndexOk t m = true →
        (let u := p 1;
          shpBad t (u.shpW 0) (u.shpW 1) (bits (u.shpW 2) 7 0) (bits (u.shpW 3) 2 1) = true → exec (.shpWrite v) s = .next (u.shpDone 2))
        ∧ (let u := p 1;
          t < 7 → shpBad t (u.shpW 0) (u.shpW 1) (bits (u.shpW 2) 7 0) (bits (u.shpW 3) 2 1) = false →
            exec (.shpWrite v) s = .next ((((u.shpPut k { u.shpNow (u.shpI k) with
              cir := u.shpW 0, pir := u.shpW 1,
              cbs := bits (u.shpW 2) 31 8, adj := bits (u.shpW 2) 7 0, pbs := bits (u.shpW 3) 31 8, aware := false, mode := 0,
              en := false }).shpNote k).shaperSync k).shpDone 0))
        ∧ (let u := ((p 2).shpPut k ((p 2).shpNow ((p 2).shpI k))).shaperSync k
          exec (.shpRead v) s = .next ((foldS (List.range 8) (fun j s => s.wrr (R.SHP_IND_DATA.at j)
            ((s.shpWords t ((p 2).shpNow ((p 2).shpI k))).getD j 0)) u).shpDone 0))
        ∧ exec (.shpInit v) s = .next ((((p 3).shpPut k ((p 3).shpFull ((p 3).shpNow ((p 3).shpI k)))).shaperSync k).shpDone 0)))
    ∧ (s.serves R.SHP_SOJ_SEL.addr →
      let u := if s.running then s.sojTick (s.tickAt s.ns) else s
      let m := u.sojMark (if v.getLsbD 31 then 2 ^ 18 + bits v.toNat 17 0 else bits v.toNat 17 0)
      exec (.sojSelWrite v) s = .next ((((u.wrr (R.SHP_SOJ_DATA.at 0) m.cur).wrr (R.SHP_SOJ_DATA.at 1) m.prev).wrr (R.SHP_SOJ_DATA.at 2)
        (u.soj.win % 2 ^ 32)).wrr (R.SHP_SOJ_DATA.at 3) (u.soj.win / 2 ^ 32)))

/-- For a served command on a gate list in range: WRITE and WRITE_HDR change the administrative list unless a switch is
pending, the READs show their words, SWITCH is refused while one is pending, with Cadence stopped, or with a bad list, and
else pends, late when its tick has passed; CANCEL withdraws one whose instant has not come; RESTORE makes the list operating
at once on an instance that is not active; an index out of range ends with 1, an operation that the space does not have with
5. On a stream context: WRITE stores its words unless a reserved bit is set, READ and READ_CNT show them, CLEAR clears its
latched states. A due switch takes effect at the instant of its tick with that tick as BASE, the copy back clears PENDING with
its event, and an interval ends at its instant, or at that of a pending switch which cuts it. (R393, R394, R395, R400, R410,
R411, R412.) -/
def Obligations.GateListsAndContextsFollowTheirCommands : Prop :=
  ∀ (s : State) (v : Word),
    let u (op : Nat) : State := s.cmdPut R.GAT_IND_CMD v 3 op
    let sp := bits v.toNat 31 30
    let i := bits v.toNat 29 14
    let j := bits v.toNat 13 4
    let k := gateKey sp i
    let g := s.gateI k
    (s.takes R.GAT_IND_CMD F.GAT_IND_STATUS_BUSY →
      (sp < 2 → gatIndexOk sp i j true = true →
        (g.pending = true → exec (.gatWrite v) s = .next ((u 1).gatDone 4))
        ∧ (g.pending = false → exec (.gatWrite v) s = .next (((u 1).gateUpd k (fun g => { g with adm := { g.adm with
            ents := mset (fun _ => (0, 0)) g.adm.ents j ((u 1).gatW 0, (u 1).gatW 1) } })).gatDone 0))
        ∧ exec (.gatRead v) s = .next (((u 2).gatShow (g.adm.show j)).gatDone 0)
        ∧ exec (.gatReadOper v) s = .next (((u 3).gatShow (g.oper.show j)).gatDone 0))
      ∧ (sp < 2 → gatIndexOk sp i j true = false → ∀ x ∈ [(Instr.gatWrite v, 1), (.gatRead v, 2), (.gatReadOper v, 3)],
        exec x.1 s = .next ((u x.2).gatDone 1))
      ∧ (sp < 2 → gatIndexOk sp i j false = true →
        (g.pending = true → exec (.gatWriteHdr v) s = .next ((u 4).gatDone 4) ∧ exec (.gatSwitch v) s = .next ((u 6).gatDone 4))
        ∧ (g.pending = false →
          exec (.gatWriteHdr v) s = .next (((u 4).gateUpd k (fun g => { g with
            adm := { g.adm with cycle := (u 4).gatW 0 % 2 ^ 30, len := (u 4).gatW 1 % 2 ^ 11 }
            swTick := (u 4).gatW 2 + (u 4).gatW 3 * 2 ^ 32 })).gatDone 0)
          ∧ (s.running = false → exec (.gatSwitch v) s = .next ((u 6).gatDone 3))
          ∧ (s.running = true → g.adm.ok k = false → exec (.gatSwitch v) s = .next ((u 6).gatDone 2))
          ∧ (s.running = true → g.adm.ok k = true → exec (.gatSwitch v) s = .next (((u 6).gateUpd k (fun g => { g with
            pending := true, late := decide (g.swTick < s.tb.nextTick), due := none })).gatDone 0)))
        ∧ exec (.gatReadHdr v) s = .next (((u 5).gatShow g.header).gatDone 0)
        ∧ (g.pending = true → g.copyDue = false → g.due = none → (s.running = true → s.ns < s.tickNs (max g.swTick s.tb.nextTick)) →
          exec (.gatCancel v) s = .next (((u 7).gateUpd k (fun g => { g with pending := false })).gatDone 0))
        ∧ (g.pending = false ∨ g.copyDue = true ∨ g.due ≠ none ∨ (s.running = true ∧ s.tickNs (max g.swTick s.tb.nextTick) ≤ s.ns) →
          exec (.gatCancel v) s = .next (((u 7).gateUpd k id).gatDone 0))
        ∧ (g.active = true → exec (.gatRestore v) s = .next ((u 8).gatDone 4))
        ∧ (g.active = false → g.adm.ok k = false → exec (.gatRestore v) s = .next ((u 8).gatDone 2))
        ∧ (g.active = false → g.adm.ok k = true →
          exec (.gatRestore v) s = .next (((u 8).gateUpd k (fun g => (u 8).gateTo g k g.swTick (u 8).t16)).gatDone 0))
        ∧ exec (.gatReadCnt v) s = .next ((u 9).gatDone 5) ∧ exec (.gatClear v) s = .next ((u 10).gatDone 5))
      ∧ (sp = 3 ∨ (sp < 2 ∧ gatIndexOk sp i j false = false) → ∀ x ∈ [(Instr.gatWrite v, 1), (.gatRead v, 2), (.gatReadOper v, 3),
          (.gatWriteHdr v, 4), (.gatReadHdr v, 5), (.gatSwitch v, 6), (.gatCancel v, 7), (.gatRestore v, 8), (.gatReadCnt v, 9), (.gatClear v, 10)],
        exec x.1 s = .next ((u x.2).gatDone 1))
      ∧ (sp = 2 → let x := s.stmI i
        let bad : Bool := !stmArgOk ((u 1).gatW 0) ((u 1).gatW 1) ((u 1).gatW 2) ((u 1).gatW 3)
        (bad = true → exec (.gatWrite v) s = .next ((u 1).gatDone 5))
        ∧ (bad = false → exec (.gatWrite v) s = .next (((u 1).stmPut i { x with
          w0 := (u 1).gatW 0, w1 := (u 1).gatW 1, takeAny := x.takeAny || (bitN ((u 1).gatW 0) 31 && !x.bit 31)
          hist := x.hist % 2 ^ (bits ((u 1).gatW 1) 21 12 + 1) }).gatDone 0))
        ∧ exec (.gatRead v) s = .next (((u 2).gatShow x.words).gatDone 0)
        ∧ (let t := ((u 9).gatShow (x.cnt.flatMap (fun n => [n % 2 ^ 32, n / 2 ^ 32]))).gatDone 0
          (t.rd F.SVY_CNT_CFG_COR = 0 → exec (.gatReadCnt v) s = .next t)
          ∧ (t.rd F.SVY_CNT_CFG_COR ≠ 0 → exec (.gatReadCnt v) s = .next (t.stmPut i { x with cnt := List.replicate 11 0 })))
        ∧ exec (.gatClear v) s = .next (((u 10).stmPut i { x with
          oversize := false, closed := false, red := false, takeAny := true }).gatDone 0)
        ∧ ∀ y ∈ [(Instr.gatReadOper v, 3), (.gatWriteHdr v, 4), (.gatReadHdr v, 5), (.gatSwitch v, 6), (.gatCancel v, 7), (.gatRestore v, 8)],
          exec y.1 s = .next ((u y.2).gatDone 5)))
    ∧ (∀ m n, (s.gateI m).due = some n → exec (.gateListSwitch m) s =
      .next (s.gateUpd m (fun _ => { s.gateTo (s.gateI m) m n (s.tickNs n * 65536) with copyDue := true })))
    ∧ (∀ m, (s.gateI m).copyDue = true → exec (.gateSwitchCopyDone m) s =
      .next ((s.gateUpd m (fun g => { g with adm := g.oper, pending := false, copyDue := false })).gatEvt F.GAT_EVT_SWITCH_DONE))
    ∧ (∀ m, (s.gateAt m s.ns = none → exec (.gateIntervalEnd m) s = .next s)
      ∧ ∀ l b, s.gateAt m s.ns = some (l, b) →
        let o := l.offset b s.ns
        let e := s.ns - o + (l.segAt o).2.1
        (s.gateNext (s.gateCur m) = none → exec (.gateIntervalEnd m) s = .next (s.advanceTo (e * tuNs)))
        ∧ (∀ w, s.gateNext (s.gateCur m) = some w →
          exec (.gateIntervalEnd m) s = .next (s.advanceTo ((if s.ns < w then min e w else e) * tuNs))))

/-- Fabric-attached in RUN: of the active and spare links the next in rotation sends, a spare an IDLE cell, an active one a
cell to be replayed, else a control cell, a cell of a failed link or a data cell, the new ones with the next SEQ of their
destination and the next LSEQ, else an IDLE cell. A bad cell received is counted; a good one acknowledges, and one in LSEQ
order enters resequencing, which counts cells of sources not enabled and duplicates, and releases the expected cell. A changed
backlog is requested, a port with room grants to the next requester, released cells are told by DCRED, a refresh sends all
counts again, an idle group forfeits its balance, a gap that times out is skipped. A failed link's cells go to the others, and
a trained spare takes over; on retraining it becomes a spare. Standalone, the local loop is granted credit. (R415, R417, R419,
R420, R422, R423, R424, R425, R428, R429, R430, R432.) -/
def Obligations.TradewindCellsCreditAndLinksFollowTheirRules : Prop :=
  ∀ (s : State),
    let ctl (u : State) (dst : Nat) (m : Bytes) : FCell := { ctrl := true, dst := dst, src := u.rd F.FAB_CFG_DEV_ID, pay := m }
    let dest (u : State) (n : Nat) : Nat := (u.sent 6 (u.sent 5 n).parent).dest
    (s.fabOn = true →
      (∀ i, (let l := (List.range 192).filter (fun j => s.linkState j == 3 || s.linkState j == 2);
          l.filter (fun j => decide (s.fab.turn ≤ j)) ++ l.filter (fun j => decide (j < s.fab.turn))).head? = some i →
        let x := s.flink i
        let seq (c : FCell) : Nat := mget (fun _ => 0) s.fab.seq c.dst
        let carries (t : State) (c : FCell) : Prop := t.out = .cell i (c.bytes c.typ x.lseq x.got) :: s.out ∧ t.fab.turn = i + 1
          ∧ t.flink i = { x with lseq := (x.lseq + 1) % 256, unack := x.unack ++ [(x.lseq, c)] }
        let fresh (t : State) (c : FCell) : Prop := carries t { c with seq := seq c }
          ∧ mget (fun _ => 0) t.fab.seq c.dst = (seq c + 1) % 65536
        let idle := (s.fabUpd (fun f => { f with turn := i + 1 })).emit (.cell i (FCell.bytes {} 0 0 x.got))
        (s.linkState i = 2 → exec .fabricCellSend s = .next idle)
        ∧ (s.linkState i = 3 → ∀ n c l, x.again = (n, c) :: l → ∃ t, exec .fabricCellSend s = .next t
          ∧ t.out = .cell i (c.bytes c.typ n x.got) :: s.out ∧ t.flink i = { x with again := l })
        ∧ (s.linkState i = 3 → x.again = [] → 255 ≤ x.unack.length → exec .fabricCellSend s = .next idle)
        ∧ (s.linkState i = 3 → x.again = [] → x.unack.length < 255 →
          (∀ c l, s.fab.ctrl = c :: l → ∃ t, exec .fabricCellSend s = .next t ∧ fresh t c ∧ t.fab.ctrl = l)
          ∧ (∀ c l, s.fab.ctrl = [] → s.fab.again = c :: l → ∃ t, exec .fabricCellSend s = .next t ∧ carries t c ∧ t.fab.again = l)
          ∧ (∀ c l, s.fab.ctrl = [] → s.fab.again = [] → s.fab.data = c :: l →
            ∃ t, exec .fabricCellSend s = .next t ∧ fresh t c ∧ t.fab.data = l)
          ∧ (s.fab.ctrl = [] → s.fab.again = [] → s.fab.data = [] → exec .fabricCellSend s = .next idle)))
      ∧ (∀ (i : Fin 192) (b : Bytes) d nak, b.length ≠ 272 ∨ (s.linkState i.val ≠ 3 ∧ s.linkState i.val ≠ 2) →
        exec (.fabricCellReceive i b d nak) s = .next s)
      ∧ (∀ (i : Fin 192) (b : Bytes) d nak, b.length = 272 → s.linkState i.val = 3 ∨ s.linkState i.val = 2 →
        let h := beN b 0 12
        let typ := byteN b 0 / 64
        let good := beN b 12 4 = fcs (b.take 12 ++ b.drop 16) ∧ typ ≠ 3
        let x := s.flink i.val
        let a := s.flinkPut i.val { x with
          unack := acked x.unack (bits h 45 38)
          again := if nak then acked x.unack (bits h 45 38) else x.again.filter (fun c => (acked x.unack (bits h 45 38)).contains c) }
        let u := a.cnt (R.FAB_LINK_CNT.at i.val) 8
        (¬good → exec (.fabricCellReceive i b d nak) s = .next (s.cnt (R.FAB_LINK_CNT.at i.val) 0x10))
        ∧ (good → typ = 0 → exec (.fabricCellReceive i b d nak) s = .next a)
        ∧ (good → typ ≠ 0 → bits h 53 46 ≠ (x.got + 1) % 256 → exec (.fabricCellReceive i b d nak) s = .next u)
        ∧ (good → typ ≠ 0 → bits h 53 46 = (x.got + 1) % 256 → exec (.fabricCellReceive i b d nak) s =
          .next ((u.flinkPut i.val { u.flink i.val with got := bits h 53 46 }).reseq (cellOf b d))))
      ∧ (∀ n, (s.sent 5 n).en = true → s.voqBacklog n ≠ 0 → s.voqBacklog n ≠ (s.voqI n).asked →
        let u := match (s.voqI n).askedAt with | some t => s.advanceUp (t + 200) | none => s
        ∃ t, exec (.reqSend n) s = .next t ∧ (t.voqI n).asked = u.voqBacklog n ∧ t.fab.ctrl = u.fab.ctrl
          ++ [ctl u (dest u n) (ctrlMsg 1 0 (u.sent 5 n).target (u.voqBacklog n) (u.usedSent n))])
      ∧ (∀ (p : Fin 400) src, s.grantRoom p.val = true → (s.requesters p.val).head? = some src →
        let g := s.rd F.FAB_GRANT_CFG_CELLS
        let n := ((s.feg src p.val).granted + g) % 2 ^ 32
        ∃ t, exec (.grantSend p) s = .next t ∧ (t.feg src p.val).granted = n
          ∧ t.rd (F.FAB_EPORT_OUTSTANDING.at p.val) = s.rd (F.FAB_EPORT_OUTSTANDING.at p.val) + g
          ∧ t.fab.ctrl = s.fab.ctrl ++ [ctl s src (ctrlMsg 2 0 p.val 0 n)])
      ∧ (∀ src : BitVec 11, let r := s.frx src.toNat
        r.returned ≠ r.told → ∃ t, exec (.dcredSend src) s = .next t ∧ (t.frx src.toNat).told = r.returned
          ∧ t.fab.ctrl = s.fab.ctrl ++ [ctl s src.toNat (ctrlMsg 3 0 0 0 r.returned)])
      ∧ (∃ t, exec .creditRefresh s = .next t ∧ t = s.fabUpd (fun f => { f with ctrl := t.fab.ctrl }) ∧
        let told (dst : Nat) (m : Bytes) : Prop := ∃ c ∈ t.fab.ctrl, c.dst = dst ∧ ∃ a b, c.pay = a ++ m ++ b
        (∀ n ∈ s.schOf 5, s.voqBacklog n ≠ 0 → told (dest s n) (s.reqMsg n false))
        ∧ (∀ x ∈ s.fab.eg, x.2.granted ≠ x.2.arrived → told (x.1 / 512) (ctrlMsg 2 0 (x.1 % 512) 0 x.2.granted))
        ∧ (∀ x ∈ s.fab.rx, s.on (F.FAB_SRC_EN.at x.1) = true → told x.1 (ctrlMsg 3 0 0 0 x.2.returned)))
      ∧ (∀ i : Fin 192, s.linkState i.val = 3 → ∃ t, exec (.fabricLinkFail i) s = .next t ∧ t.linkState i.val = 4
        ∧ t.fab.again = s.fab.again ++ (s.flink i.val).unack.map (·.2) ∧ t.flink i.val = {}
        ∧ t.fab.spares = min (s.fab.spares + 1) (s.linksIn 2).length ∧ t.rd F.FAB_EVT_LINK_FAIL = 1)
      ∧ (∀ i, s.fab.spares ≠ 0 → (s.linksIn 2).head? = some i → ∃ t, exec .spareActivate s = .next t ∧ t.linkState i = 3
        ∧ t.fab.spares = s.fab.spares - 1 ∧ t.rd F.FAB_EVT_SPARE_USED = 1)
      ∧ (∀ i : Fin 192, s.linkState i.val = 4 → exec (.linkRetrain i false) s = .next s
        ∧ ∃ t, exec (.linkRetrain i true) s = .next t ∧ t.linkState i.val = 2 ∧ t.flink i.val = {}))
    ∧ (∀ c : FCell, c.src < 2048 →
      let w := s.cnt R.FAB_CNT (if c.ctrl then 0x18 else 0x08)
      let r := w.frx c.src
      (s.on (F.FAB_SRC_EN.at c.src) = false → s.reseq c = s.cnt R.FAB_CNT 0x50)
      ∧ (s.on (F.FAB_SRC_EN.at c.src) = true →
        ((mget (fun _ => (none : Option FCell)) r.held c.seq).isSome = true → s.reseq c = w.cnt R.FAB_CNT 0x20)
        ∧ (r.next = c.seq → r.held = [] → 0 < w.rd (F.FAB_SRC_WIN.at c.src) → c.ctrl = false → r.cut = false →
          (s.reseq c).fab.arrive = s.fab.arrive ++ [.cell c.src c] ∧ ((s.reseq c).frx c.src).next = (c.seq + 1) % 65536
          ∧ ((s.reseq c).frx c.src).returned = (r.returned + 1) % 2 ^ 32)))
    ∧ (∀ n t, (s.voqI n).idleAt = some t → (s.voqI n).balance ≠ 0 →
      let bal := (s.voqI n).balance
      let u := s.advanceUp (t + s.rd F.FAB_GRANT_CFG_IDLE_US * 1000)
      let w := (u.voqUpd n (fun v => { v with used := (v.used + bal) % 2 ^ 32 })).schUpdate 5 n
      (w.standalone = true → exec (.voqForfeit n) s = .next (w.outstanding (w.sent 5 n).target 0 bal))
      ∧ (w.standalone = false → exec (.voqForfeit n) s = .next ((w.cnt R.FAB_CNT 0x48).ctrlSend (dest w n) [w.reqMsg n true])))
    ∧ (∀ (p : Fin 400) n, s.standalone = true → s.inMode mRUN = true → s.grantRoom p.val = true → s.l5For p.val = some n →
      s.voqBacklog n ≠ 0 → let g := s.rd F.FAB_GRANT_CFG_CELLS
      exec (.localLoopGrant p) s = .next ((((s.voqUpd n (fun v => { v with granted := (v.granted + g) % 2 ^ 32 })).voqTouch n).outstanding
        p.val g 0).schUpdate 5 n))
    ∧ (∀ (src : BitVec 11) t d, (s.frx src.toNat).gapAt = some t → (s.frx src.toNat).lowest = some d →
      let r := s.frx src.toNat
      let n := (r.next + d) % 65536
      let u := (s.advanceUp (t + s.rd F.FAB_TIMING_RSQ_NS)).cnt R.FAB_CNT 0x30 d
      let x := if r.mid then u.cnt R.FAB_CNT 0x38 else u
      let y := if x.fab.lostSeen then x.wr F.FAB_EVT_RSQ_LOST 1
        else (x.fabUpd (fun f => { f with lostSeen := true })).fabEvt F.FAB_EVT_RSQ_LOST
      let z := (y.frxUpd src.toNat (fun r => { r with
        next := n, cut := true, mid := false, counted := r.mid || r.counted })).fabUpd
        (fun f => { f with arrive := f.arrive ++ [.gap src.toNat] })
      exec (.reseqGapTimeout src) s = .next ((z.releaseHeld src.toNat (r.held.length + 1)).gapWatch src.toNat true))

/-- For a served SVY command: WRITE_CFG stores the configuration of a context unless it names a mirror session that is not
enabled, READ_CFG shows it, READ_HIST and READ_CUR show the completed and the current window, not valid where the bank serves
a newer one or no window has ended. A report whose bank was needed, then a snapshot record that waits, is written when budget
and room allow, at PROD with its number; with none, a waiting report is. A write of PMC_CTRL sets RUN at once, or with AT_TICK
leaves it and waits for PMC_TICK or the next tick; at its tick RUN changes. A sampling counter that reached its threshold
pushes a sample, one that counts cycles restarting when the command comes (log entry 26), raising the gallery's source from
level 128, or counts it in LOST when the FIFO is full; a read of PMC_SFIFO removes the head. (R441, R443, R444, R449, R451,
R452, R455, R457, R459, R461.) -/
def Obligations.SurveyAndEngineCountersFollowTheirRules : Prop :=
  ∀ (s : State) (v : Word),
    let u (op : Nat) : State := s.cmdPut R.SVY_IND_CMD v 2 op
    let i := bits v.toNat 27 12
    (s.takes R.SVY_IND_CMD F.SVY_IND_STATUS_BUSY →
      (let w := s.rdr (R.SVY_IND_DATA.at 0);
        (bitN w 29 = true → s.on (F.SVY_MIRROR_EN.at (bits w 5 0)) = false → exec (.svyWriteCfg v) s = .next ((u 1).svyDone 1))
        ∧ (bitN w 29 = false ∨ s.on (F.SVY_MIRROR_EN.at (bits w 5 0)) = true → exec (.svyWriteCfg v) s =
          .next (((u 1).hctxPut i { s.hctx i with cfg := bits w 31 24 * 2 ^ 24 + bits w 5 0 }).svyDone 0)))
      ∧ exec (.svyReadCfg v) s = .next (((u 2).svyShow [(s.hctx i).cfg]).svyDone 0)
      ∧ (let got (w : State) (k : Nat) : State :=
          if k < ((w.hctx i).bank k).win then (w.svyShow (HBank.show { win := k } false)).svyDone 0
          else let x := w.bankFor i k; ((x.1.hctxPut i ((x.1.hctx i).setBank k x.2)).svyShow (x.2.show true)).svyDone 0
        (∀ k, (u 3).histLast = some k → exec (.svyReadHist v) s = .next (got (u 3) k))
        ∧ ((u 3).histLast = none → exec (.svyReadHist v) s = .next (((u 3).svyShow (HBank.show {} false)).svyDone 0))
        ∧ exec (.svyReadCur v) s = .next (got (u 4) (if (u 4).histOver then (u 4).histWin (u 4).t16 else (u 4).svy.win))))
    ∧ (∀ d k, ((s.hctx d).bank k).win = k → s.bankFor d k = (s, (s.hctx d).bank k))
    ∧ (∀ r l, s.svy.urgent = r :: l → s.dumpRoom r.len = true →
      exec .dumpRecordWrite s = .next ((s.dumpPut r).svyUpd (fun x => { x with urgent := l })))
    ∧ (∀ n r l, s.svy.urgent = [] → s.svy.work = (n, r) :: l → r.words.length / 2 ≤ s.svy.cntLeft → s.dumpRoom r.len = true →
      exec .dumpRecordWrite s = .next ((s.dumpPut r).svyUpd (fun x => { x with work := l, cntLeft := x.cntLeft - r.words.length / 2 })))
    ∧ (∀ d l, s.svy.urgent = [] → s.svy.work = [] → s.svy.due = d :: l → s.svy.histLeft ≠ 0 → s.dumpRoom 352 = true →
      exec .dumpRecordWrite s = .next ((s.reportPut d).svyUpd (fun x => { x with due := l, histLeft := x.histLeft - 1 })))
    ∧ (∀ r : DumpRec, s.dumpPad r.len = 0 → (s.dumpPut r).svy.seq = (s.svy.seq + 1) % 2 ^ 64
      ∧ (s.dumpPut r).out = .dmaWrite (s.rd64 R.SVY_RING_BASE + s.rd F.SVY_RING_PROD_OFS) (r.bytes s.svy.seq) :: s.out)
    ∧ (∀ g : Fin 8,
      let waits (t : State) : Option (Nat × Nat) := mget (fun _ => none) t.pmcSt.runAt g.val
      (s.serves (R.PMC_CTRL.at g.val).addr → ∃ t, exec (.pmcRunWrite g v) s = .next t
        ∧ t.rd (F.PMC_CTRL_AT_TICK.at g.val) = bits v.toNat 1 1
        ∧ (v.getLsbD 1 = false → t.rd (F.PMC_CTRL_RUN.at g.val) = bits v.toNat 0 0 ∧ waits t = none)
        ∧ (v.getLsbD 1 = true → t.rd (F.PMC_CTRL_RUN.at g.val) = s.rd (F.PMC_CTRL_RUN.at g.val)
          ∧ waits t = some (bits v.toNat 0 0, max (s.rd64 (R.PMC_TICK.at g.val)) s.tb.nextTick)))
      ∧ (∀ n t, waits s = some (n, t) → t ≤ s.tick → s.running = true → ∃ x, exec (.pmcRunTickDue g) s = .next x
        ∧ x.rd (F.PMC_CTRL_RUN.at g.val) = n % 2 ∧ waits x = none)
      ∧ (s.serves (R.PMC_SFIFO.at g.val).addr → ∃ t, exec (.pmcSfifoPop g) s = .next t ∧ t.pmcFifo g.val = (s.pmcFifo g.val).tail
        ∧ t.rd64 (R.PMC_SFIFO.at g.val) = (s.pmcFifo g.val).tail.headD 0 % 2 ^ 64)
      ∧ (∀ (e n t : Fin 8) (idx : BitVec 16),
        let j := 8 * e.val + n.val
        let r := (R.PMC_VAL.on g.val).at j
        let l := s.pmcFifo g.val
        let own := (g.val, e.val, n.val, t.val)
        let w := idx.toNat * 2 ^ 48 + e.val * 2 ^ 45 + t.val * 2 ^ 42 + n.val * 2 ^ 39 + s.ns % 2 ^ 38
        let timed : Bool := pmcTimed (s.rd ((F.PMC_SEL_EVENT.on g.val).at j)) && s.on (F.PMC_CTRL_RUN.at g.val)
          && s.on ((F.PMC_SEL_EN.on g.val).at j) && s.on ((F.PMC_SEL_SAMPLE_EN.on g.val).at j)
        let pushed (z : State) : State :=
          if 256 ≤ l.length then z.satInc (F.PMC_SFIFO_STATUS_LOST.at g.val)
          else if 128 ≤ l.length + 1 then (z.pmcFifoSet g.val (l ++ [w])).raise (eg 14 (1 + g.val)) else z.pmcFifoSet g.val (l ++ [w])
        (s.pmcSt.due.contains own = true →
          exec (.pmcSample g e n t idx) s = .next (pushed { s with pmcSt := { s.pmcSt with due := s.pmcSt.due.erase own } }))
        ∧ (s.pmcSt.due.contains own = false → timed = true → exec (.pmcSample g e n t idx) s = .next (pushed (s.wr64 r 0)))
        ∧ (s.pmcSt.due.contains own = false → timed = false → exec (.pmcSample g e n t idx) s = .next s)))

/-- Raising an existing source sets its EVT_PEND bit, and on a rise with EVT_EN set triggers its vector; a reserved one
changes nothing; nothing else than EVT_PEND and the PBA changes in the registers. A trigger sends, waits for the hold-off, or
sets the PBA bit; a hold-off that ends sends; unmasking clears the PBA of vectors that can send; EVT_FORCE raises each
selected source. Enabling a ring of legal size restarts its indices, otherwise changes nothing; disabling stops it; a DMA
error stops it and records the address; a held shadow is written. A reset of the function gives HST and EVT their Reset values
and leaves other blocks; D3hot is entered and left. (R463, R469, R470, R471, R485, R486, R489.) -/
def Obligations.EventsRingsAndTheFunctionFollowTheirRules : Prop :=
  ∀ (s : State),
    (∀ n,
      (sourceExists n = false → s.raise n = s)
      ∧ (sourceExists n = true → (s.raise n).evtPend n = true
        ∧ (s.evtPend n = true ∨ s.evtEn n = false → (s.raise n).out = s.out)
        ∧ (s.evtPend n = false → s.evtEn n = true → let v := s.rd (F.EVT_MAP_VECTOR.at n)
          (s.vecOpen v = false → (s.raise n).pba v = true ∧ (s.raise n).out = s.out)
          ∧ (s.vecOpen v = true → s.pcie.d3hot = false → s.holdoffPassed v = true → (s.raise n).out =
            .msix v (s.rdr (R.HST_MSIX_TABLE.at v)) (s.rdw ((R.HST_MSIX_TABLE.at v).addr + 4)).toNat
              (s.rdw ((R.HST_MSIX_TABLE.at v).addr + 8)).toNat :: s.out)
          ∧ (s.vecOpen v = true → s.pcie.d3hot = true ∨ s.holdoffPassed v = false →
            v ∈ (s.raise n).ev.deferred ∧ (s.raise n).out = s.out)))
      ∧ (∀ a, (∀ w < 8, a ≠ (R.EVT_PEND.at w).addr ∧ a ≠ (R.HST_MSIX_PBA.at w).addr) → (s.raise n).rdw a = s.rdw a))
    ∧ (∀ (w : Fin 8) (v : Word), s.serves (R.EVT_FORCE.at w.val).addr → exec (.evtForce w v) s =
      .next (foldS (((List.range 32).filter (fun i => v.getLsbD i)).map (32 * w.val + ·)) (fun n s => s.raise n) s))
    ∧ (∀ (v : Fin 256) t, s.ev.deferred.contains v.val = true → s.pcie.d3hot = false →
      mget (fun _ => (none : Option Nat)) s.ev.lastMsg v.val = some t →
      let u := s.advanceUp (t + s.rd (F.EVT_VEC_CFG_HOLDOFF_US.at v.val) * 1000)
      (u.vecOpen v.val = true → exec (.msixHoldoffExpired v) s = .next (u.sendMsg v.val))
      ∧ (u.vecOpen v.val = false → exec (.msixHoldoffExpired v) s = .next { u.setPba v.val 1 with
        ev := { u.ev with deferred := u.ev.deferred.filter (· ≠ v.val) } }))
    ∧ (s.inMode mDORMANT = false →
      (∀ v : Fin 256, ∃ t, exec (.msixUnmask (.vector v)) s = .next t ∧ t.rd (F.HST_MSIX_TABLE_MASK.at v.val) = 0
        ∧ (s.pcie.msixEn = true → s.pcie.funcMask = false → t.pba v.val = false))
      ∧ (∃ t, exec (.msixUnmask .function) s = .next t ∧ t.pcie = { s.pcie with funcMask := false }
        ∧ (s.pcie.msixEn = true → ∀ v < 256, s.rd (F.HST_MSIX_TABLE_MASK.at v) = 0 → t.pba v = false))
      ∧ (∃ t, exec (.msixUnmask .enable) s = .next t ∧ t.pcie = { s.pcie with msixEn := true }
        ∧ (s.pcie.funcMask = false → ∀ v < 256, s.rd (F.HST_MSIX_TABLE_MASK.at v) = 0 → t.pba v = false))
      ∧ exec .d3hotEntry s = .next { s with pcie := { s.pcie with d3hot := true } }
      ∧ (∀ k, ∃ t, exec (.functionLevelReset k) s = .next t ∧ t.pcie = {} ∧ t.ring = {}
        ∧ (∀ a, hostWord a = false → t.rdw a = s.rdw a)
        ∧ (∀ a, hostWord a = true → hostLive a = false → (∀ w < 8, a ≠ (R.EVT_PEND.at w).addr) → t.rdw a = regReset a)
        ∧ (∀ n ∈ levelSources, s.levelUp n = true → n ≠ 240 → t.evtPend n = true)))
    ∧ (s.pcie.d3hot = true → exec .returnToD0 s =
      .next (({ s with pcie := { s.pcie with d3hot := false } }.sendDue).digestPump.rspPump))
    ∧ (s.pcie.d3hot = false → exec .returnToD0 s = .next s)
    ∧ (∀ (i : Fin 72) (v : Word), let n := i.val
      let a := (R.HST_RING.at n).addr + 8
      let w := (s.hostPut a (v ||| 0x80000000)).wr (F.HST_RING_EN.at n) (s.rd (F.HST_RING_EN.at n))
      (s.serves a →
        (s.on (F.HST_RING_EN.at n) = true ∨ w.ringSizeOk n = false → exec (.ringEnable i v) s = .next w)
        ∧ (s.on (F.HST_RING_EN.at n) = false → w.ringSizeOk n = true → ∃ t, exec (.ringEnable i v) s = .next t
          ∧ t.rd (F.HST_RING_EN.at n) = 1 ∧ t.rd (F.HST_RING_STOPPED.at n) = 0 ∧ t.rd (F.HST_RING_CONS.at n) = 0
          ∧ (n ≠ 1 → t.rd (F.HST_RING_PROD.at n) = 0))
        ∧ (s.on (F.HST_RING_EN.at n) = true → ∃ t, exec (.ringDisable i) s = .next t ∧ t.rd (F.HST_RING_EN.at n) = 0
          ∧ t.rd (F.HST_RING_STOPPED.at n) = 1 ∧ (∀ x, x ≠ a → t.rdw x = s.rdw x) ∧ { t with regs := s.regs } = s))
      ∧ (∀ addr : BitVec 64, (s.on (F.HST_RING_EN.at n) = false → exec (.dmaError i addr) s = .next s)
        ∧ (s.on (F.HST_RING_EN.at n) = true → ∃ t, exec (.dmaError i addr) s = .next t ∧ t.rd (F.HST_RING_EN.at n) = 0
          ∧ t.rd (F.HST_RING_STOPPED.at n) = 1 ∧ t.rd64 R.HST_DMA_ERR_ADDR = addr.toNat ∧ t.rd F.HST_DMA_ERR_RING_RING = n
          ∧ t.rd F.HST_EVT_DMA_ERR = 1))
      ∧ (s.ring.shadowDue.contains n = false ∨ s.pcie.d3hot = true → exec (.indexShadowWrite i) s = .next s)
      ∧ (∀ t, s.ring.shadowDue.contains n = true → s.pcie.d3hot = false → mget (fun _ => (none : Option Nat)) s.ring.shadowAt n = some t →
        let u := s.advanceUp (t + 100)
        ∃ x, exec (.indexShadowWrite i) s = .next x ∧ n ∉ x.ring.shadowDue
          ∧ x.out = .dmaWrite (u.shadow n) (leB 4 (if hostProduces n then u.cons n else u.prod n) ++ zeros 4) :: u.out))

/-- A BAR2 read returns the bytes of the table region, free ones in LULL, and zero beyond its end, poisoned on an error; a
write takes effect only when all its bytes lie in the staging area or an engine window, and otherwise is counted and flagged.
The inject record whose turn it is is skipped as PAD, discarded as bad, or its frame sent, and CONS moves to the next record,
to a free one after a bad length. A due event frame leaves its tether port. An I2C write sets the pointer, a read returns the
listed registers and advances it, and RECOVERY acts in RETURNED only. (R465, R466, R479, R480, R483, R484, R487.) -/
def Obligations.WindowInjectEventFramesAndI2cFollowTheirRules : Prop :=
  ∀ (s : State),
    (s.inMode mDORMANT = false → ∀ (o : BitVec 32),
      let a := s.rd F.HST_WIN_BASE_MIB * 2 ^ 20 + o.toNat
      (∀ n, let m := min n (s.tblSize - a)
        let r := if s.inMode mLULL then s.openBytes m else s.tRead a m
        (exec (.bar2Read o n false) s = .next (r.2.emit (.bar2 o.toNat (r.1 ++ zeros (n - m)) false)))
        ∧ (m ≠ 0 → exec (.bar2Read o n true) s =
          .next (((r.2.emit (.bar2 o.toNat (r.1 ++ zeros (n - m)) true)).cnt R.HST_CNT 8).hstEvt F.HST_EVT_WIN_POISON)))
      ∧ (∀ b : Bytes, let m := min b.length (s.tblSize - a)
        (m = 0 → exec (.bar2Write o b) s = .next s)
        ∧ (m ≠ 0 → (∀ i < m, s.winMay (a + i) = true) → (s.inMode mLULL = false → exec (.bar2Write o b) s = .next (s.tPut a (b.take m)))
          ∧ (s.inMode mLULL = true → exec (.bar2Write o b) s = .next s))
        ∧ ((∃ i < m, s.winMay (a + i) = false) → exec (.bar2Write o b) s =
          .next ((s.cnt R.HST_CNT).hstEvt F.HST_EVT_WIN_DENIED))))
    ∧ (∀ a, s.winMay a = true ↔ (s.rd64 R.PAT_STAGE_BASE ≤ a ∧ a < s.rd64 R.PAT_STAGE_BASE + 2 ^ 25)
      ∨ ∃ g < 8, (s.galI g).winBase ≤ a ∧ a < (s.galI g).winBase + (s.galI g).winSize)
    ∧ (∀ (r : Fin 32) (b : Bytes) (e1 e2 : PassEnv), let i := 40 + r.val
      s.injNext = some i → s.inMode mRUN = true ∨ s.inMode mLULL = true → s.ringSizeOk i = true →
      let x := injOf b
      let u : State := { s with ring := { s.ring with injTurn := i } }
      let typ := bits (leN b 0 4) 31 24
      let good := typ = 1 ∧ x.len ≤ b.length ∧ s.injOk x b = true
      let n := (s.cons i + x.len) % s.ringSize i
      (s.injLenOk i x.len = true →
        (typ = 0xFF → exec (.injectRecord r b e1 e2) s = .next (u.setCons i n))
        ∧ (good → exec (.injectRecord r b e1 e2) s =
          .next (((u.cnt (R.HST_RING_CNT.at i) 0).injFrame x (slice b 32 x.flen) e1 e2).setCons i n))
        ∧ (typ ≠ 0xFF → ¬good → exec (.injectRecord r b e1 e2) s = .next ((u.injBad i).setCons i n)))
      ∧ (s.injLenOk i x.len = false → ∃ k, exec (.injectRecord r b e1 e2) s =
          .next ((({ u with free := s.free + 1 } : State).injBad i).setCons i k) ∧ k % 64 = 0 ∧ k < s.ringSize i))
    ∧ (∀ n : Fin 2, let p := 144 + n.val
      s.on F.EVT_TMGMT_EN = true → s.on (F.LPT_CTRL_TMGMT_EN.at p) = true → s.link p = true → s.tmSrc ≠ 0 → s.tmDue = true →
      (∀ t, s.ev.tmAt = some t → t + s.rd F.EVT_TMGMT_HOLDOFF_MS * 10 ^ 6 ≤ s.tb.up) → s.inMode mRUN = true ∨ s.inMode mLULL = true →
      ∃ t seq, exec (.tmgmtEventFrame n) s = .next t ∧ t.ev = { s.ev with tmRaised := 0, tmCount := 0, tmAt := some s.tb.up } ∧
        let f := s.tmFrame p s.tmSrc 1 (digestBytes s.ev.closed seq s.ev.tmCount s.digestInfo s.ev.tmRaised s.pendWord)
        (s.directTx p = true → (s.pst p).direct = [] → ∃ st, t.out = .frame p st (withFcs (f ++ zeros (60 - f.length))) :: s.out)
        ∧ (s.directTx p = false → t.out = s.out ∧ (t.pst p).direct = (s.pst p).direct ++ [(false, f)]))
    ∧ (s.powered = false → ∀ x ∈ [Instr.i2cPointerWrite 0, .i2cRegisterRead 1, .i2cRecoveryRestart, .i2cRecoverySafehold], exec x s = .next s)
    ∧ (s.powered = true →
      (∀ v, exec (.i2cPointerWrite v) s = .next { s with i2cPtr := v.toNat })
      ∧ (let p := s.i2cPtr
        ∃ t, exec (.i2cRegisterRead 1) s = .next t ∧ t.i2cPtr = (p + 1) % 256 ∧ ∃ w, t.out = .i2c (beB 2 w) :: s.out
          ∧ (p = 0 → w = s.rdr R.GLB_PART % 65536) ∧ (p = 1 → w = s.rd F.GLB_STEP_STEP)
          ∧ (p = 2 → w = if s.inMode mDORMANT then 0 else s.rdr R.MOD_STATUS % 65536) ∧ (p = 3 → w = s.rdr R.MOD_SAFE % 65536)
          ∧ (p = 4 → w = s.lc + s.rd F.MOD_RSQ_COUNT * 256)
          ∧ (8 ≤ p → p < 16 → w = s.unitId / 2 ^ (16 * (15 - p)) % 65536)
          ∧ (16 ≤ p → p < 32 → w = s.rd (F.MOD_THERM_TEMP_TEMP.at (p - 16)))
          ∧ (p ∉ [0, 1, 2, 3, 4, 0x20, 0x21] → ¬(8 ≤ p ∧ p < 32) → w = 0))
      ∧ (∀ n, exec (.i2cRegisterRead n) s = .next ((s.i2cGet n).2.emit (.i2c (s.i2cGet n).1)))
      ∧ (let u : State := { s with i2cPtr := 0x40 }
        (s.lc = lcRET → exec .i2cRecoveryRestart s = .next (u.modCmd 4 false false)
          ∧ exec .i2cRecoverySafehold s = .next (u.modCmd 5 false false))
        ∧ (s.lc ≠ lcRET → exec .i2cRecoveryRestart s = .next (u.emit .i2cNak) ∧ exec .i2cRecoverySafehold s = .next (u.emit .i2cNak))))

/-- A GO that is refused shows its code and DONE and starts nothing; an accepted one starts the test, or waits for its tick,
where the request is judged again (log entry 139); the Keeper's turn takes the galleries in rotation and counts a refused
turn. A test drains, tests, repairs or fails the gallery, loads it and ends with its RESULT. PROBE goes from step to step,
shows the lane results, and at its end stores the device record and starts ASCENT. A failing HBM row, one with an
uncorrectable error or with ROW_THRESH correctable ones within a second, takes a remap row if one is left. An ECC error is
counted, logged and raised, and an uncorrectable one acts by its kind of memory, a fatal one (BIS_MEM_INFO.FATAL) restarting
the device. Reads of the fail and HBM logs pop them. BIS_MEM_SEL loads the words of the instance. (R493, R494, R500, R501,
R502, R503, R504, R507, R508, R510, R513.) -/
def Obligations.SelfTestAndErrorsFollowTheirRules : Prop :=
  ∀ (s : State),
    (∀ v : Word, s.serves R.BIS_GTEST_CTRL.addr →
      let g := bits v.toNat 10 8
      let at_ := v.getLsbD 31
      let code := s.gtRefuse g at_
      (s.rd F.BIS_GTEST_CTRL_GO = 1 → exec (.gtestGo v) s =
        .next ((s.wr F.BIS_GTEST_CTRL_AT_TICK (b2n at_)).wr F.BIS_GTEST_CTRL_GAL g))
      ∧ (s.rd F.BIS_GTEST_CTRL_GO = 0 → ∃ t, exec (.gtestGo v) s = .next t ∧ t.rd F.BIS_GTEST_STATUS_GAL = g
        ∧ t.rd F.BIS_GTEST_STATUS_REJECT = code ∧ t.rd F.BIS_GTEST_CTRL_GO = (if code = 0 then 1 else 0)
        ∧ (code ≠ 0 → t.rd F.BIS_GTEST_STATUS_DONE = 1 ∧ t.bist = s.bist ∧ t.gal = s.gal)
        ∧ (code = 0 → at_ = true → t.bist = { s.bist with gtAt := some (g,
          if s.tickPassed (s.rd64 R.BIS_GTEST_TICK) then s.tb.nextTick else s.rd64 R.BIS_GTEST_TICK) })
        ∧ (code = 0 → at_ = false → t.rd F.BIS_GTEST_STATUS_ACTIVE = 1 ∧ t.rd F.BIS_GTEST_STATUS_RESULT = 0 ∧
          (s.galState g = gSERVICE → t.bist.gt = some { g := g, step := 2 } ∧ t.galState g = gDRAINING)
          ∧ (s.galState g ≠ gSERVICE → t.bist.gt = some { g := g, step := 3 } ∧ t.galState g = gTEST))))
    ∧ (∀ g at_,
      (s.gtRefuse g at_ = 1 ↔ s.bist.gt.isSome = true)
      ∧ (s.gtRefuse g at_ = 0 → s.inMode mRUN = true ∧ s.rd F.MOD_STATUS_PHASE = 0 ∧ s.kpr.swap = none ∧ s.armedSet 2 = 0
        ∧ s.galState ((g + 1) % 8) = gSERVICE ∧ s.rd (F.GAL_STATUS_SERVING_NBR.at g) = 0 ∧ (at_ = true → s.running = true)))
    ∧ (s.rd F.BIS_CFG_GTEST_AUTO_S ≠ 0 → s.kprServes = true →
      let g := s.bist.turn % 8
      let u := s.advanceUp (s.bist.autoAt + s.rd F.BIS_CFG_GTEST_AUTO_S * 10 ^ 9)
      let r := ({ u with bist := { u.bist with turn := (g + 1) % 8, autoAt := u.tb.up } } : State).gtRequest g none
      exec .gtestAuto s = .next (if r.2 then r.1 else r.1.cnt R.BIS_CNT 0x48))
    ∧ (s.rd F.BIS_CFG_GTEST_AUTO_S = 0 ∨ s.kprServes = false → exec .gtestAuto s = .next s)
    ∧ (∀ g t, s.bist.gtAt = some (g, t) → s.running = true →
      let r := ({ s with bist := { s.bist with gtAt := none } } : State).gtRequest g none
      (t ≤ s.tick → s.inMode mRUN = true → exec .gtestTickDue s = .next (r.1.wr F.BIS_GTEST_CTRL_GO (b2n r.2)))
      ∧ (s.tick < t ∨ s.inMode mRUN = false → exec .gtestTickDue s = .next s))
    ∧ (∀ (x : Gtest) (e : TestRes), s.bist.gt = some x → x.g < 8 →
      let r := e.within (galParts x.g)
      (x.step = 2 → s.galState x.g = gDRAINING → ∃ t, exec (.gtestStepDone e) s = .next t ∧ t.galState x.g = gTEST
        ∧ t.bist.gt = some { x with step := 3 } ∧ t.rd F.BIS_STATUS_PHASE = 6)
      ∧ (x.step = 3 → exec (.gtestStepDone e) s = .next (let u := s.lbistStore r (galParts x.g)
        { u with bist := { u.bist with gt := some { x with step := 4, res := { x.res with lbist := r.lbist } } } }))
      ∧ (x.step = 4 → let y : TestRes := { r with lbist := x.res.lbist }
        exec (.gtestStepDone e) s = .next (let u := s.failWords y 2 false
          { u with bist := { u.bist with gt := some { x with step := 5, res := y } } }))
      ∧ (x.step = 5 → s.gtBad x.res x.g = true ∨ bitN s.bist.gfail x.g = true → ∃ t, exec (.gtestStepDone e) s = .next t
        ∧ t.rd F.BIS_GTEST_STATUS_RESULT = 3 ∧ t.galState x.g = gOFF ∧ t.bist.gt = none)
      ∧ (x.step = 5 → s.gtBad x.res x.g = false → bitN s.bist.gfail x.g = false → ∃ t y, exec (.gtestStepDone e) s = .next t
        ∧ t.bist.gt = some y ∧ y.step = 6 ∧ y.g = x.g)
      ∧ (x.step = 6 → let u := (((s.galOff x.g).galPower x.g).loadGal x.g (engProg s.kpr.eng x.g)).echAfterTest x.g
        (u.galState x.g = gLOADING → exec (.gtestStepDone e) s =
          .next ({ u with bist := { u.bist with gt := some { x with step := 7 } } } : State))
        ∧ (u.galState x.g ≠ gLOADING → exec (.gtestStepDone e) s = .next (u.gtEnd x.g 3)))
      ∧ (7 ≤ x.step → s.galState x.g = gOFF → exec (.gtestStepDone e) s = .next (s.gtEnd x.g 3))
      ∧ (7 ≤ x.step → s.galState x.g = gSERVICE → ∃ t, exec (.gtestStepDone e) s = .next t ∧ t.bist.gt = none
        ∧ t.rd F.BIS_GTEST_STATUS_RESULT = (if x.repaired then 2 else 1) ∧ t.rd F.BIS_GTEST_STATUS_ACTIVE = 0
        ∧ t.rd F.BIS_GTEST_STATUS_DONE = 1))
    ∧ (∀ e : ProbeEnv, s.inMode mPROBE = true → ∃ t, exec (.probeStepDone e) s = .next t
      ∧ (2 ≤ s.md.probe → s.md.probe ≤ 5 → t.md.probe = s.md.probe + 1 ∧ t.mode = mPROBE)
      ∧ (s.md.probe = 5 → bitN s.md.probeCfg 0 = true → ∀ i < 338, t.rdr (R.BIS_PROBE_LANE.at i) = laneWord (e.errors i))
      ∧ (s.md.probe = 3 → t.bist.probeRecs.length ≤ 256)
      ∧ (s.md.probe = 4 → ∀ k < 8, t.rd (F.BIS_HBM_STATUS_REMAP_USED.at k) = s.rd (F.BIS_HBM_STATUS_REMAP_USED.at k))
      ∧ (5 < s.md.probe → t.mode = mASCENT ∧ t.nvm.dev.fails = s.bist.probeRecs ∧ t.nvm.dev.lanes = s.probeLanes
        ∧ bits t.nvm.dev.probe 31 31 = 1 ∧ bits t.nvm.dev.probe 30 30 = (if s.bist.probeBad then 0 else 1)))
    ∧ (∀ x, let used := F.BIS_HBM_STATUS_REMAP_USED.at x.stack.val
      let copied (w : State) : State :=
        let y : State := { w with bist := { w.bist with rows := w.bist.rows.filter (fun r => r.1 ≠ x.rowNo) } }
        if 64 ≤ w.rd used then y else (((y.wr used (w.rd used + 1)).cnt R.BIS_CNT 0x28).hbmPush 2 x).raise (eg 15 3)
      let seen (ue : Bool) : State := (s.cnt R.BIS_CNT (if ue then 0x20 else 0x18)).cnt (R.HBM_CNT.at x.stack.val) (if ue then 0x18 else 0x10)
      (s.inMode mRUN = true ∨ s.inMode mLULL = true →
        (∀ k, exec (.hbmRowRemap x (some k)) s = .next ((copied ((seen true).uncorrected x.rowNo)).eccEffect k))
        ∧ (let w := (seen false).rowNote x
          let n := (w.bist.rows.filter (fun r => r.1 == x.rowNo)).length
          (n < max 1 (w.rd F.BIS_CFG_ROW_THRESH) → exec (.hbmRowRemap x none) s = .next w)
          ∧ (max 1 (w.rd F.BIS_CFG_ROW_THRESH) ≤ n → exec (.hbmRowRemap x none) s = .next (copied w)))
        ∧ (let l := s.bist.rows.filter (fun r => decide (s.tb.up < r.2 + 10 ^ 9))
          l.any (fun r => r.1 == x.rowNo) = true ∨ (ascending (l.map (·.1))).length < 256 →
            ((seen false).rowNote x).bist.rows = l ++ [(x.rowNo, s.tb.up)]))
      ∧ (s.inMode mRUN = false → s.inMode mLULL = false → ∀ ue, exec (.hbmRowRemap x ue) s = .next s))
    ∧ (∀ (m : BitVec 17) (a : BitVec 26) (k : EccKind), s.inMode mDORMANT = false →
      exec (.eccScrub m a k false) s = .next (((s.cnt R.BIS_CNT 0).eccLog m.toNat a.toNat false).raise (eg 15 1))
      ∧ (let u := ((s.cnt R.BIS_CNT 8).eccLog m.toNat a.toNat true).raise (eg 15 2)
        (Config.memInfo m.toNat 1 % 2 = 0 → exec (.eccScrub m a .plain true) s = .next u)
        ∧ (Config.memInfo m.toNat 1 % 2 = 1 → exec (.eccScrub m a .plain true) s = exec (.eccScrub m a .fatal true) s)
        ∧ (u.keeperUp = true → exec (.eccScrub m a .fatal true) s =
          .next (({ u with nvm := { u.nvm with dev := { u.nvm.dev with fatal := some (u.rd64 R.BIS_ECC_LOG, u.tick) } } } : State).keeperCmd 4))
        ∧ (u.keeperUp = false → exec (.eccScrub m a .fatal true) s = .next u)
        ∧ (∀ q i f, (u.eq (q / 8) (q % 8))[i]? = some f → exec (.eccScrub m a (.packet q i) true) s =
          .next ((u.frameSet (q / 8) (q % 8) f { f with cut := true }).cnt R.BIS_CNT 0x10))
        ∧ (∀ l, exec (.eccScrub m a (.counter l) true) s = .next (foldS l (fun c s => s.cntSaturate c) u))
        ∧ (∀ n, exec (.eccScrub m a (.pointers n) true) s = .next (u.cellsLost 0 1))
        ∧ (∀ p, exec (.eccScrub m a (.metaLine p) true) s = .next (u.cellsLost p.val 15))
        ∧ (∀ n, exec (.eccScrub m a (.echo n) true) s = .next (u.echError n.val))))
    ∧ (s.serves R.BIS_FAIL_LOG.addr → ∃ t, exec .failLogPop s = .next t ∧ t.bist = { s.bist with failLog := s.bist.failLog.tail }
      ∧ t.rd64 R.BIS_FAIL_LOG = s.bist.failLog.tail.headD 0 % 2 ^ 64)
    ∧ (s.serves R.BIS_HBM_LOG.addr → ∃ t, exec .hbmLogPop s = .next t ∧ t.bist = { s.bist with hbmLog := s.bist.hbmLog.tail }
      ∧ t.rd64 R.BIS_HBM_LOG = s.bist.hbmLog.tail.headD 0 % 2 ^ 64)
    ∧ (∀ v : Word, s.serves R.BIS_MEM_SEL.addr → let m := bits v.toNat 16 0
      ∃ t, exec (.bisMemSelWrite v) s = .next t ∧ t.rd F.BIS_MEM_SEL_MEM = m ∧ t.rd F.BIS_MEM_SEL_PART = Config.memInfo m 0 % 128
        ∧ t.rd F.BIS_MEM_SEL_FATAL = Config.memInfo m 1 % 2 ∧ t.rd F.BIS_MEM_SEL_ROWS = Config.memInfo m 2 % 2 ^ 24
        ∧ t.rd F.BIS_MEM_SEL_WIDTH = Config.memInfo m 3 % 65536 ∧ t.rd F.BIS_MEM_SEL_SPARE_ROWS = Config.memInfo m 4 % 256
        ∧ t.rd F.BIS_MEM_SEL_SPARE_COLS = Config.memInfo m 5 % 16)

/-- With command c at the front of its queue, step answers what exec answers for c with the queue's rest. On an empty queue it
answers the next state in which one nanosecond has passed, which is the model's choice (log entry 2). The opcode table gives
no row bits, so no word spells a command and withFetchWord leaves the state as it is. (R36, R63.) -/
def Obligations.StepRunsTheFrontCommand : Prop :=
  (∀ (s : State) (c : Instr) (l : List Instr), step { s with pending := c :: l } = exec c { s with pending := l })
  ∧ (∀ s : State, s.pending = [] → step s = .next s.idle)
  ∧ (∀ (s : State) (n w : Nat), decodeTableWord n w = none ∧ s.withFetchWord n w = s)

/-- State.reset has an empty queue, a register file in canonical form, and in every register word each field at the Reset
value of its row; so GLB_PART reads 0x00002880 and GLB_STEP 0xA1, the mode is ASCENT and GLB_ERR_CNT is zero. The values of
what the spec gives no reset value are the model's choice (log entry 1) and no clause rests on them. (R1, R12, R74, R433.) -/
def Obligations.ResetHoldsTheResetValues : Prop :=
  State.reset.pending = [] ∧ mwf regReset State.reset.regs = true
  ∧ (∀ a r ix, regRow a = some (r, ix) → ∀ f ∈ r.fields, bits (State.reset.rdw a).toNat f.hi f.lo = fieldReset r ix f)
  ∧ State.reset.rdr R.GLB_PART = 0x2880 ∧ State.reset.rd F.GLB_STEP_STEP = 0xA1 ∧ State.reset.mode = mASCENT
  ∧ State.reset.rd64 R.GLB_ERR_CNT = 0

/-- If the register file of s is in canonical form, rising offsets and no entry equal to the Reset value an unlisted word
reads as, and step answers a next state t, then the register file of t is in canonical form: whichever command is at the front
of the queue, or with none when time passes. (R10, R12.) -/
def Obligations.EveryStepKeepsRegistersCanonical : Prop :=
  ∀ s t : State, mwf regReset s.regs = true → step s = .next t → mwf regReset t.regs = true

/-- The word of every well-formed engine instruction, with every operand at every value its encoding admits, has 32 bits and
decodes to that instruction, the eight events of the supervisor's registers to the MFS or MTS they are. A word of 32 bits that
decodes is the word of the instruction it decodes to, which is well formed and has the guard the word spells. (R301, R302,
R303, R304.) -/
def Obligations.DecodeAndEncodeAgree : Prop :=
  (∀ (i : Instr) (d : Iss) (w : Nat), i.iss = some d → i.wf = true → encodeEngine i = some w → w < 2 ^ 32 ∧
    ∃ v : EngEnv, v.c = d.c ∧ v.ecc = d.ecc ∧ (decodeEngine v w = some i ∨ ∃ r,
      (i = .notePop d r ∧ decodeEngine v w = some (.mfs d r 0x10))
      ∨ (i = .thrRegWrite d r ∧ decodeEngine v w = some (.mts d r 0x13))
      ∨ (i ∈ [Instr.thrResume d r, .thrSkip d r, .thrJump d r, .thrRestart d r] ∧ decodeEngine v w = some (.mts d r 0x14))
      ∨ (i = .synthPost d r ∧ decodeEngine v w = some (.mts d r 0x15))
      ∨ (i = .reclaim d r ∧ decodeEngine v w = some (.mts d r 0x16))))
  ∧ (∀ (v : EngEnv) (w : Nat) (i : Instr), w < 2 ^ 32 → decodeEngine v w = some i →
    encodeEngine i = some w ∧ i.wf = true
      ∧ i.iss = some ⟨v.c, w.testBit 31, BitVec.ofNat 3 (w / 2 ^ 28), v.ecc⟩)

/-- The all-zero word is ADD G0, G0, G0 under P0; 0x00022180 is ADD G1, G2, G3; 0x00422FFF is ADDI G1, G2, -1; 0x937FFFFF is
BR -1 under the inverted P1; 0x06485C02 is LD of 8 bytes to G4 at G5 plus 2 accesses; 0x0B400053 is PKT PUNT with reason 5;
opcode 0x31 spells nothing. (R301, R302, R303, R304.) -/
def Obligations.WrittenOutWordsDecode : Prop :=
  ∀ v : EngEnv, let d : Iss := ⟨v.c, false, 0, v.ecc⟩
    decodeEngine v 0x00000000 = some (.add d 0 0 0) ∧ decodeEngine v 0x00022180 = some (.add d 1 2 3)
    ∧ decodeEngine v 0x00422FFF = some (.addi d 1 2 0xFFF) ∧ decodeEngine v 0x937FFFFF = some (.br ⟨v.c, true, 1, v.ecc⟩ 0x3FFFFF)
    ∧ decodeEngine v 0x06485C02 = some (.ld d 4 5 3 2) ∧ decodeEngine v 0x0B400053 = some (.pktPunt d 5)
    ∧ decodeEngine v 0x0C400000 = none

/-- In every row of the register map a bit that no field covers keeps its value on a host write and reads as zero. An aligned
access to an offset that is unassigned or reserved, outside DORMANT and where it is neither busy nor refused early, completes
normally: a read with zero, a write without one, and no register changes but the access log and count. (R10.) -/
def Obligations.ReservedFieldsAndOffsetsReadZero : Prop :=
  (∀ b ∈ regBlocks, ∀ r ∈ b.rows, ∀ (s : State) (ix : List Nat) (old v : Word) (i : Nat),
    (∀ f ∈ r.fields, ¬(f.lo ≤ i ∧ i ≤ f.hi)) →
    (s.merged r ix old v).getLsbD i = old.getLsbD i ∧ (readable r.fields old).getLsbD i = false)
  ∧ (∀ (s : State) (a : BitVec 28), s.inMode mDORMANT = false → a.toNat % 4 = 0 → regRow a.toNat = none → s.barBusy a.toNat = false →
    s.barEarly a.toNat = false →
    let same (t : State) : Prop := ∀ x, x < R.GLB_ERR_LOG.addr ∨ R.GLB_ERR_CNT.addr + 8 ≤ x → t.rdw x = s.rdw x
    (∃ t, exec (.reservedRangeAccess a none) s = .next t ∧ t.out = .read a.toNat 0 :: s.out ∧ same t)
    ∧ (∀ v, ∃ t, exec (.reservedRangeAccess a (some v)) s = .next t ∧ t.out = s.out ∧ same t))
end

