-- ==== Sys2Proof/Laws/SMap.lean ====
section
/-! SUPPORT. The laws of sparse storage: read after write, and every operation keeps the canonical form. -/

namespace Sys2Proof.Machine

section Reads
variable {V : Type}

/-- A removed key reads as its default. -/
theorem mget_merase (d : Nat → V) (m : SMap V) (k j : Nat) :
    mget d (merase m k) j = if j = k then d j else mget d m j := by
  induction m with
  | nil => simp [merase, mget]
  | cons e m ih =>
    obtain ⟨a, v⟩ := e
    by_cases h : a = k
    · subst h
      have : merase ((a, v) :: m) a = merase m a := by simp [merase]
      rw [this, ih]
      by_cases hj : j = a
      · simp [hj]
      · simp [hj, mget, Ne.symm hj]
    · have : merase ((a, v) :: m) k = (a, v) :: merase m k := by simp [merase, h]
      rw [this]
      by_cases hj : a = j
      · subst hj; simp [mget, h]
      · simp [mget, hj, ih]

/-- A put value is what its key reads as. -/
theorem mget_mput (d : Nat → V) (m : SMap V) (k j : Nat) (v : V) :
    mget d (mput m k v) j = if j = k then v else mget d m j := by
  induction m with
  | nil => simp [mput, mget, eq_comm]
  | cons e m ih =>
    obtain ⟨a, w⟩ := e
    simp only [mput]
    split
    · simp [mget, eq_comm]
    · split
      · rename_i h; subst h
        by_cases hj : a = j <;> simp [mget, hj, eq_comm]
        intro h; exact absurd h.symm hj
      · rename_i h1 h2
        by_cases hj : a = j
        · subst hj; simp [mget, h2]
        · simp [mget, hj, ih]

/-- Read after write: the written key reads as the value, every other key as before. -/
@[simp] theorem mget_mset [DecidableEq V] (d : Nat → V) (m : SMap V) (k j : Nat) (v : V) :
    mget d (mset d m k v) j = if j = k then v else mget d m j := by
  unfold mset
  split
  · rename_i h
    rw [mget_merase]
    by_cases hj : j = k <;> simp [hj, h]
  · exact mget_mput d m k j v

/-- Read after update. -/
@[simp] theorem mget_mupd [DecidableEq V] (d : Nat → V) (m : SMap V) (k j : Nat) (f : V → V) :
    mget d (mupd d m k f) j = if j = k then f (mget d m j) else mget d m j := by
  by_cases h : j = k <;> simp [mupd, h]

/-- A cleared range reads as its defaults, the rest as before. -/
theorem mget_mclear (d : Nat → V) (m : SMap V) (lo hi j : Nat) :
    mget d (mclear m lo hi) j = if lo ≤ j ∧ j < hi then d j else mget d m j := by
  induction m with
  | nil => simp [mclear, mget]
  | cons e m ih =>
    obtain ⟨a, v⟩ := e
    unfold mclear at ih ⊢
    rw [List.filter_cons]
    by_cases ha : a < lo ∨ hi ≤ a
    · simp only [ha, decide_true, if_true, mget, ih]
      by_cases hj : a = j
      · subst hj; simp only [if_true]; rw [if_neg (by omega)]
      · simp [hj]
    · simp only [ha, decide_false, mget]
      rw [if_neg (by decide), ih]
      by_cases hj : a = j
      · subst hj; rw [if_pos (by omega), if_pos (by omega)]
      · simp [hj]

end Reads

section Canonical
variable {V : Type} [DecidableEq V]

omit [DecidableEq V] in
/-- Keys above a bound are above every lower one. -/
theorem mrising_weaken {b a : Nat} {m : SMap V} (h : mrising (some a) m = true) (hb : b ≤ a) : mrising (some b) m = true := by
  cases m with
  | nil => rfl
  | cons e m => simp only [mrising, Bool.and_eq_true, decide_eq_true_eq] at h ⊢; exact ⟨by omega, h.2⟩

omit [DecidableEq V] in
/-- A sublist of rising keys rises. -/
theorem mrising_filter (p : Nat × V → Bool) {b : Option Nat} {m : SMap V} (h : mrising b m = true) :
    mrising b (m.filter p) = true := by
  induction m generalizing b with
  | nil => rfl
  | cons e m ih =>
    obtain ⟨a, v⟩ := e
    simp only [mrising, Bool.and_eq_true] at h
    rw [List.filter_cons]
    split
    · simp only [mrising, Bool.and_eq_true]; exact ⟨h.1, ih h.2⟩
    · have := ih h.2
      cases b with
      | none => cases hm : m.filter p with
        | nil => rfl
        | cons x l => rw [hm] at this; simp only [mrising, Bool.and_eq_true] at this ⊢; exact ⟨trivial, this.2⟩
      | some b => exact mrising_weaken this (by have := h.1; simp at this; omega)

omit [DecidableEq V] in
/-- A put key above the bound keeps the keys rising. -/
theorem mrising_mput {b : Option Nat} {m : SMap V} (h : mrising b m = true) {k : Nat} (v : V)
    (hb : ∀ x, b = some x → x < k) : mrising b (mput m k v) = true := by
  induction m generalizing b with
  | nil => cases b <;> simp [mput, mrising]; exact hb _ rfl
  | cons e m ih =>
    obtain ⟨a, w⟩ := e
    have h' := h
    simp only [mrising, Bool.and_eq_true] at h
    simp only [mput]
    split
    · rename_i hk
      simp only [mrising, Bool.and_eq_true, decide_eq_true_eq]
      refine ⟨?_, hk, h.2⟩
      cases b with
      | none => rfl
      | some x => simpa using hb x rfl
    · split
      · rename_i hk; subst hk; simp only [mrising, Bool.and_eq_true]; exact h
      · rename_i hk1 hk2
        simp only [mrising, Bool.and_eq_true]
        exact ⟨h.1, ih h.2 (by intro x hx; cases hx; omega)⟩

/-- No entry of a sublist equals its default. -/
theorem mproper_filter (d : Nat → V) (p : Nat × V → Bool) {m : SMap V} (h : mproper d m = true) : mproper d (m.filter p) = true := by
  induction m with
  | nil => rfl
  | cons e m ih =>
    obtain ⟨a, v⟩ := e
    simp only [mproper, Bool.and_eq_true] at h
    rw [List.filter_cons]
    split
    · simp only [mproper, Bool.and_eq_true]; exact ⟨h.1, ih h.2⟩
    · exact ih h.2

/-- Putting a value other than the default leaves every entry proper. -/
theorem mproper_mput (d : Nat → V) {m : SMap V} (h : mproper d m = true) {k : Nat} {v : V} (hv : v ≠ d k) :
    mproper d (mput m k v) = true := by
  induction m with
  | nil => simp [mput, mproper, hv]
  | cons e m ih =>
    obtain ⟨a, w⟩ := e
    have h' := h
    simp only [mproper, Bool.and_eq_true] at h
    simp only [mput]
    split
    · simp only [mproper, Bool.and_eq_true, decide_eq_true_eq] at h' ⊢; exact ⟨hv, h'⟩
    · split
      · simp only [mproper, Bool.and_eq_true, decide_eq_true_eq]; exact ⟨hv, h.2⟩
      · simp only [mproper, Bool.and_eq_true]; exact ⟨h.1, ih h.2⟩

/-- A sublist of a canonical map is canonical. -/
theorem mwf_filter (d : Nat → V) (p : Nat × V → Bool) {m : SMap V} (h : mwf d m = true) : mwf d (m.filter p) = true := by
  simp only [mwf, Bool.and_eq_true] at h ⊢
  exact ⟨mrising_filter p h.1, mproper_filter d p h.2⟩

/-- Clearing a range keeps the canonical form. -/
theorem mwf_mclear (d : Nat → V) {m : SMap V} (h : mwf d m = true) (lo hi : Nat) : mwf d (mclear m lo hi) = true :=
  mwf_filter d _ h

/-- A write keeps the canonical form. -/
theorem mwf_mset (d : Nat → V) {m : SMap V} (h : mwf d m = true) (k : Nat) (v : V) : mwf d (mset d m k v) = true := by
  unfold mset
  split
  · exact mwf_filter d _ h
  · rename_i hv
    simp only [mwf, Bool.and_eq_true] at h ⊢
    exact ⟨mrising_mput h.1 v (by intro x hx; cases hx), mproper_mput d h.2 hv⟩

/-- An update keeps the canonical form. -/
theorem mwf_mupd (d : Nat → V) {m : SMap V} (h : mwf d m = true) (k : Nat) (f : V → V) : mwf d (mupd d m k f) = true :=
  mwf_mset d h k _

/-- The empty map is canonical. -/
theorem mwf_nil (d : Nat → V) : mwf d ([] : SMap V) = true := rfl

end Canonical

end Sys2Proof.Machine
end

