-- ==== Sys2Proof/Laws/State.lean ====
section
/-! SUPPORT. Updates of the state, field by field: what a named update of registers, outputs or galleries leaves as it was,
one lemma per field and update, all true by definition. -/

namespace Sys2Proof.Machine

section wrw
variable (s : State) (a : Nat) (w : Word)
@[simp] theorem wrw_held : (s.wrw a w).held = s.held := rfl
@[simp] theorem wrw_latch : (s.wrw a w).latch = s.latch := rfl
@[simp] theorem wrw_tb : (s.wrw a w).tb = s.tb := rfl
@[simp] theorem wrw_ev : (s.wrw a w).ev = s.ev := rfl
@[simp] theorem wrw_pcie : (s.wrw a w).pcie = s.pcie := rfl
@[simp] theorem wrw_tsf : (s.wrw a w).tsf = s.tsf := rfl
@[simp] theorem wrw_pauses : (s.wrw a w).pauses = s.pauses := rfl
@[simp] theorem wrw_pauseFrac : (s.wrw a w).pauseFrac = s.pauseFrac := rfl
@[simp] theorem wrw_pauseSince : (s.wrw a w).pauseSince = s.pauseSince := rfl
@[simp] theorem wrw_byp0 : (s.wrw a w).byp0 = s.byp0 := rfl
@[simp] theorem wrw_byp1 : (s.wrw a w).byp1 = s.byp1 := rfl
@[simp] theorem wrw_portSt : (s.wrw a w).portSt = s.portSt := rfl
@[simp] theorem wrw_egr : (s.wrw a w).egr = s.egr := rfl
@[simp] theorem wrw_otnIf : (s.wrw a w).otnIf = s.otnIf := rfl
@[simp] theorem wrw_otnPc : (s.wrw a w).otnPc = s.otnPc := rfl
@[simp] theorem wrw_pm : (s.wrw a w).pm = s.pm := rfl
@[simp] theorem wrw_pmNext : (s.wrw a w).pmNext = s.pmNext := rfl
@[simp] theorem wrw_pmLast : (s.wrw a w).pmLast = s.pmLast := rfl
@[simp] theorem wrw_pmLate : (s.wrw a w).pmLate = s.pmLate := rfl
@[simp] theorem wrw_tsi : (s.wrw a w).tsi = s.tsi := rfl
@[simp] theorem wrw_ring : (s.wrw a w).ring = s.ring := rfl
@[simp] theorem wrw_cls : (s.wrw a w).cls = s.cls := rfl
@[simp] theorem wrw_punt : (s.wrw a w).punt = s.punt := rfl
@[simp] theorem wrw_acl : (s.wrw a w).acl = s.acl := rfl
@[simp] theorem wrw_tmem : (s.wrw a w).tmem = s.tmem := rfl
@[simp] theorem wrw_cmt : (s.wrw a w).cmt = s.cmt := rfl
@[simp] theorem wrw_routes : (s.wrw a w).routes = s.routes := rfl
@[simp] theorem wrw_pivots : (s.wrw a w).pivots = s.pivots := rfl
@[simp] theorem wrw_look : (s.wrw a w).look = s.look := rfl
@[simp] theorem wrw_learn : (s.wrw a w).learn = s.learn := rfl
@[simp] theorem wrw_kpr : (s.wrw a w).kpr = s.kpr := rfl
@[simp] theorem wrw_nvm : (s.wrw a w).nvm = s.nvm := rfl
@[simp] theorem wrw_md : (s.wrw a w).md = s.md := rfl
@[simp] theorem wrw_bist : (s.wrw a w).bist = s.bist := rfl
@[simp] theorem wrw_i2cPtr : (s.wrw a w).i2cPtr = s.i2cPtr := rfl
@[simp] theorem wrw_tap : (s.wrw a w).tap = s.tap := rfl
@[simp] theorem wrw_shp : (s.wrw a w).shp = s.shp := rfl
@[simp] theorem wrw_gate : (s.wrw a w).gate = s.gate := rfl
@[simp] theorem wrw_gateSeen : (s.wrw a w).gateSeen = s.gateSeen := rfl
@[simp] theorem wrw_gateSpill : (s.wrw a w).gateSpill = s.gateSpill := rfl
@[simp] theorem wrw_stm : (s.wrw a w).stm = s.stm := rfl
@[simp] theorem wrw_soj : (s.wrw a w).soj = s.soj := rfl
@[simp] theorem wrw_sq : (s.wrw a w).sq = s.sq := rfl
@[simp] theorem wrw_hrd : (s.wrw a w).hrd = s.hrd := rfl
@[simp] theorem wrw_adm : (s.wrw a w).adm = s.adm := rfl
@[simp] theorem wrw_eport : (s.wrw a w).eport = s.eport := rfl
@[simp] theorem wrw_fab : (s.wrw a w).fab = s.fab := rfl
@[simp] theorem wrw_svy : (s.wrw a w).svy = s.svy := rfl
@[simp] theorem wrw_pmcSt : (s.wrw a w).pmcSt = s.pmcSt := rfl
@[simp] theorem wrw_engCnt : (s.wrw a w).engCnt = s.engCnt := rfl
@[simp] theorem wrw_gal : (s.wrw a w).gal = s.gal := rfl
@[simp] theorem wrw_galIn : (s.wrw a w).galIn = s.galIn := rfl
@[simp] theorem wrw_echo : (s.wrw a w).echo = s.echo := rfl
@[simp] theorem wrw_tmSrc : (s.wrw a w).tmSrc = s.tmSrc := rfl
@[simp] theorem wrw_tmPort : (s.wrw a w).tmPort = s.tmPort := rfl
@[simp] theorem wrw_hbmUtil : (s.wrw a w).hbmUtil = s.hbmUtil := rfl
@[simp] theorem wrw_out : (s.wrw a w).out = s.out := rfl
@[simp] theorem wrw_free : (s.wrw a w).free = s.free := rfl
@[simp] theorem wrw_pending : (s.wrw a w).pending = s.pending := rfl
end wrw

section wr
variable (s : State) (f : Fld) (v : Nat)
@[simp] theorem wr_held : (s.wr f v).held = s.held := wrw_held _ _ _
@[simp] theorem wr_latch : (s.wr f v).latch = s.latch := wrw_latch _ _ _
@[simp] theorem wr_tb : (s.wr f v).tb = s.tb := wrw_tb _ _ _
@[simp] theorem wr_ev : (s.wr f v).ev = s.ev := wrw_ev _ _ _
@[simp] theorem wr_pcie : (s.wr f v).pcie = s.pcie := wrw_pcie _ _ _
@[simp] theorem wr_tsf : (s.wr f v).tsf = s.tsf := wrw_tsf _ _ _
@[simp] theorem wr_pauses : (s.wr f v).pauses = s.pauses := wrw_pauses _ _ _
@[simp] theorem wr_pauseFrac : (s.wr f v).pauseFrac = s.pauseFrac := wrw_pauseFrac _ _ _
@[simp] theorem wr_pauseSince : (s.wr f v).pauseSince = s.pauseSince := wrw_pauseSince _ _ _
@[simp] theorem wr_byp0 : (s.wr f v).byp0 = s.byp0 := wrw_byp0 _ _ _
@[simp] theorem wr_byp1 : (s.wr f v).byp1 = s.byp1 := wrw_byp1 _ _ _
@[simp] theorem wr_portSt : (s.wr f v).portSt = s.portSt := wrw_portSt _ _ _
@[simp] theorem wr_egr : (s.wr f v).egr = s.egr := wrw_egr _ _ _
@[simp] theorem wr_otnIf : (s.wr f v).otnIf = s.otnIf := wrw_otnIf _ _ _
@[simp] theorem wr_otnPc : (s.wr f v).otnPc = s.otnPc := wrw_otnPc _ _ _
@[simp] theorem wr_pm : (s.wr f v).pm = s.pm := wrw_pm _ _ _
@[simp] theorem wr_pmNext : (s.wr f v).pmNext = s.pmNext := wrw_pmNext _ _ _
@[simp] theorem wr_pmLast : (s.wr f v).pmLast = s.pmLast := wrw_pmLast _ _ _
@[simp] theorem wr_pmLate : (s.wr f v).pmLate = s.pmLate := wrw_pmLate _ _ _
@[simp] theorem wr_tsi : (s.wr f v).tsi = s.tsi := wrw_tsi _ _ _
@[simp] theorem wr_ring : (s.wr f v).ring = s.ring := wrw_ring _ _ _
@[simp] theorem wr_cls : (s.wr f v).cls = s.cls := wrw_cls _ _ _
@[simp] theorem wr_punt : (s.wr f v).punt = s.punt := wrw_punt _ _ _
@[simp] theorem wr_acl : (s.wr f v).acl = s.acl := wrw_acl _ _ _
@[simp] theorem wr_tmem : (s.wr f v).tmem = s.tmem := wrw_tmem _ _ _
@[simp] theorem wr_cmt : (s.wr f v).cmt = s.cmt := wrw_cmt _ _ _
@[simp] theorem wr_routes : (s.wr f v).routes = s.routes := wrw_routes _ _ _
@[simp] theorem wr_pivots : (s.wr f v).pivots = s.pivots := wrw_pivots _ _ _
@[simp] theorem wr_look : (s.wr f v).look = s.look := wrw_look _ _ _
@[simp] theorem wr_learn : (s.wr f v).learn = s.learn := wrw_learn _ _ _
@[simp] theorem wr_kpr : (s.wr f v).kpr = s.kpr := wrw_kpr _ _ _
@[simp] theorem wr_nvm : (s.wr f v).nvm = s.nvm := wrw_nvm _ _ _
@[simp] theorem wr_md : (s.wr f v).md = s.md := wrw_md _ _ _
@[simp] theorem wr_bist : (s.wr f v).bist = s.bist := wrw_bist _ _ _
@[simp] theorem wr_i2cPtr : (s.wr f v).i2cPtr = s.i2cPtr := wrw_i2cPtr _ _ _
@[simp] theorem wr_tap : (s.wr f v).tap = s.tap := wrw_tap _ _ _
@[simp] theorem wr_shp : (s.wr f v).shp = s.shp := wrw_shp _ _ _
@[simp] theorem wr_gate : (s.wr f v).gate = s.gate := wrw_gate _ _ _
@[simp] theorem wr_gateSeen : (s.wr f v).gateSeen = s.gateSeen := wrw_gateSeen _ _ _
@[simp] theorem wr_gateSpill : (s.wr f v).gateSpill = s.gateSpill := wrw_gateSpill _ _ _
@[simp] theorem wr_stm : (s.wr f v).stm = s.stm := wrw_stm _ _ _
@[simp] theorem wr_soj : (s.wr f v).soj = s.soj := wrw_soj _ _ _
@[simp] theorem wr_sq : (s.wr f v).sq = s.sq := wrw_sq _ _ _
@[simp] theorem wr_hrd : (s.wr f v).hrd = s.hrd := wrw_hrd _ _ _
@[simp] theorem wr_adm : (s.wr f v).adm = s.adm := wrw_adm _ _ _
@[simp] theorem wr_eport : (s.wr f v).eport = s.eport := wrw_eport _ _ _
@[simp] theorem wr_fab : (s.wr f v).fab = s.fab := wrw_fab _ _ _
@[simp] theorem wr_svy : (s.wr f v).svy = s.svy := wrw_svy _ _ _
@[simp] theorem wr_pmcSt : (s.wr f v).pmcSt = s.pmcSt := wrw_pmcSt _ _ _
@[simp] theorem wr_engCnt : (s.wr f v).engCnt = s.engCnt := wrw_engCnt _ _ _
@[simp] theorem wr_gal : (s.wr f v).gal = s.gal := wrw_gal _ _ _
@[simp] theorem wr_galIn : (s.wr f v).galIn = s.galIn := wrw_galIn _ _ _
@[simp] theorem wr_echo : (s.wr f v).echo = s.echo := wrw_echo _ _ _
@[simp] theorem wr_tmSrc : (s.wr f v).tmSrc = s.tmSrc := wrw_tmSrc _ _ _
@[simp] theorem wr_tmPort : (s.wr f v).tmPort = s.tmPort := wrw_tmPort _ _ _
@[simp] theorem wr_hbmUtil : (s.wr f v).hbmUtil = s.hbmUtil := wrw_hbmUtil _ _ _
@[simp] theorem wr_out : (s.wr f v).out = s.out := wrw_out _ _ _
@[simp] theorem wr_free : (s.wr f v).free = s.free := wrw_free _ _ _
@[simp] theorem wr_pending : (s.wr f v).pending = s.pending := wrw_pending _ _ _
end wr

section wrr
variable (s : State) (r : Reg) (v : Nat)
@[simp] theorem wrr_held : (s.wrr r v).held = s.held := wrw_held _ _ _
@[simp] theorem wrr_latch : (s.wrr r v).latch = s.latch := wrw_latch _ _ _
@[simp] theorem wrr_tb : (s.wrr r v).tb = s.tb := wrw_tb _ _ _
@[simp] theorem wrr_ev : (s.wrr r v).ev = s.ev := wrw_ev _ _ _
@[simp] theorem wrr_pcie : (s.wrr r v).pcie = s.pcie := wrw_pcie _ _ _
@[simp] theorem wrr_tsf : (s.wrr r v).tsf = s.tsf := wrw_tsf _ _ _
@[simp] theorem wrr_pauses : (s.wrr r v).pauses = s.pauses := wrw_pauses _ _ _
@[simp] theorem wrr_pauseFrac : (s.wrr r v).pauseFrac = s.pauseFrac := wrw_pauseFrac _ _ _
@[simp] theorem wrr_pauseSince : (s.wrr r v).pauseSince = s.pauseSince := wrw_pauseSince _ _ _
@[simp] theorem wrr_byp0 : (s.wrr r v).byp0 = s.byp0 := wrw_byp0 _ _ _
@[simp] theorem wrr_byp1 : (s.wrr r v).byp1 = s.byp1 := wrw_byp1 _ _ _
@[simp] theorem wrr_portSt : (s.wrr r v).portSt = s.portSt := wrw_portSt _ _ _
@[simp] theorem wrr_egr : (s.wrr r v).egr = s.egr := wrw_egr _ _ _
@[simp] theorem wrr_otnIf : (s.wrr r v).otnIf = s.otnIf := wrw_otnIf _ _ _
@[simp] theorem wrr_otnPc : (s.wrr r v).otnPc = s.otnPc := wrw_otnPc _ _ _
@[simp] theorem wrr_pm : (s.wrr r v).pm = s.pm := wrw_pm _ _ _
@[simp] theorem wrr_pmNext : (s.wrr r v).pmNext = s.pmNext := wrw_pmNext _ _ _
@[simp] theorem wrr_pmLast : (s.wrr r v).pmLast = s.pmLast := wrw_pmLast _ _ _
@[simp] theorem wrr_pmLate : (s.wrr r v).pmLate = s.pmLate := wrw_pmLate _ _ _
@[simp] theorem wrr_tsi : (s.wrr r v).tsi = s.tsi := wrw_tsi _ _ _
@[simp] theorem wrr_ring : (s.wrr r v).ring = s.ring := wrw_ring _ _ _
@[simp] theorem wrr_cls : (s.wrr r v).cls = s.cls := wrw_cls _ _ _
@[simp] theorem wrr_punt : (s.wrr r v).punt = s.punt := wrw_punt _ _ _
@[simp] theorem wrr_acl : (s.wrr r v).acl = s.acl := wrw_acl _ _ _
@[simp] theorem wrr_tmem : (s.wrr r v).tmem = s.tmem := wrw_tmem _ _ _
@[simp] theorem wrr_cmt : (s.wrr r v).cmt = s.cmt := wrw_cmt _ _ _
@[simp] theorem wrr_routes : (s.wrr r v).routes = s.routes := wrw_routes _ _ _
@[simp] theorem wrr_pivots : (s.wrr r v).pivots = s.pivots := wrw_pivots _ _ _
@[simp] theorem wrr_look : (s.wrr r v).look = s.look := wrw_look _ _ _
@[simp] theorem wrr_learn : (s.wrr r v).learn = s.learn := wrw_learn _ _ _
@[simp] theorem wrr_kpr : (s.wrr r v).kpr = s.kpr := wrw_kpr _ _ _
@[simp] theorem wrr_nvm : (s.wrr r v).nvm = s.nvm := wrw_nvm _ _ _
@[simp] theorem wrr_md : (s.wrr r v).md = s.md := wrw_md _ _ _
@[simp] theorem wrr_bist : (s.wrr r v).bist = s.bist := wrw_bist _ _ _
@[simp] theorem wrr_i2cPtr : (s.wrr r v).i2cPtr = s.i2cPtr := wrw_i2cPtr _ _ _
@[simp] theorem wrr_tap : (s.wrr r v).tap = s.tap := wrw_tap _ _ _
@[simp] theorem wrr_shp : (s.wrr r v).shp = s.shp := wrw_shp _ _ _
@[simp] theorem wrr_gate : (s.wrr r v).gate = s.gate := wrw_gate _ _ _
@[simp] theorem wrr_gateSeen : (s.wrr r v).gateSeen = s.gateSeen := wrw_gateSeen _ _ _
@[simp] theorem wrr_gateSpill : (s.wrr r v).gateSpill = s.gateSpill := wrw_gateSpill _ _ _
@[simp] theorem wrr_stm : (s.wrr r v).stm = s.stm := wrw_stm _ _ _
@[simp] theorem wrr_soj : (s.wrr r v).soj = s.soj := wrw_soj _ _ _
@[simp] theorem wrr_sq : (s.wrr r v).sq = s.sq := wrw_sq _ _ _
@[simp] theorem wrr_hrd : (s.wrr r v).hrd = s.hrd := wrw_hrd _ _ _
@[simp] theorem wrr_adm : (s.wrr r v).adm = s.adm := wrw_adm _ _ _
@[simp] theorem wrr_eport : (s.wrr r v).eport = s.eport := wrw_eport _ _ _
@[simp] theorem wrr_fab : (s.wrr r v).fab = s.fab := wrw_fab _ _ _
@[simp] theorem wrr_svy : (s.wrr r v).svy = s.svy := wrw_svy _ _ _
@[simp] theorem wrr_pmcSt : (s.wrr r v).pmcSt = s.pmcSt := wrw_pmcSt _ _ _
@[simp] theorem wrr_engCnt : (s.wrr r v).engCnt = s.engCnt := wrw_engCnt _ _ _
@[simp] theorem wrr_gal : (s.wrr r v).gal = s.gal := wrw_gal _ _ _
@[simp] theorem wrr_galIn : (s.wrr r v).galIn = s.galIn := wrw_galIn _ _ _
@[simp] theorem wrr_echo : (s.wrr r v).echo = s.echo := wrw_echo _ _ _
@[simp] theorem wrr_tmSrc : (s.wrr r v).tmSrc = s.tmSrc := wrw_tmSrc _ _ _
@[simp] theorem wrr_tmPort : (s.wrr r v).tmPort = s.tmPort := wrw_tmPort _ _ _
@[simp] theorem wrr_hbmUtil : (s.wrr r v).hbmUtil = s.hbmUtil := wrw_hbmUtil _ _ _
@[simp] theorem wrr_out : (s.wrr r v).out = s.out := wrw_out _ _ _
@[simp] theorem wrr_free : (s.wrr r v).free = s.free := wrw_free _ _ _
@[simp] theorem wrr_pending : (s.wrr r v).pending = s.pending := wrw_pending _ _ _
end wrr

section wr64
variable (s : State) (r : Reg) (v : Nat)
@[simp] theorem wr64_held : (s.wr64 r v).held = s.held := (wrw_held _ _ _).trans (wrw_held _ _ _)
@[simp] theorem wr64_latch : (s.wr64 r v).latch = s.latch := (wrw_latch _ _ _).trans (wrw_latch _ _ _)
@[simp] theorem wr64_tb : (s.wr64 r v).tb = s.tb := (wrw_tb _ _ _).trans (wrw_tb _ _ _)
@[simp] theorem wr64_ev : (s.wr64 r v).ev = s.ev := (wrw_ev _ _ _).trans (wrw_ev _ _ _)
@[simp] theorem wr64_pcie : (s.wr64 r v).pcie = s.pcie := (wrw_pcie _ _ _).trans (wrw_pcie _ _ _)
@[simp] theorem wr64_tsf : (s.wr64 r v).tsf = s.tsf := (wrw_tsf _ _ _).trans (wrw_tsf _ _ _)
@[simp] theorem wr64_pauses : (s.wr64 r v).pauses = s.pauses := (wrw_pauses _ _ _).trans (wrw_pauses _ _ _)
@[simp] theorem wr64_pauseFrac : (s.wr64 r v).pauseFrac = s.pauseFrac := (wrw_pauseFrac _ _ _).trans (wrw_pauseFrac _ _ _)
@[simp] theorem wr64_pauseSince : (s.wr64 r v).pauseSince = s.pauseSince := (wrw_pauseSince _ _ _).trans (wrw_pauseSince _ _ _)
@[simp] theorem wr64_byp0 : (s.wr64 r v).byp0 = s.byp0 := (wrw_byp0 _ _ _).trans (wrw_byp0 _ _ _)
@[simp] theorem wr64_byp1 : (s.wr64 r v).byp1 = s.byp1 := (wrw_byp1 _ _ _).trans (wrw_byp1 _ _ _)
@[simp] theorem wr64_portSt : (s.wr64 r v).portSt = s.portSt := (wrw_portSt _ _ _).trans (wrw_portSt _ _ _)
@[simp] theorem wr64_egr : (s.wr64 r v).egr = s.egr := (wrw_egr _ _ _).trans (wrw_egr _ _ _)
@[simp] theorem wr64_otnIf : (s.wr64 r v).otnIf = s.otnIf := (wrw_otnIf _ _ _).trans (wrw_otnIf _ _ _)
@[simp] theorem wr64_otnPc : (s.wr64 r v).otnPc = s.otnPc := (wrw_otnPc _ _ _).trans (wrw_otnPc _ _ _)
@[simp] theorem wr64_pm : (s.wr64 r v).pm = s.pm := (wrw_pm _ _ _).trans (wrw_pm _ _ _)
@[simp] theorem wr64_pmNext : (s.wr64 r v).pmNext = s.pmNext := (wrw_pmNext _ _ _).trans (wrw_pmNext _ _ _)
@[simp] theorem wr64_pmLast : (s.wr64 r v).pmLast = s.pmLast := (wrw_pmLast _ _ _).trans (wrw_pmLast _ _ _)
@[simp] theorem wr64_pmLate : (s.wr64 r v).pmLate = s.pmLate := (wrw_pmLate _ _ _).trans (wrw_pmLate _ _ _)
@[simp] theorem wr64_tsi : (s.wr64 r v).tsi = s.tsi := (wrw_tsi _ _ _).trans (wrw_tsi _ _ _)
@[simp] theorem wr64_ring : (s.wr64 r v).ring = s.ring := (wrw_ring _ _ _).trans (wrw_ring _ _ _)
@[simp] theorem wr64_cls : (s.wr64 r v).cls = s.cls := (wrw_cls _ _ _).trans (wrw_cls _ _ _)
@[simp] theorem wr64_punt : (s.wr64 r v).punt = s.punt := (wrw_punt _ _ _).trans (wrw_punt _ _ _)
@[simp] theorem wr64_acl : (s.wr64 r v).acl = s.acl := (wrw_acl _ _ _).trans (wrw_acl _ _ _)
@[simp] theorem wr64_tmem : (s.wr64 r v).tmem = s.tmem := (wrw_tmem _ _ _).trans (wrw_tmem _ _ _)
@[simp] theorem wr64_cmt : (s.wr64 r v).cmt = s.cmt := (wrw_cmt _ _ _).trans (wrw_cmt _ _ _)
@[simp] theorem wr64_routes : (s.wr64 r v).routes = s.routes := (wrw_routes _ _ _).trans (wrw_routes _ _ _)
@[simp] theorem wr64_pivots : (s.wr64 r v).pivots = s.pivots := (wrw_pivots _ _ _).trans (wrw_pivots _ _ _)
@[simp] theorem wr64_look : (s.wr64 r v).look = s.look := (wrw_look _ _ _).trans (wrw_look _ _ _)
@[simp] theorem wr64_learn : (s.wr64 r v).learn = s.learn := (wrw_learn _ _ _).trans (wrw_learn _ _ _)
@[simp] theorem wr64_kpr : (s.wr64 r v).kpr = s.kpr := (wrw_kpr _ _ _).trans (wrw_kpr _ _ _)
@[simp] theorem wr64_nvm : (s.wr64 r v).nvm = s.nvm := (wrw_nvm _ _ _).trans (wrw_nvm _ _ _)
@[simp] theorem wr64_md : (s.wr64 r v).md = s.md := (wrw_md _ _ _).trans (wrw_md _ _ _)
@[simp] theorem wr64_bist : (s.wr64 r v).bist = s.bist := (wrw_bist _ _ _).trans (wrw_bist _ _ _)
@[simp] theorem wr64_i2cPtr : (s.wr64 r v).i2cPtr = s.i2cPtr := (wrw_i2cPtr _ _ _).trans (wrw_i2cPtr _ _ _)
@[simp] theorem wr64_tap : (s.wr64 r v).tap = s.tap := (wrw_tap _ _ _).trans (wrw_tap _ _ _)
@[simp] theorem wr64_shp : (s.wr64 r v).shp = s.shp := (wrw_shp _ _ _).trans (wrw_shp _ _ _)
@[simp] theorem wr64_gate : (s.wr64 r v).gate = s.gate := (wrw_gate _ _ _).trans (wrw_gate _ _ _)
@[simp] theorem wr64_gateSeen : (s.wr64 r v).gateSeen = s.gateSeen := (wrw_gateSeen _ _ _).trans (wrw_gateSeen _ _ _)
@[simp] theorem wr64_gateSpill : (s.wr64 r v).gateSpill = s.gateSpill := (wrw_gateSpill _ _ _).trans (wrw_gateSpill _ _ _)
@[simp] theorem wr64_stm : (s.wr64 r v).stm = s.stm := (wrw_stm _ _ _).trans (wrw_stm _ _ _)
@[simp] theorem wr64_soj : (s.wr64 r v).soj = s.soj := (wrw_soj _ _ _).trans (wrw_soj _ _ _)
@[simp] theorem wr64_sq : (s.wr64 r v).sq = s.sq := (wrw_sq _ _ _).trans (wrw_sq _ _ _)
@[simp] theorem wr64_hrd : (s.wr64 r v).hrd = s.hrd := (wrw_hrd _ _ _).trans (wrw_hrd _ _ _)
@[simp] theorem wr64_adm : (s.wr64 r v).adm = s.adm := (wrw_adm _ _ _).trans (wrw_adm _ _ _)
@[simp] theorem wr64_eport : (s.wr64 r v).eport = s.eport := (wrw_eport _ _ _).trans (wrw_eport _ _ _)
@[simp] theorem wr64_fab : (s.wr64 r v).fab = s.fab := (wrw_fab _ _ _).trans (wrw_fab _ _ _)
@[simp] theorem wr64_svy : (s.wr64 r v).svy = s.svy := (wrw_svy _ _ _).trans (wrw_svy _ _ _)
@[simp] theorem wr64_pmcSt : (s.wr64 r v).pmcSt = s.pmcSt := (wrw_pmcSt _ _ _).trans (wrw_pmcSt _ _ _)
@[simp] theorem wr64_engCnt : (s.wr64 r v).engCnt = s.engCnt := (wrw_engCnt _ _ _).trans (wrw_engCnt _ _ _)
@[simp] theorem wr64_gal : (s.wr64 r v).gal = s.gal := (wrw_gal _ _ _).trans (wrw_gal _ _ _)
@[simp] theorem wr64_galIn : (s.wr64 r v).galIn = s.galIn := (wrw_galIn _ _ _).trans (wrw_galIn _ _ _)
@[simp] theorem wr64_echo : (s.wr64 r v).echo = s.echo := (wrw_echo _ _ _).trans (wrw_echo _ _ _)
@[simp] theorem wr64_tmSrc : (s.wr64 r v).tmSrc = s.tmSrc := (wrw_tmSrc _ _ _).trans (wrw_tmSrc _ _ _)
@[simp] theorem wr64_tmPort : (s.wr64 r v).tmPort = s.tmPort := (wrw_tmPort _ _ _).trans (wrw_tmPort _ _ _)
@[simp] theorem wr64_hbmUtil : (s.wr64 r v).hbmUtil = s.hbmUtil := (wrw_hbmUtil _ _ _).trans (wrw_hbmUtil _ _ _)
@[simp] theorem wr64_out : (s.wr64 r v).out = s.out := (wrw_out _ _ _).trans (wrw_out _ _ _)
@[simp] theorem wr64_free : (s.wr64 r v).free = s.free := (wrw_free _ _ _).trans (wrw_free _ _ _)
@[simp] theorem wr64_pending : (s.wr64 r v).pending = s.pending := (wrw_pending _ _ _).trans (wrw_pending _ _ _)
end wr64

section cnt
variable (s : State) (r : Reg) (o n : Nat)
@[simp] theorem cnt_held : (s.cnt r o n).held = s.held := wr64_held _ _ _
@[simp] theorem cnt_latch : (s.cnt r o n).latch = s.latch := wr64_latch _ _ _
@[simp] theorem cnt_tb : (s.cnt r o n).tb = s.tb := wr64_tb _ _ _
@[simp] theorem cnt_ev : (s.cnt r o n).ev = s.ev := wr64_ev _ _ _
@[simp] theorem cnt_pcie : (s.cnt r o n).pcie = s.pcie := wr64_pcie _ _ _
@[simp] theorem cnt_tsf : (s.cnt r o n).tsf = s.tsf := wr64_tsf _ _ _
@[simp] theorem cnt_pauses : (s.cnt r o n).pauses = s.pauses := wr64_pauses _ _ _
@[simp] theorem cnt_pauseFrac : (s.cnt r o n).pauseFrac = s.pauseFrac := wr64_pauseFrac _ _ _
@[simp] theorem cnt_pauseSince : (s.cnt r o n).pauseSince = s.pauseSince := wr64_pauseSince _ _ _
@[simp] theorem cnt_byp0 : (s.cnt r o n).byp0 = s.byp0 := wr64_byp0 _ _ _
@[simp] theorem cnt_byp1 : (s.cnt r o n).byp1 = s.byp1 := wr64_byp1 _ _ _
@[simp] theorem cnt_portSt : (s.cnt r o n).portSt = s.portSt := wr64_portSt _ _ _
@[simp] theorem cnt_egr : (s.cnt r o n).egr = s.egr := wr64_egr _ _ _
@[simp] theorem cnt_otnIf : (s.cnt r o n).otnIf = s.otnIf := wr64_otnIf _ _ _
@[simp] theorem cnt_otnPc : (s.cnt r o n).otnPc = s.otnPc := wr64_otnPc _ _ _
@[simp] theorem cnt_pm : (s.cnt r o n).pm = s.pm := wr64_pm _ _ _
@[simp] theorem cnt_pmNext : (s.cnt r o n).pmNext = s.pmNext := wr64_pmNext _ _ _
@[simp] theorem cnt_pmLast : (s.cnt r o n).pmLast = s.pmLast := wr64_pmLast _ _ _
@[simp] theorem cnt_pmLate : (s.cnt r o n).pmLate = s.pmLate := wr64_pmLate _ _ _
@[simp] theorem cnt_tsi : (s.cnt r o n).tsi = s.tsi := wr64_tsi _ _ _
@[simp] theorem cnt_ring : (s.cnt r o n).ring = s.ring := wr64_ring _ _ _
@[simp] theorem cnt_cls : (s.cnt r o n).cls = s.cls := wr64_cls _ _ _
@[simp] theorem cnt_punt : (s.cnt r o n).punt = s.punt := wr64_punt _ _ _
@[simp] theorem cnt_acl : (s.cnt r o n).acl = s.acl := wr64_acl _ _ _
@[simp] theorem cnt_tmem : (s.cnt r o n).tmem = s.tmem := wr64_tmem _ _ _
@[simp] theorem cnt_cmt : (s.cnt r o n).cmt = s.cmt := wr64_cmt _ _ _
@[simp] theorem cnt_routes : (s.cnt r o n).routes = s.routes := wr64_routes _ _ _
@[simp] theorem cnt_pivots : (s.cnt r o n).pivots = s.pivots := wr64_pivots _ _ _
@[simp] theorem cnt_look : (s.cnt r o n).look = s.look := wr64_look _ _ _
@[simp] theorem cnt_learn : (s.cnt r o n).learn = s.learn := wr64_learn _ _ _
@[simp] theorem cnt_kpr : (s.cnt r o n).kpr = s.kpr := wr64_kpr _ _ _
@[simp] theorem cnt_nvm : (s.cnt r o n).nvm = s.nvm := wr64_nvm _ _ _
@[simp] theorem cnt_md : (s.cnt r o n).md = s.md := wr64_md _ _ _
@[simp] theorem cnt_bist : (s.cnt r o n).bist = s.bist := wr64_bist _ _ _
@[simp] theorem cnt_i2cPtr : (s.cnt r o n).i2cPtr = s.i2cPtr := wr64_i2cPtr _ _ _
@[simp] theorem cnt_tap : (s.cnt r o n).tap = s.tap := wr64_tap _ _ _
@[simp] theorem cnt_shp : (s.cnt r o n).shp = s.shp := wr64_shp _ _ _
@[simp] theorem cnt_gate : (s.cnt r o n).gate = s.gate := wr64_gate _ _ _
@[simp] theorem cnt_gateSeen : (s.cnt r o n).gateSeen = s.gateSeen := wr64_gateSeen _ _ _
@[simp] theorem cnt_gateSpill : (s.cnt r o n).gateSpill = s.gateSpill := wr64_gateSpill _ _ _
@[simp] theorem cnt_stm : (s.cnt r o n).stm = s.stm := wr64_stm _ _ _
@[simp] theorem cnt_soj : (s.cnt r o n).soj = s.soj := wr64_soj _ _ _
@[simp] theorem cnt_sq : (s.cnt r o n).sq = s.sq := wr64_sq _ _ _
@[simp] theorem cnt_hrd : (s.cnt r o n).hrd = s.hrd := wr64_hrd _ _ _
@[simp] theorem cnt_adm : (s.cnt r o n).adm = s.adm := wr64_adm _ _ _
@[simp] theorem cnt_eport : (s.cnt r o n).eport = s.eport := wr64_eport _ _ _
@[simp] theorem cnt_fab : (s.cnt r o n).fab = s.fab := wr64_fab _ _ _
@[simp] theorem cnt_svy : (s.cnt r o n).svy = s.svy := wr64_svy _ _ _
@[simp] theorem cnt_pmcSt : (s.cnt r o n).pmcSt = s.pmcSt := wr64_pmcSt _ _ _
@[simp] theorem cnt_engCnt : (s.cnt r o n).engCnt = s.engCnt := wr64_engCnt _ _ _
@[simp] theorem cnt_gal : (s.cnt r o n).gal = s.gal := wr64_gal _ _ _
@[simp] theorem cnt_galIn : (s.cnt r o n).galIn = s.galIn := wr64_galIn _ _ _
@[simp] theorem cnt_echo : (s.cnt r o n).echo = s.echo := wr64_echo _ _ _
@[simp] theorem cnt_tmSrc : (s.cnt r o n).tmSrc = s.tmSrc := wr64_tmSrc _ _ _
@[simp] theorem cnt_tmPort : (s.cnt r o n).tmPort = s.tmPort := wr64_tmPort _ _ _
@[simp] theorem cnt_hbmUtil : (s.cnt r o n).hbmUtil = s.hbmUtil := wr64_hbmUtil _ _ _
@[simp] theorem cnt_out : (s.cnt r o n).out = s.out := wr64_out _ _ _
@[simp] theorem cnt_free : (s.cnt r o n).free = s.free := wr64_free _ _ _
@[simp] theorem cnt_pending : (s.cnt r o n).pending = s.pending := wr64_pending _ _ _
end cnt

section satInc
variable (s : State) (f : Fld) (n : Nat)
@[simp] theorem satInc_held : (s.satInc f n).held = s.held := wr_held _ _ _
@[simp] theorem satInc_latch : (s.satInc f n).latch = s.latch := wr_latch _ _ _
@[simp] theorem satInc_tb : (s.satInc f n).tb = s.tb := wr_tb _ _ _
@[simp] theorem satInc_ev : (s.satInc f n).ev = s.ev := wr_ev _ _ _
@[simp] theorem satInc_pcie : (s.satInc f n).pcie = s.pcie := wr_pcie _ _ _
@[simp] theorem satInc_tsf : (s.satInc f n).tsf = s.tsf := wr_tsf _ _ _
@[simp] theorem satInc_pauses : (s.satInc f n).pauses = s.pauses := wr_pauses _ _ _
@[simp] theorem satInc_pauseFrac : (s.satInc f n).pauseFrac = s.pauseFrac := wr_pauseFrac _ _ _
@[simp] theorem satInc_pauseSince : (s.satInc f n).pauseSince = s.pauseSince := wr_pauseSince _ _ _
@[simp] theorem satInc_byp0 : (s.satInc f n).byp0 = s.byp0 := wr_byp0 _ _ _
@[simp] theorem satInc_byp1 : (s.satInc f n).byp1 = s.byp1 := wr_byp1 _ _ _
@[simp] theorem satInc_portSt : (s.satInc f n).portSt = s.portSt := wr_portSt _ _ _
@[simp] theorem satInc_egr : (s.satInc f n).egr = s.egr := wr_egr _ _ _
@[simp] theorem satInc_otnIf : (s.satInc f n).otnIf = s.otnIf := wr_otnIf _ _ _
@[simp] theorem satInc_otnPc : (s.satInc f n).otnPc = s.otnPc := wr_otnPc _ _ _
@[simp] theorem satInc_pm : (s.satInc f n).pm = s.pm := wr_pm _ _ _
@[simp] theorem satInc_pmNext : (s.satInc f n).pmNext = s.pmNext := wr_pmNext _ _ _
@[simp] theorem satInc_pmLast : (s.satInc f n).pmLast = s.pmLast := wr_pmLast _ _ _
@[simp] theorem satInc_pmLate : (s.satInc f n).pmLate = s.pmLate := wr_pmLate _ _ _
@[simp] theorem satInc_tsi : (s.satInc f n).tsi = s.tsi := wr_tsi _ _ _
@[simp] theorem satInc_ring : (s.satInc f n).ring = s.ring := wr_ring _ _ _
@[simp] theorem satInc_cls : (s.satInc f n).cls = s.cls := wr_cls _ _ _
@[simp] theorem satInc_punt : (s.satInc f n).punt = s.punt := wr_punt _ _ _
@[simp] theorem satInc_acl : (s.satInc f n).acl = s.acl := wr_acl _ _ _
@[simp] theorem satInc_tmem : (s.satInc f n).tmem = s.tmem := wr_tmem _ _ _
@[simp] theorem satInc_cmt : (s.satInc f n).cmt = s.cmt := wr_cmt _ _ _
@[simp] theorem satInc_routes : (s.satInc f n).routes = s.routes := wr_routes _ _ _
@[simp] theorem satInc_pivots : (s.satInc f n).pivots = s.pivots := wr_pivots _ _ _
@[simp] theorem satInc_look : (s.satInc f n).look = s.look := wr_look _ _ _
@[simp] theorem satInc_learn : (s.satInc f n).learn = s.learn := wr_learn _ _ _
@[simp] theorem satInc_kpr : (s.satInc f n).kpr = s.kpr := wr_kpr _ _ _
@[simp] theorem satInc_nvm : (s.satInc f n).nvm = s.nvm := wr_nvm _ _ _
@[simp] theorem satInc_md : (s.satInc f n).md = s.md := wr_md _ _ _
@[simp] theorem satInc_bist : (s.satInc f n).bist = s.bist := wr_bist _ _ _
@[simp] theorem satInc_i2cPtr : (s.satInc f n).i2cPtr = s.i2cPtr := wr_i2cPtr _ _ _
@[simp] theorem satInc_tap : (s.satInc f n).tap = s.tap := wr_tap _ _ _
@[simp] theorem satInc_shp : (s.satInc f n).shp = s.shp := wr_shp _ _ _
@[simp] theorem satInc_gate : (s.satInc f n).gate = s.gate := wr_gate _ _ _
@[simp] theorem satInc_gateSeen : (s.satInc f n).gateSeen = s.gateSeen := wr_gateSeen _ _ _
@[simp] theorem satInc_gateSpill : (s.satInc f n).gateSpill = s.gateSpill := wr_gateSpill _ _ _
@[simp] theorem satInc_stm : (s.satInc f n).stm = s.stm := wr_stm _ _ _
@[simp] theorem satInc_soj : (s.satInc f n).soj = s.soj := wr_soj _ _ _
@[simp] theorem satInc_sq : (s.satInc f n).sq = s.sq := wr_sq _ _ _
@[simp] theorem satInc_hrd : (s.satInc f n).hrd = s.hrd := wr_hrd _ _ _
@[simp] theorem satInc_adm : (s.satInc f n).adm = s.adm := wr_adm _ _ _
@[simp] theorem satInc_eport : (s.satInc f n).eport = s.eport := wr_eport _ _ _
@[simp] theorem satInc_fab : (s.satInc f n).fab = s.fab := wr_fab _ _ _
@[simp] theorem satInc_svy : (s.satInc f n).svy = s.svy := wr_svy _ _ _
@[simp] theorem satInc_pmcSt : (s.satInc f n).pmcSt = s.pmcSt := wr_pmcSt _ _ _
@[simp] theorem satInc_engCnt : (s.satInc f n).engCnt = s.engCnt := wr_engCnt _ _ _
@[simp] theorem satInc_gal : (s.satInc f n).gal = s.gal := wr_gal _ _ _
@[simp] theorem satInc_galIn : (s.satInc f n).galIn = s.galIn := wr_galIn _ _ _
@[simp] theorem satInc_echo : (s.satInc f n).echo = s.echo := wr_echo _ _ _
@[simp] theorem satInc_tmSrc : (s.satInc f n).tmSrc = s.tmSrc := wr_tmSrc _ _ _
@[simp] theorem satInc_tmPort : (s.satInc f n).tmPort = s.tmPort := wr_tmPort _ _ _
@[simp] theorem satInc_hbmUtil : (s.satInc f n).hbmUtil = s.hbmUtil := wr_hbmUtil _ _ _
@[simp] theorem satInc_out : (s.satInc f n).out = s.out := wr_out _ _ _
@[simp] theorem satInc_free : (s.satInc f n).free = s.free := wr_free _ _ _
@[simp] theorem satInc_pending : (s.satInc f n).pending = s.pending := wr_pending _ _ _
end satInc

section wrapInc
variable (s : State) (f : Fld) (n : Nat)
@[simp] theorem wrapInc_held : (s.wrapInc f n).held = s.held := wr_held _ _ _
@[simp] theorem wrapInc_latch : (s.wrapInc f n).latch = s.latch := wr_latch _ _ _
@[simp] theorem wrapInc_tb : (s.wrapInc f n).tb = s.tb := wr_tb _ _ _
@[simp] theorem wrapInc_ev : (s.wrapInc f n).ev = s.ev := wr_ev _ _ _
@[simp] theorem wrapInc_pcie : (s.wrapInc f n).pcie = s.pcie := wr_pcie _ _ _
@[simp] theorem wrapInc_tsf : (s.wrapInc f n).tsf = s.tsf := wr_tsf _ _ _
@[simp] theorem wrapInc_pauses : (s.wrapInc f n).pauses = s.pauses := wr_pauses _ _ _
@[simp] theorem wrapInc_pauseFrac : (s.wrapInc f n).pauseFrac = s.pauseFrac := wr_pauseFrac _ _ _
@[simp] theorem wrapInc_pauseSince : (s.wrapInc f n).pauseSince = s.pauseSince := wr_pauseSince _ _ _
@[simp] theorem wrapInc_byp0 : (s.wrapInc f n).byp0 = s.byp0 := wr_byp0 _ _ _
@[simp] theorem wrapInc_byp1 : (s.wrapInc f n).byp1 = s.byp1 := wr_byp1 _ _ _
@[simp] theorem wrapInc_portSt : (s.wrapInc f n).portSt = s.portSt := wr_portSt _ _ _
@[simp] theorem wrapInc_egr : (s.wrapInc f n).egr = s.egr := wr_egr _ _ _
@[simp] theorem wrapInc_otnIf : (s.wrapInc f n).otnIf = s.otnIf := wr_otnIf _ _ _
@[simp] theorem wrapInc_otnPc : (s.wrapInc f n).otnPc = s.otnPc := wr_otnPc _ _ _
@[simp] theorem wrapInc_pm : (s.wrapInc f n).pm = s.pm := wr_pm _ _ _
@[simp] theorem wrapInc_pmNext : (s.wrapInc f n).pmNext = s.pmNext := wr_pmNext _ _ _
@[simp] theorem wrapInc_pmLast : (s.wrapInc f n).pmLast = s.pmLast := wr_pmLast _ _ _
@[simp] theorem wrapInc_pmLate : (s.wrapInc f n).pmLate = s.pmLate := wr_pmLate _ _ _
@[simp] theorem wrapInc_tsi : (s.wrapInc f n).tsi = s.tsi := wr_tsi _ _ _
@[simp] theorem wrapInc_ring : (s.wrapInc f n).ring = s.ring := wr_ring _ _ _
@[simp] theorem wrapInc_cls : (s.wrapInc f n).cls = s.cls := wr_cls _ _ _
@[simp] theorem wrapInc_punt : (s.wrapInc f n).punt = s.punt := wr_punt _ _ _
@[simp] theorem wrapInc_acl : (s.wrapInc f n).acl = s.acl := wr_acl _ _ _
@[simp] theorem wrapInc_tmem : (s.wrapInc f n).tmem = s.tmem := wr_tmem _ _ _
@[simp] theorem wrapInc_cmt : (s.wrapInc f n).cmt = s.cmt := wr_cmt _ _ _
@[simp] theorem wrapInc_routes : (s.wrapInc f n).routes = s.routes := wr_routes _ _ _
@[simp] theorem wrapInc_pivots : (s.wrapInc f n).pivots = s.pivots := wr_pivots _ _ _
@[simp] theorem wrapInc_look : (s.wrapInc f n).look = s.look := wr_look _ _ _
@[simp] theorem wrapInc_learn : (s.wrapInc f n).learn = s.learn := wr_learn _ _ _
@[simp] theorem wrapInc_kpr : (s.wrapInc f n).kpr = s.kpr := wr_kpr _ _ _
@[simp] theorem wrapInc_nvm : (s.wrapInc f n).nvm = s.nvm := wr_nvm _ _ _
@[simp] theorem wrapInc_md : (s.wrapInc f n).md = s.md := wr_md _ _ _
@[simp] theorem wrapInc_bist : (s.wrapInc f n).bist = s.bist := wr_bist _ _ _
@[simp] theorem wrapInc_i2cPtr : (s.wrapInc f n).i2cPtr = s.i2cPtr := wr_i2cPtr _ _ _
@[simp] theorem wrapInc_tap : (s.wrapInc f n).tap = s.tap := wr_tap _ _ _
@[simp] theorem wrapInc_shp : (s.wrapInc f n).shp = s.shp := wr_shp _ _ _
@[simp] theorem wrapInc_gate : (s.wrapInc f n).gate = s.gate := wr_gate _ _ _
@[simp] theorem wrapInc_gateSeen : (s.wrapInc f n).gateSeen = s.gateSeen := wr_gateSeen _ _ _
@[simp] theorem wrapInc_gateSpill : (s.wrapInc f n).gateSpill = s.gateSpill := wr_gateSpill _ _ _
@[simp] theorem wrapInc_stm : (s.wrapInc f n).stm = s.stm := wr_stm _ _ _
@[simp] theorem wrapInc_soj : (s.wrapInc f n).soj = s.soj := wr_soj _ _ _
@[simp] theorem wrapInc_sq : (s.wrapInc f n).sq = s.sq := wr_sq _ _ _
@[simp] theorem wrapInc_hrd : (s.wrapInc f n).hrd = s.hrd := wr_hrd _ _ _
@[simp] theorem wrapInc_adm : (s.wrapInc f n).adm = s.adm := wr_adm _ _ _
@[simp] theorem wrapInc_eport : (s.wrapInc f n).eport = s.eport := wr_eport _ _ _
@[simp] theorem wrapInc_fab : (s.wrapInc f n).fab = s.fab := wr_fab _ _ _
@[simp] theorem wrapInc_svy : (s.wrapInc f n).svy = s.svy := wr_svy _ _ _
@[simp] theorem wrapInc_pmcSt : (s.wrapInc f n).pmcSt = s.pmcSt := wr_pmcSt _ _ _
@[simp] theorem wrapInc_engCnt : (s.wrapInc f n).engCnt = s.engCnt := wr_engCnt _ _ _
@[simp] theorem wrapInc_gal : (s.wrapInc f n).gal = s.gal := wr_gal _ _ _
@[simp] theorem wrapInc_galIn : (s.wrapInc f n).galIn = s.galIn := wr_galIn _ _ _
@[simp] theorem wrapInc_echo : (s.wrapInc f n).echo = s.echo := wr_echo _ _ _
@[simp] theorem wrapInc_tmSrc : (s.wrapInc f n).tmSrc = s.tmSrc := wr_tmSrc _ _ _
@[simp] theorem wrapInc_tmPort : (s.wrapInc f n).tmPort = s.tmPort := wr_tmPort _ _ _
@[simp] theorem wrapInc_hbmUtil : (s.wrapInc f n).hbmUtil = s.hbmUtil := wr_hbmUtil _ _ _
@[simp] theorem wrapInc_out : (s.wrapInc f n).out = s.out := wr_out _ _ _
@[simp] theorem wrapInc_free : (s.wrapInc f n).free = s.free := wr_free _ _ _
@[simp] theorem wrapInc_pending : (s.wrapInc f n).pending = s.pending := wr_pending _ _ _
end wrapInc

section emit
variable (s : State) (o : Out)
@[simp] theorem emit_regs : (s.emit o).regs = s.regs := rfl
@[simp] theorem emit_held : (s.emit o).held = s.held := rfl
@[simp] theorem emit_latch : (s.emit o).latch = s.latch := rfl
@[simp] theorem emit_tb : (s.emit o).tb = s.tb := rfl
@[simp] theorem emit_ev : (s.emit o).ev = s.ev := rfl
@[simp] theorem emit_pcie : (s.emit o).pcie = s.pcie := rfl
@[simp] theorem emit_tsf : (s.emit o).tsf = s.tsf := rfl
@[simp] theorem emit_pauses : (s.emit o).pauses = s.pauses := rfl
@[simp] theorem emit_pauseFrac : (s.emit o).pauseFrac = s.pauseFrac := rfl
@[simp] theorem emit_pauseSince : (s.emit o).pauseSince = s.pauseSince := rfl
@[simp] theorem emit_byp0 : (s.emit o).byp0 = s.byp0 := rfl
@[simp] theorem emit_byp1 : (s.emit o).byp1 = s.byp1 := rfl
@[simp] theorem emit_portSt : (s.emit o).portSt = s.portSt := rfl
@[simp] theorem emit_egr : (s.emit o).egr = s.egr := rfl
@[simp] theorem emit_otnIf : (s.emit o).otnIf = s.otnIf := rfl
@[simp] theorem emit_otnPc : (s.emit o).otnPc = s.otnPc := rfl
@[simp] theorem emit_pm : (s.emit o).pm = s.pm := rfl
@[simp] theorem emit_pmNext : (s.emit o).pmNext = s.pmNext := rfl
@[simp] theorem emit_pmLast : (s.emit o).pmLast = s.pmLast := rfl
@[simp] theorem emit_pmLate : (s.emit o).pmLate = s.pmLate := rfl
@[simp] theorem emit_tsi : (s.emit o).tsi = s.tsi := rfl
@[simp] theorem emit_ring : (s.emit o).ring = s.ring := rfl
@[simp] theorem emit_cls : (s.emit o).cls = s.cls := rfl
@[simp] theorem emit_punt : (s.emit o).punt = s.punt := rfl
@[simp] theorem emit_acl : (s.emit o).acl = s.acl := rfl
@[simp] theorem emit_tmem : (s.emit o).tmem = s.tmem := rfl
@[simp] theorem emit_cmt : (s.emit o).cmt = s.cmt := rfl
@[simp] theorem emit_routes : (s.emit o).routes = s.routes := rfl
@[simp] theorem emit_pivots : (s.emit o).pivots = s.pivots := rfl
@[simp] theorem emit_look : (s.emit o).look = s.look := rfl
@[simp] theorem emit_learn : (s.emit o).learn = s.learn := rfl
@[simp] theorem emit_kpr : (s.emit o).kpr = s.kpr := rfl
@[simp] theorem emit_nvm : (s.emit o).nvm = s.nvm := rfl
@[simp] theorem emit_md : (s.emit o).md = s.md := rfl
@[simp] theorem emit_bist : (s.emit o).bist = s.bist := rfl
@[simp] theorem emit_i2cPtr : (s.emit o).i2cPtr = s.i2cPtr := rfl
@[simp] theorem emit_tap : (s.emit o).tap = s.tap := rfl
@[simp] theorem emit_shp : (s.emit o).shp = s.shp := rfl
@[simp] theorem emit_gate : (s.emit o).gate = s.gate := rfl
@[simp] theorem emit_gateSeen : (s.emit o).gateSeen = s.gateSeen := rfl
@[simp] theorem emit_gateSpill : (s.emit o).gateSpill = s.gateSpill := rfl
@[simp] theorem emit_stm : (s.emit o).stm = s.stm := rfl
@[simp] theorem emit_soj : (s.emit o).soj = s.soj := rfl
@[simp] theorem emit_sq : (s.emit o).sq = s.sq := rfl
@[simp] theorem emit_hrd : (s.emit o).hrd = s.hrd := rfl
@[simp] theorem emit_adm : (s.emit o).adm = s.adm := rfl
@[simp] theorem emit_eport : (s.emit o).eport = s.eport := rfl
@[simp] theorem emit_fab : (s.emit o).fab = s.fab := rfl
@[simp] theorem emit_svy : (s.emit o).svy = s.svy := rfl
@[simp] theorem emit_pmcSt : (s.emit o).pmcSt = s.pmcSt := rfl
@[simp] theorem emit_engCnt : (s.emit o).engCnt = s.engCnt := rfl
@[simp] theorem emit_gal : (s.emit o).gal = s.gal := rfl
@[simp] theorem emit_galIn : (s.emit o).galIn = s.galIn := rfl
@[simp] theorem emit_echo : (s.emit o).echo = s.echo := rfl
@[simp] theorem emit_tmSrc : (s.emit o).tmSrc = s.tmSrc := rfl
@[simp] theorem emit_tmPort : (s.emit o).tmPort = s.tmPort := rfl
@[simp] theorem emit_hbmUtil : (s.emit o).hbmUtil = s.hbmUtil := rfl
@[simp] theorem emit_free : (s.emit o).free = s.free := rfl
@[simp] theorem emit_pending : (s.emit o).pending = s.pending := rfl
end emit

section galUpd
variable (s : State) (g : Nat) (f : Gal → Gal)
@[simp] theorem galUpd_regs : (s.galUpd g f).regs = s.regs := rfl
@[simp] theorem galUpd_held : (s.galUpd g f).held = s.held := rfl
@[simp] theorem galUpd_latch : (s.galUpd g f).latch = s.latch := rfl
@[simp] theorem galUpd_tb : (s.galUpd g f).tb = s.tb := rfl
@[simp] theorem galUpd_ev : (s.galUpd g f).ev = s.ev := rfl
@[simp] theorem galUpd_pcie : (s.galUpd g f).pcie = s.pcie := rfl
@[simp] theorem galUpd_tsf : (s.galUpd g f).tsf = s.tsf := rfl
@[simp] theorem galUpd_pauses : (s.galUpd g f).pauses = s.pauses := rfl
@[simp] theorem galUpd_pauseFrac : (s.galUpd g f).pauseFrac = s.pauseFrac := rfl
@[simp] theorem galUpd_pauseSince : (s.galUpd g f).pauseSince = s.pauseSince := rfl
@[simp] theorem galUpd_byp0 : (s.galUpd g f).byp0 = s.byp0 := rfl
@[simp] theorem galUpd_byp1 : (s.galUpd g f).byp1 = s.byp1 := rfl
@[simp] theorem galUpd_portSt : (s.galUpd g f).portSt = s.portSt := rfl
@[simp] theorem galUpd_egr : (s.galUpd g f).egr = s.egr := rfl
@[simp] theorem galUpd_otnIf : (s.galUpd g f).otnIf = s.otnIf := rfl
@[simp] theorem galUpd_otnPc : (s.galUpd g f).otnPc = s.otnPc := rfl
@[simp] theorem galUpd_pm : (s.galUpd g f).pm = s.pm := rfl
@[simp] theorem galUpd_pmNext : (s.galUpd g f).pmNext = s.pmNext := rfl
@[simp] theorem galUpd_pmLast : (s.galUpd g f).pmLast = s.pmLast := rfl
@[simp] theorem galUpd_pmLate : (s.galUpd g f).pmLate = s.pmLate := rfl
@[simp] theorem galUpd_tsi : (s.galUpd g f).tsi = s.tsi := rfl
@[simp] theorem galUpd_ring : (s.galUpd g f).ring = s.ring := rfl
@[simp] theorem galUpd_cls : (s.galUpd g f).cls = s.cls := rfl
@[simp] theorem galUpd_punt : (s.galUpd g f).punt = s.punt := rfl
@[simp] theorem galUpd_acl : (s.galUpd g f).acl = s.acl := rfl
@[simp] theorem galUpd_tmem : (s.galUpd g f).tmem = s.tmem := rfl
@[simp] theorem galUpd_cmt : (s.galUpd g f).cmt = s.cmt := rfl
@[simp] theorem galUpd_routes : (s.galUpd g f).routes = s.routes := rfl
@[simp] theorem galUpd_pivots : (s.galUpd g f).pivots = s.pivots := rfl
@[simp] theorem galUpd_look : (s.galUpd g f).look = s.look := rfl
@[simp] theorem galUpd_learn : (s.galUpd g f).learn = s.learn := rfl
@[simp] theorem galUpd_kpr : (s.galUpd g f).kpr = s.kpr := rfl
@[simp] theorem galUpd_nvm : (s.galUpd g f).nvm = s.nvm := rfl
@[simp] theorem galUpd_md : (s.galUpd g f).md = s.md := rfl
@[simp] theorem galUpd_bist : (s.galUpd g f).bist = s.bist := rfl
@[simp] theorem galUpd_i2cPtr : (s.galUpd g f).i2cPtr = s.i2cPtr := rfl
@[simp] theorem galUpd_tap : (s.galUpd g f).tap = s.tap := rfl
@[simp] theorem galUpd_shp : (s.galUpd g f).shp = s.shp := rfl
@[simp] theorem galUpd_gate : (s.galUpd g f).gate = s.gate := rfl
@[simp] theorem galUpd_gateSeen : (s.galUpd g f).gateSeen = s.gateSeen := rfl
@[simp] theorem galUpd_gateSpill : (s.galUpd g f).gateSpill = s.gateSpill := rfl
@[simp] theorem galUpd_stm : (s.galUpd g f).stm = s.stm := rfl
@[simp] theorem galUpd_soj : (s.galUpd g f).soj = s.soj := rfl
@[simp] theorem galUpd_sq : (s.galUpd g f).sq = s.sq := rfl
@[simp] theorem galUpd_hrd : (s.galUpd g f).hrd = s.hrd := rfl
@[simp] theorem galUpd_adm : (s.galUpd g f).adm = s.adm := rfl
@[simp] theorem galUpd_eport : (s.galUpd g f).eport = s.eport := rfl
@[simp] theorem galUpd_fab : (s.galUpd g f).fab = s.fab := rfl
@[simp] theorem galUpd_svy : (s.galUpd g f).svy = s.svy := rfl
@[simp] theorem galUpd_pmcSt : (s.galUpd g f).pmcSt = s.pmcSt := rfl
@[simp] theorem galUpd_engCnt : (s.galUpd g f).engCnt = s.engCnt := rfl
@[simp] theorem galUpd_galIn : (s.galUpd g f).galIn = s.galIn := rfl
@[simp] theorem galUpd_echo : (s.galUpd g f).echo = s.echo := rfl
@[simp] theorem galUpd_tmSrc : (s.galUpd g f).tmSrc = s.tmSrc := rfl
@[simp] theorem galUpd_tmPort : (s.galUpd g f).tmPort = s.tmPort := rfl
@[simp] theorem galUpd_hbmUtil : (s.galUpd g f).hbmUtil = s.hbmUtil := rfl
@[simp] theorem galUpd_out : (s.galUpd g f).out = s.out := rfl
@[simp] theorem galUpd_free : (s.galUpd g f).free = s.free := rfl
@[simp] theorem galUpd_pending : (s.galUpd g f).pending = s.pending := rfl
end galUpd

section thrUpd
variable (s : State) (g i : Nat) (f : Thr → Thr)
@[simp] theorem thrUpd_regs : (s.thrUpd g i f).regs = s.regs := galUpd_regs _ _ _
@[simp] theorem thrUpd_held : (s.thrUpd g i f).held = s.held := galUpd_held _ _ _
@[simp] theorem thrUpd_latch : (s.thrUpd g i f).latch = s.latch := galUpd_latch _ _ _
@[simp] theorem thrUpd_tb : (s.thrUpd g i f).tb = s.tb := galUpd_tb _ _ _
@[simp] theorem thrUpd_ev : (s.thrUpd g i f).ev = s.ev := galUpd_ev _ _ _
@[simp] theorem thrUpd_pcie : (s.thrUpd g i f).pcie = s.pcie := galUpd_pcie _ _ _
@[simp] theorem thrUpd_tsf : (s.thrUpd g i f).tsf = s.tsf := galUpd_tsf _ _ _
@[simp] theorem thrUpd_pauses : (s.thrUpd g i f).pauses = s.pauses := galUpd_pauses _ _ _
@[simp] theorem thrUpd_pauseFrac : (s.thrUpd g i f).pauseFrac = s.pauseFrac := galUpd_pauseFrac _ _ _
@[simp] theorem thrUpd_pauseSince : (s.thrUpd g i f).pauseSince = s.pauseSince := galUpd_pauseSince _ _ _
@[simp] theorem thrUpd_byp0 : (s.thrUpd g i f).byp0 = s.byp0 := galUpd_byp0 _ _ _
@[simp] theorem thrUpd_byp1 : (s.thrUpd g i f).byp1 = s.byp1 := galUpd_byp1 _ _ _
@[simp] theorem thrUpd_portSt : (s.thrUpd g i f).portSt = s.portSt := galUpd_portSt _ _ _
@[simp] theorem thrUpd_egr : (s.thrUpd g i f).egr = s.egr := galUpd_egr _ _ _
@[simp] theorem thrUpd_otnIf : (s.thrUpd g i f).otnIf = s.otnIf := galUpd_otnIf _ _ _
@[simp] theorem thrUpd_otnPc : (s.thrUpd g i f).otnPc = s.otnPc := galUpd_otnPc _ _ _
@[simp] theorem thrUpd_pm : (s.thrUpd g i f).pm = s.pm := galUpd_pm _ _ _
@[simp] theorem thrUpd_pmNext : (s.thrUpd g i f).pmNext = s.pmNext := galUpd_pmNext _ _ _
@[simp] theorem thrUpd_pmLast : (s.thrUpd g i f).pmLast = s.pmLast := galUpd_pmLast _ _ _
@[simp] theorem thrUpd_pmLate : (s.thrUpd g i f).pmLate = s.pmLate := galUpd_pmLate _ _ _
@[simp] theorem thrUpd_tsi : (s.thrUpd g i f).tsi = s.tsi := galUpd_tsi _ _ _
@[simp] theorem thrUpd_ring : (s.thrUpd g i f).ring = s.ring := galUpd_ring _ _ _
@[simp] theorem thrUpd_cls : (s.thrUpd g i f).cls = s.cls := galUpd_cls _ _ _
@[simp] theorem thrUpd_punt : (s.thrUpd g i f).punt = s.punt := galUpd_punt _ _ _
@[simp] theorem thrUpd_acl : (s.thrUpd g i f).acl = s.acl := galUpd_acl _ _ _
@[simp] theorem thrUpd_tmem : (s.thrUpd g i f).tmem = s.tmem := galUpd_tmem _ _ _
@[simp] theorem thrUpd_cmt : (s.thrUpd g i f).cmt = s.cmt := galUpd_cmt _ _ _
@[simp] theorem thrUpd_routes : (s.thrUpd g i f).routes = s.routes := galUpd_routes _ _ _
@[simp] theorem thrUpd_pivots : (s.thrUpd g i f).pivots = s.pivots := galUpd_pivots _ _ _
@[simp] theorem thrUpd_look : (s.thrUpd g i f).look = s.look := galUpd_look _ _ _
@[simp] theorem thrUpd_learn : (s.thrUpd g i f).learn = s.learn := galUpd_learn _ _ _
@[simp] theorem thrUpd_kpr : (s.thrUpd g i f).kpr = s.kpr := galUpd_kpr _ _ _
@[simp] theorem thrUpd_nvm : (s.thrUpd g i f).nvm = s.nvm := galUpd_nvm _ _ _
@[simp] theorem thrUpd_md : (s.thrUpd g i f).md = s.md := galUpd_md _ _ _
@[simp] theorem thrUpd_bist : (s.thrUpd g i f).bist = s.bist := galUpd_bist _ _ _
@[simp] theorem thrUpd_i2cPtr : (s.thrUpd g i f).i2cPtr = s.i2cPtr := galUpd_i2cPtr _ _ _
@[simp] theorem thrUpd_tap : (s.thrUpd g i f).tap = s.tap := galUpd_tap _ _ _
@[simp] theorem thrUpd_shp : (s.thrUpd g i f).shp = s.shp := galUpd_shp _ _ _
@[simp] theorem thrUpd_gate : (s.thrUpd g i f).gate = s.gate := galUpd_gate _ _ _
@[simp] theorem thrUpd_gateSeen : (s.thrUpd g i f).gateSeen = s.gateSeen := galUpd_gateSeen _ _ _
@[simp] theorem thrUpd_gateSpill : (s.thrUpd g i f).gateSpill = s.gateSpill := galUpd_gateSpill _ _ _
@[simp] theorem thrUpd_stm : (s.thrUpd g i f).stm = s.stm := galUpd_stm _ _ _
@[simp] theorem thrUpd_soj : (s.thrUpd g i f).soj = s.soj := galUpd_soj _ _ _
@[simp] theorem thrUpd_sq : (s.thrUpd g i f).sq = s.sq := galUpd_sq _ _ _
@[simp] theorem thrUpd_hrd : (s.thrUpd g i f).hrd = s.hrd := galUpd_hrd _ _ _
@[simp] theorem thrUpd_adm : (s.thrUpd g i f).adm = s.adm := galUpd_adm _ _ _
@[simp] theorem thrUpd_eport : (s.thrUpd g i f).eport = s.eport := galUpd_eport _ _ _
@[simp] theorem thrUpd_fab : (s.thrUpd g i f).fab = s.fab := galUpd_fab _ _ _
@[simp] theorem thrUpd_svy : (s.thrUpd g i f).svy = s.svy := galUpd_svy _ _ _
@[simp] theorem thrUpd_pmcSt : (s.thrUpd g i f).pmcSt = s.pmcSt := galUpd_pmcSt _ _ _
@[simp] theorem thrUpd_engCnt : (s.thrUpd g i f).engCnt = s.engCnt := galUpd_engCnt _ _ _
@[simp] theorem thrUpd_galIn : (s.thrUpd g i f).galIn = s.galIn := galUpd_galIn _ _ _
@[simp] theorem thrUpd_echo : (s.thrUpd g i f).echo = s.echo := galUpd_echo _ _ _
@[simp] theorem thrUpd_tmSrc : (s.thrUpd g i f).tmSrc = s.tmSrc := galUpd_tmSrc _ _ _
@[simp] theorem thrUpd_tmPort : (s.thrUpd g i f).tmPort = s.tmPort := galUpd_tmPort _ _ _
@[simp] theorem thrUpd_hbmUtil : (s.thrUpd g i f).hbmUtil = s.hbmUtil := galUpd_hbmUtil _ _ _
@[simp] theorem thrUpd_out : (s.thrUpd g i f).out = s.out := galUpd_out _ _ _
@[simp] theorem thrUpd_free : (s.thrUpd g i f).free = s.free := galUpd_free _ _ _
@[simp] theorem thrUpd_pending : (s.thrUpd g i f).pending = s.pending := galUpd_pending _ _ _
end thrUpd

@[simp] theorem emit_out (s : State) (o : Out) : (s.emit o).out = o :: s.out := rfl

end Sys2Proof.Machine
end

