-- ==== Sys2Proof/Laws/Regs.lean ====
section
/-! SUPPORT. Registers and fields: read after write, fields that do not overlap, and what an event raise can change. -/

namespace Sys2Proof.Machine

/-! ### Words -/

/-- Read after write of a word. -/
@[simp] theorem rdw_wrw (s : State) (a b : Nat) (w : Word) : (s.wrw a w).rdw b = if b = a then w else s.rdw b := by
  simp [State.rdw, State.wrw]

/-- A word is a function of the register map alone. -/
theorem rdw_congr {s t : State} (h : t.regs = s.regs) (a : Nat) : t.rdw a = s.rdw a := by simp [State.rdw, h]

/-- A field is a function of the register map alone. -/
theorem rd_congr {s t : State} (h : t.regs = s.regs) (f : Fld) : t.rd f = s.rd f := by simp [State.rd, rdw_congr h]

@[simp] theorem rdw_emit (s : State) (o : Out) (a : Nat) : (s.emit o).rdw a = s.rdw a := rfl
@[simp] theorem rd_emit (s : State) (o : Out) (f : Fld) : (s.emit o).rd f = s.rd f := rfl
@[simp] theorem rdw_galUpd (s : State) (g : Nat) (f : Gal → Gal) (a : Nat) : (s.galUpd g f).rdw a = s.rdw a := rfl
@[simp] theorem rd_galUpd (s : State) (g : Nat) (f : Gal → Gal) (x : Fld) : (s.galUpd g f).rd x = s.rd x := rfl
@[simp] theorem rdw_thrUpd (s : State) (g i : Nat) (f : Thr → Thr) (a : Nat) : (s.thrUpd g i f).rdw a = s.rdw a := rfl
@[simp] theorem rd_thrUpd (s : State) (g i : Nat) (f : Thr → Thr) (x : Fld) : (s.thrUpd g i f).rd x = s.rd x := rfl

/-! ### Fields -/

/-- The bits of a field within its word. -/
theorem bits_lt (n hi lo : Nat) : bits n hi lo < 2 ^ (hi + 1 - lo) := Nat.mod_lt _ (by positivity)

/-- A number with a low part below `A` and a high part below `B`. -/
theorem add_mul_lt {a A b B : Nat} (h1 : a < A) (h2 : b < B) : a + A * b < A * B := by
  have := Nat.mul_le_mul_left A (Nat.succ_le_of_lt h2)
  rw [Nat.succ_eq_add_one, Nat.mul_add, Nat.mul_one] at this
  omega

/-- Bit `i` of a bit field. -/
theorem testBit_bits (n hi lo i : Nat) : (bits n hi lo).testBit i = (decide (i < hi + 1 - lo) && n.testBit (lo + i)) := by
  simp [bits, Nat.testBit_mod_two_pow, Nat.testBit_shiftRight]

/-- Bit `i` of a word with a field replaced. -/
theorem testBit_putBits (w : Word) (hi lo v i : Nat) (h1 : lo ≤ hi) (h2 : hi < 32) :
    (putBits w hi lo v).toNat.testBit i =
      if lo ≤ i ∧ i ≤ hi then v.testBit (i - lo) else w.toNat.testBit i := by
  have hw : w.toNat < 2 ^ 32 := w.isLt
  set n := w.toNat with hn
  set k := hi + 1 - lo with hk
  have hmod : n % 2 ^ lo + 2 ^ lo * (bits n hi lo + 2 ^ k * (n / 2 ^ (hi + 1))) = n := by
    have e1 : bits n hi lo = n / 2 ^ lo % 2 ^ k := by simp [bits, Nat.shiftRight_eq_div_pow, hk]
    have e2 : n / 2 ^ (hi + 1) = n / 2 ^ lo / 2 ^ k := by
      rw [Nat.div_div_eq_div_mul, ← Nat.pow_add]; congr 2; omega
    rw [e1, e2, Nat.mod_add_div, Nat.mod_add_div]
  have hval : n - bits n hi lo * 2 ^ lo + v % 2 ^ k * 2 ^ lo
      = n % 2 ^ lo + 2 ^ lo * (v % 2 ^ k + 2 ^ k * (n / 2 ^ (hi + 1))) := by
    have : bits n hi lo * 2 ^ lo ≤ n := by
      rw [Nat.mul_comm]; conv_rhs => rw [← hmod]
      have := Nat.mul_add (2 ^ lo) (bits n hi lo) (2 ^ k * (n / 2 ^ (hi + 1))); omega
    have e := Nat.mul_add (2 ^ lo) (bits n hi lo) (2 ^ k * (n / 2 ^ (hi + 1)))
    have e' := Nat.mul_add (2 ^ lo) (v % 2 ^ k) (2 ^ k * (n / 2 ^ (hi + 1)))
    rw [Nat.mul_comm (v % 2 ^ k)]
    rw [Nat.mul_comm (bits n hi lo)] at this ⊢
    omega
  have hlt : n % 2 ^ lo + 2 ^ lo * (v % 2 ^ k + 2 ^ k * (n / 2 ^ (hi + 1))) < 2 ^ 32 := by
    have h0 : n % 2 ^ lo < 2 ^ lo := Nat.mod_lt _ (by positivity)
    have hv : v % 2 ^ k < 2 ^ k := Nat.mod_lt _ (by positivity)
    have hq : n / 2 ^ (hi + 1) < 2 ^ (32 - (hi + 1)) := by
      rw [Nat.div_lt_iff_lt_mul (by positivity), ← Nat.pow_add]; convert hw using 2; omega
    have hin := add_mul_lt hv hq
    rw [← Nat.pow_add] at hin
    have := add_mul_lt h0 hin
    rw [← Nat.pow_add] at this
    convert this using 2; omega
  have hput : (putBits w hi lo v).toNat = n % 2 ^ lo + 2 ^ lo * (v % 2 ^ k + 2 ^ k * (n / 2 ^ (hi + 1))) := by
    simp only [putBits, BitVec.toNat_ofNat]
    rw [← hn, ← hk, hval, Nat.mod_eq_of_lt hlt]
  rw [hput, Nat.add_comm, Nat.testBit_two_pow_mul_add _ (Nat.mod_lt _ (by positivity))]
  by_cases c1 : i < lo
  · rw [if_pos c1, if_neg (by omega), Nat.testBit_mod_two_pow]; simp [c1]
  · rw [if_neg c1, Nat.add_comm, Nat.testBit_two_pow_mul_add _ (Nat.mod_lt _ (by positivity))]
    by_cases c2 : i ≤ hi
    · rw [if_pos (by omega), if_pos (by omega), Nat.testBit_mod_two_pow]; simp; omega
    · rw [if_neg (by omega), if_neg (by omega), Nat.testBit_div_two_pow]; congr 1; omega

/-- A field reads as what was put in it. -/
theorem bits_putBits (w : Word) (hi lo v : Nat) (h1 : lo ≤ hi) (h2 : hi < 32) :
    bits (putBits w hi lo v).toNat hi lo = v % 2 ^ (hi + 1 - lo) := by
  apply Nat.eq_of_testBit_eq
  intro i
  rw [testBit_bits, Nat.testBit_mod_two_pow, testBit_putBits w hi lo v _ h1 h2]
  by_cases h : i < hi + 1 - lo
  · rw [if_pos (by omega)]; simp [h]
  · simp [h]

/-- Other bits of the word are kept. -/
theorem bits_putBits_disjoint (w : Word) (hi lo v hi' lo' : Nat) (h1 : lo ≤ hi) (h2 : hi < 32) (h : hi' < lo ∨ hi < lo') :
    bits (putBits w hi lo v).toNat hi' lo' = bits w.toNat hi' lo' := by
  apply Nat.eq_of_testBit_eq
  intro i
  rw [testBit_bits, testBit_bits, testBit_putBits w hi lo v _ h1 h2]
  by_cases c : i < hi' + 1 - lo'
  · rw [if_neg (by omega)]
  · simp [c]

/-- A field lies within a word. -/
def Fld.ok (f : Fld) : Bool := decide (f.lo ≤ f.hi) && decide (f.hi < 32)

/-- Two fields share no bit. -/
def Fld.apart (f g : Fld) : Bool := decide (f.addr ≠ g.addr) || (f.ok && (decide (g.hi < f.lo) || decide (f.hi < g.lo)))

/-- Read after write of a field. -/
theorem rd_wr_same (s : State) (f : Fld) (v : Nat) (h : f.ok = true) : (s.wr f v).rd f = v % 2 ^ f.width := by
  simp only [Fld.ok, Bool.and_eq_true, decide_eq_true_eq] at h
  simp only [State.rd, State.wr, rdw_wrw, if_true]
  exact bits_putBits _ _ _ _ h.1 h.2

/-- A field apart from the written one is unchanged. -/
theorem rd_wr_apart (s : State) (f g : Fld) (v : Nat) (h : f.apart g = true) : (s.wr f v).rd g = s.rd g := by
  simp only [Fld.apart, Fld.ok, Bool.or_eq_true, Bool.and_eq_true, decide_eq_true_eq] at h
  simp only [State.rd, State.wr, rdw_wrw]
  by_cases ha : g.addr = f.addr
  · rw [if_pos ha]
    rcases h with h | ⟨⟨h1, h2⟩, h⟩
    · exact absurd ha.symm h
    · rw [bits_putBits_disjoint _ _ _ _ _ _ h1 h2 h, ha]
  · rw [if_neg ha]

/-- A field of another word is unchanged by a word write. -/
theorem rd_wrw_ne (s : State) (a : Nat) (w : Word) (f : Fld) (h : f.addr ≠ a) : (s.wrw a w).rd f = s.rd f := by
  simp [State.rd, h]

/-- A word other than the field's is unchanged. -/
theorem rdw_wr_ne (s : State) (f : Fld) (v a : Nat) (h : a ≠ f.addr) : (s.wr f v).rdw a = s.rdw a := by
  simp [State.wr, h]

/-- A field outside a written 64-bit register is unchanged. -/
theorem rd_wr64_ne (s : State) (r : Reg) (v : Nat) (f : Fld) (h : f.addr ≠ r.addr ∧ f.addr ≠ r.addr + 4) :
    (s.wr64 r v).rd f = s.rd f := by
  simp [State.rd, State.wr64, h.1, h.2]

/-- Read after write of a 64-bit register. -/
theorem rd64_wr64_same (s : State) (r : Reg) (v : Nat) : (s.wr64 r v).rd64 r = v % 2 ^ 64 := by
  simp only [State.rd64, State.wr64, rdw_wrw, if_true]
  rw [if_neg (by omega)]
  simp only [BitVec.toNat_ofNat]
  omega

/-- A 64-bit register whose words are not the written field's is unchanged. -/
theorem rd64_wr_ne (s : State) (f : Fld) (v : Nat) (r : Reg) (h : r.addr ≠ f.addr ∧ r.addr + 4 ≠ f.addr) :
    (s.wr f v).rd64 r = s.rd64 r := by
  simp [State.rd64, State.wr, h.1, h.2]

/-! ### Events -/

/-- A trigger changes the PBA, the event bookkeeping and the output, and nothing else. -/
theorem trigger_form (s : State) (v : Nat) : ∃ r e o, s.trigger v = { s with regs := r, ev := e, out := o } := by
  unfold State.trigger
  split
  · exact ⟨_, s.ev, s.out, rfl⟩
  · split
    · unfold State.deferMsg
      split
      · exact ⟨s.regs, s.ev, s.out, rfl⟩
      · exact ⟨s.regs, _, s.out, rfl⟩
    · exact ⟨s.regs, _, _, rfl⟩

/-- A raise changes registers, the event bookkeeping and the output, and nothing else. -/
theorem raise_form (s : State) (n : Nat) : ∃ r e o, s.raise n = { s with regs := r, ev := e, out := o } := by
  unfold State.raise
  split
  · exact ⟨s.regs, s.ev, s.out, rfl⟩
  · dsimp only
    split
    · exact ⟨s.regs, _, s.out, rfl⟩
    · split
      · obtain ⟨r, e, o, h⟩ := trigger_form (State.setPend { s with ev := { s.ev with
            raised := setBit s.ev.raised n, tmCur := setBit s.ev.tmCur n } } n) (State.rd (State.setPend { s with ev := { s.ev with
            raised := setBit s.ev.raised n, tmCur := setBit s.ev.tmCur n } } n) (F.EVT_MAP_VECTOR.at n))
        rw [h]
        exact ⟨r, e, o, rfl⟩
      · exact ⟨_, _, s.out, rfl⟩

/-- A trigger of a vector below 256 leaves every word outside the PBA. -/
theorem rdw_trigger (s : State) (v a : Nat) (hv : v < 256) (ha : a < 0x3a000 ∨ 0x3a020 ≤ a) : (s.trigger v).rdw a = s.rdw a := by
  unfold State.trigger
  split
  · rw [State.setPba, rdw_wr_ne]
    simp only [Reg.at, R.HST_MSIX_PBA]
    omega
  · split
    · unfold State.deferMsg; split <;> rfl
    · rfl

/-- Every source is one of the 256 bits of EVT_PEND. -/
theorem sourceExists_lt {n : Nat} (h : sourceExists n = true) : n < 256 := by
  by_contra hc
  obtain ⟨k, hk⟩ : ∃ k, n / 16 = k + 16 := ⟨n / 16 - 16, by omega⟩
  simp [sourceExists, hk] at h

/-- A raise leaves every word outside EVT_PEND and the PBA. -/
theorem rdw_raise (s : State) (n a : Nat) (h1 : a < 0x20000 ∨ 0x20020 ≤ a) (h2 : a < 0x3a000 ∨ 0x3a020 ≤ a) :
    (s.raise n).rdw a = s.rdw a := by
  unfold State.raise
  split
  · rfl
  · rename_i hx
    have hn : n < 256 := sourceExists_lt (by simpa using hx)
    dsimp only
    split
    · rfl
    · have key : (State.setPend { s with ev := { s.ev with
          raised := setBit s.ev.raised n, tmCur := setBit s.ev.tmCur n } } n).rdw a = s.rdw a := by
        rw [State.setPend, rdw_wr_ne]
        · rfl
        · simp only [Reg.at, R.EVT_PEND]; omega
      split
      · rw [rdw_trigger _ _ _ _ h2, key]
        exact bits_lt _ _ _
      · exact key

/-- A raise leaves every field outside EVT_PEND and the PBA. -/
theorem rd_raise (s : State) (n : Nat) (f : Fld) (h1 : f.addr < 0x20000 ∨ 0x20020 ≤ f.addr)
    (h2 : f.addr < 0x3a000 ∨ 0x3a020 ≤ f.addr) : (s.raise n).rd f = s.rd f := by
  simp [State.rd, rdw_raise s n f.addr h1 h2]

end Sys2Proof.Machine
end

