-- ==== Sys2Proof/Laws/Eng.lean ====
section
/-! SUPPORT. Galleries and threads: read after write, and what the shared operations of an instruction's issue can change. -/

namespace Sys2Proof.Machine

/-! ### Galleries and threads -/

@[simp] theorem galI_galUpd (s : State) (g h : Nat) (f : Gal → Gal) :
    (s.galUpd g f).galI h = if h = g then f (s.galI h) else s.galI h := by
  simp [State.galI, State.galUpd]

@[simp] theorem thrI_thrUpd (s : State) (g i h j : Nat) (f : Thr → Thr) :
    (s.thrUpd g i f).thrI h j = if h = g ∧ j = i then f (s.thrI h j) else s.thrI h j := by
  unfold State.thrI State.thrUpd
  rw [galI_galUpd]
  by_cases hh : h = g
  · simp [hh]
  · simp [hh]

/-- A thread is a function of the galleries alone. -/
theorem thrI_congr {s t : State} (h : t.gal = s.gal) (g i : Nat) : t.thrI g i = s.thrI g i := by
  simp [State.thrI, State.galI, h]

/-- A register is a function of the galleries alone. -/
theorem rg_congr {s t : State} (h : t.gal = s.gal) (g i r : Nat) : t.rg g i r = s.rg g i r := by
  simp [State.rg, thrI_congr h]

@[simp] theorem thrI_wr (s : State) (f : Fld) (v g i : Nat) : (s.wr f v).thrI g i = s.thrI g i := rfl
@[simp] theorem galI_wr (s : State) (f : Fld) (v g : Nat) : (s.wr f v).galI g = s.galI g := rfl
@[simp] theorem thrI_emit (s : State) (o : Out) (g i : Nat) : (s.emit o).thrI g i = s.thrI g i := rfl
@[simp] theorem galI_emit (s : State) (o : Out) (g : Nat) : (s.emit o).galI g = s.galI g := rfl

/-- Read after write of a G register: G0 keeps reading zero, every other register of every thread is as it was. -/
theorem rg_rgSet (s : State) (g i r v h j q : Nat) :
    (s.rgSet g i r v).rg h j q = if h = g ∧ j = i ∧ q = r ∧ r ≠ 0 then v % 2 ^ 64 else s.rg h j q := by
  unfold State.rgSet State.rg
  by_cases hr : r = 0
  · simp [hr]
  · rw [if_neg hr, thrI_thrUpd]
    by_cases hq : q = 0
    · rw [if_pos hq, if_pos hq, if_neg (by rintro ⟨-, -, h1, h2⟩; omega)]
    · rw [if_neg hq, if_neg hq]
      by_cases hi : h = g ∧ j = i
      · simp only [hi, and_self, if_true, mget_mset, true_and]
        by_cases h2 : q = r <;> simp [h2, hr]
      · rw [if_neg hi, if_neg (by tauto)]

/-- A set bit taken out of a number. -/
theorem testBit_clear {n p : Nat} (h : n.testBit p = true) (q : Nat) :
    (n - 2 ^ p).testBit q = (n.testBit q && decide (q ≠ p)) := by
  have hm : n % 2 ^ p + 2 ^ p * (1 + 2 * (n / 2 ^ (p + 1))) = n := by
    have h1 : n / 2 ^ p % 2 = 1 := by
      have := Nat.testBit_eq_decide_div_mod_eq (x := n) (i := p)
      rw [h] at this; simpa using this.symm
    have h2 : n / 2 ^ (p + 1) = n / 2 ^ p / 2 := by rw [Nat.div_div_eq_div_mul, Nat.pow_succ]
    have h3 : 1 + 2 * (n / 2 ^ (p + 1)) = n / 2 ^ p := by omega
    rw [h3, Nat.mod_add_div]
  have hlt : n % 2 ^ p < 2 ^ p := Nat.mod_lt _ (by positivity)
  have e : n - 2 ^ p = 2 ^ p * (2 * (n / 2 ^ (p + 1))) + n % 2 ^ p := by
    have := Nat.mul_add (2 ^ p) 1 (2 * (n / 2 ^ (p + 1)))
    omega
  have e' : n = 2 ^ p * (1 + 2 * (n / 2 ^ (p + 1))) + n % 2 ^ p := by omega
  rw [e]
  conv_rhs => rw [e']
  rw [Nat.testBit_two_pow_mul_add _ hlt, Nat.testBit_two_pow_mul_add _ hlt]
  by_cases c : q < p
  · simp [c]; intro; omega
  · rw [if_neg c, if_neg c]
    by_cases c2 : q = p
    · simp [c2]
    · obtain ⟨k, hk⟩ : ∃ k, q - p = k + 1 := ⟨q - p - 1, by omega⟩
      rw [hk, Nat.testBit_succ, Nat.testBit_succ]
      simp only [c2, ne_eq, not_false_eq_true, decide_true, Bool.and_true]
      congr 1; omega

/-- Read after write of a predicate: P0 keeps reading 1, every other predicate of every thread is as it was. -/
theorem pd_pdSet (s : State) (g i p h j q : Nat) (v : Bool) :
    (s.pdSet g i p v).pd h j q = if h = g ∧ j = i ∧ q = p ∧ p ≠ 0 then v else s.pd h j q := by
  unfold State.pdSet State.pd
  by_cases hp : p = 0
  · simp [hp]
  · rw [if_neg hp, thrI_thrUpd]
    by_cases hq : q = 0
    · rw [if_pos hq, if_pos hq, if_neg (by rintro ⟨-, -, h1, h2⟩; omega)]
    · rw [if_neg hq, if_neg hq]
      by_cases hi : h = g ∧ j = i
      · simp only [hi, and_self, if_true, true_and]
        cases v with
        | true =>
          simp only [if_true, bitN, setBit, Nat.testBit_or, Nat.testBit_two_pow]
          by_cases h2 : q = p
          · simp [h2, hp]
          · have : ¬ p = q := fun e => h2 e.symm
            simp [h2, this]
        | false =>
          by_cases hb : bitN (s.thrI g i).preds p = true
          · rw [if_neg (by decide), if_pos hb]
            simp only [bitN] at hb ⊢
            rw [testBit_clear hb]
            by_cases h2 : q = p
            · simp [h2, hp]
            · simp [h2]
          · rw [if_neg (by decide), if_neg hb]
            by_cases h2 : q = p
            · simp [h2, hp] at hb ⊢; exact hb
            · simp [h2]
      · rw [if_neg hi, if_neg (by tauto)]

/-- Read after write of an 8-byte word of a gallery's memories. -/
theorem gw_gwSet (s : State) (g k v h j : Nat) :
    (s.gwSet g k v).gw h j = if h = g ∧ j = k then v % 2 ^ 64 else s.gw h j := by
  unfold State.gwSet State.gw
  rw [galI_galUpd]
  by_cases hh : h = g
  · simp [hh]
  · simp [hh]

/-! ### Performance counters and control -/

/-- A write of a 64-bit register changes registers only. -/
theorem wr64_form (s : State) (r : Reg) (v : Nat) : ∃ m, s.wr64 r v = { s with regs := m } := ⟨_, rfl⟩

/-- `t` is `s` but for its registers and performance samples that have come due. -/
def regsAndDue (s t : State) : Prop := ∃ m l, t = { s with regs := m, pmcSt := { s.pmcSt with due := s.pmcSt.due ++ l } }

theorem regsAndDue_refl (s : State) : regsAndDue s s := ⟨s.regs, [], by simp⟩

theorem regsAndDue_trans {s t u : State} (h : regsAndDue s t) (h' : regsAndDue t u) : regsAndDue s u := by
  obtain ⟨m, l, rfl⟩ := h
  obtain ⟨m', l', rfl⟩ := h'
  exact ⟨m', l ++ l', by simp [List.append_assoc]⟩

theorem regsAndDue_of_regs {s t : State} (h : ∃ m, t = { s with regs := m }) : regsAndDue s t := by
  obtain ⟨m, rfl⟩ := h
  exact ⟨m, [], by simp⟩

/-- A fold of steps that change registers and samples only. -/
theorem foldS_regs {A : Type} (f : A → State → State) (hf : ∀ a t, regsAndDue t (f a t)) (l : List A) (s : State) :
    regsAndDue s (foldS l f s) := by
  unfold foldS
  induction l generalizing s with
  | nil => exact regsAndDue_refl s
  | cons a l ih => exact regsAndDue_trans (hf a s) (ih (f a s))

/-- Counting a performance event changes registers and samples only. -/
theorem pmc_form (s : State) (g i ev : Nat) : regsAndDue s (s.pmc g i ev) := by
  unfold State.pmc
  split
  · exact regsAndDue_refl s
  · apply foldS_regs
    intro c t
    dsimp only
    split
    · split
      · obtain ⟨m, h⟩ := wr64_form t ((R.PMC_VAL.on g).at (8 * (i / 8) + c)) 0
        rw [h]
        exact ⟨m, [(g, i / 8, c, i % 8)], rfl⟩
      · exact regsAndDue_of_regs (wr64_form t _ _)
    · exact regsAndDue_refl t

@[simp] theorem pmc_gal (s : State) (g i ev : Nat) : (s.pmc g i ev).gal = s.gal := by
  obtain ⟨r, l, h⟩ := pmc_form s g i ev; rw [h]

@[simp] theorem galI_pmc (s : State) (g i ev h : Nat) : (s.pmc g i ev).galI h = s.galI h := by
  simp [State.galI]

@[simp] theorem thrI_pmc (s : State) (g i ev h j : Nat) : (s.pmc g i ev).thrI h j = s.thrI h j := by
  simp [State.thrI]

/-- What the retirement of an instruction can change: registers, samples due, and the gallery. -/
theorem retire_form (s : State) (g i : Nat) :
    ∃ r m l, s.retire g i = { s with regs := r, gal := m, pmcSt := { s.pmcSt with due := s.pmcSt.due ++ l } } := by
  have key : ∀ t m, t = { s with gal := m } →
      ∃ r m l, t.pmc g i 0x02 = { s with regs := r, gal := m, pmcSt := { s.pmcSt with due := s.pmcSt.due ++ l } } := by
    rintro t m rfl
    obtain ⟨r, l, h⟩ := pmc_form { s with gal := m } g i 0x02
    exact ⟨r, m, l, h⟩
  unfold State.retire
  exact key _ _ rfl

/-- The retiring thread is debug-halted if it was stepping; no other thread of any gallery changes. -/
theorem thrI_retire (s : State) (g i h j : Nat) :
    (s.retire g i).thrI h j =
      if h = g ∧ j = i ∧ (s.thrI g i).step = true then
        { s.thrI h j with run := .haltD, was := (s.thrI g i).run, step := false, haltAt := s.tb.up, leashed := [] }
      else s.thrI h j := by
  unfold State.retire
  simp only [thrI_pmc, thrI_thrUpd]
  have hg : ∀ (f : Gal → Gal), (∀ y, (f y).thr = y.thr) → (s.galUpd g f).thrI h j = s.thrI h j := by
    intro f hf
    unfold State.thrI
    rw [galI_galUpd]
    by_cases hh : h = g <;> simp [hh, hf]
  rw [hg _ (by intro y; rfl)]
  by_cases hi : h = g ∧ j = i
  · obtain ⟨rfl, rfl⟩ := hi
    simp only [and_self, if_true, true_and]
  · rw [if_neg hi, if_neg (by tauto)]

end Sys2Proof.Machine
end

