-- ==== Sys2Proof/Laws/Issue.lean ====
section
/-! SUPPORT. What issuing and retiring an instruction does, said once: `eng_issues` and `control_next`, `control_jump`. -/

namespace Sys2Proof.Machine

/-- A fold keeps what each of its steps keeps. -/
theorem foldS_inv {A : Type} (P : State → Prop) (l : List A) (f : A → State → State) (s : State) (h : P s)
    (hf : ∀ a ∈ l, ∀ t, P t → P (f a t)) : P (foldS l f s) := by
  unfold foldS
  induction l generalizing s with
  | nil => exact h
  | cons a l ih =>
    rw [List.foldl_cons]
    exact ih _ (hf a (List.mem_cons_self ..) s h) (fun b hb => hf b (List.mem_cons_of_mem _ hb))

/-- Counting a performance event leaves every word outside the gallery's counters. -/
theorem rdw_pmc (s : State) (g i ev a : Nat) (hi : i < 64)
    (h : ¬((R.PMC_VAL.on g).addr ≤ a ∧ a < (R.PMC_VAL.on g).addr + 512)) : (s.pmc g i ev).rdw a = s.rdw a := by
  unfold State.pmc
  split
  · rfl
  · refine foldS_inv (fun u => u.rdw a = s.rdw a) _ _ _ rfl ?_
    intro c hc u hu
    have hc := List.mem_range.mp hc
    dsimp only
    split
    · have hw : ∀ v, (u.wr64 ((R.PMC_VAL.on g).at (8 * (i / 8) + c)) v).rdw a = s.rdw a := by
        intro v
        simp only [State.wr64, rdw_wrw]
        rw [if_neg, if_neg, hu]
        all_goals
          simp only [Reg.at, Reg.on, R.PMC_VAL] at h ⊢
          omega
      split
      · exact hw 0
      · exact hw _
    · exact hu

/-- An instruction that issues runs its body, and its thread is controlled as the body says. -/
theorem eng_issues {s : State} {d : Iss} {i : Instr} (h : issues s d i) (body : State → State × Ctl) :
    s.eng d i body = (body s).1.control d.c.g.val d.c.ix (body s).2 := by
  obtain ⟨h1, h2, h3, h4, h5⟩ := h
  unfold State.eng State.issue
  have h2' : ¬ (s.galI d.c.g.val).codeLen ≤ (s.thrI d.c.g.val d.c.ix).pc := Nat.not_le.mpr h2
  have h3' : mget (fun _ => 0) (s.galI d.c.g.val).code (s.thrI d.c.g.val d.c.ix).pc = (engWord i).getD 0 := by
    rw [h3]; rfl
  have h4' : (s.pd d.c.g.val d.c.ix d.pg.toNat == d.pn) = false := by simpa using h4
  simp only [h1, h2', h3', h4', h5, Bool.not_true, if_false, ne_eq, not_true_eq_false, Bool.false_eq_true]

/-- Thread numbers are below 64. -/
theorem ix_lt (c : ThrId) : c.ix < 64 := by
  have h1 := c.e.isLt
  have h2 := c.t.isLt
  unfold ThrId.ix
  omega

section Retire
variable (s : State) (g i : Nat)

/-- The galleries after a retirement. -/
theorem galI_retire (h : Nat) :
    (s.retire g i).galI h = (if h = g then
      { s.galI g with
        thr := mupd (fun _ => {}) (s.galI g).thr i (fun x =>
          if x.step then { x with run := .haltD, was := x.run, step := false, haltAt := s.tb.up, leashed := [] } else x)
        budget := if (s.thrI g i).role = 2 ∧ (s.thrI g i).started = true then (s.galI g).budget - 1 else (s.galI g).budget }
      else s.galI h) := by
  unfold State.retire State.thrUpd
  simp only [galI_pmc, galI_galUpd]
  by_cases hh : h = g
  · subst hh; simp
  · simp [hh]

/-- Words outside the gallery's performance counters are as they were. -/
theorem rdw_retire (a : Nat) (hi : i < 64)
    (h : ¬((R.PMC_VAL.on g).addr ≤ a ∧ a < (R.PMC_VAL.on g).addr + 512)) : (s.retire g i).rdw a = s.rdw a := by
  unfold State.retire
  rw [rdw_pmc _ _ _ _ _ hi h]
  rfl

/-- Retirement changes registers, samples due and galleries only. -/
theorem retire_rest : ∃ l, { s.retire g i with regs := s.regs, gal := s.gal } = { s with pmcSt := { s.pmcSt with due := s.pmcSt.due ++ l } } := by
  obtain ⟨r, m, l, h⟩ := retire_form s g i
  exact ⟨l, by rw [h]⟩

/-- The galleries once a thread has acted (R326). -/
theorem galI_saTouch (h : Nat) :
    (s.saTouch g i).galI h = (if h = g then
      { s.galI g with saAt := if i = 0 then (s.galI g).saAt else s.tb.up, saFired := (s.galI g).saFired && decide (i = 0) }
      else s.galI h) := by
  unfold State.saTouch
  simp only [galI_galUpd]
  by_cases hh : h = g
  · subst hh; simp
  · simp [hh]

end Retire

/-- A thread of an instruction that has acted, put at an index and ready, then retired. -/
theorem ready_retired (u v : State) (d : Iss) (n : Nat)
    (hg : ∀ h, v.galI h = if h = d.c.g.val then
        { u.galI h with
          thr := mupd (fun _ => {}) (u.galI h).thr d.c.ix (fun x => { x with pc := n, run := .ready })
          saAt := if d.c.ix = 0 then (u.galI h).saAt else u.tb.up
          saFired := (u.galI h).saFired && decide (d.c.ix = 0) }
      else u.galI h)
    (hr : ∀ a, ¬pmcWords d a → v.rdw a = u.rdw a)
    (hx : ∃ l, { v with regs := u.regs, gal := u.gal } = { u with pmcSt := { u.pmcSt with due := u.pmcSt.due ++ l } }) :
    retired u (v.retire d.c.g.val d.c.ix) d n := by
  obtain ⟨l, hx⟩ := hx
  have htb : v.tb = u.tb := by have e := congrArg State.tb hx; exact e
  have hup : v.tb.up = u.tb.up := by rw [htb]
  have hdue : v.pmcSt = { u.pmcSt with due := u.pmcSt.due ++ l } := by have e := congrArg State.pmcSt hx; exact e
  have ht : ∀ h j, v.thrI h j = if h = d.c.g.val ∧ j = d.c.ix then { u.thrI h j with pc := n, run := .ready } else u.thrI h j := by
    intro h j
    unfold State.thrI
    rw [hg]
    by_cases hh : h = d.c.g.val
    · simp [hh]
    · simp [hh]
  refine ⟨?_, ?_, ?_, ?_, ?_, ?_, ?_, ?_, ?_⟩
  · unfold State.thrOf
    rw [thrI_retire]
    simp only [ht, and_self, if_true, true_and, hup]
  · intro h j hn
    rw [thrI_retire, if_neg (by tauto), ht, if_neg hn]
  · intro h
    rw [galI_retire]
    by_cases hh : h = d.c.g.val
    · rw [if_pos hh, hh, hg, if_pos rfl]
    · rw [if_neg hh, hg, if_neg hh]
  · rw [galI_retire, if_pos rfl, ht]
    simp only [and_self, if_true]
    rw [hg, if_pos rfl]
    rfl
  · rw [galI_retire, if_pos rfl, hg, if_pos rfl]
  · rw [galI_retire, if_pos rfl, hg, if_pos rfl]
  · intro h hn
    rw [galI_retire, if_neg hn, hg, if_neg hn]
  · intro a ha
    rw [rdw_retire _ _ _ _ (ix_lt d.c) ha, hr a ha]
  · obtain ⟨k, hk⟩ := retire_rest v d.c.g.val d.c.ix
    refine ⟨l ++ k, ?_⟩
    have e : { v.retire d.c.g.val d.c.ix with regs := u.regs, gal := u.gal }
        = { ({ v.retire d.c.g.val d.c.ix with regs := v.regs, gal := v.gal } : State) with regs := u.regs, gal := u.gal } := rfl
    rw [e, hk, hdue]
    have e' : ({ v with regs := u.regs, gal := u.gal, pmcSt := { u.pmcSt with due := u.pmcSt.due ++ l ++ k } } : State)
        = { ({ v with regs := u.regs, gal := u.gal } : State) with pmcSt := { u.pmcSt with due := u.pmcSt.due ++ l ++ k } } := rfl
    rw [e', hx, List.append_assoc]

/-- The galleries once a thread has acted and stands at an index. -/
theorem galI_touched (u : State) (g i n h : Nat) :
    ((u.saTouch g i).thrUpd g i (fun x => { x with pc := n, run := .ready })).galI h = if h = g then
        { u.galI h with
          thr := mupd (fun _ => {}) (u.galI h).thr i (fun x => { x with pc := n, run := .ready })
          saAt := if i = 0 then (u.galI h).saAt else u.tb.up
          saFired := (u.galI h).saFired && decide (i = 0) }
      else u.galI h := by
  unfold State.thrUpd
  rw [galI_galUpd]
  by_cases hh : h = g
  · subst hh; simp [galI_saTouch]
  · simp [hh, galI_saTouch]

/-- An instruction that ends with its thread at the next index. -/
theorem control_next (u : State) (d : Iss) : retired u (u.control d.c.g.val d.c.ix .next) d (nextPc u d) := by
  have hp : ((u.saTouch d.c.g.val d.c.ix).thrUpd d.c.g.val d.c.ix (fun x => { x with pc := (x.pc + 1) % 2 ^ 16, run := .ready }))
      = (u.saTouch d.c.g.val d.c.ix).thrUpd d.c.g.val d.c.ix (fun x => { x with pc := nextPc u d, run := .ready }) := by
    have : ((u.saTouch d.c.g.val d.c.ix).thrI d.c.g.val d.c.ix) = u.thrOf d := by
      unfold State.thrOf State.thrI
      rw [galI_saTouch]
      simp
    simp only [State.thrUpd, State.galUpd, mupd, nextPc, ← this]
    rfl
  show retired u (State.retire _ _ _) d _
  refine ready_retired u _ d _ (fun h => ?_) (fun a _ => rfl) ⟨[], by rw [List.append_nil]; rfl⟩
  rw [show (if _ = true then u else u.saTouch d.c.g.val d.c.ix) = u.saTouch d.c.g.val d.c.ix from rfl, hp, galI_touched]

/-- An instruction that ends with its thread at index `n`. -/
theorem control_jump (u : State) (d : Iss) (n : Nat) : retired u (u.control d.c.g.val d.c.ix (.jump n)) d n := by
  obtain ⟨r, l, h⟩ := pmc_form ((u.saTouch d.c.g.val d.c.ix).thrUpd d.c.g.val d.c.ix (fun x => { x with pc := n, run := .ready }))
    d.c.g.val d.c.ix 0x08
  show retired u ((State.pmc _ _ _ _).retire _ _) d _
  refine ready_retired u _ d _ (fun h => ?_) (fun a ha => ?_) ⟨l, ?_⟩
  · rw [galI_pmc, show (if _ = true then u else u.saTouch d.c.g.val d.c.ix) = u.saTouch d.c.g.val d.c.ix from rfl, galI_touched]
  · rw [rdw_pmc _ _ _ _ _ (ix_lt d.c) ha]
    rfl
  · rw [show (if _ = true then u else u.saTouch d.c.g.val d.c.ix) = u.saTouch d.c.g.val d.c.ix from rfl, h]
    rfl

end Sys2Proof.Machine
end

