-- ==== Sys2Proof/Laws/PerInstr.lean ====
section
/-! SUPPORT. Per-instruction family `Encoding`: the word of an engine instruction has 32 bits and carries its guard; no other command
has a word. -/

namespace Sys2Proof.Laws.Encoding

open Machine

/-- The word of `i`, if it has one, has 32 bits, and its bits [31:28] spell the guard of `i` (R301). -/
def Statement (i : Instr) : Prop :=
  ∀ w, encodeEngine i = some w → w < 2 ^ 32 ∧ ∀ d, i.iss = some d → w / 2 ^ 28 = b2n d.pn * 8 + d.pg.toNat

/-- A command without a word. -/
theorem wordless {i : Instr} (h : encodeEngine i = none) : Statement i := by
  intro w hw; rw [h] at hw; cases hw

/-- A head and fields that stay below bit 22. -/
theorem framed {i : Instr} {d : Iss} {op rest : Nat} (h : encodeEngine i = some (encHead d op + rest)) (hd : i.iss = some d)
    (ho : op < 64) (hr : rest < 2 ^ 22) : Statement i := by
  intro w hw
  rw [h] at hw
  cases hw
  have hp := d.pg.isLt
  have hn : b2n d.pn ≤ 1 := by cases d.pn <;> decide
  refine ⟨by unfold encHead; omega, ?_⟩
  intro d' h'
  rw [hd] at h'
  cases h'
  unfold encHead
  omega

theorem formA (d : Iss) (op : Nat) (rd ra rb : GReg) (fn : Nat) (hf : fn < 128) :
    ∃ rest, encA d op rd ra rb fn = encHead d op + rest ∧ rest < 2 ^ 22 := by
  have := rd.isLt; have := ra.isLt; have := rb.isLt
  exact ⟨rd.toNat * 131072 + ra.toNat * 4096 + rb.toNat * 128 + fn, by unfold encA; omega, by omega⟩

theorem formI (d : Iss) (op : Nat) (rd ra : GReg) (imm : Nat) (hf : imm < 4096) :
    ∃ rest, encI d op rd ra imm = encHead d op + rest ∧ rest < 2 ^ 22 := by
  have := rd.isLt; have := ra.isLt
  exact ⟨rd.toNat * 131072 + ra.toNat * 4096 + imm, by unfold encI; omega, by omega⟩

theorem formM (d : Iss) (op : Nat) (rd ra : GReg) (sz : BitVec 2) (ofs : BitVec 10) :
    ∃ rest, encM d op rd ra sz ofs = encHead d op + rest ∧ rest < 2 ^ 22 := by
  have := rd.isLt; have := ra.isLt; have := sz.isLt; have := ofs.isLt
  exact ⟨rd.toNat * 131072 + ra.toNat * 4096 + sz.toNat * 1024 + ofs.toNat, by unfold encM; omega, by omega⟩

theorem formW (d : Iss) (op : Nat) (rd : GReg) (x : Bool) (imm : BitVec 16) :
    ∃ rest, encW d op rd x imm = encHead d op + rest ∧ rest < 2 ^ 22 := by
  have := rd.isLt; have := imm.isLt
  have : b2n x ≤ 1 := by cases x <;> decide
  exact ⟨rd.toNat * 131072 + b2n x * 65536 + imm.toNat, by unfold encW; omega, by omega⟩

theorem formF (d : Iss) (op : Nat) (rd ra : GReg) (pos len : BitVec 6) :
    ∃ rest, encF d op rd ra pos len = encHead d op + rest ∧ rest < 2 ^ 22 := by
  have := rd.isLt; have := ra.isLt; have := pos.isLt; have := len.isLt
  exact ⟨rd.toNat * 131072 + ra.toNat * 4096 + pos.toNat * 64 + len.toNat, by unfold encF; omega, by omega⟩

theorem formC (d : Iss) (op : Nat) (pd : PReg) (cb : BitVec 2) (ra rb : GReg) (cc : BitVec 3) (fn : Nat) (hf : fn < 16) :
    ∃ rest, encC d op pd cb ra rb cc fn = encHead d op + rest ∧ rest < 2 ^ 22 := by
  have := pd.isLt; have := cb.isLt; have := ra.isLt; have := rb.isLt; have := cc.isLt
  exact ⟨pd.toNat * 524288 + cb.toNat * 131072 + ra.toNat * 4096 + rb.toNat * 128 + cc.toNat * 16 + fn,
    by unfold encC; omega, by omega⟩

theorem formK (d : Iss) (pd : PReg) (cb : BitVec 2) (ra : GReg) (cc : BitVec 3) (imm : BitVec 9) :
    ∃ rest, encK d pd cb ra cc imm = encHead d 0x0B + rest ∧ rest < 2 ^ 22 := by
  have := pd.isLt; have := cb.isLt; have := ra.isLt; have := cc.isLt; have := imm.isLt
  exact ⟨pd.toNat * 524288 + cb.toNat * 131072 + ra.toNat * 4096 + cc.toNat * 512 + imm.toNat, by unfold encK; omega, by omega⟩

theorem formP (d : Iss) (pd pa pb : PReg) (pf : BitVec 3) :
    ∃ rest, encP d pd pa pb pf = encHead d 0x0C + rest ∧ rest < 2 ^ 22 := by
  have := pd.isLt; have := pa.isLt; have := pb.isLt; have := pf.isLt
  exact ⟨pd.toNat * 524288 + pa.toNat * 65536 + pb.toNat * 8192 + pf.toNat * 1024, by unfold encP; omega, by omega⟩

theorem formB (d : Iss) (op : Nat) (ofs : BitVec 22) : ∃ rest, encB d op ofs = encHead d op + rest ∧ rest < 2 ^ 22 :=
  ⟨ofs.toNat, rfl, ofs.isLt⟩

theorem formS (d : Iss) (op : Nat) (rd ra : GReg) (idx fn : Nat) (hi : idx < 256) (hf : fn < 16) :
    ∃ rest, encS d op rd ra idx fn = encHead d op + rest ∧ rest < 2 ^ 22 := by
  have := rd.isLt; have := ra.isLt
  exact ⟨rd.toNat * 131072 + ra.toNat * 4096 + idx * 16 + fn, by unfold encS; omega, by omega⟩

/-- From a format to the statement. -/
theorem of_form {i : Instr} {d : Iss} {op w : Nat} (h : encodeEngine i = some w) (hd : i.iss = some d) (ho : op < 64)
    (hf : ∃ rest, w = encHead d op + rest ∧ rest < 2 ^ 22) : Statement i := by
  obtain ⟨rest, rfl, hr⟩ := hf
  exact framed h hd ho hr

theorem add (d : Iss) (rd : GReg) (ra : GReg) (rb : GReg) : Statement (.add d rd ra rb) := by
  exact of_form rfl rfl (by decide) (formA d 0x00 rd ra rb 0x00 (by omega))

theorem sub (d : Iss) (rd : GReg) (ra : GReg) (rb : GReg) : Statement (.sub d rd ra rb) := by
  exact of_form rfl rfl (by decide) (formA d 0x00 rd ra rb 0x01 (by omega))

theorem and_ (d : Iss) (rd : GReg) (ra : GReg) (rb : GReg) : Statement (.and_ d rd ra rb) := by
  exact of_form rfl rfl (by decide) (formA d 0x00 rd ra rb 0x02 (by omega))

theorem or_ (d : Iss) (rd : GReg) (ra : GReg) (rb : GReg) : Statement (.or_ d rd ra rb) := by
  exact of_form rfl rfl (by decide) (formA d 0x00 rd ra rb 0x03 (by omega))

theorem xor_ (d : Iss) (rd : GReg) (ra : GReg) (rb : GReg) : Statement (.xor_ d rd ra rb) := by
  exact of_form rfl rfl (by decide) (formA d 0x00 rd ra rb 0x04 (by omega))

theorem andn (d : Iss) (rd : GReg) (ra : GReg) (rb : GReg) : Statement (.andn d rd ra rb) := by
  exact of_form rfl rfl (by decide) (formA d 0x00 rd ra rb 0x05 (by omega))

theorem sll (d : Iss) (rd : GReg) (ra : GReg) (rb : GReg) : Statement (.sll d rd ra rb) := by
  exact of_form rfl rfl (by decide) (formA d 0x00 rd ra rb 0x06 (by omega))

theorem srl (d : Iss) (rd : GReg) (ra : GReg) (rb : GReg) : Statement (.srl d rd ra rb) := by
  exact of_form rfl rfl (by decide) (formA d 0x00 rd ra rb 0x07 (by omega))

theorem sra (d : Iss) (rd : GReg) (ra : GReg) (rb : GReg) : Statement (.sra d rd ra rb) := by
  exact of_form rfl rfl (by decide) (formA d 0x00 rd ra rb 0x08 (by omega))

theorem rol (d : Iss) (rd : GReg) (ra : GReg) (rb : GReg) : Statement (.rol d rd ra rb) := by
  exact of_form rfl rfl (by decide) (formA d 0x00 rd ra rb 0x09 (by omega))

theorem ror (d : Iss) (rd : GReg) (ra : GReg) (rb : GReg) : Statement (.ror d rd ra rb) := by
  exact of_form rfl rfl (by decide) (formA d 0x00 rd ra rb 0x0A (by omega))

theorem mul (d : Iss) (rd : GReg) (ra : GReg) (rb : GReg) : Statement (.mul d rd ra rb) := by
  exact of_form rfl rfl (by decide) (formA d 0x00 rd ra rb 0x0B (by omega))

theorem mulhu (d : Iss) (rd : GReg) (ra : GReg) (rb : GReg) : Statement (.mulhu d rd ra rb) := by
  exact of_form rfl rfl (by decide) (formA d 0x00 rd ra rb 0x0C (by omega))

theorem min_ (d : Iss) (rd : GReg) (ra : GReg) (rb : GReg) : Statement (.min_ d rd ra rb) := by
  exact of_form rfl rfl (by decide) (formA d 0x00 rd ra rb 0x0D (by omega))

theorem max_ (d : Iss) (rd : GReg) (ra : GReg) (rb : GReg) : Statement (.max_ d rd ra rb) := by
  exact of_form rfl rfl (by decide) (formA d 0x00 rd ra rb 0x0E (by omega))

theorem minu (d : Iss) (rd : GReg) (ra : GReg) (rb : GReg) : Statement (.minu d rd ra rb) := by
  exact of_form rfl rfl (by decide) (formA d 0x00 rd ra rb 0x0F (by omega))

theorem maxu (d : Iss) (rd : GReg) (ra : GReg) (rb : GReg) : Statement (.maxu d rd ra rb) := by
  exact of_form rfl rfl (by decide) (formA d 0x00 rd ra rb 0x10 (by omega))

theorem clz (d : Iss) (rd : GReg) (ra : GReg) : Statement (.clz d rd ra) := by
  exact of_form rfl rfl (by decide) (formA d 0x00 rd ra 0 0x11 (by omega))

theorem ctz (d : Iss) (rd : GReg) (ra : GReg) : Statement (.ctz d rd ra) := by
  exact of_form rfl rfl (by decide) (formA d 0x00 rd ra 0 0x12 (by omega))

theorem popc (d : Iss) (rd : GReg) (ra : GReg) : Statement (.popc d rd ra) := by
  exact of_form rfl rfl (by decide) (formA d 0x00 rd ra 0 0x13 (by omega))

theorem bswap64 (d : Iss) (rd : GReg) (ra : GReg) : Statement (.bswap64 d rd ra) := by
  exact of_form rfl rfl (by decide) (formA d 0x00 rd ra 0 0x14 (by omega))

theorem bswap32 (d : Iss) (rd : GReg) (ra : GReg) : Statement (.bswap32 d rd ra) := by
  exact of_form rfl rfl (by decide) (formA d 0x00 rd ra 0 0x15 (by omega))

theorem bswap16 (d : Iss) (rd : GReg) (ra : GReg) : Statement (.bswap16 d rd ra) := by
  exact of_form rfl rfl (by decide) (formA d 0x00 rd ra 0 0x16 (by omega))

theorem add32 (d : Iss) (rd : GReg) (ra : GReg) (rb : GReg) : Statement (.add32 d rd ra rb) := by
  exact of_form rfl rfl (by decide) (formA d 0x00 rd ra rb 0x17 (by omega))

theorem sub32 (d : Iss) (rd : GReg) (ra : GReg) (rb : GReg) : Statement (.sub32 d rd ra rb) := by
  exact of_form rfl rfl (by decide) (formA d 0x00 rd ra rb 0x18 (by omega))

theorem csum16 (d : Iss) (rd : GReg) (ra : GReg) (rb : GReg) : Statement (.csum16 d rd ra rb) := by
  exact of_form rfl rfl (by decide) (formA d 0x00 rd ra rb 0x19 (by omega))

theorem addi (d : Iss) (rd : GReg) (ra : GReg) (imm : BitVec 12) : Statement (.addi d rd ra imm) := by
  have := imm.isLt
  exact of_form rfl rfl (by decide) (formI d 0x01 rd ra imm.toNat (by omega))

theorem andi (d : Iss) (rd : GReg) (ra : GReg) (imm : BitVec 12) : Statement (.andi d rd ra imm) := by
  have := imm.isLt
  exact of_form rfl rfl (by decide) (formI d 0x02 rd ra imm.toNat (by omega))

theorem ori (d : Iss) (rd : GReg) (ra : GReg) (imm : BitVec 12) : Statement (.ori d rd ra imm) := by
  have := imm.isLt
  exact of_form rfl rfl (by decide) (formI d 0x03 rd ra imm.toNat (by omega))

theorem xori (d : Iss) (rd : GReg) (ra : GReg) (imm : BitVec 12) : Statement (.xori d rd ra imm) := by
  have := imm.isLt
  exact of_form rfl rfl (by decide) (formI d 0x04 rd ra imm.toNat (by omega))

theorem shi (d : Iss) (rd : GReg) (ra : GReg) (sel : BitVec 3) (amt : BitVec 6) : Statement (.shi d rd ra sel amt) := by
  have := amt.isLt; have := sel.isLt
  exact of_form rfl rfl (by decide) (formI d 0x05 rd ra (sel.toNat * 512 + amt.toNat) (by omega))

theorem movi (d : Iss) (rd : GReg) (x : Bool) (imm : BitVec 16) : Statement (.movi d rd x imm) := by
  exact of_form rfl rfl (by decide) (formW d 0x06 rd x imm)

theorem movk1 (d : Iss) (rd : GReg) (imm : BitVec 16) : Statement (.movk1 d rd imm) := by
  exact of_form rfl rfl (by decide) (formW d 0x07 rd false imm)

theorem movk2 (d : Iss) (rd : GReg) (imm : BitVec 16) : Statement (.movk2 d rd imm) := by
  exact of_form rfl rfl (by decide) (formW d 0x08 rd false imm)

theorem movk3 (d : Iss) (rd : GReg) (imm : BitVec 16) : Statement (.movk3 d rd imm) := by
  exact of_form rfl rfl (by decide) (formW d 0x09 rd false imm)

theorem cmp (d : Iss) (pd : PReg) (cb : BitVec 2) (ra : GReg) (rb : GReg) (cc : BitVec 3) : Statement (.cmp d pd cb ra rb cc) := by
  exact of_form rfl rfl (by decide) (formC d 0x0A pd cb ra rb cc 0 (by omega))

theorem cmpi (d : Iss) (pd : PReg) (cb : BitVec 2) (ra : GReg) (cc : BitVec 3) (imm : BitVec 9) : Statement (.cmpi d pd cb ra cc imm) := by
  exact of_form rfl rfl (by decide) (formK d pd cb ra cc imm)

theorem pset (d : Iss) (pd : PReg) (pa : PReg) (pb : PReg) (pf : BitVec 3) : Statement (.pset d pd pa pb pf) := by
  exact of_form rfl rfl (by decide) (formP d pd pa pb pf)

theorem br (d : Iss) (ofs : BitVec 22) : Statement (.br d ofs) := by
  exact of_form rfl rfl (by decide) (formB d 0x0D ofs)

theorem call (d : Iss) (ofs : BitVec 22) : Statement (.call d ofs) := by
  exact of_form rfl rfl (by decide) (formB d 0x0E ofs)

theorem jr (d : Iss) (ra : GReg) : Statement (.jr d ra) := by
  exact of_form rfl rfl (by decide) (formA d 0x0F 0 ra 0 0 (by omega))

theorem ext (d : Iss) (rd : GReg) (ra : GReg) (pos : BitVec 6) (lenm1 : BitVec 6) : Statement (.ext d rd ra pos lenm1) := by
  exact of_form rfl rfl (by decide) (formF d 0x10 rd ra pos lenm1)

theorem exts (d : Iss) (rd : GReg) (ra : GReg) (pos : BitVec 6) (lenm1 : BitVec 6) : Statement (.exts d rd ra pos lenm1) := by
  exact of_form rfl rfl (by decide) (formF d 0x11 rd ra pos lenm1)

theorem ins (d : Iss) (rd : GReg) (ra : GReg) (pos : BitVec 6) (lenm1 : BitVec 6) : Statement (.ins d rd ra pos lenm1) := by
  exact of_form rfl rfl (by decide) (formF d 0x12 rd ra pos lenm1)

theorem extv (d : Iss) (rd : GReg) (ra : GReg) (rb : GReg) (sgn : Bool) : Statement (.extv d rd ra rb sgn) := by
  have : b2n sgn ≤ 1 := by cases sgn <;> decide
  exact of_form rfl rfl (by decide) (formA d 0x13 rd ra rb (b2n sgn) (by omega))

theorem hwl (d : Iss) (r : GReg) (ra : GReg) (sz : BitVec 2) (ofs : BitVec 10) : Statement (.hwl d r ra sz ofs) := by
  exact of_form rfl rfl (by decide) (formM d 0x14 r ra sz ofs)

theorem hws (d : Iss) (r : GReg) (ra : GReg) (sz : BitVec 2) (ofs : BitVec 10) : Statement (.hws d r ra sz ofs) := by
  exact of_form rfl rfl (by decide) (formM d 0x15 r ra sz ofs)

theorem hwadj (d : Iss) (rd : GReg) (ra : GReg) (imm : BitVec 12) : Statement (.hwadj d rd ra imm) := by
  have := imm.isLt
  exact of_form rfl rfl (by decide) (formI d 0x16 rd ra imm.toNat (by omega))

theorem mdl (d : Iss) (rd : GReg) (idx : BitVec 8) : Statement (.mdl d rd idx) := by
  have := idx.isLt
  exact of_form rfl rfl (by decide) (formS d 0x17 rd 0 idx.toNat 0 (by omega) (by omega))

theorem mds (d : Iss) (ra : GReg) (idx : BitVec 8) : Statement (.mds d ra idx) := by
  have := idx.isLt
  exact of_form rfl rfl (by decide) (formS d 0x18 0 ra idx.toNat 0 (by omega) (by omega))

theorem ld (d : Iss) (r : GReg) (ra : GReg) (sz : BitVec 2) (ofs : BitVec 10) : Statement (.ld d r ra sz ofs) := by
  exact of_form rfl rfl (by decide) (formM d 0x19 r ra sz ofs)

theorem st (d : Iss) (r : GReg) (ra : GReg) (sz : BitVec 2) (ofs : BitVec 10) (lost : Bool) : Statement (.st d r ra sz ofs lost) := by
  exact of_form rfl rfl (by decide) (formM d 0x1A r ra sz ofs)

theorem ldx (d : Iss) (rd : GReg) (ra : GReg) (rb : GReg) (sz : BitVec 2) : Statement (.ldx d rd ra rb sz) := by
  have := sz.isLt
  exact of_form rfl rfl (by decide) (formA d 0x1B rd ra rb sz.toNat (by omega))

theorem stx (d : Iss) (r : GReg) (ra : GReg) (rb : GReg) (sz : BitVec 2) (lost : Bool) : Statement (.stx d r ra rb sz lost) := by
  have := sz.isLt
  exact of_form rfl rfl (by decide) (formA d 0x1C r ra rb sz.toNat (by omega))

theorem atomAdd (d : Iss) (rd : GReg) (ra : GReg) (rb : GReg) (dbl : Bool) : Statement (.atomAdd d rd ra rb dbl) := by
  have : b2n dbl ≤ 1 := by cases dbl <;> decide
  exact of_form rfl rfl (by decide) (formA d 0x1D rd ra rb (0 + 8 * b2n dbl) (by omega))

theorem atomAnd (d : Iss) (rd : GReg) (ra : GReg) (rb : GReg) (dbl : Bool) : Statement (.atomAnd d rd ra rb dbl) := by
  have : b2n dbl ≤ 1 := by cases dbl <;> decide
  exact of_form rfl rfl (by decide) (formA d 0x1D rd ra rb (1 + 8 * b2n dbl) (by omega))

theorem atomOr (d : Iss) (rd : GReg) (ra : GReg) (rb : GReg) (dbl : Bool) : Statement (.atomOr d rd ra rb dbl) := by
  have : b2n dbl ≤ 1 := by cases dbl <;> decide
  exact of_form rfl rfl (by decide) (formA d 0x1D rd ra rb (2 + 8 * b2n dbl) (by omega))

theorem atomXor (d : Iss) (rd : GReg) (ra : GReg) (rb : GReg) (dbl : Bool) : Statement (.atomXor d rd ra rb dbl) := by
  have : b2n dbl ≤ 1 := by cases dbl <;> decide
  exact of_form rfl rfl (by decide) (formA d 0x1D rd ra rb (3 + 8 * b2n dbl) (by omega))

theorem atomSwap (d : Iss) (rd : GReg) (ra : GReg) (rb : GReg) (dbl : Bool) : Statement (.atomSwap d rd ra rb dbl) := by
  have : b2n dbl ≤ 1 := by cases dbl <;> decide
  exact of_form rfl rfl (by decide) (formA d 0x1D rd ra rb (4 + 8 * b2n dbl) (by omega))

theorem atomUmin (d : Iss) (rd : GReg) (ra : GReg) (rb : GReg) (dbl : Bool) : Statement (.atomUmin d rd ra rb dbl) := by
  have : b2n dbl ≤ 1 := by cases dbl <;> decide
  exact of_form rfl rfl (by decide) (formA d 0x1D rd ra rb (5 + 8 * b2n dbl) (by omega))

theorem atomUmax (d : Iss) (rd : GReg) (ra : GReg) (rb : GReg) (dbl : Bool) : Statement (.atomUmax d rd ra rb dbl) := by
  have : b2n dbl ≤ 1 := by cases dbl <;> decide
  exact of_form rfl rfl (by decide) (formA d 0x1D rd ra rb (6 + 8 * b2n dbl) (by omega))

theorem atomCas (d : Iss) (rd : GReg) (ra : GReg) (rb : GReg) (dbl : Bool) : Statement (.atomCas d rd ra rb dbl) := by
  have : b2n dbl ≤ 1 := by cases dbl <;> decide
  exact of_form rfl rfl (by decide) (formA d 0x1D rd ra rb (7 + 8 * b2n dbl) (by omega))

theorem lkpEm (d : Iss) (rd : GReg) (ra : GReg) (rb : GReg) (tbl : BitVec 4) : Statement (.lkpEm d rd ra rb tbl) := by
  have := tbl.isLt
  exact of_form rfl rfl (by decide) (formA d 0x1E rd ra rb tbl.toNat (by omega))

theorem lkpLpm (d : Iss) (rd : GReg) (ra : GReg) (rb : GReg) : Statement (.lkpLpm d rd ra rb) := by
  exact of_form rfl rfl (by decide) (formA d 0x1E rd ra rb 0x10 (by omega))

theorem lkpNh (d : Iss) (rd : GReg) (ra : GReg) (rb : GReg) : Statement (.lkpNh d rd ra rb) := by
  exact of_form rfl rfl (by decide) (formA d 0x1E rd ra rb 0x20 (by omega))

theorem lkpEcmpGroup (d : Iss) (rd : GReg) (ra : GReg) (rb : GReg) : Statement (.lkpEcmpGroup d rd ra rb) := by
  exact of_form rfl rfl (by decide) (formA d 0x1E rd ra rb 0x30 (by omega))

theorem lkpEcmpMember (d : Iss) (rd : GReg) (ra : GReg) (rb : GReg) : Statement (.lkpEcmpMember d rd ra rb) := by
  exact of_form rfl rfl (by decide) (formA d 0x1E rd ra rb 0x40 (by omega))

theorem lkpAdj (d : Iss) (rd : GReg) (ra : GReg) (rb : GReg) : Statement (.lkpAdj d rd ra rb) := by
  exact of_form rfl rfl (by decide) (formA d 0x1E rd ra rb 0x50 (by omega))

theorem aclSearch (d : Iss) (rd : GReg) (ra : GReg) (e : AclEnv) : Statement (.aclSearch d rd ra e) := by
  exact of_form rfl rfl (by decide) (formA d 0x1F rd ra 0 0 (by omega))

theorem aclSearchNext (d : Iss) (rd : GReg) (ra : GReg) (e : AclEnv) : Statement (.aclSearchNext d rd ra e) := by
  exact of_form rfl rfl (by decide) (formA d 0x1F rd ra 0 1 (by omega))

theorem echoScanRequest (d : Iss) (rd : GReg) (ra : GReg) (mem : Bool) : Statement (.echoScanRequest d rd ra mem) := by
  have : b2n mem ≤ 1 := by cases mem <;> decide
  exact of_form rfl rfl (by decide) (formA d 0x20 rd ra 0 (b2n mem) (by omega))

theorem echoStepRequest (d : Iss) (rd : GReg) (ra : GReg) (mem : Bool) : Statement (.echoStepRequest d rd ra mem) := by
  have : b2n mem ≤ 1 := by cases mem <;> decide
  exact of_form rfl rfl (by decide) (formA d 0x20 rd ra 0 (2 + b2n mem) (by omega))

theorem hrdAlloc (d : Iss) (rd : GReg) (ra : GReg) : Statement (.hrdAlloc d rd ra) := by
  exact of_form rfl rfl (by decide) (formA d 0x21 rd ra 0 0 (by omega))

theorem hrdFree (d : Iss) (rd : GReg) (ra : GReg) : Statement (.hrdFree d rd ra) := by
  exact of_form rfl rfl (by decide) (formA d 0x21 rd ra 0 1 (by omega))

theorem hrdRef (d : Iss) (rd : GReg) (ra : GReg) : Statement (.hrdRef d rd ra) := by
  exact of_form rfl rfl (by decide) (formA d 0x21 rd ra 0 2 (by omega))

theorem dmaPacketToLocal (d : Iss) (rd : GReg) (ra : GReg) : Statement (.dmaPacketToLocal d rd ra) := by
  exact of_form rfl rfl (by decide) (formA d 0x22 rd ra 0 0 (by omega))

theorem dmaTableToLocal (d : Iss) (rd : GReg) (ra : GReg) : Statement (.dmaTableToLocal d rd ra) := by
  exact of_form rfl rfl (by decide) (formA d 0x22 rd ra 0 1 (by omega))

theorem dmaLocalToTable (d : Iss) (rd : GReg) (ra : GReg) : Statement (.dmaLocalToTable d rd ra) := by
  exact of_form rfl rfl (by decide) (formA d 0x22 rd ra 0 2 (by omega))

theorem dmaCellToLocal (d : Iss) (rd : GReg) (ra : GReg) : Statement (.dmaCellToLocal d rd ra) := by
  exact of_form rfl rfl (by decide) (formA d 0x22 rd ra 0 3 (by omega))

theorem dmaLocalToCell (d : Iss) (rd : GReg) (ra : GReg) : Statement (.dmaLocalToCell d rd ra) := by
  exact of_form rfl rfl (by decide) (formA d 0x22 rd ra 0 4 (by omega))

theorem cnt (d : Iss) (ra : GReg) (rb : GReg) : Statement (.cnt d ra rb) := by
  exact of_form rfl rfl (by decide) (formA d 0x23 0 ra rb 0 (by omega))

theorem time (d : Iss) (rd : GReg) (idx : BitVec 8) : Statement (.time d rd idx) := by
  have := idx.isLt
  exact of_form rfl rfl (by decide) (formS d 0x24 rd 0 idx.toNat 0 (by omega) (by omega))

theorem waitToken (d : Iss) (rd : GReg) (ra : GReg) : Statement (.waitToken d rd ra) := by
  exact of_form rfl rfl (by decide) (formA d 0x25 rd ra 0 0 (by omega))

theorem waitAny (d : Iss) (rd : GReg) (ra : GReg) : Statement (.waitAny d rd ra) := by
  exact of_form rfl rfl (by decide) (formA d 0x25 rd ra 0 1 (by omega))

theorem waitEvent (d : Iss) (rd : GReg) (ra : GReg) : Statement (.waitEvent d rd ra) := by
  exact of_form rfl rfl (by decide) (formA d 0x25 rd ra 0 2 (by omega))

theorem test (d : Iss) (pd : PReg) (ra : GReg) (free : Bool) : Statement (.test d pd ra free) := by
  have : b2n free ≤ 1 := by cases free <;> decide
  exact of_form rfl rfl (by decide) (formC d 0x26 pd 0 ra 0 0 (b2n free) (by omega))

theorem fres (d : Iss) (ra : GReg) (idx : BitVec 8) : Statement (.fres d ra idx) := by
  have := idx.isLt
  exact of_form rfl rfl (by decide) (formS d 0x27 0 ra idx.toNat 0 (by omega) (by omega))

theorem fput (d : Iss) (ra : GReg) (idx : BitVec 8) : Statement (.fput d ra idx) := by
  have := idx.isLt
  exact of_form rfl rfl (by decide) (formS d 0x28 0 ra idx.toNat 0 (by omega) (by omega))

theorem fcmt (d : Iss) (rd : GReg) (idx : BitVec 8) : Statement (.fcmt d rd idx) := by
  have := idx.isLt
  exact of_form rfl rfl (by decide) (formS d 0x29 rd 0 idx.toNat 0 (by omega) (by omega))

theorem fget (d : Iss) (rd : GReg) (idx : BitVec 8) : Statement (.fget d rd idx) := by
  have := idx.isLt
  exact of_form rfl rfl (by decide) (formS d 0x2A rd 0 idx.toNat 0 (by omega) (by omega))

theorem flen (d : Iss) (rd : GReg) (idx : BitVec 8) : Statement (.flen d rd idx) := by
  have := idx.isLt
  exact of_form rfl rfl (by decide) (formS d 0x2B rd 0 idx.toNat 0 (by omega) (by omega))

theorem svc (d : Iss) (code : BitVec 16) : Statement (.svc d code) := by
  exact of_form rfl rfl (by decide) (formW d 0x2C 0 false code)

theorem pktReady (d : Iss) : Statement (.pktReady d) := by
  exact of_form rfl rfl (by decide) (formS d 0x2D 0 0 0 0 (by omega) (by omega))

theorem pktSend (d : Iss) : Statement (.pktSend d) := by
  exact of_form rfl rfl (by decide) (formS d 0x2D 0 0 0 1 (by omega) (by omega))

theorem pktDrop (d : Iss) : Statement (.pktDrop d) := by
  exact of_form rfl rfl (by decide) (formS d 0x2D 0 0 0 2 (by omega) (by omega))

theorem pktPunt (d : Iss) (reason : BitVec 6) : Statement (.pktPunt d reason) := by
  have := reason.isLt
  exact of_form rfl rfl (by decide) (formS d 0x2D 0 0 reason.toNat 3 (by omega) (by omega))

theorem mfs (d : Iss) (rd : GReg) (idx : BitVec 8) : Statement (.mfs d rd idx) := by
  have := idx.isLt
  exact of_form rfl rfl (by decide) (formS d 0x2E rd 0 idx.toNat 0 (by omega) (by omega))

theorem mts (d : Iss) (ra : GReg) (idx : BitVec 8) : Statement (.mts d ra idx) := by
  have := idx.isLt
  exact of_form rfl rfl (by decide) (formS d 0x2F 0 ra idx.toNat 0 (by omega) (by omega))

theorem notePop (d : Iss) (rd : GReg) : Statement (.notePop d rd) := by
  exact of_form rfl rfl (by decide) (formS d 0x2E rd 0 0x10 0 (by omega) (by omega))

theorem thrRegWrite (d : Iss) (ra : GReg) : Statement (.thrRegWrite d ra) := by
  exact of_form rfl rfl (by decide) (formS d 0x2F 0 ra 0x13 0 (by omega) (by omega))

theorem thrResume (d : Iss) (ra : GReg) : Statement (.thrResume d ra) := by
  exact of_form rfl rfl (by decide) (formS d 0x2F 0 ra 0x14 0 (by omega) (by omega))

theorem thrSkip (d : Iss) (ra : GReg) : Statement (.thrSkip d ra) := by
  exact of_form rfl rfl (by decide) (formS d 0x2F 0 ra 0x14 0 (by omega) (by omega))

theorem thrJump (d : Iss) (ra : GReg) : Statement (.thrJump d ra) := by
  exact of_form rfl rfl (by decide) (formS d 0x2F 0 ra 0x14 0 (by omega) (by omega))

theorem thrRestart (d : Iss) (ra : GReg) : Statement (.thrRestart d ra) := by
  exact of_form rfl rfl (by decide) (formS d 0x2F 0 ra 0x14 0 (by omega) (by omega))

theorem synthPost (d : Iss) (ra : GReg) : Statement (.synthPost d ra) := by
  exact of_form rfl rfl (by decide) (formS d 0x2F 0 ra 0x15 0 (by omega) (by omega))

theorem reclaim (d : Iss) (ra : GReg) : Statement (.reclaim d ra) := by
  exact of_form rfl rfl (by decide) (formS d 0x2F 0 ra 0x16 0 (by omega) (by omega))

theorem fence (d : Iss) : Statement (.fence d) := by
  exact of_form rfl rfl (by decide) (formA d 0x30 0 0 0 0 (by omega))

theorem reservedOpcode (d : Iss) (w : Word) : Statement (.reservedOpcode d w) := wordless rfl

theorem registerWrite (a : BitVec 28) (v : Word) : Statement (.registerWrite a v) := wordless rfl

theorem bar0BadAccess (a : BitVec 28) (write : Bool) : Statement (.bar0BadAccess a write) := wordless rfl

theorem lowWordRead (a : BitVec 28) : Statement (.lowWordRead a) := wordless rfl

theorem lowWordWrite (a : BitVec 28) (v : Word) : Statement (.lowWordWrite a v) := wordless rfl

theorem highWordWrite (a : BitVec 28) (v : Word) : Statement (.highWordWrite a v) := wordless rfl

theorem rcRead (a : BitVec 28) : Statement (.rcRead a) := wordless rfl

theorem reservedRangeAccess (a : BitVec 28) (w : Option Word) : Statement (.reservedRangeAccess a w) := wordless rfl

theorem earlyBlockAccess (a : BitVec 28) (w : Option Word) : Statement (.earlyBlockAccess a w) := wordless rfl

theorem busyAccess (a : BitVec 28) (w : Option Word) : Statement (.busyAccess a w) := wordless rfl

theorem flitReplay (dir : Fin 2) : Statement (.flitReplay dir) := wordless rfl

theorem passageFail (dir : Fin 2) : Statement (.passageFail dir) := wordless rfl

theorem adjFreqWrite (v : Word) : Statement (.adjFreqWrite v) := wordless rfl

theorem phaseCorrection (v : Word) : Statement (.phaseCorrection v) := wordless rfl

theorem timeSetGo (v : Word) : Statement (.timeSetGo v) := wordless rfl

theorem ppsInEdge (n : Fin 2) : Statement (.ppsInEdge n) := wordless rfl

theorem refLost (r : Fin 5) : Statement (.refLost r) := wordless rfl

theorem refQualified (r : Fin 5) : Statement (.refQualified r) := wordless rfl

theorem dpllLocked (b : Bool) : Statement (.dpllLocked b) := wordless rfl

theorem ppsOutPulse (n : Fin 2) : Statement (.ppsOutPulse n) := wordless rfl

theorem backgroundRecal (l : List LaneCal) : Statement (.backgroundRecal l) := wordless rfl

theorem cadEnWrite (v : Word) : Statement (.cadEnWrite v) := wordless rfl

theorem cadPeriodWrite (v : Word) : Statement (.cadPeriodWrite v) := wordless rfl

theorem cadPhaseWrite (v : Word) : Statement (.cadPhaseWrite v) := wordless rfl

theorem ascentStepDone (e : StepEnv) : Statement (.ascentStepDone e) := wordless rfl

theorem lull (atTick : Bool) (overtaken : Bool) : Statement (.lull atTick overtaken) := wordless rfl

theorem wake (overtaken : Bool) : Statement (.wake overtaken) := wordless rfl

theorem probe (overtaken : Bool) : Statement (.probe overtaken) := wordless rfl

theorem restart (atTick : Bool) (overtaken : Bool) : Statement (.restart atTick overtaken) := wordless rfl

theorem safehold (overtaken : Bool) : Statement (.safehold overtaken) := wordless rfl

theorem wakePin (low : Bool) : Statement (.wakePin low) := wordless rfl

theorem bypCtrlWrite (v : Word) : Statement (.bypCtrlWrite v) := wordless rfl

theorem bypSettleExpired (n : Fin 2) : Statement (.bypSettleExpired n) := wordless rfl

theorem bypRelinkTimeout (n : Fin 2) : Statement (.bypRelinkTimeout n) := wordless rfl

theorem bypRetryExpired (n : Fin 2) : Statement (.bypRetryExpired n) := wordless rfl

theorem bypHoldExpired (n : Fin 2) : Statement (.bypHoldExpired n) := wordless rfl

theorem probeStepDone (e : ProbeEnv) : Statement (.probeStepDone e) := wordless rfl

theorem kprGetInfo (m : Mbx) : Statement (.kprGetInfo m) := wordless rfl

theorem imgBegin (m : Mbx) : Statement (.imgBegin m) := wordless rfl

theorem imgData (m : Mbx) : Statement (.imgData m) := wordless rfl

theorem imgEnd (m : Mbx) : Statement (.imgEnd m) := wordless rfl

theorem arm (m : Mbx) : Statement (.arm m) := wordless rfl

theorem disarm (m : Mbx) : Statement (.disarm m) := wordless rfl

theorem confirm (m : Mbx) : Statement (.confirm m) := wordless rfl

theorem revert (m : Mbx) : Statement (.revert m) := wordless rfl

theorem settingsUnreadable (m : Mbx) : Statement (.settingsUnreadable m) := wordless rfl

theorem settingsRead (m : Mbx) : Statement (.settingsRead m) := wordless rfl

theorem settingsWrite (m : Mbx) : Statement (.settingsWrite m) := wordless rfl

theorem getChallenge (m : Mbx) : Statement (.getChallenge m) := wordless rfl

theorem lcProvision (m : Mbx) : Statement (.lcProvision m) := wordless rfl

theorem lcField (m : Mbx) : Statement (.lcField m) := wordless rfl

theorem lcReturn (m : Mbx) : Statement (.lcReturn m) := wordless rfl

theorem lcScrap (m : Mbx) : Statement (.lcScrap m) := wordless rfl

theorem keyProgram (m : Mbx) : Statement (.keyProgram m) := wordless rfl

theorem keyRevoke (m : Mbx) : Statement (.keyRevoke m) := wordless rfl

theorem debugUnlock (m : Mbx) : Statement (.debugUnlock m) := wordless rfl

theorem frameReceive (port : Fin 400) (lane : Fin 146) (f : Bytes) (e1 : PassEnv) (e2 : PassEnv) (part : Fin 32) :
    Statement (.frameReceive port lane f e1 e2 part) := wordless rfl

theorem linkRawDown (p : Fin 146) (c : LinkCause) : Statement (.linkRawDown p c) := wordless rfl

theorem linkRawUp (p : Fin 146) (cal : List LaneCal) : Statement (.linkRawUp p cal) := wordless rfl

theorem downHoldExpired (p : Fin 146) : Statement (.downHoldExpired p) := wordless rfl

theorem upHoldExpired (p : Fin 146) : Statement (.upHoldExpired p) := wordless rfl

theorem adminUpWrite (p : Fin 146) (v : Word) : Statement (.adminUpWrite p v) := wordless rfl

theorem anComplete (p : Fin 146) (ok : Bool) : Statement (.anComplete p ok) := wordless rfl

theorem portStartTimeout (p : Fin 146) : Statement (.portStartTimeout p) := wordless rfl

theorem portRetryExpired (p : Fin 146) : Statement (.portRetryExpired p) := wordless rfl

theorem partnerSignal (p : Fin 146) : Statement (.partnerSignal p) := wordless rfl

theorem pfcPauseExpired (p : Fin 146) (pri : Fin 8) : Statement (.pfcPauseExpired p pri) := wordless rfl

theorem pfcFrameSend (p : Fin 144) : Statement (.pfcFrameSend p) := wordless rfl

theorem pfcRefresh (p : Fin 144) : Statement (.pfcRefresh p) := wordless rfl

theorem pfcStorm (p : Fin 144) (t : Fin 8) : Statement (.pfcStorm p t) := wordless rfl

theorem otnLaneSignal (g : Fin 18) (l : Fin 8) (ok : Bool) : Statement (.otnLaneSignal g l ok) := wordless rfl

theorem otnAlignLock (g : Fin 18) (k : Fin 8) (p : AlignProc) : Statement (.otnAlignLock g k p) := wordless rfl

theorem otnAlignLoss (g : Fin 18) (k : Fin 8) (p : AlignProc) : Statement (.otnAlignLoss g k p) := wordless rfl

theorem defectPersistence (g : Fin 18) (k : Fin 8) (lom : Bool) : Statement (.defectPersistence g k lom) := wordless rfl

theorem ttiAccept (g : Fin 18) (i : Fin 16) (tti : Bytes) : Statement (.ttiAccept g i tti) := wordless rfl

theorem pmSecondEnd (l : List PmObs) : Statement (.pmSecondEnd l) := wordless rfl

theorem pmSelWrite (g : Fin 18) (v : Word) : Statement (.pmSelWrite g v) := wordless rfl

theorem tsiGo (v : Word) : Statement (.tsiGo v) := wordless rfl

theorem tsiGroupSwitch (g : Fin 18) (k : Fin 8) : Statement (.tsiGroupSwitch g k) := wordless rfl

theorem clsWrite (v : Word) : Statement (.clsWrite v) := wordless rfl

theorem clsRead (v : Word) : Statement (.clsRead v) := wordless rfl

theorem clsInvalidate (v : Word) : Statement (.clsInvalidate v) := wordless rfl

theorem insert (h : CmdHdr) (a : TblArgs) : Statement (.insert h a) := wordless rfl

theorem delete (h : CmdHdr) (a : TblArgs) : Statement (.delete h a) := wordless rfl

theorem modify (h : CmdHdr) (a : TblArgs) : Statement (.modify h a) := wordless rfl

theorem search (h : CmdHdr) (a : TblArgs) : Statement (.search h a) := wordless rfl

theorem next_ (h : CmdHdr) (a : TblArgs) : Statement (.next_ h a) := wordless rfl

theorem flushPort (h : CmdHdr) (a : TblArgs) : Statement (.flushPort h a) := wordless rfl

theorem nhWrite (h : CmdHdr) (a : TblArgs) : Statement (.nhWrite h a) := wordless rfl

theorem adjWrite (h : CmdHdr) (a : TblArgs) : Statement (.adjWrite h a) := wordless rfl

theorem ecmpWrite (h : CmdHdr) (a : TblArgs) : Statement (.ecmpWrite h a) := wordless rfl

theorem nhDelete (h : CmdHdr) (a : TblArgs) : Statement (.nhDelete h a) := wordless rfl

theorem adjDelete (h : CmdHdr) (a : TblArgs) : Statement (.adjDelete h a) := wordless rfl

theorem batchOpen (h : CmdHdr) (a : TblArgs) : Statement (.batchOpen h a) := wordless rfl

theorem batchSubmit (h : CmdHdr) (a : TblArgs) : Statement (.batchSubmit h a) := wordless rfl

theorem batchAbort (h : CmdHdr) (a : TblArgs) : Statement (.batchAbort h a) := wordless rfl

theorem batchCommit (id : BitVec 8) : Statement (.batchCommit id) := wordless rfl

theorem adjFreed (adj : Bool) (i : BitVec 20) : Statement (.adjFreed adj i) := wordless rfl

theorem getInfo (h : CmdHdr) : Statement (.getInfo h) := wordless rfl

theorem ping (h : CmdHdr) (args : Bytes) : Statement (.ping h args) := wordless rfl

theorem regRead (h : CmdHdr) (o : BitVec 28) (n : Nat) : Statement (.regRead h o n) := wordless rfl

theorem regWrite (h : CmdHdr) (o : BitVec 28) (ws : List Word) : Statement (.regWrite h o ws) := wordless rfl

theorem confirmUpdate (h : CmdHdr) (nvm : Option Word) : Statement (.confirmUpdate h nvm) := wordless rfl

theorem timeGet (h : CmdHdr) : Statement (.timeGet h) := wordless rfl

theorem servoCommand (h : CmdHdr) (op : BitVec 16) : Statement (.servoCommand h op) := wordless rfl

theorem aclWrite (v : Word) : Statement (.aclWrite v) := wordless rfl

theorem aclRead (v : Word) : Statement (.aclRead v) := wordless rfl

theorem aclInvalidate (v : Word) : Statement (.aclInvalidate v) := wordless rfl

theorem aclStep (v : Word) (e : AclEnv) : Statement (.aclStep v e) := wordless rfl

theorem aclReadCnt (v : Word) : Statement (.aclReadCnt v) := wordless rfl

theorem aclScrubRow (sl : Fin 8) (sees : ScrubSees) : Statement (.aclScrubRow sl sees) := wordless rfl

theorem echoScanDone (g : Fin 8) : Statement (.echoScanDone g) := wordless rfl

theorem patLoad (v : Word) : Statement (.patLoad v) := wordless rfl

theorem patSwap (v : Word) : Statement (.patSwap v) := wordless rfl

theorem galleryInput (g : Fin 8) : Statement (.galleryInput g) := wordless rfl

theorem packetDispatch (g : Fin 8) : Statement (.packetDispatch g) := wordless rfl

theorem galleryLoad (g : Fin 8) : Statement (.galleryLoad g) := wordless rfl

theorem galleryLoadTimeout (g : Fin 8) : Statement (.galleryLoadTimeout g) := wordless rfl

theorem drainEnd (g : Fin 8) : Statement (.drainEnd g) := wordless rfl

theorem leashExpired (c : ThrId) : Statement (.leashExpired c) := wordless rfl

theorem stillAir (g : Fin 8) : Statement (.stillAir g) := wordless rfl

theorem threadTimer (c : ThrId) : Statement (.threadTimer c) := wordless rfl

theorem lkpComplete (c : ThrId) (n : Fin 16) (ecc : Bool) : Statement (.lkpComplete c n ecc) := wordless rfl

theorem hrdComplete (c : ThrId) (n : Fin 16) : Statement (.hrdComplete c n) := wordless rfl

theorem poolStarved (k : Fin 10) : Statement (.poolStarved k) := wordless rfl

theorem dmaComplete (c : ThrId) (n : Fin 16) (ecc : Bool) : Statement (.dmaComplete c n ecc) := wordless rfl

theorem dbgHalt (c : ThrId) : Statement (.dbgHalt c) := wordless rfl

theorem dbgStep (c : ThrId) : Statement (.dbgStep c) := wordless rfl

theorem dbgResume (c : ThrId) : Statement (.dbgResume c) := wordless rfl

theorem dbgRestart (c : ThrId) : Statement (.dbgRestart c) := wordless rfl

theorem stackCacheRefill (k : Fin 8) (bad : Nat) : Statement (.stackCacheRefill k bad) := wordless rfl

theorem stackCacheSpill (k : Fin 8) : Statement (.stackCacheSpill k) := wordless rfl

theorem egressPortSelect (p : Fin 400) : Statement (.egressPortSelect p) := wordless rfl

theorem portFrameTransmit (p : Fin 400) (lane : Fin 146) : Statement (.portFrameTransmit p lane) := wordless rfl

theorem portHoldEnd (p : Fin 146) : Statement (.portHoldEnd p) := wordless rfl

theorem queWrite (v : Word) : Statement (.queWrite v) := wordless rfl

theorem queRead (v : Word) : Statement (.queRead v) := wordless rfl

theorem queFlush (v : Word) : Statement (.queFlush v) := wordless rfl

theorem queReadCnt (v : Word) : Statement (.queReadCnt v) := wordless rfl

theorem schWrite (v : Word) : Statement (.schWrite v) := wordless rfl

theorem schRead (v : Word) : Statement (.schRead v) := wordless rfl

theorem schRebuild (v : Word) : Statement (.schRebuild v) := wordless rfl

theorem schReadCnt (v : Word) : Statement (.schReadCnt v) := wordless rfl

theorem shpWrite (v : Word) : Statement (.shpWrite v) := wordless rfl

theorem shpRead (v : Word) : Statement (.shpRead v) := wordless rfl

theorem shpInit (v : Word) : Statement (.shpInit v) := wordless rfl

theorem gatWrite (v : Word) : Statement (.gatWrite v) := wordless rfl

theorem gatRead (v : Word) : Statement (.gatRead v) := wordless rfl

theorem gatReadOper (v : Word) : Statement (.gatReadOper v) := wordless rfl

theorem gatWriteHdr (v : Word) : Statement (.gatWriteHdr v) := wordless rfl

theorem gatReadHdr (v : Word) : Statement (.gatReadHdr v) := wordless rfl

theorem gatSwitch (v : Word) : Statement (.gatSwitch v) := wordless rfl

theorem gatCancel (v : Word) : Statement (.gatCancel v) := wordless rfl

theorem gatRestore (v : Word) : Statement (.gatRestore v) := wordless rfl

theorem gatReadCnt (v : Word) : Statement (.gatReadCnt v) := wordless rfl

theorem gatClear (v : Word) : Statement (.gatClear v) := wordless rfl

theorem gateListSwitch (k : Nat) : Statement (.gateListSwitch k) := wordless rfl

theorem gateSwitchCopyDone (k : Nat) : Statement (.gateSwitchCopyDone k) := wordless rfl

theorem sojSelWrite (v : Word) : Statement (.sojSelWrite v) := wordless rfl

theorem fabricCellReceive (i : Fin 192) (b : Bytes) (desc : Option Descr) (nak : Bool) : Statement (.fabricCellReceive i b desc nak) := wordless rfl

theorem reqSend (n : Nat) : Statement (.reqSend n) := wordless rfl

theorem grantSend (p : Fin 400) : Statement (.grantSend p) := wordless rfl

theorem dcredSend (src : BitVec 11) : Statement (.dcredSend src) := wordless rfl

theorem voqForfeit (n : Nat) : Statement (.voqForfeit n) := wordless rfl

theorem localLoopGrant (p : Fin 400) : Statement (.localLoopGrant p) := wordless rfl

theorem reseqGapTimeout (src : BitVec 11) : Statement (.reseqGapTimeout src) := wordless rfl

theorem fabricLinkFail (i : Fin 192) : Statement (.fabricLinkFail i) := wordless rfl

theorem linkRetrain (i : Fin 192) (ok : Bool) : Statement (.linkRetrain i ok) := wordless rfl

theorem svyWriteCfg (v : Word) : Statement (.svyWriteCfg v) := wordless rfl

theorem svyReadCfg (v : Word) : Statement (.svyReadCfg v) := wordless rfl

theorem svyReadHist (v : Word) : Statement (.svyReadHist v) := wordless rfl

theorem svyReadCur (v : Word) : Statement (.svyReadCur v) := wordless rfl

theorem pmcRunWrite (g : Fin 8) (v : Word) : Statement (.pmcRunWrite g v) := wordless rfl

theorem pmcRunTickDue (g : Fin 8) : Statement (.pmcRunTickDue g) := wordless rfl

theorem pmcSample (g : Fin 8) (e : Fin 8) (n : Fin 8) (t : Fin 8) (idx : BitVec 16) : Statement (.pmcSample g e n t idx) := wordless rfl

theorem pmcSfifoPop (g : Fin 8) : Statement (.pmcSfifoPop g) := wordless rfl

theorem functionLevelReset (k : ResetKind) : Statement (.functionLevelReset k) := wordless rfl

theorem bar2Read (o : BitVec 32) (n : Nat) (ecc : Bool) : Statement (.bar2Read o n ecc) := wordless rfl

theorem bar2Write (o : BitVec 32) (b : Bytes) : Statement (.bar2Write o b) := wordless rfl

theorem ringEnable (i : Fin 72) (v : Word) : Statement (.ringEnable i v) := wordless rfl

theorem ringDisable (i : Fin 72) : Statement (.ringDisable i) := wordless rfl

theorem dmaError (i : Fin 72) (addr : BitVec 64) : Statement (.dmaError i addr) := wordless rfl

theorem injectRecord (r : Fin 32) (b : Bytes) (e1 : PassEnv) (e2 : PassEnv) : Statement (.injectRecord r b e1 e2) := wordless rfl

theorem msixHoldoffExpired (v : Fin 256) : Statement (.msixHoldoffExpired v) := wordless rfl

theorem msixUnmask (u : Unmask) : Statement (.msixUnmask u) := wordless rfl

theorem evtForce (i : Fin 8) (v : Word) : Statement (.evtForce i v) := wordless rfl

theorem tmgmtEventFrame (n : Fin 2) : Statement (.tmgmtEventFrame n) := wordless rfl

theorem i2cPointerWrite (v : BitVec 8) : Statement (.i2cPointerWrite v) := wordless rfl

theorem i2cRegisterRead (n : Nat) : Statement (.i2cRegisterRead n) := wordless rfl

theorem gtestGo (v : Word) : Statement (.gtestGo v) := wordless rfl

theorem gtestStepDone (e : TestRes) : Statement (.gtestStepDone e) := wordless rfl

theorem hbmRowRemap (x : HbmFail) (ue : Option EccKind) : Statement (.hbmRowRemap x ue) := wordless rfl

theorem eccScrub (mem : BitVec 17) (addr : BitVec 26) (k : EccKind) (ue : Bool) : Statement (.eccScrub mem addr k ue) := wordless rfl

theorem bisMemSelWrite (v : Word) : Statement (.bisMemSelWrite v) := wordless rfl

theorem railUndervoltage (i : Fin 7) : Statement (.railUndervoltage i) := wordless rfl

theorem thermalReading (l : List (Fin 16 × BitVec 16)) : Statement (.thermalReading l) := wordless rfl

theorem gateIntervalEnd (k : Nat) : Statement (.gateIntervalEnd k) := wordless rfl

theorem railInRange (i : Fin 7) : Statement (.railInRange i) := wordless rfl

theorem indexShadowWrite (i : Fin 72) : Statement (.indexShadowWrite i) := wordless rfl

theorem commandUnknown (h : CmdHdr) (op : BitVec 16) : Statement (.commandUnknown h op) := wordless rfl

theorem modCmdUnknown (cmd : BitVec 4) : Statement (.modCmdUnknown cmd) := wordless rfl

theorem indCmdBadOp (b : IndBlock) (v : Word) : Statement (.indCmdBadOp b v) := wordless rfl

theorem tapInstruction (i : TapInstr) : Statement (.tapInstruction i) := wordless rfl

theorem slewComplete : Statement (.slewComplete) := wordless rfl

theorem tsfPop : Statement (.tsfPop) := wordless rfl

theorem timeReadLatch : Statement (.timeReadLatch) := wordless rfl

theorem tick : Statement (.tick) := wordless rfl

theorem porstAssert : Statement (.porstAssert) := wordless rfl

theorem porstRelease : Statement (.porstRelease) := wordless rfl

theorem lineStartTimeout : Statement (.lineStartTimeout) := wordless rfl

theorem tetherStartTimeout : Statement (.tetherStartTimeout) := wordless rfl

theorem modCmdTickDue : Statement (.modCmdTickDue) := wordless rfl

theorem lullEntryComplete : Statement (.lullEntryComplete) := wordless rfl

theorem wakeTick : Statement (.wakeTick) := wordless rfl

theorem lullExitComplete : Statement (.lullExitComplete) := wordless rfl

theorem gal0Return : Statement (.gal0Return) := wordless rfl

theorem rsqCountClear : Statement (.rsqCountClear) := wordless rfl

theorem watchdogExpiry : Statement (.watchdogExpiry) := wordless rfl

theorem lockstepMiscompare : Statement (.lockstepMiscompare) := wordless rfl

theorem memClearDone : Statement (.memClearDone) := wordless rfl

theorem confirmWindowExpired : Statement (.confirmWindowExpired) := wordless rfl

theorem warmSwapStart : Statement (.warmSwapStart) := wordless rfl

theorem warmSwapStepDone : Statement (.warmSwapStepDone) := wordless rfl

theorem swapStepTimeout : Statement (.swapStepTimeout) := wordless rfl

theorem pmBinClose : Statement (.pmBinClose) := wordless rfl

theorem tsiSwitchDone : Statement (.tsiSwitchDone) := wordless rfl

theorem puntRefill : Statement (.puntRefill) := wordless rfl

theorem batchSettle : Statement (.batchSettle) := wordless rfl

theorem singleEntryCommit : Statement (.singleEntryCommit) := wordless rfl

theorem patLoadDone : Statement (.patLoadDone) := wordless rfl

theorem patSwapDue : Statement (.patSwapDue) := wordless rfl

theorem packetAdmit : Statement (.packetAdmit) := wordless rfl

theorem schedulerSelect : Statement (.schedulerSelect) := wordless rfl

theorem egressCellArrival : Statement (.egressCellArrival) := wordless rfl

theorem queFlushDone : Statement (.queFlushDone) := wordless rfl

theorem schRebuildDone : Statement (.schRebuildDone) := wordless rfl

theorem fabricCellSend : Statement (.fabricCellSend) := wordless rfl

theorem creditRefresh : Statement (.creditRefresh) := wordless rfl

theorem spareActivate : Statement (.spareActivate) := wordless rfl

theorem dumpRecordWrite : Statement (.dumpRecordWrite) := wordless rfl

theorem d3hotEntry : Statement (.d3hotEntry) := wordless rfl

theorem i2cRecoveryRestart : Statement (.i2cRecoveryRestart) := wordless rfl

theorem i2cRecoverySafehold : Statement (.i2cRecoverySafehold) := wordless rfl

theorem gtestAuto : Statement (.gtestAuto) := wordless rfl

theorem gtestTickDue : Statement (.gtestTickDue) := wordless rfl

theorem failLogPop : Statement (.failLogPop) := wordless rfl

theorem hbmLogPop : Statement (.hbmLogPop) := wordless rfl

theorem sysclkFail : Statement (.sysclkFail) := wordless rfl

theorem tcxoFail : Statement (.tcxoFail) := wordless rfl

theorem thermTripRelease : Statement (.thermTripRelease) := wordless rfl

theorem sysclkStable : Statement (.sysclkStable) := wordless rfl

theorem returnToD0 : Statement (.returnToD0) := wordless rfl

theorem windowLow : Statement (.windowLow) := wordless rfl

end Sys2Proof.Laws.Encoding
end

