-- ==== Sys2Proof/Machine/Package.lean ====
section
/-! DEFINITION. Supplies, clocks, package and ball assignment (R521–R528, R535–R539): the figures the device fixes, and which signal each
ball carries. -/

namespace Sys2Proof.Machine

/-! ### Supply rails (R521, R523, R527) -/

/-- The seven rails, in the order of R521. -/
inductive Rail where
  | vddcFe | vddcTm | vddaSd | vddhSd | vddqHbm | vddcHbm | vddio
  deriving DecidableEq, Repr

/-- A rail's figures: nominal, recommended minimum and maximum, ripple, UV threshold, absolute minimum below ground and maximum, in mV;
power in RUN (typical, maximum), LULL and DORMANT, in tenths of a watt, and current at RUN maximum, in tenths of an ampere. -/
structure RailRow where
  nominal : Nat
  min : Nat
  max : Nat
  ripple : Nat
  uv : Nat
  absLow : Nat
  absMax : Nat
  runTyp : Nat
  runMax : Nat
  lull : Nat
  dormant : Nat
  amps : Nat
  deriving DecidableEq, Repr

/-- The row of a rail. -/
def Rail.row : Rail → RailRow
  | .vddcFe => ⟨720, 702, 738, 15, 662, 300, 850, 1650, 2000, 200, 90, 2780⟩
  | .vddcTm => ⟨720, 702, 738, 15, 662, 300, 850, 1600, 1950, 20, 70, 2710⟩
  | .vddaSd => ⟨850, 829, 871, 8, 782, 300, 1000, 700, 880, 50, 10, 1040⟩
  | .vddhSd => ⟨1150, 1121, 1179, 10, 1058, 300, 1350, 400, 520, 20, 5, 460⟩
  | .vddqHbm => ⟨750, 731, 769, 15, 690, 300, 900, 800, 950, 10, 5, 1270⟩
  | .vddcHbm => ⟨1050, 1024, 1076, 20, 966, 300, 1250, 1200, 1430, 60, 30, 1370⟩
  | .vddio => ⟨1800, 1710, 1890, 50, 1656, 300, 2100, 50, 70, 20, 10, 40⟩

/-- Every rail. -/
def Rail.all : List Rail := [.vddcFe, .vddcTm, .vddaSd, .vddhSd, .vddqHbm, .vddcHbm, .vddio]

/-- A rail at `mv` is in range while it is above its UV threshold (R521). -/
def Rail.inRange (r : Rail) (mv : Nat) : Bool := decide (r.row.uv < mv)

/-! ### Clocks (R528) -/

/-- An input clock: kHz and the deviation it may have, in parts per billion. -/
structure ClockRow where
  khz : Nat
  ppb : Nat
  deriving DecidableEq, Repr

/-- REFCLK_LG and REFCLK_FAB. -/
def clkRef : ClockRow := ⟨156250, 100000⟩

/-- PCIE_REFCLK. -/
def clkPcie : ClockRow := ⟨100000, 300000⟩

/-- SYSCLK. -/
def clkSys : ClockRow := ⟨50000, 50000⟩

/-- TCXO_IN. -/
def clkTcxo : ClockRow := ⟨25000, 10⟩

/-- CLK10M_IN, lost beyond its deviation from TCXO_IN (R43). -/
def clk10m : ClockRow := ⟨10000, 20000⟩

/-- The REFCLK_LG input that serves line group `g`, and the REFCLK_FAB input of fabric link `f`. -/
def refclkLg (g : Nat) : Nat := g / 2

@[inherit_doc refclkLg] def refclkFab (f : Nat) : Nat := f / 32

/-! ### HBM refresh (R539) -/

/-- The controller of stack `h` refreshes at the doubled rate: its sensor reads above 85 °C. -/
def State.refreshDoubled (s : State) (h : Nat) : Bool :=
  let v := s.rd (F.MOD_THERM_TEMP_TEMP.at (8 + h))
  decide (680 < v) && decide (v < 0x8000)

/-! ### Balls (R535–R537) -/

/-- The four signals of a lane. -/
inductive LaneSig where
  | txp | txn | rxp | rxn
  deriving DecidableEq, Repr

/-- The low-speed signals, in the order of row 86 and then of row 88. -/
inductive LowPin where
  | porstN | wakeN | faultN | thermTripN | byp0En | byp1En | bypHb | sysclk | tcxoIn | ppsIn0 | ppsIn1 | ppsOut0 | ppsOut1
  | clk10mIn | clk10mOut
  | xspiClk | xspiCsN | xspiDqs | xspiDq (n : Fin 8) | xspiResetN | i2cScl | i2cSda | tck | tms | tdi | tdo | trstN
  deriving DecidableEq, Repr

/-- What a ball carries; `p` is the positive signal of a pair. -/
inductive Ball where
  | gnd | rail (r : Rail) | line (n : Nat) (x : LaneSig) | fabric (n : Nat) (x : LaneSig) | tether (n : Nat) (x : LaneSig)
  | pcie (n : Nat) (x : LaneSig) | refLg (m : Nat) (p : Bool) | refFab (m : Nat) (p : Bool) | refPcie (p : Bool)
  | synce (n : Nat) (p : Bool) | low (x : LowPin) | sense (r : Rail) (p : Bool)
  deriving DecidableEq, Repr

/-- The letters of rows. -/
def rowLetters : List String := ["A", "B", "C", "D", "E", "F", "G", "H", "J", "K", "L", "M", "N", "P", "T", "U", "V", "W", "Y"]

/-- The name of row `i`, 1–88. -/
def rowName (i : Nat) : String :=
  if i ≤ 19 then rowLetters.getD (i - 1) ""
  else ["A", "B", "C", "D"].getD ((i - 20) / 19) "" ++ rowLetters.getD ((i - 20) % 19) ""

/-- The name of ball (i, j). -/
def ballName (i j : Nat) : String := rowName i ++ toString j

/-- A ball of a lane's 3 × 4 cell, `r` rows and `c` columns from its top left. -/
def laneBall (mk : LaneSig → Ball) (r c : Nat) : Ball :=
  match r, c with
  | 0, 1 => mk .txp
  | 0, 2 => mk .txn
  | 2, 1 => mk .rxp
  | 2, 2 => mk .rxn
  | _, _ => .gnd

/-- A pair in the second and third columns of a cell's top row. -/
def pairBall (mk : Bool → Ball) (r c : Nat) : Ball :=
  match r, c with
  | 0, 1 => mk true
  | 0, 2 => mk false
  | _, _ => .gnd

/-- Ground and supply in a checkerboard. -/
def supplyBall (i j : Nat) (r : Rail) : Ball := if (i + j) % 2 = 0 then .gnd else .rail r

/-- Row 86, from column 1 in odd columns. -/
def lowRow86 : List LowPin :=
  [.porstN, .wakeN, .faultN, .thermTripN, .byp0En, .byp1En, .bypHb, .sysclk, .tcxoIn, .ppsIn0, .ppsIn1, .ppsOut0, .ppsOut1, .clk10mIn,
    .clk10mOut]

/-- Row 88, likewise. -/
def lowRow88 : List LowPin :=
  [.xspiClk, .xspiCsN, .xspiDqs, .xspiDq 0, .xspiDq 1, .xspiDq 2, .xspiDq 3, .xspiDq 4, .xspiDq 5, .xspiDq 6, .xspiDq 7, .xspiResetN,
    .i2cScl, .i2cSda, .tck, .tms, .tdi, .tdo, .trstN]

/-- A low-speed row. -/
def lowBall (l : List LowPin) (j : Nat) : Ball :=
  if j % 2 = 0 then .gnd else match l[(j - 1) / 2]? with | some x => .low x | none => .gnd

/-- West of the core, columns 1–32, rows 1–84. -/
def ballWest (i j : Nat) : Ball :=
  let c := (j - 1) % 4
  let v := (j - 1) / 4
  if i ≤ 54 then laneBall (.line (8 * ((i - 1) / 3) + v)) ((i - 1) % 3) c
  else if i = 55 then
    if 27 ≤ j then .gnd else
    match (j - 1) % 3 with | 0 => .refLg ((j - 1) / 3) true | 1 => .refLg ((j - 1) / 3) false | _ => .gnd
  else if 57 ≤ i ∧ i ≤ 59 then
    if v ≤ 1 then laneBall (.tether v) (i - 57) c
    else if v = 2 then pairBall .refPcie (i - 57) c
    else if v ≤ 6 then pairBall (.synce (v - 3)) (i - 57) c else .gnd
  else if 60 ≤ i ∧ i ≤ 62 then laneBall (.pcie v) (i - 60) c
  else if i ≤ 62 then .gnd
  else supplyBall i j (if j ≤ 20 then .vddaSd else .vddhSd)

/-- East of the core, columns 57–88, rows 1–84. -/
def ballEast (i j : Nat) : Ball :=
  let c := (j - 57) % 4
  let v := (j - 57) / 4
  if i ≤ 72 then laneBall (.fabric (8 * ((i - 1) / 3) + v)) ((i - 1) % 3) c
  else if i = 73 then (if v ≤ 5 then pairBall (.refFab v) 0 c else .gnd)
  else if i = 74 then .gnd
  else supplyBall i j (if j ≤ 76 then .vddaSd else .vddhSd)

/-- What ball (i, j) carries, 1 ≤ i, j ≤ 88. -/
def ballOf (i j : Nat) : Ball :=
  if i = 30 ∧ j = 39 then .sense .vddcFe true
  else if i = 30 ∧ j = 40 then .sense .vddcFe false
  else if i = 30 ∧ j = 51 then .sense .vddcTm true
  else if i = 30 ∧ j = 52 then .sense .vddcTm false
  else if 85 ≤ i then
    if 45 ≤ j then .gnd
    else if i = 86 then lowBall lowRow86 j
    else if i = 88 then lowBall lowRow88 j
    else .rail .vddio
  else if j ≤ 32 then ballWest i j
  else if 57 ≤ j then ballEast i j
  else if i ≤ 60 then supplyBall i j (if j ≤ 44 then .vddcFe else .vddcTm)
  else supplyBall i j (if j ≤ 44 then .vddcHbm else .vddqHbm)

end Sys2Proof.Machine
end

