-- ==== Sys2Proof/Tests/Slice0.lean ====
section
/-! SUPPORT. Tests of the model: ill-formed terms are refused, words written out from the encoding tables decode, a few single
steps, and for every statement with hypotheses a state that meets them. -/

namespace Sys2Proof.Tests

open Sys2Proof.Machine

set_option Elab.async false

/-! ### Helpers -/

/-- Thread 1 of engine 0 of gallery 0. -/
def tC : ThrId := ⟨0, 0, 1⟩

/-- An unguarded instruction of that thread. -/
def tD : Iss := ⟨tC, false, 0, false⟩

/-- Its environment. -/
def tV : EngEnv := ⟨tC, false, false, AclEnv.clean⟩

/-- RUN with the datapath ready. -/
def tRun : State := (State.reset.wr F.MOD_STATUS_MODE mRUN).wr F.MOD_STATUS_DP_READY 1

/-- The same with gallery 0 in service, as the two words this takes. -/
def tSvc : State :=
  { State.reset with regs := [(F.MOD_STATUS_MODE.addr, BitVec.ofNat 32 (mRUN * 2 ^ F.MOD_STATUS_MODE.lo + 2 ^ F.MOD_STATUS_DP_READY.lo)),
    ((F.GAL_STATUS_STATE.at 0).addr, BitVec.ofNat 32 (gSERVICE * 2 ^ F.GAL_STATUS_STATE.lo))] }

/-- Gallery 0 in service, word `w` at index 0 of its code, thread `j` (8e + t) being `x`. -/
def tGal (w j : Nat) (x : Thr) : State :=
  tSvc.galUpd 0 (fun y => { y with
    codeLen := 1, code := mset (fun _ => 0) [] 0 w, thr := mset (fun _ => {}) [] j x })

/-- A worker that is ready, with registers `r`. -/
def tThr (r : SMap Nat) : Thr := { role := 1, run := .ready, regs := r }

/-- The word of `i` at the thread of `tC`. -/
def tEng (i : Instr) (x : Thr) : State := tGal ((engWord i).getD 0) 1 x

/-- The word of `i` at the supervisor, thread 0. -/
def tSup (i : Instr) (x : Thr) : State := tGal ((engWord i).getD 0) 0 { x with role := 3 }

/-! ### Ill-formed terms -/

/-- A table command's arguments, with `k` key bytes and content `c`. -/
def tArgs (table k : Nat) (c : Bytes) : TblArgs :=
  { table := BitVec.ofNat 8 table, static := false, clearHit := false, allOrNone := false, batch := 0xFF, slice := 0, index := 0,
    tick := 0, key := zeros k, content := c }

/-- A command header with ARG_LEN `n`. -/
def tHdr (n : Nat) : CmdHdr := { seq := 0, argLen := n, bufLen := 0, bufAddr := 0, tether := none }

theorem test_illformed_engine :
    (Instr.shi tD 1 2 3 5).wf = true ∧ (Instr.shi tD 1 2 4 5).wf = false
    ∧ (Instr.ext tD 1 2 60 3).wf = true ∧ (Instr.ext tD 1 2 60 4).wf = false
    ∧ (Instr.exts tD 1 2 0 63).wf = true ∧ (Instr.exts tD 1 2 1 63).wf = false
    ∧ (Instr.ins tD 1 2 32 31).wf = true ∧ (Instr.ins tD 1 2 32 32).wf = false
    ∧ (Instr.reservedOpcode tD 0x0C400000).wf = true ∧ (Instr.reservedOpcode tD 0).wf = false := by decide +kernel

/-- GLB_PART is one word, MOD_WAKE_TICK a pair, MOD_LULL_DROPS at 0x60034 read-to-clear. -/
theorem test_illformed_access :
    (Instr.registerWrite R.GLB_PART.addr 0).wf = true ∧ (Instr.registerWrite 2 0).wf = false
    ∧ (Instr.registerWrite R.MOD_WAKE_TICK.addr 0).wf = false
    ∧ (Instr.lowWordRead R.MOD_WAKE_TICK.addr).wf = true ∧ (Instr.lowWordRead (R.MOD_WAKE_TICK.addr + 4)).wf = false
    ∧ (Instr.lowWordWrite R.MOD_WAKE_TICK.addr 0).wf = true ∧ (Instr.lowWordWrite R.GLB_PART.addr 0).wf = false
    ∧ (Instr.highWordWrite (R.MOD_WAKE_TICK.addr + 4) 0).wf = true ∧ (Instr.highWordWrite R.MOD_WAKE_TICK.addr 0).wf = false
    ∧ (Instr.rcRead 0x60034).wf = true ∧ (Instr.rcRead R.GLB_PART.addr).wf = false
    ∧ (Instr.reservedRangeAccess 0x0FFFFFFC none).wf = true ∧ (Instr.reservedRangeAccess R.GLB_PART.addr none).wf = false
    ∧ (Instr.earlyBlockAccess (R.LPT_CTRL.at 0).addr none).wf = true ∧ (Instr.earlyBlockAccess R.GLB_PART.addr none).wf = false
    ∧ (Instr.busyAccess (F.GAL_STATUS_STATE.at 0).addr none).wf = true ∧ (Instr.busyAccess 0x0FFFFFFC none).wf = false := by decide +kernel

theorem test_illformed_commands :
    (Instr.modCmdUnknown 0).wf = true ∧ (Instr.modCmdUnknown 5).wf = false
    ∧ (Instr.indCmdBadOp .que 7).wf = true ∧ (Instr.indCmdBadOp .que 4).wf = false ∧ (Instr.indCmdBadOp .shp 0).wf = false
    ∧ (Instr.insert (tHdr 40) (tArgs 0 24 [])).wf = true ∧ (Instr.insert (tHdr 40) (tArgs 0 23 [])).wf = false
    ∧ (Instr.delete (tHdr (2 ^ 32)) (tArgs 0 24 [])).wf = false ∧ (Instr.modify (tHdr 40) (tArgs 0 24 (zeros 73))).wf = false
    ∧ (Instr.search (tHdr 40) (tArgs 0 25 [])).wf = false
    ∧ (Instr.thermalReading [(0, 1), (1, 1)]).wf = true ∧ (Instr.thermalReading [(0, 1), (0, 2)]).wf = false := by decide +kernel


/-! ### Words written out from the encoding tables (R301–R304, R289–R297): guard, opcode, then the fields of the format -/

theorem test_decode_alu :
    decodeEngine tV 0b0_000_000000_00001_00010_00011_0000001 = some (.sub tD 1 2 3)
    ∧ decodeEngine tV 0b0_000_000000_11111_00010_00011_0011001 = some (.csum16 tD 31 2 3)
    ∧ decodeEngine tV 0b0_000_000000_00001_00010_00000_0010001 = some (.clz tD 1 2)
    ∧ decodeEngine tV 0b0_000_000000_00001_00010_00001_0010001 = none
    ∧ decodeEngine tV 0b0_000_000000_00001_00010_00011_0011010 = none
    ∧ decodeEngine tV 0b1_111_000001_00001_00010_100000000001 = some (.addi ⟨tC, true, 7, false⟩ 1 2 0x801)
    ∧ decodeEngine tV 0b0_000_000101_00001_00010_010_000_111111 = some (.shi tD 1 2 2 63)
    ∧ decodeEngine tV 0b0_000_000101_00001_00010_100_000_000001 = none
    ∧ decodeEngine tV 0b0_000_000110_00001_1_1000000000000001 = some (.movi tD 1 true 0x8001)
    ∧ decodeEngine tV 0b0_000_000111_11110_0_0000000000000001 = some (.movk1 tD 30 1)
    ∧ decodeEngine tV 0b0_000_000111_11110_1_0000000000000001 = none := by decide +kernel

theorem test_decode_predicates_and_branches :
    decodeEngine tV 0b0_000_001010_101_10_00010_00011_110_0000 = some (.cmp tD 5 2 2 3 6)
    ∧ decodeEngine tV 0b0_000_001011_001_00_01000_000_100000001 = some (.cmpi tD 1 0 8 0 0x101)
    ∧ decodeEngine tV 0b0_000_001100_111_110_101_011_0000000000 = some (.pset tD 7 6 5 3)
    ∧ decodeEngine tV 0b0_001_001101_1111111111111111111110 = some (.br ⟨tC, false, 1, false⟩ 0x3FFFFE)
    ∧ decodeEngine tV 0b0_000_001110_0000000000000000000101 = some (.call tD 5)
    ∧ decodeEngine tV 0b0_000_001111_00000_11111_00000_0000000 = some (.jr tD 31) := by decide +kernel

theorem test_decode_fields_window_memory :
    decodeEngine tV 0b0_000_010000_01000_00111_111000_000111 = some (.ext tD 8 7 56 7)
    ∧ decodeEngine tV 0b0_000_010010_01000_00111_111000_001000 = none
    ∧ decodeEngine tV 0b0_000_010011_01000_00111_00110_0000001 = some (.extv tD 8 7 6 true)
    ∧ decodeEngine tV 0b0_000_010100_00100_00000_01_0000010010 = some (.hwl tD 4 0 1 18)
    ∧ decodeEngine tV 0b0_000_010110_00100_00011_111111111100 = some (.hwadj tD 4 3 0xFFC)
    ∧ decodeEngine tV 0b0_000_010111_00110_00000_00000000_0000 = some (.mdl tD 6 0)
    ∧ decodeEngine tV 0b0_000_011000_00000_01001_00001010_0000 = some (.mds tD 9 0x0A)
    ∧ decodeEngine tV 0b0_000_011010_00100_11110_11_0000000001 = some (.st tD 4 30 3 1 false)
    ∧ decodeEngine tV 0b0_000_011011_00100_11110_00001_0000010 = some (.ldx tD 4 30 1 2)
    ∧ decodeEngine tV 0b0_000_011101_00100_11110_00001_0001111 = some (.atomCas tD 4 30 1 true)
    ∧ decodeEngine tV 0b0_000_011101_00100_11110_00001_0010000 = none
    ∧ decodeEngine tV 0b0_000_110000_00000_00000_00000_0000000 = some (.fence tD) := by decide +kernel

theorem test_decode_requests :
    decodeEngine tV 0b0_000_011110_00101_11110_11101_000_0101 = some (.lkpEm tD 5 30 29 5)
    ∧ decodeEngine tV 0b0_000_011110_00101_11110_11101_101_0000 = some (.lkpAdj tD 5 30 29)
    ∧ decodeEngine tV 0b0_000_011110_00101_11110_11101_110_0000 = none
    ∧ decodeEngine tV 0b0_000_011111_00101_11110_00000_0000001 = some (.aclSearchNext tD 5 30 AclEnv.clean)
    ∧ decodeEngine tV 0b0_000_100000_00101_11110_00000_0000011 = some (.echoStepRequest tD 5 30 true)
    ∧ decodeEngine tV 0b0_000_100001_00101_11110_00000_0000010 = some (.hrdRef tD 5 30)
    ∧ decodeEngine tV 0b0_000_100010_00101_11110_00000_0000100 = some (.dmaLocalToCell tD 5 30)
    ∧ decodeEngine tV 0b0_000_100011_00000_00100_00110_0000000 = some (.cnt tD 4 6)
    ∧ decodeEngine tV 0b0_000_100100_00101_00000_00000011_0000 = some (.time tD 5 3)
    ∧ decodeEngine tV 0b0_000_100101_00111_00101_00000_0000000 = some (.waitToken tD 7 5)
    ∧ decodeEngine tV 0b0_000_100110_001_00_00101_00000_000_0001 = some (.test tD 1 5 true) := by decide +kernel

theorem test_decode_flues_packets_specials :
    decodeEngine tV 0b0_000_100111_00000_00101_01111111_0000 = some (.fres tD 5 127)
    ∧ decodeEngine tV 0b0_000_101010_00101_00000_00000010_0000 = some (.fget tD 5 2)
    ∧ decodeEngine tV 0b0_000_101100_00000_0_0000000000010100 = some (.svc tD 20)
    ∧ decodeEngine tV 0b0_000_101101_00000_00000_00010100_0011 = some (.pktPunt tD 20)
    ∧ decodeEngine tV 0b0_000_101101_00000_00000_00000000_0001 = some (.pktSend tD)
    ∧ decodeEngine tV 0b0_000_101110_00101_00000_00000100_0000 = some (.mfs tD 5 4)
    ∧ decodeEngine tV 0b0_000_101111_00000_00101_00000101_0000 = some (.mts tD 5 5)
    ∧ decodeEngine tV 0b0_000_111111_00000_00000_00000_0000000 = none := by decide +kernel

/-! ### Worked examples of the manual -/

/-- R516's three registers: LPT_CNT index 2 of LP40, GAL_ISSUE of GAL3.E5, SCH_EQ_DEPTH of LP12, TC7; page 146 of LPT is
reserved. -/
theorem test_register_addresses :
    (regRow 0x128110).map (fun x => (x.1.name, x.2)) = some ("LPT_CNT", [40, 2])
    ∧ (regRow 0x880128).map (fun x => (x.1.name, x.2)) = some ("GAL_ISSUE", [3, 5])
    ∧ (regRow 0x100819C).map (fun x => x.1.name) = some "SCH_EQ_DEPTH" ∧ regRow 0x192000 = none := by decide +kernel

/-- The residence time of R56's example: CNS 2⁴⁸ − 656, CFRAC 3 to CNS 1,000, CFRAC 20 is 1,656 ns and 17/32. -/
theorem test_residence_time :
    compactDiff (1000 * 32 + 20) ((2 ^ 48 - 656) * 32 + 3) = 1656 * 32 + 17
    ∧ compactDiff (1000 * 32 + 20) ((2 ^ 48 - 656) * 32 + 3) * 2048 = 108562432 := by decide +kernel

/-- The packet of R416's example takes 6 cells, from SOP to EOP. -/
theorem test_packet_cells :
    cellsOf 1496 = 6
    ∧ (packetCells ⟨{ bytes := zeros 1496 }, 6, 0, 0, 0, false, none, 0⟩ 5 9 12).map (fun c => (c.sop, c.eop)) =
      [(true, false), (false, false), (false, false), (false, false), (false, false), (false, true)] := by decide +kernel

/-- The instance of R495's example: bit 5 takes the spare column, row 400 a spare row. -/
theorem test_repair_plan : repairPlan [(17, 5), (90, 5), (311, 5), (400, 12), (400, 40)] 2 1 = some ([400], [5]) := by decide +kernel

/-- The bins of R440's example: 51,200 units fall in bin 11 with BASE_E 5 and in bin 4 with BASE_E 12. -/
theorem test_histogram_bin : histBin 51200 5 = 11 ∧ histBin 51200 12 = 4 ∧ histBin 31 5 = 0 := by decide +kernel

/-- The pause of R153's example: 0xFFFF quanta at 400 Gb/s last 83,884.8 ns. -/
theorem test_pause_quanta : quanta 400 0xFFFF = 838848 * 65536 / 10 := by decide +kernel

/-- The tags of R370's example. -/
theorem test_wfq_delta : schDelta 1000 3 = 21845333 ∧ schDelta 1000 5 = 13107200 ∧ schDelta 1000 8 = 8192000 := by decide +kernel

/-- The search of R256's example: entries 40 and 41 of PRIO 800 govern over entry 100 of PRIO 500, and STEP goes on in that
order. -/
theorem test_acl_example :
    let e (p : Nat) : AclEnt := { prio := p, valid := true }
    let s : State := { State.reset with acl := { State.reset.acl with ents := [(40, e 800), (41, e 800), (100, e 500)] } }
    let hit (r : State × AclRes) : Option (Nat × Bool) := r.2.hit.map (fun x => (x.1, r.2.multi))
    hit (s.aclSearch 0 7 AclEnv.clean) = some (40, true)
    ∧ (hit (s.aclStep 0 7 (some (40, 800)) AclEnv.clean)).map (·.1) = some 41
    ∧ (hit (s.aclStep 0 7 (some (41, 800)) AclEnv.clean)).map (·.1) = some 100
    ∧ hit (s.aclStep 0 7 (some (100, 500)) AclEnv.clean) = none := by decide +kernel

/-- The shaper of R389's example: after 31 packets of 1,000 bytes Bc is −640 and Bp −280 bytes, 23 ticks later −496.25 and
7.5. -/
theorem test_shaper_example :
    let x : Shp := { cir := 5000, pir := 10000, cbs := 240, pbs := 480, en := true, bc := 15360 * 800000, bp := 30720 * 800000 }
    let k := shpKey 2 512
    let s := foldS (List.range 31) (fun _ s => s.shpCharge k 1000) (State.reset.shpPut k x)
    let y := s.shpNow (s.shpI k)
    let z := s.shpTo (s.shpI k) (s.shp.refills + 23)
    y.bc = -640 * 800000 ∧ y.bp = -280 * 800000 ∧ z.bc * 4 = -1985 * 800000 ∧ z.bp * 2 = 15 * 800000 := by decide +kernel

/-! ### Every hypothesis of a statement is met: engine instructions -/

/-- ALU, immediate and predicate instructions. -/
def tInstrs1 : List Instr :=
  [.add tD 1 2 3, .sub tD 1 2 3, .and_ tD 1 2 3, .or_ tD 1 2 3, .xor_ tD 1 2 3, .andn tD 1 2 3, .sll tD 1 2 3, .srl tD 1 2 3,
    .sra tD 1 2 3, .rol tD 1 2 3, .ror tD 1 2 3, .mul tD 1 2 3, .mulhu tD 1 2 3, .min_ tD 1 2 3, .max_ tD 1 2 3, .minu tD 1 2 3,
    .maxu tD 1 2 3, .clz tD 1 2, .ctz tD 1 2, .popc tD 1 2, .bswap64 tD 1 2, .bswap32 tD 1 2, .bswap16 tD 1 2, .add32 tD 1 2 3,
    .sub32 tD 1 2 3, .csum16 tD 1 2 3, .addi tD 1 2 3, .andi tD 1 2 3, .ori tD 1 2 3, .xori tD 1 2 3, .shi tD 1 2 3 63,
    .movi tD 1 true 3, .movk1 tD 1 3, .movk2 tD 1 3, .movk3 tD 1 3, .cmp tD 1 3 2 3 7, .cmpi tD 1 3 2 7 3, .pset tD 1 2 3 7]

/-- Branches, bit fields, header window, memory, lookups. -/
def tInstrs2 : List Instr :=
  [.br tD 1, .call tD 1, .jr tD 1, .ext tD 1 2 32 31, .exts tD 1 2 32 31, .ins tD 1 2 32 31, .extv tD 1 2 3 true,
    .hwl tD 1 2 3 4, .hws tD 1 2 3 4, .hwadj tD 1 2 3, .mdl tD 1 0, .mds tD 1 4, .ld tD 1 2 3 4, .st tD 1 2 3 4 false,
    .ldx tD 1 2 3 3, .stx tD 1 2 3 3 false, .fence tD, .atomAdd tD 1 2 3 true, .atomAnd tD 1 2 3 true, .atomOr tD 1 2 3 true,
    .atomXor tD 1 2 3 true, .atomSwap tD 1 2 3 true, .atomUmin tD 1 2 3 true, .atomUmax tD 1 2 3 true, .atomCas tD 1 2 3 true,
    .lkpEm tD 1 2 3 15, .lkpLpm tD 1 2 3, .lkpNh tD 1 2 3, .lkpEcmpGroup tD 1 2 3, .lkpEcmpMember tD 1 2 3, .lkpAdj tD 1 2 3,
    .aclSearch tD 1 2 AclEnv.clean, .aclSearchNext tD 1 2 AclEnv.clean]

/-- Requests, waits, flues, packets, special registers. -/
def tInstrs3 : List Instr :=
  [.echoScanRequest tD 1 2 true, .echoStepRequest tD 1 2 true, .hrdAlloc tD 1 2, .hrdFree tD 1 2, .hrdRef tD 1 2,
    .dmaPacketToLocal tD 1 2, .dmaTableToLocal tD 1 2, .dmaLocalToTable tD 1 2, .dmaCellToLocal tD 1 2, .dmaLocalToCell tD 1 2,
    .cnt tD 1 2, .time tD 1 4, .time tD 1 5, .waitToken tD 1 2, .waitAny tD 1 2, .waitEvent tD 1 2, .test tD 1 2 true,
    .fres tD 1 127, .fput tD 1 127, .fcmt tD 1 127, .fget tD 1 127, .flen tD 1 127, .svc tD 20, .pktReady tD, .pktSend tD,
    .pktDrop tD, .pktPunt tD 16, .mfs tD 1 7, .mts tD 1 5, .mts tD 1 0x16, .notePop tD 1, .mdl tD 1 0x9B]

/-- A plain thread issues each of them. -/
theorem test_every_instruction_issues :
    (∀ i ∈ tInstrs1, issues (tEng i (tThr [])) tD i) ∧ (∀ i ∈ tInstrs2, issues (tEng i (tThr [])) tD i)
    ∧ (∀ i ∈ tInstrs3, issues (tEng i (tThr [])) tD i) := by unfold issues; decide +kernel

/-- The supervisor's commands issue on thread 0. -/
theorem test_supervisor_instructions_issue :
    let d : Iss := ⟨⟨0, 0, 0⟩, false, 0, false⟩
    ∀ i ∈ [Instr.thrResume d 1, .thrSkip d 1, .thrJump d 1, .thrRestart d 1, .thrRegWrite d 1, .reclaim d 1, .synthPost d 1,
      .notePop d 1, .mfs d 1 0x11, .mts d 1 0x12], issues (tSup i (tThr [])) d i := by unfold issues; decide +kernel

/-- A field of the state a command answers. -/
def tGet {α : Type} (o : Out1) (f : State → α) : Option α := match o with | .next t => some (f t) | _ => none

/-- The result of an instruction of `tD` with registers `r` in G1, with its thread's next index. -/
def tRes (i : Instr) (r : SMap Nat) : Option (Nat × Nat) :=
  tGet (exec i (tEng i (tThr r))) (fun t => (t.greg tD 1, (t.thrOf tD).pc))

/-- Wraps, signs and carries of the ALU, and the EXT of R305's program. -/
theorem test_alu_steps :
    tRes (.add tD 1 2 3) [(2, 2 ^ 64 - 1), (3, 2)] = some (1, 1)
    ∧ tRes (.sra tD 1 2 3) [(2, 2 ^ 63), (3, 64 + 63)] = some (2 ^ 64 - 1, 1)
    ∧ tRes (.mulhu tD 1 2 3) [(2, 2 ^ 63), (3, 6)] = some (3, 1)
    ∧ tRes (.min_ tD 1 2 3) [(2, 2 ^ 64 - 1), (3, 1)] = some (2 ^ 64 - 1, 1)
    ∧ tRes (.csum16 tD 1 2 3) [(2, 0xFFFF), (3, 2)] = some (2, 1)
    ∧ tRes (.sub32 tD 1 2 3) [(2, 1), (3, 2)] = some (0xFFFFFFFF, 1)
    ∧ tRes (.bswap32 tD 1 2) [(2, 0xAA11223344)] = some (0x44332211, 1)
    ∧ tRes (.addi tD 1 2 0xFFF) [(2, 5)] = some (4, 1)
    ∧ tRes (.movk1 tD 1 1) [(1, 0x1FFFF5678)] = some (0x100015678, 1)
    ∧ tRes (.ext tD 1 7 56 7) [(7, 2 ^ 56)] = some (1, 1)
    ∧ tRes (.exts tD 1 7 60 3) [(7, 2 ^ 63)] = some (2 ^ 64 - 8, 1)
    ∧ tRes (.ins tD 1 7 8 7) [(1, 0xFFFFFF), (7, 0x1AB)] = some (0xFFABFF, 1) := by decide +kernel

/-- A branch to itself minus one wraps, and a guard that is false only advances. -/
theorem test_control_steps :
    tRes (.br tD 0x3FFFFF) [] = some (0, 0xFFFF) ∧ tRes (.jr tD 2) [(2, 0x12345)] = some (0, 0x2345)
    ∧ (let i : Instr := .addi ⟨tC, true, 0, false⟩ 1 1 1;
      tGet (exec i (tEng i (tThr [(1, 7)]))) (fun t => (t.greg tD 1, (t.thrOf tD).pc)) = some (7, 1)) := by decide +kernel

theorem test_wit_BitFields :
    (32 : BitVec 6).toNat + (31 : BitVec 6).toNat ≤ 63 ∧ 63 < (33 : BitVec 6).toNat + (31 : BitVec 6).toNat
    ∧ (let s := tEng (.extv tD 1 2 3 true) (tThr [(3, 31 * 256 + 33)]); 63 < s.greg tD 3 % 64 + s.greg tD 3 / 256 % 64)
    ∧ (let i := Instr.ext tD 1 2 33 31; issues (tEng i (tThr [])) tD i) := by unfold issues; decide +kernel

theorem test_wit_FalseGuards :
    (let i : Instr := .add ⟨tC, true, 0, false⟩ 1 2 3
      let s := tEng i (tThr []);
      i.iss = some ⟨tC, true, 0, false⟩ ∧ s.canIssue 0 1 = true ∧ (s.thrOf tD).pc < (s.galI 0).codeLen
      ∧ engWord i = some (mget (fun _ => 0) (s.galI 0).code (s.thrOf tD).pc) ∧ s.pd 0 1 0 = true)
    ∧ State.reset.canIssue 0 1 = false
    ∧ (let s := tEng (.fence tD) (tThr []);
      (s.thrOf tD).pc < (s.galI 0).codeLen
      ∧ engWord (.add tD 1 2 3) ≠ some (mget (fun _ => 0) (s.galI 0).code (s.thrOf tD).pc)) := by decide +kernel

/-- Accesses of each size without a fault, at the ends of the thread alias, gallery memory, SH and GSH. -/
theorem test_wit_Memory :
    memFault 1 0x10FF8 8 false = 0 ∧ memFault 1 0xFFFF 1 false = 0 ∧ memFault 1 0x2FFFFC 4 false = 0 ∧ memFault 1 0x100002 2 false = 0
    ∧ memFault 1 0x100000 4 true = 0 ∧ memFault 1 0x4001F8 8 true = 0 ∧ memFault 1 0x401038 8 true = 0
    ∧ (let i := Instr.ld tD 1 2 3 1; let s := tEng i (tThr [(2, 0x10000)]);
      issues s tD i ∧ memFault 1 (((s.greg tD 2 : Int) + (1 : BitVec 10).toInt * 8) % 2 ^ 64).toNat 8 false = 0)
    ∧ (let i := Instr.atomCas tD 1 2 3 true; let s := tEng i (tThr [(2, 0x400000)]);
      issues s tD i ∧ memFault 1 (s.greg tD 2) 8 true = 0) := by unfold issues; decide +kernel

/-- A store of a byte at the end of the scratchpad, and a CAS whose old value equals rd. -/
theorem test_memory_steps :
    (let i := Instr.st tD 1 2 0 0x3FF false
      let s := tEng i (tThr [(1, 0x1AB), (2, 0x8000)]);
      tGet (exec i s) (fun t => (t.memRd 0 1 0x7FFF 1, t.memRd 0 1 0x7FFE 1)) = some (0xAB, 0))
    ∧ (let i := Instr.atomCas tD 1 2 3 true
      let s := (tEng i (tThr [(1, 5), (2, 0x400000), (3, 9)])).memWr 0 1 0x400000 8 5;
      tGet (exec i s) (fun t => (t.greg tD 1, t.memRd 0 1 0x400000 8)) = some (5, 9)) := by decide +kernel

/-- A worker that holds an ingress packet of `n` bytes, HW_LEN 512 at most, with registers `r`. -/
def tPkt (n : Nat) (egr : Bool) (r : SMap Nat) : Thr :=
  { tThr r with pkt := some { p := { bytes := zeros n }, egr := egr, handle := 1, hw0 := min 512 n, hwLen := min 512 n } }

/-- The window's bounds: 640 for HWL, HW_LEN for HWS, 128 and minus the first HW_LEN for HWADJ. -/
theorem test_wit_HeaderWindow :
    (let i := Instr.hwl tD 1 2 3 0; let s := tEng i (tPkt 64 false [(2, 632)]);
      issues s tD i ∧ s.pktOf tD = (tPkt 64 false []).pkt ∧ (s.greg tD 2 + 0) % 2 ^ 64 + 8 = 640)
    ∧ (let i := Instr.hwl tD 1 2 3 1; let s := tEng i (tPkt 64 false [(2, 632)]);
      issues s tD i ∧ 640 < (s.greg tD 2 + 1) % 2 ^ 64 + 8)
    ∧ (let i := Instr.hws tD 1 2 3 56; let s := tEng i (tPkt 64 false []); issues s tD i ∧ (s.greg tD 2 + 56) % 2 ^ 64 + 8 = min 640 64)
    ∧ (let i := Instr.hws tD 1 2 3 57; let s := tEng i (tPkt 64 false []); issues s tD i ∧ min 640 64 < (s.greg tD 2 + 57) % 2 ^ 64 + 8)
    ∧ (let i := Instr.hwadj tD 1 2 128; let s := tEng i (tPkt 64 false []);
      issues s tD i ∧ (BitVec.ofNat 64 (s.greg tD 2) + (128 : BitVec 12).signExtend 64).toInt = 128)
    ∧ (let i := Instr.hwadj tD 1 2 0xFC0; let s := tEng i (tPkt 64 false []);
      issues s tD i ∧ (BitVec.ofNat 64 (s.greg tD 2) + (0xFC0 : BitVec 12).signExtend 64).toInt = -64)
    ∧ (let i := Instr.hwadj tD 1 2 129; let s := tEng i (tPkt 64 false []);
      issues s tD i ∧ 128 < (BitVec.ofNat 64 (s.greg tD 2) + (129 : BitVec 12).signExtend 64).toInt) := by unfold issues; decide +kernel

/-- HWS stores big-endian, HWADJ of −14 removes the front. -/
theorem test_window_steps :
    (let i := Instr.hws tD 1 2 1 2;
      tGet (exec i (tEng i (tPkt 64 false [(1, 0xABCD)]))) (fun t => (t.pktOf tD).map (fun k => (k.p.bytes.drop 2).take 2)) =
        some (some [0xAB, 0xCD]))
    ∧ (let i := Instr.hwadj tD 1 0 0xFF2;
      tGet (exec i (tEng i (tPkt 64 false []))) (fun t => (t.greg tD 1, (t.pktOf tD).map (fun k => k.p.bytes.length))) =
        some (50, some 50)) := by decide +kernel

/-- Ingress and egress packets, and the first index outside the table. -/
theorem test_wit_Metadata :
    (let i := Instr.mdl tD 1 0; let s := tEng i (tPkt 64 false []); issues s tD i ∧ (s.pktOf tD).map (·.egr) = some false)
    ∧ (let i := Instr.mdl tD 1 0x1A; let s := tEng i (tPkt 64 false []); issues s tD i ∧ (s.pktOf tD).map (·.egr) = some false)
    ∧ (let i := Instr.mds tD 1 8; let s := tEng i (tPkt 64 false []); issues s tD i ∧ (s.pktOf tD).map (·.egr) = some false)
    ∧ (let i := Instr.mds tD 1 4; let s := tEng i (tPkt 64 true []); issues s tD i ∧ (s.pktOf tD).isSome = true)
    ∧ (let i := Instr.mds tD 1 0x9B; let s := tEng i (tPkt 64 false []); issues s tD i ∧ 0x9B ≤ (0x9B : BitVec 8).toNat) := by
  unfold issues; decide +kernel

theorem test_wit_Faults :
    let w : Word := 0x0C400000
    let s := tGal w.toNat 1 (tThr []);
    decodeEngine ⟨tC, false, false, AclEnv.clean⟩ w.toNat = none ∧ ¬(bits w.toNat 27 22 = 0x1E ∧ 0x60 ≤ bits w.toNat 6 0)
    ∧ s.canIssue 0 1 = true ∧ (s.thrOf tD).pc < (s.galI 0).codeLen
    ∧ mget (fun _ => 0) (s.galI 0).code (s.thrOf tD).pc = w.toNat ∧ s.pd 0 1 0 ≠ false := by decide +kernel

/-- SVC halts with cause 12 and its code: the notification word of R321. -/
theorem test_svc_step :
    (let i := Instr.svc tD 20;
      tGet (exec i (tEng i (tThr []))) (fun t => ((t.thrOf tD).run, (t.galI 0).notes, (t.thrI 0 0).events)) =
        some (.haltF, [0x800C010000140000], 2)) := by decide +kernel

/-- Registers G2 (key at 0x8000) and G3 (result buffer at 0x8040), and an index in G2 at the ends of its range. -/
theorem test_wit_Lookups :
    (let i := Instr.lkpEm tD 1 2 3 5; let s := tEng i (tThr [(2, 0x8000), (3, 0x8040)]);
      issues s tD i ∧ s.inMode mLULL = false ∧ (s.thrOf tD).freeTok = some 0 ∧ bufFault (s.greg tD 3) 32 = 0
      ∧ inData 1 (s.greg tD 2) 24 = true)
    ∧ (let i := Instr.lkpLpm tD 1 2 3; let s := tEng i { tThr [(2, 0x10FE8), (3, 0x10FF8)] with toks := [(0, some { req := .off })] };
      issues s tD i ∧ (s.thrOf tD).freeTok = some 1 ∧ bufFault (s.greg tD 3) 8 = 0 ∧ inData 1 (s.greg tD 2) 24 = true)
    ∧ (∀ i ∈ [Instr.lkpNh tD 1 2 3, .lkpEcmpGroup tD 1 2 3, .lkpEcmpMember tD 1 2 3, .lkpAdj tD 1 2 3],
      let s := tEng i (tThr [(2, 65536), (3, 0x8040)]); issues s tD i ∧ bufFault (s.greg tD 3) 64 = 0) := by
  unfold issues; decide +kernel

/-- The lowest free token, as the statements say it. -/
theorem test_wit_lowestFree : (tThr []).lowestFree 0 ∧ ({ tThr [] with toks := [(0, some { req := .off })] } : Thr).lowestFree 1 := by
  unfold Thr.lowestFree; decide +kernel

/-- A thread with token 3 in use. -/
def tTok (t : Tok) (r : SMap Nat) : Thr := { tThr r with toks := [(3, some t)] }

theorem test_wit_Completions :
    (let r : LkpReq := ⟨2, 0, 5, 0, 0, 0, 0, 0x8000, false⟩;
      ((tEng (.fence tD) (tTok { req := .lkp r } [])).thrI 0 1).tok 3 = some { req := .lkp r })
    ∧ (let s := tEng (.fence tD) (tTok { req := .lkp ⟨0, 0, 5, 0, 0, 0, 0, 0x8000, false⟩ } []); s.lkpFind ⟨0, 0, 5, 0, 0, 0, 0, 0x8000, false⟩ = none)
    ∧ ((tEng (.fence tD) (tTok { req := .hrd (some 7) } [])).thrI 0 1).tok 3 = some { req := .hrd (some 7) }
    ∧ (let r : DmaReq := ⟨0, 0, 0x8000, 64, false⟩
      let s := tEng (.fence tD) { tPkt 64 false [] with toks := [(3, some { req := .dma r })] };
      (s.thrI 0 1).tok 3 = some { req := .dma r } ∧ (s.thrI 0 1).pkt.isSome = true) := by decide +kernel

/-- A search in LULL, one that misses and one that hits. -/
theorem test_wit_AclSearch :
    let i := Instr.aclSearch tD 1 2 AclEnv.clean
    let s := tEng i (tThr [(2, 0x8000)])
    let u : State := { s with acl := { s.acl with ents := [(40, { prio := 800, valid := true })] } }
    let l := s.wr F.MOD_STATUS_MODE mLULL;
    issues s tD i ∧ issues u tD i ∧ issues l tD i ∧ bufFault (s.greg tD 2) 96 = 0 ∧ s.inMode mLULL = false ∧ l.inMode mLULL = true
    ∧ (s.aclSearch 0 0 AclEnv.clean).2.hit = none ∧ (u.aclSearch 0 0 AclEnv.clean).2.hit.map (·.1) = some 40 := by
  unfold issues; decide +kernel

/-- Echo descriptors at 0x8000 for 64 bytes of gallery memory; DMA descriptors at 0x8000. -/
theorem test_wit_EchoHoardDma :
    (let i := Instr.echoScanRequest tD 1 2 true
      let s := ((tEng i (tThr [(2, 0x8000)])).memWr 0 1 0x8000 4 0x100000).memWr 0 1 0x8004 2 64
      let b := s.dataBytes tD (s.greg tD 2) 24;
      issues s tD i ∧ s.inMode mLULL = false ∧ bufFault (s.greg tD 2) 24 = 0 ∧ leN b 4 2 = 64
      ∧ (s.echoData tD true (leN b 0 4) 64).isSome = true ∧ (s.ech 0).bytes + 64 ≤ s.rd F.PAT_CFG_QMAX * 1024)
    ∧ (let i := Instr.dmaTableToLocal tD 1 2
      let s := (((tEng i (tThr [(2, 0x8000)])).memWr 0 1 0x8000 8 0x1000).memWr 0 1 0x8008 4 0x9000).memWr 0 1 0x800C 4 64
      let r := s.dmaReq tD 1 (s.dataBytes tD (s.greg tD 2) 16);
      issues s tD i ∧ inData 1 (s.greg tD 2) 16 = true ∧ r.loc = 0x9000 ∧ r.loc % 8 = 0 ∧ r.remote = 0x1000 ∧ r.remote % 8 = 0) := by
  unfold issues; decide +kernel

/-- Gallery 0's pool enabled with 8 cells, cell 3 with 2 references. -/
def tPool (n : Nat) : State :=
  let s := ((tEng (.fence tD) (tTok { req := .hrd none } [])).wr (F.HRD_POOL_CFG_EN.at 0) 1).wr (F.HRD_POOL_CFG_CELLS.at 0) 8;
  (s.wr (F.HRD_POOL_STATUS_FREE.at 2) 7).scrSet (hrdHandle 2 3) n

theorem test_wit_Hoard :
    (let s := tPool 2; (s.thrI 0 1).tok 3 = some { req := .hrd none } ∧ s.scrCells 2 ≠ 0 ∧ s.poolFree 2 ≠ 0
      ∧ s.handleOk (hrdHandle 2 3) = true ∧ hrdHandle 2 3 / 2 ^ 28 = 2 ∧ s.scrRefs (hrdHandle 2 3) = 2)
    ∧ (tPool 254).scrRefs (hrdHandle 2 3) = 254 := by decide +kernel

theorem test_wit_Waits :
    (let i := Instr.waitToken tD 1 2; let s := tEng i (tTok ⟨.off, 0, some 7⟩ [(2, 3)]);
      issues s tD i ∧ s.greg tD 2 = 3 ∧ (s.thrOf tD).tok 3 = some ⟨.off, 0, some 7⟩)
    ∧ (let i := Instr.waitToken tD 1 2; let s := tEng i (tTok ⟨.off, 0, none⟩ [(2, 3)]);
      issues s tD i ∧ (s.thrOf tD).tok 3 = some ⟨.off, 0, none⟩)
    ∧ (let i := Instr.waitAny tD 1 2
      let s := tEng i { tThr [(2, 0x9)] with toks := [(0, some ⟨.off, 0, none⟩), (3, some ⟨.off, 0, some 7⟩)] }
      let x := s.thrOf tD
      let v := s.greg tD 2;
      issues s tD i ∧ bitN v 3 = true ∧ x.tok 3 = some ⟨.off, 0, some 7⟩ ∧ bitN x.tokDone 3 = true
      ∧ (∀ m < 3, bitN v m = true → bitN x.tokDone m = false) ∧ (∀ m < 16, bitN v m = true → x.tok m ≠ none))
    ∧ (let i := Instr.waitEvent tD 1 2; let s := tEng i { tThr [(2, 2)] with events := 2 };
      issues s tD i ∧ s.eventsOf 0 1 &&& (s.greg tD 2 % 16) ≠ 0) := by unfold issues; decide +kernel

/-- WAIT returns the status word and frees the token. -/
theorem test_wait_step :
    (let i := Instr.waitToken tD 1 2;
      tGet (exec i (tEng i (tTok ⟨.off, 0, some 7⟩ [(2, 3)]))) (fun t => (t.greg tD 1, (t.thrOf tD).tok 3)) = some (7, none)) := by
  decide +kernel

theorem test_wit_CountersAndTime :
    (let i := Instr.cnt tD 2 3; let s := tEng i (tThr [(2, 262143)]); issues s tD i ∧ s.inMode mLULL = false ∧ s.greg tD 2 < 262144)
    ∧ (let i := Instr.cnt tD 2 3; let s := tEng i (tThr [(2, 262144)]); issues s tD i ∧ s.inMode mLULL = false ∧ 262144 ≤ s.greg tD 2)
    ∧ (let i := Instr.cnt tD 2 3; let s := (tEng i (tThr [])).wr F.MOD_STATUS_MODE mLULL; issues s tD i ∧ s.inMode mLULL = true)
    ∧ (let i := Instr.time tD 1 4; let s := tEng i (tPkt 64 false []); issues s tD i ∧ (s.pktOf tD).isSome = true)
    ∧ (let i := Instr.time tD 1 5; issues (tEng i (tThr [])) tD i ∧ 5 ≤ (5 : BitVec 8).toNat) := by unfold issues; decide +kernel

/-- A flue 2 of gallery 0 of 32 words whose receiver is thread 1. -/
def tFlue (i : Instr) (x : Thr) : State :=
  (((tEng i x).wr (flc F.GAL_FLUE_EN 0 2) 1).wr (flc F.GAL_FLUE_CAP 0 2) 32).wr (flc F.GAL_FLUE_RX_THREAD 0 2) 1

theorem test_wit_Flues :
    (let i := Instr.fres tD 2 2; let s := tFlue i (tThr [(2, 32)]); let x := s.thrOf tD;
      s.flueOn 0 2 = true ∧ x.resvIn 2 = none ∧ s.inLine tD 2 = false ∧ s.greg tD 2 = 32 ∧ 32 ≤ s.rd (flc F.GAL_FLUE_CAP 0 2)
      ∧ x.resv.length < 4 ∧ s.flueWait 0 2 = [] ∧ 32 ≤ s.flueSpace 0 2 ∧ issues s tD i)
    ∧ (let i := Instr.fput tD 2 2; let s := tFlue i { tThr [(2, 9)] with resv := [⟨2, 2, [7], false⟩] }; let x := s.thrOf tD;
      s.flueOn 0 2 = true ∧ x.resvIn 2 = some ⟨2, 2, [7], false⟩ ∧ x.lost.contains 2 = false ∧ [7].length < 2 ∧ issues s tD i)
    ∧ (let i := Instr.fcmt tD 1 2; let s := tFlue i { tThr [] with resv := [⟨2, 2, [7], false⟩] };
      s.flueOn 0 2 = true ∧ (s.thrOf tD).resvIn 2 = some ⟨2, 2, [7], false⟩ ∧ issues s tD i)
    ∧ (let i := Instr.fget tD 1 2; let s := (tFlue i (tThr [])).fluePut 0 2 [5, 6];
      s.flueOn 0 2 = true ∧ s.flueRx 0 2 = 1 ∧ s.flueWords 0 2 = [5, 6] ∧ issues s tD i)
    ∧ (let i := Instr.flen tD 1 2; let s := tFlue i (tThr []); s.flueRx 0 2 = 1 ∧ issues s tD i) := by unfold issues; decide +kernel

/-- FCMT commits what was staged and returns its number. -/
theorem test_flue_step :
    (let i := Instr.fcmt tD 1 2;
      tGet (exec i (tFlue i { tThr [] with resv := [⟨2, 3, [7, 8], false⟩] })) (fun t => (t.greg tD 1, t.flueWords 0 2, (t.thrOf tD).resv)) =
        some (2, [7, 8], [])) := by decide +kernel

theorem test_wit_Packets :
    (let i := Instr.pktReady tD; let s := tEng i (tThr []); issues s tD i ∧ s.pktOf tD = none)
    ∧ (let i := Instr.pktSend tD; let s := tEng i (tPkt 64 false []);
      issues s tD i ∧ (s.pktOf tD).isSome = true ∧ (s.thrOf tD).tokBusy = 0 ∧ s.inMode mLULL = false)
    ∧ (let i := Instr.pktDrop tD; let s := tEng i (tPkt 64 true []); issues s tD i ∧ (s.pktOf tD).isSome = true)
    ∧ (let i := Instr.pktPunt tD 16; let s := tEng i (tPkt 64 false []); issues s tD i ∧ (s.pktOf tD).isSome = true) := by
  unfold issues; decide +kernel

theorem test_wit_Specials :
    (let i := Instr.mfs tD 1 0; issues (tEng i (tThr [])) tD i) ∧ (let i := Instr.mts tD 2 5; issues (tEng i (tThr [(2, 7)])) tD i)
    ∧ tC.ix = 1 ∧ (⟨0, 0, 0⟩ : ThrId).ix = 0 ∧ (let i := Instr.mts tD 1 0x16; issues (tEng i (tThr [])) tD i) := by
  unfold issues; decide +kernel

/-- The supervisor with thread 1 selected and halted, holding a reservation of flue 2. -/
def tSel (i : Instr) (v sel : Nat) : State :=
  ((tSup i (tThr [(2, v)])).thrUpd 0 1 (fun _ => { tThr [] with run := .haltF, resv := [⟨2, 2, [], false⟩] })).galUpd 0
    (fun y => { y with sel := sel })

theorem test_wit_Supervisor :
    let d : Iss := ⟨⟨0, 0, 0⟩, false, 0, false⟩;
    d.c.ix = 0
    ∧ (∀ x ∈ [(Instr.thrResume d 2, 1, 1), (.thrSkip d 2, 2, 1), (.thrJump d 2, 0x70003, 1), (.thrRestart d 2, 4, 1),
        (.thrRegWrite d 2, 9, 0x0501), (.thrRegWrite d 2, 9, 0x10001), (.reclaim d 2, 2, 1), (.synthPost d 2, 3, 1)],
      let s := tSel x.1 x.2.1 x.2.2;
      issues s d x.1 ∧ (s.thrI 0 1).halted = true ∧ s.greg d 2 = x.2.1 ∧ 8 * ((s.galI 0).sel / 16 % 8) + (s.galI 0).sel % 8 = 1
      ∧ ((s.thrI 0 1).resvIn 2).isSome = true) := by unfold issues; decide +kernel

/-- JUMP goes to the index given. -/
theorem test_supervisor_step :
    (let i := Instr.thrJump ⟨⟨0, 0, 0⟩, false, 0, false⟩ 2;
      tGet (exec i (tSel i 0x70003 1)) (fun t => ((t.thrI 0 1).run, (t.thrI 0 1).pc)) = some (.ready, 7)) := by decide +kernel

theorem test_wit_ThreadEvents :
    (let s := tEng (.fence tD) { tThr [] with run := .haltF, resv := [⟨2, 2, [], false⟩] };
      (s.thrI 0 1).halted = true ∧ (s.thrI 0 1).resv ≠ [])
    ∧ (let s := tEng (.fence tD) { tThr [] with timer := 5, armed := true };
      (s.thrI 0 1).armed = true ∧ ((s.thrI 0 1).timer + 2 ^ 48 - s.ns % 2 ^ 48) % 2 ^ 48 < 2 ^ 47) := by decide +kernel

/-! ### Every hypothesis of a statement is met: galleries, accesses, time -/

theorem test_wit_StillAir :
    let s := tEng (.fence tD) { tThr [] with run := .stall (.events 2) };
    s.saHolds 0 = true ∧ (s.galI 0).saFired = false := by decide +kernel

/-- The registers whose writes and reads the statements speak of are served in RUN. -/
theorem test_wit_serves :
    ∀ a ∈ [(R.GAL_DBG_CTRL.at 0).addr, R.CLS_IND_CMD.addr, R.ACL_IND_CMD.addr, R.QUE_IND_CMD.addr, R.SCH_IND_CMD.addr,
      R.SHP_IND_CMD.addr, R.GAT_IND_CMD.addr, R.SVY_IND_CMD.addr, R.WRS_ADJ_FREQ.addr, R.WRS_ADJ_PHASE.addr + 4,
      R.WRS_SET_CTRL.addr, R.CAD_CTRL.addr, R.CAD_PERIOD.addr, R.CAD_PHASE.addr, R.WRS_TSF.addr + 12, R.WRS_TIME.addr,
      R.MOD_BYP_CTRL.addr, (R.LPT_CTRL.at 145).addr, (R.OTN_PM_SEL.at 17).addr, R.TSI_CTRL.addr, R.PAT_CTRL.addr,
      R.SHP_SOJ_SEL.addr, (R.PMC_CTRL.at 7).addr, (R.PMC_SFIFO.at 7).addr, (R.EVT_FORCE.at 7).addr,
      (R.HST_RING.at 71).addr + 8, R.BIS_GTEST_CTRL.addr, R.BIS_FAIL_LOG.addr, R.BIS_HBM_LOG.addr, R.BIS_MEM_SEL.addr],
    tRun.serves a := by unfold State.serves; decide +kernel

/-- No block with an indirect command register is busy in RUN. -/
theorem test_wit_takes :
    tRun.takes R.CLS_IND_CMD F.CLS_IND_STATUS_BUSY ∧ tRun.takes R.ACL_IND_CMD F.ACL_IND_STATUS_BUSY
    ∧ tRun.takes R.QUE_IND_CMD F.QUE_IND_STATUS_BUSY ∧ tRun.takes R.SCH_IND_CMD F.SCH_IND_STATUS_BUSY
    ∧ tRun.takes R.SHP_IND_CMD F.SHP_IND_STATUS_BUSY ∧ tRun.takes R.GAT_IND_CMD F.GAT_IND_STATUS_BUSY
    ∧ tRun.takes R.SVY_IND_CMD F.SVY_IND_STATUS_BUSY := by unfold State.takes State.serves; decide +kernel

/-- Engine debug permitted (life-cycle BLANK) and not (FIELD), a thread that runs and one debug-halted. -/
theorem test_wit_Debug :
    tRun.engDebug = true ∧ (tRun.wr F.KPR_STATUS_LC lcFIELD).engDebug = false
    ∧ (let s := tEng (.fence tD) (tThr []); (s.thrI 0 1).halted = false ∧ (s.thrI 0 1).role ≠ 0 ∧ s.engDebug = true)
    ∧ ((tEng (.fence tD) { tThr [] with run := .haltD }).thrI 0 1).run = .haltD := by decide +kernel

/-- An arrival for gallery 0. -/
def tIn : GIn := { p := { bytes := zeros 64 }, egr := false, slice := 0, at_ := 5 }

theorem test_wit_Galleries :
    (let s := (tEng (.fence tD) { tThr [] with run := .idle }).galUpd 0 (fun y => { y with inq := [tIn] });
      s.idleWorker 0 = some 1 ∧ (s.galI 0).inq = [tIn])
    ∧ (let s := { tEng (.fence tD) (tThr []) with galIn := [tIn] };
      s.nextArrival 0 = some tIn ∧ s.galState 0 = gSERVICE ∧ tIn.p.echo = none)
    ∧ (let s := tRun.wr F.MOD_STATUS_KEEPER_UP 1;
      s.keeperUp = true ∧ s.inMode mRUN = true ∧ s.bist.gt = none ∧ bitN s.bist.gfail 0 = false ∧ s.galState 0 = gOFF)
    ∧ (let s := (tRun.wr (F.GAL_STATUS_STATE.at 0) gLOADING).galUpd 0 (fun y => { y with loadAt := some 3 });
      (s.galI 0).loadAt = some 3 ∧ s.galState 0 = gLOADING ∧ s.inMode mRUN = true ∧ s.kpr.swap = none)
    ∧ (let s := tRun.wr (F.GAL_STATUS_STATE.at 0) gDRAINING; s.galState 0 = gDRAINING ∧ s.bist.gt = none) := by decide +kernel

/-- A scan of gallery 0 for thread 1's token 3. -/
def tJob : EchoJob := ⟨1, 3, none, 0x8000, [1], none, false, 0⟩

theorem test_wit_Caches :
    (tRun.stackCacheSet 0 2047).stackCache 0 < 2048 ∧ 6144 < (tRun.stackCacheSet 0 6145).stackCache 0
    ∧ (let w : HrdWait := ⟨1, 3, 0, false⟩; ((tRun.waitShow 2 [w]).waitOf 2).find? (fun w => !w.starved) = some w)
    ∧ (let s := (tEng (.fence tD) (tTok { req := .echo } [])).echPut 0 { jobs := [tJob] }
      let r := scanResult ((s.ech 0).bank (s.bankAt 0 tJob.stamp)) tJob;
      (s.ech 0).jobs = [tJob] ∧ tJob.handle = none ∧ tJob.cur = none ∧ tJob.noStart = false
      ∧ (s.thrI 0 1).tok 3 = some { req := .echo } ∧ r.2.1 = false ∧ r.2.2 = false) := by decide +kernel

/-- DORMANT; a reserved word, one of a gallery under test, one of a block not served before RUN; the log free and taken. -/
theorem test_wit_Accesses :
    (State.reset.wr F.MOD_STATUS_MODE mDORMANT).inMode mDORMANT = true ∧ tRun.inMode mDORMANT = false
    ∧ barReserved 0x0FFFFFFC = true
    ∧ (let s := { tRun with bist := { tRun.bist with gt := some { g := 0, step := 3 } } }; let a := 0x700100;
      s.inMode mDORMANT = false ∧ a % 4 = 0 ∧ barReserved a = false ∧ s.barBusy a = true)
    ∧ (let a := (R.LPT_CTRL.at 0).addr; State.reset.inMode mDORMANT = false ∧ a % 4 = 0 ∧ barReserved a = false
      ∧ State.reset.barBusy a = false ∧ State.reset.barEarly a = true)
    ∧ (tRun.cnt R.GLB_ERR_CNT).rd F.GLB_ERR_LOG_KIND = 0 ∧ ((tRun.wr F.GLB_ERR_LOG_KIND 1).cnt R.GLB_ERR_CNT).rd F.GLB_ERR_LOG_KIND ≠ 0 := by
  decide +kernel

/-- A word, a low and a high word, with and without a low word held; no row of FAB is switched off outside standalone use. -/
theorem test_wit_HostReadsAndWrites :
    (∀ x ∈ [(R.GLB_PART.addr, WordRole.w32), (R.MOD_WAKE_TICK.addr, .lo), (R.MOD_WAKE_TICK.addr + 4, .hi)],
      (regRow x.1).map (fun y => (y.1.role, tRun.fabGone y.1.name, (tRun.writeBlocked y.1.name).isNone)) = some (x.2, false, true))
    ∧ tRun.serves R.GLB_PART.addr ∧ tRun.serves R.MOD_WAKE_TICK.addr ∧ tRun.serves (R.MOD_WAKE_TICK.addr + 4)
    ∧ (regRow R.GLB_PART.addr).map (fun y => (tRun.unitWrite y.1.name y.2 R.GLB_PART.addr 0).isNone) = some true
    ∧ mget (fun _ => (none : Option Word)) tRun.held R.MOD_WAKE_TICK.addr = none
    ∧ mget (fun _ => (none : Option Word)) (mset (fun _ => none) tRun.held R.MOD_WAKE_TICK.addr (some 5)) R.MOD_WAKE_TICK.addr = some 5 := by
  unfold State.serves; decide +kernel

/-- The lowest and highest of the operations each block does not define, and indices at the ends of their ranges. -/
theorem test_wit_BadOps :
    4 < bits (5 : Word).toNat 2 0 ∧ bits (0x03FFFF07 : Word).toNat 25 8 < 262144
    ∧ bits (0x1FFFF005 : Word).toNat 30 28 ≠ 0 ∧ bits (0x1FFFF005 : Word).toNat 27 12 < schCount 1
    ∧ bits (0x40000009 : Word).toNat 31 30 < 2 ∧ 8 < bits (0x40000009 : Word).toNat 3 0 ∧ gatIndexOk 1 0 0 false = true
    ∧ bits (0x80000003 : Word).toNat 31 30 = 2 ∧ bits (0x8000000B : Word).toNat 3 0 ∉ [0, 1, 2, 9, 10]
    ∧ 4 < bits (7 : Word).toNat 2 0 := by decide +kernel

/-- Each case of a frequency word, a phase word, a time-set and a reference, at the limits. -/
theorem test_wit_TimeSteering :
    (let u (v : Word) : State := tRun.hostPut R.WRS_ADJ_FREQ.addr v;
      (u 0).servo = true ∧ (tRun.wr F.WRS_CTRL_DPLLA_PREF 1).servo = false
      ∧ sx 32 ((u 1000000000).rd F.WRS_ADJ_FREQ_FREQ) = adjLimit ∧ adjLimit < sx 32 ((u 1000000001).rd F.WRS_ADJ_FREQ_FREQ)
      ∧ sx 32 ((u (-1000000001)).rd F.WRS_ADJ_FREQ_FREQ) < -adjLimit)
    ∧ (let s := { tRun with held := mset (fun _ => none) tRun.held R.WRS_ADJ_PHASE.addr (some 1000) };
      sx 64 ((s.pairPut R.WRS_ADJ_PHASE.addr 0).rd64 R.WRS_ADJ_PHASE) = 1000
      ∧ sx 64 ((s.pairPut R.WRS_ADJ_PHASE.addr (-1)).rd64 R.WRS_ADJ_PHASE) < 0)
    ∧ (let s := tRun.wr F.WRS_SLEW_WINDOW 1; 1000 ≤ s.rd F.WRS_SLEW_WINDOW * 1000 ∧ s.rd F.WRS_SLEW_WINDOW * 1000 < 1001)
    ∧ tRun.rd F.CAD_CTRL_EN = 0 ∧ (tRun.wr F.CAD_CTRL_EN 1).rd F.CAD_CTRL_EN ≠ 0 ∧ tRun.rd F.WRS_CTRL_STEP_EN = 0
    ∧ (tRun.wr F.WRS_CTRL_STEP_EN 1).rd F.WRS_CTRL_STEP_EN ≠ 0 ∧ (tRun.wr F.WRS_STATUS_SLEWING 1).rd F.WRS_STATUS_SLEWING ≠ 0
    ∧ (tRun.wr F.WRS_STATUS_DPLLA_STATE dACQUIRE).rd F.WRS_STATUS_DPLLA_STATE = dACQUIRE
    ∧ (tRun.wr F.WRS_STATUS_DPLLB_STATE dACQUIRE).rd F.WRS_STATUS_DPLLB_STATE = dACQUIRE := by decide +kernel

theorem test_wit_TimeSetAndPps :
    (let u := tRun.hostPut R.WRS_SET_CTRL.addr (0 ||| 1)
      let p := (tRun.wr F.WRS_TIME_SET_NANOSECONDS 999999999).hostPut R.WRS_SET_CTRL.addr (2 ||| 1);
      u.rd F.WRS_SET_CTRL_GO = 0 ∧ u.rd F.WRS_TIME_SET_NANOSECONDS < 10 ^ 9 ∧ u.rd F.WRS_SET_CTRL_AT_PPS = 0
      ∧ p.rd F.WRS_SET_CTRL_GO = 0 ∧ p.rd F.WRS_TIME_SET_NANOSECONDS < 10 ^ 9 ∧ p.rd F.WRS_SET_CTRL_AT_PPS ≠ 0)
    ∧ (let u := ((tRun.wr F.WRS_SET_CTRL_GO 1).wr F.WRS_SET_CTRL_AT_PPS 1).wrTime (R.WRS_PPS_IN_STAMP.at 0) 0;
      u.rd F.WRS_SET_CTRL_GO ≠ 0 ∧ u.rd F.WRS_SET_CTRL_AT_PPS ≠ 0 ∧ u.setPps = 0)
    ∧ (let s := (tRun.wr F.WRS_CTRL_DPLLA_PREF 1).wr F.WRS_STATUS_REF_OK 3
      let x := s.setRef 0 false;
      s.ppsA = some 0 ∧ x.refB ≠ some 0 ∧ x.ppsA = some 0 ∧ x.rd F.WRS_CTRL_PPS_FALLBACK ≠ 0 ∧ x.refOk 1 = true)
    ∧ (let s := (tRun.wr F.WRS_CTRL_DPLLA_PREF 1).wr F.WRS_CTRL_PPS_FALLBACK 0;
      (s.setRef 0 false).ppsA = some 0 ∧ (s.setRef 0 false).rd F.WRS_CTRL_PPS_FALLBACK = 0)
    ∧ (tRun.setRef 0 false).ppsA ≠ some 0 := by decide +kernel

/-! ### Every hypothesis of a statement is met: Cadence, modes, bypasses, the Keeper -/

theorem test_wit_Cadence :
    (1 : Word).getLsbD 0 = true ∧ (2 : Word).getLsbD 0 = false ∧ (tRun.wr F.WRS_STATUS_TIME_SET 1).rd F.WRS_STATUS_TIME_SET ≠ 0
    ∧ tRun.rd F.WRS_STATUS_TIME_SET = 0 ∧ tRun.rd F.CAD_CTRL_EN = 0
    ∧ 250 ≤ (250 : Word).toNat % 2 ^ 20 ∧ tRun.rd F.CAD_PHASE_PHASE < 250 ∧ ¬250 ≤ (249 : Word).toNat % 2 ^ 20
    ∧ (999 : Word).toNat % 2 ^ 20 < tRun.rd F.CAD_PERIOD_PERIOD ∧ ¬(1000 : Word).toNat % 2 ^ 20 < tRun.rd F.CAD_PERIOD_PERIOD
    ∧ (tRun.wr (F.WRS_PPS_OUT_EN.at 1) 1).rd (F.WRS_PPS_OUT_EN.at 1) ≠ 0
    ∧ (tRun.wr F.WRS_CAL_EN 1).rd F.WRS_CAL_EN ≠ 0 := by decide +kernel

/-- A tick in RUN, in LULL and in SAFEHOLD. -/
theorem test_wit_Tick :
    ∀ m ∈ [mRUN, mLULL, mSAFEHOLD],
      let s := (tRun.wr F.MOD_STATUS_MODE m).wr F.CAD_CTRL_EN 1
      let u := s.closeInterval.issueTick
      let x := { u with ev := { u.ev with open_ := some u.tick } }.newTick.calApply;
      s.rd F.CAD_CTRL_EN ≠ 0 ∧ s.inMode mDORMANT = false ∧ x.inMode m = true := by decide +kernel

/-- DORMANT with one condition missing, and with none. -/
theorem test_wit_Supplies :
    (let s := State.reset.wr F.MOD_STATUS_MODE mDORMANT
      let x : State := { s with md := { s.md with porst := true } };
      x.mode = mDORMANT ∧ x.md.porst = true ∧ x.md.rails = 0 ∧ x.md.sysclkBad = false ∧ x.lc ≠ lcSCRAP)
    ∧ (let s := { State.reset with md := { State.reset.md with rails := 5 } }.wr F.MOD_STATUS_MODE mDORMANT; s.md.rails ≠ 0)
    ∧ State.reset.inMode mASCENT = true ∧ State.reset.md.sysclkBad = false := by decide +kernel

/-- ASCENT at each step, with the ports and galleries as the step's end needs them. -/
theorem test_wit_Ascent :
    (∀ n ∈ [1, 2, 3, 4, 5, 6, 7, 8], let s := State.reset.wr F.MOD_STATUS_STEP n; s.ascStep = n ∧ s.inMode mASCENT = true)
    ∧ (∀ p < 144, State.reset.inUse p = false)
    ∧ (let s := ((State.reset.wr F.MOD_STATUS_STEP 7).wr (F.LPT_STATUS_LINK.at 144) 1).wr (F.LPT_STATUS_LINK.at 145) 1;
      s.link 144 = true ∧ s.link 145 = true)
    ∧ ((State.reset.wr F.MOD_STATUS_STEP 8).wr F.CAD_STATUS_RUNNING 1).running = true
    ∧ (let s := foldS (List.range 8) (fun g s => s.wr (F.GAL_STATUS_STATE.at g) gSERVICE) State.reset;
      ∀ g < 8, s.galState g = gSERVICE) := by decide +kernel

/-- Each command refused and accepted: LULL, WAKE, PROBE, RESTART, SAFEHOLD; named ticks passed and to come. -/
theorem test_wit_ModeCommands :
    let r := tRun.wr F.MOD_LULL_CFG_LULL_EN 1
    let c := r.wr F.CAD_STATUS_RUNNING 1;
    State.reset.modRefuse 1 false ≠ 0 ∧ r.modRefuse 2 false ≠ 0 ∧ State.reset.modRefuse 3 false ≠ 0 ∧ State.reset.modRefuse 4 false ≠ 0
    ∧ (r.wr F.MOD_STATUS_MODE mSAFEHOLD).modRefuse 5 false ≠ 0
    ∧ c.modRefuse 1 true = 0 ∧ c.modRefuse 4 true = 0 ∧ r.modRefuse 1 false = 0 ∧ (r.wr F.MOD_STATUS_MODE mLULL).modRefuse 2 false = 0
    ∧ r.modRefuse 3 false = 0 ∧ r.modRefuse 4 false = 0 ∧ r.modRefuse 5 false = 0 ∧ r.rd F.MOD_STATUS_PHASE = 0
    ∧ (r.wr F.MOD_STATUS_PHASE 1).rd F.MOD_STATUS_PHASE ≠ 0 ∧ (r.wr F.MOD_STATUS_PHASE 1).modRefuse 5 false = 0 := by decide +kernel

theorem test_wit_ModeEvents :
    (let s := { tRun with md := { tRun.md with pend := some ⟨1, some 4, false⟩ }, tb := { tRun.tb with nextTick := 5 } }.wr F.CAD_STATUS_RUNNING 1;
      s.md.pend = some ⟨1, some 4, false⟩ ∧ 4 < s.tb.nextTick ∧ s.running = true ∧ s.rd F.MOD_STATUS_PHASE = 0)
    ∧ ({ tRun with md := { tRun.md with lullCmd := some ⟨1, none, false⟩ } } : State).md.lullCmd = some ⟨1, none, false⟩
    ∧ tRun.rd F.MOD_LULL_CFG_WAKE_PIN_EN ≠ 0 ∧ (tRun.wr F.MOD_LULL_CFG_WAKE_PIN_EN 0).rd F.MOD_LULL_CFG_WAKE_PIN_EN = 0
    ∧ (let s := ((tRun.wr F.MOD_LULL_CFG_WAKE_TICK_EN 1).wr F.CAD_STATUS_RUNNING 1).wr64 R.CAD_TICK 7;
      s.rd F.MOD_LULL_CFG_WAKE_TICK_EN ≠ 0 ∧ s.running = true ∧ s.rd64 R.MOD_WAKE_TICK ≤ s.tick)
    ∧ (let s := (tRun.wr F.MOD_STATUS_MODE mLULL).wr F.MOD_STATUS_PHASE 2; s.inMode mLULL = true ∧ s.rd F.MOD_STATUS_PHASE = 2)
    ∧ (let s := tRun.wr (F.GAL_STATUS_STEERED.at 0) 1; s.rd (F.GAL_STATUS_STEERED.at 0) ≠ 0 ∧ s.galState 0 = gOFF ∧ s.bist.gt = none)
    ∧ ({ tRun with md := { tRun.md with runAt := some 3 } } : State).md.runAt = some 3 := by decide +kernel

theorem test_wit_Bypasses :
    (let s := (({ tRun with byp1 := { loopUp := some 3, hold := some 4 } }.wr (fBypState 1) bLOOP_CHECK).wr (F.LPT_STATUS_LINK.at 145) 1);
      (s.bypTimers 1).loopUp = some 3 ∧ s.byp 1 = bLOOP_CHECK ∧ s.inMode mRUN = true ∧ s.link 145 = true ∧ (s.bypTimers 1).hold = some 4)
    ∧ (tRun.wr (fBypState 1) bOPENING).byp 1 = bOPENING ∧ (tRun.wr (fBypState 1) bBACKOFF).byp 1 = bBACKOFF
    ∧ tRun.inMode mSAFEHOLD = false ∧ tRun.rd F.MOD_RSQ_COUNT < 3 ∧ 3 ≤ (tRun.wr F.MOD_RSQ_COUNT 3).rd F.MOD_RSQ_COUNT
    ∧ (tRun.wr F.MOD_STATUS_MODE mSAFEHOLD).inMode mSAFEHOLD = true
    ∧ (let s := { tRun with md := { tRun.md with coolAt := some 5 } }.wr F.MOD_THERM_STATUS_TRIP 1;
      s.md.coolAt = some 5 ∧ s.rd F.MOD_THERM_STATUS_TRIP ≠ 0)
    ∧ tRun.tapMay .keeperDebug = true ∧ (tRun.wr F.KPR_STATUS_LC lcFIELD).tapMay .keeperDebug = false
    ∧ (tRun.wr F.KPR_STATUS_LC lcFIELD).tapMay .boundary = true := by decide +kernel

/-- A sensor read hot once is no trip, hot twice it is, and a TM die whose sensors all read 0x8000 is one (R542). -/
theorem test_wit_Thermal :
    (tRun.sensorRead 3 896).tripSensor 0 [3] = none ∧ (tRun.sensorRead 3 896).tripSensor 8 [3] = some 3
    ∧ (tRun.sensorRead 5 0x8000).tripSensor 0 [5] = some 5 := by decide +kernel

/-! ### Every hypothesis of a statement is met: the Keeper -/

/-- RUN with the Keeper up, type 2 in state `st` with ARM_MODE `m`. -/
def tKpr (st m : Nat) : State :=
  let s := tRun.wr F.MOD_STATUS_KEEPER_UP 1;
  { s with nvm := { s.nvm with bcrA := bcrBytes { gen := 1, t2 := { state := st, armMode := m } } } }

/-- A host request of code 1 pending, of good and of bad format; one of a core with field firmware up. -/
theorem test_wit_Mailbox :
    (let s := ((tKpr 0 0).wr F.KPR_MBX_STATUS_PENDING 1).wr (F.KPR_MBX_REQ_DATA.at 0) 0x10001;
      s.kprServes = true ∧ s.rd F.KPR_MBX_STATUS_PENDING ≠ 0 ∧ s.mbxWord 0 % 256 = 1 ∧ s.mbxFormat = true
      ∧ (s.rd F.KPR_CAP_MASK_DENY).testBit 1 = false ∧ (s.wr (F.KPR_MBX_REQ_DATA.at 1) 4081).mbxFormat = false
      ∧ (s.wr (F.KPR_MBX_REQ_DATA.at 1) 4080).mbxFormat = true
      ∧ ((s.wr F.KPR_CAP_MASK_DENY 2).rd F.KPR_CAP_MASK_DENY).testBit 1 = true)
    ∧ (let s := { tKpr 0 0 with kpr := { (tKpr 0 0).kpr with fwUp := true } };
      s.kpr.fwUp = true ∧ (zeros 4080).length ≤ 4080 ∧ 4080 < (zeros 4081).length) := by decide +kernel

/-- Each life-cycle condition of the code table holds in some state. -/
theorem test_wit_LifeCycles :
    tRun.lc = lcBLANK ∧ (∀ n ∈ [lcPROV, lcFIELD, lcRET, lcSCRAP], (tRun.wr F.KPR_STATUS_LC n).lc = n) := by decide +kernel

theorem test_wit_Images :
    (let s := tKpr iSTAGED 0; 1 ≤ 2 ∧ 0 < imgMax 2 ∧ (s.bcr.typ 2).state < 2 ∧ (s.bcr.typ 4).state < 2)
    ∧ (let s := { tKpr 0 0 with kpr := { (tKpr 0 0).kpr with rx := some ⟨2, 3, [7]⟩ } };
      s.kpr.rx = some ⟨2, 3, [7]⟩ ∧ [7].length + [8, 9].length ≤ 3)
    ∧ (let s := { tKpr 0 0 with kpr := { (tKpr 0 0).kpr with rx := some ⟨2, 1, [7]⟩ } }; s.kpr.rx.isSome = true ∧ [7].length = 1)
    ∧ (let s := tKpr iSTAGED 0;
      s.trialSet = 0 ∧ s.armedSet 1 = 0 ∧ s.armedSet 2 = 0 ∧ ∀ i < 4, Nat.testBit 2 i = true → (s.bcr.typ (i + 1)).state = iSTAGED)
    ∧ (let s := tKpr iARMED 1; 2 = s.armedSet 1 + s.armedSet 2 ∧ s.kpr.swap = none) := by decide +kernel

theorem test_wit_TrialsAndSettings :
    (let s := { tKpr iTRIAL 0 with kpr := { (tKpr 0 0).kpr with winEnd := some (61 * 10 ^ 9) } };
      s.trialSet = 2 ∧ s.kpr.winEnd = some (61 * 10 ^ 9) ∧ s.tb.up ≤ 61 * 10 ^ 9 - 60 * 10 ^ 9)
    ∧ (let s := (tKpr 0 0).wr F.KPR_STATUS_LC lcPROV; (∀ j < 4, (s.keySlot j).prog = false) ∧ s.lc = lcPROV)
    ∧ (let s := tKpr 0 0; s.trialSet = 0 ∧ halfBytes (s.half s.bcr.setLive ++ [(5, [1, 2])]) ≤ halfMax) := by decide +kernel

/-- An armed set whose tick is due and one without a tick; a swap at each step. -/
theorem test_wit_Swaps :
    (let s := tKpr iARMED 2; s.kprServes = true ∧ s.inMode mRUN = true ∧ s.kpr.swap = none ∧ s.armedSet 2 ≠ 0 ∧ s.kpr.armTick = none)
    ∧ (let s := ({ tKpr iARMED 2 with kpr := { (tKpr 0 0).kpr with armTick := some 4 } }.wr F.CAD_STATUS_RUNNING 1).wr64 R.CAD_TICK 4;
      s.armedSet 2 ≠ 0 ∧ s.kpr.armTick = some 4 ∧ s.running = true ∧ 4 ≤ s.tick)
    ∧ (let w : Swap := { step := 5, back := false, set := 2, gal := 7 }
      let s := { tKpr 0 0 with kpr := { (tKpr 0 0).kpr with swap := some w } }.wr (F.GAL_STATUS_STATE.at 7) gSERVICE;
      s.kpr.swap = some w ∧ s.galState w.gal = gSERVICE) := by decide +kernel

/-! ### Every hypothesis of a statement is met: ports, OTN, interchange -/

/-- Port 145 in use at 100 Gb/s, aligned, ADMIN_UP, with UP_HOLD 0 and LINK as said. -/
def tPort (up : Nat) : State :=
  (((tRun.wr (F.LPT_CFG_SPEED.at 145) 2).wr (F.LPT_STATUS_ALIGNED.at 145) 1).wr (F.LPT_CTRL_ADMIN_UP.at 145) 1).wr (F.LPT_STATUS_LINK.at 145) up

theorem test_wit_Links :
    (tPort 1).inUse 145 = true ∧ (tPort 1).rawUp 145 = true ∧ (tPort 1).link 145 = true ∧ (tPort 0).link 145 = false
    ∧ ((tPort 1).wr (F.LPT_STATUS_HI_BER.at 145) 1).rawUp 145 = false
    ∧ ((tPort 1).wr (F.LPT_LINK_CFG_DOWN_HOLD.at 145) 0).rd (F.LPT_LINK_CFG_DOWN_HOLD.at 145) = 0
    ∧ ((tPort 1).wr (F.LPT_LINK_CFG_DOWN_HOLD.at 145) 1).rd (F.LPT_LINK_CFG_DOWN_HOLD.at 145) ≠ 0
    ∧ ((tPort 0).wr (F.LPT_LINK_CFG_UP_HOLD.at 145) 0).rd (F.LPT_LINK_CFG_UP_HOLD.at 145) = 0
    ∧ ((tPort 0).wr (F.LPT_LINK_CFG_UP_HOLD.at 145) 1).rd (F.LPT_LINK_CFG_UP_HOLD.at 145) ≠ 0
    ∧ ((tPort 0).pstUpd 145 (fun x => { x with downAt := some 1, upAt := some 2 })).pst 145 = { downAt := some 1, upAt := some 2 }
    ∧ (tPort 0).adminUp 145 = true ∧ ((tPort 0).hostPut (R.LPT_CTRL.at 145).addr 0).adminUp 145 = false ∧ tRun.adminUp 145 = false
    ∧ (tRun.hostPut (R.LPT_CTRL.at 145).addr 1).adminUp 145 = true := by decide +kernel

theorem test_wit_Attempts :
    (((tPort 0).pstUpd 145 (fun x => { x with att := .running })).pst 145).att = .running
    ∧ (((tPort 0).pstUpd 145 (fun x => { x with att := .waiting })).pst 145).att = .waiting
    ∧ ((tPort 0).wr (F.LPT_CFG_AN_EN.at 145) 1).usesAn 145 = true := by decide +kernel

/-- A frame of 60 bytes of zeros and its FCS; lengths at the ends; a MAC control frame. -/
theorem test_wit_Frames :
    (let s := tPort 1; let f := withFcs (zeros 60);
      s.receives 145 = true ∧ tRun.receives 145 = false ∧ f.length = 64 ∧ fcsGood f = true ∧ etherType (f.take (f.length - 4)) ≠ 0x8808
      ∧ fcsGood (zeros 64) = false ∧ s.ptpMode 145 = 0 ∧ 64 ≤ s.rd (F.LPT_MAC_CFG_MAX_LEN.at 145) ∧ s.adminUp 145 = true
      ∧ (s.wr (F.LPT_CTRL_ADMIN_UP.at 145) 0).receives 145 = true
      ∧ (s.wr (F.LPT_MAC_CFG_MAX_LEN.at 145) 64).rd (F.LPT_MAC_CFG_MAX_LEN.at 145) < 65)
    ∧ (let b := beB 6 0x0180C2000001 ++ zeros 6 ++ beB 2 0x8808 ++ beB 2 0x0101 ++ zeros 44; isPfc b = true ∧ etherType b = 0x8808)
    ∧ (tRun.wr (F.LPT_PFC_EN.at 143) 1).pfcOn 143 = true := by decide +kernel

theorem test_wit_Pfc :
    (let s := { tRun with pauses := [⟨143, 7, 0, 100⟩] };
      s.pauses.filter (fun x => x.port == 143 && x.pri == 7) ≠ [])
    ∧ (let s := ((tRun.wr (F.LPT_PFC_EN.at 143) 1).wr (F.LPT_STATUS_LINK.at 143) 1).pstUpd 143 (fun x => { x with pfcDue := 1, xoff := 1 });
      s.pfcOn 143 = true ∧ s.link 143 = true ∧ (s.pst 143).pfcDue ≠ 0 ∧ (s.pst 143).xoff ≠ 0)
    ∧ (let s := { tRun with pauses := [⟨143, 7, 0, 100⟩] }.wr (F.LPT_PFC_MAP_PRI_TC.at 143) (5 * 2 ^ 21); s.paused 143 5 = true) := by
  decide +kernel

/-- Group 17 in MODE 1 with interface 0 on 2 lanes, lanes 0 and 1 lost as `los` says. -/
def tOtn (los : Nat) : State :=
  (((tRun.wr (F.OTN_GRP_CFG_MODE.at 17) 1).wr (ifc F.OTN_IF_CFG_EN 17 0) 1).wr (ifc F.OTN_IF_CFG_N 17 0) 2).wr
    (ifc F.OTN_IF_STATUS_LANE_LOS 17 0) los

theorem test_wit_Otn :
    (tOtn 2).ifOfLane 17 1 = some 0 ∧ bitN ((tOtn 2).rd (ifc F.OTN_IF_STATUS_LANE_LOS 17 0)) 1 = true
    ∧ bitN ((tOtn 1).rd (ifc F.OTN_IF_STATUS_LANE_LOS 17 0)) 1 = false ∧ (tOtn 0).ifOn 17 0 = true
    ∧ (tOtn 0).aboveFas 17 0 = false ∧ ((tOtn 0).oifUpd 17 0 (fun x => { x with am := 3, fas := true })).aboveFas 17 0 = true
    ∧ (((tOtn 0).oifUpd 17 0 (fun x => { x with am := 3, fas := true })).oif 17 0).fas = true
    ∧ (tOtn 0).rd (ifc F.OTN_IF_STATUS_OOM 17 0) = 0
    ∧ (let s := { tRun with pm := mset (fun _ => {}) tRun.pm 272 { cur := { valid := true } } };
      (mget (fun _ => ({} : PmEnt)) s.pm 272).cur.valid = true) := by decide +kernel

/-- A switch with Cadence stopped, with a bad entry, with none; one in progress and one whose groups have all copied. -/
theorem test_wit_Interchange :
    (let u := tRun.hostPut R.TSI_CTRL.addr (0 ||| 1); u.rd F.TSI_STATUS_PENDING = 0 ∧ u.running = false)
    ∧ (let u := ((tRun.wr F.CAD_STATUS_RUNNING 1).wrw (R.TSI_STBY.at 5759).addr 0x80000000).hostPut R.TSI_CTRL.addr (0 ||| 1);
      u.running = true ∧ (u.tsiPage R.TSI_STBY.addr).find? (fun e => u.tsiCheck e.1 e.2 != 0) = some (5759, 0x80000000))
    ∧ (let u := (tRun.wr F.CAD_STATUS_RUNNING 1).hostPut R.TSI_CTRL.addr (0 ||| 1);
      (u.tsiPage R.TSI_STBY.addr).find? (fun e => u.tsiCheck e.1 e.2 != 0) = none)
    ∧ (let s := { tRun with tsi := { left := [143] } }.wr F.TSI_STATUS_PENDING 1;
      s.rd F.TSI_STATUS_PENDING ≠ 0 ∧ s.tsi.left.contains (17 * 8 + 7) = true ∧ s.inMode mLULL = false)
    ∧ (let s := tRun.wr F.TSI_STATUS_PENDING 1; s.rd F.TSI_STATUS_PENDING ≠ 0 ∧ s.tsi.left = []) := by decide +kernel

/-! ### Every hypothesis of a statement is met: classification, tables, batches -/

/-- A commands' state with slices 0 and 7 in the mask, an entry that matches everything in slice 0. -/
theorem test_wit_Classify :
    (let u := tRun.cmdPut R.CLS_IND_CMD 0xFFFFFFFF 1 1; u.rd F.CLS_IND_CMD_SLICE_MASK ≠ 0)
    ∧ (let u := tRun.cmdPut R.CLS_IND_CMD 0 1 3; u.rd F.CLS_IND_CMD_SLICE_MASK = 0)
    ∧ (let e := (tRun.wrw (R.CLS_IND_DATA.at 13).addr 0x09E00000).clsData; bitN e.action 59 = true ∧ bits e.action 58 53 = 15)
    ∧ (let e := (tRun.wrw (R.CLS_IND_DATA.at 13).addr 0x0A000000).clsData; bitN e.action 59 = true ∧ bits e.action 58 53 = 16)
    ∧ (let s := { tRun with cls := [(7 * 8192 + 8191, { valid := true })] }; let p : Pkt := { slice := 7 };
      s.clsSearch p.slice (s.clsKey p.port p.bytes p.hdrs p.faults) = some { valid := true } ∧ s.faultVerdict p.faults = .forward) := by decide +kernel

theorem test_wit_Acl :
    (let u := tRun.cmdPut R.ACL_IND_CMD 0xFFFFFFFF 2 1; u.rd F.ACL_IND_CMD_SLICE_MASK ≠ 0 ∧ bitN u.aclImage.action 62 = false)
    ∧ (let u := (tRun.wrw (R.ACL_IND_DATA.at 42).addr 0x50000000).cmdPut R.ACL_IND_CMD 0xFFFFFFFF 2 1;
      bitN u.aclImage.action 62 = true ∧ bits u.aclImage.action 61 56 = 16)
    ∧ (let u := tRun.cmdPut R.ACL_IND_CMD 0x80000000 2 4; ((u.aclSlot 0).aclStep 0 (u.aclWs 0 20) (aclCursor (u.aclW 43)) AclEnv.clean).2.hit = none)
    ∧ (let u := ({ tRun with acl := { ents := [(aclIx 0 5, { valid := true })] } }.wrw (R.ACL_IND_DATA.at 43).addr 0x80000000).cmdPut R.ACL_IND_CMD 0xFFFFFFFF 2 4;
      ((u.aclSlot 0).aclStep 0 (u.aclWs 0 20) (aclCursor (u.aclW 43)) AclEnv.clean).2.hit = some (5, { valid := true }))
    ∧ tRun.rd F.SVY_CNT_CFG_COR = 0 ∧ (tRun.wr F.SVY_CNT_CFG_COR 1).rd F.SVY_CNT_CFG_COR ≠ 0
    ∧ (let s := { tRun with acl := { repair := [7 * 16384] } }.wr F.ACL_SCRUB_EN 1;
      s.rd F.ACL_SCRUB_EN ≠ 0 ∧ s.acl.repair.find? (fun x => x / 16384 == 7) = some (7 * 16384)
      ∧ s.acl.repair.find? (fun x => x / 16384 == 6) = none) := by decide +kernel

/-- A staged image of one node and no body, with CRC `crc`. -/
def tPat (crc : Nat) : State := tRun.twPut (tRun.rd64 R.PAT_STAGE_BASE) [0x4543484F, 1, 0x28800001, 1, 1, 0, 0, 0, crc]

theorem test_wit_Pat :
    (let b := leB 4 0x4543484F ++ leB 4 1 ++ leB 4 0x28800001 ++ leB 4 1 ++ leB 4 1 ++ zeros 12
      let c := fcs (b ++ zeros 4 ++ zeros 28)
      let u := (tPat c).hostPut R.PAT_CTRL.addr (0 ||| 1);
      u.rd F.PAT_LOAD_SRC_OFS % 256 = 0 ∧ patCheck (u.stageBytes (u.rd F.PAT_LOAD_SRC_OFS)) (u.rd F.PAT_LOAD_SRC_OFS) = 0)
    ∧ tRun.rd F.PAT_STATUS_BUSY = 0
    ∧ (let u := (tRun.wr F.PAT_LOAD_SRC_OFS 128).hostPut R.PAT_CTRL.addr (0 ||| 1); u.rd F.PAT_LOAD_SRC_OFS % 256 ≠ 0)
    ∧ (let u := tRun.hostPut R.PAT_CTRL.addr (0 ||| 2); u.rd F.PAT_CTRL_AT_TICK = 0)
    ∧ (let u := tRun.hostPut R.PAT_CTRL.addr (0xFFFFFFF4 ||| 2); u.rd F.PAT_CTRL_AT_TICK ≠ 0 ∧ u.running = false)
    ∧ (let u := ((tRun.wr F.CAD_STATUS_RUNNING 1).wr64 R.PAT_SWAP_TICK 5).hostPut R.PAT_CTRL.addr (0xFFFFFFF4 ||| 2);
      u.rd F.PAT_CTRL_AT_TICK ≠ 0 ∧ u.running = true ∧ u.tickPassed (u.rd64 R.PAT_SWAP_TICK) = false)
    ∧ (let s := { tRun with echo := { load := some (1, 0) } }; s.echo.load = some (1, 0) ∧ s.echHeld 1 = 0)
    ∧ (let s := { tRun with echo := { swap := some (1, 0) } }.wr F.CAD_STATUS_RUNNING 1;
      s.echo.swap = some (1, 0) ∧ 0 ≤ s.tick ∧ s.running = true ∧ s.inMode mRUN = true) := by decide +kernel

/-- Command firmware that serves tether port 144, or in LULL, with table 0 in use for keys of 128 bits. -/
def tCmd (mode : Nat) : State :=
  (((((State.reset.wr F.MOD_STATUS_MODE mode).wr F.HST_STATUS_SERVING 1).wr (F.LPT_CTRL_TMGMT_EN.at 144) 1).wr (F.LPT_STATUS_LINK.at 144) 1).wr
    (F.TBL_EM_CFG_EN.at 0) 1).wr (F.TBL_EM_CFG_KEY_WIDTH.at 0) 128

/-- A command header from that port. -/
def tTet (n : Nat) : CmdHdr := { tHdr n with tether := some (0, 0) }

theorem test_wit_TakenCommands :
    (tCmd mRUN).canTake (tTet 40) = true ∧ (tCmd mLULL).canTake (tTet 40) = true ∧ ((tCmd mRUN).take (tTet 40)).inMode mLULL = false
    ∧ ((tCmd mLULL).take (tTet 40)).inMode mLULL = true
    ∧ (∀ n ∈ [16, 40, 56, 40 + contentLen 0, 104, 40 + contentLen 19, 40 + contentLen 18, 8, 0], (tTet n).lenOk n = true)
    ∧ (tTet 40).lenOk 41 = false ∧ (tTet 40).shortNeed = 40 ∧ (tTet 16).lenOk (tTet 16).shortNeed = true := by decide +kernel

/-- An insert that stages, one into a table not in use, and a second one of the same key. -/
theorem test_wit_Content :
    let u := (tCmd mRUN).take (tTet 52)
    let o (t : Nat) : BOp := ⟨.insert, t, 0, zeros 24, zeros 12, false⟩
    (u.stageOp (o 0) u.nextGen).2.1 = cOK ∧ (u.stageOp (o 15) u.nextGen).2.1 ≠ cOK
    ∧ ((u.stageOp (o 0) 1).1.stageOp (o 0) 2).2.1 ≠ cOK ∧ (u.stageOp (o 16) u.nextGen).2.1 = cOK
    ∧ (tArgs 16 24 []).batch = 0xFF ∧ { tArgs 16 24 [] with batch := 0 }.batch ≠ 0xFF
    ∧ u.emArgOk 0 (leN (zeros 24) 0 16) = true ∧ u.emFind 0 0 (leN (zeros 24) 0 16) u.genNow = none
    ∧ (let v := (u.stageOp (o 0) u.genNow).1;
      (v.emFind 0 0 (leN (zeros 24) 0 16) v.genNow).isSome = true) := by decide +kernel

/-- Entries of the four content tables: good images, FREE and ACTIVE states, the last index. -/
theorem test_wit_ContentTables :
    (let u := (tCmd mRUN).take (tTet 56);
      1048575 < entCount 17 ∧ imgOk 17 (zeros 16) = true ∧ u.entState 17 1048575 = 0
      ∧ (let v := u.setEntState (u.entAddr 17 0) 1; v.entState 17 0 = 1)
      ∧ (let v := u.setEntState (u.entAddr 17 0) 2; v.entState 17 0 ≠ 0))
    ∧ (let u := (tCmd mRUN).take (tTet 104);
      1048575 < entCount 18 ∧ imgOk 18 (zeros 64) = true ∧ u.entState 18 1048575 = 0
      ∧ (let v := u.setEntState (u.entAddr 18 0) 1; v.entState 18 0 = 1))
    ∧ 65535 < entCount 19 ∧ imgOk 19 (zeros 8) = true ∧ 1048575 < entCount 20 ∧ imgOk 20 (zeros 4) = true
    ∧ ((tCmd mRUN).take (tTet 48)).entState 19 0 = 0 := by decide +kernel

theorem test_wit_Batches :
    (let u := (tCmd mRUN).take (tTet 16); (List.range 16).find? (fun i => (u.batch i).isNone) = some 0
      ∧ u.queued.length < 8
      ∧ (let b : Batch := { id := 3, aon := false, hdr := tTet 16 }
        let v := { u with cmt := { batches := [b] } };
        v.batch 3 = some b ∧ b.submitted = false
        ∧ { u with cmt := { batches := [{ b with submitted := true }] } }.batch 3 = some { b with submitted := true }))
    ∧ (let q (n : Nat) : Batch := { id := n, aon := false, hdr := tTet 16, submitted := true }
      let b : Batch := { id := 8, aon := false, hdr := tTet 16 }
      let u := { (tCmd mRUN).take (tTet 16) with cmt := { batches := [q 0, q 1, q 2, q 3, q 4, q 5, q 6, q 7, b] } };
      u.batch 8 = some b ∧ 8 ≤ u.queued.length)
    ∧ (let b : Batch := { id := 15, aon := false, hdr := tTet 16, submitted := true, due := some 7, commitAt := 7 }
      let s := { tRun with cmt := { batches := [b] } }; s.batch 15 = some b ∧ b.due = some 7 ∧ 7 = b.commitAt ∧ 7 ≠ { b with commitAt := 6 }.commitAt)
    ∧ (let q : Single := ⟨⟨.insert, 0, 0, zeros 24, zeros 12, false⟩, 1, 5, some 5, tTet 52, 0x10, true, some 7⟩
      let s := { tRun with cmt := { singles := [{ q with due := none }, q] } };
      s.cmt.singles.find? (fun q => q.due.isSome) = some q ∧ q.due = some 7 ∧ 7 ≤ q.acceptedAt + 2 ∧ { q with acceptedAt := 4 }.acceptedAt + 2 < 7)
    ∧ (let s := { tRun with cmt := { settle := [(1, 0)] } }; s.cmt.settle = [(1, 0)])
    ∧ (let s := { tRun with cmt := { drainAt := [((0xFFFFF : BitVec 20).toNat * 2 + b2n true, some 0)] } }
      let a := s.adjAddr 0xFFFFF
      let t := s.setEntState a 2;
      mget (fun _ => (none : Option Nat)) t.cmt.drainAt ((0xFFFFF : BitVec 20).toNat * 2 + b2n true) = some 0
      ∧ bits (t.tw (t.adjAddr 0xFFFFF)) 31 30 = 2 ∧ t.inflight true 0xFFFFF = 0) := by decide +kernel

theorem test_wit_HostCommands :
    (({ tCmd mRUN with nvm := (tKpr iTRIAL 0).nvm } : State).take (tTet 0)).imgConfirm.status = mOK
    ∧ accessRefused 0xFFFFFFC 1 = none ∧ accessRefused 0xFFFFFFC 2 = some hBAD_ARG ∧ accessRefused 0 1025 = some hBAD_LEN
    ∧ mayRegWrite R.GLB_PART.addr = true ∧ mayRegWrite R.HST_STATUS.addr = false
    ∧ opKnown 0x0FFF = false ∧ (0x0100 : BitVec 16).toNat / 256 = 1 := by decide +kernel

/-! ### Every hypothesis of a statement is met: traffic management -/

/-- An enabled entry at every level from queue 0 to outlet 0, standalone, with credit for L5. -/
def tSch : State :=
  { tRun.wr F.SCH_TOPO_STANDALONE 1 with sq := {
      ents := (List.range 7).map (fun l => (sk l 0, { w0 := 2 ^ 31, disc := 1 }))
      voq := [(0, { granted := 100 })] } }

/-- A packet of a queue. -/
def tQPkt : QPkt := { p := { bytes := zeros 60 }, cells := 1, charge := 3, cls := 0, buf := 0 }

theorem test_wit_Select :
    (tRun.select.2 = none ∧ (tSch.enqueue 0 tQPkt).select.2 = some (0, tQPkt))
    ∧ (let d := (tSch.enqueue 0 tQPkt).select.1.depart 0 tQPkt; d.standalone = true)
    ∧ (let s := { tSch with sq := tSch.sq }.wr F.SCH_TOPO_STANDALONE 0
      let u := ({ s.wr (F.FAB_DEST_WIN.at 0) 49 with sq := tSch.sq }.enqueue 0 tQPkt).select;
      u.2 = some (0, tQPkt) ∧ (u.1.depart 0 tQPkt).standalone = false) := by decide +kernel

/-- An arrival without a stream, one that the filter of its stream drops, in a queue that is disabled or enabled. -/
theorem test_wit_Admit :
    (let p : Pkt := { bytes := zeros 60 }
      let s := tSch.admUpd (fun a => { a with arrive := [{ p := p }] })
      let a := s.admUpd (fun a => { a with arrive := [] });
      s.adm.arrive = [{ p := p }] ∧ (a.stream p).2 = some p ∧ ((a.stream p).1.sent 0 p.queue).en = true ∧ ((a.stream p).1.sent 0 1).en = false)
    ∧ (let s := tSch.stmPut 0 { w0 := 2 ^ 31 + 2 ^ 30 + 1, closed := true, oversize := true };
      (s.stream { bytes := zeros 60, stream := some 0 }).2 = none)
    ∧ (tSch.wr (F.ADM_PROF_MIN.at 0) 1).admitTest 1 0 0 0 0 = .charge 0
    ∧ (let s := tSch.wr (F.ADM_PORT_MIN.at 0) 1; s.admitTest 1 0 0 0 0 = .charge 1)
    ∧ (let s := tSch; s.admitTest 1 0 0 0 0 = .charge 3 ∧ s.admDt 1 0 0 0 0 = true)
    ∧ (let s := ((tSch.wr F.GLB_CAPS_TABLE_GIB 64).resvSet 268435456).wr (F.ADM_CLASS_LOSSLESS.at 7) 1;
      s.admS = 0 ∧ s.admitTest 1 0 0 0 0 = .drop ∧ (s.wr (F.ADM_PG_HDRM.at 7) 1).admitTest 1 0 0 7 0 = .charge 4) := by decide +kernel

/-- A push-out: class 7 over the tail of queue 0 in class 0, with two cells for one that is free. -/
theorem test_wit_Push :
    let s := (((((tSch.wr F.GLB_CAPS_TABLE_GIB 64).wr (F.ADM_CLASS_VICTIM.at 0) 1).wr (F.ADM_CLASS_PUSH.at 7) 1).wr (F.ADM_PROF_ALPHA_G.at 0) 15).charge
      3 1 0 0 0).enqueue 0 tQPkt
    (s.resvSet (268435456 - 2)).admitTest 2 1 0 7 0 = .push 0 0 := by decide +kernel

theorem test_wit_Egress :
    (let s := tRun.fabUpd (fun f => { f with arrive := [.loop tQPkt 399] }); s.fab.arrive = [.loop tQPkt 399])
    ∧ (let s := tPort 1; s.portTx 145 = true ∧ (s.egp 145).pick = none)
    ∧ (let s := (tPort 1).egEnter 145 7 { cells := 1, p := { bytes := zeros 60, egrPort := 145 } }
      let u := (foldS (List.range 8) (fun c s => s.egTrim 145 c ((s.eq 145 c).length + 1)) s).egSync 145;
      s.portTx 145 = true ∧ (u.egp 145).pick = some 7 ∧ (u.eqRest 145 7).length = 1)
    ∧ (let s := (tPort 1).egpUpd 145 (fun y => { y with mac := [{ bytes := zeros 60 }] });
      s.portTx 145 = true ∧ (s.egp 145).mac = [{ bytes := zeros 60 }])
    ∧ (let s := ((tPort 1).egEnter 145 7 { cells := 1, p := { bytes := zeros 60 } }).pstUpd 145 (fun x => { x with planned := [⟨7, 5⟩] });
      s.portTx 145 = true ∧ (s.egp 145).mac = [] ∧ (s.pst 145).planned = [⟨7, 5⟩] ∧ (s.eq 145 7).length = 1 ∧ s.pausedAt 145 7 5 = false
      ∧ ((s.eq 145 7).head?.map (·.plain)) = some false)
    ∧ (let s := (tRun.wr (F.ADM_EPORT_HOLDING.at 145) 1).pstUpd 145 (fun x => { x with fall := some 0 });
      (s.pst 145).fall = some 0 ∧ s.rd (F.ADM_EPORT_HOLDING.at 145) ≠ 0) := by decide +kernel

/-- Queue and node commands: a suspended and a running entry, a WRITE refused and one accepted, a flush and a rebuild. -/
theorem test_wit_Nodes :
    bits (0 : Word).toNat 25 8 < 262144 ∧ bits (0xFFFFFFFF : Word).toNat 27 12 = 65535 ∧ 65535 < schCount 1 ∧ 63 < schCount 6
    ∧ ((tSch.sentUpd 0 0 (fun e => { e with w0 := 3 * 2 ^ 30 })).sent 0 0).susp = true ∧ (tSch.sent 0 0).susp = false
    ∧ (let u := (tSch.wrr (R.QUE_IND_DATA.at 0) 0x80000001).cmdPut R.QUE_IND_CMD 0 2 1
      let c := schClean 0 (u.schW 0 0) (u.schW 0 1) (u.schW 0 2);
      u.schRefuse 0 0 { u.sent 0 0 with w0 := c.1, w1 := c.2.1, w2 := c.2.2 } = 2)
    ∧ (let u := (tRun.wrr (R.SCH_IND_DATA.at 0) 0).cmdPut R.SCH_IND_CMD 0x10000000 2 1
      let c := schClean 1 (u.schW 1 0) (u.schW 1 1) (u.schW 1 2);
      u.schRefuse 1 0 { u.sent 1 0 with w0 := c.1, w1 := c.2.1, w2 := c.2.2 } = 0)
    ∧ (let u := (tSch.enqueue 0 tQPkt).cmdPut R.SCH_IND_CMD 0x10000000 2 1
      let c := schClean 1 (u.schW 1 0) (u.schW 1 1) (u.schW 1 2);
      u.schRefuse 1 0 { u.sent 1 0 with w0 := c.1, w1 := c.2.1, w2 := c.2.2 } ≠ 0)
    ∧ (let s := { tSch with sq := { tSch.sq with flush := some 262143, rebuild := some (sk 6 63) } };
      s.sq.flush = some 262143 ∧ s.sq.rebuild = some (sk 6 63)) := by decide +kernel

theorem test_wit_Shapers :
    shpIndexOk 15 0 = false ∧ shpIndexOk 0 0 = true ∧ shpIndexOk 6 63 = true
    ∧ (let s := tRun.wrr (R.SHP_IND_DATA.at 2) 1
      let u := s.cmdPut R.SHP_IND_CMD 0 1 1;
      shpBad 0 (u.shpW 0) (u.shpW 1) (bits (u.shpW 2) 7 0) (bits (u.shpW 3) 2 1) = true)
    ∧ (let u := tRun.cmdPut R.SHP_IND_CMD 0 1 1;
      shpBad 0 (u.shpW 0) (u.shpW 1) (bits (u.shpW 2) 7 0) (bits (u.shpW 3) 2 1) = false) := by decide +kernel

/-- A list of one interval of 1 µs on an instance. -/
def tList : GList := { cycle := 1000, len := 1, ents := [(0, (1000, 0))] }

theorem test_wit_Gates :
    bits (0 : Word).toNat 31 30 < 2 ∧ gatIndexOk 0 0 0 true = true ∧ gatIndexOk 0 145 1023 true = true ∧ gatIndexOk 1 1023 63 true = true
    ∧ gatIndexOk 1 1024 0 true = false ∧ tList.ok (gateKey 0 145) = true ∧ ({} : GList).ok (gateKey 0 145) = false
    ∧ tRun.running = false ∧ (tRun.wr F.CAD_STATUS_RUNNING 1).running = true
    ∧ (let s := tRun.gateUpd (gateKey 1 5) (fun g => { g with pending := true });
      (s.gateI (gateKey 1 5)).pending = true ∧ (s.gateI (gateKey 1 5)).copyDue = false ∧ (s.gateI (gateKey 1 5)).due = none)
    ∧ (let s := tRun.gateUpd (gateKey 1 5) (fun g => { g with adm := tList, oper := tList, active := true, due := some 3, copyDue := true });
      (s.gateI (gateKey 1 5)).due = some 3 ∧ (s.gateI (gateKey 1 5)).copyDue = true ∧ (s.gateI (gateKey 1 5)).active = true)
    ∧ stmArgOk 0 0 0 0 = true ∧ stmArgOk 0x00004000 0 0 0 = false ∧ bits (0x80000000 : Word).toNat 31 30 = 2
    ∧ tRun.rd F.SVY_CNT_CFG_COR = 0 := by decide +kernel

/-! ### Every hypothesis of a statement is met: Tradewind, Survey, engine counters -/

/-- Fabric-attached in RUN with link 191 in state `st` and FAB state `f`. -/
def tFab (st : Nat) (f : FabState) : State := { (tRun.wr F.FAB_CFG_EN 1).wr (F.FAB_LINK_STATE.at 191) st with fab := f }

/-- The link whose turn it is. -/
def tNextLink (s : State) : Option Nat :=
  ((s.linksIn 3).filter (fun j => decide (s.fab.turn ≤ j)) ++ (s.linksIn 3).filter (fun j => decide (j < s.fab.turn))).head?

theorem test_wit_CellsSent :
    (tFab 3 {}).fabOn = true ∧ tNextLink (tFab 3 {}) = some 191 ∧ tNextLink (tFab 3 { turn := 192 }) = some 191
    ∧ (let s := tFab 3 { links := [(191, { again := [(255, {})] })] }; (s.flink 191).again = [(255, {})])
    ∧ (let s := tFab 3 { links := [(191, { unack := List.replicate 255 (0, {}) })] };
      (s.flink 191).again = [] ∧ 255 ≤ (s.flink 191).unack.length)
    ∧ ((tFab 3 {}).flink 191).again = [] ∧ ((tFab 3 {}).flink 191).unack.length < 255
    ∧ (tFab 3 { ctrl := [{}] }).fab.ctrl = [{}] ∧ ((tFab 3 { again := [{}] }).fab.ctrl = [] ∧ (tFab 3 { again := [{}] }).fab.again = [{}])
    ∧ (let s := tFab 3 { data := [{}] }; s.fab.ctrl = [] ∧ s.fab.again = [] ∧ s.fab.data = [{}])
    ∧ (let s := tFab 3 {}; s.fab.ctrl = [] ∧ s.fab.again = [] ∧ s.fab.data = []) := by decide +kernel

/-- A cell of 272 bytes of type `t` with LSEQ 0; `c` are the payload bytes that bring its check word to all ones. -/
def tCell (t c : Nat) : Bytes := beB 12 (t * 2 ^ 94) ++ beB 4 0xFFFFFFFF ++ (leB 4 c ++ zeros 252)

theorem test_crc_zeros (n : Nat) : (zeros n).foldl crcByte 0 = 0 := by
  induction n with
  | zero => rfl
  | succ n ih => simpa [zeros, List.replicate_succ, crcByte, crcBit] using ih

/-- A cell is good when its first 12 bytes and `c` give CRC 0. -/
theorem test_cell_check (t c : Nat) (h : (leB 4 c).foldl crcByte ((beB 12 (t * 2 ^ 94)).foldl crcByte 0xFFFFFFFF) = 0)
    (hn : (beB 12 (t * 2 ^ 94)).length = 12) : fcs ((tCell t c).take 12 ++ (tCell t c).drop 16) = 0xFFFFFFFF := by
  have h1 : (tCell t c).take 12 = beB 12 (t * 2 ^ 94) := by
    rw [tCell, List.append_assoc, List.take_append_of_le_length (by omega), List.take_of_length_le (by omega)]
  have h2 : (tCell t c).drop 16 = leB 4 c ++ zeros 252 := by
    have hm : (beB 12 (t * 2 ^ 94) ++ beB 4 0xFFFFFFFF).length = 16 := by rw [List.length_append, hn]; rfl
    rw [tCell, List.drop_append_of_le_length (by omega), List.drop_of_length_le (by omega)]; rfl
  rw [h1, h2, fcs, List.foldl_append, List.foldl_append, h, test_crc_zeros]; rfl

/-- Types 0, 1 and 3 in good cells: 0 is an IDLE cell, 3 is reserved. -/
theorem test_wit_GoodCells :
    (fcs ((tCell 0 2217359760).take 12 ++ (tCell 0 2217359760).drop 16) = 0xFFFFFFFF ∧ beN (tCell 0 2217359760) 12 4 = 0xFFFFFFFF)
    ∧ (fcs ((tCell 1 3024719456).take 12 ++ (tCell 1 3024719456).drop 16) = 0xFFFFFFFF ∧ beN (tCell 1 3024719456) 12 4 = 0xFFFFFFFF)
    ∧ (fcs ((tCell 3 3566133632).take 12 ++ (tCell 3 3566133632).drop 16) = 0xFFFFFFFF ∧ beN (tCell 3 3566133632) 12 4 = 0xFFFFFFFF) :=
  ⟨⟨test_cell_check _ _ (by decide +kernel) (by decide +kernel), by decide +kernel⟩,
    ⟨test_cell_check _ _ (by decide +kernel) (by decide +kernel), by decide +kernel⟩,
    ⟨test_cell_check _ _ (by decide +kernel) (by decide +kernel), by decide +kernel⟩⟩

theorem test_wit_CellsReceived :
    (tCell 1 0).length = 272 ∧ (tFab 2 {}).linkState 191 = 2 ∧ (tFab 3 {}).linkState 191 = 3
    ∧ byteN (tCell 0 0) 0 / 64 = 0 ∧ byteN (tCell 1 0) 0 / 64 = 1 ∧ byteN (tCell 3 0) 0 / 64 = 3
    ∧ ((tFab 3 {}).flink 191).got = 255 ∧ bits (beN (tCell 1 0) 0 12) 53 46 = (255 + 1) % 256
    ∧ (let s := tFab 3 { links := [(191, { got := 4 })] }; bits (beN (tCell 1 0) 0 12) 53 46 ≠ ((s.flink 191).got + 1) % 256) := by decide +kernel

theorem test_wit_Credit :
    (let s := { tFab 3 {} with sq := { (tSch.enqueue 0 tQPkt).sq with voq := [] } };
      (s.sent 5 0).en = true ∧ s.voqBacklog 0 ≠ 0 ∧ s.voqBacklog 0 ≠ (s.voqI 0).asked)
    ∧ (let s := ({ tFab 3 {} with fab := { eg := [(2047 * 512 + 399, { backlog := 1 })] } }.wr F.FAB_GRANT_CFG_CELLS 32).wr (F.FAB_EPORT_LIMIT.at 399) 32;
      s.grantRoom 399 = true ∧ (s.requesters 399).head? = some 2047)
    ∧ (let s := tFab 3 { rx := [(2047, { returned := 1 })] }; (s.frx 2047).returned ≠ (s.frx 2047).told)
    ∧ (let s := tFab 4 {}; s.linkState 191 = 4) ∧ (let s := tFab 2 { spares := 1 }; s.fab.spares ≠ 0 ∧ (s.linksIn 2).head? = some 191)
    ∧ (let s := { tRun with sq := { voq := [(511, { granted := 1, idleAt := some 0 })] } };
      (s.voqI 511).idleAt = some 0 ∧ (s.voqI 511).balance ≠ 0 ∧ s.standalone = false ∧ (s.wr F.SCH_TOPO_STANDALONE 1).standalone = true)
    ∧ (let s := { (tSch.wr F.FAB_GRANT_CFG_CELLS 32).wr (F.FAB_EPORT_LIMIT.at 0) 32 with sq := { (tSch.enqueue 0 tQPkt).sq with voq := [] } };
      s.standalone = true ∧ s.inMode mRUN = true ∧ s.grantRoom 0 = true ∧ s.l5For 0 = some 0 ∧ s.voqBacklog 0 ≠ 0) := by decide +kernel

theorem test_wit_Resequencing :
    (let s := (tFab 3 {}).wr (F.FAB_SRC_EN.at 2047) 1;
      s.on (F.FAB_SRC_EN.at 2047) = true ∧ s.on (F.FAB_SRC_EN.at 2046) = false
      ∧ (s.frx 2047).next = 0 ∧ (s.frx 2047).held = [] ∧ (s.frx 2047).cut = false
      ∧ 0 < ((s.wr (F.FAB_SRC_WIN.at 2047) 1).cnt R.FAB_CNT 8).rd (F.FAB_SRC_WIN.at 2047))
    ∧ (let s := tFab 3 { rx := [(2047, { next := 0xFFFF, held := [(3, some {})], gapAt := some 0 })] };
      (mget (fun _ => (none : Option FCell)) (s.frx 2047).held 3).isSome = true
      ∧ (s.frx 2047).gapAt = some 0 ∧ (s.frx 2047).lowest = some 4) := by decide +kernel

theorem test_wit_Survey :
    (let w := (tRun.wrr (R.SVY_IND_DATA.at 0) 0x2000003F).rdr (R.SVY_IND_DATA.at 0);
      bitN w 29 = true ∧ tRun.on (F.SVY_MIRROR_EN.at (bits w 5 0)) = false)
    ∧ (tRun.wr (F.SVY_MIRROR_EN.at 63) 1).on (F.SVY_MIRROR_EN.at 63) = true
    ∧ bitN (tRun.rdr (R.SVY_IND_DATA.at 0)) 29 = false ∧ ((tRun.hctx 65535).bank 0).win = 0
    ∧ (tRun.cmdPut R.SVY_IND_CMD 0 2 3).histLast = none
    ∧ ({ tRun.cmdPut R.SVY_IND_CMD 0 2 3 with svy := { live := true, last := some 4, win := 5 } } : State).histLast = some 4
    ∧ (let r : DumpRec := ⟨0, 0, 0, 0, 1, 0, false, [1, 2]⟩
      let s := ({ tRun with svy := { work := [(15, r)] } }.wr F.SVY_RING_CFG_EN 1).wr F.SVY_RING_CFG_LOG2_SIZE 16;
      s.svy.urgent = [] ∧ s.svy.work = [(15, r)] ∧ r.words.length / 2 ≤ s.svy.cntLeft ∧ s.dumpRoom r.len = true ∧ s.dumpPad r.len = 0
      ∧ { s with svy := { s.svy with urgent := [r] } }.svy.urgent = [r])
    ∧ (let s := ({ tRun with svy := { due := [1] } }.wr F.SVY_RING_CFG_EN 1).wr F.SVY_RING_CFG_LOG2_SIZE 16;
      s.svy.urgent = [] ∧ s.svy.work = [] ∧ s.svy.due = [1] ∧ s.svy.histLeft ≠ 0 ∧ s.dumpRoom 352 = true) := by decide +kernel

/-- Counter 63 of gallery 7 samples every event, with `n` samples waiting. -/
def tPmc (n : Nat) : State :=
  ({ (((tRun.wr (F.PMC_CTRL_RUN.at 7) 1).wr ((F.PMC_SEL_EN.on 7).at 63) 1).wr ((F.PMC_SEL_SAMPLE_EN.on 7).at 63) 1).wr64
    ((R.PMC_VAL.on 7).at 63) 1 with pmcSt := { fifo := [(7, List.replicate n 0)], runAt := [(7, some (1, 0))] } }).wr F.CAD_STATUS_RUNNING 1

/-- A sample that is due, a counter that counts cycles, and neither; the FIFO at its level and full. -/
theorem test_wit_Pmc :
    (∀ n ∈ [0, 126, 127, 255, 256], ((tPmc n).pmcFifo 7).length = n)
    ∧ (let s := (tPmc 0).wr ((F.PMC_SEL_EVENT.on 7).at 63) 1; { s with pmcSt := { s.pmcSt with due := [(7, 7, 7, 5)] } }.pmcSt.due.contains (7, 7, 7, 5) = true
      ∧ s.pmcSt.due.contains (7, 7, 7, 5) = false
      ∧ (pmcTimed (s.rd ((F.PMC_SEL_EVENT.on 7).at 63)) && s.on (F.PMC_CTRL_RUN.at 7) && s.on ((F.PMC_SEL_EN.on 7).at 63)
        && s.on ((F.PMC_SEL_SAMPLE_EN.on 7).at 63)) = true ∧ (tRun.on (F.PMC_CTRL_RUN.at 7)) = false)
    ∧ mget (fun _ => none) (tPmc 0).pmcSt.runAt 7 = some (1, 0) ∧ 0 ≤ (tPmc 0).tick ∧ (tPmc 0).running = true := by decide +kernel

/-! ### Every hypothesis of a statement is met: host interface, self-test -/

/-- MSI-X on, vector 255 mapped from source 245, as said of EVT_EN, the table's MASK and when it last sent. -/
def tMsi (en mask : Nat) (last : SMap (Option Nat)) (d3 : Bool) : State :=
  { (((tRun.wr (F.EVT_MAP_VECTOR.at 245) 255).wrr (R.EVT_EN.at 7) (en * 2 ^ 21)).wr (F.HST_MSIX_TABLE_MASK.at 255) mask).wr
      (F.EVT_VEC_CFG_HOLDOFF_US.at 255) 1 with pcie := { msixEn := true, d3hot := d3 }, ev := { lastMsg := last } }

theorem test_wit_Events :
    sourceExists 245 = true ∧ sourceExists 246 = false ∧ sourceExists 255 = false
    ∧ (let s := tMsi 1 0 [] false;
      s.evtPend 245 = false ∧ s.evtEn 245 = true ∧ s.rd (F.EVT_MAP_VECTOR.at 245) = 255 ∧ s.vecOpen 255 = true ∧ s.holdoffPassed 255 = true
      ∧ (s.raise 245).evtPend 245 = true)
    ∧ (tMsi 0 0 [] false).evtEn 245 = false ∧ (tMsi 1 1 [] false).vecOpen 255 = false
    ∧ (tMsi 1 0 [(255, some 0)] false).holdoffPassed 255 = false ∧ (tMsi 1 0 [] true).pcie.d3hot = true
    ∧ (let s := { tMsi 1 0 [] false with ev := { lastMsg := [(255, some 0)], deferred := [255] } };
      s.ev.deferred.contains 255 = true ∧ s.pcie.d3hot = false ∧ mget (fun _ => (none : Option Nat)) s.ev.lastMsg 255 = some 0
      ∧ (s.advanceUp (0 + s.rd (F.EVT_VEC_CFG_HOLDOFF_US.at 255) * 1000)).vecOpen 255 = true)
    ∧ (let s := { tMsi 1 1 [] false with ev := { lastMsg := [(255, some 0)], deferred := [255] } };
      (s.advanceUp (0 + s.rd (F.EVT_VEC_CFG_HOLDOFF_US.at 255) * 1000)).vecOpen 255 = false) := by decide +kernel

/-- A function that is unmasked, words of the host's blocks, a level source that is raised. -/
theorem test_wit_Function :
    tRun.inMode mDORMANT = false ∧ (tMsi 1 0 [] false).pcie.funcMask = false ∧ hostWord R.GLB_PART.addr = false
    ∧ hostWord R.HST_STATUS.addr = true ∧ hostLive (R.EVT_EN.at 0).addr = false ∧ (∀ w < 8, (R.EVT_EN.at 0).addr ≠ (R.EVT_PEND.at w).addr)
    ∧ 25 ∈ levelSources ∧ 240 ∈ levelSources := by decide +kernel

/-- Ring 71 of a legal size, of one that is not, and enabled. -/
def tRing (n en : Nat) : State := (tRun.wr (F.HST_RING_LOG2_SIZE.at 71) n).wr (F.HST_RING_EN.at 71) en

theorem test_wit_Rings :
    (let w := ((tRing 16 0).hostPut ((R.HST_RING.at 71).addr + 8) (0x00000010 ||| 0x80000000)).wr (F.HST_RING_EN.at 71) 0;
      w.ringSizeOk 71 = true)
    ∧ (let w := ((tRing 16 0).hostPut ((R.HST_RING.at 71).addr + 8) (0x0000000F ||| 0x80000000)).wr (F.HST_RING_EN.at 71) 0;
      w.ringSizeOk 71 = false)
    ∧ (tRing 16 1).on (F.HST_RING_EN.at 71) = true ∧ (tRing 16 0).on (F.HST_RING_EN.at 71) = false
    ∧ (let s := { tRing 16 1 with ring := { shadowDue := [71], shadowAt := [(71, some 0)] } };
      s.ring.shadowDue.contains 71 = true ∧ mget (fun _ => (none : Option Nat)) s.ring.shadowAt 71 = some 0)
    ∧ tRun.serves ((R.HST_RING.at 71).addr + 8) := by unfold State.serves; decide +kernel

theorem test_wit_Window :
    (let s := (tRun.wr F.GLB_CAPS_TABLE_GIB 64).wr64 R.PAT_STAGE_BASE 0; let a := s.rd F.HST_WIN_BASE_MIB * 2 ^ 20 + (0x1FFFFFF : BitVec 32).toNat;
      min 1 (s.tblSize - a) ≠ 0 ∧ s.winMay a = true ∧ s.winMay (a + 1) = false ∧ (∀ i < 1, s.winMay (a + i) = true))
    ∧ (let s := tRun.wr F.GLB_CAPS_TABLE_GIB 1; let a := s.rd F.HST_WIN_BASE_MIB * 2 ^ 20 + (0x40000000 : BitVec 32).toNat; min 4 (s.tblSize - a) = 0)
    ∧ (let s := tRun.galUpd 7 (fun y => { y with winBase := 2 ^ 36, winSize := 1 }); s.winMay (2 ^ 36) = true) := by decide +kernel

/-- The words of an inject record: type 1 or 0xFF, RECORD_LEN 128, a frame of 60 bytes to port 145. -/
def tInj (typ len : Nat) : Bytes := leB 4 (typ * 2 ^ 24 + len) ++ leB 4 60 ++ leB 4 145 ++ zeros 20 ++ zeros 96

theorem test_wit_Inject :
    (let s := ((tPort 1).wr (F.HST_RING_LOG2_SIZE.at 71) 16).wr (F.HST_RING_EN.at 71) 1;
      let t := s.wr (F.HST_RING_PROD.at 71) 128;
      t.injNext = some 71 ∧ t.ringSizeOk 71 = true ∧ (t.inMode mRUN = true) ∧ t.injLenOk 71 128 = true ∧ t.injLenOk 71 192 = false
      ∧ (injOf (tInj 1 128)).len = 128 ∧ bits (leN (tInj 0xFF 128) 0 4) 31 24 = 0xFF ∧ (tInj 1 128).length = 128
      ∧ bits (leN (tInj 1 128) 0 4) 31 24 = 1 ∧ t.injOk (injOf (tInj 1 128)) (tInj 1 128) = true
      ∧ t.injOk (injOf (tInj 1 64)) (tInj 1 64) = false) := by decide +kernel

theorem test_wit_EventFrameAndI2c :
    (let s := { ((((tPort 1).wr F.EVT_TMGMT_EN 1).wr (F.LPT_CTRL_TMGMT_EN.at 145) 1).wrr (R.EVT_EN.at 0) 1) with
        tmSrc := 1, ev := { tmRaised := 1 } };
      s.on F.EVT_TMGMT_EN = true ∧ s.on (F.LPT_CTRL_TMGMT_EN.at 145) = true ∧ s.link 145 = true ∧ s.tmSrc ≠ 0 ∧ s.tmDue = true ∧ s.ev.tmAt = none
      ∧ s.inMode mRUN = true)
    ∧ tRun.powered = true ∧ tRun.lc ≠ lcRET ∧ (tRun.wr F.KPR_STATUS_LC lcRET).lc = lcRET ∧ tRun.i2cPtr = 0 := by decide +kernel

theorem test_wit_GalleryTest :
    tRun.gtRefuse 0 false = 4 ∧ (tRun.wr (F.GAL_STATUS_STATE.at 0) gSERVICE).gtRefuse 7 false = 0
    ∧ (let s := { (tRun.wr (F.GAL_STATUS_STATE.at 0) gSERVICE).wr F.CAD_STATUS_RUNNING 1 with tb := { nextTick := 5 } }; s.gtRefuse 7 true = 0)
    ∧ { tRun with bist := { gt := some { g := 0, step := 3 } } }.gtRefuse 7 false = 1
    ∧ ((tRun.wr F.BIS_CFG_GTEST_AUTO_S 1).wr F.MOD_STATUS_KEEPER_UP 1).kprServes = true
    ∧ (tRun.wr F.BIS_CFG_GTEST_AUTO_S 1).rd F.BIS_CFG_GTEST_AUTO_S ≠ 0
    ∧ (let s := { tRun.wr F.CAD_STATUS_RUNNING 1 with bist := { gtAt := some (7, 0) } };
      s.bist.gtAt = some (7, 0) ∧ 0 ≤ s.tick ∧ s.running = true)
    ∧ (let s := tRun.wr (F.GAL_STATUS_STATE.at 7) gDRAINING; s.galState 7 = gDRAINING)
    ∧ (let s := tRun; s.gtBad ⟨[], [], []⟩ 7 = false ∧ bitN s.bist.gfail 7 = false ∧ s.gtBad ⟨[⟨28, false, 0⟩], [], []⟩ 7 = true)
    ∧ (tRun.wr (F.GAL_STATUS_STATE.at 7) gSERVICE).galState 7 = gSERVICE := by decide +kernel

theorem test_wit_SelfTest :
    (let s := { tRun.wr F.MOD_STATUS_MODE mPROBE with md := { probe := 5, probeCfg := 1 } };
      s.inMode mPROBE = true ∧ s.md.probe = 5 ∧ bitN s.md.probeCfg 0 = true)
    ∧ (let s := tRun.wr (F.BIS_HBM_STATUS_REMAP_USED.at 7) 64; let u := (s.cnt R.BIS_CNT 0x20).cnt (R.HBM_CNT.at 7) 0x18;
      64 ≤ u.rd (F.BIS_HBM_STATUS_REMAP_USED.at 7) ∧ tRun.rd (F.BIS_HBM_STATUS_REMAP_USED.at 7) < 64)
    ∧ tRun.serves R.BIS_GTEST_CTRL.addr ∧ tRun.serves R.BIS_FAIL_LOG.addr ∧ tRun.serves R.BIS_HBM_LOG.addr ∧ tRun.serves R.BIS_MEM_SEL.addr := by
  unfold State.serves; decide +kernel

/-- With the record of an uncorrectable error held. -/
def tEcc : State := (tRun.wr F.BIS_ECC_LOG_VALID 1).wr F.BIS_ECC_LOG_UE 1

theorem test_wit_Ecc :
    (let s := { tEcc with egr := [(399 * 8 + 7, [{ cells := 1 }])] }; let u := ((s.cnt R.BIS_CNT 8).eccLog 0 0 true).raise (eg 15 2);
      (u.eq ((399 * 8 + 7) / 8) ((399 * 8 + 7) % 8))[0]? = some { cells := 1 })
    ∧ (let u := (((tEcc.wr F.MOD_STATUS_KEEPER_UP 1).cnt R.BIS_CNT 8).eccLog 0 0 true).raise (eg 15 2); u.keeperUp = true) := by
  decide +kernel

/-! ### Every hypothesis of a statement is met: steps, encodings, reserved fields -/

/-- A step with a command that waits, and with none, from a state whose register file is in canonical form. -/
theorem test_wit_Steps :
    mwf regReset State.reset.regs = true ∧ State.reset.pending = []
    ∧ tGet (step { State.reset with pending := [.d3hotEntry] }) (fun t => (t.pcie.d3hot, t.pending)) = some (true, [])
    ∧ tGet (step State.reset) (fun t => t.pending) = some [] := by decide +kernel

theorem test_wit_DecodeAgree :
    (Instr.addi tD 1 2 3).iss = some tD ∧ (Instr.addi tD 1 2 3).wf = true ∧ (encodeEngine (.addi tD 1 2 3)).isSome = true
    ∧ (decodeEngine tV 0xFFFFFFFF).isSome = false ∧ (decodeEngine tV 0).isSome = true := by decide +kernel

/-- Reserved and unassigned offsets outside what is busy or refused early; the highest bit of GLB_STEP is in no field. -/
theorem test_wit_Reserved :
    (∀ a ∈ [0x0FFFFFFC, R.GLB_ERR_CNT.addr + 0x800], regRow a = none ∧ tRun.barBusy a = false ∧ tRun.barEarly a = false ∧ a % 4 = 0)
    ∧ (regRow R.GLB_PART.addr).isSome = true := by decide +kernel

/-! ### The clauses for other forms, faults, stalls and LULL -/

/-- The state in LULL. -/
def tLull (s : State) : State := s.wr F.MOD_STATUS_MODE mLULL

/-- All sixteen tokens in use, each complete. -/
def tFull (r : SMap Nat) : Thr := { tThr r with toks := (List.range 16).map (fun n => (n, some ⟨.off, 0, some 7⟩)) }

/-- A false guard on an instruction with a trait, a fetch beyond the code, an uncorrectable error in a read. -/
theorem test_wit_FaultsOfFetchAndRead :
    (let i := Instr.add tD 1 2 3; let s := tEng i { tThr [] with pc := 1 };
      i.iss = some tD ∧ i.wf = true ∧ s.canIssue 0 1 = true ∧ (s.galI 0).codeLen ≤ (s.thrOf tD).pc)
    ∧ (let d : Iss := ⟨tC, false, 0, true⟩; let i := Instr.add d 1 2 3; let s := tEng i (tThr []);
      i.iss = some d ∧ i.wf = true ∧ s.canIssue 0 1 = true ∧ (s.thrOf d).pc < (s.galI 0).codeLen
      ∧ engWord i = some (mget (fun _ => 0) (s.galI 0).code (s.thrOf d).pc) ∧ s.pd 0 1 0 ≠ false ∧ d.ecc = true)
    ∧ (Instr.reservedOpcode tD 0x0C400000).wf = true ∧ Instr.reservedOpcode tD 0x0C400000 ≠ .thrResume tD 1 := by decide +kernel

/-- A completion port that writes the same word, on a scratchpad store and on another. -/
theorem test_wit_LostStores :
    inScratch 0x8000 8 = true ∧ inScratch 0x100000 8 = false
    ∧ (let i := Instr.st tD 1 2 3 0 true; issues (tEng i (tThr [(2, 0x8000)])) tD i) := by unfold issues; decide +kernel

/-- The window and the metadata without a packet; metadata in LULL, of an egress packet, at indices that are none. -/
theorem test_wit_NoPacket :
    (let i := Instr.hwl tD 1 2 3 0; let s := tEng i (tThr [(2, 632)]); issues s tD i ∧ s.pktOf tD = none ∧ (s.greg tD 2 + 0) % 2 ^ 64 + 8 ≤ 640)
    ∧ (let i := Instr.hws tD 1 2 3 0; let s := tEng i (tThr []); issues s tD i ∧ s.pktOf tD = none)
    ∧ (let i := Instr.hwadj tD 1 2 0; let s := tEng i (tThr []);
      issues s tD i ∧ s.pktOf tD = none ∧ (BitVec.ofNat 64 (s.greg tD 2) + (0 : BitVec 12).signExtend 64).toInt = 0)
    ∧ (let i := Instr.hwadj tD 1 2 1; let s := tEng i (tThr []);
      issues s tD i ∧ s.pktOf tD = none ∧ (BitVec.ofNat 64 (s.greg tD 2) + (1 : BitVec 12).signExtend 64).toInt ≠ 0)
    ∧ (∀ i ∈ [Instr.mdl tD 1 0, .mds tD 1 4], let s := tEng i (tThr []); issues s tD i ∧ s.pktOf tD = none) := by
  unfold issues; decide +kernel

theorem test_wit_MetadataIndices :
    (let i := Instr.mds tD 1 1; let s := tLull (tEng i (tPkt 64 true [])); issues s tD i ∧ s.inMode mLULL = true ∧ (s.pktOf tD).isSome = true)
    ∧ (let i := Instr.mdl tD 1 0x20; let s := tEng i (tPkt 64 true []); issues s tD i ∧ (s.pktOf tD).map (·.egr) = some true)
    ∧ (let i := Instr.mdl tD 1 0x1B; let s := tEng i (tPkt 64 false []); issues s tD i ∧ (s.pktOf tD).map (fun k => s.mdRead k 0x1B) = some none)
    ∧ (let i := Instr.mdl tD 1 0x06; let s := tEng i (tPkt 64 true []); issues s tD i ∧ (s.pktOf tD).map (fun k => s.mdRead k 0x06) = some none)
    ∧ (let i := Instr.mds tD 1 1; let s := tEng i (tPkt 64 false []); issues s tD i ∧ s.inMode mLULL = false ∧ (s.pktOf tD).isSome = true) := by
  unfold issues; decide +kernel

/-- A buffer out of the scratchpad, a key block out of the data space, LULL, no free token, and a word of kind 6. -/
theorem test_wit_LookupFaultsAndStalls :
    (let i := Instr.lkpAdj tD 1 2 3; let s := tEng i (tThr [(3, 0x8001)]); issues s tD i ∧ bufFault (s.greg tD 3) 64 ≠ 0)
    ∧ (let i := Instr.lkpLpm tD 1 2 3; let s := tEng i (tThr [(2, 0x10FE9), (3, 0x8000)]);
      issues s tD i ∧ bufFault (s.greg tD 3) 8 = 0 ∧ (true && !inData 1 (s.greg tD 2) 24) = true)
    ∧ (let i := Instr.lkpEm tD 1 2 3 5; let s := tLull (tEng i (tThr [(2, 0x8000), (3, 0x8040)]));
      issues s tD i ∧ s.inMode mLULL = true ∧ (s.thrOf tD).freeTok = some 0 ∧ bufFault (s.greg tD 3) 32 = 0 ∧ inData 1 (s.greg tD 2) 24 = true)
    ∧ (let i := Instr.lkpNh tD 1 2 3; let s := tEng i (tFull [(3, 0x8040)]);
      issues s tD i ∧ bufFault (s.greg tD 3) 16 = 0 ∧ ∀ m < 16, (s.thrOf tD).tok m ≠ none)
    ∧ (∀ r ∈ [0x8000, 0x8001], let w : Word := 0b0_000_011110_00101_11110_11101_110_0000; let i := Instr.reservedOpcode tD w
      let s := tGal w.toNat 1 (tThr [(29, r)]);
      i.wf = true ∧ bits w.toNat 27 22 = 0x1E ∧ 0x60 ≤ bits w.toNat 6 0 ∧ (s.thrOf tD).freeTok = some 0 ∧ issues s tD i
      ∧ (bufFault (s.rg 0 1 (bits w.toNat 11 7)) 8 = 0 ↔ r = 0x8000)) := by unfold issues; decide +kernel

/-- A bad request; a slice with credit for its reads and one without; a miss, a hit that sets HIT; each DMA direction. -/
theorem test_wit_CompletionForms :
    (let r : LkpReq := ⟨0, 0, 5, 0, 0, 0, 0, 0x8000, true⟩;
      ((tEng (.fence tD) (tTok { req := .lkp r } [])).thrI 0 1).tok 3 = some { req := .lkp r } ∧ r.bad = true)
    ∧ (let r : LkpReq := ⟨0, 0, 5, 0, 0, 0, 0, 0x8000, false⟩
      let s := tEng (.fence tD) (tTok { req := .lkp r } [])
      let z : State := { s.wr F.TBL_BW_CFG_BURST 0 with look := { s.look with spent := (List.range 8).map (fun k => (k, (5, 0))) } }
      let e : EmEnt := ⟨true, 0, false, false, 0, 0, 0, 9, 0, 0, 5⟩
      let h := s.emWrite (((s.emSlots 0 0 5)).headD 0) e;
      r.bad = false ∧ (s.lkpReads 0 r).2 = true ∧ (z.lkpReads 0 r).2 = false ∧ (s.lkpReads 0 r).1.lkpFind r = none
      ∧ (h.lkpReads 0 r).2 = true ∧ ((h.lkpReads 0 r).1.lkpFind r).map (·.2.isSome) = some true)
    ∧ (∀ x ∈ [(0, 0), (2, 0), (3, 5 * 2 ^ 32), (4, 5 * 2 ^ 32)], let r : DmaReq := ⟨x.1, x.2, 0x8000, 64, false⟩
      let s := tEng (.fence tD) { tPkt 64 false [] with toks := [(3, some { req := .dma r })] };
      (s.thrI 0 1).tok 3 = some { req := .dma r } ∧ r.bad = false ∧ (s.thrI 0 1).pkt.isSome = true) := by decide +kernel

/-- An Echo request with an empty range, on a full queue, in LULL; Hoard and DMA in LULL; each DMA direction. -/
theorem test_wit_RequestForms :
    (let i := Instr.echoScanRequest tD 1 2 true
      let s := tEng i (tThr [(2, 0x8000)]);
      issues s tD i ∧ bufFault (s.greg tD 2) 24 = 0 ∧ leN (s.dataBytes tD (s.greg tD 2) 24) 4 2 = 0 ∧ s.inMode mLULL = false)
    ∧ (let i := Instr.echoStepRequest tD 1 2 true
      let s := ((((tEng i (tThr [(2, 0x8000)])).memWr 0 1 0x8000 4 0x100000).memWr 0 1 0x8004 2 12288).memWr 0 1 0x8008 2 3).wr F.PAT_CFG_QMAX 11
      let b := s.dataBytes tD (s.greg tD 2) 24;
      issues s tD i ∧ leN b 4 2 = 12288 ∧ (s.echoData tD true (leN b 0 4) 12288).isSome = true
      ∧ s.rd F.PAT_CFG_QMAX * 1024 < (s.ech 0).bytes + 12288)
    ∧ (∀ i ∈ [Instr.echoScanRequest tD 1 2 false, .hrdAlloc tD 1 2, .hrdFree tD 1 2, .hrdRef tD 1 2, .dmaTableToLocal tD 1 2,
        .dmaLocalToTable tD 1 2, .dmaCellToLocal tD 1 2, .dmaLocalToCell tD 1 2],
      let s := tLull (tEng i (tThr [(2, 0x8000)])); issues s tD i ∧ s.inMode mLULL = true ∧ inData 1 (s.greg tD 2) 16 = true
      ∧ (s.dmaReq tD 1 (s.dataBytes tD (s.greg tD 2) 16)).loc % 8 = 0 ∧ (s.dmaReq tD 2 (s.dataBytes tD (s.greg tD 2) 16)).remote % 8 = 0)
    ∧ (∀ i ∈ [Instr.hrdAlloc tD 1 2, .hrdFree tD 1 2, .hrdRef tD 1 2, .dmaPacketToLocal tD 1 2, .dmaLocalToTable tD 1 2,
        .dmaCellToLocal tD 1 2, .dmaLocalToCell tD 1 2], let s := tEng i (tThr [(2, 0x8000)]);
      issues s tD i ∧ s.inMode mLULL = false ∧ inData 1 (s.greg tD 2) 16 = true) := by unfold issues; decide +kernel

/-- A WAIT on a free token and on a number that is none, a mask with a free token, a mask of outstanding ones, no event fired. -/
theorem test_wit_WaitForms :
    (∀ v ∈ [4, 16], let i := Instr.waitToken tD 1 2; let s := tEng i (tThr [(2, v)]);
      issues s tD i ∧ (16 ≤ s.greg tD 2 ∨ (s.thrOf tD).tok (s.greg tD 2) = none))
    ∧ (let i := Instr.waitAny tD 1 2; let s := tEng i (tThr [(2, 0x8000)]);
      issues s tD i ∧ bitN (s.greg tD 2) 15 = true ∧ (s.thrOf tD).tok 15 = none)
    ∧ (let i := Instr.waitAny tD 1 2; let s := tEng i (tTok ⟨.off, 0, none⟩ [(2, 8)]); let x := s.thrOf tD;
      issues s tD i ∧ ∀ m < 16, bitN (s.greg tD 2) m = true → x.tok m ≠ none ∧ bitN x.tokDone m = false)
    ∧ (let i := Instr.waitEvent tD 1 2; let s := tEng i (tThr [(2, 15)]); issues s tD i ∧ s.eventsOf 0 1 &&& (s.greg tD 2 % 16) = 0)
    ∧ (let i := Instr.time tD 1 4; let s := tEng i (tThr []); issues s tD i ∧ s.pktOf tD = none) := by unfold issues; decide +kernel

/-- READY with a packet, the others without, PUNT of a reserved reason, SEND in LULL with the link up and down, tokens outstanding. -/
theorem test_wit_PacketForms :
    (let i := Instr.pktReady tD; let s := tEng i (tPkt 64 false []); issues s tD i ∧ s.pktOf tD ≠ none)
    ∧ (∀ i ∈ [Instr.pktSend tD, .pktDrop tD, .pktPunt tD 0], let s := tEng i (tThr []); issues s tD i ∧ s.pktOf tD = none)
    ∧ (let i := Instr.pktPunt tD 15; let s := tEng i (tPkt 64 false []); issues s tD i ∧ s.pktOf tD ≠ none ∧ (15 : BitVec 6).toNat < 16)
    ∧ (let i := Instr.pktSend tD; let s := tLull (tEng i { tPkt 64 false [] with pkt := some { p := { bytes := zeros 64, port := 144 }, egr := false, handle := 1, hw0 := 64, hwLen := 64 } });
      issues s tD i ∧ (s.thrOf tD).tokBusy = 0 ∧ s.inMode mLULL = true ∧ s.link 144 = false
      ∧ (s.wr (F.LPT_STATUS_LINK.at 144) 1).link 144 = true ∧ isTether 144 = true)
    ∧ (let i := Instr.pktDrop tD; let s := tEng i { tPkt 64 false [] with toks := [(3, some { req := .off })] };
      issues s tD i ∧ s.pktOf tD ≠ none ∧ (s.thrOf tD).tokBusy ≠ 0) := by unfold issues; decide +kernel

/-- Supervisor registers on a worker, read-only ones, indices that are none; the selected thread running. -/
theorem test_wit_SpecialForms :
    (∀ i ∈ [Instr.notePop tD 1, .mts tD 1 0x12, .mts tD 1 0x16, .mfs tD 1 9, .mfs tD 1 0x20, .mts tD 1 0x0F, .mts tD 1 8],
      issues (tEng i (tThr [])) tD i)
    ∧ (let d : Iss := ⟨⟨0, 0, 0⟩, false, 0, false⟩; let i := Instr.mfs d 1 0x18; issues (tSup i (tThr [])) d i ∧ d.c.ix = 0)
    ∧ (let d : Iss := ⟨⟨0, 0, 0⟩, false, 0, false⟩;
      ∀ x ∈ [(Instr.thrResume d 2, 1), (.thrSkip d 2, 2), (.thrJump d 2, 3), (.thrRestart d 2, 4), (.thrRegWrite d 2, 9), (.reclaim d 2, 2)],
        let s := (tSel x.1 x.2 1).thrUpd 0 1 (fun y => { y with run := .ready });
        issues s d x.1 ∧ (s.thrI 0 1).halted = false ∧ s.greg d 2 = x.2) := by unfold issues; decide +kernel

/-- A thread that the debugger halted ready and one it did not halt; a packet with an Echo action, its queue with room and full. -/
theorem test_wit_DebugAndEchoInput :
    ((tEng (.fence tD) { tThr [] with run := .haltD, was := .ready }).thrI 0 1).was = .ready
    ∧ ((tEng (.fence tD) { tThr [] with run := .haltF }).thrI 0 1).run ≠ .haltD
    ∧ (let k := 1
      let x : GIn := { p := { bytes := zeros 64, echo := some k, hdrs := [⟨1, 0, 14⟩] }, egr := false, slice := 0, at_ := 5 }
      let s := { (tEng (.fence tD) (tThr [])).wr (F.PAT_PROF_MAXLEN.at 1) 50 with galIn := [x] }
      let z := (s.wr F.PAT_CFG_QMAX 0).wr F.PAT_CFG_OVF_ACT 1;
      s.nextArrival 0 = some x ∧ s.galState 0 = gSERVICE ∧ (s.ech 0).bytes + ((s.scanRange k x.p).getD []).length ≤ s.rd F.PAT_CFG_QMAX * 1024
      ∧ z.rd F.PAT_CFG_QMAX * 1024 < (z.ech 0).bytes + ((z.scanRange k x.p).getD []).length ∧ (z.echSkip 0).on F.PAT_CFG_OVF_ACT = true) := by
  decide +kernel

/-- A packet's scan whose packet waits for dispatch, and one whose thread has its Echo token outstanding; a cursor, no start. -/
theorem test_wit_PacketScans :
    let j : EchoJob := ⟨0, 0, some 1, 0, [1], none, false, 0⟩
    let s := (tEng (.fence tD) (tThr [])).echPut 0 { jobs := [j] }
    let t := (tEng (.fence tD) { tPkt 64 false [] with toks := [(2, some { req := .echo })] }).echPut 0 { jobs := [j] };
    (s.ech 0).jobs = [j] ∧ s.handleThr 0 1 = none ∧ t.handleThr 0 1 = some 1
    ∧ ((t.thrI 0 1).toks.find? (fun e => match e.2 with
      | some { req := .echo, discard := _, done := none } => true | _ => false)).isSome = true := by decide +kernel

/-! ### The clauses for other forms: time, modes, the Keeper -/

/-- An access to ACL's block with a mask and without. -/
theorem test_wit_AclBadOp :
    5 < bits (6 : Word).toNat 2 0
    ∧ (tRun.hostPut R.ACL_IND_CMD.addr 6).rd F.ACL_IND_CMD_SLICE_MASK = 0 ∧ (tRun.hostPut R.ACL_IND_CMD.addr 0xFFFFFFFF).rd F.ACL_IND_CMD_SLICE_MASK ≠ 0
    ∧ 5 < bits (0xFFFFFFFF : Word).toNat 2 0 := by decide +kernel

/-- A slew with nothing left and with a unit left, the least time for either; a time-set out of range and one in range that
Cadence forbids. -/
theorem test_wit_SlewsAndTimeSets :
    (let s := tRun.wr F.WRS_STATUS_SLEWING 1;
      s.rd F.WRS_STATUS_SLEWING ≠ 0 ∧ s.tb.slewLeft.natAbs ≤ 0 * s.slewRate)
    ∧ (let s := { tRun.wr F.WRS_STATUS_SLEWING 1 with tb := { tRun.tb with slewLeft := -1 } };
      s.tb.slewLeft.natAbs ≤ 1 * s.slewRate ∧ ¬s.tb.slewLeft.natAbs ≤ 0 * s.slewRate)
    ∧ 10 ^ 9 ≤ ((tRun.wr F.WRS_TIME_SET_NANOSECONDS (10 ^ 9)).hostPut R.WRS_SET_CTRL.addr 1).rd F.WRS_TIME_SET_NANOSECONDS
    ∧ (let u := (tRun.wr F.CAD_CTRL_EN 1).hostPut R.WRS_SET_CTRL.addr 1; let x := u.wr F.WRS_SET_CTRL_GO 0;
      u.rd F.WRS_SET_CTRL_GO = 0 ∧ u.rd F.WRS_TIME_SET_NANOSECONDS < 10 ^ 9 ∧ u.rd F.WRS_SET_CTRL_AT_PPS = 0 ∧ x.rd F.CAD_CTRL_EN ≠ 0
      ∧ x.rd F.WRS_CTRL_STEP_EN = 0)
    ∧ tRun.rd F.WRS_STATUS_DPLLA_STATE ≠ dACQUIRE ∧ tRun.rd F.WRS_STATUS_DPLLB_STATE ≠ dACQUIRE := by decide +kernel

/-- The first edge of an input and one that continues; references seen and not. -/
theorem test_wit_References :
    (tRun.ppsLast 0 = none ∧ tRun.refSeen 0 = none)
    ∧ (let s := { tRun.refSee 0 (some 0) with tb := { (tRun.refSee 0 (some 0)).tb with ppsAt := [(0, some 0)] } };
      s.ppsLast 0 = some 0 ∧ s.refSeen 0 = some 0 ∧ ¬(0 + 15 * 10 ^ 8 < s.tb.up))
    ∧ (tRun.refSee 4 (some 7)).refSeen 4 = some 7
    ∧ (let s := (tRun.wr F.WRS_CTRL_DPLLA_PREF 1).wr F.WRS_STATUS_REF_OK 1; let x := (s.refSee 0 none).setRef 0 false;
      x.ppsA = some 0 ∧ x.rd F.WRS_CTRL_PPS_FALLBACK ≠ 0 ∧ x.refOk 1 = false) := by decide +kernel

/-- Results of a lane recalibrated again before the tick, and of another. -/
theorem test_wit_Recalibration :
    let s := { tRun.wr F.WRS_CAL_EN 1 with tb := { tRun.tb with calNext := [⟨3, 1, 2⟩, ⟨5, 3, 4⟩] } };
    s.inMode mDORMANT = false ∧ s.rd F.WRS_CAL_EN ≠ 0
    ∧ (tGet (exec (.backgroundRecal [⟨5, 9, 9⟩]) s) (fun t => t.tb.calNext)) = some [⟨3, 1, 2⟩, ⟨5, 9, 9⟩] := by decide +kernel

/-- PROBE and RESTART during a transition, RESTART in SAFEHOLD, and their codes when refused; a command overtaken needs nothing. -/
theorem test_wit_ModeForms :
    (let s := tRun.wr F.MOD_STATUS_PHASE 1;
      s.inMode mDORMANT = false ∧ s.rd F.MOD_STATUS_PHASE ≠ 0 ∧ s.modRefuse 3 false = 0 ∧ s.modRefuse 4 false = 0)
    ∧ (let s := tRun.wr F.MOD_STATUS_MODE mSAFEHOLD; s.inMode mSAFEHOLD = true ∧ s.modRefuse 4 false = 0 ∧ s.rd F.MOD_STATUS_PHASE = 0)
    ∧ (∀ x ∈ [(mLULL, 1, 1), (mRUN, 1, 10), (mDORMANT, 4, 1), (mSAFEHOLD, 5, 1)], (tRun.wr F.MOD_STATUS_MODE x.1).modRefuse x.2.1 false = x.2.2)
    ∧ ((tRun.wr F.MOD_THERM_STATUS_TRIP 1).modRefuse 4 true = 9 ∧ tRun.modRefuse 4 true = 3)
    ∧ (0 : BitVec 4) = 0 ∧ 5 < (15 : BitVec 4).toNat
    ∧ (let s := (tRun.wr F.MOD_STATUS_MODE mLULL).wr F.MOD_STATUS_PHASE 1; s.rd F.MOD_STATUS_PHASE ≠ 0 ∧ s.inMode mDORMANT = false) := by
  decide +kernel

/-- An image body of one section of type 0x40 that holds `sec`, KEY_SEL `sel`: a token. -/
def tToken (sel : Nat) (sec : Bytes) : Bytes :=
  zeros 13 ++ [BitVec.ofNat 8 sel] ++ zeros 42 ++ leB 2 1 ++ zeros 54 ++ leB 4 0x40 ++ leB 4 0 ++ leB 4 sec.length ++ leB 4 0
    ++ zeros (0x2000 - 0x80) ++ sec

/-- A host request of `code` with `args` (whole words) pending in life cycle `l`, under a challenge of zeros, with tokens held. -/
def tReq (code l : Nat) (args : List Nat) (t : List Bytes) : State :=
  let s := ((((tKpr 0 0).wr F.KPR_MBX_STATUS_PENDING 1).wr (F.KPR_MBX_REQ_DATA.at 0) code).wr (F.KPR_MBX_REQ_DATA.at 1) (4 * args.length)).wr
    F.KPR_STATUS_LC l
  let u := foldS ((List.range args.length).zip args) (fun x s => s.wr (F.KPR_MBX_REQ_DATA.at (4 + x.1)) x.2) s
  { u with kpr := { u.kpr with tokens := t, nonce := zeros 32 } }

/-- A token for request `code` with `args`. -/
def tAuth (code sel : Nat) (args : Bytes) : Bytes := tToken sel (leB 4 code ++ zeros 32 ++ args)

/-- Owner slots 0 and 1 programmed. -/
def tKeys (s : State) : State := (s.keyUpd 0 (fun _ => ⟨true, false, 5⟩)).keyUpd 1 (fun _ => ⟨true, false, 6⟩)

theorem test_wit_TokensHeld (code l : Nat) (args : List Nat) (t : List Bytes) : (tReq code l args t).kpr.tokens = t := rfl

theorem test_wit_Tokens :
    (∀ x ∈ [(0x0D, lcBLANK), (0x0D, lcRET), (0x10, lcRET), (0x13, lcPROV)],
      let t := tAuth x.1 0 []
      let s := tReq x.1 x.2 [] [t];
      s.kprServes = true ∧ s.rd F.KPR_MBX_STATUS_PENDING ≠ 0 ∧ s.mbxFormat = true ∧ s.mbxWord 0 % 256 = x.1 ∧ s.lc = x.2
      ∧ s.rd F.KPR_LC_RETURNS < 3 ∧ s.tokenOk x.1 s.mbxPayload isMaker t = true)
    ∧ (∀ x ∈ [(0x0E, lcPROV), (0x10, lcFIELD)], let t := tAuth x.1 2 []; let s := tKeys (tReq x.1 x.2 [] [t]);
      s.lc = x.2 ∧ s.tokenOk x.1 s.mbxPayload (s.isOwner none) t = true)
    ∧ (let t := tAuth 0x12 2 (leB 4 0); let s := tKeys (tReq 0x12 lcFIELD [0] [t]);
      s.mbxPayload = leB 4 0 ∧ s.keyLive 0 = true ∧ s.keyLive 1 = true ∧ s.tokenOk 0x12 s.mbxPayload (s.isOwner (some 0)) t = true)
    ∧ (let t := tAuth 0x0F 0 []; let u := tAuth 0x0F 1 []; let s := tKeys (tReq 0x0F lcFIELD [] [t, u]);
      s.lc = lcFIELD ∧ s.tokenOk 0x0F s.mbxPayload isMaker t = true
      ∧ s.tokenOk 0x0F s.mbxPayload (s.isOwner none) u = true ∧ s.inMode mRUN = true) := by decide +kernel

/-- A request of a core that finds one of the host's pending, and none of its own waiting; key programming in PROV. -/
theorem test_wit_MailboxForms :
    (let s := { tReq 1 lcBLANK [] [] with kpr := { (tKpr 0 0).kpr with fwUp := true } };
      s.kprServes = true ∧ s.kpr.fwUp = true ∧ s.rd F.KPR_MBX_STATUS_PENDING ≠ 0 ∧ s.kpr.wait = [])
    ∧ (let s := tReq 0x11 lcPROV (3 :: List.replicate 12 0) [];
      s.mbxPayload = leB 4 3 ++ beB 48 0 ∧ s.lc = lcPROV ∧ ∀ j < 4, (s.keySlot j).prog = false) := by decide +kernel

/-- Payloads of the image, trial and settings requests, of the host and of a core. -/
theorem test_wit_KeeperRequests :
    (let s := tReq 0x02 lcBLANK [2, 2 ^ 20] []; s.mbxPayload = leB 4 2 ++ leB 4 (2 ^ 20) ∧ 2 ^ 20 ≤ imgMax 2 ∧ (s.bcr.typ 2).state < 2)
    ∧ (let s := tReq 0x02 lcBLANK [5, 100] []; s.mbxPayload = leB 4 5 ++ leB 4 100 ∧ 100 ≤ imgMax 5)
    ∧ (let rx : ImgRx := ⟨2, 8, [1, 2, 3, 4]⟩
      let s := tReq 0x03 lcBLANK [4, 7] []
      let u := { s with kpr := { s.kpr with rx := some rx } };
      u.kpr.rx = some rx ∧ u.mbxPayload = leB 4 rx.data.length ++ leB 4 7 ∧ rx.data.length + 4 ≤ rx.total)
    ∧ (let u := { tKpr iSTAGED 0 with kpr := { (tKpr 0 0).kpr with fwUp := true } };
      u.rd F.KPR_MBX_STATUS_PENDING = 0 ∧ u.kpr.fwUp = true ∧ (leB 4 2 ++ leB 4 1 ++ zeros 12).length ≤ 4080 ∧ u.trialSet = 0
      ∧ u.armedSet 1 = 0 ∧ u.armedSet 2 = 0 ∧ ∀ i < 4, Nat.testBit 2 i = true → (u.bcr.typ (i + 1)).state = iSTAGED)
    ∧ (let s := (tKpr iSTAGED 0).wr F.CAD_STATUS_RUNNING 1
      let u := { s with nvm := { s.nvm with img := [(5, some (zeros 14 ++ leB 2 1))] } };
      u.warmOk = true ∧ u.inactive 2 = 1 ∧ leN (u.imgAt 2 (u.inactive 2)) 0x0E 2 % 2 = 1)
    ∧ (let u := tKpr iARMED 2; 2 = u.armedSet 1 + u.armedSet 2 ∧ u.kpr.swap = none)
    ∧ (let u := tKpr iTRIAL 0; u.trialSet ≠ 0 ∧ u.inMode mPROBE = false)
    ∧ (let s := tReq 0x0A lcBLANK [5, 0, 0, 0, 0] []; s.mbxPayload = leB 16 5 ++ leB 4 0)
    ∧ (let s := tReq 0x0B lcBLANK [5, 0, 0, 0, 9] [];
      s.mbxPayload = leB 16 5 ++ leB 4 9 ∧ s.trialSet = 0 ∧ halfBytes (s.half s.bcr.setLive ++ [(5, leB 4 9)]) ≤ halfMax) := by decide +kernel

/-- A swap at each step, back and forth, with its galleries reloaded. -/
theorem test_wit_SwapForms :
    ∀ n ∈ [1, 2, 3, 4], ∀ b ∈ [false, true],
      let w : Swap := { step := n, back := b, set := 2 }
      ({ tKpr 0 0 with kpr := { (tKpr 0 0).kpr with swap := some w } } : State).kpr.swap = some w ∧ w.step = n ∧ w.back = b := by decide +kernel

/-! ### The clauses for other forms: ports, OTN, interchange, tables -/

/-- A PTP Sync with a bad FCS on a tether in MODE 3, one that goes on and one whose bypass sends idles; management frames. -/
theorem test_wit_FrameForms :
    (let b := zeros 12 ++ beB 2 0x88F7 ++ zeros 46
      let s := (tPort 1).wr (F.WRS_PORT_PTP_MODE.at 145) 3
      let f := b ++ zeros 4;
      s.receives 145 = true ∧ f.length = 64 ∧ fcsGood f = false ∧ (s.ptpMode 145 = 3) ∧ s.adminUp 145 = true
      ∧ (ptpHdr (s.parse b).1).map (fun h => ptpEvent b (s.parse b).1 h) = some true ∧ (s.lpt 145 2).inMode mRUN = true
      ∧ (s.lpt 145 2).byIdles 145 = false ∧ ((s.wr (fBypEn 1) 1).lpt 145 2).byIdles 145 = true ∧ s.inMode mRUN = true)
    ∧ (let b := beB 6 7 ++ zeros 6 ++ beB 2 0x88B6 ++ zeros 46
      let s := ((tPort 1).wr (F.LPT_CTRL_TMGMT_EN.at 145) 1).wr64 (R.LPT_STATION_ADDR.at 145) 7;
      fcsGood (withFcs b) = true ∧ etherType b = 0x88B6 ∧ s.rd (F.LPT_CTRL_TMGMT_EN.at 145) ≠ 0 ∧ s.link 145 = true
      ∧ beN b 0 6 = s.rd64 (R.LPT_STATION_ADDR.at 145)) := by decide +kernel

/-- Packet channel 0 of group 0 over interface 0 in lock: it receives in RUN; a good frame and one of a control type. -/
def tChan : State :=
  let s := (((((tRun.wr (F.OTN_GRP_CFG_MODE.at 0) 3).wr (ifc F.OTN_IF_CFG_EN 0 0) 1).wr (pcf F.OTN_PC_CFG_EN 0 0) 1).wr
    (pcf F.OTN_PC_CFG_COUNT 0 0) 1)).oifUpd 0 0 (fun x => { x with run := true, am := 1, lol := true, fas := true, mfas := true })
  s

theorem test_wit_PacketChannels :
    tChan.receives 256 = true ∧ tChan.pcOn 0 0 = true ∧ 146 ≤ 256 ∧ (withFcs (zeros 60)).length = 64 ∧ fcsGood (withFcs (zeros 60)) = true
    ∧ tChan.inMode mRUN = true ∧ etherType (zeros 60) ≠ 0x8808 ∧ etherType (zeros 12 ++ beB 2 0x8808 ++ zeros 46) = 0x8808 := by decide +kernel

/-- A class paused for more than 100 ms and one whose pause has ended by then; a port that may start a frame. -/
theorem test_wit_PauseForms :
    (let s := { tRun with pauses := [⟨143, 7, 0, 10 ^ 9 * 65536⟩], pauseSince := [(143 * 8 + 5, some 0)] }.wr (F.LPT_PFC_MAP_PRI_TC.at 143) (5 * 2 ^ 21);
      s.pausedSince 143 5 = some 0 ∧ (s.advanceTo ((0 + 10 ^ 8 * 65536 + 1) * tuFrac)).paused 143 5 = true)
    ∧ (let s := { tRun with pauseSince := [(143 * 8 + 5, some 0)] };
      s.pausedSince 143 5 = some 0 ∧ (s.advanceTo ((0 + 10 ^ 8 * 65536 + 1) * tuFrac)).paused 143 5 = false)
    ∧ (let s := (((tRun.wr (F.LPT_CFG_SPEED.at 143) 2).wr (F.LPT_STATUS_ALIGNED.at 143) 1).wr (F.LPT_CTRL_ADMIN_UP.at 143) 1).wr (F.LPT_STATUS_LINK.at 143) 1
      let u := (s.wr (F.LPT_PFC_EN.at 143) 1).pstUpd 143 (fun x => { x with pfcRel := 2, xoff := 1 });
      u.pfcOn 143 = true ∧ u.mayStartFrame 143 = true ∧ (u.pst 143).pfcRel ≠ 0 ∧ (u.pst 143).xoff ≠ 0) := by decide +kernel

/-- A framer that runs and one that does not; each process, in MODE 1 and in MODE 3. -/
theorem test_wit_OtnForms :
    ((tOtn 0).oif 17 0).run = false
    ∧ (let s := (tOtn 0).oifUpd 17 0 (fun x => { x with run := true, am := 3, fas := true, mfas := true });
      (s.oif 17 0).run = true ∧ s.grpMode 17 ≠ 3 ∧ 1 < s.ifLanes 17 0 ∧ bitN (s.rd (ifc F.OTN_IF_STATUS_LANE_LOS 17 0)) 1 = false
      ∧ bitN (s.oif 17 0).am 1 = true ∧ s.aboveFas 17 0 = true ∧ (s.oif 17 0).mfas = true ∧ s.sliceSeen 17 0 1 = true)
    ∧ (let s := tChan; s.grpMode 0 = 3 ∧ s.lanesOk 0 0 = true ∧ (s.oif 0 0).lol = true ∧ (s.oif 0 0).mfas = true
      ∧ s.ifOn 0 0 = true ∧ s.pcOn 0 (8 - 8) = true ∧ s.rd (pcf F.OTN_PC_CFG_IF 0 (8 - 8)) = 0)
    ∧ bits (0 : Word).toNat 15 8 < 16 ∧ bits (0 : Word).toNat 7 0 = 0 := by decide +kernel

/-- The refill instants: one that has come and one that is to come. -/
theorem test_wit_PuntInstants :
    (let s := { tRun with tb := { tRun.tb with now := 3000 * tuNs } };
      s.punt.last ≤ s.puntInstant ∧ s.tb.now % (1000 * tuNs) = 0 ∧ s.punt.last < s.puntInstant)
    ∧ tRun.punt.last ≤ tRun.puntInstant ∧ ¬tRun.punt.last < tRun.puntInstant := by decide +kernel

/-- The scrubber on and off, with a row queued and none; a group that still has to switch. -/
theorem test_wit_ScrubForms :
    (tRun.wr F.ACL_SCRUB_EN 0).rd F.ACL_SCRUB_EN = 0 ∧ (tRun.wr F.ACL_SCRUB_EN 1).rd F.ACL_SCRUB_EN ≠ 0
    ∧ ({ tRun with acl := { tRun.acl with repair := [7 * 16384 + 5] } } : State).acl.repair.find? (fun x => x / 16384 == 7) = some (7 * 16384 + 5)
    ∧ tRun.acl.repair.find? (fun x => x / 16384 == 7) = none
    ∧ (let s := { (tRun.wr F.CAD_STATUS_RUNNING 1).wr F.TSI_STATUS_PENDING 1 with tsi := { left := [143] } };
      s.running = true ∧ s.tsi.left.contains (17 * 8 + 7) = true) := by decide +kernel

/-- A bad image, both bits of PAT_CTRL, a passed tick, an instance whose test holds its copy back. -/
theorem test_wit_PatForms :
    (let u := tRun.hostPut R.PAT_CTRL.addr (0 ||| 1); patCheck (u.stageBytes (u.rd F.PAT_LOAD_SRC_OFS)) (u.rd F.PAT_LOAD_SRC_OFS) ≠ 0)
    ∧ (3 : Word).getLsbD 1 = true ∧ (4 : Word).getLsbD 0 = false
    ∧ (let u := ((tRun.wr F.CAD_STATUS_RUNNING 1).wr64 R.CAD_TICK 5).hostPut R.PAT_CTRL.addr (0xFFFFFFF4 ||| 2);
      u.running = true ∧ { u with tb := { u.tb with nextTick := 6 } }.tickPassed (u.rd64 R.PAT_SWAP_TICK) = true)
    ∧ (let s := { tRun with echo := { load := some (3, 0) }, bist := { tRun.bist with gt := some { g := 0, step := 3 } } };
      s.echo.load = some (3, 0) ∧ s.echHeld 3 ≠ 0) := by decide +kernel

/-- A command whose buffer cannot be read, and one whose arguments do not need it. -/
theorem test_wit_BufferFaults :
    (let h : CmdHdr := { tHdr 52 with bufLen := 64, bufAddr := 64, bufFault := true };
      (h.bufFault && decide (40 < h.argLen) && h.tether.isNone) = true ∧ h.lenOk 52 = true)
    ∧ (let h : CmdHdr := { tHdr 40 with bufFault := true }; (h.bufFault && decide (40 < h.argLen) && h.tether.isNone) = false)
    ∧ (let h : CmdHdr := { tHdr 52 with bufLen := 64, bufAddr := 64, bufFault := true }
      let c := foldS [0, 1] (fun i s => (s.wr (F.HST_RING_EN.at i) 1).wr (F.HST_RING_LOG2_SIZE.at i) 6) (tCmd mRUN);
      (c.wr (F.HST_RING_PROD.at 0) 1).canTake h = true) := by decide +kernel

/-- Entries out of range, of another table, each STATE; a batch before and after its staging; a commit held outside RUN. -/
theorem test_wit_EntryAndBatchForms :
    (decide (1048575 < entCount 19) && imgOk 19 (zeros 8)) = false ∧ 18 ∉ [17] ∧ 17 ∉ [19, 20]
    ∧ (let u := (tCmd mRUN).take (tTet 40); let v := u.setEntState (u.entAddr 17 5) 2; v.entState 17 5 = 2)
    ∧ (let b : Batch := { id := 3, aon := false, hdr := tTet 16, submitted := true, stageAt := 5 };
      (tRun.wr64 R.CAD_TICK 4).tick < b.stageAt ∧ b.stageAt ≤ (tRun.wr64 R.CAD_TICK 5).tick)
    ∧ ((tCmd mRUN).take (tTet 16)).batch 7 = none ∧ (tCmd mLULL).inMode mRUN = false
    ∧ ((tCmd mRUN).take (tTet 0)).imgConfirm.status ≠ mOK
    ∧ (let o : EntOp := ⟨.write, tArgs 17 24 (zeros 16), tTet 56, 0x16, 3⟩
      ((({ (tCmd mRUN).take (tTet 56) with cmt := { ents := [o] } } : State).cmt.ents.filter (fun o => decide (o.acceptedAt < 4))) = [o])) := by
  decide +kernel

/-! ### The clauses for other forms: traffic management, Tradewind, host, self-test -/

/-- Arrivals from Tradewind: a first cell, a later one with a frame open and with none, a gap. -/
theorem test_wit_CellArrivals :
    (let s := tRun.fabUpd (fun f => { f with arrive := [.cell 5 { sop := true }] }); s.fab.arrive = [.cell 5 { sop := true }])
    ∧ (let s := tRun.fabUpd (fun f => { f with arrive := [.cell 5 { sop := false }] });
      s.fab.arrive = [.cell 5 { sop := false }] ∧ (s.fabUpd (fun f => { f with arrive := [] })).openFrame 5 = none)
    ∧ (let s := tRun.fabUpd (fun f => { f with arrive := [.gap 5] }); s.fab.arrive = [.gap 5])
    ∧ (let s := { tRun with egr := [(145 * 8 + 7, [{ cells := 1, whole := false, src := some 5 }])] }.frxUpd 5 (fun r => { r with at_ := some (145 * 8 + 7) });
      (s.openFrame 5).isSome = true) := by decide +kernel

/-- A paused class at the head, a plain frame, a port that transmits nothing. -/
theorem test_wit_TransmitForms :
    (let s := ((tPort 1).egEnter 145 7 { cells := 1, p := { bytes := zeros 60 }, plain := true }).pstUpd 145 (fun x => { x with planned := [⟨7, 5⟩] });
      s.portTx 145 = true ∧ (s.pst 145).planned = [⟨7, 5⟩] ∧ ((s.eq 145 7).head?.map (·.plain)) = some true)
    ∧ (let s := ({ tPort 1 with pauses := [⟨145, 7, 0, 2 ^ 60⟩] }.wr (F.LPT_PFC_MAP_PRI_TC.at 145) (7 * 2 ^ 21));
      s.pausedAt 145 7 (10 ^ 9 * 65536) = true ∧ (s.egp 145).mac.find? (fun x => !s.pausedAt 145 x.tc (max x.plan s.t16)) = none)
    ∧ tRun.portTx 0 = false ∧ tRun.portTx 399 = false := by decide +kernel

/-- A cancel in time and too late; a RESTORE refused; an interval that ends, with and without a pending switch. -/
theorem test_wit_GateForms :
    (let s := (tRun.wr F.CAD_STATUS_RUNNING 1).gateUpd 5 (fun g => { g with pending := true, swTick := 0 }); let g := s.gateI 5;
      g.pending = true ∧ g.copyDue = false ∧ g.due = none ∧ s.running = true)
    ∧ (let s := tRun.gateUpd 5 (fun g => { g with active := true, oper := tList, base := 0 });
      s.gateAt 5 s.ns ≠ none ∧ s.gateNext (s.gateCur 5) = none ∧ tRun.gateAt 5 0 = none)
    ∧ (tRun.gateI 5).active = false ∧ (tRun.gateI 5).adm.ok 5 = false ∧ bits (0xC0000000 : Word).toNat 31 30 = 3
    ∧ (let s := (tRun.wr F.CAD_STATUS_RUNNING 1).gateUpd 5 (fun g => { g with pending := true, active := true, oper := tList, adm := tList, swTick := 4 });
      (s.gateNext (s.gateCur 5)).isSome = true) := by decide +kernel

/-- A spare whose turn it is, and one that receives. -/
theorem test_wit_SpareLinks :
    (let s := tFab 2 {}; s.fabOn = true ∧ s.linkState 191 = 2
      ∧ ((List.range 192).filter (fun j => s.linkState j == 3 || s.linkState j == 2)) = [191])
    ∧ (let s := tFab 4 {}; s.linkState 191 ≠ 3 ∧ s.linkState 191 ≠ 2)
    ∧ (zeros 271).length ≠ 272 := by decide +kernel

/-- The function in D3hot, MSI-X with the function mask off, the vector masked. -/
theorem test_wit_FunctionForms :
    (tMsi 1 0 [] true).pcie.d3hot = true ∧ tRun.pcie.d3hot = false ∧ (tMsi 1 0 [] false).pcie.msixEn = true
    ∧ (tMsi 1 0 [] false).rd (F.HST_MSIX_TABLE_MASK.at 255) = 0 ∧ (tMsi 1 1 [] false).vecOpen 255 = false
    ∧ 25 ≠ 240 ∧ tRun.ring.shadowDue.contains 71 = false := by decide +kernel

/-- A window access in LULL; a record whose length is not legal; a port for control-core frames that may start and one that may
not; a pointer in each range; no power. -/
theorem test_wit_WindowForms :
    (let s := tLull ((tRun.wr F.GLB_CAPS_TABLE_GIB 64).wr64 R.PAT_STAGE_BASE 0);
      s.inMode mLULL = true ∧ s.inMode mDORMANT = false ∧ (∀ i < 4, s.winMay (0 + i) = true) ∧ min 4 (s.tblSize - 0) ≠ 0)
    ∧ (let s := { (((tPort 1).wr F.EVT_TMGMT_EN 1).wr (F.LPT_CTRL_TMGMT_EN.at 145) 1) with tmSrc := 1 };
      s.directTx 145 = true ∧ (s.pst 145).direct = [] ∧ (s.wr (F.LPT_STATUS_ALIGNED.at 145) 0).directTx 145 = false)
    ∧ 8 ≤ 15 ∧ 16 ≤ 31 ∧ 0x22 ∉ [0, 1, 2, 3, 4, 0x20, 0x21]
    ∧ (tRun.wr F.MOD_STATUS_MODE mDORMANT).inMode mDORMANT = true ∧ ({ tRun with md := { tRun.md with rails := 1 } } : State).powered = false := by
  decide +kernel

/-- A program of one word: the supervisor is thread 0, the one worker thread 1. -/
def tProg : Bytes := leB 4 0x454E4750 ++ leB 4 1 ++ leB 4 1 ++ zeros 20 ++ leB 16 7 ++ zeros 20

/-- A gallery test at each of its steps, with the gallery as the step needs it; a test that waits for its tick in RUN and LULL. -/
theorem test_wit_GalleryTestSteps :
    (∀ n ∈ [2, 3, 4, 5, 6, 7], { tRun with bist := { gt := some { g := 7, step := n } } }.bist.gt = some { g := 7, step := n })
    ∧ (let s := { tRun with bist := { gt := some { g := 7, step := 6 } } };
      ((((s.galOff 7).galPower 7).loadGal 7 (some tProg)).echAfterTest 7).galState 7 = gLOADING)
    ∧ tRun.galState 7 = gOFF
    ∧ (let s := tRun.wr F.CAD_STATUS_RUNNING 1; 0 ≤ s.tick ∧ s.inMode mRUN = true ∧ s.tick < 5 ∧ (tLull s).inMode mRUN = false)
    ∧ tRun.rd F.BIS_CFG_GTEST_AUTO_S = 0 ∧ tRun.rd F.BIS_GTEST_CTRL_GO = 0 ∧ (tRun.wr F.BIS_GTEST_CTRL_GO 1).rd F.BIS_GTEST_CTRL_GO = 1
    ∧ ({ tRun with bist := { gfail := 2 ^ 7 } } : State).bist.gfail = 2 ^ 7 := by decide +kernel

/-- PROBE at each step, with the device configuration asked for. -/
theorem test_wit_ProbeSteps :
    ∀ n ∈ [2, 3, 4, 5, 6], let s := { tRun.wr F.MOD_STATUS_MODE mPROBE with md := { probe := n, probeCfg := 1 } };
      s.inMode mPROBE = true ∧ s.md.probe = n := by decide +kernel

/-- Rows of an HBM stack: the first error of one, and one at the threshold; outside RUN and LULL. -/
theorem test_wit_HbmRows :
    let x : HbmFail := ⟨7, 0, 0, 0, false, false⟩
    let s := tRun.wr F.BIS_CFG_ROW_THRESH 2
    let seen (s : State) : State := (s.cnt R.BIS_CNT 0x18).cnt (R.HBM_CNT.at 7) 0x10
    let n (w : State) : Nat := (w.bist.rows.filter (fun r => r.1 == x.rowNo)).length;
    (let w := (seen s).rowNote x; n w < max 1 (w.rd F.BIS_CFG_ROW_THRESH)) ∧ (let w := (seen ((seen s).rowNote x)).rowNote x; max 1 (w.rd F.BIS_CFG_ROW_THRESH) ≤ n w)
    ∧ (tRun.wr F.MOD_STATUS_MODE mASCENT).inMode mLULL = false := by decide +kernel

/-- The balls of R537's example. -/
theorem test_package_balls :
    ballName 34 10 = "AT10" ∧ ballOf 34 10 = .line 90 .txp ∧ ballOf 34 11 = .line 90 .txn ∧ ballName 36 11 = "AV11"
    ∧ ballOf 36 10 = .line 90 .rxp ∧ ballOf 36 11 = .line 90 .rxn ∧ ballName 54 62 = "BU62" ∧ ballOf 54 62 = .fabric 137 .rxp
    ∧ ballOf 54 63 = .fabric 137 .rxn ∧ ballName 73 74 = "CU74" ∧ ballOf 73 74 = .refFab 4 true ∧ ballOf 73 75 = .refFab 4 false := by decide +kernel
end Sys2Proof.Tests
end

namespace Sys2Proof.Machine

/-! ### Rows of the register map

The field-by-field rules of BAR0 are folds over the fields of a row. A fold whose step changes its own field's bits only gives
each field what its step gives it. -/

/-- The fields of a row are bit ranges of one word that do not overlap (R6, R10). -/
def RowFits (fs : List RField) : Prop :=
  (∀ f ∈ fs, f.lo ≤ f.hi ∧ f.hi ≤ 31) ∧ fs.Pairwise (fun f g => f.hi < g.lo ∨ g.hi < f.lo)

/-- A step of a fold over fields that changes the bits of its own field only. -/
def FieldLocal (fs : List RField) (step : Word → RField → Word) : Prop :=
  ∀ f ∈ fs, ∀ w i, ¬(f.lo ≤ i ∧ i ≤ f.hi) → (step w f).toNat.testBit i = w.toNat.testBit i

theorem RowFits.tail {f : RField} {fs : List RField} (h : RowFits (f :: fs)) : RowFits fs :=
  ⟨fun g hg => h.1 g (List.mem_cons_of_mem _ hg), h.2.of_cons⟩

theorem RowFits.filter {fs : List RField} (h : RowFits fs) (p : RField → Bool) : RowFits (fs.filter p) :=
  ⟨fun f hf => h.1 f (List.mem_of_mem_filter hf), h.2.filter p⟩

theorem FieldLocal.tail {f : RField} {fs : List RField} {step : Word → RField → Word} (h : FieldLocal (f :: fs) step) :
    FieldLocal fs step := fun g hg => h g (List.mem_cons_of_mem _ hg)

/-- Equal bits in a range make equal fields. -/
theorem bits_congr {m n hi lo : Nat} (h : ∀ i, lo ≤ i → i ≤ hi → m.testBit i = n.testBit i) : bits m hi lo = bits n hi lo := by
  apply Nat.eq_of_testBit_eq
  intro i
  rw [testBit_bits, testBit_bits]
  by_cases c : i < hi + 1 - lo
  · rw [h _ (by omega) (by omega)]
  · simp [c]

/-- A bit of a word is a bit of the field that covers it. -/
theorem testBit_of_field (n : Nat) {hi lo i : Nat} (h1 : lo ≤ i) (h2 : i ≤ hi) :
    n.testBit i = (bits n hi lo).testBit (i - lo) := by
  simp [testBit_bits, show i - lo < hi + 1 - lo by omega, show lo + (i - lo) = i by omega]

/-- Putting each field's value changes that field only. -/
theorem fieldLocal_putBits {fs : List RField} (h : ∀ f ∈ fs, f.lo ≤ f.hi ∧ f.hi ≤ 31) (val : RField → Nat) :
    FieldLocal fs (fun w f => putBits w f.hi f.lo (val f)) := by
  intro f hf w i hi
  obtain ⟨h1, h2⟩ := h f hf
  exact (testBit_putBits _ _ _ _ _ h1 (by omega)).trans (if_neg hi)

/-- A bit that no field covers is kept by the whole fold. -/
theorem testBit_foldl_uncovered {step : Word → RField → Word} {fs : List RField} (hs : FieldLocal fs step) {i : Nat}
    (hi : ∀ f ∈ fs, ¬(f.lo ≤ i ∧ i ≤ f.hi)) (w : Word) : (fs.foldl step w).toNat.testBit i = w.toNat.testBit i := by
  induction fs generalizing w with
  | nil => rfl
  | cons f fs ih =>
    rw [List.foldl_cons, ih hs.tail (fun g hg => hi g (List.mem_cons_of_mem _ hg)),
      hs f List.mem_cons_self w i (hi f List.mem_cons_self)]

/-- A range that no field meets is kept by the whole fold. -/
theorem bits_foldl_apart {step : Word → RField → Word} {fs : List RField} (hs : FieldLocal fs step) {hi lo : Nat}
    (h : ∀ f ∈ fs, f.hi < lo ∨ hi < f.lo) (w : Word) : bits (fs.foldl step w).toNat hi lo = bits w.toNat hi lo :=
  bits_congr fun i h1 h2 => testBit_foldl_uncovered hs (fun f hf => by have := h f hf; omega) w

/-- What the fold gives a field is what the field's own step gives it, on a word that holds the field's old value. -/
theorem bits_foldl_own {step : Word → RField → Word} {fs : List RField} (hs : FieldLocal fs step) (hr : RowFits fs)
    {f : RField} (hf : f ∈ fs) (w : Word) :
    ∃ u : Word, bits u.toNat f.hi f.lo = bits w.toNat f.hi f.lo
      ∧ bits (fs.foldl step w).toNat f.hi f.lo = bits (step u f).toNat f.hi f.lo := by
  induction fs generalizing w with
  | nil => cases hf
  | cons g fs ih =>
    have hap : ∀ k ∈ fs, g.hi < k.lo ∨ k.hi < g.lo := fun _ => List.rel_of_pairwise_cons hr.2
    rw [List.foldl_cons]
    rcases List.mem_cons.mp hf with rfl | hf'
    · exact ⟨w, rfl, bits_foldl_apart hs.tail (fun k hk => (hap k hk).symm) _⟩
    · obtain ⟨u, hu, he⟩ := ih hs.tail hr.tail hf' (step w g)
      refine ⟨u, hu.trans (bits_congr fun i h1 h2 => hs g List.mem_cons_self w i ?_), he⟩
      have := hap f hf'
      omega

/-- A word summed up from the values of disjoint fields is the word with each field put. -/
theorem ofNat_foldl_add (val : RField → Nat) {fs : List RField} (hr : RowFits fs)
    (hv : ∀ f ∈ fs, val f < 2 ^ (f.hi + 1 - f.lo)) (n : Nat)
    (hn : ∀ f ∈ fs, bits (BitVec.ofNat 32 n).toNat f.hi f.lo = 0) :
    BitVec.ofNat 32 (fs.foldl (fun n f => n + val f * 2 ^ f.lo) n)
      = fs.foldl (fun w f => putBits w f.hi f.lo (val f)) (BitVec.ofNat 32 n) := by
  induction fs generalizing n with
  | nil => rfl
  | cons f fs ih =>
    obtain ⟨h1, h2⟩ := hr.1 f List.mem_cons_self
    have hput : BitVec.ofNat 32 (n + val f * 2 ^ f.lo) = putBits (BitVec.ofNat 32 n) f.hi f.lo (val f) := by
      rw [putBits, hn f List.mem_cons_self, Nat.mod_eq_of_lt (hv f List.mem_cons_self), Nat.zero_mul, Nat.sub_zero]
      apply BitVec.eq_of_toNat_eq
      simp
    rw [List.foldl_cons, List.foldl_cons, ← hput]
    refine ih hr.tail (fun g hg => hv g (List.mem_cons_of_mem _ hg)) _ fun g hg => ?_
    rw [hput, bits_putBits_disjoint _ _ _ _ _ _ h1 (by omega) (by have := List.rel_of_pairwise_cons hr.2 hg; omega)]
    exact hn g (List.mem_cons_of_mem _ hg)

/-- Each field of a word summed up from the values of disjoint fields is its value. -/
theorem bits_ofNat_foldl_add (val : RField → Nat) {fs : List RField} (hr : RowFits fs)
    (hv : ∀ f ∈ fs, val f < 2 ^ (f.hi + 1 - f.lo)) {f : RField} (hf : f ∈ fs) :
    bits (BitVec.ofNat 32 (fs.foldl (fun n f => n + val f * 2 ^ f.lo) 0)).toNat f.hi f.lo = val f := by
  obtain ⟨h1, h2⟩ := hr.1 f hf
  rw [ofNat_foldl_add val hr hv 0 (fun g _ => by simp [bits])]
  have hl : FieldLocal fs (fun w f => putBits w f.hi f.lo (val f)) := fieldLocal_putBits hr.1 val
  obtain ⟨u, -, he⟩ := bits_foldl_own hl hr hf (BitVec.ofNat 32 0)
  rw [he, bits_putBits _ _ _ _ h1 (by omega), Nat.mod_eq_of_lt (hv f hf)]

/-! ### Access codes (R11) -/

/-- What a host write of `v` over `old` does to one field. -/
def State.mergeField (s : State) (r : RegRow) (ix : List Nat) (old v w : Word) (f : RField) : Word :=
  let n := bits v.toNat f.hi f.lo
  let o := bits old.toNat f.hi f.lo
  match f.acc with
  | .rw | .wo | .cnt => putBits w f.hi f.lo n
  | .rwl => if s.locked f.lock ix then w else putBits w f.hi f.lo n
  | .w1c => putBits w f.hi f.lo (o - (o &&& n))
  | .w1s => putBits w f.hi f.lo (o ||| n)
  | .ring => if hostProduces (ix.headD 0) == decide (r.off = 0x100C) then putBits w f.hi f.lo n else w
  | .ro | .rc | .sc => w

theorem merged_eq_foldl (s : State) (r : RegRow) (ix : List Nat) (old v : Word) :
    s.merged r ix old v = r.fields.foldl (s.mergeField r ix old v) old := rfl

/-- A field's step keeps the word or puts the field. -/
theorem mergeField_keeps_or_puts (s : State) (r : RegRow) (ix : List Nat) (old v w : Word) (f : RField) :
    s.mergeField r ix old v w f = w ∨ ∃ n, s.mergeField r ix old v w f = putBits w f.hi f.lo n := by
  unfold State.mergeField
  split
  case h_1 | h_2 | h_3 | h_5 | h_6 => exact .inr ⟨_, rfl⟩
  case h_8 | h_9 | h_10 => exact .inl rfl
  all_goals
    split
    · simp
    · simp

theorem fieldLocal_mergeField (s : State) (r : RegRow) (ix : List Nat) (old v : Word) {fs : List RField}
    (h : ∀ f ∈ fs, f.lo ≤ f.hi ∧ f.hi ≤ 31) : FieldLocal fs (s.mergeField r ix old v) := by
  intro f hf w i hi
  obtain ⟨h1, h2⟩ := h f hf
  obtain hk | ⟨n, hp⟩ := mergeField_keeps_or_puts s r ix old v w f
  · rw [hk]
  · rw [hp, testBit_putBits _ _ _ _ _ h1 (by omega), if_neg hi]

/-- A field after a host write, by its access code. -/
theorem bits_mergeField (s : State) (r : RegRow) (ix : List Nat) (old v u : Word) {f : RField} (h : f.lo ≤ f.hi ∧ f.hi ≤ 31)
    (hu : bits u.toNat f.hi f.lo = bits old.toNat f.hi f.lo) :
    bits (s.mergeField r ix old v u f).toNat f.hi f.lo =
      match f.acc with
      | .rw | .wo | .cnt => bits v.toNat f.hi f.lo
      | .rwl => if s.locked f.lock ix then bits old.toNat f.hi f.lo else bits v.toNat f.hi f.lo
      | .w1c => bits old.toNat f.hi f.lo - (bits old.toNat f.hi f.lo &&& bits v.toNat f.hi f.lo)
      | .w1s => bits old.toNat f.hi f.lo ||| bits v.toNat f.hi f.lo
      | .ring => if hostProduces (ix.headD 0) == decide (r.off = 0x100C) then bits v.toNat f.hi f.lo else bits old.toNat f.hi f.lo
      | .ro | .rc | .sc => bits old.toNat f.hi f.lo := by
  have hput : ∀ n, n < 2 ^ (f.hi + 1 - f.lo) → bits (putBits u f.hi f.lo n).toNat f.hi f.lo = n := fun n hn => by
    rw [bits_putBits _ _ _ _ h.1 (by omega), Nat.mod_eq_of_lt hn]
  have hv := bits_lt v.toNat f.hi f.lo
  have ho := bits_lt old.toNat f.hi f.lo
  unfold State.mergeField
  cases f.acc with
  | rw | wo | cnt => exact hput _ hv
  | rwl => dsimp only; split
           · exact hu
           · exact hput _ hv
  | w1c => exact hput _ (Nat.lt_of_le_of_lt (Nat.sub_le _ _) ho)
  | w1s => exact hput _ (Nat.or_lt_two_pow ho hv)
  | ring => dsimp only; split
            · exact hput _ hv
            · exact hu
  | ro | rc | sc => exact hu

/-- A field of a row after a host write of `v` over `old`. -/
theorem bits_merged (s : State) (r : RegRow) (ix : List Nat) (old v : Word) (hr : RowFits r.fields) {f : RField}
    (hf : f ∈ r.fields) : ∃ u : Word, bits u.toNat f.hi f.lo = bits old.toNat f.hi f.lo
      ∧ bits (s.merged r ix old v).toNat f.hi f.lo = bits (s.mergeField r ix old v u f).toNat f.hi f.lo := by
  rw [merged_eq_foldl]
  exact bits_foldl_own (fieldLocal_mergeField s r ix old v hr.1) hr hf old

/-- The bits a number shares with another, and those it does not, make up the number. -/
theorem and_add_ldiff (o n : Nat) : (o &&& n) + Nat.ldiff o n = o := by
  induction o using Nat.binaryRec generalizing n with
  | zero =>
    have : Nat.ldiff 0 n = 0 := Nat.eq_of_testBit_eq (by simp [Nat.testBit_ldiff])
    simp [this]
  | bit a m ih =>
    rw [← Nat.bit_bodd_div2 n, Nat.land_bit, Nat.ldiff_bit]
    have := ih n.div2
    cases a <;> cases n.bodd <;> simp [Nat.bit_val] <;> omega

/-- A bit of a number less the bits it shares with another. -/
theorem testBit_sub_and (o n i : Nat) : (o - (o &&& n)).testBit i = (o.testBit i && !n.testBit i) := by
  rw [show o - (o &&& n) = Nat.ldiff o n by have := and_add_ldiff o n; omega, Nat.testBit_ldiff]

/-- The value a field shows to a read. -/
def shownField (w : Word) (f : RField) : Nat := if f.acc = .wo then 0 else bits w.toNat f.hi f.lo

theorem shownField_lt (w : Word) (f : RField) : shownField w f < 2 ^ (f.hi + 1 - f.lo) := by
  unfold shownField
  split
  · positivity
  · exact bits_lt _ _ _

theorem readable_eq_ofNat_foldl_add (fs : List RField) (w : Word) :
    readable fs w = BitVec.ofNat 32 (fs.foldl (fun n f => n + shownField w f * 2 ^ f.lo) 0) := by
  unfold readable
  congr 2
  funext n f
  unfold shownField
  split <;> simp

/-- A read shows each field, write-only ones as zero. -/
theorem bits_readable {fs : List RField} (hr : RowFits fs) (w : Word) {f : RField} (hf : f ∈ fs) :
    bits (readable fs w).toNat f.hi f.lo = if f.acc = .wo then 0 else bits w.toNat f.hi f.lo := by
  rw [readable_eq_ofNat_foldl_add, bits_ofNat_foldl_add _ hr (fun g _ => shownField_lt w g) hf, shownField]

/-- A read shows a bit that no field covers as zero. -/
theorem testBit_readable_uncovered {fs : List RField} (hr : RowFits fs) (w : Word) {i : Nat}
    (hi : ∀ f ∈ fs, ¬(f.lo ≤ i ∧ i ≤ f.hi)) : (readable fs w).toNat.testBit i = false := by
  rw [readable_eq_ofNat_foldl_add, ofNat_foldl_add _ hr (fun g _ => shownField_lt w g) 0 (fun g _ => by simp [bits]),
    testBit_foldl_uncovered (fieldLocal_putBits hr.1 (shownField w)) hi]
  simp

/-- After a read the RC fields are zero and all others as before. -/
theorem bits_rcCleared {fs : List RField} (hr : RowFits fs) (w : Word) {f : RField} (hf : f ∈ fs) :
    bits (rcCleared fs w).toNat f.hi f.lo = if f.acc = .rc then 0 else bits w.toNat f.hi f.lo := by
  obtain ⟨h1, h2⟩ := hr.1 f hf
  have hl : FieldLocal fs (fun w f => if f.acc = .rc then putBits w f.hi f.lo 0 else w) := by
    intro g hg x i hi
    obtain ⟨k1, k2⟩ := hr.1 g hg
    dsimp only
    split
    · rw [testBit_putBits _ _ _ _ _ k1 (by omega), if_neg hi]
    · rfl
  obtain ⟨u, hu, he⟩ := bits_foldl_own hl hr hf w
  unfold rcCleared
  rw [he]
  split
  · rw [bits_putBits _ _ _ _ h1 (by omega), Nat.zero_mod]
  · exact hu
/-- The fields of every row of the map fit. -/
theorem regBlocks_rowFits : ∀ b ∈ regBlocks, ∀ r ∈ b.rows, RowFits r.fields := by
  unfold RowFits
  decide +kernel

/-- Settles O31: the fold over the fields of a row gives each field what the field's own step gives it. -/
theorem accessCodesDecideEachField : Obligations.AccessCodesDecideEachField := by
  unfold Obligations.AccessCodesDecideEachField
  refine ⟨regBlocks_rowFits, fun s r ix old v hfit hap f hf => ?_⟩
  have hr : RowFits r.fields := ⟨hfit, hap⟩
  obtain ⟨u, hu, he⟩ := bits_merged s r ix old v hr hf
  rw [bits_mergeField s r ix old v u (hfit f hf) hu] at he
  refine ⟨?_, fun ha => ?_, fun ha i h1 h2 => ?_, fun ha => ?_, fun ha => ?_, ?_, bits_readable hr old hf, bits_rcCleared hr old hf⟩
  · rintro (ha | ha | ha) <;> simpa [ha] using he
  · simpa [ha] using he
  · simp only [ha] at he
    simp only [testBit_of_field _ h1 h2, he, testBit_sub_and]
  · simpa [ha] using he
  · simpa [ha] using he
  · rintro (ha | ha | ha) <;> simpa [ha] using he

/-! ### Accesses that reach no register (R8, R10, R85, R506) -/

/-- The completion of an access that reaches no register: a read reads zero, a write is ignored. -/
def State.completed (s : State) (a : Nat) (w : Option Word) : State := if w.isSome then s else s.emit (.read a 0)

theorem bar0Access_dormant {s : State} (h : s.inMode mDORMANT = true) (a : Nat) (w : Option Word) : s.bar0Access a w = s := by
  cases w <;> simp [State.bar0Access, State.bar0Read, State.bar0Write, h]

theorem bar0Access_reserved {s : State} (hd : s.inMode mDORMANT = false) {a : Nat} (ha : a % 4 = 0) (hr : barReserved a = true)
    (w : Option Word) : s.bar0Access a w = (s.barError 2 a w.isSome).completed a w := by
  cases w <;> simp [State.bar0Access, State.bar0Read, State.bar0Write, State.bar0Get, State.completed, hd, ha, hr]

theorem bar0Access_busy {s : State} (hd : s.inMode mDORMANT = false) {a : Nat} (ha : a % 4 = 0) (hr : barReserved a = false)
    (hb : s.barBusy a = true) (w : Option Word) : s.bar0Access a w = (s.barBusyLog a w.isSome).completed a w := by
  cases w <;> simp [State.bar0Access, State.bar0Read, State.bar0Write, State.bar0Get, State.completed, hd, ha, hr, hb]

theorem bar0Access_early {s : State} (hd : s.inMode mDORMANT = false) {a : Nat} (ha : a % 4 = 0) (hr : barReserved a = false)
    (hb : s.barBusy a = false) (he : s.barEarly a = true) (w : Option Word) :
    s.bar0Access a w = (s.barError 3 a w.isSome).completed a w := by
  cases w <;> simp [State.bar0Access, State.bar0Read, State.bar0Write, State.bar0Get, State.completed, hd, ha, hr, hb, he]

theorem bar0Read_serves {s : State} {a : Nat} (h : s.serves a) : s.bar0Read a = (s.regRead a).1.emit (.read a (s.regRead a).2) := by
  obtain ⟨hd, ha, hr, hb, he⟩ := h
  simp [State.bar0Read, State.bar0Get, hd, ha, hr, hb, he]

theorem bar0Write_serves {s : State} {a : Nat} (h : s.serves a) (v : Word) (e : AclEnv) :
    s.bar0Write a v e = s.regWrite a v e := by
  obtain ⟨hd, ha, hr, hb, he⟩ := h
  simp [State.bar0Write, hd, ha, hr, hb, he]

/-- An aligned access of a served range that no row covers changes nothing. -/
theorem bar0Access_unassigned {s : State} {a : Nat} (h : s.serves a) (hreg : regRow a = none) (w : Option Word) :
    s.bar0Access a w = s.completed a w := by
  cases w
  · simp [State.bar0Access, bar0Read_serves h, State.regRead, hreg, State.completed]
  · simp [State.bar0Access, bar0Write_serves h, State.regWrite, hreg, State.completed]

/-- Recording an access counts it, and fills the log when it is free (R517). -/
theorem barError_free {s : State} (h : (s.cnt R.GLB_ERR_CNT).rd F.GLB_ERR_LOG_KIND = 0) (k n : Nat) (wr : Bool) :
    s.barError k n wr
      = (s.cnt R.GLB_ERR_CNT).wr64 R.GLB_ERR_LOG (k * 2 ^ 56 + (if wr then 2 ^ 55 else 0) + n % 2 ^ 28) := by
  simp only [State.barError, State.on, h]
  cases wr <;> simp [b2n]

theorem barError_full {s : State} (h : (s.cnt R.GLB_ERR_CNT).rd F.GLB_ERR_LOG_KIND ≠ 0) (k n : Nat) (wr : Bool) :
    s.barError k n wr = s.cnt R.GLB_ERR_CNT := by
  simp [State.barError, State.on, h]

/-- Recording an access changes registers only. -/
@[simp] theorem barError_out (s : State) (k n : Nat) (wr : Bool) : (s.barError k n wr).out = s.out := by
  by_cases h : (s.cnt R.GLB_ERR_CNT).rd F.GLB_ERR_LOG_KIND = 0
  · rw [barError_free h, wr64_out, cnt_out]
  · rw [barError_full h, cnt_out]

/-- A 64-bit write leaves every other word. -/
theorem rdw_wr64_ne (s : State) (r : Reg) (v : Nat) {x : Nat} (h : x ≠ r.addr ∧ x ≠ r.addr + 4) : (s.wr64 r v).rdw x = s.rdw x := by
  simp [State.wr64, h]

/-- Recording an access changes the words of the log and the count only. -/
theorem rdw_barError_ne (s : State) (k n : Nat) (wr : Bool) {x : Nat} (h : x < R.GLB_ERR_LOG.addr ∨ R.GLB_ERR_CNT.addr + 8 ≤ x) :
    (s.barError k n wr).rdw x = s.rdw x := by
  simp only [R.GLB_ERR_LOG, R.GLB_ERR_CNT] at h
  have hc : (s.cnt R.GLB_ERR_CNT).rdw x = s.rdw x := rdw_wr64_ne _ _ _ (by simp only [R.GLB_ERR_CNT]; omega)
  by_cases h0 : (s.cnt R.GLB_ERR_CNT).rd F.GLB_ERR_LOG_KIND = 0
  · rw [barError_free h0, rdw_wr64_ne _ _ _ (by simp only [R.GLB_ERR_LOG]; omega), hc]
  · rw [barError_full h0, hc]

/-- Settles O30: the rules of an access that reaches no register, one per class. -/
theorem accessesThatReachNoRegisterAreRecorded : Obligations.AccessesThatReachNoRegisterAreRecorded := by
  unfold Obligations.AccessesThatReachNoRegisterAreRecorded
  intro s a n done
  refine ⟨fun hd wr w c hc => ?_, fun hd => ⟨fun wr => ?_, fun ha w => ⟨fun hr => ?_, fun hr hb => ?_, fun hr hb he => ?_⟩⟩,
    fun k wr => ⟨fun h => by rw [barError_free h, Nat.mod_eq_of_lt a.isLt], fun h => barError_full h k n wr⟩⟩
  · simp only [List.mem_cons, List.not_mem_nil, or_false] at hc
    have hb : s.bar0Bad a.toNat wr = s := by simp [State.bar0Bad, hd]
    obtain rfl | rfl | rfl | rfl := hc
    · exact congrArg _ hb
    all_goals exact congrArg _ (bar0Access_dormant hd a.toNat w)
  · exact congrArg Host.Outcome.next (by simp [State.bar0Bad, hd, n])
  · exact congrArg _ (bar0Access_reserved hd ha hr w)
  · exact congrArg _ (bar0Access_busy hd ha hr hb w)
  · exact congrArg _ (bar0Access_early hd ha hr hb he w)

/-- An aligned access to an offset without a row completes and changes at most the access log and count. -/
theorem bar0Access_rowless {s : State} {a : Nat} (hd : s.inMode mDORMANT = false) (ha : a % 4 = 0) (hreg : regRow a = none)
    (hbusy : s.barBusy a = false) (hearly : s.barEarly a = false) (w : Option Word) :
    ∃ t : State, s.bar0Access a w = t.completed a w ∧ t.out = s.out
      ∧ ∀ x, x < R.GLB_ERR_LOG.addr ∨ R.GLB_ERR_CNT.addr + 8 ≤ x → t.rdw x = s.rdw x := by
  cases hr : barReserved a with
  | true => exact ⟨_, bar0Access_reserved hd ha hr w, barError_out .., fun x hx => rdw_barError_ne _ _ _ _ hx⟩
  | false => exact ⟨s, bar0Access_unassigned ⟨hd, ha, hr, hbusy, hearly⟩ hreg w, rfl, fun _ _ => rfl⟩

/-- Settles O60: the folds over a row's fields leave every other bit, and an access without a row is at most recorded. -/
theorem reservedFieldsAndOffsetsReadZero : Obligations.ReservedFieldsAndOffsetsReadZero := by
  unfold Obligations.ReservedFieldsAndOffsetsReadZero
  refine ⟨fun b hb r hrow s ix old v i hi => ?_, fun s a hd ha hreg hbusy hearly => ⟨?_, fun v => ?_⟩⟩
  · have hr := regBlocks_rowFits b hb r hrow
    rw [← BitVec.testBit_toNat, ← BitVec.testBit_toNat, ← BitVec.testBit_toNat, merged_eq_foldl]
    exact ⟨testBit_foldl_uncovered (fieldLocal_mergeField s r ix old v hr.1) hi old, testBit_readable_uncovered hr old hi⟩
  · obtain ⟨t, ht, hout, hsame⟩ := bar0Access_rowless hd ha hreg hbusy hearly none
    exact ⟨_, congrArg Host.Outcome.next ht, by simp [State.completed, State.emit, hout], hsame⟩
  · obtain ⟨t, ht, hout, hsame⟩ := bar0Access_rowless hd ha hreg hbusy hearly (some v)
    exact ⟨_, congrArg Host.Outcome.next ht, hout, hsame⟩

/-! ### Words and pairs (R9, R11) -/

theorem regRead_w32 {s : State} {a : Nat} {r : RegRow} {ix : List Nat} (hreg : regRow a = some (r, ix))
    (hf : s.fabGone r.name = false) (hrole : r.role = .w32) :
    s.regRead a = (((s.refresh r.name ix a).rcClear a).popped r.name ix a, readable r.fields ((s.refresh r.name ix a).rdw a)) := by
  simp [State.regRead, hreg, hf, hrole]

/-- The state in which the read of the low word at `a` has latched the high one (R9). -/
def State.latched (s : State) (a : Nat) : State :=
  { s with latch := mset (fun _ => none) s.latch (a + 4) (some (readable (fieldsAt (a + 4)) (s.rdw (a + 4)))) }

theorem regRead_lo {s : State} {a : Nat} {r : RegRow} {ix : List Nat} (hreg : regRow a = some (r, ix))
    (hf : s.fabGone r.name = false) (hrole : r.role = .lo) :
    let u := s.refresh r.name ix a
    let y := ((u.latched a).rcClear a).rcClear (a + 4)
    s.regRead a = ((if isCounter r.fields && y.on F.SVY_CNT_CFG_COR then y.wr64 ⟨a, 0, 0⟩ 0 else y).popped r.name ix a,
      readable r.fields (u.rdw a)) := by
  simp [State.regRead, hreg, hf, hrole, State.latched]

theorem regRead_hi_latched {s : State} {a : Nat} {r : RegRow} {ix : List Nat} (hreg : regRow a = some (r, ix))
    (hf : s.fabGone r.name = false) (hrole : r.role = .hi) {l : Word}
    (hl : mget (fun _ => (none : Option Word)) (s.refresh r.name ix a).latch a = some l) :
    s.regRead a = ({ s.refresh r.name ix a with latch := mset (fun _ => none) (s.refresh r.name ix a).latch a none }, l) := by
  simp [State.regRead, hreg, hf, hrole, hl]

theorem regRead_hi_unlatched {s : State} {a : Nat} {r : RegRow} {ix : List Nat} (hreg : regRow a = some (r, ix))
    (hf : s.fabGone r.name = false) (hrole : r.role = .hi)
    (hl : mget (fun _ => (none : Option Word)) (s.refresh r.name ix a).latch a = none) :
    s.regRead a = (s.refresh r.name ix a, readable r.fields ((s.refresh r.name ix a).rdw a)) := by
  simp [State.regRead, hreg, hf, hrole, hl]

theorem regWrite_w32 {s : State} {a : Nat} {r : RegRow} {ix : List Nat} (hreg : regRow a = some (r, ix))
    (hf : s.fabGone r.name = false) (hb : s.writeBlocked r.name = none) (hrole : r.role = .w32) (v : Word) (e : AclEnv) :
    s.regWrite a v e = s.wordWrite r ix a v e := by
  simp [State.regWrite, hreg, hf, hb, hrole]

theorem regWrite_lo {s : State} {a : Nat} {r : RegRow} {ix : List Nat} (hreg : regRow a = some (r, ix))
    (hf : s.fabGone r.name = false) (hb : s.writeBlocked r.name = none) (hrole : r.role = .lo) (v : Word) (e : AclEnv) :
    s.regWrite a v e = { s with held := mset (fun _ => none) s.held a (some v) } := by
  simp [State.regWrite, hreg, hf, hb, hrole]

theorem regWrite_hi {s : State} {a : Nat} {r : RegRow} {ix : List Nat} (hreg : regRow a = some (r, ix))
    (hf : s.fabGone r.name = false) (hb : s.writeBlocked r.name = none) (hrole : r.role = .hi) (v : Word) (e : AclEnv) :
    s.regWrite a v e = s.pairWrite r ix a v e := by
  simp [State.regWrite, hreg, hf, hb, hrole]

theorem wordWrite_fieldwise {s : State} {r : RegRow} {ix : List Nat} {a : Nat} {v : Word}
    (h : s.unitWrite r.name ix a v = none) (e : AclEnv) :
    s.wordWrite r ix a v e
      = State.written s (s.wrw a (s.merged r ix (s.rdw a) (s.inRange r.name ix (s.rdw a) v))) r.name ix a v e := by
  simp [State.wordWrite, h]

theorem pairWrite_held {s : State} {r : RegRow} {ix : List Nat} {a : Nat} {rl : RegRow} {il : List Nat}
    (hreg : regRow (a - 4) = some (rl, il)) {l : Word} (hl : mget (fun _ => (none : Option Word)) s.held (a - 4) = some l)
    (v : Word) (e : AclEnv) :
    let x := { s with held := mset (fun _ => none) s.held (a - 4) none }
    let y := x.wrw (a - 4) (x.merged rl il (x.rdw (a - 4)) l)
    s.pairWrite r ix a v e = State.written s (y.wrw a (y.merged r ix (y.rdw a) v)) r.name ix a v e := by
  simp only [State.pairWrite, hl, hreg]

theorem pairWrite_unheld {s : State} {r : RegRow} {ix : List Nat} {a : Nat} {rl : RegRow} {il : List Nat}
    (hreg : regRow (a - 4) = some (rl, il)) (hl : mget (fun _ => (none : Option Word)) s.held (a - 4) = none)
    (v : Word) (e : AclEnv) :
    let x := s.refresh rl.name il (a - 4)
    s.pairWrite r ix a v e = State.written s (x.wrw a (x.merged r ix (x.rdw a) v)) r.name ix a v e := by
  simp only [State.pairWrite, hl, hreg]

/-- Settles O32: a served access is a read or a write of its row, by the role of the word. -/
theorem hostReadsAndWritesOfWordsAndPairs : Obligations.HostReadsAndWritesOfWordsAndPairs := by
  unfold Obligations.HostReadsAndWritesOfWordsAndPairs
  intro s a r ix v n hs hreg hf u w
  have hread {t : State} {x : Word} (h : s.regRead n = (t, x)) : execRcRead a s = .next (t.emit (.read n x)) := by
    simp only [execRcRead, bar0Read_serves hs, n, h]
  have hwrite {t : State} (h : s.regWrite n v .clean = t) : execRegisterWrite a v s = .next t := by
    simp only [execRegisterWrite, bar0Write_serves hs, n, h]
  refine ⟨fun hrole => hread (regRead_w32 hreg hf hrole), fun hrole => hread (regRead_lo hreg hf hrole),
    fun hrole => ⟨fun l hl => hread (regRead_hi_latched hreg hf hrole hl), fun hl => hread (regRead_hi_unlatched hreg hf hrole hl)⟩,
    fun hb => ⟨fun hrole => hwrite (regWrite_lo hreg hf hb hrole v .clean), fun hrole rl il hlo => ?_, fun hrole hun => ?_⟩⟩
  · have hpair := regWrite_hi hreg hf hb hrole v .clean
    exact ⟨fun hl => hwrite (hpair.trans (pairWrite_unheld hlo hl v .clean)),
      fun l hl => hwrite (hpair.trans (pairWrite_held hlo hl v .clean))⟩
  · exact hwrite ((regWrite_w32 hreg hf hb hrole v .clean).trans (wordWrite_fieldwise hun .clean))

/-! ### Reset values (R12) -/

theorem findBlock_mem {bs : List RegBlock} {a : Nat} {b : RegBlock} (h : findBlock bs a = some b) : b ∈ bs := by
  induction bs with
  | nil => cases h
  | cons c bs ih =>
    unfold findBlock at h
    split at h
    · cases h; exact List.mem_cons_self
    · exact List.mem_cons_of_mem _ (ih h)

theorem findRow_mem {rs : List RegRow} {o : Nat} {r : RegRow} {ix : List Nat} (h : findRow rs o = some (r, ix)) :
    r ∈ rs ∧ ∃ rel, rowIdx r.dims rel = some ix := by
  induction rs with
  | nil => cases h
  | cons q rs ih =>
    have later (h : findRow rs o = some (r, ix)) := (ih h).imp_left (List.mem_cons_of_mem q)
    unfold findRow at h
    split at h
    · exact later h
    · split at h
      · next e => cases h; exact ⟨List.mem_cons_self, _, e⟩
      · exact later h

/-- The row of a word is a row of the map without the fields reserved there. -/
theorem regRow_mem {a : Nat} {r : RegRow} {ix : List Nat} (h : regRow a = some (r, ix)) :
    ∃ b ∈ regBlocks, ∃ q ∈ b.rows, (∃ p, r = { q with fields := q.fields.filter p }) ∧ ∃ rel, rowIdx q.dims rel = some ix := by
  unfold regRow at h
  split at h
  · cases h
  · next b hb =>
    obtain ⟨⟨q, jx⟩, hq, he⟩ := Option.map_eq_some_iff.mp h
    obtain ⟨hq, -⟩ := Option.filter_eq_some_iff.mp hq
    obtain ⟨hmem, hix⟩ := findRow_mem hq
    cases he
    exact ⟨b, findBlock_mem hb, q, hmem, ⟨_, rfl⟩, hix⟩

/-- The first index of a word is within the first dimension of its row. -/
theorem getD_lt_of_rowIdx {c st rel : Nat} {ds : List (Nat × Nat)} {ix : List Nat} (h : rowIdx ((c, st) :: ds) rel = some ix) :
    ix.getD 0 0 < c := by
  unfold rowIdx at h
  split at h
  · next hc =>
    obtain ⟨l, -, rfl⟩ := Option.map_eq_some_iff.mp h
    exact hc
  · cases h

/-- What the Reset values of a row rest on: a value within its field, and the shape of the two rows whose values go by index. -/
def RowResets (q : RegRow) : Prop :=
  (∀ f ∈ q.fields, f.reset < 2 ^ (f.hi + 1 - f.lo))
  ∧ (q.name = "EVT_MAP" → q.dims = [(256, 4)] ∧ ∀ f ∈ q.fields, f.hi + 1 - f.lo = 8)
  ∧ (q.name = "CLS_QOS_MAP" → q.dims = [(88, 4)] ∧ ∀ f ∈ q.fields, (f.hi = 6 ∧ f.lo = 4) ∨ (f.hi = 1 ∧ f.lo = 0))

theorem regBlocks_rowResets : ∀ b ∈ regBlocks, ∀ q ∈ b.rows, RowResets q := by
  unfold RowResets
  decide +kernel

/-- The QoS map's Reset values are within its fields (R197). -/
theorem qosReset_lt {i : Nat} (hi : i < 88) {f : RField} (hf : (f.hi = 6 ∧ f.lo = 4) ∨ (f.hi = 1 ∧ f.lo = 0)) :
    fieldReset.qosReset i f.hi < 2 ^ (f.hi + 1 - f.lo) := by
  unfold fieldReset.qosReset
  obtain ⟨h1, h2⟩ | ⟨h1, h2⟩ := hf
  · rw [h1, h2, if_pos rfl]
    split
    · omega
    · split <;> omega
  · rw [h1, h2, if_neg (by decide)]
    split <;> omega

/-- The Reset value of a field is within it. -/
theorem fieldReset_lt {a : Nat} {r : RegRow} {ix : List Nat} (h : regRow a = some (r, ix)) {f : RField} (hf : f ∈ r.fields) :
    fieldReset r ix f < 2 ^ (f.hi + 1 - f.lo) := by
  obtain ⟨b, hb, q, hq, ⟨p, rfl⟩, rel, hix⟩ := regRow_mem h
  obtain ⟨hreset, hevt, hqos⟩ := regBlocks_rowResets b hb q hq
  have hf := List.mem_of_mem_filter hf
  unfold fieldReset
  split
  · next hn =>
    obtain ⟨hd, hw⟩ := hevt hn
    rw [hw f hf]
    exact getD_lt_of_rowIdx (hd ▸ hix)
  · split
    · next hn =>
      obtain ⟨hd, hw⟩ := hqos hn
      exact qosReset_lt (getD_lt_of_rowIdx (hd ▸ hix)) (hw f hf)
    · exact hreset f hf

/-- The fields of every word fit. -/
theorem regRow_rowFits {a : Nat} {r : RegRow} {ix : List Nat} (h : regRow a = some (r, ix)) : RowFits r.fields := by
  obtain ⟨b, hb, q, hq, ⟨p, rfl⟩, -⟩ := regRow_mem h
  exact (regBlocks_rowFits b hb q hq).filter p

/-- Each field of an unwritten word reads as its Reset value. -/
theorem bits_regReset {a : Nat} {r : RegRow} {ix : List Nat} (h : regRow a = some (r, ix)) {f : RField} (hf : f ∈ r.fields) :
    bits (regReset a).toNat f.hi f.lo = fieldReset r ix f := by
  simp only [regReset, h]
  exact bits_ofNat_foldl_add _ (regRow_rowFits h) (fun _ hg => fieldReset_lt h hg) hf

/-- Settles O56: no word is written after reset, so each field reads as its Reset value. -/
theorem resetHoldsTheResetValues : Obligations.ResetHoldsTheResetValues := by
  unfold Obligations.ResetHoldsTheResetValues
  refine ⟨rfl, mwf_nil _, fun a r ix h f hf => bits_regReset h hf, ?_⟩
  decide +kernel

end Sys2Proof.Machine

namespace Sys2Proof.Machine

/-! ### The canonical register file

O57 holds because the register file is changed by `State.wrw`, whose `mset` keeps the canonical form, and rebuilt or filtered at
a few places (cold start, configuration, wake-up, gallery power, function reset, the time-slot interchange), where the result is
canonical again. Every operation of the model gets one lemma that says so, in the order of the model's files; a lemma is the
chain of the operations that its operation is made of. `State.RegsCanon.upd` stands for a change of other fields, `branch`,
`when` and `whenNot` for an `if`, `foldS` and `foldl` for a loop.

Where an operation matches on the answer of a costly one, the kernel would evaluate that answer to compare two forms of the
match. There the definition is replaced by its own text (`delta%`), or the costly operation by a copy `f` of which only
`f = operation` and what it keeps are known. -/

/-- The register file is in canonical form: rising offsets, no entry equal to the Reset value an unlisted word reads as (R12). -/
def State.RegsCanon (s : State) : Prop := mwf regReset s.regs = true

/-- If an outcome is a next state, its register file is canonical. -/
def OutCanon (o : Out1) : Prop := ∀ t, o = .next t → t.RegsCanon

/-- If there is a state, its register file is canonical. -/
def OptCanon (o : Option State) : Prop := ∀ t, o = some t → t.RegsCanon

/-- If there is a state with a result, its register file is canonical. -/
def OptFstCanon {A : Type} (o : Option (State × A)) : Prop := ∀ p, o = some p → p.1.RegsCanon

/-- A mailbox answer whose state is canonical and whose sequel keeps it so. -/
structure MbxAns.Canon (a : MbxAns) : Prop where
  s : a.s.RegsCanon
  next : ∀ t, t.RegsCanon → (a.next t).RegsCanon

namespace MbxAns.Canon

theorem now {s : State} {n d : Nat} {b : Bytes} (h : s.RegsCanon) : MbxAns.Canon ⟨s, n, d, b, id⟩ := ⟨h, fun _ h => h⟩

theorem ite {c : Prop} {_ : Decidable c} {a b : MbxAns} (ha : a.Canon) (hb : b.Canon) : (if c then a else b).Canon := by
  split <;> assumption

end MbxAns.Canon

namespace OutCanon

theorem next {s : State} (h : s.RegsCanon) : OutCanon (.next s) := by rintro _ ⟨⟩; exact h

theorem fault {r : Fault} : OutCanon (.fault r) := by rintro _ ⟨⟩

theorem ite {c : Prop} {_ : Decidable c} {a b : Out1} (ha : OutCanon a) (hb : OutCanon b) : OutCanon (if c then a else b) := by
  split <;> assumption

end OutCanon

namespace OptCanon

theorem some {s : State} (h : s.RegsCanon) : OptCanon (.some s) := by rintro _ ⟨⟩; exact h

theorem none : OptCanon .none := by rintro _ ⟨⟩

theorem ite {c : Prop} {_ : Decidable c} {a b : Option State} (ha : OptCanon a) (hb : OptCanon b) :
    OptCanon (if c then a else b) := by split <;> assumption

end OptCanon

namespace OptFstCanon
variable {A : Type}

theorem some {p : State × A} (h : p.1.RegsCanon) : OptFstCanon (.some p) := by rintro _ ⟨⟩; exact h

theorem none : OptFstCanon (.none : Option (State × A)) := by rintro _ ⟨⟩

theorem ite {c : Prop} {_ : Decidable c} {a b : Option (State × A)} (ha : OptFstCanon a) (hb : OptFstCanon b) :
    OptFstCanon (if c then a else b) := by split <;> assumption

end OptFstCanon

/-- Writes over a canonical map leave it canonical. -/
theorem mwf_foldl_mset {A : Type} (l : List A) {m : SMap Word} (h : mwf regReset m = true) {f : SMap Word → A → SMap Word}
    (hf : ∀ m x, mwf regReset m = true → mwf regReset (f m x) = true) : mwf regReset (l.foldl f m) = true := by
  induction l generalizing m with
  | nil => exact h
  | cons x l ih => exact ih (hf m x h)

namespace State.RegsCanon
variable {s : State}

/-- A change of other fields keeps the registers. -/
theorem upd {held latch tb ev pcie tsf pauses pauseFrac pauseSince byp0 byp1 portSt egr otnIf otnPc pm pmNext pmLast
    pmLate tsi ring cls punt acl tmem cmt routes pivots look learn kpr nvm md bist i2cPtr tap shp gate gateSeen
    gateSpill stm soj sq hrd adm eport fab svy pmcSt engCnt gal galIn echo tmSrc tmPort hbmUtil out free pending}
    (h : s.RegsCanon) :
    State.RegsCanon ⟨s.regs, held, latch, tb, ev, pcie, tsf, pauses, pauseFrac, pauseSince, byp0, byp1, portSt, egr,
      otnIf, otnPc, pm, pmNext, pmLast, pmLate, tsi, ring, cls, punt, acl, tmem, cmt, routes, pivots, look, learn, kpr,
      nvm, md, bist, i2cPtr, tap, shp, gate, gateSeen, gateSpill, stm, soj, sq, hrd, adm, eport, fab, svy, pmcSt,
      engCnt, gal, galIn, echo, tmSrc, tmPort, hbmUtil, out, free, pending⟩ := h

/-- An `if` of canonical states. -/
theorem branch {c : Prop} {_ : Decidable c} {a b : State} (ha : a.RegsCanon) (hb : b.RegsCanon) :
    (if c then a else b).RegsCanon := by split <;> assumption

/-- An `if` that leaves the state as it is otherwise. -/
theorem when {c : Prop} {_ : Decidable c} {t : State} (h : s.RegsCanon) (ht : s.RegsCanon → t.RegsCanon) :
    (if c then t else s).RegsCanon := branch (ht h) h

/-- An `if` that leaves the state as it is, or else changes it. -/
theorem whenNot {c : Prop} {_ : Decidable c} {t : State} (h : s.RegsCanon) (ht : s.RegsCanon → t.RegsCanon) :
    (if c then s else t).RegsCanon := branch h (ht h)

theorem branch_fst {A : Type} {c : Prop} {_ : Decidable c} {a b : State × A} (ha : a.1.RegsCanon) (hb : b.1.RegsCanon) :
    (if c then a else b).1.RegsCanon := by split <;> assumption

theorem branch_snd {A : Type} {c : Prop} {_ : Decidable c} {a b : A × State} (ha : a.2.RegsCanon) (hb : b.2.RegsCanon) :
    (if c then a else b).2.RegsCanon := by split <;> assumption

/-- The state of a pair that is matched on. -/
theorem of_fst {A : Type} {p : State × A} {t : State} {x : A} (h : p.1.RegsCanon) (e : p = (t, x)) : t.RegsCanon := by
  subst e; exact h

theorem foldS {A : Type} {l : List A} {f : A → State → State} (h : s.RegsCanon)
    (hf : ∀ x t, t.RegsCanon → (f x t).RegsCanon) : (foldS l f s).RegsCanon := by
  induction l generalizing s with
  | nil => exact h
  | cons x l ih => exact ih (hf x s h)

theorem foldl {A : Type} {l : List A} {f : State → A → State} (h : s.RegsCanon)
    (hf : ∀ t x, t.RegsCanon → (f t x).RegsCanon) : (l.foldl f s).RegsCanon := by
  induction l generalizing s with
  | nil => exact h
  | cons x l ih => exact ih (hf s x h)

theorem foldl_fst {A B : Type} {l : List A} {p : State × B} {f : State × B → A → State × B} (h : p.1.RegsCanon)
    (hf : ∀ q x, q.1.RegsCanon → (f q x).1.RegsCanon) : (l.foldl f p).1.RegsCanon := by
  induction l generalizing p with
  | nil => exact h
  | cons x l ih => exact ih (hf p x h)

/-! #### The named operations over registers (Machine/Ops) -/

theorem wrw {a : Nat} {w : Word} (h : s.RegsCanon) : (s.wrw a w).RegsCanon := mwf_mset _ h _ _
theorem wr {f : Fld} {v : Nat} (h : s.RegsCanon) : (s.wr f v).RegsCanon := h.wrw
theorem wrr {r : Reg} {v : Nat} (h : s.RegsCanon) : (s.wrr r v).RegsCanon := h.wrw
theorem wr64 {r : Reg} {v : Nat} (h : s.RegsCanon) : (s.wr64 r v).RegsCanon := h.wrw.wrw
theorem cnt {r : Reg} {off n : Nat} (h : s.RegsCanon) : (s.cnt r off n).RegsCanon := h.wr64
theorem satInc {f : Fld} {n : Nat} (h : s.RegsCanon) : (s.satInc f n).RegsCanon := h.wr
theorem wrapInc {f : Fld} {n : Nat} (h : s.RegsCanon) : (s.wrapInc f n).RegsCanon := h.wr
theorem emit {o : Out} (h : s.RegsCanon) : (s.emit o).RegsCanon := h.upd
theorem draw (h : s.RegsCanon) : (s.draw).2.RegsCanon := h.upd
theorem sendMsg {v : Nat} (h : s.RegsCanon) : (s.sendMsg v).RegsCanon := h.emit.upd
theorem deferMsg {v : Nat} (h : s.RegsCanon) : (s.deferMsg v).RegsCanon := h.whenNot (·.upd)
theorem setPba {v b : Nat} (h : s.RegsCanon) : (s.setPba v b).RegsCanon := h.wr
theorem trigger {v : Nat} (h : s.RegsCanon) : (s.trigger v).RegsCanon := branch h.setPba (branch h.deferMsg h.sendMsg)
theorem setPend {src : Nat} (h : s.RegsCanon) : (s.setPend src).RegsCanon := h.wr
theorem raise {src : Nat} (h : s.RegsCanon) : (s.raise src).RegsCanon :=
  h.whenNot (fun hq => hq.upd.whenNot (fun hq => hq.setPend.when (·.trigger)))
theorem setEvt {evt en : Reg} {f : Fld} {src : Nat} (h : s.RegsCanon) : (s.setEvt evt en f src).RegsCanon :=
  h.wr.when (·.raise)
theorem eccLog {mem addr : Nat} {ue : Bool} (h : s.RegsCanon) : (s.eccLog mem addr ue).RegsCanon := h.when (·.wr64)
theorem uncorrected {addr : Nat} (h : s.RegsCanon) : (s.uncorrected addr).RegsCanon := h.upd.cnt.eccLog.raise

/-! #### The performance-monitoring bins (Machine/PmBins) -/

theorem pmSuspect (h : s.RegsCanon) : s.pmSuspect.RegsCanon := h.upd
theorem pmCloseAt {sec : Nat} {sus : Bool} (h : s.RegsCanon) : (s.pmCloseAt sec sus).RegsCanon := h.upd.raise

theorem pmCloses {sus : Bool} {upto m : Nat} (h : s.RegsCanon) : (s.pmCloses sus upto m).RegsCanon := by
  induction m generalizing s with
  | zero => exact h
  | succ _ ih => exact branch (ih h.pmCloseAt) h

theorem pmCatchUp {sus : Bool} {upto : Nat} (h : s.RegsCanon) : (s.pmCatchUp sus upto).RegsCanon := h.whenNot (·.pmCloses)

/-! #### The token buckets of the punt path (Machine/PuntTokens) -/

theorem setTokens {k v : Nat} (h : s.RegsCanon) : (s.setTokens k v).RegsCanon := h.upd
theorem puntSync (h : s.RegsCanon) : s.puntSync.RegsCanon := h.whenNot (fun hq => hq.upd.foldS (fun _ _ h1 => h1.setTokens))
theorem puntStep {t : Nat} (h : s.RegsCanon) : (s.puntStep t).RegsCanon := h.puntSync.upd

/-! #### Windrose and Cadence (Machine/TimeBase) -/

theorem countPause {port t a b : Nat} (h : s.RegsCanon) : (s.countPause port t a b).RegsCanon := h.whenNot (·.cnt.upd)
theorem countPauses {a b : Nat} (h : s.RegsCanon) : (s.countPauses a b).RegsCanon := h.foldS (fun _ _ h1 => h1.countPause)
theorem countHoldover (h : s.RegsCanon) : s.countHoldover.RegsCanon := h.when (·.wr)
theorem freeze (h : s.RegsCanon) : s.freeze.RegsCanon := h.upd
theorem thaw (h : s.RegsCanon) : s.thaw.RegsCanon := h.upd
theorem elapse {d e0 rem : Nat} (h : s.RegsCanon) : (s.elapse d e0 rem).RegsCanon :=
  have h2 := h.upd.when (·.wr); branch h2.countPauses.freeze.countPauses.countHoldover h2.countPauses.countHoldover
theorem advanceTo {target : Nat} (h : s.RegsCanon) : (s.advanceTo target).RegsCanon := h.when (·.elapse)
theorem advanceUp {up : Nat} (h : s.RegsCanon) : (s.advanceUp up).RegsCanon := h.when (·.elapse)
theorem passPart {k : Nat} (h : s.RegsCanon) : (s.passPart k).RegsCanon := h.advanceTo
theorem idle (h : s.RegsCanon) : s.idle.RegsCanon := h.whenNot (·.advanceUp)
theorem pmStep {fwd : Bool} (h : s.RegsCanon) : (s.pmStep fwd).RegsCanon := h.pmSuspect.upd.when (·.pmCatchUp)
theorem stepTo {t : Nat} (h : s.RegsCanon) : (s.stepTo t).RegsCanon :=
  have h3 := h.thaw.puntStep.upd.wr.wr.raise; branch (h3.pmStep.when (·.upd)) (h3.pmStep.wr.raise.whenNot (·.wr64.upd))
theorem noteFreq (h : s.RegsCanon) : s.noteFreq.RegsCanon := h.upd
theorem drawOffset {m : Nat} (h : s.RegsCanon) : (s.drawOffset m).2.RegsCanon := h.upd
theorem loopFreq (h : s.RegsCanon) : s.loopFreq.RegsCanon := h.upd.upd.noteFreq
theorem followB (h : s.RegsCanon) : s.followB.RegsCanon := h.upd.upd.noteFreq
theorem followC (h : s.RegsCanon) : s.followC.RegsCanon := h.upd.upd.noteFreq
theorem dpllA {n : Nat} (h : s.RegsCanon) : (s.dpllA n).RegsCanon :=
  .branch h (have h1 := h.wr.raise; branch h1.upd (h1.when (·.wr.upd)))
theorem dpllB {n : Nat} (h : s.RegsCanon) : (s.dpllB n).RegsCanon := h.whenNot (fun hq => hq.wr.raise.when (·.upd))
theorem loseA (h : s.RegsCanon) : s.loseA.RegsCanon := branch h (branch h.dpllA.noteFreq h.upd.dpllA.noteFreq)
theorem loseB (h : s.RegsCanon) : s.loseB.RegsCanon := branch h (branch h.dpllB.noteFreq h.upd.dpllB.noteFreq)
theorem gainA (h : s.RegsCanon) : s.gainA.RegsCanon := h.when (·.dpllA.loopFreq)
theorem gainB (h : s.RegsCanon) : s.gainB.RegsCanon := h.when (·.dpllB.followB)
theorem holdLast (h : s.RegsCanon) : s.holdLast.RegsCanon := ((h.upd.whenNot (·.dpllA)).whenNot (·.dpllB)).noteFreq
theorem setRef {r : Nat} {ok : Bool} (h : s.RegsCanon) : (s.setRef r ok).RegsCanon := h.whenNot (·.wr.raise)
theorem refSee {r : Nat} {t : Option Nat} (h : s.RegsCanon) : (s.refSee r t).RegsCanon := h.upd

theorem refLost {r : Nat} (h : s.RegsCanon) : (s.refLost r).RegsCanon := by
  refine .branch (.branch (.upd (.raise (.when (.setRef (.refSee (.branch ?_ h))) (·.loseB))))
      (.loseA (.when (.setRef (.refSee (.branch ?_ h))) (·.loseB)))) (.when (.setRef (.refSee (.branch ?_ h))) (·.loseB))
  all_goals
    split
    · exact h.advanceUp
    · exact h

theorem refQualified {r : Nat} (h : s.RegsCanon) : (s.refQualified r).RegsCanon :=
  h.whenNot (fun hq => ((hq.advanceUp.setRef.when (·.followC)).when (·.gainB)).when (·.gainA))
theorem dpllLock {b : Bool} (h : s.RegsCanon) : (s.dpllLock b).RegsCanon :=
  branch (h.when (·.dpllB.followB)) (branch (branch h.dpllA.noteFreq h.dpllA.loopFreq) h)
theorem applyFreq (h : s.RegsCanon) : s.applyFreq.RegsCanon := h.upd.noteFreq.whenNot (·.wr.raise)
theorem servoBack (h : s.RegsCanon) : s.servoBack.RegsCanon := h.when (·.dpllA.noteFreq)
theorem adjFreqWritten (h : s.RegsCanon) : s.adjFreqWritten.RegsCanon := h.when (·.applyFreq.servoBack)
theorem phaseCorrect {ps : ℤ} (h : s.RegsCanon) : (s.phaseCorrect ps).RegsCanon :=
  branch h (branch h.servoBack.upd.wr (branch h.servoBack.stepTo h.servoBack.wr.raise))
theorem slewDone (h : s.RegsCanon) : s.slewDone.RegsCanon := h.whenNot (·.advanceUp.wr)
theorem setErr (h : s.RegsCanon) : s.setErr.RegsCanon := h.wr.raise
theorem timeSetApply (h : s.RegsCanon) : s.timeSetApply.RegsCanon := branch h.wr.setErr (branch h.wr.stepTo h.wr.setErr)
theorem timeSetGo (h : s.RegsCanon) : s.timeSetGo.RegsCanon := branch h (branch h.setErr (branch h.wr h.timeSetApply))

theorem wrTime {r : Reg} {t16 : Nat} (h : s.RegsCanon) : (s.wrTime r t16).RegsCanon := by
  unfold State.wrTime
  split
  · exact h.wrw.wrw.wrw.wrw
  · exact h

theorem ppsEdge {i : Nat} (h : s.RegsCanon) : (s.ppsEdge i).RegsCanon :=
  ((h.when (·.refSee)).upd.wrTime.when (·.loopFreq)).when (·.timeSetApply)
theorem ppsOut {n : Nat} (h : s.RegsCanon) : (s.ppsOut n).RegsCanon := h.when (·.advanceTo.emit)

theorem refsWritten {old : State} (h' : s.RegsCanon) : (old.refsWritten s).RegsCanon := by
  refine .branch (.noteFreq (.branch h' ?_)) ?_
  · split
    · exact h'.dpllB
    · exact branch h'.gainB h'.loseB
  · dsimp only
    split
    · refine .branch (.gainA (.loopFreq (.upd (.branch h' ?_)))) (.loseA (.loopFreq (.upd (.branch h' ?_))))
      all_goals
        split
        · exact h'.dpllB
        · exact branch h'.gainB h'.loseB
    · refine .when (.upd (.branch h' ?_)) (·.applyFreq)
      split
      · exact h'.dpllB
      · exact branch h'.gainB h'.loseB

theorem showTsf (h : s.RegsCanon) : s.showTsf.RegsCanon := by
  unfold State.showTsf
  dsimp only
  split <;> exact h.wr.wrw.wrw.wrw.wrw

theorem tsfPush {e0 : TsfEntry} (h : s.RegsCanon) : (s.tsfPush e0).RegsCanon := branch h.satInc.raise h.upd.showTsf.raise
theorem tsfPop (h : s.RegsCanon) : s.tsfPop.RegsCanon := h.upd.showTsf
theorem setLane {c : LaneCal} (h : s.RegsCanon) : (s.setLane c).RegsCanon := h.wr.wr
theorem recal {l : List LaneCal} (h : s.RegsCanon) : (s.recal l).RegsCanon := h.whenNot (·.advanceUp.wrapInc.upd)
theorem calApply (h : s.RegsCanon) : s.calApply.RegsCanon := .upd (h.foldS (fun _ _ h1 => h1.setLane.when (·.wr.raise)))
theorem cadCfgErr (h : s.RegsCanon) : s.cadCfgErr.RegsCanon := h.wr.raise
theorem cadEn {v : Bool} (h : s.RegsCanon) : (s.cadEn v).RegsCanon :=
  branch (branch h.cadCfgErr (h.whenNot (·.wr.upd))) h.thaw.wr.wr
theorem cadPeriod {v : Nat} (h : s.RegsCanon) : (s.cadPeriod v).RegsCanon := branch h.cadCfgErr h.wr
theorem cadPhase {v : Nat} (h : s.RegsCanon) : (s.cadPhase v).RegsCanon := branch h.cadCfgErr h.wr
theorem issueTick (h : s.RegsCanon) : s.issueTick.RegsCanon := h.advanceTo.wr64.wr.upd
theorem overrun {i : Nat} (h : s.RegsCanon) : (s.overrun i).RegsCanon := h.wr.satInc.raise

/-! #### The bypass state machines of the two tether ports (Machine/Bypass) -/

theorem bypT {n : Nat} {f : BypTimers → BypTimers} (h : s.RegsCanon) : (s.bypT n f).RegsCanon := branch h.upd h.upd
theorem bypEnter {n st : Nat} (h : s.RegsCanon) : (s.bypEnter n st).RegsCanon := h.whenNot (·.wr.wr.raise.bypT)
theorem bypEval {n : Nat} (h : s.RegsCanon) : (s.bypEval n).RegsCanon := h.when (·.bypEnter)
theorem bypClose {n : Nat} {keeper : Bool} (h : s.RegsCanon) : (s.bypClose n keeper).RegsCanon := h.bypEnter.when (·.bypT)
theorem bypCtrlWritten {old : State} {n : Nat} (h' : s.RegsCanon) : (old.bypCtrlWritten s n).RegsCanon :=
  branch h'.bypClose h'.bypEval

theorem bypSettled {n : Nat} (h : s.RegsCanon) : (s.bypSettled n).RegsCanon := by
  unfold State.bypSettled
  split
  · exact h.when (·.advanceUp.bypEnter)
  · exact h

theorem bypRelink {n : Nat} (h : s.RegsCanon) : (s.bypRelink n).RegsCanon := h.when (·.advanceUp.satInc.bypEnter)
theorem bypRetry {n : Nat} (h : s.RegsCanon) : (s.bypRetry n).RegsCanon := h.when (·.advanceUp.bypEnter)
theorem tetherTx {n : Nat} {on : Bool} (h : s.RegsCanon) : (s.tetherTx n on).RegsCanon := h.upd
theorem bypShut {n : Nat} (h : s.RegsCanon) : (s.bypShut n).RegsCanon := branch h.bypClose h.bypEnter.tetherTx

theorem bypWait {n : Nat} (h : s.RegsCanon) : (s.bypWait n).RegsCanon := by
  unfold State.bypWait
  split
  · exact h.advanceUp
  · exact h

theorem bypHoldEnd {n : Nat} (h : s.RegsCanon) : (s.bypHoldEnd n).RegsCanon := by
  unfold State.bypHoldEnd
  split
  · exact h
  · exact h.advanceUp.bypT.whenNot (·.tetherTx)

theorem bypLinkUp {n : Nat} (h : s.RegsCanon) : (s.bypLinkUp n).RegsCanon := branch h.bypEnter (h.when (·.bypT))
theorem bypLinkDown {n : Nat} (h : s.RegsCanon) : (s.bypLinkDown n).RegsCanon := branch h.raise h.bypT

/-! #### Time gates (Machine/Gates) -/

theorem gateUpd {k : Nat} {f : GateInst → GateInst} (h : s.RegsCanon) : (s.gateUpd k f).RegsCanon := h.upd
theorem gatEvt {f : Fld} (h : s.RegsCanon) : (s.gatEvt f).RegsCanon := h.setEvt
theorem gatShow {l : List Nat} (h : s.RegsCanon) : (s.gatShow l).RegsCanon := h.foldS (fun _ _ h1 => h1.wrr)
theorem gatDone {err : Nat} (h : s.RegsCanon) : (s.gatDone err).RegsCanon := h.wr.wr.wr
theorem gatSwitch {k : Nat} (h : s.RegsCanon) : (s.gatSwitch k).RegsCanon :=
  branch h.gatDone (branch h.gatDone (branch h.gatDone h.gateUpd.gatDone))
theorem gatRestore {k : Nat} (h : s.RegsCanon) : (s.gatRestore k).RegsCanon :=
  branch h.gatDone (branch h.gatDone h.gateUpd.gatDone)

theorem gatList {op space i j : Nat} (h : s.RegsCanon) : (s.gatList op space i j).RegsCanon := by
  refine .branch h.gatDone ?_
  split
  · exact branch h.gatDone h.gateUpd.gatDone
  · exact h.gatShow.gatDone
  · exact h.gatShow.gatDone
  · exact branch h.gatDone h.gateUpd.gatDone
  · exact h.gatShow.gatDone
  · exact h.gatSwitch
  · exact h.gateUpd.gatDone
  · exact h.gatRestore
  · exact h.gatDone

theorem gateTick {n : Nat} (h : s.RegsCanon) : (s.gateTick n).RegsCanon :=
  .upd (.foldS ((h.whenNot (·.overrun)).foldS (fun _ _ h2 => h2.gateUpd)) (fun _ _ h4 => h4.gateUpd))

theorem gateSwitch {k : Nat} (h : s.RegsCanon) : (s.gateSwitch k).RegsCanon := by
  unfold State.gateSwitch
  split
  · exact h
  · exact h.gateUpd

theorem gateCopied {k : Nat} (h : s.RegsCanon) : (s.gateCopied k).RegsCanon := h.when (·.gateUpd.gatEvt)

theorem gateIntervalEnd {k : Nat} (h : s.RegsCanon) : (s.gateIntervalEnd k).RegsCanon := by
  unfold State.gateIntervalEnd
  split
  · exact h
  · exact h.advanceTo

/-! #### Buffer-pool accounting over the HRD registers (Machine/Pools) -/

theorem poolBuild {k n : Nat} (h : s.RegsCanon) : (s.poolBuild k n).RegsCanon := h.wr.wr.wr
theorem poolTake {k n : Nat} (h : s.RegsCanon) : (s.poolTake k n).RegsCanon := h.wr.cnt.wr
theorem poolGive {k n : Nat} (h : s.RegsCanon) : (s.poolGive k n).RegsCanon := h.wr.cnt
theorem cellsLost {k n : Nat} (h : s.RegsCanon) : (s.cellsLost k n).RegsCanon := h.whenNot (·.wr.cnt.setEvt)
theorem stackPop {k n : Nat} (h : s.RegsCanon) : (s.stackPop k n).1.RegsCanon := h.upd.upd
theorem stackPush {k : Nat} {l : List Nat} (h : s.RegsCanon) : (s.stackPush k l).RegsCanon := h.upd

/-! #### The table region of HBM as words (Machine/Tmem) -/

theorem twSet {a v : Nat} (h : s.RegsCanon) : (s.twSet a v).RegsCanon := h.upd
theorem tByteSet {a : Nat} {b : Byte} (h : s.RegsCanon) : (s.tByteSet a b).RegsCanon := h.twSet

theorem twPut {a : Nat} {m : List Nat} (h : s.RegsCanon) : (s.twPut a m).RegsCanon := by
  induction m generalizing s a with
  | nil => exact h
  | cons _ _ ih => exact ih h.twSet

theorem inflightInc {adj : Bool} {i : Nat} (h : s.RegsCanon) : (s.inflightInc adj i).RegsCanon := h.twSet
theorem inflightDec {adj : Bool} {i : Nat} (h : s.RegsCanon) : (s.inflightDec adj i).RegsCanon := h.twSet

theorem nhDone {p : Pkt} (h : s.RegsCanon) : (s.nhDone p).RegsCanon := by
  unfold State.nhDone
  split
  · exact h.inflightDec
  · exact h

/-! #### Line and tether ports (Machine/Ports) -/

theorem pstUpd {p : Nat} {f : PortSt → PortSt} (h : s.RegsCanon) : (s.pstUpd p f).RegsCanon := h.upd
theorem portEvt {p : Nat} {f : Fld} (h : s.RegsCanon) : (s.portEvt p f).RegsCanon := h.setEvt
theorem lpt {p i n : Nat} (h : s.RegsCanon) : (s.lpt p i n).RegsCanon := h.cnt

theorem cells1Take {m : Nat} (h : s.RegsCanon) : (s.cells1Take m).1.RegsCanon := by
  induction m generalizing s with
  | zero => exact h
  | succ _ ih => exact ih h.upd.upd

theorem chainFill {m : List EgrFrame} (h : s.RegsCanon) : (s.chainFill m).1.RegsCanon := by
  induction m generalizing s with
  | nil => exact h
  | cons _ _ ih => exact ih h.cells1Take

theorem eqSet {p c : Nat} {l : List EgrFrame} (h : s.RegsCanon) : (s.eqSet p c l).RegsCanon :=
  have h3 := h.chainFill.stackPush.upd.wr; (branch h3.poolTake (h3.when (·.poolGive))).wr

theorem holdFlush {p : Nat} (h : s.RegsCanon) : (s.holdFlush p).RegsCanon :=
  .setEvt (.pstUpd (.wr (.wr (.whenNot (h.foldS (fun _ _ h1 => h1.whenNot
    (fun hq => hq.cnt.eqSet.foldS (fun _ _ h3 => h3.whenNot (·.inflightDec))))) (·.cnt.upd)))))

theorem holdOpen {p : Nat} (h : s.RegsCanon) : (s.holdOpen p).RegsCanon := branch h.pstUpd.holdFlush h.pstUpd.wr

theorem holdEnd {p : Nat} (h : s.RegsCanon) : (s.holdEnd p).RegsCanon := by
  unfold State.holdEnd
  split
  · exact h
  · exact h.when (·.advanceTo.holdFlush)

theorem holdClose {p : Nat} (h : s.RegsCanon) : (s.holdClose p).RegsCanon := by
  unfold State.holdClose
  split
  · exact h
  · exact (h.when (·.holdFlush)).wr.wr.pstUpd

theorem startAttempt {p : Nat} (h : s.RegsCanon) : (s.startAttempt p).RegsCanon := h.when (·.wr.wr.pstUpd)

theorem attemptTimeout {p : Nat} (h : s.RegsCanon) : (s.attemptTimeout p).RegsCanon := by
  unfold State.attemptTimeout
  split
  · exact h.advanceUp.pstUpd
  · exact h

theorem retryExpired {p : Nat} (h : s.RegsCanon) : (s.retryExpired p).RegsCanon := by
  unfold State.retryExpired
  split
  · exact h.advanceUp.startAttempt
  · exact h

theorem partnerSignal {p : Nat} (h : s.RegsCanon) : (s.partnerSignal p).RegsCanon := by
  unfold State.partnerSignal
  split
  · exact h.startAttempt
  · exact h

theorem anComplete {p : Nat} {ok : Bool} (h : s.RegsCanon) : (s.anComplete p ok).RegsCanon := by
  unfold State.anComplete
  split
  · exact branch h (branch h.wr h.wr.portEvt)
  · exact h

theorem txAbort {p : Nat} (h : s.RegsCanon) : (s.txAbort p).RegsCanon :=
  branch ((branch h.upd.pstUpd.wr64 h.upd.pstUpd.wr64.wr64).lpt.emit) h.upd.pstUpd
theorem onWire {p n : Nat} {pfc : Bool} (h : s.RegsCanon) : (s.onWire p n pfc).RegsCanon := h.pstUpd
theorem toBoundary {p : Nat} (h : s.RegsCanon) : (s.toBoundary p).RegsCanon := h.advanceTo
theorem linkFalls {p : Nat} (h : s.RegsCanon) : (s.linkFalls p).RegsCanon :=
  h.whenNot (fun hq => (hq.wr.lpt.portEvt.pstUpd.holdOpen.when (·.bypLinkDown)).startAttempt)
theorem linkRises {p : Nat} (h : s.RegsCanon) : (s.linkRises p).RegsCanon :=
  h.whenNot (fun hq => hq.wr.portEvt.upd.pstUpd.holdClose.when (·.bypLinkUp))

theorem rawDown {p : Nat} {c : LinkCause} (h : s.RegsCanon) : (s.rawDown p c).RegsCanon := by
  refine .branch h (.branch ?_ (.branch (.pstUpd (.txAbort ?_)) (.branch (.linkFalls (.pstUpd (.txAbort ?_)))
      (.pstUpd (.pstUpd (.txAbort ?_))))))
  all_goals
    split
    · exact h.wr
    · exact h.wr.portEvt
    · exact h.wr
    · exact h.wr

theorem measure {p : Nat} {cal : List LaneCal} (h : s.RegsCanon) : (s.measure p cal).RegsCanon := by
  refine h.foldS (fun _ _ h1 => ?_)
  split
  · exact h1.setLane
  · exact h1.upd.setLane

theorem rawUpAgain {p : Nat} {cal : List LaneCal} (h : s.RegsCanon) : (s.rawUpAgain p cal).RegsCanon :=
  .branch h (have h1 := h.wr.wr.wr.wr; branch h1.measure (branch h1.measure.pstUpd
    (branch h1.measure.linkRises h1.measure.pstUpd)))

theorem downHoldExpired {p : Nat} (h : s.RegsCanon) : (s.downHoldExpired p).RegsCanon := by
  unfold State.downHoldExpired
  split
  · exact h.advanceUp.linkFalls
  · exact h

theorem upHoldExpired {p : Nat} (h : s.RegsCanon) : (s.upHoldExpired p).RegsCanon := by
  unfold State.upHoldExpired
  split
  · exact h.advanceUp.linkRises
  · exact h

theorem portOff {p : Nat} {finish : Bool} (h : s.RegsCanon) : (s.portOff p finish).RegsCanon :=
  (h.when (·.toBoundary)).txAbort.linkFalls.wr.pstUpd
theorem linesOff {finish : Bool} (h : s.RegsCanon) : (s.linesOff finish).RegsCanon :=
  h.upd.foldS (fun _ _ h1 => h1.when (·.portOff))
theorem adminWritten {old : State} {p : Nat} (h' : s.RegsCanon) : (old.adminWritten s p).RegsCanon :=
  branch h'.txAbort.linkFalls.pstUpd (h'.when (fun hq => hq.startAttempt.when (·.rawUpAgain)))

theorem loadPause {port p start d : Nat} (h : s.RegsCanon) : (s.loadPause port p start d).RegsCanon := by
  unfold State.loadPause
  dsimp only
  split
  · exact branch h.upd h.upd
  · exact h.upd

theorem showPaused {port : Nat} (h : s.RegsCanon) : (s.showPaused port).RegsCanon := h.foldS (fun _ _ h1 => h1.wr.upd)
theorem pfcReceive {port : Nat} {b : Bytes} {stamp : Nat} (h : s.RegsCanon) : (s.pfcReceive port b stamp).RegsCanon :=
  .showPaused (h.lpt.foldS (fun _ _ h2 => h2.when (·.lpt.loadPause)))

theorem pauseExpired {port p : Nat} (h : s.RegsCanon) : (s.pauseExpired port p).RegsCanon := by
  unfold State.pauseExpired
  split
  · exact h
  · exact h.advanceTo.upd.showPaused

theorem sendPfc {port xoff rel : Nat} (h : s.RegsCanon) : (s.sendPfc port xoff rel).RegsCanon :=
  (h.toBoundary.upd.emit.when (·.cnt)).lpt.onWire.pstUpd
theorem pfcBoundary {port : Nat} (h : s.RegsCanon) : (s.pfcBoundary port).RegsCanon := h.when (·.sendPfc)
theorem pfcRefresh {port : Nat} (h : s.RegsCanon) : (s.pfcRefresh port).RegsCanon := h.when (·.advanceUp.sendPfc)
theorem setXoff {port t : Nat} {v : Bool} (h : s.RegsCanon) : (s.setXoff port t v).RegsCanon :=
  branch h (branch h.pstUpd h.pstUpd)

theorem pfcStorm {port t : Nat} (h : s.RegsCanon) : (s.pfcStorm port t).RegsCanon := by
  unfold State.pfcStorm
  split
  · exact h
  · exact h.when (·.advanceTo.portEvt)

/-! #### The parser (Machine/Parse) -/

theorem countParse {sl : Nat} {egress : Bool} {faults : Nat} (h : s.RegsCanon) :
    (s.countParse sl egress faults).RegsCanon :=
  h.cnt.foldS (fun _ _ h2 => h2.when (·.cnt))

/-! #### Host rings (Machine/Rings) -/

theorem writeShadow {i : Nat} (h : s.RegsCanon) : (s.writeShadow i).RegsCanon := h.emit.upd
theorem shadowChange {i : Nat} (h : s.RegsCanon) : (s.shadowChange i).RegsCanon :=
  branch h (branch h.writeShadow (h.whenNot (·.upd)))

theorem shadowDue {i : Nat} (h : s.RegsCanon) : (s.shadowDue i).RegsCanon := by
  refine .branch ?_ h
  split
  · exact h.writeShadow
  · exact h.advanceUp.writeShadow

theorem ringIrq {i : Nat} (h : s.RegsCanon) : (s.ringIrq i).RegsCanon := h.when (·.trigger)
theorem setProd {i v : Nat} (h : s.RegsCanon) : (s.setProd i v).RegsCanon := h.wr.shadowChange.ringIrq
theorem setCons {i v : Nat} (h : s.RegsCanon) : (s.setCons i v).RegsCanon := h.wr.shadowChange.when (·.ringIrq)
theorem produceEntry {i : Nat} {b : Bytes} (h : s.RegsCanon) : (s.produceEntry i b).RegsCanon := h.emit.cnt.setProd

theorem rspWrite {m : List RspWait} (h : s.RegsCanon) : (s.rspWrite m).RegsCanon := by
  induction m generalizing s with
  | nil => exact h.upd
  | cons _ _ ih => exact branch (ih h.produceEntry) h.upd

theorem rspPump (h : s.RegsCanon) : s.rspPump.RegsCanon := h.whenNot (·.rspWrite)
theorem rspPut {x : RspWait} (h : s.RegsCanon) : (s.rspPut x).RegsCanon := h.upd.rspPump
theorem produceRecord {i : Nat} {b : Bytes} (h : s.RegsCanon) : (s.produceRecord i b).RegsCanon :=
  (h.whenNot (·.emit)).emit.cnt.setProd
theorem hstEvt {f : Fld} (h : s.RegsCanon) : (s.hstEvt f).RegsCanon := h.setEvt
theorem ringDrop {i : Nat} (h : s.RegsCanon) : (s.ringDrop i).RegsCanon := h.cnt.hstEvt
theorem ringEnable {i : Nat} (h : s.RegsCanon) : (s.ringEnable i).RegsCanon :=
  .branch h (have h2 := h.wr.wr.wr.wr.whenNot (·.shadowChange); branch h2.upd.upd (h2.upd.when (·.rspPump)))

theorem digestPump (h : s.RegsCanon) : s.digestPump.RegsCanon := by
  unfold State.digestPump
  split
  · exact h
  · exact h.whenNot (·.produceEntry.upd.wr64)

theorem digestClose {last bits : Nat} (h : s.RegsCanon) : (s.digestClose last bits).RegsCanon := by
  refine .branch h.upd ?_
  dsimp only
  split
  · exact h.digestPump.upd.digestPump
  · exact h.digestPump.upd.overrun

theorem ringDisable {i : Nat} (h : s.RegsCanon) : (s.ringDisable i).RegsCanon := h.when (·.wr.wr)
theorem dmaError {i addr : Nat} (h : s.RegsCanon) : (s.dmaError i addr).RegsCanon := h.when (·.wr.wr.wr64.wr.hstEvt)

/-! #### Classification (Machine/Classify) -/

theorem classify {p : Pkt} (h : s.RegsCanon) : (s.classify p).1.RegsCanon := by
  rw [show @State.classify = delta% @State.classify from rfl]
  beta_reduce
  extract_lets key e a
  clear_value key e a
  split
  extract_lets tc col q
  clear_value q
  split
  · exact h.cnt
  · exact h
  · refine branch_fst h.cnt (branch_fst h ?_)
    split
    · exact h.cnt
    · exact h.when (·.cnt)

theorem clsShow {e0 : ClsEnt} (h : s.RegsCanon) : (s.clsShow e0).RegsCanon := h.foldS (fun _ _ h1 => h1.wrw)
theorem clsDone {err : Nat} (h : s.RegsCanon) : (s.clsDone err).RegsCanon := h.wr.wr.wr.raise
theorem clsPut {sl i : Nat} {e0 : ClsEnt} (h : s.RegsCanon) : (s.clsPut sl i e0).RegsCanon := h.upd

theorem clsCmd {op : Nat} (h : s.RegsCanon) : (s.clsCmd op).RegsCanon := by
  refine .branch h.wr (.branch h.clsDone ?_)
  split
  · exact .branch h.clsDone (.clsDone (h.foldS (fun _ _ h1 => h1.clsPut)))
  · exact h.clsShow.clsDone
  · exact .clsDone (h.foldS (fun _ _ h2 => h2.clsPut))
  · exact h

theorem puntRefill (h : s.RegsCanon) : s.puntRefill.RegsCanon := h.puntSync.advanceTo.puntSync

theorem puntRecord {r reason : Nat} {p : Pkt} {egress : Bool} (h : s.RegsCanon) :
    (s.puntRecord r reason p egress).RegsCanon :=
  branch h.produceRecord.upd h.ringDrop

theorem puntPacket {reason : Nat} {p : Pkt} {egress : Bool} (h : s.RegsCanon) : (s.puntPacket reason p egress).RegsCanon :=
  branch (h.puntSync.cnt.whenNot (·.raise.upd)) (branch h.puntSync.setTokens.setTokens.cnt.emit
    h.puntSync.setTokens.setTokens.cnt.puntRecord)

/-! #### The structures of the table region (Machine/Tables) -/

theorem emWrite {i : Nat} {e0 : EmEnt} (h : s.RegsCanon) : (s.emWrite i e0).RegsCanon := h.twPut
theorem emShadowSet {i : Nat} {v : Option Nat} (h : s.RegsCanon) : (s.emShadowSet i v).RegsCanon := h.upd
theorem emFree {i : Nat} (h : s.RegsCanon) : (s.emFree i).RegsCanon := h.twPut.emShadowSet
theorem setEntState {a v : Nat} (h : s.RegsCanon) : (s.setEntState a v).RegsCanon := h.twSet

theorem entFreed {adj : Bool} {i : Nat} (h : s.RegsCanon) : (s.entFreed adj i).RegsCanon := by
  unfold State.entFreed
  dsimp only
  split
  · exact h
  · exact h.when (·.advanceUp.setEntState.upd.raise.emit)

theorem entDrain {adj : Bool} {i : Nat} (h : s.RegsCanon) : (s.entDrain adj i).RegsCanon := h.setEntState.upd

/-! #### Longest-prefix match (Machine/Lpm) -/

theorem lpmLine {b k : Nat} (h : s.RegsCanon) : (s.lpmLine b k).RegsCanon := h.foldS (fun _ _ h1 => h1.upd)

theorem putIn {b : Nat} {r : Route} (h : s.RegsCanon) : (s.putIn b r).RegsCanon := by
  unfold State.putIn
  split
  · exact h.lpmLine.upd
  · exact h.upd

theorem lpmSplit {p : Pivot} (h : s.RegsCanon) : OptFstCanon (s.lpmSplit p) := by
  unfold State.lpmSplit
  split
  · refine .some (.foldl (.upd (h.foldl (fun _ _ h1 => ?_))) (fun _ _ h4 => h4.putIn))
    split
    · exact h1.lpmLine
    · exact h1
  · exact .none

theorem rootPivot {vrf af : Nat} (h : s.RegsCanon) : (s.rootPivot vrf af).RegsCanon := by
  unfold State.rootPivot
  split
  · exact h.upd
  · exact h

theorem lpmPlace {r : Route} {m : Nat} (h : s.RegsCanon) : (s.lpmPlace r m).1.RegsCanon := by
  induction m generalizing s with
  | zero => exact h.upd
  | succ _ ih =>
    unfold State.lpmPlace
    split
    · exact branch_fst h.upd (ih h.rootPivot)
    · split
      · exact h.lpmLine.upd
      · split
        · exact h.upd
        · next e3 => exact ih (h.lpmSplit _ e3)

theorem refallOne {p : Pivot} (h : s.RegsCanon) : (s.refallOne p).RegsCanon := by
  unfold State.refallOne
  dsimp only
  split
  · exact h.upd
  · exact h.upd
  · exact h.upd.foldl (fun _ _ h2 => h2.lpmLine.upd)

theorem refall {vrf af : Nat} (h : s.RegsCanon) : (s.refall vrf af).RegsCanon := h.foldS (fun _ _ h1 => h1.refallOne)
theorem refallAll (h : s.RegsCanon) : s.refallAll.RegsCanon := .upd (h.foldS (fun _ _ h1 => h1.refallOne))

/-! #### The lookup stage (Machine/Lookup) -/

theorem learnSet {sl : Nat} {q : List Learn} (h : s.RegsCanon) : (s.learnSet sl q).RegsCanon := h.upd.wr

theorem learnEvent {sl tbl port key stamp : Nat} {move : Bool} (h : s.RegsCanon) :
    (s.learnEvent sl tbl port key stamp move).RegsCanon :=
  branch h.learnSet (branch h.cnt.raise h.learnSet)

theorem emSlot {p : Pkt} {prof i : Nat} (h : s.RegsCanon) : (s.emSlot p prof i).1.RegsCanon := by
  refine .branch_fst h ?_
  dsimp only
  split
  · exact h.when (·.learnEvent)
  · exact (h.when (·.learnEvent)).when (·.emWrite)

theorem useNh {p : Pkt} {nh : Nat} (h : s.RegsCanon) : (s.useNh p nh).1.RegsCanon := branch_fst h.cnt h.inflightInc

theorem actDecision {p : Pkt} {prof r : Nat} {routed : Bool} {ip : Option Hdr} (h : s.RegsCanon) :
    (s.actDecision p prof r routed ip).1.RegsCanon := by
  refine .branch_fst h.cnt ?_
  split
  · exact h.useNh
  · split
    · exact h
    · exact h.useNh
  · exact h
  · exact h.when (·.cnt)

theorem runSlots {p : Pkt} {prof : Nat} (h : s.RegsCanon) : (s.runSlots p prof).1.RegsCanon := h.emSlot.emSlot.emSlot.emSlot
theorem readLine {sl : Nat} {lpm : Bool} {l : Nat} (h : s.RegsCanon) : (s.readLine sl lpm l).1.RegsCanon :=
  branch_fst h h.upd.upd

theorem bucketLines {p : Option Pivot} (h : s.RegsCanon) : (s.bucketLines p).1.RegsCanon := by
  unfold State.bucketLines
  split
  · exact h
  · exact h.upd

theorem lpmLines {p : Pkt} {prof i : Nat} (h : s.RegsCanon) : (s.lpmLines p prof i).1.RegsCanon := h.bucketLines
theorem readLines {sl : Nat} {lpm : Bool} {l : List Nat} (h : s.RegsCanon) : (s.readLines sl lpm l).1.RegsCanon :=
  h.foldl_fst (fun _ _ h1 => h1.readLine)
theorem nhReads {r : Nat} (h : s.RegsCanon) : (s.nhReads r).1.RegsCanon := h.upd
theorem spendCredit {sl need : Nat} (h : s.RegsCanon) : (s.spendCredit sl need).RegsCanon := h.upd
theorem bwDrop {sl : Nat} (h : s.RegsCanon) : (s.bwDrop sl).RegsCanon := h.cnt.whenNot (·.raise.upd)

theorem spendReads {sl : Nat} {em lpm : List Nat} {n : Nat} {short : Bool} (h : s.RegsCanon) :
    (s.spendReads sl em lpm n short).1.RegsCanon :=
  branch_fst h h.readLines.readLines.cnt.cnt.cnt.cnt.spendCredit

theorem passReads {p : Pkt} {prof r : Nat} {short : Bool} (h : s.RegsCanon) : (s.passReads p prof r short).1.RegsCanon :=
  h.bucketLines.bucketLines.upd.spendReads

theorem lookPass {p : Pkt} {prof : Nat} {e : PassEnv} (h : s.RegsCanon) : (s.lookPass p prof e).1.RegsCanon := by
  rw [show @State.lookPass = delta% @State.lookPass from rfl]
  obtain ⟨slots, hslots, hs⟩ : ∃ f, f = State.runSlots ∧ ∀ t p n, t.RegsCanon → (f t p n).1.RegsCanon :=
    ⟨_, rfl, fun _ _ _ h => h.runSlots⟩
  obtain ⟨reads, hreads, hr⟩ : ∃ f, f = State.passReads ∧ ∀ t p n r b, t.RegsCanon → (f t p n r b).1.RegsCanon :=
    ⟨_, rfl, fun _ _ _ _ _ h => h.passReads⟩
  obtain ⟨decide, hdecide⟩ := exists_eq (a' := State.lookDecide)
  rw [← hslots, ← hreads, ← hdecide]
  clear hslots hreads hdecide
  beta_reduce
  extract_lets t
  have ht : t.RegsCanon := h.cnt
  clear_value t
  split
  split
  split
  · next e =>
    have hu := of_fst (hr _ _ _ _ _ ht) e
    exact branch_fst hu.cnt hu.bwDrop
  · next e =>
    have hu := of_fst (hr _ _ _ _ _ ht) e
    split
    next e =>
      extract_lets v q
      have hv : v.RegsCanon := (of_fst (hs _ _ _ hu) e).when (·.cnt.raise)
      clear_value v q
      exact branch_fst hv (branch_fst (branch_fst hv hv.cnt) hv.actDecision)

theorem learnOnly {p : Pkt} (h : s.RegsCanon) : (s.learnOnly p).RegsCanon := h.emSlot.emSlot.emSlot.emSlot

/-! #### The ACL TCAM (Machine/Acl) -/

theorem aclLost {sl i : Nat} (h : s.RegsCanon) : (s.aclLost sl i).RegsCanon := h.upd.cnt.uncorrected.raise.emit
theorem aclFalse {sl : Nat} {e0 : AclEnv} {i : Nat} (h : s.RegsCanon) : (s.aclFalse sl e0 i).RegsCanon :=
  have h1 := h.cnt.raise; branch (h1.uncorrected.when (·.aclLost)) (h1.whenNot (·.upd))

theorem aclTry {sl key n : Nat} {e : AclEnv} {l : List (Nat × AclEnt)} (h : s.RegsCanon) :
    (s.aclTry sl key e n l).1.RegsCanon := by
  induction l generalizing s n with
  | nil => unfold State.aclTry; exact h
  | cons _ _ ih =>
    unfold State.aclTry
    refine branch_fst h ?_
    cases n with
    | zero => exact h.aclFalse.cnt
    | succ _ => exact ih h.aclFalse

theorem aclSearch {sl key : Nat} {e0 : AclEnv} (h : s.RegsCanon) : (s.aclSearch sl key e0).1.RegsCanon :=
  (h.cnt.aclTry.when (·.cnt)).when (·.cnt)

theorem aclStep {sl key : Nat} {cur : Option (Nat × Nat)} {e0 : AclEnv} (h : s.RegsCanon) :
    (s.aclStep sl key cur e0).1.RegsCanon :=
  h.cnt.aclTry.when (·.cnt)

theorem aclHit {sl : Nat} {r : AclRes} (h : s.RegsCanon) : (s.aclHit sl r).RegsCanon := by
  unfold State.aclHit
  split
  · exact h.when (·.upd)
  · exact h

theorem aclLookup {p : Pkt} {prof : Nat} {one : Bool} {e0 : AclEnv} (h : s.RegsCanon) :
    (s.aclLookup p prof one e0).1.RegsCanon :=
  branch_fst h h.aclSearch.aclHit

theorem aclResults {p : Pkt} {prof : Nat} {e0 : PassEnv} (h : s.RegsCanon) : (s.aclResults p prof e0).1.RegsCanon :=
  h.aclLookup.aclLookup

theorem aclPass {p : Pkt} {prof : Nat} {e0 : PassEnv} {v : Verdict} (h : s.RegsCanon) :
    (s.aclPass p prof e0 v).1.RegsCanon := by
  refine .branch_fst h.aclLookup.aclLookup ?_
  split <;> exact h.aclLookup.aclLookup

theorem aclWSet {i v : Nat} (h : s.RegsCanon) : (s.aclWSet i v).RegsCanon := h.wrw
theorem aclWsSet {i k n : Nat} (h : s.RegsCanon) : (s.aclWsSet i k n).RegsCanon := h.foldS (fun _ _ h1 => h1.aclWSet)
theorem aclDone {err : Nat} (h : s.RegsCanon) : (s.aclDone err).RegsCanon := h.wr.wr.wr.raise
theorem aclPut {sl i : Nat} {e0 : AclEnt} (h : s.RegsCanon) : (s.aclPut sl i e0).RegsCanon := h.upd
theorem aclSlot {sl : Nat} (h : s.RegsCanon) : (s.aclSlot sl).RegsCanon := h.cnt

theorem aclCmd {op : Nat} {e0 : AclEnv} (h : s.RegsCanon) : (s.aclCmd op e0).RegsCanon := by
  refine .branch h.wr (.branch h.aclDone ?_)
  dsimp only
  split
  · exact .branch h.aclDone (.aclDone (.wrapInc (h.foldS (fun _ _ h1 => h1.aclSlot.aclPut))))
  · exact h.aclSlot.aclWsSet.aclWsSet.aclWsSet.aclWSet.aclDone
  · exact .aclDone (.wrapInc (h.foldS (fun _ _ h3 => h3.aclSlot.aclPut)))
  · split
    · exact h.aclSlot.aclStep.aclDone
    · exact h.aclSlot.aclStep.aclWsSet.aclWSet.aclWSet.aclDone
  · exact h.aclWsSet.aclDone.when (·.upd)
  · exact h.upd.aclDone

theorem aclScrub {sl : Nat} {sees : ScrubSees} (h : s.RegsCanon) : (s.aclScrub sl sees).RegsCanon := by
  refine .branch h ?_
  dsimp only
  split
  · split
    · exact h.upd.when (·.aclSlot.cnt)
    · exact h.upd.aclSlot.cnt
    · exact h.upd.uncorrected
    · exact h.upd.uncorrected.aclLost
  · split
    · exact h.upd.when (·.aclSlot.cnt)
    · exact h.upd.aclSlot.cnt
    · exact h.upd.uncorrected
    · exact h.upd.uncorrected.aclLost

/-! #### Galleries and threads (Machine/Gal) -/

theorem galUpd {g : Nat} {f : Gal → Gal} (h : s.RegsCanon) : (s.galUpd g f).RegsCanon := h.upd
theorem thrUpd {g i : Nat} {f : Thr → Thr} (h : s.RegsCanon) : (s.thrUpd g i f).RegsCanon := h.galUpd
theorem galCnt {g off n : Nat} (h : s.RegsCanon) : (s.galCnt g off n).RegsCanon := h.cnt
theorem galEvt {g : Nat} {f : Fld} (h : s.RegsCanon) : (s.galEvt g f).RegsCanon := h.setEvt
theorem rgSet {g i r v : Nat} (h : s.RegsCanon) : (s.rgSet g i r v).RegsCanon := h.whenNot (·.thrUpd)
theorem pdSet {g i p : Nat} {v : Bool} (h : s.RegsCanon) : (s.pdSet g i p v).RegsCanon := h.whenNot (·.thrUpd)
theorem gwSet {g k v : Nat} (h : s.RegsCanon) : (s.gwSet g k v).RegsCanon := h.galUpd

theorem memWr {g i a n v : Nat} (h : s.RegsCanon) : (s.memWr g i a n v).RegsCanon := by
  unfold State.memWr
  split
  · exact h.gwSet
  · exact h

theorem memPut {g i a : Nat} {m : Bytes} (h : s.RegsCanon) : (s.memPut g i a m).RegsCanon := by
  induction m generalizing s a with
  | nil => exact h
  | cons _ _ ih => exact ih h.memWr

theorem note {g w : Nat} (h : s.RegsCanon) : (s.note g w).RegsCanon := h.galUpd.thrUpd
theorem writeLost {g i a pc : Nat} (h : s.RegsCanon) : (s.writeLost g i a pc).RegsCanon := h.galCnt.galEvt.when (·.note)
theorem haltThr {g i cause code : Nat} (h : s.RegsCanon) : (s.haltThr g i cause code).RegsCanon :=
  (h.thrUpd.note.whenNot (·.galCnt)).when (·.galEvt)
theorem pmc {g i ev : Nat} (h : s.RegsCanon) : (s.pmc g i ev).RegsCanon :=
  h.whenNot (fun hq => hq.foldS (fun _ _ h1 => branch (branch h1.wr64.upd h1.wr64) h1))
theorem tokSet {g i n : Nat} {t : Option Tok} (h : s.RegsCanon) : (s.tokSet g i n t).RegsCanon := h.thrUpd
theorem saTouch {g i : Nat} (h : s.RegsCanon) : (s.saTouch g i).RegsCanon := h.galUpd

theorem tokResult {g i n w : Nat} (h : s.RegsCanon) : (s.tokResult g i n w).RegsCanon := by
  unfold State.tokResult
  split
  · exact h
  · exact h.saTouch.tokSet

theorem tokComplete {g i n status detail : Nat} (h : s.RegsCanon) : (s.tokComplete g i n status detail).RegsCanon :=
  h.tokResult
theorem fluePut {g f : Nat} {l : List Nat} (h : s.RegsCanon) : (s.fluePut g f l).RegsCanon := h.galUpd
theorem flueWaitPut {g f : Nat} {l : List (Nat × Nat)} (h : s.RegsCanon) : (s.flueWaitPut g f l).RegsCanon := h.galUpd

theorem flueServe {g f m : Nat} (h : s.RegsCanon) : (s.flueServe g f m).RegsCanon := by
  induction m generalizing s with
  | zero => exact h
  | succ _ ih =>
    unfold State.flueServe
    split
    · exact h
    · exact branch (ih h.flueWaitPut.thrUpd) h

theorem flueFreed {g f : Nat} (h : s.RegsCanon) : (s.flueFreed g f).RegsCanon := h.flueServe
theorem dropResv {g i : Nat} {p : Resv → Bool} (h : s.RegsCanon) : (s.dropResv g i p).RegsCanon :=
  h.thrUpd.foldS (fun _ _ h2 => h2.flueFreed)

theorem dropWait {g i : Nat} (h : s.RegsCanon) : (s.dropWait g i).RegsCanon := by
  unfold State.dropWait
  split
  · exact h.flueWaitPut.flueFreed
  · exact h

theorem retire {g i : Nat} (h : s.RegsCanon) : (s.retire g i).RegsCanon := h.galUpd.thrUpd.pmc

theorem control {g i : Nat} {c : Ctl} (h : s.RegsCanon) : (s.control g i c).RegsCanon := by
  unfold State.control
  dsimp only
  split
  · exact (h.whenNot (·.saTouch)).thrUpd.retire
  · exact (h.whenNot (·.saTouch)).thrUpd.pmc.retire
  · exact (h.whenNot (·.saTouch)).haltThr
  · exact ((h.whenNot (·.saTouch)).whenNot (·.pmc)).thrUpd
  · exact (h.whenNot (·.saTouch)).retire

theorem issue {d : Iss} {w : Nat} {body : State → State × Ctl} (h : s.RegsCanon)
    (hf : ∀ t, t.RegsCanon → (body t).1.RegsCanon) : (s.issue d w body).RegsCanon :=
  branch h (branch h.haltThr (branch h (branch h.pmc.control (branch h.haltThr ((hf _ h).control)))))

theorem dispatchTo {g i : Nat} {x : GIn} (h : s.RegsCanon) : (s.dispatchTo g i x).RegsCanon := by
  unfold State.dispatchTo
  dsimp only
  split
  · exact h.galUpd.thrUpd.rgSet.rgSet.rgSet.pmc
  · split
    · exact h.galUpd.thrUpd.rgSet.rgSet.rgSet.pmc.tokSet
    · exact h.galUpd.thrUpd.rgSet.rgSet.rgSet.pmc.tokSet.tokResult.upd

theorem dispatch {g : Nat} (h : s.RegsCanon) : (s.dispatch g).RegsCanon := by
  unfold State.dispatch
  split
  · exact h.galUpd.dispatchTo
  · exact h

theorem galAccept {g : Nat} {x : GIn} (h : s.RegsCanon) : (s.galAccept g x).RegsCanon := by
  unfold State.galAccept
  dsimp only
  split
  · exact h.galCnt.dispatchTo
  · exact branch h.galCnt.galUpd.wr ((branch h.galCnt.galCnt.wr h.galCnt.galCnt.galUpd.galEvt).whenNot (·.nhDone))

theorem thrRestart {g i : Nat} (h : s.RegsCanon) : (s.thrRestart g i).RegsCanon := by
  refine .when (.thrUpd (.dropResv (.dropWait ?_))) (·.dispatch)
  split
  · exact h.galCnt.whenNot (·.nhDone)
  · exact h

theorem thrGo {g i : Nat} (h : s.RegsCanon) : (s.thrGo g i).RegsCanon := h.thrUpd.when (·.dispatch)

theorem thrCmd {g i op idx : Nat} (h : s.RegsCanon) : (s.thrCmd g i op idx).RegsCanon := by
  refine .branch h ?_
  split
  · exact h.thrGo
  · exact h.thrUpd.thrGo
  · exact h.thrUpd.thrGo
  · exact h.thrRestart
  · exact h

theorem haltedRegSet {g i r : Nat} {pred : Bool} {v : Nat} (h : s.RegsCanon) : (s.haltedRegSet g i r pred v).RegsCanon :=
  branch h (branch h.thrUpd h.rgSet)
theorem synthPost {g mask : Nat} (h : s.RegsCanon) : (s.synthPost g mask).RegsCanon := h.foldS (fun _ _ h1 => h1.thrUpd)
theorem reclaim {g i f : Nat} (h : s.RegsCanon) : (s.reclaim g i f).RegsCanon := h.when (·.thrUpd.dropResv.galCnt)
theorem leash {g i : Nat} (h : s.RegsCanon) : (s.leash g i).RegsCanon :=
  h.whenNot (fun hq => hq.advanceUp.thrUpd.foldS (fun _ _ h3 => h3.note))
theorem stillAir {g : Nat} (h : s.RegsCanon) : (s.stillAir g).RegsCanon := h.whenNot (·.advanceUp.galUpd.note.galEvt.galCnt)
theorem thrTimer {g i : Nat} (h : s.RegsCanon) : (s.thrTimer g i).RegsCanon :=
  h.whenNot (fun hq => (hq.when (·.advanceTo)).thrUpd)
theorem galTick {g : Nat} (h : s.RegsCanon) : (s.galTick g).RegsCanon :=
  h.whenNot (fun hq => hq.galUpd.when (·.galCnt.galEvt))
theorem galTicks {l : List Nat} (h : s.RegsCanon) : (s.galTicks l).RegsCanon :=
  .when (h.foldS (fun _ _ h1 => h1.galTick)) (·.overrun)
theorem galLoad {g : Nat} {b : Bytes} (h : s.RegsCanon) : (s.galLoad g b).RegsCanon := h.galUpd.wr.wr
theorem steer {n : Nat} {on : Bool} (h : s.RegsCanon) : (s.steer n on).RegsCanon := h.wr.wr
theorem galServe {g : Nat} (h : s.RegsCanon) : (s.galServe g).RegsCanon := h.when (·.galUpd.wr.steer)
theorem galDrain {g : Nat} (h : s.RegsCanon) : (s.galDrain g).RegsCanon := h.when (·.galUpd.wr.steer)

theorem galDrained {g next : Nat} (h : s.RegsCanon) : (s.galDrained g next).RegsCanon := by
  refine .wr (.galUpd (.branch h (.galEvt (.galCnt (.foldS ?_ (fun _ _ h2 => h2.nhDone))))))
  split
  · exact h.advanceUp
  · exact h

theorem galOff {g : Nat} (h : s.RegsCanon) : (s.galOff g).RegsCanon := h.upd.wr

theorem dbgOp {g i op : Nat} {allowed : Bool} (h : s.RegsCanon) : (s.dbgOp g i op allowed).RegsCanon := by
  refine .branch h.thrRestart (.branch h.wr ?_)
  split
  · exact h.whenNot (·.dropWait.saTouch.thrUpd)
  · exact h.when (·.thrUpd)
  · exact h.when (·.thrGo)
  · exact h

/-! #### Hoard (Machine/Hoard) -/

theorem stackCacheSet {k n : Nat} (h : s.RegsCanon) : (s.stackCacheSet k n).RegsCanon := h.upd
theorem stackTake {k : Nat} (h : s.RegsCanon) : (s.stackTake k).1.RegsCanon := h.stackCacheSet.upd.upd.upd
theorem stackGive {k c : Nat} (h : s.RegsCanon) : (s.stackGive k c).RegsCanon := h.stackCacheSet.upd.stackPush

theorem cellsTake {k m : Nat} (h : s.RegsCanon) : (s.cellsTake k m).1.RegsCanon := by
  induction m generalizing s k with
  | zero => exact h
  | succ _ ih => exact ih h.stackCacheSet.upd.upd.upd

theorem cellsGive {k : Nat} {m : List Nat} (h : s.RegsCanon) : (s.cellsGive k m).RegsCanon := by
  induction m generalizing s k with
  | nil => exact h
  | cons _ _ ih => exact ih h.stackGive

theorem pktAlloc {sl n len : Nat} (h : s.RegsCanon) : (s.pktAlloc sl n len).1.RegsCanon := h.cellsTake.poolTake.upd
theorem pktBufSet {b : Nat} {x : PktBuf} (h : s.RegsCanon) : (s.pktBufSet b x).RegsCanon := h.upd
theorem pktRef {b : Nat} (h : s.RegsCanon) : (s.pktRef b).RegsCanon := h.pktBufSet
theorem pktUnref {b : Nat} (h : s.RegsCanon) : (s.pktUnref b).RegsCanon :=
  branch h (branch h.cellsGive.poolGive.pktBufSet h.pktBufSet)

theorem stackLose {k m : Nat} (h : s.RegsCanon) : (s.stackLose k m).RegsCanon := by
  induction m generalizing s with
  | zero => exact h
  | succ _ ih => exact ih h.upd.upd.upd

theorem stackRefill {k bad : Nat} (h : s.RegsCanon) : (s.stackRefill k bad).RegsCanon :=
  h.when (·.stackCacheSet.stackLose.cellsLost)
theorem stackSpill {k : Nat} (h : s.RegsCanon) : (s.stackSpill k).RegsCanon := h.when (·.stackCacheSet)
theorem poolsBuild (h : s.RegsCanon) : s.poolsBuild.RegsCanon :=
  .poolBuild (.poolBuild (h.upd.foldS (fun _ _ h2 => h2.upd.stackCacheSet)))
theorem scratchBuild {g : Nat} (h : s.RegsCanon) : (s.scratchBuild g).RegsCanon := h.poolBuild
theorem scrSet {h0 n : Nat} (h : s.RegsCanon) : (s.scrSet h0 n).RegsCanon := h.upd
theorem cellWordSet {h0 w v : Nat} (h : s.RegsCanon) : (s.cellWordSet h0 w v).RegsCanon := h.upd
theorem cellZero {h0 : Nat} (h : s.RegsCanon) : (s.cellZero h0).RegsCanon := h.upd
theorem freeCell {k : Nat} (h : s.RegsCanon) : (s.freeCell k).1.RegsCanon := h.upd
theorem waitShow {k : Nat} {l : List HrdWait} (h : s.RegsCanon) : (s.waitShow k l).RegsCanon := h.upd.wr

theorem hrdAnswer {g i n status detail : Nat} (h : s.RegsCanon) : (s.hrdAnswer g i n status detail).RegsCanon := by
  unfold State.hrdAnswer
  split
  · exact h.tokSet
  · exact h

theorem hrdRefuse {g i n code k idx : Nat} (h : s.RegsCanon) : (s.hrdRefuse g i n code k idx).RegsCanon :=
  (h.cnt.whenNot (·.upd.wr.wr.wr.wr.wr.wr)).setEvt.hrdAnswer
theorem hrdAlloc {g i n k : Nat} (h : s.RegsCanon) : (s.hrdAlloc g i n k).RegsCanon :=
  branch h.hrdAnswer (branch h.hrdRefuse (branch h.waitShow.cnt h.upd.scrSet.cellZero.poolTake.hrdAnswer))

theorem serveWaiter {k m : Nat} (h : s.RegsCanon) : (s.serveWaiter k m).RegsCanon := by
  induction m generalizing s with
  | zero => exact h
  | succ _ ih =>
    unfold State.serveWaiter
    split
    · exact h
    · exact branch h (branch (ih h.waitShow) (ih h.waitShow.upd.scrSet.cellZero.poolTake.hrdAnswer))

theorem serveWaiters {k : Nat} (h : s.RegsCanon) : (s.serveWaiters k).RegsCanon := h.serveWaiter

theorem hrdFree {g i n h0 : Nat} (h : s.RegsCanon) : (s.hrdFree g i n h0).RegsCanon :=
  branch h.hrdAnswer (branch h.hrdRefuse (branch h.hrdRefuse (branch h.scrSet.cellZero.poolGive.hrdAnswer.serveWaiters
    h.scrSet.hrdAnswer)))

theorem hrdRef {g i n h0 : Nat} (h : s.RegsCanon) : (s.hrdRef g i n h0).RegsCanon :=
  branch h.hrdAnswer (branch h.hrdRefuse (branch h.hrdRefuse (branch h.hrdRefuse h.scrSet.hrdAnswer)))

theorem hrdComplete {g i n : Nat} (h : s.RegsCanon) : (s.hrdComplete g i n).RegsCanon := by
  unfold State.hrdComplete
  split
  · exact h.tokComplete
  · exact h

theorem poolStarved {k : Nat} (h : s.RegsCanon) : (s.poolStarved k).RegsCanon := by
  unfold State.poolStarved
  split
  · exact h
  · exact h.advanceUp.waitShow.setEvt

theorem hrdReclaim {g : Nat} (h : s.RegsCanon) : (s.hrdReclaim g).RegsCanon :=
  branch h.serveWaiters h.upd.poolGive.cnt.serveWaiters

/-! #### Shapers and meters (Machine/Shaper) -/

theorem shpPut {k : Nat} {x : Shp} (h : s.RegsCanon) : (s.shpPut k x).RegsCanon := h.upd
theorem shpSettle (h : s.RegsCanon) : s.shpSettle.RegsCanon := h.upd
theorem shpNote {k : Nat} (h : s.RegsCanon) : (s.shpNote k).RegsCanon := h.when (·.upd)
theorem shpCharge {k b : Nat} (h : s.RegsCanon) : (s.shpCharge k b).RegsCanon := h.shpPut.shpNote
theorem shpTick {ticks : Nat} (h : s.RegsCanon) : (s.shpTick ticks).RegsCanon :=
  .upd ((h.wr.whenNot (·.overrun)).upd.foldS (fun _ _ h4 => h4.shpPut))
theorem shpInitAll (h : s.RegsCanon) : s.shpInitAll.RegsCanon := h.upd
theorem meter {i len stamp c : Nat} (h : s.RegsCanon) : (s.meter i len stamp c).1.RegsCanon :=
  branch_fst (branch_fst h.shpPut (branch_fst h.shpPut h.shpPut)) (branch_fst h.shpPut (branch_fst h.shpPut h.shpPut))
theorem sojTick {n : Nat} (h : s.RegsCanon) : (s.sojTick n).RegsCanon := h.when (·.upd)
theorem sojNote {k t16 : Nat} (h : s.RegsCanon) : (s.sojNote k t16).RegsCanon := h.whenNot (·.sojTick.upd)
theorem sojSel {egress : Bool} {i : Nat} (h : s.RegsCanon) : (s.sojSel egress i).RegsCanon :=
  (h.when (·.sojTick)).wrr.wrr.wrr.wrr

/-! #### Queues and the scheduling hierarchy (Machine/Sched) -/

theorem sentUpd {l i : Nat} {f : SEnt → SEnt} (h : s.RegsCanon) : (s.sentUpd l i f).RegsCanon := h.upd
theorem queuePut {q : Nat} {l : List QPkt} (h : s.RegsCanon) : (s.queuePut q l).RegsCanon := h.upd
theorem voqUpd {n : Nat} {f : Voq → Voq} (h : s.RegsCanon) : (s.voqUpd n f).RegsCanon := h.upd
theorem putLevel {l i lev : Nat} {x : SLevel} (h : s.RegsCanon) : (s.putLevel l i lev x).RegsCanon := h.sentUpd

theorem drrServe {desc : State → Nat → Option (State × List Nat)} (hd : ∀ t c, t.RegsCanon → OptFstCanon (desc t c))
    {l i lev out n : Nat} (h : s.RegsCanon) : OptFstCanon (State.drrServe desc l i lev out n s) := by
  induction n generalizing s with
  | zero => exact .none
  | succ _ ih =>
    unfold State.drrServe
    dsimp only
    split
    · exact .none
    · split
      · exact .none
      · next e =>
          exact .ite (.some (hd _ _ (h.whenNot (·.sentUpd.putLevel)) _ e).sentUpd)
              (ih (h.whenNot (·.sentUpd.putLevel)).putLevel)

theorem descend {out l i : Nat} (h : s.RegsCanon) : OptFstCanon (descend out l s i) := by
  induction l generalizing s i with
  | zero => exact .ite .none (.some h)
  | succ _ ih =>
    unfold Machine.descend
    split
    · exact .none
    · refine .ite (.drrServe (fun _ _ h => ih h) h) ?_
      split
      · exact .none
      · split
        · exact .none
        · next e => exact .some (ih h _ e).putLevel.sentUpd

theorem schLeave {l i : Nat} (h : s.RegsCanon) : (s.schLeave l i).RegsCanon := by
  unfold State.schLeave
  dsimp only
  split
  · exact h
  · exact h.putLevel.sentUpd

theorem schJoin {l i lev : Nat} (h : s.RegsCanon) : (s.schJoin l i lev).RegsCanon := h.putLevel.sentUpd

theorem schSync {n l i : Nat} (h : s.RegsCanon) : (s.schSync n l i).RegsCanon := by
  induction n generalizing s l i with
  | zero => exact h
  | succ _ ih => exact h.whenNot fun h => ih (by split; exacts [h.schLeave.schJoin, h.schLeave])

theorem schUpdate {l i : Nat} (h : s.RegsCanon) : (s.schUpdate l i).RegsCanon := h.schSync
theorem schServed {l i : Nat} (h : s.RegsCanon) : (s.schServed l i).RegsCanon :=
  .branch (h.whenNot (·.sentUpd)) (by split; exacts [h.schLeave.schJoin, h.schLeave])
theorem shaperSync {k : Nat} (h : s.RegsCanon) : (s.shaperSync k).RegsCanon := h.foldS (fun _ _ h1 => h1.schUpdate)
theorem schCnt {l i c len : Nat} (h : s.RegsCanon) : (s.schCnt l i c len).RegsCanon := h.sentUpd
theorem voqTouch {n : Nat} (h : s.RegsCanon) : (s.voqTouch n).RegsCanon := h.voqUpd

theorem serve1 {o : Nat} {path : List Nat} (h : s.RegsCanon) : (s.serve1 o path).1.RegsCanon := by
  unfold State.serve1
  dsimp only
  split
  · exact h
  · exact .upd (.foldS (.foldS (.sojNote (.voqTouch (.whenNot (.voqUpd
        (.foldS (h.queuePut.foldS (fun _ _ h2 => h2.shpCharge)) (fun _ _ h4 => h4.schCnt))) (·.upd))))
        (fun _ _ h10 => h10.schServed)) (fun _ _ h12 => h12.shaperSync))

theorem select (h : s.RegsCanon) : (s.select).1.RegsCanon := by
  unfold State.select
  split
  · exact h
  · split
    · exact h
    · next e1 => exact (h.descend _ e1).serve1

theorem enqueue {q : Nat} {x : QPkt} (h : s.RegsCanon) : (s.enqueue q x).RegsCanon := h.queuePut.voqTouch.schUpdate
theorem schDiscs (h : s.RegsCanon) : s.schDiscs.RegsCanon := h.foldS (fun _ _ h1 => h1.foldS (fun _ _ h2 => h2.sentUpd))
theorem schAttach {l i : Nat} (h : s.RegsCanon) : (s.schAttach l i).RegsCanon := h.whenNot (·.sentUpd)
theorem schShow {l : Nat} {ws : List Nat} (h : s.RegsCanon) : (s.schShow l ws).RegsCanon := h.foldS (fun _ _ h1 => h1.wrr)
theorem schDone {que : Bool} {err : Nat} (h : s.RegsCanon) : (s.schDone que err).RegsCanon :=
  branch h.wr.wr.wr.wr h.wr.wr.wr.wr

theorem schWrite {l i : Nat} (h : s.RegsCanon) : (s.schWrite l i).RegsCanon := by
  unfold State.schWrite
  dsimp only
  split
  · exact ((h.when (·.schLeave.schUpdate)).sentUpd.when (·.schAttach)).schUpdate.schDone
  · exact h.schDone

theorem schReadCnt {l i : Nat} (h : s.RegsCanon) : (s.schReadCnt l i).RegsCanon := (h.schShow.when (·.sentUpd)).schDone
theorem schIgnored {que : Bool} (h : s.RegsCanon) : (s.schIgnored que).RegsCanon := h.wr
theorem queFlush {q : Nat} (h : s.RegsCanon) : (s.queFlush q).RegsCanon := branch h.schDone h.upd.wr
theorem schRebuild {l i : Nat} (h : s.RegsCanon) : (s.schRebuild l i).RegsCanon := branch h.schDone h.upd.wr

theorem rebuilt (h : s.RegsCanon) : s.rebuilt.RegsCanon := by
  unfold State.rebuilt
  split
  · exact h
  · exact .schDone (.foldS (.sentUpd (h.upd.foldS (fun _ _ h2 => h2.sentUpd))) (fun _ _ h5 => h5.schUpdate))

theorem schCmd {que : Bool} {op l i : Nat} (h : s.RegsCanon) : (s.schCmd que op l i).RegsCanon := by
  refine .branch h.schIgnored (.branch h.schDone ?_)
  split
  · exact h.schWrite
  · exact h.schShow.schDone
  · exact branch h.queFlush h.schRebuild
  · exact h.schReadCnt
  · exact h.schDone

theorem shpDone {err : Nat} (h : s.RegsCanon) : (s.shpDone err).RegsCanon := h.wr.wr.wr

theorem shpCmd {op t i : Nat} (h : s.RegsCanon) : (s.shpCmd op t i).RegsCanon := by
  refine .branch h.wr (.branch h.shpDone ?_)
  dsimp only
  split
  · exact branch h.shpDone h.shpPut.shpNote.shaperSync.shpDone
  · exact .shpDone (h.shpPut.shaperSync.foldS (fun _ _ h2 => h2.wrr))
  · exact h.shpPut.shaperSync.shpDone
  · exact h.shpDone

/-! #### Stream contexts (Machine/Streams) -/

theorem stmPut {i : Nat} {x : Stm} (h : s.RegsCanon) : (s.stmPut i x).RegsCanon := h.upd
theorem stmLatch {b : Bool} (h : s.RegsCanon) : (s.stmLatch b).RegsCanon := h.when (·.gatEvt)
theorem stmMeter {i : Nat} {x : Stm} {p : Pkt} (h : s.RegsCanon) : (s.stmMeter i x p).1.RegsCanon :=
  branch_fst h (branch_fst h.meter (branch_fst h.meter h.meter))

theorem stream {p : Pkt} (h : s.RegsCanon) : (s.stream p).1.RegsCanon := by
  unfold State.stream
  split
  · exact h
  · exact branch_fst h.cnt (branch_fst h.stmLatch.stmPut (branch_fst h.stmLatch.stmLatch.stmPut
        (branch_fst h.stmLatch.stmLatch.stmPut (branch_fst h.stmLatch.stmLatch.stmMeter.stmLatch.stmPut
        h.stmLatch.stmLatch.stmMeter.stmLatch.stmPut))))

theorem gatContext {op i : Nat} (h : s.RegsCanon) : (s.gatContext op i).RegsCanon := by
  unfold State.gatContext
  dsimp only
  split
  · exact branch h.gatDone h.stmPut.gatDone
  · exact h.gatShow.gatDone
  · exact h.gatShow.gatDone.when (·.stmPut)
  · exact h.stmPut.gatDone
  · exact h.gatDone

theorem gatCmd {op space i j : Nat} (h : s.RegsCanon) : (s.gatCmd op space i j).RegsCanon :=
  branch h.wr (branch h.gatDone (branch h.gatContext h.gatList))

/-! #### Survey (Machine/Survey) -/

theorem svyEvt {f : Fld} (h : s.RegsCanon) : (s.svyEvt f).RegsCanon := h.setEvt
theorem svyUpd {f : SvyState → SvyState} (h : s.RegsCanon) : (s.svyUpd f).RegsCanon := h.upd
theorem dumpPut {r : DumpRec} (h : s.RegsCanon) : (s.dumpPut r).RegsCanon := (h.whenNot (·.emit)).emit.wr.cnt.svyUpd
theorem hctxPut {i : Nat} {x : HCtx} (h : s.RegsCanon) : (s.hctxPut i x).RegsCanon := h.svyUpd

theorem reportPut {d : Nat} (h : s.RegsCanon) : (s.reportPut d).RegsCanon := by
  unfold State.reportPut
  dsimp only
  split
  · exact h
  · exact h.dumpPut.hctxPut

theorem reportNow {d : Nat} (h : s.RegsCanon) : (s.reportNow d).RegsCanon := by
  unfold State.reportNow
  dsimp only
  split
  · exact h
  · exact (branch h.dumpPut h.svyUpd.svyEvt).hctxPut.svyUpd

theorem bankFor {i k : Nat} (h : s.RegsCanon) : (s.bankFor i k).1.RegsCanon := branch_fst h h.reportNow
theorem histAdd {i t16 : Nat} {d : Option Nat} (h : s.RegsCanon) : (s.histAdd i t16 d).RegsCanon :=
  h.whenNot (fun hq => hq.whenNot (·.bankFor.hctxPut))

theorem latency {stream ingress : Option Nat} {e16 : Nat} (h : s.RegsCanon) : (s.latency stream ingress e16).RegsCanon := by
  unfold State.latency
  split
  · exact h.cnt
  · dsimp only
    split
    · exact h.when (·.cnt.svyEvt)
    · exact (h.when (·.cnt.svyEvt)).histAdd

theorem histClose {n : Nat} {part : Bool} (h : s.RegsCanon) : (s.histClose n part).RegsCanon :=
  .svyUpd (.when (h.foldS (fun _ _ h1 => h1.bankFor.hctxPut)) (fun hq => hq.foldS (fun _ _ h4 => h4.when (·.hctxPut))))

theorem reportPump {m : Nat} (h : s.RegsCanon) : (s.reportPump m).RegsCanon := by
  induction m generalizing s with
  | zero => exact h
  | succ _ ih =>
    unfold State.reportPump
    split
    · exact h
    · exact branch h (branch h.svyEvt (ih h.reportPut.svyUpd))

theorem dsetPut {i : Nat} {x : DumpSet} (h : s.RegsCanon) : (s.dsetPut i x).RegsCanon := h.svyUpd
theorem snapshot {i n : Nat} {late part : Bool} (h : s.RegsCanon) : (s.snapshot i n late part).RegsCanon :=
  branch h.wr.dsetPut h.wr.dsetPut.svyUpd

theorem dumpOne (h : s.RegsCanon) : (s.dumpOne).1.RegsCanon := by
  unfold State.dumpOne
  split
  · exact branch_fst h.svyEvt h.dumpPut.svyUpd
  · exact h
  · exact branch_fst h (branch_fst h.svyEvt h.dumpPut.svyUpd)

theorem dumpPump {m : Nat} (h : s.RegsCanon) : (s.dumpPump m).RegsCanon := by
  induction m generalizing s with
  | zero => exact h
  | succ _ ih => exact branch (ih h.dumpOne) h.dumpOne

theorem dumpWaiting (h : s.RegsCanon) : s.dumpWaiting.RegsCanon := h.dumpOne.whenNot (·.reportPump)
theorem setTick {i n : Nat} (h : s.RegsCanon) : (s.setTick i n).RegsCanon :=
  branch h (branch (branch h.snapshot h.dsetPut) h)
theorem bwAdd {port : Nat} {tx : Bool} {len t16 : Nat} (h : s.RegsCanon) : (s.bwAdd port tx len t16).RegsCanon :=
  branch h.cnt (branch h.cnt.wr64 h.svyUpd)
theorem bwClose {port j : Nat} (h : s.RegsCanon) : (s.bwClose port j).RegsCanon := h.wr64.wr64.wr64.wr64.wr64.wr64.wr64
theorem histRoll {n : Nat} (h : s.RegsCanon) : (s.histRoll n).RegsCanon :=
  h.whenNot (fun hq => (hq.when (·.histClose)).svyUpd)
theorem bwRoll {n : Nat} (h : s.RegsCanon) : (s.bwRoll n).RegsCanon :=
  h.whenNot (fun hq => .svyUpd (.foldS (hq.when (fun hq => hq.foldS (fun _ _ h1 => h1.bwClose))) (fun _ _ h3 => h3.cnt)))

theorem svyTick {n : Nat} (h : s.RegsCanon) : (s.svyTick n).RegsCanon :=
  .reportPump (.dumpPump ((((h.whenNot (·.overrun.svyEvt)).whenNot (·.overrun.svyEvt)).when
    (·.cnt)).svyUpd.dumpPump.reportPump.histRoll.bwRoll.svyUpd.foldS (fun _ _ h7 => h7.setTick)))

theorem svyLull (h : s.RegsCanon) : s.svyLull.RegsCanon :=
  .reportPump (.dumpPump (.svyUpd (h.thaw.histClose.foldS (fun _ _ h2 => h2.when (·.snapshot)))))
theorem svyWake (h : s.RegsCanon) : s.svyWake.RegsCanon := .svyUpd (h.foldS (fun _ _ h1 => h1.dsetPut))
theorem mirTake {j : Nat} (h : s.RegsCanon) : (s.mirTake j).1.RegsCanon := branch_fst h.svyUpd h.svyUpd
theorem mirDrop {j : Nat} (h : s.RegsCanon) : (s.mirDrop j).RegsCanon := h.cnt.svyEvt
theorem svyDone {err : Nat} (h : s.RegsCanon) : (s.svyDone err).RegsCanon := h.wr.wr.wr.wr
theorem svyShow {l : List Nat} (h : s.RegsCanon) : (s.svyShow l).RegsCanon := h.foldS (fun _ _ h1 => h1.wrr)
theorem svyRead {i k : Nat} {valid : Bool} (h : s.RegsCanon) : (s.svyRead i k valid).RegsCanon :=
  branch h.svyShow.svyDone h.bankFor.hctxPut.svyShow.svyDone

theorem svyCmd {op i : Nat} (h : s.RegsCanon) : (s.svyCmd op i).RegsCanon := by
  unfold State.svyCmd
  split
  · exact branch h.svyDone h.hctxPut.svyDone
  · exact h.svyShow.svyDone
  · split
    · exact h.svyRead
    · exact h.svyShow.svyDone
  · exact h.svyRead
  · exact h.svyDone

/-! #### Admission (Machine/Admit) -/

theorem admUpd {f : AdmState → AdmState} (h : s.RegsCanon) : (s.admUpd f).RegsCanon := h.upd
theorem resvSet {v : Nat} (h : s.RegsCanon) : (s.resvSet v).RegsCanon := h.wr.wr
theorem xoffShow {p t : Nat} (h : s.RegsCanon) : (s.xoffShow p t).RegsCanon := h.when (·.setXoff)
theorem pgXoff {p t : Nat} {v : Bool} (h : s.RegsCanon) : (s.pgXoff p t v).RegsCanon := h.wr.xoffShow
theorem holdWatch {sl t : Nat} (h : s.RegsCanon) : (s.holdWatch sl t).RegsCanon :=
  h.whenNot (fun hq => hq.admUpd.foldS (fun _ _ h2 => h2.xoffShow))
theorem creditWatch {sl t : Nat} (h : s.RegsCanon) : (s.creditWatch sl t).RegsCanon :=
  branch (h.when (·.admUpd.holdWatch)) (h.when (·.admUpd))
theorem credits (h : s.RegsCanon) : s.credits.RegsCanon := h.foldS (fun _ _ h1 => h1.foldS (fun _ _ h2 => h2.creditWatch))

theorem resvChange {old new : Nat} {f : State → State} (h : s.RegsCanon) (hf : ∀ t, t.RegsCanon → (f t).RegsCanon) :
    (s.resvChange old new f).RegsCanon :=
  branch h.setEvt ((hf _ h).resvSet.credits)

theorem track {u q : Nat} (h : s.RegsCanon) : (s.track u q).RegsCanon := h.when (·.wr.wr)
theorem untrack {q : Nat} (h : s.RegsCanon) : (s.untrack q).RegsCanon :=
  h.whenNot (fun hq => hq.foldS (fun _ _ h1 => h1.when (·.wr.wr)))

theorem charge {k n q p t : Nat} (h : s.RegsCanon) : (s.charge k n q p t).RegsCanon := by
  unfold State.charge
  split
  · exact h.admUpd
  · exact h.admUpd
  · exact h.admUpd
  · exact h.admUpd.wr.track.credits
  · exact h.admUpd.wr.pgXoff.credits

theorem uncharge {q : Nat} {x : QPkt} (h : s.RegsCanon) : (s.uncharge q x).RegsCanon := by
  unfold State.uncharge
  dsimp only
  split
  · exact h.admUpd
  · exact h.admUpd
  · exact h.admUpd
  · exact h.admUpd.wr.untrack.credits
  · exact (h.admUpd.wr.when (·.pgXoff)).credits

theorem entryDrop {q : Nat} {x : QPkt} (h : s.RegsCanon) : (s.entryDrop q x).RegsCanon :=
  (h.uncharge.pktUnref.whenNot (·.nhDone)).schCnt

theorem evict {u v t : Nat} (h : s.RegsCanon) : (s.evict u v t).RegsCanon := by
  unfold State.evict
  split
  · exact h
  · exact h.queuePut.entryDrop.voqTouch.schUpdate.cnt.cnt

theorem admPut {k n q : Nat} {p : Pkt} {buf : Nat} {mirror : Bool} {adj : Option Nat} (h : s.RegsCanon) :
    (s.admPut k n q p buf mirror adj).RegsCanon :=
  h.charge.cnt.enqueue

theorem admDrop {q : Nat} {p : Pkt} (h : s.RegsCanon) : (s.admDrop q p).RegsCanon := branch h.schCnt.cnt.setEvt h.schCnt.cnt
theorem queDisabled (h : s.RegsCanon) : s.queDisabled.RegsCanon := h.cnt.setEvt

theorem admitOne {p : Pkt} {n : Nat} {share : Option Nat} {mirror : Bool} {adj : Option Nat} (h : s.RegsCanon) :
    (s.admitOne p n share mirror adj).1.RegsCanon := by
  refine .branch_fst h.queDisabled ?_
  dsimp only
  split
  · refine .admPut ?_
    split
    · exact h.pktRef
    · exact h.cellsTake.poolTake.upd
  · refine .admPut ?_
    split
    · exact h.evict.pktRef
    · exact h.evict.cellsTake.poolTake.upd
  · exact h.admDrop

theorem mirrorIngress {p : Pkt} {n buf : Nat} (h : s.RegsCanon) : (s.mirrorIngress p n buf).RegsCanon := by
  unfold State.mirrorIngress
  split
  · exact h
  · split
    · next e1 => exact h.mirTake.of_fst e1
    · next e2 =>
        dsimp only
        split
        · exact (h.mirTake.of_fst e2).admitOne.cnt
        · exact (h.mirTake.of_fst e2).admitOne.mirDrop

theorem packetAdmit (h : s.RegsCanon) : s.packetAdmit.RegsCanon := by
  unfold State.packetAdmit
  split
  · exact h
  · dsimp only
    split
    · next e2 => exact (h.admUpd.stream.of_fst e2).nhDone
    · next e3 =>
        split
        · next e4 => exact ((h.admUpd.stream.of_fst e3).admitOne.of_fst e4).nhDone
        · next e5 => exact ((h.admUpd.stream.of_fst e3).admitOne.of_fst e5).mirrorIngress

theorem toPassage {p : Pkt} (h : s.RegsCanon) : (s.toPassage p).RegsCanon :=
  branch (branch h.cnt.setEvt.nhDone h.admUpd.holdWatch) h.admUpd
theorem depart {q : Nat} {x : QPkt} (h : s.RegsCanon) : (s.depart q x).RegsCanon := h.uncharge.pktUnref.whenNot (·.nhDone)

theorem queFlushed (h : s.RegsCanon) : s.queFlushed.RegsCanon := by
  unfold State.queFlushed
  split
  · exact h
  · exact .schDone (.schUpdate (.voqTouch (h.upd.queuePut.foldS (fun _ _ h2 => h2.entryDrop.cnt))))

theorem queWrite {i : Nat} (h : s.RegsCanon) : (s.queWrite i).RegsCanon :=
  branch h.schCmd (branch h.schCmd (branch h.setEvt.schDone h.schCmd.resvSet.credits))

/-! #### Echo (Machine/Echo) -/

theorem echPut {n : Nat} {x : EchoInst} (h : s.RegsCanon) : (s.echPut n x).RegsCanon := h.upd
theorem patCnt {n off k : Nat} (h : s.RegsCanon) : (s.patCnt n off k).RegsCanon := h.cnt
theorem echQueue {n : Nat} {j : EchoJob} (h : s.RegsCanon) : (s.echQueue n j).RegsCanon := h.echPut

theorem scanDone {n : Nat} (h : s.RegsCanon) : (s.scanDone n).RegsCanon := by
  unfold State.scanDone
  dsimp only
  split
  · exact h
  · split
    · exact ((((h.echPut.patCnt.whenNot (·.patCnt)).when (·.patCnt)).when (·.patCnt)).whenNot (·.memWr)).upd.tokComplete
    · split
      · split
        · exact (((h.echPut.patCnt.whenNot (·.patCnt)).when (·.patCnt)).when (·.patCnt)).tokResult
        · exact ((h.echPut.patCnt.whenNot (·.patCnt)).when (·.patCnt)).when (·.patCnt)
      · exact (((h.echPut.patCnt.whenNot (·.patCnt)).when (·.patCnt)).when (·.patCnt)).echPut

theorem echSkip {n : Nat} (h : s.RegsCanon) : (s.echSkip n).RegsCanon := h.patCnt.whenNot (·.raise.upd)

theorem packetScan {n h0 : Nat} {p : Pkt} (h : s.RegsCanon) : (s.packetScan n h0 p).1.RegsCanon := by
  unfold State.packetScan
  split
  · exact h
  · exact branch_fst (branch_fst h.echSkip h.echSkip.echPut) h.echQueue

theorem patDone {err : Nat} (h : s.RegsCanon) : (s.patDone err).RegsCanon := h.wr.wr.wr.wr.wr.raise
theorem patLoad (h : s.RegsCanon) : s.patLoad.RegsCanon := branch h.wr (branch h.patDone h.wr.wr.wr.upd)

theorem patAcct {n b : Nat} {img : Option (Bytes × Nat)} (h : s.RegsCanon) : (s.patAcct n b img).RegsCanon := by
  unfold State.patAcct
  dsimp only
  split <;> exact h.wrw.wrw.wrw.wrw.wrw.wrw.wrw

theorem echReloadBank {n b : Nat} (h : s.RegsCanon) : (s.echReloadBank n b).RegsCanon := by
  unfold State.echReloadBank
  split
  · exact h.echPut
  · exact branch h.echPut h.echPut.patAcct.raise

theorem echReload {n : Nat} (h : s.RegsCanon) : (s.echReload n).RegsCanon := h.echReloadBank

theorem patLoadDone (h : s.RegsCanon) : s.patLoadDone.RegsCanon := by
  unfold State.patLoadDone
  split
  · exact .branch (.upd (.patDone (h.foldS (fun _ _ h1 => h1.echPut.patAcct))))
        (.upd (h.foldS (fun _ _ h1 => h1.echPut.patAcct)))
  · exact h.foldS (fun _ _ h4 => h4.echReload)

theorem echError {n : Nat} (h : s.RegsCanon) : (s.echError n).RegsCanon := h.echPut.patCnt
theorem echPower {n : Nat} (h : s.RegsCanon) : (s.echPower n).RegsCanon := h.echPut.patAcct.echReload

theorem patSwapNow {m at16 tick : Nat} (h : s.RegsCanon) : (s.patSwapNow m at16 tick).RegsCanon :=
  .branch (.upd (.patDone (.wr (h.foldS (fun _ _ h1 => h1.echPut)))))
    (.upd (.wr (.wr (.wr (h.foldS (fun _ _ h1 => h1.echPut))))))

theorem echAfterTest {n : Nat} (h : s.RegsCanon) : (s.echAfterTest n).RegsCanon := by
  unfold State.echAfterTest
  dsimp only
  split
  · refine .when ?_ (fun hq => (hq.whenNot (·.wr)).patSwapNow)
    split
    · exact h.echPut.echReloadBank.echReloadBank.when (·.patLoadDone)
    · exact h.echPut.echReloadBank.echReloadBank
  · split
    · exact h.echPut.echReloadBank.echReloadBank.when (·.patLoadDone)
    · exact h.echPut.echReloadBank.echReloadBank

theorem patSwap (h : s.RegsCanon) : s.patSwap.RegsCanon :=
  branch h.wr (branch h.patSwapNow (branch h.patDone ((h.when (·.wr)).wr.wr.upd)))

theorem patSwapDue (h : s.RegsCanon) : s.patSwapDue.RegsCanon := by
  unfold State.patSwapDue
  split
  · exact h.when (·.patSwapNow)
  · exact h

/-! #### The egress side (Machine/Egress) -/

theorem editBytes {a : Nat} {b : Bytes} {hs : List Hdr} (h : s.RegsCanon) : (s.editBytes a b hs).1.RegsCanon := h.upd

theorem ptpEgress {port lane e0 : Nat} {p : Pkt} {hs : List Hdr} (h : s.RegsCanon) :
    (s.ptpEgress port lane e0 p hs).1.RegsCanon := by
  unfold State.ptpEgress
  split
  · exact h
  · exact branch_fst h (h.when (·.tsfPush))

theorem egpUpd {p : Nat} {f : EgPort → EgPort} (h : s.RegsCanon) : (s.egpUpd p f).RegsCanon := h.upd
theorem egEnd {f : EgrFrame} (h : s.RegsCanon) : (s.egEnd f).RegsCanon := h.whenNot (·.inflightDec)
theorem egPop {p c : Nat} (h : s.RegsCanon) : (s.egPop p c).RegsCanon := h.eqSet
theorem egDrop {p c : Nat} (h : s.RegsCanon) : (s.egDrop p c).RegsCanon := h.eqSet
theorem egEnter {p c : Nat} {f : EgrFrame} (h : s.RegsCanon) : (s.egEnter p c f).RegsCanon :=
  branch h (branch h.cnt ((h.whenNot (·.inflightInc)).eqSet))
theorem egSync {p : Nat} (h : s.RegsCanon) : (s.egSync p).RegsCanon := h.foldS (fun _ _ h1 => h1.whenNot (·.egpUpd))

theorem egTrim {p c m : Nat} (h : s.RegsCanon) : (s.egTrim p c m).RegsCanon := by
  induction m generalizing s with
  | zero => exact h
  | succ _ ih =>
    unfold State.egTrim
    split
    · exact h
    · exact branch (ih h.egDrop.egEnd) (branch h (branch (ih h.egDrop.egEnd.cnt)
          (branch (ih (h.egDrop.egEnd.cnt.whenNot (·.upd.gatEvt))) h)))

theorem egServe {p c len : Nat} (h : s.RegsCanon) : (s.egServe p c len).RegsCanon := h.egpUpd.when (·.shpCharge)
theorem egMark {p c : Nat} (h : s.RegsCanon) : (s.egMark p c).RegsCanon := h.upd

theorem egSelect {p : Nat} (h : s.RegsCanon) : (s.egSelect p).RegsCanon := by
  refine .branch h ?_
  dsimp only
  split
  · exact .egSync (h.foldS (fun _ _ h1 => h1.egTrim))
  · split
    · exact .egSync (h.foldS (fun _ _ h1 => h1.egTrim))
    · exact .egpUpd (.pstUpd (.whenNot (.egSync (h.foldS (fun _ _ h1 => h1.egTrim))) (·.egServe.egMark)))

theorem mirrorEgress {p : Pkt} {port e0 : Nat} {b : Bytes} (h : s.RegsCanon) : (s.mirrorEgress p port e0 b).RegsCanon := by
  refine .branch h ?_
  split
  · exact h
  · split
    · next e1 => exact h.mirTake.of_fst e1
    · next e2 => exact branch ((h.mirTake.of_fst e2).egEnter.cnt) ((h.mirTake.of_fst e2).mirDrop)

theorem transmit {port lane : Nat} {p : Pkt} (h : s.RegsCanon) : (s.transmit port lane p).RegsCanon := by
  refine .mirrorEgress ?_
  split
  · exact (branch h.ptpEgress.emit.onWire.lpt.lpt h.ptpEgress.emit.onWire.cnt).bwAdd.latency.sojNote.when (·.cnt)
  · exact (branch h.ptpEgress.emit.onWire.lpt.lpt h.ptpEgress.emit.onWire.cnt).bwAdd.latency.sojNote

theorem macFrame {port lane : Nat} {p : Pkt} (h : s.RegsCanon) : (s.macFrame port lane p).RegsCanon :=
  have h2 := h.advanceTo.toBoundary.when (·.pfcBoundary.toBoundary); branch h2.egpUpd
      (branch h2.transmit (branch h2.transmit h2.cnt.gatEvt))

theorem editFrame {port lane : Nat} {f : EgrFrame} {p : Pkt} (h : s.RegsCanon) : (s.editFrame port lane f p).RegsCanon :=
  branch h.countParse.macFrame (branch h.countParse.egEnd.cnt (branch h.countParse.egEnd.upd.upd
    h.countParse.egEnd.upd.macFrame))

theorem portTransmit {port lane : Nat} (h : s.RegsCanon) : (s.portTransmit port lane).RegsCanon := by
  refine .branch h ?_
  split
  · exact h.egpUpd.macFrame
  · split
    · exact h
    · split
      · exact h.pstUpd
      · exact branch h.pstUpd h.pstUpd.egPop.editFrame

theorem directSend {port : Nat} {x : Bool × Bytes} (h : s.RegsCanon) : (s.directSend port x).RegsCanon :=
  (branch_fst h.toBoundary.ptpEgress h.toBoundary).emit.lpt.lpt.onWire
theorem directPump {port : Nat} (h : s.RegsCanon) : (s.directPump port).RegsCanon :=
  h.when (fun hq => hq.pstUpd.foldS (fun _ _ h1 => h1.directSend))
theorem sendDirect {port : Nat} {b : Bytes} {ptp : Bool} (h : s.RegsCanon) : (s.sendDirect port b ptp).RegsCanon :=
  h.pstUpd.directPump

/-! #### Tradewind (Machine/Fabric) -/

theorem fabUpd {f : FabState → FabState} (h : s.RegsCanon) : (s.fabUpd f).RegsCanon := h.upd
theorem fabEvt {f : Fld} (h : s.RegsCanon) : (s.fabEvt f).RegsCanon := h.setEvt
theorem ctrlSend {dst : Nat} {msgs : List Bytes} (h : s.RegsCanon) : (s.ctrlSend dst msgs).RegsCanon := h.fabUpd
theorem flinkPut {i : Nat} {x : FLink} (h : s.RegsCanon) : (s.flinkPut i x).RegsCanon := h.fabUpd
theorem fabShow (h : s.RegsCanon) : s.fabShow.RegsCanon := h.whenNot (fun hq => hq.wr.wr.wr.when (·.fabEvt))
theorem putCell {i : Nat} {c : FCell} (h : s.RegsCanon) : (s.putCell i c).RegsCanon := h.emit.flinkPut.cnt
theorem takeSeq {c : FCell} (h : s.RegsCanon) : (s.takeSeq c).1.RegsCanon := h.fabUpd

theorem cellSend (h : s.RegsCanon) : s.cellSend.RegsCanon := by
  refine .branch h ?_
  dsimp only
  split
  · exact h
  · refine .branch h.fabUpd.emit ?_
    split
    · exact h.fabUpd.emit.flinkPut.cnt.cnt
    · refine .branch h.fabUpd.emit ?_
      split
      · exact h.fabUpd.fabUpd.fabUpd.putCell.cnt
      · exact h.fabUpd.fabUpd.putCell
      · exact h.fabUpd.fabUpd.fabUpd.putCell.cnt
      · exact h.fabUpd.emit

theorem linkFail {i : Nat} (h : s.RegsCanon) : (s.linkFail i).RegsCanon := h.whenNot (·.wr.flinkPut.fabUpd.fabEvt.fabShow)

theorem spareActivate (h : s.RegsCanon) : s.spareActivate.RegsCanon := by
  refine .branch h ?_
  split
  · exact h
  · exact h.wr.fabUpd.fabEvt.fabShow

theorem linkRetrain {i : Nat} {ok : Bool} (h : s.RegsCanon) : (s.linkRetrain i ok).RegsCanon :=
  h.whenNot (·.wr.flinkPut.fabShow)
theorem fegUpd {src p : Nat} {f : FEg → FEg} (h : s.RegsCanon) : (s.fegUpd src p f).RegsCanon := h.fabUpd
theorem outstanding {p up down : Nat} (h : s.RegsCanon) : (s.outstanding p up down).RegsCanon := h.whenNot (·.wr.wr)

theorem reqSend {n : Nat} (h : s.RegsCanon) : (s.reqSend n).RegsCanon := by
  refine .branch h (.ctrlSend (.voqUpd ?_))
  split
  · exact h.advanceUp
  · exact h

theorem grantSend {p : Nat} (h : s.RegsCanon) : (s.grantSend p).RegsCanon := by
  refine .branch h ?_
  split
  · exact h
  · exact h.fegUpd.outstanding.fabUpd.ctrlSend

theorem frxUpd {src : Nat} {f : FRx → FRx} (h : s.RegsCanon) : (s.frxUpd src f).RegsCanon := h.fabUpd
theorem dcredSend {src : Nat} (h : s.RegsCanon) : (s.dcredSend src).RegsCanon := h.whenNot (·.frxUpd.ctrlSend)
theorem creditRefresh (h : s.RegsCanon) : s.creditRefresh.RegsCanon :=
  h.whenNot (fun hq => hq.foldS (fun _ _ h1 => h1.foldS (fun _ _ h2 => h2.ctrlSend)))

theorem voqForfeit {n : Nat} (h : s.RegsCanon) : (s.voqForfeit n).RegsCanon := by
  unfold State.voqForfeit
  dsimp only
  split
  · exact h
  · exact .branch h (have h2 := h.advanceUp.voqUpd.schUpdate; branch h2.outstanding h2.cnt.ctrlSend)

theorem loopGrant {p : Nat} (h : s.RegsCanon) : (s.loopGrant p).RegsCanon := by
  refine .branch h ?_
  split
  · exact h
  · exact h.whenNot (·.voqUpd.voqTouch.outstanding.schUpdate)

theorem grantIn {dev p count : Nat} (h : s.RegsCanon) : (s.grantIn dev p count).RegsCanon := by
  unfold State.grantIn
  split
  · exact h
  · exact h.voqUpd.voqTouch.schUpdate

theorem dcredIn {dev count : Nat} (h : s.RegsCanon) : (s.dcredIn dev count).RegsCanon := by
  unfold State.dcredIn
  split
  · exact h
  · exact h.upd

theorem reqIn {dev p backlog used : Nat} (h : s.RegsCanon) : (s.reqIn dev p backlog used).RegsCanon :=
  h.fegUpd.whenNot (·.outstanding.cnt)

theorem ctrlIn {dev : Nat} {pay : Bytes} (h : s.RegsCanon) : (s.ctrlIn dev pay).RegsCanon := by
  refine h.foldS (fun _ _ h1 => ?_)
  dsimp only
  split
  · exact h1.reqIn
  · exact h1.grantIn
  · exact h1.dcredIn
  · exact h1

theorem release {src : Nat} {c : FCell} (h : s.RegsCanon) : (s.release src c).RegsCanon :=
  .branch h.ctrlIn (have h1 := h.when (·.cnt); branch h1.frxUpd.fegUpd.outstanding h1.frxUpd.fegUpd.fabUpd)

theorem releaseHeld {src m : Nat} (h : s.RegsCanon) : (s.releaseHeld src m).RegsCanon := by
  induction m generalizing s with
  | zero => exact h
  | succ _ ih =>
    unfold State.releaseHeld
    dsimp only
    split
    · exact h
    · exact ih h.frxUpd.release

theorem gapWatch {src : Nat} {moved : Bool} (h : s.RegsCanon) : (s.gapWatch src moved).RegsCanon := h.frxUpd
theorem reseq {c : FCell} (h : s.RegsCanon) : (s.reseq c).RegsCanon :=
  branch h.cnt (branch h.cnt.cnt (branch (h.cnt.cnt.whenNot (·.fabUpd.fabEvt)) h.cnt.frxUpd.releaseHeld.gapWatch))

theorem cellReceive {i : Nat} {b : Bytes} {d : Option Descr} {nak : Bool} (h : s.RegsCanon) :
    (s.cellReceive i b d nak).RegsCanon :=
  branch h (branch h.cnt (h.flinkPut.whenNot (fun hq => hq.cnt.whenNot (·.flinkPut.reseq))))

theorem gapTimeout {src : Nat} (h : s.RegsCanon) : (s.gapTimeout src).RegsCanon := by
  unfold State.gapTimeout
  dsimp only
  split
  · exact ((h.advanceUp.cnt.when (·.cnt)).whenNot (·.fabUpd.fabEvt)).frxUpd.fabUpd.releaseHeld.gapWatch
  · exact h

theorem cellFirst {src : Nat} {c : FCell} (h : s.RegsCanon) : (s.cellFirst src c).RegsCanon := h.egEnter.frxUpd
theorem frameSet {p c : Nat} {old new : EgrFrame} (h : s.RegsCanon) : (s.frameSet p c old new).RegsCanon := h.eqSet

theorem cellNext {src : Nat} {c : FCell} (h : s.RegsCanon) : (s.cellNext src c).RegsCanon := by
  unfold State.cellNext
  split
  · exact h
  · exact h.frameSet.when (·.frxUpd)

theorem cellGap {src : Nat} (h : s.RegsCanon) : (s.cellGap src).RegsCanon := by
  unfold State.cellGap
  split
  · exact h
  · exact h.frameSet.frxUpd

theorem egArrive (h : s.RegsCanon) : s.egArrive.RegsCanon := by
  unfold State.egArrive
  split
  · exact h
  · dsimp only
    split
    · exact h.fabUpd.outstanding.egEnter
    · exact branch h.fabUpd.outstanding.cellFirst h.fabUpd.outstanding.cellNext
    · exact h.fabUpd.cellGap

theorem schedule (h : s.RegsCanon) : s.schedule.RegsCanon := by
  refine .branch h ?_
  split
  · next e1 => exact h.select.of_fst e1
  · next e2 => exact have h3 := (h.select.of_fst e2).depart; branch h3.fabUpd h3.fabUpd

/-! #### Images (Machine/Image) -/

theorem imgPut {k slot : Nat} {b : Bytes} (h : s.RegsCanon) : (s.imgPut k slot b).RegsCanon := h.upd
theorem showBcr (h : s.RegsCanon) : s.showBcr.RegsCanon := .wr (.wr (h.foldS (fun _ _ h1 => h1.wr.wr.wr)))
theorem bcrSector {inA : Bool} {r : Bytes} (h : s.RegsCanon) : (s.bcrSector inA r).RegsCanon := h.upd
theorem bcrWrite {b : Bcr} (h : s.RegsCanon) : (s.bcrWrite b).RegsCanon := h.bcrSector.bcrSector.showBcr
theorem showKeys (h : s.RegsCanon) : s.showKeys.RegsCanon := h.wr.wr
theorem keyUpd {i : Nat} {f : KeySlot → KeySlot} (h : s.RegsCanon) : (s.keyUpd i f).RegsCanon := h.upd.showKeys
theorem showSecVer {k : Nat} {b : Bytes} (h : s.RegsCanon) : (s.showSecVer k b).RegsCanon := h.wr
theorem bcrRevert {set reason : Nat} (h : s.RegsCanon) : (s.bcrRevert set reason).RegsCanon := h.bcrWrite.wr.wr.wr.raise.upd
theorem enterTrial {set : Nat} {warm : Bool} (h : s.RegsCanon) : (s.enterTrial set warm).RegsCanon :=
  h.bcrWrite.whenNot (·.upd.raise)

theorem loadGal {g : Nat} {prog : Option Bytes} (h : s.RegsCanon) : (s.loadGal g prog).RegsCanon := by
  unfold State.loadGal
  split
  · exact branch h.galLoad h.galEvt
  · exact h.galEvt

/-! #### OTN framing (Machine/Otn) -/

theorem defect {g k : Nat} {f : Fld} {v : Bool} (h : s.RegsCanon) : (s.defect g k f v).RegsCanon := h.whenNot (·.wr.raise)
theorem oifUpd {g k : Nat} {f : OtnIf → OtnIf} (h : s.RegsCanon) : (s.oifUpd g k f).RegsCanon := h.upd
theorem opcUpd {g c : Nat} {f : OtnPc → OtnPc} (h : s.RegsCanon) : (s.opcUpd g c f).RegsCanon := h.upd
theorem ifUp {g k : Nat} (h : s.RegsCanon) : (s.ifUp g k).RegsCanon := (h.when (·.oifUpd)).wr
theorem pcSet {g c : Nat} {f : OtnPc → OtnPc} (h : s.RegsCanon) : (s.pcSet g c f).RegsCanon := h.opcUpd.when (·.opcUpd)
theorem setFas {g k : Nat} {ok : Bool} (h : s.RegsCanon) : (s.setFas g k ok).RegsCanon := (h.whenNot (·.oifUpd)).defect
theorem setMfas {g k : Nat} {ok : Bool} (h : s.RegsCanon) : (s.setMfas g k ok).RegsCanon := (h.whenNot (·.oifUpd)).defect
theorem loseFas {g k : Nat} (h : s.RegsCanon) : (s.loseFas g k).RegsCanon := h.setFas.setMfas
theorem showLof {g k : Nat} (h : s.RegsCanon) : (s.showLof g k).RegsCanon := h.whenNot (·.oifUpd.wr.raise)
theorem loseLane {g k i : Nat} (h : s.RegsCanon) : (s.loseLane g k i).RegsCanon :=
  (branch h.oifUpd.defect h.oifUpd.showLof).loseFas
theorem framerStart {g k : Nat} (h : s.RegsCanon) :
    (s.framerStart g k).RegsCanon := h.whenNot (·.upd.wr.raise.loseLane.ifUp)
theorem framersStart (h : s.RegsCanon) : s.framersStart.RegsCanon :=
  h.foldS (fun _ _ h1 => h1.foldS (fun _ _ h2 => h2.framerStart))

theorem laneSignal {g l : Nat} {ok : Bool} (h : s.RegsCanon) : (s.laneSignal g l ok).RegsCanon := by
  unfold State.laneSignal
  split
  · exact h
  · exact h.whenNot (fun hq => hq.whenNot (fun hq => (hq.wr.raise.whenNot (·.loseLane)).ifUp))

theorem alignLock {g k : Nat} {p : AlignProc} (h : s.RegsCanon) : (s.alignLock g k p).RegsCanon := by
  refine .branch h (.ifUp ?_)
  split
  · exact h.when (·.oifUpd.showLof)
  · exact h.when (·.oifUpd.defect)
  · exact h.when (·.setFas)
  · exact h.when (·.setMfas)
  · exact h.when (·.oifUpd.showLof)
  · exact h.defect
  · exact h.when (·.pcSet)

theorem alignLoss {g k : Nat} {p : AlignProc} (h : s.RegsCanon) : (s.alignLoss g k p).RegsCanon := by
  refine .branch h (.ifUp ?_)
  split
  · exact h.when (·.loseLane)
  · exact h.when (·.loseLane)
  · exact h.when (·.loseFas)
  · exact h.when (·.setMfas)
  · exact h.when (·.oifUpd.showLof)
  · exact h.when (·.oifUpd.defect)
  · exact h.when (·.pcSet)

theorem defectPersist {g k : Nat} {lom : Bool} (h : s.RegsCanon) : (s.defectPersist g k lom).RegsCanon :=
  branch h ((branch h.advanceUp.defect h.advanceUp.defect).ifUp)

theorem wrBytes {addr m : Nat} {m1 : Bytes} (h : s.RegsCanon) : (s.wrBytes addr m m1).RegsCanon := by
  induction m generalizing s addr m1 with
  | zero => exact h
  | succ n ih => exact ih h.wrw

theorem ttiAccept {g i : Nat} {tti : Bytes} (h : s.RegsCanon) : (s.ttiAccept g i tti).RegsCanon :=
  branch h (branch h.wrBytes.defect.ifUp h.wrBytes.pcSet)
theorem secBegin (h : s.RegsCanon) : s.secBegin.RegsCanon := h.upd
theorem pmSecond {obs : List PmObs} (h : s.RegsCanon) : (s.pmSecond obs).RegsCanon :=
  h.whenNot (·.advanceTo.pmCatchUp.upd.secBegin)
theorem pmBinClose (h : s.RegsCanon) : s.pmBinClose.RegsCanon := h.whenNot (·.advanceTo.pmCatchUp)
theorem pmInit (h : s.RegsCanon) : s.pmInit.RegsCanon := h.upd
theorem pmSel {g ent bin : Nat} (h : s.RegsCanon) : (s.pmSel g ent bin).RegsCanon := h.foldS (fun _ _ h1 => h1.wrw)
theorem tsiReject {err idx : Nat} (h : s.RegsCanon) : (s.tsiReject err idx).RegsCanon := h.wr.wr.wr.raise

theorem tsiGo (h : s.RegsCanon) : s.tsiGo.RegsCanon := by
  refine .branch h (.branch h.tsiReject ?_)
  split
  · exact h.tsiReject
  · exact (h.when (·.wr)).wr.wr.wr.upd

theorem tsiCopy {g k src dst : Nat} (h : s.RegsCanon) : (s.tsiCopy g k src dst).RegsCanon :=
  mwf_foldl_mset _ (mwf_filter _ _ h) fun _ _ hm => mwf_mset _ hm _ _
theorem tsiGroup {g k : Nat} (h : s.RegsCanon) : (s.tsiGroup g k).RegsCanon := h.when (·.advanceTo.tsiCopy.upd)
theorem tsiTick {n : Nat} (h : s.RegsCanon) : (s.tsiTick n).RegsCanon :=
  h.when (fun hq => .upd (hq.foldS (fun _ _ h1 => h1.tsiCopy)))

theorem tsiDone (h : s.RegsCanon) : s.tsiDone.RegsCanon :=
  branch (.raise (.wr64 (.wr (.wr (.wr (s := State.mk ..) (mwf_foldl_mset _ (mwf_filter _ _ h) fun _ _ hm =>
    mwf_mset _ hm _ _)))))) h

theorem tsiWake (h : s.RegsCanon) : s.tsiWake.RegsCanon := h.when (fun hq => .upd (hq.foldS (fun _ _ h1 => h1.tsiCopy)))

/-! #### Modes (Machine/Modes) -/

theorem trans {trig frm to_ tick : Nat} (h : s.RegsCanon) : (s.trans trig frm to_ tick).RegsCanon := h.wr.wr.wr.wr64.raise

theorem cold (_h : s.RegsCanon) : s.cold.RegsCanon := by
  refine wr (s := State.mk ..) ?_
  exact mwf_foldl_mset _ rfl fun _ _ hm => mwf_mset _ hm _ _

theorem startAscent {trig : Nat} {fault : Bool} (h : s.RegsCanon) : (s.startAscent trig fault).RegsCanon :=
  h.cold.wr.wr.upd.trans
theorem dormant (h : s.RegsCanon) : s.dormant.RegsCanon := h.cold.wr.wr
theorem mayAscend (h : s.RegsCanon) : s.mayAscend.RegsCanon := h.when (·.startAscent)
theorem dropTraffic (h : s.RegsCanon) : s.dropTraffic.RegsCanon :=
  .upd (.foldS (h.foldS (fun _ _ h1 => h1.nhDone)) (fun _ _ h3 => h3.egEnd))
theorem modResult {cmd code : Nat} {late : Bool} (h : s.RegsCanon) : (s.modResult cmd code late).RegsCanon :=
  h.wr.wr.wr.raise

theorem overtake (h : s.RegsCanon) : s.overtake.RegsCanon := by
  refine .wr (.upd ?_)
  split
  · refine .modResult ?_
    split
    · exact h.modResult
    · exact h
  · split
    · exact h.modResult
    · exact h

theorem endRun (h : s.RegsCanon) : s.endRun.RegsCanon := (h.when (·.wr)).upd.wr.wr.wr.wr.wr.wr

theorem safehold {reason detail trig : Nat} {rsq : Bool} (h : s.RegsCanon) :
    (s.safehold reason detail trig rsq).RegsCanon :=
  .branch h (have h4 := h.bypEnter.bypEnter.linesOff.overtake.endRun.wr.wr.wr.wr.wr.trans; branch
    h4.dropTraffic.tetherTx.tetherTx h4.dropTraffic.bypT.bypT)

theorem ascentFail {n : Nat} (h : s.RegsCanon) : (s.ascentFail n).RegsCanon := h.safehold
theorem passageFail {dir : Nat} (h : s.RegsCanon) : (s.passageFail dir).RegsCanon := branch h.upd h.safehold
theorem flitReplay {dir : Nat} (h : s.RegsCanon) : (s.flitReplay dir).RegsCanon := h.whenNot (·.upd.raise)

theorem keeperFail {cause : Nat} (h : s.RegsCanon) : (s.keeperFail cause).RegsCanon :=
  .branch h (.branch h.wr.upd (have h3 := h.wr.bypEnter.bypEnter.linesOff.tetherTx.tetherTx.wr; branch h3.wr.startAscent
    h3.safehold.upd))

theorem rsqClear (h : s.RegsCanon) : s.rsqClear.RegsCanon := by
  unfold State.rsqClear
  split
  · exact h.when (·.advanceUp.wr.upd)
  · exact h

theorem lullEnter {p : ModPend} (h : s.RegsCanon) : (s.lullEnter p).RegsCanon := h.wr.raise.upd.linesOff
theorem wakeStart (h : s.RegsCanon) : s.wakeStart.RegsCanon := h.wr.raise
theorem commitsHeld (h : s.RegsCanon) : s.commitsHeld.RegsCanon := h.upd

theorem patLate (h : s.RegsCanon) : s.patLate.RegsCanon := by
  unfold State.patLate
  split
  · exact h.when (·.wr.upd)
  · exact h

theorem lullEntered (h : s.RegsCanon) : s.lullEntered.RegsCanon := by
  unfold State.lullEntered
  split
  · exact h
  · exact .modResult (.trans (.wr (.wr (.wr (.commitsHeld (.pmSuspect
        (.upd (.loadGal (.upd (.dropTraffic (h.svyLull.satInc.satInc.foldS
        (fun _ _ h4 => (h4.when (·.galDrain.galDrained)).galOff.steer))))))))))))

theorem wakeNote {src : Nat} (h : s.RegsCanon) : (s.wakeNote src).RegsCanon := h.wr.raise
theorem wake {src : Nat} (h : s.RegsCanon) : (s.wake src).RegsCanon :=
  branch h (branch h.wakeNote.upd (h.wakeNote.whenNot (·.wakeStart)))

theorem modCarry {p : ModPend} (h : s.RegsCanon) : (s.modCarry p).RegsCanon := by
  unfold State.modCarry
  dsimp only
  split
  · exact h.upd.wr.lullEnter
  · exact h.upd.wr.wake.modResult
  · exact .modResult (.trans (h.upd.wr.bypShut.bypShut.linesOff.endRun.dropTraffic.wr.wr.upd.foldS
        (fun _ _ h5 => h5.galOff)))
  · exact (h.upd.wr.whenNot (·.bypShut.bypShut)).bypWait.bypWait.startAscent.modResult
  · exact h.upd.wr.modResult.safehold

theorem modCmd {cmd : Nat} {atTick overtaken : Bool} (h : s.RegsCanon) : (s.modCmd cmd atTick overtaken).RegsCanon :=
  .branch h (.branch ((h.when (·.wakeNote)).modResult) (.branch h.modResult
    (have h1 := h.when (·.wr); branch h1.modCarry (branch h1.upd.wr (branch h1.upd.wr h1.modCarry)))))

theorem modTickDue (h : s.RegsCanon) : s.modTickDue.RegsCanon := by
  unfold State.modTickDue
  split
  · exact h.when (·.modCarry)
  · exact h

theorem transEnded (h : s.RegsCanon) : s.transEnded.RegsCanon := by
  unfold State.transEnded
  split
  · exact h.upd.safehold
  · refine .when ?_ (·.upd.wakeStart)
    split
    · exact h.upd.wr.modCmd
    · exact h

theorem keeperCmd {cmd : Nat} (h : s.RegsCanon) : (s.keeperCmd cmd).RegsCanon := by
  refine .branch h (.branch ?_ (.branch (.modResult ?_) (.branch (.wr (.upd ?_)) (.modCarry ?_))))
  all_goals
    split
    · exact h.upd.wr.modResult
    · exact h

theorem lullEntryDone (h : s.RegsCanon) : s.lullEntryDone.RegsCanon := h.when (·.lullEntered.transEnded)
theorem wakeClear (_h : s.RegsCanon) : s.wakeClear.RegsCanon :=
  mwf_foldl_mset _ rfl fun _ _ hm => mwf_mset _ hm _ _

theorem wakeDomains (h : s.RegsCanon) : s.wakeDomains.RegsCanon := by
  refine .foldS (.svyWake ?_) (fun _ _ h6 => h6.hrdReclaim.loadGal)
  split
  · exact .upd (.upd (h.wakeClear.shpInitAll.poolsBuild.foldS (fun _ _ h2 => h2.echPower)))
  · exact .upd (h.wakeClear.shpInitAll.poolsBuild.foldS (fun _ _ h2 => h2.echPower))

theorem lullExitDone (h : s.RegsCanon) : s.lullExitDone.RegsCanon :=
  h.whenNot (fun hq => .transEnded ((hq.wakeDomains.whenNot
    (·.galCnt.galEvt)).upd.galOff.steer.wr.wr.wr.upd.trans.patLate.tsiWake.pmCatchUp.framersStart.foldS
    (fun _ _ h9 => h9.when (·.startAttempt))))

theorem gal0Return (h : s.RegsCanon) : s.gal0Return.RegsCanon := h.when (·.hrdReclaim.loadGal)
theorem railLow {i : Nat} (h : s.RegsCanon) : (s.railLow i).RegsCanon := h.upd.dormant
theorem railOk {i : Nat} (h : s.RegsCanon) : (s.railOk i).RegsCanon := h.upd.mayAscend
theorem sysclkFail (h : s.RegsCanon) : s.sysclkFail.RegsCanon := h.upd.dormant
theorem sysclkOk (h : s.RegsCanon) : s.sysclkOk.RegsCanon := h.upd.mayAscend
theorem tcxoFail (h : s.RegsCanon) : s.tcxoFail.RegsCanon := h.whenNot (·.upd.refSee.setRef.holdLast)
theorem sensorRead {i v : Nat} (h : s.RegsCanon) : (s.sensorRead i v).RegsCanon :=
  branch h.wr (branch h.wr.wr.raise (h.wr.when (·.wr)))

theorem thermal {l : List (Nat × Nat)} (h : s.RegsCanon) : (s.thermal l).RegsCanon := by
  unfold State.thermal
  dsimp only
  split
  · exact .upd (h.foldS (fun _ _ h1 => h1.sensorRead))
  · exact .safehold (.whenNot (.upd (h.foldS (fun _ _ h1 => h1.sensorRead))) (·.wr.raise))

theorem tripRelease (h : s.RegsCanon) : s.tripRelease.RegsCanon := by
  unfold State.tripRelease
  split
  · exact h.when (·.advanceUp.wr)
  · exact h

theorem wakePin {low : Bool} (h : s.RegsCanon) : (s.wakePin low).RegsCanon := h.upd.when (·.wake)
theorem wakeTick (h : s.RegsCanon) : s.wakeTick.RegsCanon := h.when (·.wake)

/-! #### Reception (Machine/Ingress) -/

theorem pipeEnd {p : Pkt} {v : Verdict} (h : s.RegsCanon) : (s.pipeEnd p v).RegsCanon := by
  unfold State.pipeEnd
  split
  · exact h.nhDone
  · exact h.nhDone.puntPacket
  · exact branch h.upd h.toPassage

theorem passEnd {p : Pkt} {prof : Nat} {e0 : PassEnv} {v : Verdict} (h : s.RegsCanon) : (s.passEnd p prof e0 v).RegsCanon :=
  h.aclPass.pipeEnd

theorem lastPass {p : Pkt} {prof : Nat} {e : PassEnv} (h : s.RegsCanon) : (s.lastPass p prof e).RegsCanon := by
  rw [show @State.lastPass = delta% @State.lastPass from rfl]
  beta_reduce
  split
  · next e1 => exact (h.lookPass.of_fst e1).passEnd
  · next e1 => exact (h.lookPass.of_fst e1).pipeEnd

theorem passes {p : Pkt} {e1 e2 : PassEnv} (h : s.RegsCanon) : (s.passes p e1 e2).RegsCanon := by
  rw [show @State.passes = delta% @State.passes from rfl]
  beta_reduce
  split
  · next e => exact (h.lookPass.of_fst e).passEnd
  · next e => exact (h.lookPass.of_fst e).pipeEnd
  · next e => exact (h.lookPass.of_fst e).lastPass
  · next e =>
    exact have ht := (h.lookPass.of_fst e).aclLookup.aclLookup; branch ht.pipeEnd ht.lastPass

theorem pipeline {p : Pkt} {e1 e2 : PassEnv} (h : s.RegsCanon) : (s.pipeline p e1 e2).RegsCanon := by
  unfold State.pipeline
  dsimp only
  split
  · exact h.countParse.classify.learnOnly
  · exact h.countParse.classify.learnOnly.puntPacket
  · exact h.countParse.classify.passes

theorem lullPath {p : Pkt} (h : s.RegsCanon) : (s.lullPath p).RegsCanon := branch h.emit (branch h.satInc h.upd)
theorem pcCnt {p : Nat} {bad : Bool} (h : s.RegsCanon) : (s.pcCnt p bad).RegsCanon := h.cnt

theorem macDeliver {port : Nat} {p : Pkt} {e1 e2 : PassEnv} (h : s.RegsCanon) : (s.macDeliver port p e1 e2).RegsCanon :=
  .branch (branch h.puntPacket h.lpt) (.branch h.lpt (have h1 := h.lpt.lpt.bwAdd; branch (h1.wake.when (·.emit))
    (branch h1.lullPath h1.pipeline)))

theorem receive {port lane : Nat} {f : Bytes} {e1 e2 : PassEnv} (h : s.RegsCanon) :
    (s.receive port lane f e1 e2).RegsCanon :=
  branch h (branch (branch h.pcCnt (branch h.pcCnt h.pcCnt.bwAdd.pipeline))
    (branch h.lpt (branch h.lpt (branch (branch h.lpt.pipeline h.lpt)
    (branch h.lpt (branch (branch h.pfcReceive h.lpt) h.macDeliver))))))

theorem galleryInput {g : Nat} (h : s.RegsCanon) : (s.galleryInput g).RegsCanon := by
  unfold State.galleryInput
  split
  · exact h
  · exact .branch h (have h3 := branch_fst h.upd.galUpd h.upd.galUpd.packetScan; branch h3.galAccept h3.nhDone)

/-! #### What the engine instructions are built from (Machine/EngBase) -/

theorem gput {d : Iss} {r : GReg} {v : Nat} (h : s.RegsCanon) : (s.gput d r v).RegsCanon := h.rgSet
theorem thrPut {d : Iss} {f : Thr → Thr} (h : s.RegsCanon) : (s.thrPut d f).RegsCanon := h.thrUpd
theorem pmcOf {d : Iss} {ev : Nat} (h : s.RegsCanon) : (s.pmcOf d ev).RegsCanon := h.pmc

theorem eng {d : Iss} {i : Instr} {body : State → State × Ctl} (h : s.RegsCanon)
    (hf : ∀ t, t.RegsCanon → (body t).1.RegsCanon) : (s.eng d i body).RegsCanon :=
  h.issue (fun _ h1 => hf _ h1)

theorem engRd {d : Iss} {i : Instr} {rd : GReg} {f : State → Nat} (h : s.RegsCanon) : (s.engRd d i rd f).RegsCanon :=
  h.eng (fun _ h1 => h1.gput)
theorem predPut {d : Iss} {p : PReg} {v : Bool} (h : s.RegsCanon) : (s.predPut d p v).RegsCanon := h.pdSet
theorem compare {d : Iss} {pd : PReg} {cb cc a b : Nat} (h : s.RegsCanon) :
    (s.compare d pd cb cc a b).RegsCanon := h.predPut

theorem engField {d : Iss} {i : Instr} {rd : GReg} {pos lenm1 f : State → Nat} (h : s.RegsCanon) :
    (s.engField d i rd pos lenm1 f).RegsCanon :=
  h.eng (fun _ h1 => branch_fst h1 h1.gput)

theorem hwWrite {d : Iss} {o n v : Nat} (h : s.RegsCanon) : (s.hwWrite d o n v).RegsCanon := h.thrPut
theorem load {d : Iss} {rd : GReg} {a n : Nat} (h : s.RegsCanon) : (s.load d rd a n).1.RegsCanon := branch_fst h h.gput
theorem store {d : Iss} {a n v : Nat} {lost : Bool} (h : s.RegsCanon) : (s.store d a n v lost).1.RegsCanon :=
  branch_fst h (branch_fst h.writeLost h.memWr)

theorem engAtom {d : Iss} {i : Instr} {rd ra rb : GReg} {dbl : Bool} {f : Nat → Nat → Nat → Nat} (h : s.RegsCanon) :
    (s.engAtom d i rd ra rb dbl f).RegsCanon :=
  h.eng (fun _ h1 => branch_fst h1 h1.memWr.gput)

theorem request {d : Iss} {rd : GReg} {r : Req} {act : State → Nat → State} (h : s.RegsCanon)
    (hf : ∀ t x1, t.RegsCanon → (act t x1).RegsCanon) : (s.request d rd r act).1.RegsCanon := by
  unfold State.request
  split
  · exact h.pmcOf
  · exact hf _ _ h.tokSet.gput

theorem requestDone {d : Iss} {rd : GReg} {status : Nat} (h : s.RegsCanon) : (s.requestDone d rd status).1.RegsCanon :=
  h.request (fun _ _ h1 => h1.tokComplete)

theorem engLkp {d : Iss} {i : Instr} {kind tbl : Nat} {rd ra rb : GReg} (h : s.RegsCanon) :
    (s.engLkp d i kind tbl rd ra rb).RegsCanon :=
  h.eng (fun _ h1 => .branch_fst h1 (.branch_fst h1 (.branch_fst h1.requestDone (h1.request (fun _ _ h2 => h2.pmcOf)))))

theorem openBytes {m : Nat} (h : s.RegsCanon) : (s.openBytes m).2.RegsCanon := by
  induction m generalizing s with
  | zero => exact h
  | succ _ ih => exact ih h.upd

theorem lkpReads {g : Nat} {r : LkpReq} (h : s.RegsCanon) : (s.lkpReads g r).1.RegsCanon := by
  unfold State.lkpReads
  split
  · exact h.spendReads
  · exact h.bucketLines.spendReads
  · exact h.upd.spendReads

theorem lkpDone {g i n : Nat} {t : Tok} {r : LkpReq} {ecc : Bool} (h : s.RegsCanon) :
    (s.lkpDone g i n t r ecc).RegsCanon := by
  refine .branch h.tokComplete (.branch ((h.openBytes.whenNot (·.memPut)).tokComplete) ?_)
  split
  · exact (h.whenNot (·.memPut)).tokComplete
  · refine .tokComplete (.whenNot ?_ (·.memPut))
    split
    · exact h.when (·.emWrite)
    · exact h

theorem lkpComplete {g i n : Nat} {ecc : Bool} (h : s.RegsCanon) : (s.lkpComplete g i n ecc).RegsCanon := by
  unfold State.lkpComplete
  split
  · exact (branch_fst h h.lkpReads).when (·.lkpDone)
  · exact h

theorem engAcl {d : Iss} {i : Instr} {next : Bool} {rd ra : GReg} {e0 : AclEnv} (h : s.RegsCanon) :
    (s.engAcl d i next rd ra e0).RegsCanon := by
  refine h.eng (fun _ h1 => .branch_fst h1 (.branch_fst h1.gput ?_))
  dsimp only
  split
  · exact (branch_fst h1.aclStep h1.aclSearch).gput
  · exact (branch_fst h1.aclStep h1.aclSearch).memPut.gput

theorem engEcho {d : Iss} {i : Instr} {after mem : Bool} {rd ra : GReg} (h : s.RegsCanon) :
    (s.engEcho d i after mem rd ra).RegsCanon := by
  refine h.eng (fun _ h1 => .branch_fst h1 (.branch_fst (h1.request (fun _ _ h2 => h2.memWr.tokComplete)) ?_))
  dsimp only
  split
  · exact h1.requestDone
  · exact .branch_fst h1 (h1.request (fun _ _ h3 => h3.echQueue.pmcOf))

theorem engHrd {d : Iss} {i : Instr} {rd ra : GReg} {op : State → Nat → Nat → State} (h : s.RegsCanon)
    (hf : ∀ t x1 x2, t.RegsCanon → (op t x1 x2).RegsCanon) : (s.engHrd d i rd ra op).RegsCanon :=
  h.eng (fun _ h1 => .branch_fst h1.requestDone (h1.request (fun _ _ h2 => (hf _ _ _ h2).pmcOf)))

theorem engDma {d : Iss} {i : Instr} {dir : Nat} {rd ra : GReg} (h : s.RegsCanon) : (s.engDma d i dir rd ra).RegsCanon := by
  rw [show @State.engDma = delta% @State.engDma from rfl]
  refine h.eng fun _ h => ?_
  extract_lets a b r
  split
  · exact h
  · split
    · exact h
    · exact branch_fst h.requestDone (h.request fun _ _ h => h.pmcOf)

theorem cellPut {h0 o : Nat} {m : Bytes} (h : s.RegsCanon) : (s.cellPut h0 o m).RegsCanon := by
  induction m generalizing s o with
  | nil => exact h
  | cons _ _ ih => exact ih h.cellWordSet

theorem tPut {a : Nat} {m : Bytes} (h : s.RegsCanon) : (s.tPut a m).RegsCanon := by
  induction m generalizing s a with
  | nil => exact h
  | cons _ _ ih => exact ih h.tByteSet

theorem tRead {a n : Nat} (h : s.RegsCanon) : (s.tRead a n).2.RegsCanon := by
  rw [show @State.tRead = delta% @State.tRead from by delta State.tRead; rfl,
    show @State.tRead._f = delta% @State.tRead._f from rfl]
  obtain ⟨shown, hshown⟩ := exists_eq (a' := State.tShown)
  rw [← hshown]
  clear hshown
  induction n generalizing s a with
  | zero => exact h
  | succ _ ih => exact ih (branch_snd h h.upd)

theorem dmaDone {g i n : Nat} {t : Tok} {r : DmaReq} {ecc : Bool} (h : s.RegsCanon) :
    (s.dmaDone g i n t r ecc).RegsCanon := by
  refine .branch h.tokComplete (.branch (branch h.tokComplete ((h.openBytes.whenNot (·.memPut)).tokComplete))
      (.tokComplete ?_))
  split
  · split
    · exact h.whenNot (·.memPut)
    · exact h
  · exact h.tRead.whenNot (·.memPut)
  · exact h.tPut
  · exact h.whenNot (·.memPut)
  · exact h.cellPut

theorem dmaComplete {g i n : Nat} {ecc : Bool} (h : s.RegsCanon) : (s.dmaComplete g i n ecc).RegsCanon := by
  unfold State.dmaComplete
  split
  · exact h.dmaDone
  · exact h

/-! #### Command service (Machine/HostCmdBase) -/

theorem take {h0 : CmdHdr} (h : s.RegsCanon) : (s.take h0).RegsCanon := by
  unfold State.take
  dsimp only
  split
  · exact h.cnt.setCons
  · exact h.cnt.upd

theorem respond {h0 : CmdHdr} {op code hst : Nat} {final : Bool} {res : Bytes} {tick : Option Nat} {flags2 : Nat} (h :
    s.RegsCanon) : (s.respond h0 op code hst final res tick flags2).RegsCanon := by
  unfold State.respond
  dsimp only
  split
  · exact (h.when (·.emit)).rspPut
  · exact h.sendDirect

theorem answer {h0 : CmdHdr} {op code hst : Nat} (h : s.RegsCanon) : (s.answer h0 op code hst).RegsCanon := h.respond

theorem serve {h0 : CmdHdr} {op need : Nat} {body : State → State} (h : s.RegsCanon)
    (hf : ∀ t, t.RegsCanon → (body t).RegsCanon) : (s.serve h0 op need body).RegsCanon :=
  branch h (branch h.take.answer (branch h.take.answer (hf _ h.take)))

theorem serveTable {h0 : CmdHdr} {op need : Nat} {body : State → State} (h : s.RegsCanon)
    (hf : ∀ t, t.RegsCanon → (body t).RegsCanon) : (s.serveTable h0 op need body).RegsCanon :=
  h.serve (fun _ h1 => branch h1.answer (hf _ h1))

theorem notice {body : Bytes} (h : s.RegsCanon) : (s.notice body).RegsCanon :=
  h.rspPut.whenNot (fun hq => hq.when (·.sendDirect))

/-! #### Flues (Machine/EngCtl) -/

theorem engFlue {d : Iss} {i : Instr} {idx : BitVec 8} {body : State → State × Ctl} (h : s.RegsCanon)
    (hf : ∀ t, t.RegsCanon → (body t).1.RegsCanon) : (s.engFlue d i idx body).RegsCanon :=
  h.eng (fun _ h1 => branch_fst h1 (hf _ h1))

theorem flueReserve {d : Iss} {f k : Nat} (h : s.RegsCanon) : (s.flueReserve d f k).1.RegsCanon := by
  unfold State.flueReserve
  dsimp only
  split
  · exact branch_fst h.thrPut h
  · exact branch_fst h (branch_fst h (branch_fst h.thrPut.thrPut h.thrPut.flueWaitPut.pmcOf))

theorem flueStage {d : Iss} {f v : Nat} (h : s.RegsCanon) : (s.flueStage d f v).1.RegsCanon := by
  refine .branch_fst h ?_
  split
  · exact h
  · exact branch_fst h h.thrPut

theorem flueCommit {d : Iss} {rd : GReg} {f : Nat} (h : s.RegsCanon) : (s.flueCommit d rd f).1.RegsCanon := by
  refine .branch_fst h.thrPut.gput ?_
  split
  · exact h.gput
  · exact h.thrPut.fluePut.flueFreed.gput

theorem flueGet {d : Iss} {rd : GReg} {f : Nat} (h : s.RegsCanon) : (s.flueGet d rd f).1.RegsCanon := by
  refine .branch_fst h ?_
  split
  · split
    · exact h
    · exact h.pmcOf
  · exact h.fluePut.flueFreed.gput

theorem flueLen {d : Iss} {rd : GReg} {f : Nat} (h : s.RegsCanon) : (s.flueLen d rd f).1.RegsCanon := branch_fst h h.gput

theorem tokTake {d : Iss} {rd : GReg} {n : Nat} (h : s.RegsCanon) : (s.tokTake d rd n).1.RegsCanon := by
  unfold State.tokTake
  split
  · exact h.tokSet.gput
  · exact h

theorem waitTok {d : Iss} {rd : GReg} {v : Nat} (h : s.RegsCanon) : (s.waitTok d rd v).1.RegsCanon := branch_fst h h.tokTake

theorem waitAny {d : Iss} {rd : GReg} {m : Nat} (h : s.RegsCanon) : (s.waitAny d rd m).1.RegsCanon := by
  refine .branch_fst h ?_
  split
  · exact h.tokTake
  · exact h

theorem waitEv {d : Iss} {rd : GReg} {m : Nat} (h : s.RegsCanon) : (s.waitEv d rd m).1.RegsCanon :=
  branch_fst h h.thrPut.gput
theorem testTok {d : Iss} {pd : PReg} {v : Nat} {free : Bool} (h : s.RegsCanon) : (s.testTok d pd v free).RegsCanon :=
  (h.when (·.tokSet)).predPut
theorem cntAdd {i n : Nat} (h : s.RegsCanon) : (s.cntAdd i n).RegsCanon := h.upd
theorem pktReady {d : Iss} (h : s.RegsCanon) : (s.pktReady d).1.RegsCanon := branch_fst h h.thrPut.galServe.dispatch

theorem pktEnd {d : Iss} {out : State → GPkt → State} (h : s.RegsCanon) (hf : ∀ t x1, t.RegsCanon → (out t x1).RegsCanon) :
    (s.pktEnd d out).1.RegsCanon := by
  unfold State.pktEnd
  split
  · exact h
  · exact branch_fst h ((hf _ _ h.thrPut.pmcOf).dispatch)

theorem pktSend {k : GPkt} (h : s.RegsCanon) : (s.pktSend k).RegsCanon :=
  branch (branch h.sendDirect h.satInc) (branch h.egpUpd h.toPassage)
theorem pktDrop {g : Nat} {k : GPkt} (h : s.RegsCanon) : (s.pktDrop g k).RegsCanon := h.galCnt.whenNot (·.nhDone)
theorem pktPunt {g reason : Nat} {k : GPkt} (h : s.RegsCanon) : (s.pktPunt g reason k).RegsCanon :=
  (h.galCnt.whenNot (·.nhDone)).puntPacket

theorem mfsRead {d : Iss} {idx : Nat} (h : s.RegsCanon) : (s.mfsRead d idx).1.RegsCanon := by
  unfold State.mfsRead
  dsimp only
  split
  · exact h
  · exact h
  · exact h
  · exact h
  · exact h
  · exact h
  · exact h
  · exact h
  · exact h
  · refine .branch_fst h (.branch_fst h ?_)
    split
    · exact h.galUpd
    · exact h
    · exact h
    · exact h
    · exact h
    · exact h
    · exact h
    · exact branch_fst h.upd h
    · exact h

theorem engMfs {d : Iss} {i : Instr} {rd : GReg} {idx : Nat} (h : s.RegsCanon) : (s.engMfs d i rd idx).RegsCanon := by
  refine h.eng (fun _ h1 => ?_)
  split
  · next e2 => exact (h1.mfsRead.of_fst e2).gput
  · next e3 => exact h1.mfsRead.of_fst e3

theorem mtsWrite {d : Iss} {idx v : Nat} (h : s.RegsCanon) : (s.mtsWrite d idx v).1.RegsCanon := by
  refine .branch_fst h.thrPut (.branch_fst h (.branch_fst h (.branch_fst h ?_)))
  split
  · exact h.galUpd
  · exact h.haltedRegSet
  · exact h.thrCmd
  · exact h.synthPost
  · exact h.reclaim
  · exact h
  · exact h
  · exact h
  · exact h

theorem engMts {d : Iss} {i : Instr} {ra : GReg} {idx : Nat} (h : s.RegsCanon) : (s.engMts d i ra idx).RegsCanon :=
  h.eng (fun _ h1 => h1.mtsWrite)
theorem engThrCmd {d : Iss} {i : Instr} {ra : GReg} {op : Nat} (h : s.RegsCanon) : (s.engThrCmd d i ra op).RegsCanon :=
  h.when (·.engMts)

/-! #### Engine instructions (Machine/EngAlu) -/

theorem execShi {d : Iss} {rd ra : GReg} {sel : BitVec 3} {amt : BitVec 6} (h : s.RegsCanon) :
    OutCanon (execShi d rd ra sel amt s) := by
  refine .next (h.eng (fun _ h1 => ?_))
  dsimp only
  split
  · exact h1.gput
  · exact h1.gput
  · exact h1.gput
  · exact h1.gput
  · exact h1

/-! #### Engine instructions (Machine/EngMem) -/

theorem execHwadj {d : Iss} {rd ra : GReg} {imm : BitVec 12} (h : s.RegsCanon) : OutCanon (execHwadj d rd ra imm s) := by
  refine .next (h.eng (fun _ h1 => ?_))
  dsimp only
  split
  · exact branch_fst h1.gput h1
  · exact branch_fst h1.thrPut.gput h1

theorem execMdl {d : Iss} {rd : GReg} {idx : BitVec 8} (h : s.RegsCanon) : OutCanon (execMdl d rd idx s) := by
  refine .next (h.eng (fun _ h1 => ?_))
  split
  · exact h1.upd.gput
  · split
    · exact h1.gput
    · exact h1

theorem execMds {d : Iss} {ra : GReg} {idx : BitVec 8} (h : s.RegsCanon) : OutCanon (execMds d ra idx s) := by
  refine .next (h.eng (fun _ h1 => ?_))
  split
  · exact h1
  · split
    · exact h1.thrPut
    · exact h1

/-! #### The Keeper (Machine/Keeper) -/

theorem mbxPut {i : Nat} {m : List Nat} (h : s.RegsCanon) : (s.mbxPut i m).RegsCanon := by
  induction m generalizing s i with
  | nil => exact h
  | cons _ _ ih => exact ih h.wr

theorem mbxRespond {status detail : Nat} {pay : Bytes} (h : s.RegsCanon) : (s.mbxRespond status detail pay).RegsCanon :=
  h.mbxPut.mbxPut.wr.wr.wr.raise

theorem mbxToCore {c seq status detail : Nat} {pay : Bytes} (h : s.RegsCanon) :
    (s.mbxToCore c seq status detail pay).RegsCanon :=
  h.emit

theorem mbxUnknown (h : s.RegsCanon) : s.mbxUnknown.RegsCanon := h.when (·.mbxRespond)

theorem useTokens {m : List (Bytes → Bool)} (h : s.RegsCanon) : OptCanon (s.useTokens m) := by
  induction m generalizing s with
  | nil => exact .some h
  | cons _ _ ih =>
    unfold State.useTokens
    split
    · exact .none
    · exact ih h.upd

theorem withTokens {l : List (Bytes → Bool)} {act : State → MbxAns} (h : s.RegsCanon)
    (hf : ∀ t, t.RegsCanon → (act t).Canon) : (s.withTokens l act).Canon := by
  unfold State.withTokens
  split
  · exact .now h
  · next e1 => exact hf _ (h.useTokens _ e1)

theorem setLc {n : Nat} (h : s.RegsCanon) : (s.setLc n).RegsCanon := (h.whenNot (·.wr)).wr.raise

theorem zeroise (h : s.RegsCanon) : s.zeroise.RegsCanon :=
  .raise (.upd (.foldS (.upd (h.foldS (fun _ _ h1 => h1.keyUpd)))
    (fun _ _ h4 => h4.foldS (fun _ _ h5 => h5.when (·.imgPut)))))

theorem lcProvision {args : Bytes} (h : s.RegsCanon) : (s.lcProvision args).Canon :=
  .ite (.now h) (h.withTokens (fun _ h1 => .now ((h1.when (·.wr.wr.showKeys)).setLc)))
theorem lcField {args : Bytes} (h : s.RegsCanon) : (s.lcField args).Canon := h.withTokens (fun _ h1 => .now h1.setLc)
theorem returnGo (h : s.RegsCanon) : s.returnGo.RegsCanon := h.when (·.zeroise.upd.wr.keeperCmd)
theorem lcReturn {args : Bytes} (h : s.RegsCanon) : (s.lcReturn args).Canon :=
  .ite (.now h) (h.withTokens (fun _ h1 => .mk h1.setLc.upd (fun _ h3 => branch h3.keeperCmd.returnGo h3.returnGo)))
theorem lcScrap {args : Bytes} (h : s.RegsCanon) : (s.lcScrap args).Canon :=
  h.withTokens (fun _ h1 => .mk h1.setLc (fun _ h2 => h2.keeperCmd))
theorem keyProgram {args : Bytes} (h : s.RegsCanon) : (s.keyProgram args).Canon :=
  .ite (.now h) (.ite (.now h) (.ite (.now h.keyUpd) (h.withTokens (fun _ h1 => .now h1.keyUpd))))
theorem keyRevoke {args : Bytes} (h : s.RegsCanon) : (s.keyRevoke args).Canon :=
  .ite (.now h) (.ite (.now h) (h.withTokens (fun _ h1 => .now h1.keyUpd)))
theorem getChallenge (h : s.RegsCanon) : (s.getChallenge).Canon := .now h.upd.upd.upd.upd.upd
theorem debugUnlock {args : Bytes} (h : s.RegsCanon) : (s.debugUnlock args).Canon := h.withTokens (fun _ h1 => .now h1.wr)
theorem imgBegin {b : Bytes} (h : s.RegsCanon) : (s.imgBegin b).Canon :=
  .ite (.now h) (.ite (.now h.upd) (.ite (.now h) (.now h.bcrWrite.imgPut.upd)))

theorem imgData {b : Bytes} (h : s.RegsCanon) : (s.imgData b).Canon := by
  unfold State.imgData
  split
  · exact .now h
  · exact .ite (.now h) (.now (h.upd.whenNot (·.imgPut)))

theorem imgEnd (h : s.RegsCanon) : (s.imgEnd).Canon := by
  unfold State.imgEnd
  split
  · exact .now h
  · exact .ite (.now h) (.ite (.now h.upd) (.ite (.ite (.now h.upd) (.now h.upd.upd)) (.now h.upd.bcrWrite.raise)))

theorem imgArm {b : Bytes} (h : s.RegsCanon) : (s.imgArm b).Canon :=
  .ite (.now h) (.ite (.now h) (.ite (.now h) (.ite (.now h) (.now h.bcrWrite.upd))))
theorem imgDisarm (h : s.RegsCanon) : (s.imgDisarm).Canon := .ite (.now h) (.now h.bcrWrite.upd)
theorem halfPut {h0 : Nat} {l : List (Nat × Bytes)} (h : s.RegsCanon) : (s.halfPut h0 l).RegsCanon := h.upd
theorem raiseSecVer {set : Nat} (h : s.RegsCanon) : (s.raiseSecVer set).RegsCanon := h.foldS (fun _ _ h1 => h1.wr)
theorem imgConfirm (h : s.RegsCanon) : (s.imgConfirm).Canon := .ite (.now h) (.now h.bcrWrite.raiseSecVer.raise.upd)
theorem swapShow {on : Bool} (h : s.RegsCanon) : (s.swapShow on).RegsCanon := h.wr.raise
theorem swapAt {w : Swap} (h : s.RegsCanon) : (s.swapAt w).RegsCanon := h.upd
theorem swapHold {w : Swap} (h : s.RegsCanon) : (s.swapHold w).RegsCanon := h.swapAt.upd.emit
theorem swapEnd {w : Swap} (h : s.RegsCanon) : (s.swapEnd w).RegsCanon := (h.upd.when (·.showSecVer)).swapShow
theorem swapGal {w : Swap} {g : Nat} (h : s.RegsCanon) : (s.swapGal w g).RegsCanon := branch h.swapEnd h.swapAt.galDrain

theorem swapBack {set : Nat} {exchanged fwChanged : Bool} (h : s.RegsCanon) :
    (s.swapBack set exchanged fwChanged).RegsCanon :=
  have h3 := (h.wr.when (·.upd)).when (·.upd); branch h3.swapHold h3.upd.swapGal

theorem configClear (_h : s.RegsCanon) : s.configClear.RegsCanon :=
  mwf_foldl_mset _ rfl fun _ _ hm => by split; exacts [mwf_mset _ hm _ _, hm]
theorem trialAt {k : Nat} (h : s.RegsCanon) : (s.trialAt k).RegsCanon :=
  h.when (fun hq => hq.enterTrial.whenNot (·.bcrRevert))

theorem step4Start (h : s.RegsCanon) : s.step4Start.RegsCanon := by
  rw [show @State.step4Start = delta% @State.step4Start from by delta State.step4Start; rfl]
  obtain ⟨slot, hslot⟩ := exists_eq (a' := State.loadSlot)
  rw [← hslot]
  dsimp only
  split
  · exact .whenNot (h.trialAt.trialAt.showSecVer.showSecVer.upd.foldS fun _ _ h => h.galOff.loadGal) (·.ascentFail)
  · exact h.trialAt.trialAt.ascentFail

theorem ascentBack (h : s.RegsCanon) :
    s.ascentBack.RegsCanon := by unfold State.ascentBack; exact h.configClear.wr.upd.step4Start
theorem revert {set reason : Nat} (h : s.RegsCanon) : (s.revert set reason).RegsCanon :=
  branch h.bcrRevert (branch h.bcrRevert.ascentBack (branch h.bcrRevert.swapBack (h.bcrRevert.whenNot (·.keeperCmd))))
theorem imgRevert (h : s.RegsCanon) : (s.imgRevert).Canon := .ite (.now h) (.mk h (fun _ h1 => h1.revert))
theorem setUnreadable (h : s.RegsCanon) : (s.setUnreadable).Canon :=
  .ite (.now h) (.mk h.bcrWrite.raise (fun _ h2 => h2.revert))

theorem windowExpired (h : s.RegsCanon) : s.windowExpired.RegsCanon := by
  unfold State.windowExpired
  split
  · exact h.when (·.advanceUp.revert)
  · exact h

theorem windowLow (h : s.RegsCanon) : s.windowLow.RegsCanon := by
  unfold State.windowLow
  split
  · exact h.when (·.advanceUp.raise)
  · exact h

theorem settingsRead {b : Bytes} (h : s.RegsCanon) : (s.settingsRead b).Canon := .ite (.now h) (.ite (.now h) (.now h))
theorem settingsWrite {b : Bytes} (h : s.RegsCanon) : (s.settingsWrite b).Canon :=
  .ite (.now h) (.ite (.ite (.now h) (.now h.halfPut)) (.ite (.now h.halfPut) (.ite (.now h) (.now h.halfPut.bcrWrite))))
theorem swapStart (h : s.RegsCanon) : s.swapStart.RegsCanon := h.when (·.upd.swapAt.swapShow)
theorem swapVerified {w : Swap} (h : s.RegsCanon) : (s.swapVerified w).RegsCanon :=
  .branch h.bcrRevert.upd.swapShow (have h3 := (h.when (·.upd)).when (·.upd); branch h3.swapHold h3.enterTrial.swapGal)
theorem swapPrepared {w : Swap} (h : s.RegsCanon) : (s.swapPrepared w).RegsCanon :=
  ((h.whenNot (·.enterTrial)).when (·.loseA)).upd.swapAt
theorem swapLoaded {w : Swap} (h : s.RegsCanon) : (s.swapLoaded w).RegsCanon := h.showSecVer.upd.swapAt
theorem fwStarted (h : s.RegsCanon) : s.fwStarted.RegsCanon := h.upd.notice
theorem revertNotice (h : s.RegsCanon) : s.revertNotice.RegsCanon := h.whenNot (·.notice)

theorem swapStep (h : s.RegsCanon) : s.swapStep.RegsCanon := by
  unfold State.swapStep
  split
  · exact h
  · split
    · exact h.swapVerified
    · exact h.swapPrepared
    · exact h.swapLoaded
    · exact (h.fwStarted.when (·.revertNotice)).swapGal
    · exact h.when (·.swapGal)

theorem swapTimeout (h : s.RegsCanon) : s.swapTimeout.RegsCanon := by
  unfold State.swapTimeout
  split
  · exact h
  · exact branch h.advanceUp.keeperCmd h.advanceUp.bcrRevert.swapBack

theorem loadByKeeper {g : Nat} (h : s.RegsCanon) : (s.loadByKeeper g).RegsCanon := h.when (·.hrdReclaim.loadGal)

theorem drainEnd {g : Nat} (h : s.RegsCanon) : (s.drainEnd g).RegsCanon := by
  refine .branch h ?_
  split
  · exact branch h.galDrained.hrdReclaim.wr.upd h.galDrained.hrdReclaim
  · exact h.galDrained.hrdReclaim

theorem loadTimeout {g : Nat} (h : s.RegsCanon) : (s.loadTimeout g).RegsCanon := by
  unfold State.loadTimeout
  split
  · exact h
  · refine .branch h (.branch h.advanceUp.galOff.galEvt.ascentFail ?_)
    split
    · exact h.advanceUp.galOff.galEvt.when (·.swapTimeout)
    · exact h.advanceUp.galOff.galEvt

theorem mbxRowBody {t : State} {code : Nat} {pay : Bytes} (h : s.RegsCanon) : ((t.mbxRow code).body s pay).Canon := by
  unfold State.mbxRow
  split
  · exact .now h
  · exact h.imgBegin
  · exact h.imgData
  · exact h.imgEnd
  · exact h.imgArm
  · exact h.imgDisarm
  · exact h.imgConfirm
  · exact h.imgRevert
  · exact h.setUnreadable
  · exact h.settingsRead
  · exact h.settingsWrite
  · exact h.getChallenge
  · exact h.lcProvision
  · exact h.lcField
  · exact h.lcReturn
  · exact h.lcScrap
  · exact h.keyProgram
  · exact h.keyRevoke
  · exact h.debugUnlock
  · exact .now h
theorem mbxRun {code : Nat} {may fmt : Bool} {nvm : Option Word} {pay : Bytes} (h : s.RegsCanon) :
    (s.mbxRun code may fmt nvm pay).Canon := by
  refine .ite (.now h) (.ite (.now h) ?_)
  split
  · exact .ite (.now h.raise) h.mbxRowBody
  · exact h.mbxRowBody

theorem mbxCore {x : CoreReq} (h : s.RegsCanon) : (s.mbxCore x).RegsCanon :=
  h.whenNot (fun hq => hq.mbxRun.next _ h.mbxRun.s.mbxToCore)
theorem mbxWaiting (h : s.RegsCanon) : s.mbxWaiting.RegsCanon := h.upd.foldS (fun _ _ h1 => h1.mbxCore)

theorem mbx {m : Mbx} {code : Nat} (h : s.RegsCanon) : (s.mbx m code).RegsCanon := by
  refine .branch h ?_
  split
  · exact h.when (fun hq => (hq.mbxRun.next _ h.mbxRun.s.mbxRespond).mbxWaiting)
  · exact branch (h.whenNot (·.upd)) h.mbxCore

/-! #### Self-test and repair (Machine/Bist) -/

theorem showFail (h : s.RegsCanon) : s.showFail.RegsCanon := h.wr64.wr
theorem failPush {r : Nat} (h : s.RegsCanon) : (s.failPush r).RegsCanon := branch h.satInc h.upd.showFail
theorem failPop (h : s.RegsCanon) : s.failPop.RegsCanon := h.upd.showFail
theorem showHbm (h : s.RegsCanon) : s.showHbm.RegsCanon := h.wr64
theorem hbmPush {kind : Nat} {x : HbmFail} (h : s.RegsCanon) : (s.hbmPush kind x).RegsCanon := h.whenNot (·.upd.showHbm)
theorem hbmPop (h : s.RegsCanon) : s.hbmPop.RegsCanon := h.upd.showHbm

theorem repair {t : TestRes} {fuse : Bool} (h : s.RegsCanon) : (s.repair t fuse).RegsCanon := by
  refine h.foldS (fun _ _ h1 => ?_)
  split
  · exact h1
  · exact branch h1.upd h1.upd

theorem mapRepair {t : TestRes} {g : Nat} (h : s.RegsCanon) : (s.mapRepair t g).RegsCanon :=
  branch ((h.when (·.wr)).wr.wr) (h.when (fun hq => hq.when (·.wr)))
theorem lbistStore {t : TestRes} {parts : List Nat} (h : s.RegsCanon) : (s.lbistStore t parts).RegsCanon :=
  h.foldS (fun _ _ h1 => h1.wr.wr.wr)
theorem lbistKeeper (h : s.RegsCanon) : s.lbistKeeper.RegsCanon := h.wr.wr.wr
theorem failWords {t : TestRes} {src : Nat} {fuse : Bool} (h : s.RegsCanon) : (s.failWords t src fuse).RegsCanon :=
  h.foldS (fun _ _ h1 => h1.failPush)

theorem devRestore (h : s.RegsCanon) : s.devRestore.RegsCanon := by
  refine .showFail (.upd ?_)
  split
  · exact .wr64 (h.wrr.foldS (fun _ _ h2 => h2.wrr))
  · exact h.wrr.foldS (fun _ _ h2 => h2.wrr)

theorem bistStart (h : s.RegsCanon) : s.bistStart.RegsCanon := h.upd.devRestore.wr
theorem bistDone {e0 : StepEnv} (h : s.RegsCanon) : (s.bistDone e0).1.RegsCanon :=
  .branch_fst h.wr (.wr (.repair (h.wr.wr.lbistStore.wr.wr.wr.failWords.foldS (fun _ _ h6 => h6.mapRepair))))
theorem hbmRow {x : HbmFail} (h : s.RegsCanon) : (s.hbmRow x).RegsCanon :=
  branch h.satInc.hbmPush.raise (branch h.wr.hbmPush.raise h.hbmPush)
theorem hbmDone {e0 : StepEnv} (h : s.RegsCanon) : (s.hbmDone e0).1.RegsCanon :=
  .wr (.upd (.foldl_fst (h.foldS (fun _ _ h1 => h1.wr.wr)) (fun _ _ h3 => h3.hbmRow)))
theorem hbmCopy {x : HbmFail} (h : s.RegsCanon) : (s.hbmCopy x).RegsCanon := h.upd.whenNot (·.wr.cnt.hbmPush.raise)
theorem rowNote {x : HbmFail} (h : s.RegsCanon) : (s.rowNote x).RegsCanon := h.upd.whenNot (·.upd)
theorem hbmError {x : HbmFail} {ue : Bool} (h : s.RegsCanon) : (s.hbmError x ue).RegsCanon :=
  .branch h (have h1 := h.cnt.cnt; branch h1.uncorrected.hbmCopy (h1.rowNote.when (·.hbmCopy)))

theorem cntSaturate {c : CntRef} (h : s.RegsCanon) : (s.cntSaturate c).RegsCanon := by
  unfold State.cntSaturate
  dsimp only
  split
  · exact h.upd
  · exact h.whenNot (·.upd)
  · exact h.upd
  · exact h.upd
  · exact h.upd

theorem eccEffect {k : EccKind} (h : s.RegsCanon) : (s.eccEffect k).RegsCanon := by
  unfold State.eccEffect
  split
  · exact h
  · split
    · exact h.frameSet.cnt
    · exact h
  · exact h.when (·.upd.keeperCmd)
  · exact h.foldS (fun _ _ h1 => h1.cntSaturate)
  · exact h.cellsLost
  · exact h.cellsLost
  · exact h.echError

theorem hbmRemap {x : HbmFail} {ue : Option EccKind} (h : s.RegsCanon) : (s.hbmRemap x ue).RegsCanon := by
  unfold State.hbmRemap
  dsimp only
  split
  · exact h.hbmError.when (·.eccEffect)
  · exact h.hbmError

theorem eccError {mem addr : Nat} {k : EccKind} {ue : Bool} (h : s.RegsCanon) : (s.eccError mem addr k ue).RegsCanon :=
  branch h (branch h.cnt.eccLog.raise h.cnt.eccLog.raise.eccEffect)
theorem memSel {m : Nat} (h : s.RegsCanon) : (s.memSel m).RegsCanon := h.wr.wr.wr.wr.wr.wr.wr.wr.wr
theorem gtStart {g : Nat} (h : s.RegsCanon) : (s.gtStart g).RegsCanon :=
  have h2 := h.upd.wr.wr.cnt; branch h2.galDrain h2.wr.steer.wr.upd

theorem gtRequest {g : Nat} {t : Option Nat} (h : s.RegsCanon) : (s.gtRequest g t).1.RegsCanon := by
  refine .branch_fst h.wr.wr.wr ?_
  split
  · exact h.wr.wr.gtStart
  · exact h.wr.wr.upd

theorem gtWrite {v : Nat} (h : s.RegsCanon) : (s.gtWrite v).RegsCanon := h.wr.wr.when (·.gtRequest.wr)
theorem gtAuto (h : s.RegsCanon) : s.gtAuto.RegsCanon := h.whenNot (fun hq => hq.advanceUp.upd.gtRequest.whenNot (·.cnt))

theorem gtTickDue (h : s.RegsCanon) : s.gtTickDue.RegsCanon := by
  unfold State.gtTickDue
  split
  · exact h.when (·.upd.gtRequest.wr)
  · exact h

theorem gtEnd {g result : Nat} (h : s.RegsCanon) : (s.gtEnd g result).RegsCanon :=
  h.upd.wr.wr.wr.wr.wr.raise.when (·.galOff.cnt.upd)

theorem galPower {g : Nat} (h : s.RegsCanon) : (s.galPower g).RegsCanon :=
  .foldS (s := State.mk ..) (mwf_filter _ _ h) fun _ _ h => by
    split
    · exact h.wrw
    · exact h

theorem gtRepair {t : Gtest} (h : s.RegsCanon) : (s.gtRepair t).RegsCanon := branch h.gtEnd h.mapRepair.repair.upd

theorem gtStep {e0 : TestRes} (h : s.RegsCanon) : (s.gtStep e0).RegsCanon := by
  unfold State.gtStep
  split
  · exact h
  · dsimp only
    split
    · exact h.drainEnd
    · exact h.lbistStore.upd
    · exact h.failWords.upd
    · exact h.gtRepair
    · exact have h1 := h.galOff.galPower.loadGal.echAfterTest; branch h1.upd h1.gtEnd
    · exact branch h.gtEnd (h.when (·.gtEnd))

theorem probeFail {b : Bool} (h : s.RegsCanon) : (s.probeFail b).RegsCanon := h.upd
theorem probeNext {n : Nat} (h : s.RegsCanon) : (s.probeNext n).RegsCanon := h.upd
theorem probeEnd (h : s.RegsCanon) : s.probeEnd.RegsCanon := h.wr.wr.upd.startAscent.modResult
theorem hbmFound {x : HbmFail} (h : s.RegsCanon) : (s.hbmFound x).RegsCanon := h.upd.hbmPush

theorem probeStep {e0 : ProbeEnv} (h : s.RegsCanon) : (s.probeStep e0).RegsCanon := by
  refine .branch h ?_
  dsimp only
  split
  · exact h.wrr.lbistStore.upd.probeFail.wr.probeNext
  · exact (h.upd.failWords.wr.when (·.repair)).probeFail.probeNext
  · exact .probeNext (.probeFail (h.foldS (fun _ _ h3 => h3.hbmFound)))
  · exact .probeNext (h.when (fun hq => .probeFail (.wr (hq.foldS (fun _ _ h4 => h4.wrr)))))
  · exact h.probeEnd

/-! #### Engine performance counters (Machine/Pmc) -/

theorem pmcFifoSet {g : Nat} {l : List Nat} (h : s.RegsCanon) : (s.pmcFifoSet g l).RegsCanon := h.upd.wr64.wr
theorem pmcFree {g j : Nat} (h : s.RegsCanon) : (s.pmcFree g j).RegsCanon := h.when (·.upd.wr64)
theorem pmcSetRun {g run : Nat} (h : s.RegsCanon) :
    (s.pmcSetRun g run).RegsCanon := .wr (h.foldS (fun _ _ h1 => h1.pmcFree))
theorem pmcSel {g j v : Nat} (h : s.RegsCanon) : (s.pmcSel g j v).RegsCanon := h.pmcFree.wrr
theorem pmcRun {g : Nat} {run atTick : Bool} (h : s.RegsCanon) : (s.pmcRun g run atTick).RegsCanon :=
  branch h.wr.upd h.wr.pmcSetRun.upd

theorem pmcRunDue {g : Nat} (h : s.RegsCanon) : (s.pmcRunDue g).RegsCanon := by
  unfold State.pmcRunDue
  split
  · exact h.when (·.pmcSetRun.upd)
  · exact h

theorem pmcSample {g e0 c t idx : Nat} (h : s.RegsCanon) : (s.pmcSample g e0 c t idx).RegsCanon :=
  .branch (have h1 := branch h.upd h.wr64; branch h1.satInc (h1.pmcFifoSet.when (·.raise))) h
theorem pmcPop {g : Nat} (h : s.RegsCanon) : (s.pmcPop g).RegsCanon := h.pmcFifoSet

/-! #### BAR0 (Machine/Bar0) -/

theorem levelRose {old : State} {src : Nat} (h' : s.RegsCanon) : (old.levelRose s src).RegsCanon := h'.when (·.raise)
theorem barError {kind a : Nat} {write : Bool} (h : s.RegsCanon) : (s.barError kind a write).RegsCanon :=
  h.cnt.whenNot (·.wr64)
theorem barBusyLog {a : Nat} {write : Bool} (h : s.RegsCanon) : (s.barBusyLog a write).RegsCanon := h.cnt.whenNot (·.wr64)
theorem dbgPut {g v : Nat} (h : s.RegsCanon) : (s.dbgPut g v).RegsCanon := branch h (branch h.thrUpd h.rgSet)
theorem freeCount {a : Nat} (h : s.RegsCanon) : (s.freeCount a).RegsCanon := h.upd.cnt
theorem showUtil {h0 : Nat} (h : s.RegsCanon) : (s.showUtil h0).RegsCanon := h.whenNot (·.upd.wr.upd)

theorem refresh {name : String} {ix : List Nat} {a : Nat} (h : s.RegsCanon) : (s.refresh name ix a).RegsCanon := by
  unfold State.refresh
  dsimp only
  split
  · exact h.when (·.wrTime)
  · exact h.wr
  · exact h.wr.wr
  · exact h.wr
  · exact h.wr.wr
  · exact h.wrw
  · exact h.when (·.wr64)
  · exact h.when (·.pmcFree)
  · exact (h.when (·.pmcFree)).wrw
  · exact h.wr
  · exact h.upd.wrw.wr
  · exact h.showUtil
  · exact h.when (·.freeCount)
  · exact h.when (·.freeCount)
  · exact h.when (·.freeCount)
  · exact h

theorem rcClear {a : Nat} (h : s.RegsCanon) : (s.rcClear a).RegsCanon := h.wrw

theorem popped {name : String} {ix : List Nat} {a : Nat} (h : s.RegsCanon) : (s.popped name ix a).RegsCanon := by
  unfold State.popped
  dsimp only
  split
  · exact h.when (·.tsfPop)
  · exact h.when (·.failPop)
  · exact h.when (·.hbmPop)
  · exact h.when (·.pmcPop)
  · exact h.when (·.wr)
  · exact h

theorem regRead {a : Nat} (h : s.RegsCanon) : (s.regRead a).1.RegsCanon := by
  unfold State.regRead
  split
  · exact h
  · refine .branch_fst h ?_
    dsimp only
    split
    · exact h.refresh.rcClear.popped
    · exact (h.refresh.upd.rcClear.rcClear.when (·.wr64)).popped
    · split
      · exact h.refresh.upd
      · exact h.refresh

theorem writeBlocked {name : String} (h : s.RegsCanon) : OptCanon (s.writeBlocked name) := by
  unfold State.writeBlocked
  dsimp only
  split
  · exact .ite (.some h.wr) .none
  · exact .ite (.some h.wr) .none
  · exact .ite (.some h.wr) .none
  · exact .ite (.some h.wr) .none
  · exact .ite (.some h.wr) .none
  · exact .ite (.some h.wr) .none
  · exact .ite (.some h.wr) .none
  · exact .ite (.some h.wr) .none
  · exact .ite (.some h.wr) .none
  · exact .ite (.some h.wr) .none
  · exact .ite (.some h.wr) .none
  · exact .ite (.some h.wr) .none
  · exact .ite (.some h.wr) .none
  · exact .ite (.some h.wr) .none
  · exact .ite (.some h.wr) .none
  · exact .ite (.some h.wr) .none
  · exact .ite (.some h.wr) .none
  · exact .ite (.some h.wr) .none
  · exact .ite (.some h.wr) .none
  · exact .none

theorem mbxGo (h : s.RegsCanon) : s.mbxGo.RegsCanon := h.whenNot (·.wr.wr.mbxUnknown)
theorem ringWritten {i : Nat} {en : Bool} (h : s.RegsCanon) : (s.ringWritten i en).RegsCanon :=
  branch h.ringEnable h.ringDisable
theorem digestBegun {old : State} {i : Nat} (h' : s.RegsCanon) : (old.digestBegun s i).RegsCanon := h'.when (·.upd)
theorem unmasked {v : Nat} (h : s.RegsCanon) : (s.unmasked v).RegsCanon :=
  branch (branch h.setPba.deferMsg h.setPba.sendMsg) h
theorem reserve {a users : Nat} {f : Fld} {w : Word} (h : s.RegsCanon) : (s.reserve a users f w).RegsCanon :=
  h.resvChange (fun _ h1 => h1.wrw)

theorem unitWrite {name : String} {ix : List Nat} {a : Nat} {v : Word} (h : s.RegsCanon) :
    OptCanon (s.unitWrite name ix a v) := by
  unfold State.unitWrite
  dsimp only
  split
  · exact .some h.cadEn
  · exact .some h.shpSettle.cadPeriod
  · exact .some h.cadPhase
  · exact .some h.modCmd
  · exact .some (h.when (·.mbxGo))
  · exact .some h.pmSel
  · exact .some h.sojSel
  · exact .some h.pmcSel
  · exact .some h.pmcRun
  · exact .some (h.foldS (fun _ _ h1 => h1.raise))
  · exact .some h.gtWrite
  · exact .ite (.some h.memSel) .none
  · exact .ite (.some h.reserve) .none
  · exact .ite (.some h.reserve) .none
  · exact .some h.reserve
  · exact .ite (.some h.reserve) .none
  · exact .none

theorem written {old : State} {name : String} {ix : List Nat} {a : Nat} {v : Word} {e0 : AclEnv} (h' :
    s.RegsCanon) : (old.written s name ix a v e0).RegsCanon := by
  unfold State.written
  dsimp only
  split
  · exact h'.refsWritten
  · exact h'.refsWritten
  · exact h'.when (·.timeSetGo)
  · exact h'.adjFreqWritten
  · exact h'.phaseCorrect
  · exact h'.bypCtrlWritten.bypCtrlWritten
  · exact h'.adminWritten
  · exact h'.credits
  · exact h'.credits
  · exact h'.showPaused
  · exact h'.when (·.ifUp)
  · exact h'.pcSet
  · exact h'.levelRose
  · exact h'.levelRose
  · exact h'.when (·.tsiGo)
  · exact h'.whenNot (·.clsCmd)
  · exact h'.whenNot (·.aclCmd)
  · exact branch h' (branch h'.queWrite h'.schCmd)
  · exact h'.whenNot (·.schCmd)
  · exact h'.whenNot (·.shpCmd)
  · exact h'.whenNot (·.gatCmd)
  · exact h'.whenNot (·.svyCmd)
  · exact h'.upd
  · exact h'.upd
  · exact (h'.when (·.patLoad)).when (·.patSwap)
  · exact h'.levelRose
  · exact h'.levelRose
  · exact h'.whenNot (·.dbgOp)
  · exact h'.dbgPut
  · exact h'.levelRose
  · exact h'.levelRose
  · exact h'.levelRose
  · exact h'.levelRose
  · exact h'.levelRose
  · exact h'.levelRose
  · exact h'.levelRose
  · exact h'.levelRose
  · exact h'.fabShow
  · exact h'.levelRose
  · exact h'.levelRose
  · exact h'.levelRose
  · exact h'.levelRose
  · exact h'.levelRose
  · exact h'.levelRose
  · exact branch h'.wr.ringWritten.digestBegun (branch h'.digestPump (h'.when (·.rspPump)))
  · exact h'.when (·.unmasked)
  · exact h'.foldS (fun _ _ h2 => h2.when (·.raise))
  · exact h'.foldS (fun _ _ h3 => h3.when (·.trigger))
  · exact h'

theorem wordWrite {r : RegRow} {ix : List Nat} {a : Nat} {v : Word} {e0 : AclEnv} (h : s.RegsCanon) :
    (s.wordWrite r ix a v e0).RegsCanon := by
  unfold State.wordWrite
  split
  · next e1 => exact h.unitWrite _ e1
  · exact h.wrw.written

theorem pairWrite {r : RegRow} {ix : List Nat} {a : Nat} {v : Word} {e0 : AclEnv} (h : s.RegsCanon) :
    (s.pairWrite r ix a v e0).RegsCanon := by
  refine .written (.wrw ?_)
  split
  · dsimp only
    split
    · exact h.upd.wrw
    · exact h.upd
  · split
    · exact h.refresh
    · exact h

theorem regWrite {a : Nat} {v : Word} {e0 : AclEnv} (h : s.RegsCanon) : (s.regWrite a v e0).RegsCanon := by
  unfold State.regWrite
  split
  · exact h
  · refine .branch h ?_
    split
    · next e1 => exact h.writeBlocked _ e1
    · split
      · exact h.wordWrite
      · exact h.upd
      · exact h.pairWrite

theorem bar0Get {a : Nat} (h : s.RegsCanon) : (s.bar0Get a).1.RegsCanon :=
  branch_fst h.barError (branch_fst h.barError (branch_fst h.barBusyLog (branch_fst h.barError h.regRead)))
theorem bar0Read {a : Nat} (h : s.RegsCanon) : (s.bar0Read a).RegsCanon := branch h (branch h.barError.emit h.bar0Get.emit)
theorem bar0Write {a : Nat} {v : Word} {e0 : AclEnv} (h : s.RegsCanon) : (s.bar0Write a v e0).RegsCanon :=
  branch h (branch h.barError.emit (branch h.barError (branch h.barBusyLog (branch h.barError h.regWrite))))

theorem bar0Access {a : Nat} {w : Option Word} (h : s.RegsCanon) : (s.bar0Access a w).RegsCanon := by
  unfold State.bar0Access
  split
  · exact h.bar0Write
  · exact h.bar0Read

theorem bar0Bad {a : Nat} {write : Bool} (h : s.RegsCanon) : (s.bar0Bad a write).RegsCanon := h.whenNot (·.barError.emit)
theorem indWrite {r : Reg} {v : Word} {hi op : Nat} {e0 : AclEnv} (h : s.RegsCanon) : (s.indWrite r v hi op e0).RegsCanon :=
  h.bar0Write
theorem dbgWrite {c : ThrId} {op : Nat} (h : s.RegsCanon) : (s.dbgWrite c op).RegsCanon := h.bar0Write

/-! #### Packet (Machine/EngPkt) -/

theorem execTime {d : Iss} {rd : GReg} {idx : BitVec 8} (h : s.RegsCanon) : OutCanon (execTime d rd idx s) := by
  refine .next (h.eng (fun _ h1 => ?_))
  split
  · exact h1.gput
  · exact h1

theorem execReservedOpcode {d : Iss} {w : Word} (h : s.RegsCanon) : OutCanon (Machine.execReservedOpcode d w s) := by
  unfold Machine.execReservedOpcode
  split
  · exact .fault
  · exact .next (h.eng fun _ h => branch_fst (branch_fst h (branch_fst h.requestDone h.requestDone)) h)

/-! #### The PCIe function (Machine/Host17) -/

theorem funcReset (h : s.RegsCanon) : s.funcReset.RegsCanon :=
  h.whenNot fun h => .foldS (s := State.mk ..) (mwf_filter _ _ h) fun _ _ h => h.when (·.raise)
theorem d3Enter (h : s.RegsCanon) : s.d3Enter.RegsCanon := h.whenNot (·.upd)
theorem sendDue (h : s.RegsCanon) : s.sendDue.RegsCanon := h.foldS (fun _ _ h1 => branch (branch h1.sendMsg h1.setPba) h1)
theorem d0Return (h : s.RegsCanon) : s.d0Return.RegsCanon := h.whenNot (·.upd.sendDue.digestPump.rspPump)

theorem holdoffEnds {v : Nat} (h : s.RegsCanon) : (s.holdoffEnds v).RegsCanon := by
  refine .branch h (.branch (.sendMsg ?_) (.upd (.setPba ?_)))
  all_goals
    split
    · exact h.advanceUp
    · exact h

theorem unmask {u : Unmask} (h : s.RegsCanon) : (s.unmask u).RegsCanon := by
  refine .branch h ?_
  split
  · exact h.wr.unmasked
  · exact h.upd.foldS (fun _ _ h1 => h1.unmasked)
  · exact h.upd.foldS (fun _ _ h2 => h2.unmasked)

theorem bar2Read {o n : Nat} {ecc : Bool} (h : s.RegsCanon) : (s.bar2Read o n ecc).RegsCanon :=
  branch h ((branch_snd h.tRead h.openBytes).emit.when (·.cnt.hstEvt))
theorem bar2Write {o : Nat} {b : Bytes} (h : s.RegsCanon) : (s.bar2Write o b).RegsCanon :=
  branch h (branch h (branch (h.when (·.tPut)) h.cnt.hstEvt))
theorem injBad {i : Nat} (h : s.RegsCanon) : (s.injBad i).RegsCanon := h.cnt.hstEvt
theorem injFrame {x : Inj} {f : Bytes} {e1 e2 : PassEnv} (h : s.RegsCanon) : (s.injFrame x f e1 e2).RegsCanon :=
  branch h.sendDirect (branch (branch h.egEnter h.cnt) h.pipeline)

theorem inject {r : Nat} {b : Bytes} {e1 e2 : PassEnv} (h : s.RegsCanon) : (s.inject r b e1 e2).RegsCanon := by
  rw [show @State.inject = delta% @State.inject from rfl]
  obtain ⟨lenOk, hok⟩ := exists_eq (a' := State.injLenOk)
  rw [← hok]
  refine branch h (setCons (branch ?_ (branch (injFrame (cnt ?_)) (injBad ?_))))
  all_goals exact branch_snd h.upd h.upd.upd

theorem eventFrame {n : Nat} (h : s.RegsCanon) : (s.eventFrame n).RegsCanon := h.whenNot (·.upd.sendDirect.upd)
theorem cmdInfo {h0 : CmdHdr} (h : s.RegsCanon) : (s.cmdInfo h0).RegsCanon := h.serve (fun _ h1 => h1.respond)
theorem cmdPing {h0 : CmdHdr} {args : Bytes} (h : s.RegsCanon) : (s.cmdPing h0 args).RegsCanon :=
  h.serve (fun _ h1 => h1.respond)

theorem readWords {a m : Nat} (h : s.RegsCanon) : (s.readWords a m).1.RegsCanon := by
  induction m generalizing s a with
  | zero => exact h
  | succ _ ih => exact ih h.bar0Get

theorem cmdRegRead {h0 : CmdHdr} {o n : Nat} (h : s.RegsCanon) : (s.cmdRegRead h0 o n).RegsCanon := by
  refine h.serve (fun _ h1 => ?_)
  split
  · exact h1.answer
  · exact h1.readWords.respond

theorem writeWords {a : Nat} {m : List Word} (h : s.RegsCanon) : (s.writeWords a m).RegsCanon := by
  induction m generalizing s a with
  | nil => exact h
  | cons _ _ ih => exact ih h.bar0Write

theorem cmdRegWrite {h0 : CmdHdr} {o : Nat} {ws : List Word} (h : s.RegsCanon) : (s.cmdRegWrite h0 o ws).RegsCanon := by
  refine h.serve (fun _ h1 => ?_)
  split
  · exact h1.answer
  · exact branch h1.writeWords.answer h1.answer

theorem cmdConfirm {h0 : CmdHdr} {nvm : Bool} (h : s.RegsCanon) : (s.cmdConfirm h0 nvm).RegsCanon :=
  h.serve (fun _ h1 => branch h1.raise.answer h1.imgConfirm.s.answer)

theorem cmdTime {c : CmdHdr} (h : s.RegsCanon) : (s.cmdTime c).RegsCanon := by
  rw [show @State.cmdTime = delta% @State.cmdTime from rfl]
  obtain ⟨read, hread, hkeep⟩ : ∃ f, f = State.regRead ∧ ∀ t a, t.RegsCanon → (f t a).1.RegsCanon :=
    ⟨_, rfl, fun _ _ h => h.regRead⟩
  rw [← hread]
  exact h.serve fun _ h => (hkeep _ _ h).respond

theorem cmdServo {h0 : CmdHdr} {op : Nat} (h : s.RegsCanon) : (s.cmdServo h0 op).RegsCanon :=
  h.whenNot (fun hq => hq.serve (fun _ h1 => h1.upd.answer))
theorem cmdUnknown {h0 : CmdHdr} {op : Nat} (h : s.RegsCanon) : (s.cmdUnknown h0 op).RegsCanon := h.whenNot (·.take.answer)

theorem i2cWord {p : Nat} (h : s.RegsCanon) : (s.i2cWord p).2.RegsCanon :=
  branch_snd h (branch_snd h (branch_snd h (branch_snd h (branch_snd h
    (branch_snd h (branch_snd h (branch_snd h.upd (branch_snd h.refresh h))))))))

theorem i2cGet {m : Nat} (h : s.RegsCanon) : (s.i2cGet m).2.RegsCanon := by
  induction m generalizing s with
  | zero => exact h
  | succ _ ih => exact ih h.i2cWord.upd

theorem i2cRead {n : Nat} (h : s.RegsCanon) : (s.i2cRead n).RegsCanon := h.whenNot (·.i2cGet.emit)
theorem i2cRecovery {cmd : Nat} (h : s.RegsCanon) : (s.i2cRecovery cmd).RegsCanon :=
  branch h (branch h.upd.modCmd h.upd.emit)
theorem tapLoad {i : TapInstr} (h : s.RegsCanon) : (s.tapLoad i).RegsCanon := h.upd.when (·.emit)

/-! #### The commit engine (Machine/TableCmd) -/

theorem emLine {i : Nat} (h : s.RegsCanon) : (s.emLine i).RegsCanon := h.foldS (fun _ _ h1 => h1.upd)
theorem emPut {i : Nat} {e0 : EmEnt} (h : s.RegsCanon) : (s.emPut i e0).RegsCanon := h.emWrite.emLine

theorem moveAlong {l : List Nat} (h : s.RegsCanon) : (s.moveAlong l).RegsCanon := by
  induction l generalizing s with
  | nil => exact h
  | cons _ l ih =>
    cases l with
    | nil => exact h
    | cons _ _ =>
      unfold State.moveAlong
      exact ih h.emPut.emShadowSet.emFree.emLine

theorem makeRoom {k sl key : Nat} (h : s.RegsCanon) : OptFstCanon (s.makeRoom k sl key) := by
  unfold State.makeRoom
  dsimp only
  split
  · exact .some h
  · split
    · exact .none
    · exact .some h.moveAlong.upd

theorem emMarkDel {i gen : Nat} (h : s.RegsCanon) : (s.emMarkDel i gen).RegsCanon :=
  branch h.emFree.emLine (branch h.emShadowSet.emLine h.emPut)

theorem stageEm {o : BOp} {gen : Nat} (h : s.RegsCanon) : (s.stageEm o gen).1.RegsCanon := by
  refine .branch_fst h (.branch_fst h ?_)
  dsimp only
  split
  · exact h
  · split
    · exact h
    · next e1 => exact (h.makeRoom _ e1).emPut
  · exact h.emMarkDel
  · split
    · exact h
    · exact h.emPut.emMarkDel
  · exact h

theorem delRoute {r : Route} {gen : Nat} (h : s.RegsCanon) : (s.delRoute r gen).RegsCanon := by
  refine .upd ?_
  split
  · exact h.lpmLine
  · exact h

theorem addRoute {r : Route} (h : s.RegsCanon) : (s.addRoute r).1.RegsCanon := by
  unfold State.addRoute
  split
  next e => exact (h.lpmPlace.of_fst e).refall

theorem stageLpm {o : BOp} {gen : Nat} (h : s.RegsCanon) : (s.stageLpm o gen).1.RegsCanon := by
  unfold State.stageLpm
  refine branch_fst h ?_
  split
  dsimp only
  split
  · exact h
  · exact branch_fst h.addRoute (branch_fst h.upd h.upd.addRoute)
  · exact h.delRoute.refall
  · exact branch_fst h h.delRoute.addRoute
  · exact h

theorem stageOp {o : BOp} {gen : Nat} (h : s.RegsCanon) : (s.stageOp o gen).1.RegsCanon :=
  branch_fst h.stageLpm (branch_fst h.stageEm h)
theorem stageBatch {ops : List BOp} {gen : Nat} (h : s.RegsCanon) : (s.stageBatch ops gen).1.RegsCanon :=
  h.foldl_fst (fun _ _ h1 => h1.stageOp)
theorem mapGens {f : Nat → Nat} (h : s.RegsCanon) : (s.mapGens f).RegsCanon :=
  .upd (h.foldS (fun _ _ h1 => h1.when (·.emWrite)))
theorem renumber {x : Nat} (h : s.RegsCanon) : (s.renumber x).RegsCanon := h.whenNot (·.mapGens)
theorem governEm {g : Nat} (h : s.RegsCanon) : (s.governEm g).RegsCanon :=
  h.foldS (fun _ _ h1 => (h1.when (·.emShadowSet)).foldS (fun _ _ h3 => h3.emMarkDel))
theorem governLpm {g : Nat} (h : s.RegsCanon) : (s.governLpm g).RegsCanon :=
  .foldS (h.foldS (fun _ _ h1 => (h1.when (·.upd)).foldS (fun _ _ h3 => h3.delRoute))) (fun _ _ h5 => h5.refallOne)
theorem commitGen {x n : Nat} (h : s.RegsCanon) : (s.commitGen x n).RegsCanon := h.renumber.governEm.governLpm.wr.wr64.upd

theorem settleGen {g : Nat} (h : s.RegsCanon) : (s.settleGen g).RegsCanon := by
  refine .refallAll (.upd (h.foldS (fun _ _ h1 => .branch ?_ (h1.when (·.emFree)))))
  split
  · exact h1.emWrite.emShadowSet
  · exact h1.emWrite

theorem settle (h : s.RegsCanon) : s.settle.RegsCanon := by
  unfold State.settle
  split
  · exact h
  · exact h.advanceTo.settleGen.upd

theorem batchUpd {id : Nat} {f : Batch → Option Batch} (h : s.RegsCanon) : (s.batchUpd id f).RegsCanon := h.upd
theorem showCommit (h : s.RegsCanon) : s.showCommit.RegsCanon := h.wr.wr
theorem submit {b : Batch} {c : Nat} {h0 : CmdHdr} (h : s.RegsCanon) : (s.submit b c h0).1.RegsCanon := h.upd.showCommit
theorem dropGen {g : Nat} (h : s.RegsCanon) : (s.dropGen g).RegsCanon := by unfold State.dropGen; exact h.upd.mapGens
theorem abortBatch {b : Batch} {failed : List (Nat × Nat)} (h : s.RegsCanon) : (s.abortBatch b failed).RegsCanon :=
  h.batchUpd.dropGen.raise.respond.showCommit
theorem stealSlots {n : Nat} (h : s.RegsCanon) : (s.stealSlots n).RegsCanon :=
  h.whenNot (fun hq => hq.foldS (fun _ _ h1 => h1.cnt))
theorem entDo {n : Nat} {o : EntOp} (h : s.RegsCanon) : (s.entDo n o).RegsCanon :=
  (branch h (branch h.entDrain.stealSlots h.twPut.stealSlots)).respond
theorem entsTick {n : Nat} (h : s.RegsCanon) : (s.entsTick n).RegsCanon := h.upd.foldS (fun _ _ h1 => h1.entDo)

theorem stageDue {n : Nat} (h : s.RegsCanon) : (s.stageDue n).RegsCanon := by
  unfold State.stageDue
  split
  · exact h
  · exact branch h.abortBatch h.stageBatch.batchUpd

theorem stageSingles {n budget m : Nat} (h : s.RegsCanon) : (s.stageSingles n budget m).RegsCanon := by
  induction m generalizing s budget with
  | zero => exact h
  | succ _ ih =>
    unfold State.stageSingles
    split
    · exact h
    · exact branch h (branch (ih h.stageOp.stealSlots.upd) (ih (h.upd.dropGen.when (·.respond))))

theorem markDue {n : Nat} (h : s.RegsCanon) : (s.markDue n).RegsCanon := h.upd
theorem stagingTick {n : Nat} (h : s.RegsCanon) : (s.stagingTick n).RegsCanon :=
  (h.markDue.entsTick.stageDue.stealSlots.stageSingles.when (·.overrun)).showCommit

theorem batchCommit {id : Nat} (h : s.RegsCanon) : (s.batchCommit id).RegsCanon := by
  refine .branch h ?_
  split
  · exact h
  · split
    · exact h
    · exact (h.batchUpd.commitGen.raise.when (·.raise)).respond.showCommit

theorem singleCommit (h : s.RegsCanon) : s.singleCommit.RegsCanon := by
  refine .branch h ?_
  split
  · exact h
  · exact (h.upd.commitGen.when (·.raise)).when (·.respond)

theorem acceptSingle {o : BOp} {h0 : CmdHdr} {opc : Nat} {ans : Bool} (h : s.RegsCanon) :
    (s.acceptSingle o h0 opc ans).RegsCanon :=
  h.upd

theorem intoBatch {a : TblArgs} {o : BOp} {h0 : CmdHdr} {opc : Nat} (h : s.RegsCanon) :
    (s.intoBatch a o h0 opc).RegsCanon := by
  unfold State.intoBatch
  split
  · exact h.answer
  · exact branch h.answer (branch h.answer h.batchUpd.answer)

theorem contentCmd {a : TblArgs} {kind : OpKind} {h0 : CmdHdr} {opc : Nat} (h : s.RegsCanon) :
    (s.contentCmd a kind h0 opc).RegsCanon :=
  branch h.answer (branch (branch h.acceptSingle h.answer) h.intoBatch)

theorem acceptEnt {k : EntKind} {a : TblArgs} {h0 : CmdHdr} {opc : Nat} (h : s.RegsCanon) :
    (s.acceptEnt k a h0 opc).RegsCanon :=
  h.upd

theorem entWrite {ok : Bool} {a : TblArgs} {h0 : CmdHdr} {opc : Nat} (h : s.RegsCanon) :
    (s.entWrite ok a h0 opc).RegsCanon :=
  branch h.answer h.acceptEnt

theorem entModify {a : TblArgs} {h0 : CmdHdr} {opc : Nat} (h : s.RegsCanon) : (s.entModify a h0 opc).RegsCanon :=
  branch h.answer h.acceptEnt

theorem entDelete {adj : Bool} {a : TblArgs} {h0 : CmdHdr} {opc : Nat} (h : s.RegsCanon) :
    (s.entDelete adj a h0 opc).RegsCanon :=
  branch h.answer h.acceptEnt

theorem searchCmd {a : TblArgs} {c : CmdHdr} {opc : Nat} (h : s.RegsCanon) : (s.searchCmd a c opc).RegsCanon := by
  refine .branch (.branch h.answer ?_) (.branch (.branch h.answer ?_)
      (branch (branch h.answer (branch h.answer h.respond)) h.answer))
  · split
    · exact h.respond
    · exact h.answer
  · split
    split
    · exact h.respond
    · exact h.answer

theorem nextCmd {a : TblArgs} {c : CmdHdr} {opc : Nat} (h : s.RegsCanon) : (s.nextCmd a c opc).RegsCanon := by
  rw [show @State.nextCmd = delta% @State.nextCmd from rfl]
  refine .branch h.answer (.branch h.answer (.branch h.answer ?_))
  extract_lets cur m t moved _ _ _ got u cur'
  have ht : t.RegsCanon := h.when (·.upd)
  have hu : u.RegsCanon := ht.when (·.foldS fun _ _ h => h.emWrite)
  clear_value t moved u cur'
  split
  · split
    next e =>
      refine (of_fst ?_ e).respond
      split
      · exact ht.upd
      · exact ht
  · exact hu.respond

theorem flushCmd {a : TblArgs} {h0 : CmdHdr} {opc : Nat} (h : s.RegsCanon) : (s.flushCmd a h0 opc).RegsCanon :=
  .branch h.answer (.branch h.answer (.respond (h.foldS (fun _ _ h1 => h1.acceptSingle))))

theorem batchOpen {a : TblArgs} {h0 : CmdHdr} {opc : Nat} (h : s.RegsCanon) : (s.batchOpen a h0 opc).RegsCanon := by
  unfold State.batchOpen
  split
  · exact h.answer
  · exact h.upd.respond

theorem batchSubmit {a : TblArgs} {h0 : CmdHdr} {opc : Nat} (h : s.RegsCanon) : (s.batchSubmit a h0 opc).RegsCanon := by
  unfold State.batchSubmit
  split
  · exact h.answer
  · exact branch h.answer (branch h.answer h.upd.showCommit.respond)

theorem batchAbort {a : TblArgs} {h0 : CmdHdr} {opc : Nat} (h : s.RegsCanon) : (s.batchAbort a h0 opc).RegsCanon := by
  unfold State.batchAbort
  split
  · exact h.answer
  · exact branch h.answer ((h.batchUpd.when (·.dropGen.answer)).answer.showCommit)

/-! #### A tick (Machine/Tick) -/

theorem closeInterval (h : s.RegsCanon) : s.closeInterval.RegsCanon := by
  unfold State.closeInterval
  dsimp only
  split
  · exact h.upd
  · exact h.upd.digestClose

theorem learnPump {m : Nat} (h : s.RegsCanon) : (s.learnPump m).1.RegsCanon := by
  induction m generalizing s with
  | zero => exact h
  | succ _ ih =>
    refine .branch_fst h ?_
    split
    · exact h
    · split
      · exact h
      · exact ih h.learnSet.produceEntry.cnt.upd

theorem learnFlush (h : s.RegsCanon) : s.learnFlush.RegsCanon := by
  rw [show @State.learnFlush = delta% @State.learnFlush from rfl]
  beta_reduce
  extract_lets t
  have ht : t.RegsCanon := h.when (·.overrun)
  clear_value t
  split
  next e => exact ((ht.learnPump.of_fst e).whenNot (·.raise)).upd

theorem newTick (h : s.RegsCanon) : s.newTick.RegsCanon := h.upd
theorem shapersTick (h : s.RegsCanon) : s.shapersTick.RegsCanon := h.upd.shpTick.foldS (fun _ _ h1 => h1.shaperSync)
theorem runTick {n : Nat} (h : s.RegsCanon) : (s.runTick n).RegsCanon :=
  h.gateTick.shapersTick.sojTick.stagingTick.tsiTick.learnFlush.svyTick.galTicks
theorem cadTick (h : s.RegsCanon) : s.cadTick.RegsCanon :=
  .branch h (have h2 := h.closeInterval.issueTick.upd.newTick.calApply; (branch h2.runTick (h2.when (·.galTicks))).thaw)

/-! #### The PCIe function (Machine/ExecHost) -/

theorem execFunctionLevelReset {k : ResetKind} (h : s.RegsCanon) : OutCanon (execFunctionLevelReset k s) := by
  refine .next ?_
  split <;> exact h.funcReset

/-! #### ASCENT (Machine/Ascent) -/

theorem ascTime {n us : Nat} (h : s.RegsCanon) : (s.ascTime n us).RegsCanon := h.advanceUp.wr
theorem ascBegin {n : Nat} (h : s.RegsCanon) : (s.ascBegin n).RegsCanon := h.wr.upd
theorem trialRestart (h : s.RegsCanon) : s.trialRestart.RegsCanon := h.whenNot (·.bcrRevert)
theorem flashStart (h : s.RegsCanon) : s.flashStart.RegsCanon := h.emit.emit.emit.upd

theorem delriStart (h : s.RegsCanon) : OptCanon (s.delriStart) := by
  rw [show @State.delriStart = delta% @State.delriStart from rfl]
  refine .ite .none (.ite .none ?_)
  extract_lets t
  have ht : t.RegsCanon := h.trialRestart.trialAt
  clear_value t
  split
  · exact .none
  · exact .some (ht.showSecVer.wr.showBcr.showKeys.lbistKeeper.when (·.zeroise.wr))

theorem cfgWord {a : Nat} {v : Word} (h : s.RegsCanon) : (s.cfgWord a v).RegsCanon := by
  unfold State.cfgWord
  split
  · exact h
  · split
    · exact h.wr.wr
    · exact h.wrw
    · exact h.wrw
    · exact h.wrw
    · exact h.wrw
    · exact h.regWrite

theorem indForget {s0 : State} (h' : s.RegsCanon) : (s0.indForget s).RegsCanon :=
  .foldS (h'.foldS (fun _ _ h1 => h1.wrw)) (fun _ _ h3 => h3.whenNot (·.wr.upd))
theorem cfgLoad {l : List (BitVec 26 × Word)} (h : s.RegsCanon) : OptCanon (s.cfgLoad l) :=
  .ite (.some (.wr (.wr (.indForget (h.wr.foldl_fst (fun _ _ h2 => h2.cfgWord)))))) .none
theorem cfgTry {e0 : StepEnv} {k : Nat} (h : s.RegsCanon) : OptCanon (s.cfgTry e0 k) := .ite h.cfgLoad .none
theorem winAssign {l : List (BitVec 40)} (h : s.RegsCanon) : (s.winAssign l).RegsCanon := h.foldS (fun _ _ h1 => h1.galUpd)
theorem linksTrain {l : List (Fin 192)} (h : s.RegsCanon) : (s.linksTrain l).RegsCanon :=
  h.whenNot (fun hq => .fabShow (hq.foldS (fun _ _ h1 => h1.wr)))
theorem tsiLoad (h : s.RegsCanon) : s.tsiLoad.RegsCanon := h.foldS (fun _ _ h1 => h1.wrw)

theorem cfgFinish {e0 : StepEnv} {slot : Nat} (h : s.RegsCanon) : (s.cfgFinish e0 slot).RegsCanon :=
  .wr (.cadEn (.pmInit (.stepTo (.linksTrain (.tsiLoad (.shpInitAll
    (.schDiscs (.credits (.resvSet (h.showSecVer.winAssign.upd.poolsBuild.foldS (fun _ _ h4 => h4.scratchBuild)))))))))))

theorem configDone {e : StepEnv} (h : s.RegsCanon) : (s.configDone e).1.RegsCanon := by
  rw [show @State.configDone = delta% @State.configDone from rfl]
  obtain ⟨back, hback, hkeep⟩ : ∃ f, f = State.ascentBack ∧ ∀ t, t.RegsCanon → (f t).RegsCanon :=
    ⟨_, rfl, fun _ h => h.ascentBack⟩
  rw [← hback]
  beta_reduce
  extract_lets set t u
  have ht : t.RegsCanon := h.trialAt
  clear_value t set u
  refine branch_fst (hkeep t ht) ?_
  split
  · next hc => exact (ht.cfgTry _ hc).cfgFinish
  · refine branch_fst ht.revert ?_
    split
    · next hc => exact (ht.cfgTry _ hc).cfgFinish
    · exact ht.ascentFail

theorem linesStart (h : s.RegsCanon) : s.linesStart.RegsCanon :=
  h.ascBegin.framersStart.foldS (fun _ _ h1 => h1.startAttempt)
theorem tethersStart (h : s.RegsCanon) : s.tethersStart.RegsCanon := h.ascBegin.startAttempt.startAttempt.bypEval.bypEval
theorem declareRun (h : s.RegsCanon) : s.declareRun.RegsCanon := (h.upd.wr.wr.wr.wr.trans.whenNot (·.raise)).bypEval.bypEval

theorem ascentStep {e0 : StepEnv} (h : s.RegsCanon) : (s.ascentStep e0).RegsCanon := by
  refine .branch h ?_
  dsimp only
  split
  · split
    · exact h.ascTime.flashStart.ascentFail
    · next e1 => exact (h.ascTime.flashStart.delriStart _ e1).ascBegin.bistStart
  · exact have h2 := h.ascTime.bistDone; branch h2.ascentFail h2.ascBegin.wr
  · exact have h3 := h.ascTime.hbmDone; branch h3.ascentFail h3.ascBegin.step4Start
  · exact h.when (·.ascTime.fwStarted.revertNotice.ascBegin)
  · exact h.ascTime.configDone.when (·.linesStart)
  · exact h.when (·.ascTime.tethersStart)
  · exact h.when (·.ascTime.ascBegin)
  · exact h.when (·.ascTime.declareRun)

theorem ascTimeout {n ms : Nat} {next : State → State} (h : s.RegsCanon) (hf : ∀ t, t.RegsCanon → (next t).RegsCanon) :
    (s.ascTimeout n ms next).RegsCanon :=
  branch (hf _ h.ascTime) h

/-! #### The commands -/

/-- Each command's meaning is one of the operations above, or answers no state. -/
theorem outCanon_exec (h : s.RegsCanon) : ∀ i, OutCanon (Machine.exec i s)
  | .registerWrite _ _ => .next h.bar0Write
  | .bar0BadAccess _ _ => .next h.bar0Bad
  | .lowWordRead _ => .next h.bar0Read
  | .lowWordWrite _ _ => .next h.bar0Write
  | .highWordWrite _ _ => .next h.bar0Write
  | .rcRead _ => .next h.bar0Read
  | .reservedRangeAccess _ _ => .next h.bar0Access
  | .earlyBlockAccess _ _ => .next h.bar0Access
  | .busyAccess _ _ => .next h.bar0Access
  | .flitReplay _ => .next h.flitReplay
  | .passageFail _ => .next h.passageFail.returnGo
  | .adjFreqWrite _ => .next h.bar0Write
  | .phaseCorrection _ => .next h.bar0Write
  | .slewComplete => .next h.slewDone
  | .timeSetGo _ => .next h.bar0Write
  | .ppsInEdge _ => .next (h.whenNot (·.ppsEdge))
  | .refLost _ => .next (h.whenNot (·.refLost))
  | .refQualified _ => .next (h.whenNot (·.refQualified))
  | .dpllLocked _ => .next h.dpllLock
  | .ppsOutPulse _ => .next h.ppsOut
  | .tsfPop => .next h.bar0Read
  | .timeReadLatch => .next h.bar0Read
  | .backgroundRecal _ => .next (h.whenNot (·.recal))
  | .cadEnWrite _ => .next h.bar0Write
  | .cadPeriodWrite _ => .next h.bar0Write
  | .cadPhaseWrite _ => .next h.bar0Write
  | .tick => .next h.cadTick
  | .porstAssert => .next h.upd.dormant
  | .porstRelease => .next h.upd.mayAscend
  | .ascentStepDone _ => .next h.ascentStep
  | .lineStartTimeout => .next (h.ascTimeout (fun _ h1 => h1.tethersStart))
  | .tetherStartTimeout => .next (h.ascTimeout (fun _ h1 => h1.ascBegin))
  | .lull _ _ => .next h.modCmd
  | .wake _ => .next h.modCmd
  | .probe _ => .next h.modCmd
  | .restart _ _ => .next h.modCmd
  | .safehold _ => .next h.modCmd.returnGo
  | .modCmdTickDue => .next h.modTickDue
  | .lullEntryComplete => .next h.lullEntryDone.returnGo
  | .wakePin _ => .next h.wakePin
  | .wakeTick => .next h.wakeTick
  | .lullExitComplete => .next h.lullExitDone.returnGo
  | .gal0Return => .next h.gal0Return
  | .rsqCountClear => .next h.rsqClear
  | .bypCtrlWrite _ => .next h.bar0Write
  | .bypSettleExpired _ => .next h.bypSettled
  | .bypRelinkTimeout _ => .next h.bypRelink
  | .bypRetryExpired _ => .next h.bypRetry
  | .bypHoldExpired _ => .next h.bypHoldEnd
  | .watchdogExpiry => .next h.keeperFail
  | .lockstepMiscompare => .next h.keeperFail
  | .memClearDone => .next h
  | .probeStepDone _ => .next h.probeStep
  | .kprGetInfo _ => .next h.mbx
  | .imgBegin _ => .next h.mbx
  | .imgData _ => .next h.mbx
  | .imgEnd _ => .next h.mbx
  | .arm _ => .next h.mbx
  | .disarm _ => .next h.mbx
  | .confirm _ => .next h.mbx
  | .revert _ => .next h.mbx
  | .settingsUnreadable _ => .next h.mbx
  | .settingsRead _ => .next h.mbx
  | .settingsWrite _ => .next h.mbx
  | .getChallenge _ => .next h.mbx
  | .lcProvision _ => .next h.mbx
  | .lcField _ => .next h.mbx
  | .lcReturn _ => .next h.mbx
  | .lcScrap _ => .next h.mbx
  | .keyProgram _ => .next h.mbx
  | .keyRevoke _ => .next h.mbx
  | .debugUnlock _ => .next h.mbx
  | .confirmWindowExpired => .next h.windowExpired
  | .warmSwapStart => .next h.swapStart
  | .warmSwapStepDone => .next h.swapStep
  | .swapStepTimeout => .next h.swapTimeout
  | .frameReceive _ _ _ _ _ _ => .next h.passPart.receive
  | .linkRawDown _ _ => .next h.rawDown
  | .linkRawUp _ _ => .next h.rawUpAgain.directPump
  | .downHoldExpired _ => .next h.downHoldExpired
  | .upHoldExpired _ => .next h.upHoldExpired.directPump
  | .adminUpWrite _ _ => .next h.bar0Write
  | .anComplete _ _ => .next h.anComplete
  | .portStartTimeout _ => .next h.attemptTimeout
  | .portRetryExpired _ => .next h.retryExpired
  | .partnerSignal _ => .next h.partnerSignal
  | .pfcPauseExpired _ _ => .next h.pauseExpired
  | .pfcFrameSend _ => .next h.pfcBoundary
  | .pfcRefresh _ => .next h.pfcRefresh
  | .pfcStorm _ _ => .next h.pfcStorm
  | .otnLaneSignal _ _ _ => .next h.laneSignal
  | .otnAlignLock _ _ _ => .next h.alignLock
  | .otnAlignLoss _ _ _ => .next h.alignLoss
  | .defectPersistence _ _ _ => .next h.defectPersist
  | .ttiAccept _ _ _ => .next h.ttiAccept
  | .pmSecondEnd _ => .next h.pmSecond
  | .pmBinClose => .next h.pmBinClose
  | .pmSelWrite _ _ => .next h.bar0Write
  | .tsiGo _ => .next h.bar0Write
  | .tsiGroupSwitch _ _ => .next h.tsiGroup
  | .tsiSwitchDone => .next h.tsiDone
  | .puntRefill => .next h.puntRefill
  | .clsWrite _ => .next h.indWrite
  | .clsRead _ => .next h.indWrite
  | .clsInvalidate _ => .next h.indWrite
  | .insert _ _ => .next (h.serveTable (fun _ h1 => h1.contentCmd))
  | .delete _ _ => .next (h.serveTable (fun _ h1 => h1.contentCmd))
  | .modify _ _ => .next (h.serveTable (fun _ h1 => branch h1.contentCmd (branch h1.entModify h1.answer)))
  | .search _ _ => .next (h.serveTable (fun _ h1 => h1.searchCmd))
  | .next_ _ _ => .next (h.serveTable (fun _ h1 => h1.nextCmd))
  | .flushPort _ _ => .next (h.serveTable (fun _ h1 => h1.flushCmd))
  | .nhWrite _ _ => .next (h.serveTable (fun _ h1 => h1.entWrite))
  | .adjWrite _ _ => .next (h.serveTable (fun _ h1 => h1.entWrite))
  | .ecmpWrite _ _ => .next (h.serveTable (fun _ h1 => h1.entWrite))
  | .nhDelete _ _ => .next (h.serveTable (fun _ h1 => h1.entDelete))
  | .adjDelete _ _ => .next (h.serveTable (fun _ h1 => h1.entDelete))
  | .batchOpen _ _ => .next (h.serveTable (fun _ h1 => h1.batchOpen))
  | .batchSubmit _ _ => .next (h.serveTable (fun _ h1 => h1.batchSubmit))
  | .batchAbort _ _ => .next (h.serveTable (fun _ h1 => h1.batchAbort))
  | .batchCommit _ => .next h.batchCommit
  | .batchSettle => .next h.settle
  | .singleEntryCommit => .next h.singleCommit
  | .adjFreed _ _ => .next h.entFreed
  | .getInfo _ => .next h.cmdInfo
  | .ping _ _ => .next h.cmdPing
  | .regRead _ _ _ => .next h.cmdRegRead
  | .regWrite _ _ _ => .next h.cmdRegWrite
  | .confirmUpdate _ _ => .next h.cmdConfirm
  | .timeGet _ => .next h.cmdTime
  | .servoCommand _ _ => .next h.cmdServo
  | .aclWrite _ => .next h.indWrite
  | .aclRead _ => .next h.indWrite
  | .aclInvalidate _ => .next h.indWrite
  | .aclStep _ _ => .next h.indWrite
  | .aclReadCnt _ => .next h.indWrite
  | .aclScrubRow _ _ => .next h.aclScrub
  | .echoScanDone _ => .next h.scanDone
  | .patLoad _ => .next h.bar0Write
  | .patLoadDone => .next h.patLoadDone
  | .patSwap _ => .next h.bar0Write
  | .patSwapDue => .next h.patSwapDue
  | .galleryInput _ => .next h.galleryInput
  | .packetDispatch _ => .next h.dispatch
  | .galleryLoad _ => .next h.loadByKeeper
  | .galleryLoadTimeout _ => .next h.loadTimeout
  | .drainEnd _ => .next h.drainEnd
  | .leashExpired _ => .next h.leash
  | .stillAir _ => .next h.stillAir
  | .threadTimer _ => .next h.thrTimer
  | .add _ _ _ _ => .next h.engRd
  | .sub _ _ _ _ => .next h.engRd
  | .and_ _ _ _ _ => .next h.engRd
  | .or_ _ _ _ _ => .next h.engRd
  | .xor_ _ _ _ _ => .next h.engRd
  | .andn _ _ _ _ => .next h.engRd
  | .sll _ _ _ _ => .next h.engRd
  | .srl _ _ _ _ => .next h.engRd
  | .sra _ _ _ _ => .next h.engRd
  | .rol _ _ _ _ => .next h.engRd
  | .ror _ _ _ _ => .next h.engRd
  | .mul _ _ _ _ => .next h.engRd
  | .mulhu _ _ _ _ => .next h.engRd
  | .min_ _ _ _ _ => .next h.engRd
  | .max_ _ _ _ _ => .next h.engRd
  | .minu _ _ _ _ => .next h.engRd
  | .maxu _ _ _ _ => .next h.engRd
  | .clz _ _ _ => .next h.engRd
  | .ctz _ _ _ => .next h.engRd
  | .popc _ _ _ => .next h.engRd
  | .bswap64 _ _ _ => .next h.engRd
  | .bswap32 _ _ _ => .next h.engRd
  | .bswap16 _ _ _ => .next h.engRd
  | .add32 _ _ _ _ => .next h.engRd
  | .sub32 _ _ _ _ => .next h.engRd
  | .csum16 _ _ _ _ => .next h.engRd
  | .addi _ _ _ _ => .next h.engRd
  | .andi _ _ _ _ => .next h.engRd
  | .ori _ _ _ _ => .next h.engRd
  | .xori _ _ _ _ => .next h.engRd
  | .shi _ _ _ _ _ => h.execShi
  | .movi _ _ _ _ => .next h.engRd
  | .movk1 _ _ _ => .next h.engRd
  | .movk2 _ _ _ => .next h.engRd
  | .movk3 _ _ _ => .next h.engRd
  | .cmp _ _ _ _ _ _ => .next (h.eng (fun _ h1 => h1.compare))
  | .cmpi _ _ _ _ _ _ => .next (h.eng (fun _ h1 => h1.compare))
  | .pset _ _ _ _ _ => .next (h.eng (fun _ h1 => h1.predPut))
  | .br _ _ => .next (h.eng (fun _ h1 => h1))
  | .call _ _ => .next (h.eng (fun _ h1 => h1.gput))
  | .jr _ _ => .next (h.eng (fun _ h1 => h1))
  | .ext _ _ _ _ _ => .next h.engField
  | .exts _ _ _ _ _ => .next h.engField
  | .ins _ _ _ _ _ => .next h.engField
  | .extv _ _ _ _ _ => .next h.engField
  | .hwl _ _ _ _ _ => .next (h.eng (fun _ h1 => branch_fst h1 h1.gput))
  | .hws _ _ _ _ _ => .next (h.eng (fun _ h1 => branch_fst h1 h1.hwWrite))
  | .hwadj _ _ _ _ => h.execHwadj
  | .mdl _ _ _ => h.execMdl
  | .mds _ _ _ => h.execMds
  | .ld _ _ _ _ _ => .next (h.eng (fun _ h1 => h1.load))
  | .st _ _ _ _ _ _ => .next (h.eng (fun _ h1 => h1.store))
  | .ldx _ _ _ _ _ => .next (h.eng (fun _ h1 => h1.load))
  | .stx _ _ _ _ _ _ => .next (h.eng (fun _ h1 => h1.store))
  | .atomAdd _ _ _ _ _ => .next h.engAtom
  | .atomAnd _ _ _ _ _ => .next h.engAtom
  | .atomOr _ _ _ _ _ => .next h.engAtom
  | .atomXor _ _ _ _ _ => .next h.engAtom
  | .atomSwap _ _ _ _ _ => .next h.engAtom
  | .atomUmin _ _ _ _ _ => .next h.engAtom
  | .atomUmax _ _ _ _ _ => .next h.engAtom
  | .atomCas _ _ _ _ _ => .next h.engAtom
  | .lkpEm _ _ _ _ _ => .next h.engLkp
  | .lkpLpm _ _ _ _ => .next h.engLkp
  | .lkpNh _ _ _ _ => .next h.engLkp
  | .lkpEcmpGroup _ _ _ _ => .next h.engLkp
  | .lkpEcmpMember _ _ _ _ => .next h.engLkp
  | .lkpAdj _ _ _ _ => .next h.engLkp
  | .lkpComplete _ _ _ => .next h.lkpComplete
  | .aclSearch _ _ _ _ => .next h.engAcl
  | .aclSearchNext _ _ _ _ => .next h.engAcl
  | .echoScanRequest _ _ _ _ => .next h.engEcho
  | .echoStepRequest _ _ _ _ => .next h.engEcho
  | .hrdAlloc _ _ _ => .next (h.engHrd (fun _ _ _ h1 => h1.hrdAlloc))
  | .hrdFree _ _ _ => .next (h.engHrd (fun _ _ _ h1 => h1.hrdFree))
  | .hrdRef _ _ _ => .next (h.engHrd (fun _ _ _ h1 => h1.hrdRef))
  | .hrdComplete _ _ => .next h.hrdComplete
  | .poolStarved _ => .next h.poolStarved
  | .dmaPacketToLocal _ _ _ => .next h.engDma
  | .dmaTableToLocal _ _ _ => .next h.engDma
  | .dmaLocalToTable _ _ _ => .next h.engDma
  | .dmaCellToLocal _ _ _ => .next h.engDma
  | .dmaLocalToCell _ _ _ => .next h.engDma
  | .dmaComplete _ _ _ => .next h.dmaComplete
  | .cnt _ _ _ => .next (h.eng (fun _ h1 => branch_fst h1 (branch_fst h1 h1.cntAdd)))
  | .time _ _ _ => h.execTime
  | .waitToken _ _ _ => .next (h.eng (fun _ h1 => h1.waitTok))
  | .waitAny _ _ _ => .next (h.eng (fun _ h1 => h1.waitAny))
  | .waitEvent _ _ _ => .next (h.eng (fun _ h1 => h1.waitEv))
  | .test _ _ _ _ => .next (h.eng (fun _ h1 => h1.testTok))
  | .fres _ _ _ => .next (h.engFlue (fun _ h1 => h1.flueReserve))
  | .fput _ _ _ => .next (h.engFlue (fun _ h1 => h1.flueStage))
  | .fcmt _ _ _ => .next (h.engFlue (fun _ h1 => h1.flueCommit))
  | .fget _ _ _ => .next (h.engFlue (fun _ h1 => h1.flueGet))
  | .flen _ _ _ => .next (h.engFlue (fun _ h1 => h1.flueLen))
  | .svc _ _ => .next (h.eng (fun _ h1 => h1))
  | .pktReady _ => .next (h.eng (fun _ h1 => h1.pktReady))
  | .pktSend _ => .next (h.eng (fun _ h1 => h1.pktEnd (fun _ _ h2 => h2.pktSend)))
  | .pktDrop _ => .next (h.eng (fun _ h1 => h1.pktEnd (fun _ _ h2 => h2.pktDrop)))
  | .pktPunt _ _ => .next (h.eng (fun _ h1 => .branch_fst h1 (h1.pktEnd (fun _ _ h2 => h2.pktPunt))))
  | .mfs _ _ _ => .next h.engMfs
  | .mts _ _ _ => .next h.engMts
  | .notePop _ _ => .next h.engMfs
  | .thrRegWrite _ _ => .next h.engMts
  | .thrResume _ _ => .next h.engThrCmd
  | .thrSkip _ _ => .next h.engThrCmd
  | .thrJump _ _ => .next h.engThrCmd
  | .thrRestart _ _ => .next h.engThrCmd
  | .synthPost _ _ => .next h.engMts
  | .reclaim _ _ => .next h.engMts
  | .fence _ => .next (h.eng (fun _ h1 => h1))
  | .dbgHalt _ => .next h.dbgWrite
  | .dbgStep _ => .next h.dbgWrite
  | .dbgResume _ => .next h.dbgWrite
  | .dbgRestart _ => .next h.dbgWrite
  | .stackCacheRefill _ _ => .next h.stackRefill
  | .stackCacheSpill _ => .next h.stackSpill
  | .packetAdmit => .next h.packetAdmit
  | .schedulerSelect => .next h.schedule
  | .egressCellArrival => .next h.egArrive
  | .egressPortSelect _ => .next h.egSelect
  | .portFrameTransmit _ _ => .next h.portTransmit
  | .portHoldEnd _ => .next h.holdEnd
  | .queWrite _ => .next h.indWrite
  | .queRead _ => .next h.indWrite
  | .queFlush _ => .next h.indWrite
  | .queFlushDone => .next h.queFlushed
  | .queReadCnt _ => .next h.indWrite
  | .schWrite _ => .next h.indWrite
  | .schRead _ => .next h.indWrite
  | .schRebuild _ => .next h.indWrite
  | .schRebuildDone => .next h.rebuilt
  | .schReadCnt _ => .next h.indWrite
  | .shpWrite _ => .next h.indWrite
  | .shpRead _ => .next h.indWrite
  | .shpInit _ => .next h.indWrite
  | .gatWrite _ => .next h.indWrite
  | .gatRead _ => .next h.indWrite
  | .gatReadOper _ => .next h.indWrite
  | .gatWriteHdr _ => .next h.indWrite
  | .gatReadHdr _ => .next h.indWrite
  | .gatSwitch _ => .next h.indWrite
  | .gatCancel _ => .next h.indWrite
  | .gatRestore _ => .next h.indWrite
  | .gatReadCnt _ => .next h.indWrite
  | .gatClear _ => .next h.indWrite
  | .gateListSwitch _ => .next h.gateSwitch
  | .gateSwitchCopyDone _ => .next h.gateCopied
  | .sojSelWrite _ => .next h.bar0Write
  | .fabricCellSend => .next h.cellSend
  | .fabricCellReceive _ _ _ _ => .next h.cellReceive
  | .reqSend _ => .next h.reqSend
  | .grantSend _ => .next h.grantSend
  | .dcredSend _ => .next h.dcredSend
  | .creditRefresh => .next h.creditRefresh
  | .voqForfeit _ => .next h.voqForfeit
  | .localLoopGrant _ => .next h.loopGrant
  | .reseqGapTimeout _ => .next h.gapTimeout
  | .fabricLinkFail _ => .next h.linkFail
  | .spareActivate => .next h.spareActivate
  | .linkRetrain _ _ => .next h.linkRetrain
  | .dumpRecordWrite => .next h.dumpWaiting
  | .svyWriteCfg _ => .next h.indWrite
  | .svyReadCfg _ => .next h.indWrite
  | .svyReadHist _ => .next h.indWrite
  | .svyReadCur _ => .next h.indWrite
  | .pmcRunWrite _ _ => .next h.bar0Write
  | .pmcRunTickDue _ => .next h.pmcRunDue
  | .pmcSample _ _ _ _ _ => .next h.pmcSample
  | .pmcSfifoPop _ => .next h.bar0Read
  | .functionLevelReset _ => h.execFunctionLevelReset
  | .d3hotEntry => .next h.d3Enter
  | .bar2Read _ _ _ => .next h.bar2Read
  | .bar2Write _ _ => .next h.bar2Write
  | .ringEnable _ _ => .next h.bar0Write
  | .ringDisable _ => .next h.bar0Write
  | .dmaError _ _ => .next h.dmaError
  | .injectRecord _ _ _ _ => .next h.inject
  | .msixHoldoffExpired _ => .next h.holdoffEnds
  | .msixUnmask _ => .next h.unmask
  | .evtForce _ _ => .next h.bar0Write
  | .tmgmtEventFrame _ => .next h.eventFrame
  | .i2cPointerWrite _ => .next (h.when (·.upd))
  | .i2cRegisterRead _ => .next h.i2cRead
  | .i2cRecoveryRestart => .next h.i2cRecovery
  | .i2cRecoverySafehold => .next h.i2cRecovery
  | .gtestGo _ => .next h.bar0Write
  | .gtestAuto => .next h.gtAuto
  | .gtestTickDue => .next h.gtTickDue
  | .gtestStepDone _ => .next h.gtStep
  | .hbmRowRemap _ _ => .next h.hbmRemap
  | .eccScrub _ _ _ _ => .next h.eccError
  | .failLogPop => .next h.bar0Read
  | .hbmLogPop => .next h.bar0Read
  | .bisMemSelWrite _ => .next h.bar0Write
  | .railUndervoltage _ => .next h.railLow
  | .sysclkFail => .next h.sysclkFail
  | .tcxoFail => .next h.tcxoFail
  | .thermalReading _ => .next h.thermal.returnGo
  | .thermTripRelease => .next h.tripRelease
  | .gateIntervalEnd _ => .next h.gateIntervalEnd
  | .railInRange _ => .next h.railOk
  | .sysclkStable => .next h.sysclkOk
  | .returnToD0 => .next h.d0Return
  | .windowLow => .next h.windowLow
  | .indexShadowWrite _ => .next h.shadowDue
  | .commandUnknown _ _ => .next h.cmdUnknown
  | .modCmdUnknown _ => .next h.modCmd
  | .reservedOpcode _ _ => h.execReservedOpcode
  | .indCmdBadOp _ _ => .next h.bar0Write
  | .tapInstruction _ => .next h.tapLoad

end State.RegsCanon

theorem OutCanon.step {s : State} (h : s.RegsCanon) : OutCanon (Machine.step s) := by
  unfold Machine.step
  split
  · exact .next h.idle
  · exact h.upd.outCanon_exec _

/-- Settles O57: one nanosecond of an idle block keeps the registers canonical, and so does every command. -/
theorem everyStepKeepsRegistersCanonical : Obligations.EveryStepKeepsRegistersCanonical := by
  unfold Obligations.EveryStepKeepsRegistersCanonical
  intro s t h e
  exact OutCanon.step h t e

end Sys2Proof.Machine

namespace Sys2Proof.Machine

/-! ### Bypasses (R95–R97) -/

/-- A served write of a one-word register that no unit takes over or bounds stores its fields, and what it starts follows (R11). -/
theorem bar0Write_stored {s : State} {a : Nat} {r : RegRow} {ix : List Nat} (hs : s.serves a) (hreg : regRow a = some (r, ix))
    (hrole : r.role = .w32) (hf : s.fabGone r.name = false) (hb : s.writeBlocked r.name = none) {v : Word}
    (hun : s.unitWrite r.name ix a v = none) (hin : s.inRange r.name ix (s.rdw a) v = v) (e : AclEnv) :
    s.bar0Write a v e = State.written s (s.hostPut a v) r.name ix a v e := by
  rw [bar0Write_serves hs, regWrite_w32 hreg hf hb hrole, wordWrite_fieldwise hun, hin, State.hostPut, hreg]

/-- MOD_BYP_CTRL is a word of its own row. -/
theorem regRow_bypCtrl : ∃ r, regRow R.MOD_BYP_CTRL.addr = some (r, []) ∧ r.name = "MOD_BYP_CTRL" ∧ r.role = .w32 := by
  have h : (regRow R.MOD_BYP_CTRL.addr).map (fun x => (x.1.name, x.2, x.1.role)) = some ("MOD_BYP_CTRL", [], .w32) := by
    decide +kernel
  obtain ⟨⟨r, ix⟩, hreg, he⟩ := Option.map_eq_some_iff.mp h
  simp only [Prod.mk.injEq] at he
  obtain ⟨hname, rfl, hrole⟩ := he
  exact ⟨r, hreg, hname, hrole⟩

theorem bar0Write_bypCtrl {s : State} (hs : s.serves R.MOD_BYP_CTRL.addr) (v : Word) :
    s.bar0Write R.MOD_BYP_CTRL.addr v
      = State.bypCtrlWritten s (State.bypCtrlWritten s (s.hostPut R.MOD_BYP_CTRL.addr v) 0) 1 := by
  obtain ⟨r, hreg, hname, hrole⟩ := regRow_bypCtrl
  have hf : s.fabGone r.name = false := by simp [State.fabGone, hname]
  rw [bar0Write_stored hs hreg hrole hf (by rw [hname]; rfl) (by rw [hname]; rfl) (by rw [hname]; rfl), hname]
  rfl

section Bypass
variable {s : State} {n t : Nat}

theorem bypSettled_loopUp (hup : (s.bypTimers n).loopUp = some t) (hb : s.byp n = bLOOP_CHECK)
    (hm : s.inMode mRUN = true ∨ s.inMode mLULL = true) (hl : s.link (144 + n) = true) :
    s.bypSettled n = (s.advanceUp (t + s.rd F.MOD_BYP_CTRL_SETTLE * 10 ^ 7)).bypEnter n bOPENING := by
  have hm' : (s.inMode mRUN || s.inMode mLULL) = true := (Bool.or_eq_true _ _).mpr hm
  simp [State.bypSettled, hup, hb, hm', hl]

theorem bypRelink_opening (h : s.byp n = bOPENING) :
    s.bypRelink n = ((s.advanceUp ((s.bypTimers n).since + s.rd F.MOD_BYP_CTRL_RELINK * 10 ^ 6)).satInc (fBypFails n)).bypEnter n
      bBACKOFF := if_pos h

theorem bypRetry_backoff (h : s.byp n = bBACKOFF) :
    s.bypRetry n = (s.advanceUp ((s.bypTimers n).since + s.rd F.MOD_BYP_CTRL_RETRY * 10 ^ 9)).bypEnter n bLOOP_CHECK := if_pos h

theorem bypHoldEnd_held (h : (s.bypTimers n).hold = some t) :
    s.bypHoldEnd n = (let u := (s.advanceUp (t + 5 * 10 ^ 6)).bypT n (fun t => { t with hold := none })
      if u.inMode mRUN || u.inMode mLULL then u else u.tetherTx n false) := by
  simp only [State.bypHoldEnd, h]

end Bypass

/-! ### Keeper failures (R511, R512) -/

/-- The Keeper is down. -/
def State.keeperDown (s : State) : State := s.wr F.MOD_STATUS_KEEPER_UP 0

/-- RSQ has taken bypasses, line ports and tethers down and recorded the cause. -/
def State.rsqActs (s : State) (cause : Nat) : State :=
  ((((s.bypEnter 0 bCLOSED).bypEnter 1 bCLOSED).linesOff.tetherTx 0 false).tetherTx 1 false).wr F.MOD_RSQ_LAST_CAUSE cause

section KeeperFailure
variable {s : State} {cause : Nat} (hd : s.inMode mDORMANT = false)
include hd

theorem keeperFail_in_safehold (hs : s.keeperDown.inMode mSAFEHOLD = true) :
    s.keeperFail cause = { s.keeperDown with md := { s.keeperDown.md with held := true } } := by
  rw [State.keeperDown] at hs
  simp [State.keeperFail, State.keeperDown, hd, hs]

theorem keeperFail_restarts (hs : s.keeperDown.inMode mSAFEHOLD = false) (hn : (s.keeperDown.rsqActs cause).rd F.MOD_RSQ_COUNT < 3) :
    s.keeperFail cause = ((s.keeperDown.rsqActs cause).wr F.MOD_RSQ_COUNT
      ((s.keeperDown.rsqActs cause).rd F.MOD_RSQ_COUNT + 1)).startAscent 7 true := by
  rw [State.keeperDown] at hs
  rw [State.rsqActs, State.keeperDown] at hn
  simp [State.keeperFail, State.keeperDown, State.rsqActs, hd, hs, hn]

theorem keeperFail_gives_up (hs : s.keeperDown.inMode mSAFEHOLD = false)
    (hn : 3 ≤ (s.keeperDown.rsqActs cause).rd F.MOD_RSQ_COUNT) :
    s.keeperFail cause = (let h := (s.keeperDown.rsqActs cause).safehold 2 cause 8 true
      { h with md := { h.md with held := true } }) := by
  rw [State.keeperDown] at hs
  rw [State.rsqActs, State.keeperDown] at hn
  simp [State.keeperFail, State.keeperDown, State.rsqActs, hd, hs, Nat.not_lt.mpr hn]

end KeeperFailure

/-! ### Passage (R20) -/

theorem flitReplay_counts {s : State} (hd : s.inMode mDORMANT = false) (hl : s.inMode mLULL = false) (dir : Nat) :
    s.flitReplay dir = { s with md := if dir = 0 then { s.md with replayTm := s.md.replayTm + 1 }
      else { s.md with replayFe := s.md.replayFe + 1 } }.raise (eg 15 5) := by
  simp [State.flitReplay, hd, hl]

theorem passageFail_at_rest {s : State} (h : s.rd F.MOD_STATUS_PHASE = 0) (dir : Nat) :
    s.passageFail dir = s.safehold 3 dir 10 false := by simp [State.passageFail, State.on, h]

theorem passageFail_in_transition {s : State} (h : s.rd F.MOD_STATUS_PHASE ≠ 0) (dir : Nat) :
    s.passageFail dir = { s with md := { s.md with passWait := some dir } } := by simp [State.passageFail, State.on, h]

/-! ### Thermal sensors (R540–R542) -/

/-- The number whose lowest `n` bits are the flags `p`. -/
def flagWord (p : Nat → Bool) (n : Nat) : Nat := (List.range n).foldl (fun m i => if p i then m + 2 ^ i else m) 0

theorem flagWord_succ (p : Nat → Bool) (n : Nat) :
    flagWord p (n + 1) = if p n then flagWord p n + 2 ^ n else flagWord p n := by
  simp [flagWord, List.range_succ]

theorem flagWord_lt (p : Nat → Bool) (n : Nat) : flagWord p n < 2 ^ n := by
  induction n with
  | zero => simp [flagWord]
  | succ n ih => rw [flagWord_succ]; split <;> omega

theorem bitN_flagWord (p : Nat → Bool) {n i : Nat} (hi : i < n) : bitN (flagWord p n) i = p i := by
  unfold bitN
  induction n with
  | zero => omega
  | succ n ih =>
    have hlt := flagWord_lt p n
    rw [flagWord_succ]
    obtain hlow | rfl := Nat.lt_succ_iff_lt_or_eq.mp hi
    · cases hp : p n <;> simp [Nat.add_comm _ (2 ^ n), Nat.testBit_two_pow_add_gt hlow, ih hlow]
    · cases hp : p i <;> simp [Nat.add_comm _ (2 ^ i), Nat.testBit_two_pow_add_eq, Nat.testBit_lt_two_pow hlt]

/-- The sensors that are hot after a reading of some: those read by their reading, the others as before. -/
def State.hotAfter (u : State) (before : Nat) (read : List Nat) : Nat :=
  flagWord (fun i => if read.contains i then u.sensorHot i else bitN before i) 16

/-- Every valid sensor reads below 97 °C. -/
def State.allCool (u : State) : Bool :=
  (List.range 16).all (fun i => let v := u.rd (F.MOD_THERM_TEMP_TEMP.at i); tempBad v || decide (tempOf v < 776))

/-- Since when all sensors are cool. -/
def State.coolSince (u : State) : Option Nat := if u.allCool then some (u.md.coolAt.getD u.tb.up) else none

theorem allCool_iff (u : State) : u.allCool = true ↔
    ∀ i < 16, tempBad (u.rd (F.MOD_THERM_TEMP_TEMP.at i)) = true ∨ tempOf (u.rd (F.MOD_THERM_TEMP_TEMP.at i)) < 776 := by
  simp [State.allCool]

section Thermal
variable (s : State) (l : List (Nat × Nat))

/-- The readings shown. -/
def State.sensorsRead : State := foldS l (fun x s => s.sensorRead x.1 x.2) s

/-- The readings shown and judged. -/
def State.sensorsJudged : State :=
  let u := s.sensorsRead l
  { u with md := { u.md with hot := u.hotAfter s.md.hot (l.map (·.1)), coolAt := u.coolSince } }

variable {s l}

theorem thermal_untripped (h : (s.sensorsRead l).tripSensor s.md.hot (l.map (·.1)) = none) : s.thermal l = s.sensorsJudged l := by
  have h' : (s.sensorsJudged l).tripSensor s.md.hot (l.map (·.1)) = none := h
  unfold State.thermal
  dsimp only
  split
  · rfl
  · next e => exact absurd (e.symm.trans h') (by simp)

theorem thermal_tripped {i : Nat} (h : (s.sensorsRead l).tripSensor s.md.hot (l.map (·.1)) = some i) :
    s.thermal l = (let x := s.sensorsJudged l
      (if x.on F.MOD_THERM_STATUS_TRIP then x else (x.wr F.MOD_THERM_STATUS_TRIP 1).raise (eg 3 8)).safehold 4 i 9 false) := by
  have h' : (s.sensorsJudged l).tripSensor s.md.hot (l.map (·.1)) = some i := h
  unfold State.thermal
  dsimp only
  split
  · next e => exact absurd (e.symm.trans h') (by simp)
  · next e => cases e.symm.trans h'; rfl

end Thermal

theorem tempField_ok (i : Nat) : (F.MOD_THERM_TEMP_TEMP.at i).ok = true := rfl

/-- WARN is in a word of its own, after those of the 16 temperatures. -/
theorem warn_apart_temp {i : Nat} (hi : i < 16) : F.MOD_THERM_STATUS_WARN.apart (F.MOD_THERM_TEMP_TEMP.at i) = true := by
  have : F.MOD_THERM_STATUS_WARN.addr ≠ (F.MOD_THERM_TEMP_TEMP.at i).addr := by
    simp only [Fld.at, F.MOD_THERM_STATUS_WARN, F.MOD_THERM_TEMP_TEMP]; omega
  simp [Fld.apart, this]

/-- Events leave the temperatures. -/
theorem rd_temp_raise (s : State) (n : Nat) (i : Nat) :
    (s.raise n).rd (F.MOD_THERM_TEMP_TEMP.at i) = s.rd (F.MOD_THERM_TEMP_TEMP.at i) := by
  apply rd_raise <;> simp only [Fld.at, F.MOD_THERM_TEMP_TEMP] <;> omega

/-- A reading shows as TEMP; WARN and its event leave it. -/
theorem rd_temp_sensorRead (s : State) {i v : Nat} (hi : i < 16) (hv : v < 2 ^ 16) :
    (s.sensorRead i v).rd (F.MOD_THERM_TEMP_TEMP.at i) = if s.sensorOn i then v else 0x8000 := by
  have hshown : (if s.sensorOn i then v else 0x8000) < 2 ^ 16 := by split <;> omega
  unfold State.sensorRead
  dsimp only
  generalize (if s.sensorOn i then v else 0x8000) = x at hshown ⊢
  have hput : (s.wr (F.MOD_THERM_TEMP_TEMP.at i) x).rd (F.MOD_THERM_TEMP_TEMP.at i) = x :=
    (rd_wr_same _ _ _ (tempField_ok i)).trans (Nat.mod_eq_of_lt hshown)
  split
  · exact hput
  · split
    · rw [rd_temp_raise, rd_wr_apart _ _ _ _ (warn_apart_temp hi), hput]
    · split
      · rw [rd_wr_apart _ _ _ _ (warn_apart_temp hi), hput]
      · exact hput

theorem tripRelease_tripped {s : State} {t : Nat} (hc : s.md.coolAt = some t) (ht : s.rd F.MOD_THERM_STATUS_TRIP ≠ 0) :
    s.tripRelease = (s.advanceUp (t + 10 ^ 9)).wr F.MOD_THERM_STATUS_TRIP 0 := by
  simp [State.tripRelease, State.on, hc, ht]

/-! ### The TAP (R534) -/

section Tap
variable {s : State} {i : TapInstr}

theorem tapLoad_refused (h : s.tapMay i = false) : s.tapLoad i = { s with tap := .bypass } := by
  simp [State.tapLoad, h]

theorem tapLoad_permitted (h : s.tapMay i = true) (hi : i ≠ .idcode) : s.tapLoad i = { s with tap := i } := by
  simp [State.tapLoad, h, hi]

theorem tapLoad_idcode : s.tapLoad .idcode = { s with tap := .idcode }.emit (.tdo 0x1288098F) := rfl

end Tap

/-! ### The events together -/

/-- The outcome of an event after which a return to the factory goes on (R108). -/
def thenReturnGo (s : State) : Out1 := .next s.returnGo

/-- Settles O38: each event by the rule of its operation. -/
theorem bypassesFailuresAndSensorsFollowTheirRules : Obligations.BypassesFailuresAndSensorsFollowTheirRules := by
  unfold Obligations.BypassesFailuresAndSensorsFollowTheirRules
  intro s
  refine ⟨fun v hs => congrArg Host.Outcome.next (bar0Write_bypCtrl hs v), fun n => ⟨?_, ?_, ?_, ?_⟩, fun hd x hx => ?_,
    fun hd hl => ⟨congrArg Host.Outcome.next (flitReplay_counts hd hl 0), congrArg Host.Outcome.next (flitReplay_counts hd hl 1)⟩,
    fun d => ⟨fun h => ?_, fun h => ?_⟩, rfl, fun l => ?_, fun i v => rd_temp_sensorRead s i.isLt v.isLt,
    fun t hc ht => congrArg Host.Outcome.next (tripRelease_tripped hc ht),
    fun i => ⟨fun h => congrArg Host.Outcome.next (tapLoad_refused h),
      fun h hi => congrArg Host.Outcome.next (tapLoad_permitted h hi), congrArg Host.Outcome.next tapLoad_idcode⟩⟩
  · exact fun t hup hb hm hl => congrArg Host.Outcome.next (bypSettled_loopUp hup hb hm hl)
  · exact fun h => congrArg Host.Outcome.next (bypRelink_opening h)
  · exact fun h => congrArg Host.Outcome.next (bypRetry_backoff h)
  · exact fun t h => congrArg Host.Outcome.next (bypHoldEnd_held h)
  · have hexec : exec x.1 s = .next (s.keeperFail x.2) := by
      simp only [List.mem_cons, List.not_mem_nil, or_false] at hx
      obtain rfl | rfl := hx
      · rfl
      · rfl
    rw [hexec]
    exact ⟨fun h => congrArg Host.Outcome.next (keeperFail_in_safehold hd h),
      fun h => ⟨fun hn => congrArg Host.Outcome.next (keeperFail_restarts hd h hn),
        fun hn => congrArg Host.Outcome.next (keeperFail_gives_up hd h hn)⟩⟩
  · exact congrArg thenReturnGo (passageFail_at_rest h d.val)
  · exact congrArg thenReturnGo (passageFail_in_transition h d.val)
  · intro r u temp cool
    refine ⟨u.hotAfter s.md.hot (r.map Prod.fst), u.coolSince, fun i hi => ?_, fun h => if_pos ((allCool_iff u).mpr h),
      fun h => if_neg (fun hc => h ((allCool_iff u).mp hc)),
      fun h => congrArg thenReturnGo (thermal_untripped h),
      fun i h => congrArg thenReturnGo (thermal_tripped h)⟩
    rw [State.hotAfter, bitN_flagWord _ hi]
    simp only [List.contains_iff_mem]

end Sys2Proof.Machine

namespace Sys2Proof.Machine

/-! ### One step (R36, R63) -/

/-- Settles O55: each clause is a case of the definition of `step` or of `withFetchWord`. -/
theorem stepRunsTheFrontCommand : Obligations.StepRunsTheFrontCommand := by
  unfold Obligations.StepRunsTheFrontCommand
  refine ⟨fun s c l => rfl, fun s hs => ?_, fun s n w => ⟨rfl, rfl⟩⟩
  simp only [step, hs]

/-! ### Served accesses by the shape of their word (R9, R11) -/

/-- Name, indices and role of the word at `a`. -/
def wordShape (a : Nat) : Option (String × List Nat × WordRole) := (regRow a).map (fun x => (x.1.name, x.2, x.1.role))

theorem regRow_of_wordShape {a : Nat} {name : String} {ix : List Nat} {role : WordRole} (h : wordShape a = some (name, ix, role)) :
    ∃ r, regRow a = some (r, ix) ∧ r.name = name ∧ r.role = role := by
  obtain ⟨⟨r, jx⟩, hreg, he⟩ := Option.map_eq_some_iff.mp h
  simp only [Prod.mk.injEq] at he
  obtain ⟨hname, rfl, hrole⟩ := he
  exact ⟨r, hreg, hname, hrole⟩

section Served
variable {s : State} {a : Nat} {name : String} {ix : List Nat} (hs : s.serves a) (hf : s.fabGone name = false)
include hs hf

/-- A served write of a word that its unit takes over is the unit's work. -/
theorem bar0Write_taken (hw : wordShape a = some (name, ix, .w32)) (hb : s.writeBlocked name = none) {v : Word} {t : State}
    (hun : s.unitWrite name ix a v = some t) (e : AclEnv) : s.bar0Write a v e = t := by
  obtain ⟨r, hreg, rfl, hrole⟩ := regRow_of_wordShape hw
  simp only [bar0Write_serves hs, regWrite_w32 hreg hf hb hrole, State.wordWrite, hun]

/-- A served write of a one-word register that no unit takes over or bounds stores its fields, and what it starts follows. -/
theorem bar0Write_stores (hw : wordShape a = some (name, ix, .w32)) (hb : s.writeBlocked name = none) {v : Word}
    (hun : s.unitWrite name ix a v = none) (hin : s.inRange name ix (s.rdw a) v = v) (e : AclEnv) :
    s.bar0Write a v e = State.written s (s.hostPut a v) name ix a v e := by
  obtain ⟨r, hreg, rfl, hrole⟩ := regRow_of_wordShape hw
  exact bar0Write_stored hs hreg hrole hf hb hun hin e

/-- A served read of a one-word register completes after its refresh, clears its RC fields and pops what it pops. -/
theorem bar0Read_word (hw : wordShape a = some (name, ix, .w32)) :
    ∃ w, s.bar0Read a = (((s.refresh name ix a).rcClear a).popped name ix a).emit (.read a w) := by
  obtain ⟨r, hreg, rfl, hrole⟩ := regRow_of_wordShape hw
  exact ⟨_, by rw [bar0Read_serves hs, regRead_w32 hreg hf hrole]⟩

end Served

/-- A served write of the high word of a pair stores the pair, and what it starts follows; no field of the pair shows live
state. -/
theorem bar0Write_storesPair {s : State} {lo : Nat} {name : String} {ix : List Nat} (hs : s.serves (lo + 4))
    (hf : s.fabGone name = false) (hl : wordShape lo = some (name, ix, .lo)) (hh : wordShape (lo + 4) = some (name, ix, .hi))
    (hb : s.writeBlocked name = none) (hlive : s.refresh name ix lo = s) (v : Word) (e : AclEnv) :
    s.bar0Write (lo + 4) v e = State.written s (s.pairPut lo v) name ix (lo + 4) v e := by
  obtain ⟨r, hreg, rfl, hrole⟩ := regRow_of_wordShape hh
  obtain ⟨rl, hlo, hname, -⟩ := regRow_of_wordShape hl
  rw [bar0Write_serves hs, regWrite_hi hreg hf hb hrole]
  cases hheld : mget (fun _ => (none : Option Word)) s.held lo with
  | none =>
    have hput : s.pairPut lo v = s.wrw (lo + 4) (s.merged r ix (s.rdw (lo + 4)) v) := by
      simp only [State.pairPut, hheld, State.hostPut, hreg]
    refine (pairWrite_unheld (a := lo + 4) hlo hheld v e).trans ?_
    rw [hput, Nat.add_sub_cancel, hname, hlive]
  | some l =>
    have hput : s.pairPut lo v =
        (let x := { s with held := mset (fun _ => none) s.held lo none }
        let y := x.wrw lo (x.merged rl ix (x.rdw lo) l)
        y.wrw (lo + 4) (y.merged r ix (y.rdw (lo + 4)) v)) := by
      simp only [State.pairPut, hheld, State.hostPut, hreg, hlo]
    rw [hput]
    exact pairWrite_held (a := lo + 4) hlo hheld v e

/-! ### The software servo (R45, R46) -/

theorem bar0Write_adjFreq {s : State} (hs : s.serves R.WRS_ADJ_FREQ.addr) (v : Word) :
    s.bar0Write R.WRS_ADJ_FREQ.addr v = (s.hostPut R.WRS_ADJ_FREQ.addr v).adjFreqWritten :=
  bar0Write_stores hs (by simp [State.fabGone]) (name := "WRS_ADJ_FREQ") (ix := []) (by decide +kernel) rfl rfl rfl _

theorem bar0Write_adjPhase {s : State} (hs : s.serves (R.WRS_ADJ_PHASE.addr + 4)) (v : Word) :
    s.bar0Write (R.WRS_ADJ_PHASE.addr + 4) v = (let u := s.pairPut R.WRS_ADJ_PHASE.addr v
      u.phaseCorrect (sx 64 (u.rd64 R.WRS_ADJ_PHASE))) :=
  bar0Write_storesPair hs (by simp [State.fabGone]) (name := "WRS_ADJ_PHASE") (ix := []) (by decide +kernel) (by decide +kernel)
    rfl rfl v _

section Servo
variable {s : State}

/-- The frequency offset WRS_ADJ_FREQ asks for. -/
def State.freqAsked (s : State) : Int := sx 32 (s.rd F.WRS_ADJ_FREQ_FREQ)

/-- DPLL A has offset `c`. -/
def State.freqPut (s : State) (c : Int) : State := { s with tb := { s.tb with freqA := c } }.noteFreq

/-- DPLL A has the offset `c` that another was clamped to. -/
def State.freqClamped (s : State) (c : Int) : State := ((s.freqPut c).wr F.WRS_STATUS_ADJ_CLAMP 1).raise (eg 1 5)

theorem adjLimit_pos : 0 < adjLimit := by decide

theorem applyFreq_within (h1 : -adjLimit ≤ s.freqAsked) (h2 : s.freqAsked ≤ adjLimit) :
    s.applyFreq = s.freqPut s.freqAsked := by
  rw [State.freqAsked] at h1 h2
  simp [State.applyFreq, not_lt.mpr h1, not_lt.mpr h2, State.freqPut, State.freqAsked]

theorem applyFreq_above (h : adjLimit < s.freqAsked) : s.applyFreq = s.freqClamped adjLimit := by
  have hpos := adjLimit_pos
  rw [State.freqAsked] at h
  simp [State.applyFreq, show ¬sx 32 (s.rd F.WRS_ADJ_FREQ_FREQ) < -adjLimit by omega, h, h.ne, State.freqPut, State.freqClamped]

theorem applyFreq_below (h : s.freqAsked < -adjLimit) : s.applyFreq = s.freqClamped (-adjLimit) := by
  rw [State.freqAsked] at h
  simp [State.applyFreq, h, h.ne', State.freqPut, State.freqClamped]

theorem adjFreqWritten_unselected (h : s.servo = false) : s.adjFreqWritten = s := by simp [State.adjFreqWritten, h]

theorem adjFreqWritten_selected (h : s.servo = true) : s.adjFreqWritten = s.applyFreq.servoBack := by simp [State.adjFreqWritten, h]

/-- A step of time is allowed: Cadence is off or STEP_EN set (R46, R48). -/
theorem mayStep_of (h : s.rd F.CAD_CTRL_EN = 0 ∨ s.rd F.WRS_CTRL_STEP_EN ≠ 0) :
    (!s.on F.CAD_CTRL_EN || s.on F.WRS_CTRL_STEP_EN) = true := by simpa [State.on, imp_iff_not_or] using h

theorem mayNotStep_of (hc : s.rd F.CAD_CTRL_EN ≠ 0) (hstep : s.rd F.WRS_CTRL_STEP_EN = 0) :
    ¬(!s.on F.CAD_CTRL_EN || s.on F.WRS_CTRL_STEP_EN) = true := by simp [State.on, hc, hstep]

theorem phaseCorrect_unselected (h : s.servo = false) (ps : Int) : s.phaseCorrect ps = s := by simp [State.phaseCorrect, h]

variable {ps : Int} (h : s.servo = true)
include h

/-- A correction inside the window slews, one outside steps where a step is allowed. -/
theorem phaseCorrect_selected : s.phaseCorrect ps = (let x := s.servoBack
    if ps.natAbs ≤ x.rd F.WRS_SLEW_WINDOW * 1000 then
      { x with tb := { x.tb with slewLeft := ps * tuPs } }.wr F.WRS_STATUS_SLEWING (b2n (decide (ps * (tuPs : Int) ≠ 0)))
    else if !x.on F.CAD_CTRL_EN || x.on F.WRS_CTRL_STEP_EN then x.stepTo ((x.tb.now : Int) + ps * tuPs).toNat
    else (x.wr F.WRS_STATUS_ADJ_REJECT 1).raise (eg 1 4)) :=
  if_neg (by simp [h])

theorem phaseCorrect_slews (hw : ps.natAbs ≤ s.servoBack.rd F.WRS_SLEW_WINDOW * 1000) : s.phaseCorrect ps =
    { s.servoBack with tb := { s.servoBack.tb with slewLeft := ps * tuPs } }.wr F.WRS_STATUS_SLEWING (if ps = 0 then 0 else 1) := by
  have hshown : b2n (decide (ps * (tuPs : Int) ≠ 0)) = if ps = 0 then 0 else 1 := by
    by_cases h0 : ps = 0 <;> simp [b2n, tuPs, h0]
  rw [← hshown]
  exact (phaseCorrect_selected h).trans (if_pos hw)

variable (hw : s.servoBack.rd F.WRS_SLEW_WINDOW * 1000 < ps.natAbs)
include hw

theorem phaseCorrect_steps (hc : s.servoBack.rd F.CAD_CTRL_EN = 0 ∨ s.servoBack.rd F.WRS_CTRL_STEP_EN ≠ 0) :
    s.phaseCorrect ps = s.servoBack.stepTo ((s.servoBack.tb.now : Int) + ps * tuPs).toNat :=
  (phaseCorrect_selected h).trans ((if_neg (not_le.mpr hw)).trans (if_pos (mayStep_of hc)))

theorem phaseCorrect_rejects (hc : s.servoBack.rd F.CAD_CTRL_EN ≠ 0) (hstep : s.servoBack.rd F.WRS_CTRL_STEP_EN = 0) :
    s.phaseCorrect ps = (s.servoBack.wr F.WRS_STATUS_ADJ_REJECT 1).raise (eg 1 4) :=
  (phaseCorrect_selected h).trans ((if_neg (not_le.mpr hw)).trans (if_neg (mayNotStep_of hc hstep)))

end Servo

theorem slewRate_pos (s : State) : 0 < s.slewRate := by unfold State.slewRate; positivity

/-- The rest of a slew takes the least whole nanoseconds in which RATE brings it. -/
theorem slewDone_on {s : State} (h : s.rd F.WRS_STATUS_SLEWING ≠ 0) {e : Nat} (he : s.tb.slewLeft.natAbs ≤ e * s.slewRate)
    (hleast : ∀ e', s.tb.slewLeft.natAbs ≤ e' * s.slewRate → e ≤ e') :
    s.slewDone = (s.advanceUp (s.tb.up + e)).wr F.WRS_STATUS_SLEWING 0 := by
  have hr := slewRate_pos s
  have htime : (s.tb.slewLeft.natAbs + (s.slewRate - 1)) / s.slewRate = e := by
    rw [← Nat.add_sub_assoc hr, ← Nat.ceilDiv_eq_add_pred_div]
    refine Nat.le_antisymm ((ceilDiv_le_iff_le_mul hr).mpr (by rwa [Nat.mul_comm])) (hleast _ ?_)
    rw [Nat.mul_comm]
    exact (ceilDiv_le_iff_le_mul hr).mp le_rfl
  simp [State.slewDone, State.on, h, htime]

/-! ### Time-set and PPS edges (R37, R43, R48) -/

theorem bar0Write_setCtrl {s : State} (hs : s.serves R.WRS_SET_CTRL.addr) {v : Word} (hgo : bitN v.toNat 0 = true) :
    s.bar0Write R.WRS_SET_CTRL.addr v = (s.hostPut R.WRS_SET_CTRL.addr v).timeSetGo := by
  rw [bar0Write_stores hs (by simp [State.fabGone]) (name := "WRS_SET_CTRL") (ix := []) (by decide +kernel) rfl rfl rfl]
  exact if_pos hgo

section TimeSet
variable {s : State}

theorem rd_nanoseconds_wr_go (s : State) (n : Nat) :
    (s.wr F.WRS_SET_CTRL_GO n).rd F.WRS_TIME_SET_NANOSECONDS = s.rd F.WRS_TIME_SET_NANOSECONDS :=
  rd_wr_apart _ _ _ _ (by decide)

theorem timeSetGo_outOfRange (hgo : s.rd F.WRS_SET_CTRL_GO = 0) (hn : 10 ^ 9 ≤ s.rd F.WRS_TIME_SET_NANOSECONDS) :
    s.timeSetGo = s.setErr :=
  (if_neg (by simp [State.on, hgo])).trans (if_pos hn)

variable (hn : s.rd F.WRS_TIME_SET_NANOSECONDS < 10 ^ 9)
include hn

theorem timeSetGo_arms (hgo : s.rd F.WRS_SET_CTRL_GO = 0) (hat : s.rd F.WRS_SET_CTRL_AT_PPS ≠ 0) :
    s.timeSetGo = s.wr F.WRS_SET_CTRL_GO 1 :=
  (if_neg (by simp [State.on, hgo])).trans ((if_neg (not_le.mpr hn)).trans (if_pos (by simp [State.on, hat])))

theorem timeSetGo_applies (hgo : s.rd F.WRS_SET_CTRL_GO = 0) (hat : s.rd F.WRS_SET_CTRL_AT_PPS = 0) :
    s.timeSetGo = s.timeSetApply :=
  (if_neg (by simp [State.on, hgo])).trans ((if_neg (not_le.mpr hn)).trans (if_neg (by simp [State.on, hat])))

/-- An applied time-set in range steps time unless Cadence forbids it; GO clears either way. -/
theorem timeSetApply_inRange : s.timeSetApply = (let x := s.wr F.WRS_SET_CTRL_GO 0
    if !x.on F.CAD_CTRL_EN || x.on F.WRS_CTRL_STEP_EN then x.stepTo x.timeSetValue else x.setErr) :=
  if_neg (by rw [rd_nanoseconds_wr_go]; exact not_le.mpr hn)

theorem timeSetApply_steps
    (hc : (s.wr F.WRS_SET_CTRL_GO 0).rd F.CAD_CTRL_EN = 0 ∨ (s.wr F.WRS_SET_CTRL_GO 0).rd F.WRS_CTRL_STEP_EN ≠ 0) :
    s.timeSetApply = (s.wr F.WRS_SET_CTRL_GO 0).stepTo (s.wr F.WRS_SET_CTRL_GO 0).timeSetValue :=
  (timeSetApply_inRange hn).trans (if_pos (mayStep_of hc))

theorem timeSetApply_rejects (hc : (s.wr F.WRS_SET_CTRL_GO 0).rd F.CAD_CTRL_EN ≠ 0)
    (hstep : (s.wr F.WRS_SET_CTRL_GO 0).rd F.WRS_CTRL_STEP_EN = 0) : s.timeSetApply = (s.wr F.WRS_SET_CTRL_GO 0).setErr :=
  (timeSetApply_inRange hn).trans (if_neg (mayNotStep_of hc hstep))

end TimeSet

/-- An edge now on PPS input `i` is the first of a new presence. -/
def State.ppsAnew (s : State) (i : Nat) : Prop :=
  s.ppsLast i = none ∨ s.refSeen i = none ∨ ∃ t, s.ppsLast i = some t ∧ t + 15 * 10 ^ 8 < s.tb.up

/-- An edge at elapsed time `up` is noted and captured, and DPLL A's loop takes it (R43, R45). -/
def State.ppsCaptured (u : State) (i up : Nat) : State :=
  let w := { u with tb := { u.tb with ppsAt := mset (fun _ => none) u.tb.ppsAt i (some up) } }
  let x := w.wrTime (R.WRS_PPS_IN_STAMP.at i) (stamp16 w.cap16)
  if x.ppsA = some i then x.loopFreq else x

/-- A time-set that waits for input `i` is applied (R48). -/
def State.armedApplied (y : State) (i : Nat) : State :=
  if y.on F.WRS_SET_CTRL_GO && decide (y.setPps = i) then y.timeSetApply else y

theorem armedApplied_armed {y : State} {i : Nat} (h : y.rd F.WRS_SET_CTRL_GO ≠ 0 ∧ y.setPps = i) :
    y.armedApplied i = y.timeSetApply :=
  if_pos (by simpa [State.on] using h)

theorem armedApplied_unarmed {y : State} {i : Nat} (h : ¬(y.rd F.WRS_SET_CTRL_GO ≠ 0 ∧ y.setPps = i)) : y.armedApplied i = y :=
  if_neg (by simpa [State.on] using h)

/-- The last edge on input `i` is more than 1.5 s ago, or there was none. -/
def State.ppsGap (s : State) (i : Nat) : Bool :=
  match s.ppsLast i with
  | some t => decide (t + 15 * 10 ^ 8 < s.tb.up)
  | none => true

/-- Input `i` is present, from this edge on where it is the first. -/
def State.ppsPresent (s : State) (i : Nat) : State :=
  if s.ppsGap i || (s.refSeen i).isNone then s.refSee i (some s.tb.up) else s

theorem ppsGap_iff (s : State) (i : Nat) :
    s.ppsGap i = true ↔ s.ppsLast i = none ∨ ∃ t, s.ppsLast i = some t ∧ t + 15 * 10 ^ 8 < s.tb.up := by
  unfold State.ppsGap
  split
  · next t ht => exact ⟨fun h => .inr ⟨t, ht, of_decide_eq_true h⟩, fun h => by
      obtain h | ⟨u, hu, h⟩ := h
      · cases ht.symm.trans h
      · cases ht.symm.trans hu
        exact decide_eq_true h⟩
  · next h => exact ⟨fun _ => .inl h, fun _ => rfl⟩

theorem ppsPresent_anew {s : State} {i : Nat} (h : s.ppsAnew i) : s.ppsPresent i = s.refSee i (some s.tb.up) := by
  refine if_pos ((Bool.or_eq_true _ _).mpr ?_)
  obtain hl | hr | ht := h
  · exact .inl ((ppsGap_iff s i).mpr (.inl hl))
  · exact .inr (Option.isNone_iff_eq_none.mpr hr)
  · exact .inl ((ppsGap_iff s i).mpr (.inr ht))

theorem ppsPresent_again {s : State} {i : Nat} (h : ¬s.ppsAnew i) : s.ppsPresent i = s := by
  refine if_neg fun hc => h ?_
  obtain hg | hr := (Bool.or_eq_true _ _).mp hc
  · exact ((ppsGap_iff s i).mp hg).imp_right .inr
  · exact .inr (.inl (Option.isNone_iff_eq_none.mp hr))

theorem ppsEdge_eq (s : State) (i : Nat) : s.ppsEdge i = ((s.ppsPresent i).ppsCaptured i s.tb.up).armedApplied i := rfl

/-! ### References and DPLLs (R42, R43) -/

section References
variable {s : State} {r : Nat}

/-- Time reaches the loss of reference `r`: 1.5 s after the last edge of a PPS input. -/
def State.atLoss (s : State) (r : Nat) : State :=
  if r < 2 then match s.ppsLast r with | some t => s.advanceUp (t + 15 * 10 ^ 8) | none => s else s

theorem atLoss_pps {t : Nat} (hr : r < 2) (hl : s.ppsLast r = some t) : s.atLoss r = s.advanceUp (t + 15 * 10 ^ 8) := by
  simp [State.atLoss, hr, hl]

theorem atLoss_now (h : 2 ≤ r ∨ s.ppsLast r = none) : s.atLoss r = s := by
  unfold State.atLoss
  split
  · next hr => rw [h.resolve_left (by omega)]
  · rfl

/-- Reference `r` is lost now, and DPLL B loses it where it follows it. -/
def State.refGone (w : State) (r : Nat) : State :=
  let u := (w.refSee r (if r < 2 then none else some w.tb.up)).setRef r false
  if u.refB = some r then u.loseB else u

/-- DPLL A has fallen back to the other PPS input. -/
def State.fallenBack (x : State) : State := { x.raise (eg 1 3) with tb := { x.tb with fellBack := !x.tb.fellBack } }

/-- DPLL A loses reference `r` where it follows it: it falls back where it may (R43). -/
def State.dpllALoses (x : State) (r : Nat) : State :=
  if x.ppsA = some r then (if x.on F.WRS_CTRL_PPS_FALLBACK && x.refOk (1 - r) then x.fallenBack else x.loseA) else x

theorem refLost_eq (s : State) (r : Nat) : s.refLost r = ((s.atLoss r).refGone r).dpllALoses r := rfl

theorem dpllALoses_unfollowed (h : s.ppsA ≠ some r) : s.dpllALoses r = s := if_neg h

theorem dpllALoses_fallsBack (h : s.ppsA = some r) (hf : s.rd F.WRS_CTRL_PPS_FALLBACK ≠ 0) (ho : s.refOk (1 - r) = true) :
    s.dpllALoses r = s.fallenBack := by simp [State.dpllALoses, State.on, h, hf, ho]

theorem dpllALoses_stays (h : s.ppsA = some r) (hn : s.rd F.WRS_CTRL_PPS_FALLBACK = 0 ∨ s.refOk (1 - r) = false) :
    s.dpllALoses r = s.loseA := by
  obtain hf | ho := hn
  · simp [State.dpllALoses, State.on, h, hf]
  · simp [State.dpllALoses, h, ho]

theorem refQualified_absent (hr : r < 2) (h : s.refSeen r = none) : s.refQualified r = s := if_pos ⟨hr, h⟩

theorem refQualified_present (h : 2 ≤ r ∨ s.refSeen r ≠ none) : s.refQualified r =
    (let w := (s.advanceUp ((s.refSeen r).getD 0 + 2 * 10 ^ 9)).setRef r true
    let u := if r = 2 then w.followC else w
    let x := if u.refB = some r then u.gainB else u
    if x.ppsA = some r then x.gainA else x) :=
  if_neg fun ⟨hr, hn⟩ => h.elim (by omega) (· hn)

end References

theorem dpllLock_A {s : State} (h : s.rd F.WRS_STATUS_DPLLA_STATE = dACQUIRE) :
    s.dpllLock false = (let x := s.dpllA dLOCKED; if x.servo then x.noteFreq else x.loopFreq) := if_pos h

theorem dpllLock_A_idle {s : State} (h : s.rd F.WRS_STATUS_DPLLA_STATE ≠ dACQUIRE) : s.dpllLock false = s := if_neg h

theorem dpllLock_B {s : State} (h : s.rd F.WRS_STATUS_DPLLB_STATE = dACQUIRE) : s.dpllLock true = (s.dpllB dLOCKED).followB :=
  if_pos h

theorem dpllLock_B_idle {s : State} (h : s.rd F.WRS_STATUS_DPLLB_STATE ≠ dACQUIRE) : s.dpllLock true = s := if_neg h

/-- The outcome of a servo write that DPLL A's frequency has taken (R42). -/
def thenServoBack (s : State) : Out1 := .next s.servoBack

/-- The lowest bit of a word with 1 or-ed in. -/
theorem bitN_or_one (v : Word) : bitN (v ||| 1).toNat 0 = true := by simp [bitN]

/-- Settles O34: each event by the rule of its operation. -/
theorem timeIsSteeredByItsRules : Obligations.TimeIsSteeredByItsRules := by
  unfold Obligations.TimeIsSteeredByItsRules
  intro s
  refine ⟨fun v hs => ?_, fun v hs => ?_, fun h e he hleast => congrArg Host.Outcome.next (slewDone_on h he hleast), fun v hs => ?_,
    fun hd => ⟨fun n => ?_, fun r w hw hw' => ?_, fun r => ?_⟩,
    ⟨fun h => congrArg Host.Outcome.next (dpllLock_A h), fun h => congrArg Host.Outcome.next (dpllLock_A_idle h)⟩,
    fun h => congrArg Host.Outcome.next (dpllLock_B h), fun h => congrArg Host.Outcome.next (dpllLock_B_idle h)⟩
  · have hexec : exec (.adjFreqWrite v) s = .next (s.hostPut R.WRS_ADJ_FREQ.addr v).adjFreqWritten :=
      congrArg Host.Outcome.next (bar0Write_adjFreq hs v)
    intro u f put clamped
    rw [hexec]
    refine ⟨fun h => congrArg _ (adjFreqWritten_unselected h), fun h => ?_⟩
    rw [adjFreqWritten_selected h]
    exact ⟨fun h1 h2 => congrArg thenServoBack (applyFreq_within h1 h2), fun h1 => congrArg thenServoBack (applyFreq_above h1),
      fun h1 => congrArg thenServoBack (applyFreq_below h1)⟩
  · have hexec : exec (.phaseCorrection v) s = .next (let u := s.pairPut R.WRS_ADJ_PHASE.addr v
        u.phaseCorrect (sx 64 (u.rd64 R.WRS_ADJ_PHASE))) := congrArg Host.Outcome.next (bar0Write_adjPhase hs v)
    intro u p x
    rw [hexec]
    exact ⟨fun h => congrArg _ (phaseCorrect_unselected h _), fun h => ⟨fun hw => congrArg _ (phaseCorrect_slews h hw),
      fun hw => ⟨fun hc => congrArg _ (phaseCorrect_steps h hw hc), fun hc hstep => congrArg _ (phaseCorrect_rejects h hw hc hstep)⟩⟩⟩
  · have hexec : exec (.timeSetGo v) s = .next (s.hostPut R.WRS_SET_CTRL.addr (v ||| 1)).timeSetGo :=
      congrArg Host.Outcome.next (bar0Write_setCtrl hs (bitN_or_one v))
    intro u x err hgo
    rw [hexec]
    refine ⟨fun hn => congrArg _ (timeSetGo_outOfRange hgo hn), fun hn => ⟨fun hat => congrArg _ (timeSetGo_arms hn hgo hat),
      fun hat hc => ?_, fun hat hc hstep => ?_⟩⟩
    · exact congrArg _ ((timeSetGo_applies hn hgo hat).trans (timeSetApply_steps hn hc))
    · exact congrArg _ ((timeSetGo_applies hn hgo hat).trans (timeSetApply_rejects hn hc hstep))
  · have hexec : exec (.ppsInEdge n) s = .next (s.ppsEdge n.val) := congrArg Host.Outcome.next (if_neg (by simp [hd]))
    intro up anew u hu hu' w x y armed
    have hpresent : s.ppsPresent n.val = u := by
      by_cases h : s.ppsAnew n.val
      · exact (ppsPresent_anew h).trans (hu h).symm
      · exact (ppsPresent_again h).trans (hu' h).symm
    have hedge : s.ppsEdge n.val = y.armedApplied n.val := by
      rw [ppsEdge_eq, hpresent]
      rfl
    rw [hexec, hedge]
    exact ⟨fun h => congrArg _ (armedApplied_armed h), fun h => congrArg _ (armedApplied_unarmed h)⟩
  · have hexec : exec (.refLost r) s = .next (s.refLost r.val) := congrArg Host.Outcome.next (if_neg (by simp [hd]))
    have hloss : s.atLoss r.val = w := by
      by_cases h : 2 ≤ r.val ∨ s.ppsLast r.val = none
      · exact (atLoss_now h).trans (hw' h).symm
      · simp only [not_or, not_le] at h
        obtain ⟨hr, hl⟩ := h
        obtain ⟨t, ht⟩ := Option.ne_none_iff_exists'.mp hl
        exact (atLoss_pps hr ht).trans (hw hr t ht).symm
    rw [hexec, refLost_eq, hloss]
    exact ⟨fun h => congrArg _ (dpllALoses_unfollowed h), fun h => ⟨fun hf ho => congrArg _ (dpllALoses_fallsBack h hf ho),
      fun hn => congrArg _ (dpllALoses_stays h hn)⟩⟩
  · have hexec : exec (.refQualified r) s = .next (s.refQualified r.val) := congrArg Host.Outcome.next (if_neg (by simp [hd]))
    rw [hexec]
    exact ⟨fun hr h => congrArg _ (refQualified_absent hr h), fun h => congrArg _ (refQualified_present h)⟩

/-! ### Cadence (R63–R65, R73) -/

theorem bar0Write_cadCtrl {s : State} (hs : s.serves R.CAD_CTRL.addr) (v : Word) :
    s.bar0Write R.CAD_CTRL.addr v = s.cadEn (bitN v.toNat 0) :=
  bar0Write_taken hs (by simp [State.fabGone]) (name := "CAD_CTRL") (ix := []) (by decide +kernel) rfl rfl _

theorem bar0Write_cadPeriod {s : State} (hs : s.serves R.CAD_PERIOD.addr) (v : Word) :
    s.bar0Write R.CAD_PERIOD.addr v = s.shpSettle.cadPeriod (v.toNat % 2 ^ 20) :=
  bar0Write_taken hs (by simp [State.fabGone]) (name := "CAD_PERIOD") (ix := []) (by decide +kernel) rfl rfl _

theorem bar0Write_cadPhase {s : State} (hs : s.serves R.CAD_PHASE.addr) (v : Word) :
    s.bar0Write R.CAD_PHASE.addr v = s.cadPhase (v.toNat % 2 ^ 20) :=
  bar0Write_taken hs (by simp [State.fabGone]) (name := "CAD_PHASE") (ix := []) (by decide +kernel) rfl rfl _

section Cadence
variable {s : State} {v : Nat}

theorem cadEn_starts (ht : s.rd F.WRS_STATUS_TIME_SET ≠ 0) (he : s.rd F.CAD_CTRL_EN = 0) : s.cadEn true =
    (let u := s.wr F.CAD_CTRL_EN 1; { u with tb := { u.tb with nextTick := u.tickFrom (u.t16 + 2000 * 65536) } }) := by
  simp [State.cadEn, State.on, ht, he]

theorem cadEn_timeless (ht : s.rd F.WRS_STATUS_TIME_SET = 0) : s.cadEn true = s.cadCfgErr := by
  simp [State.cadEn, State.on, ht]

theorem cadEn_started (ht : s.rd F.WRS_STATUS_TIME_SET ≠ 0) (he : s.rd F.CAD_CTRL_EN ≠ 0) : s.cadEn true = s := by
  simp [State.cadEn, State.on, ht, he]

theorem cadEn_stops (s : State) : s.cadEn false = (s.thaw.wr F.CAD_CTRL_EN 0).wr F.CAD_STATUS_RUNNING 0 := rfl

/-- A period is taken when Cadence is off and it is in range and above the phase (R64). -/
def State.periodGood (s : State) (v : Nat) : Prop :=
  s.rd F.CAD_CTRL_EN = 0 ∧ 250 ≤ v ∧ v ≤ 1000000 ∧ s.rd F.CAD_PHASE_PHASE < v

theorem cadPeriod_good (h : s.periodGood v) : s.cadPeriod v = s.wr F.CAD_PERIOD_PERIOD v := by
  obtain ⟨he, h1, h2, h3⟩ := h
  simp [State.cadPeriod, State.on, he, not_lt.mpr h1, not_lt.mpr h2, not_le.mpr h3]

theorem cadPeriod_bad (h : ¬s.periodGood v) : s.cadPeriod v = s.cadCfgErr := by
  refine if_pos ?_
  simp only [State.periodGood, State.on, Bool.or_eq_true, decide_eq_true_eq] at h ⊢
  omega

theorem cadPhase_good (h : s.rd F.CAD_CTRL_EN = 0 ∧ v < s.rd F.CAD_PERIOD_PERIOD) : s.cadPhase v = s.wr F.CAD_PHASE_PHASE v := by
  simp [State.cadPhase, State.on, h.1, not_le.mpr h.2]

theorem cadPhase_bad (h : ¬(s.rd F.CAD_CTRL_EN = 0 ∧ v < s.rd F.CAD_PERIOD_PERIOD)) : s.cadPhase v = s.cadCfgErr := by
  refine if_pos ?_
  simp only [State.on, Bool.or_eq_true, decide_eq_true_eq]
  omega

/-! ### A tick (R63, R65) -/

/-- A 64-bit register is a function of the register map alone. -/
theorem rd64_congr {s t : State} (h : t.regs = s.regs) (r : Reg) : t.rd64 r = s.rd64 r := by simp [State.rd64, rdw_congr h]

/-- Time has reached the next tick, and its number and RUNNING show. -/
def State.tickShown (s : State) : State :=
  ((s.advanceTo (s.tickNs s.tb.nextTick * tuNs)).wr64 R.CAD_TICK s.tb.nextTick).wr F.CAD_STATUS_RUNNING 1

theorem issueTick_regs (s : State) : s.issueTick.regs = s.tickShown.regs := rfl

theorem nextTick_issueTick (s : State) : s.issueTick.tb.nextTick = s.tb.nextTick + 1 := rfl

theorem tick_issueTick (s : State) : s.issueTick.tick = s.tb.nextTick % 2 ^ 64 := by
  rw [State.tick, rd64_congr (issueTick_regs s), State.tickShown, rd64_wr_ne _ _ _ _ (by decide), rd64_wr64_same]

theorem running_issueTick (s : State) : s.issueTick.rd F.CAD_STATUS_RUNNING = 1 := by
  rw [rd_congr (issueTick_regs s), State.tickShown]
  exact rd_wr_same _ _ _ (by decide)

/-- The interval before the tick is closed and the tick issued; its own interval is open and waiting lane delays are in use. -/
def State.tickOpened (s : State) : State :=
  let u := s.closeInterval.issueTick
  { u with ev := { u.ev with open_ := some u.tick } }.newTick.calApply

section Tick
variable (he : s.rd F.CAD_CTRL_EN ≠ 0) (hd : s.inMode mDORMANT = false)
include he hd

theorem cadTick_issues : s.cadTick = (if s.tickOpened.inMode mRUN then s.tickOpened.runTick s.closeInterval.issueTick.tick
    else if s.tickOpened.inMode mLULL then s.tickOpened.galTicks [0] else s.tickOpened).thaw :=
  if_neg (by simp [State.on, he, hd])

theorem cadTick_run (h : s.tickOpened.inMode mRUN = true) :
    s.cadTick = (s.tickOpened.runTick s.closeInterval.issueTick.tick).thaw := by rw [cadTick_issues he hd, if_pos h]

theorem cadTick_lull (h : s.tickOpened.inMode mLULL = true) : s.cadTick = (s.tickOpened.galTicks [0]).thaw := by
  have hrun : ¬s.tickOpened.inMode mRUN = true := by
    rw [State.inMode, beq_iff_eq] at h ⊢
    rw [h]
    decide
  rw [cadTick_issues he hd, if_neg hrun, if_pos h]

theorem cadTick_other (hr : s.tickOpened.inMode mRUN = false) (hl : s.tickOpened.inMode mLULL = false) :
    s.cadTick = s.tickOpened.thaw := by
  rw [cadTick_issues he hd, if_neg (by simp [hr]), if_neg (by simp [hl])]

end Tick

end Cadence

/-! ### Outputs of time (R36, R53, R60, R79) -/

theorem ppsOut_pulse {s : State} {n : Nat} (hm : s.inMode mRUN = true ∨ s.inMode mLULL = true)
    (he : s.rd (F.WRS_PPS_OUT_EN.at n) ≠ 0) (ht : s.rd F.WRS_STATUS_TIME_SET ≠ 0) : s.ppsOut n =
    (let sec := (s.ns + (10 ^ 9 - 1)) / 10 ^ 9
    let u := s.advanceTo (sec * 10 ^ 9 * tuNs)
    u.emit (.ppsOut n ((sec * 10 ^ 9 * 65536 : Int) + sx 16 (u.rd (F.WRS_PPS_OUT_OFFSET.at n)) * 2048)
      (max 1 (u.rd (F.WRS_PPS_OUT_WIDTH.at n))))) :=
  if_pos (by simp [State.on, hm, he, ht])

@[simp] theorem showTsf_tsf (s : State) : s.showTsf.tsf = s.tsf := by
  unfold State.showTsf
  dsimp only
  split <;> rfl

/-- LEVEL shows the entries of the two-step FIFO. -/
theorem rd_tsfLevel_showTsf (s : State) : s.showTsf.rd F.WRS_TSF_STATUS_LEVEL = s.tsf.length % 2 ^ 13 := by
  have hword {u : State} {k : Nat} {w : Word} (hk : k < 16) :
      (u.wrw (R.WRS_TSF.addr + k) w).rd F.WRS_TSF_STATUS_LEVEL = u.rd F.WRS_TSF_STATUS_LEVEL :=
    rd_wrw_ne _ _ _ _ (by simp only [F.WRS_TSF_STATUS_LEVEL, R.WRS_TSF]; omega)
  have hlevel : (s.wr F.WRS_TSF_STATUS_LEVEL s.tsf.length).rd F.WRS_TSF_STATUS_LEVEL = s.tsf.length % 2 ^ 13 :=
    rd_wr_same _ _ _ (by decide)
  rw [← hlevel]
  unfold State.showTsf
  dsimp only
  split
  · rw [hword (by omega), hword (by omega), hword (by omega)]
    exact hword (k := 0) (by omega)
  · rw [hword (by omega), hword (by omega), hword (by omega)]
    exact hword (k := 0) (by omega)

/-- A read of the last word of WRS_TSF completes and pops the two-step FIFO. -/
theorem bar0Read_tsf {s : State} (hs : s.serves (R.WRS_TSF.addr + 12)) :
    ∃ w, s.bar0Read (R.WRS_TSF.addr + 12)
      = (s.rcClear (R.WRS_TSF.addr + 12)).tsfPop.emit (.read (R.WRS_TSF.addr + 12) w) :=
  bar0Read_word hs (by simp [State.fabGone]) (name := "WRS_TSF") (ix := []) (by decide +kernel)

/-- A word without RC fields is left by a read. -/
theorem rcCleared_of_none {fs : List RField} (h : ∀ f ∈ fs, f.acc ≠ .rc) (w : Word) : rcCleared fs w = w := by
  unfold rcCleared
  induction fs generalizing w with
  | nil => rfl
  | cons f fs ih =>
    rw [List.foldl_cons, if_neg (h f List.mem_cons_self)]
    exact ih (fun g hg => h g (List.mem_cons_of_mem _ hg)) w

theorem rdw_rcClear_of_none (s : State) {a : Nat} (h : ∀ f ∈ fieldsAt a, f.acc ≠ .rc) (x : Nat) :
    (s.rcClear a).rdw x = s.rdw x := by
  rw [State.rcClear, rcCleared_of_none h, rdw_wrw]
  split
  · next hx => rw [hx]
  · rfl

/-- The four words of a written time. -/
theorem rdw_wrTime (s : State) (r : Reg) (t : Nat) {i : Nat} (hi : i < 4) :
    (s.wrTime r t).rdw (r.addr + 4 * i) = (timeWords t).getD i 0 := by
  simp only [State.wrTime, timeWords, rdw_wrw]
  obtain rfl | rfl | rfl | rfl : i = 0 ∨ i = 1 ∨ i = 2 ∨ i = 3 := by omega
  all_goals simp

/-- A read of WRS_TIME completes with all four words at the present time. -/
theorem bar0Read_time {s : State} (hs : s.serves R.WRS_TIME.addr) :
    ∃ w, s.bar0Read R.WRS_TIME.addr = ((s.wrTime R.WRS_TIME s.t16).rcClear R.WRS_TIME.addr).emit (.read R.WRS_TIME.addr w) :=
  bar0Read_word hs (by simp [State.fabGone]) (name := "WRS_TIME") (ix := []) (by decide +kernel)

theorem recal_on {s : State} (h : s.rd F.WRS_CAL_EN ≠ 0) (l : List LaneCal) : s.recal l =
    (let u := s.advanceUp (s.tb.calAt + s.rd F.WRS_CAL_INTERVAL * 10 ^ 6)
    let old := u.tb.calNext.filter (fun c => !l.any (fun d => d.lane == c.lane))
    { u.wrapInc F.WRS_CAL_STATUS_PASSES with tb := { u.tb with calNext := old ++ l, calAt := u.tb.up } }) :=
  if_neg (by simp [State.on, h])

theorem recal_off {s : State} (h : s.rd F.WRS_CAL_EN = 0) (l : List LaneCal) : s.recal l = s :=
  if_pos (by simp [State.on, h])

/-- Settles O35: each event by the rule of its operation. -/
theorem cadenceAndTimeOutputsFollowTheirRules : Obligations.CadenceAndTimeOutputsFollowTheirRules := by
  unfold Obligations.CadenceAndTimeOutputsFollowTheirRules
  intro s
  refine ⟨fun hs => ?_, fun v hs => ?_, fun v hs => ?_, fun he hd => ?_,
    fun n hm he ht => congrArg Host.Outcome.next (ppsOut_pulse hm he ht),
    fun hs => ?_, fun hs => ?_, fun l hd he => ?_, fun l he => ?_⟩
  · have hexec {v : Word} {b : Bool} (hv : v.getLsbD 0 = b) : exec (.cadEnWrite v) s = .next (s.cadEn b) :=
      congrArg Host.Outcome.next ((bar0Write_cadCtrl hs v).trans (congrArg s.cadEn hv))
    refine ⟨fun v hv => ⟨fun ht he => ?_, fun ht => ?_⟩, fun v hv => ?_, fun v hv ht he => ?_⟩
    · exact (hexec hv).trans (congrArg _ (cadEn_starts ht he))
    · exact (hexec hv).trans (congrArg _ (cadEn_timeless ht))
    · exact (hexec hv).trans (congrArg _ (cadEn_stops s))
    · exact (hexec hv).trans (congrArg _ (cadEn_started ht he))
  · have hexec : exec (.cadPeriodWrite v) s = .next (s.shpSettle.cadPeriod (v.toNat % 2 ^ 20)) :=
      congrArg Host.Outcome.next (bar0Write_cadPeriod hs v)
    intro n u good
    rw [hexec]
    exact ⟨fun h => congrArg _ (cadPeriod_good h), fun h => congrArg _ (cadPeriod_bad h)⟩
  · have hexec : exec (.cadPhaseWrite v) s = .next (s.cadPhase (v.toNat % 2 ^ 20)) :=
      congrArg Host.Outcome.next (bar0Write_cadPhase hs v)
    intro n good
    rw [hexec]
    exact ⟨fun h => congrArg _ (cadPhase_good h), fun h => congrArg _ (cadPhase_bad h)⟩
  · exact ⟨tick_issueTick _, nextTick_issueTick _, running_issueTick _, fun h => congrArg Host.Outcome.next (cadTick_run he hd h),
      fun h => congrArg Host.Outcome.next (cadTick_lull he hd h), fun hr hl => congrArg Host.Outcome.next (cadTick_other he hd hr hl)⟩
  · obtain ⟨w, hread⟩ := bar0Read_tsf hs
    refine ⟨_, congrArg Host.Outcome.next hread, showTsf_tsf _, ?_⟩
    rw [rd_emit, State.tsfPop, rd_tsfLevel_showTsf, List.length_tail]
    rfl
  · obtain ⟨w, hread⟩ := bar0Read_time hs
    refine ⟨_, congrArg Host.Outcome.next hread, fun i hi => ?_⟩
    rw [rdw_emit, rdw_rcClear_of_none _ (by decide +kernel), rdw_wrTime _ _ _ hi]
  · have hexec : exec (.backgroundRecal l) s = .next (s.recal l) := congrArg Host.Outcome.next (if_neg (by simp [hd]))
    exact hexec.trans (congrArg _ (recal_on he l))
  · have hexec : exec (.backgroundRecal l) s = .next (if s.inMode mDORMANT then s else s.recal l) := rfl
    rw [hexec, recal_off he, ite_self]

/-! ### Frames at the MAC (R146, R147, R152, R156–R158) -/

/-- A received frame without its FCS. -/
def frameBody (f : Bytes) : Bytes := f.take (f.length - 4)

/-- The packet of a frame received on `lane` (R38). -/
def State.rxPkt (s : State) (port lane : Nat) (f : Bytes) : Pkt :=
  let l := s.portLane port lane
  { bytes := frameBody f, port := port, slice := s.portSlice port, stamp := s.ingressStamp l, stamped := true, lane := l }

/-- The bytes hold a PTP event message. -/
def State.ptpEventIn (s : State) (b : Bytes) : Bool :=
  match ptpHdr (s.parse b).1 with | some h => ptpEvent b (s.parse b).1 h | none => false

theorem ptpEventIn_iff (s : State) (b : Bytes) :
    s.ptpEventIn b = true ↔ ∃ h, ptpHdr (s.parse b).1 = some h ∧ ptpEvent b (s.parse b).1 h = true := by
  unfold State.ptpEventIn
  cases ptpHdr (s.parse b).1 <;> simp

/-- The port is up in a mode that carries frames. -/
def State.rxUp (s : State) (port : Nat) : Bool := s.adminUp port && (s.inMode mRUN || s.inMode mLULL)

/-- A frame with a bad FCS whose PTP event message has begun to leave: a cut-through port (R147). -/
def State.cutsThrough (s : State) (port : Nat) (b : Bytes) : Bool :=
  s.ptpEventIn b && (s.ptpMode port == 3 || s.ptpMode port == 4) && s.rxUp port

section Receive
variable {s : State} {port lane : Nat} {f : Bytes} {e1 e2 : PassEnv}

theorem receive_deaf (h : s.receives port = false) : s.receive port lane f e1 e2 = s := by simp [State.receive, h]

variable (hr : s.receives port = true)
include hr

section Channel
variable (hp : 146 ≤ port)
include hp

theorem receive_channel : s.receive port lane f e1 e2 =
    if f.length < 64 ∨ 9216 < f.length ∨ !fcsGood f ∨ !s.inMode mRUN then s.pcCnt port true
    else if etherType (frameBody f) = 0x8808 then s.pcCnt port true
    else ((s.pcCnt port false).bwAdd port false (frameBody f).length (s.rxPkt port lane f).stamp).pipeline
      (s.rxPkt port lane f) e1 e2 :=
  (if_neg (by simp [hr])).trans (if_pos hp)

theorem receive_channel_bad
    (hb : f.length < 64 ∨ 9216 < f.length ∨ fcsGood f = false ∨ s.inMode mRUN = false ∨ etherType (frameBody f) = 0x8808) :
    s.receive port lane f e1 e2 = s.pcCnt port true := by
  rw [receive_channel hr hp]
  simp only [Bool.not_eq_true']
  split
  · rfl
  · exact if_pos (by tauto)

theorem receive_channel_good
    (hb : ¬(f.length < 64 ∨ 9216 < f.length ∨ fcsGood f = false ∨ s.inMode mRUN = false ∨ etherType (frameBody f) = 0x8808)) :
    s.receive port lane f e1 e2 = (((s.pcCnt port false).bwAdd port false (frameBody f).length (s.rxPkt port lane f).stamp).pipeline
      (s.rxPkt port lane f) e1 e2) := by
  rw [receive_channel hr hp]
  simp only [Bool.not_eq_true']
  exact (if_neg (by tauto)).trans (if_neg (by tauto))

end Channel

variable (hp : port < 146)
include hp

theorem receive_short (h : f.length < 64) : s.receive port lane f e1 e2 = s.lpt port 3 :=
  (if_neg (by simp [hr])).trans ((if_neg (not_le.mpr hp)).trans (if_pos h))

variable (hmin : 64 ≤ f.length)
include hmin

theorem receive_long (h : s.rd (F.LPT_MAC_CFG_MAX_LEN.at port) < f.length) : s.receive port lane f e1 e2 = s.lpt port 4 :=
  (if_neg (by simp [hr])).trans ((if_neg (not_le.mpr hp)).trans ((if_neg (not_lt.mpr hmin)).trans (if_pos h)))

variable (hmax : f.length ≤ s.rd (F.LPT_MAC_CFG_MAX_LEN.at port))
include hmax

/-- The checks of a frame of legal length, in their order. -/
theorem receive_sized : s.receive port lane f e1 e2 =
    if !fcsGood f then
      (if s.cutsThrough port (frameBody f) && (s.lpt port 2).inMode mRUN && !(s.lpt port 2).byIdles port then
        (s.lpt port 2).pipeline { s.rxPkt port lane f with badFcs := true } e1 e2
      else s.lpt port 2)
    else if !s.rxUp port then s.lpt port 5
    else if etherType (frameBody f) = 0x8808 then
      (if s.pfcOn port && isPfc (frameBody f) then s.pfcReceive port (frameBody f) (s.rxPkt port lane f).stamp else s.lpt port 6)
    else s.macDeliver port (s.rxPkt port lane f) e1 e2 :=
  (if_neg (by simp [hr])).trans ((if_neg (not_le.mpr hp)).trans ((if_neg (not_lt.mpr hmin)).trans (if_neg (not_lt.mpr hmax))))

theorem receive_badFcs (h : fcsGood f = false) : s.receive port lane f e1 e2 =
    if s.cutsThrough port (frameBody f) && (s.lpt port 2).inMode mRUN && !(s.lpt port 2).byIdles port then
      (s.lpt port 2).pipeline { s.rxPkt port lane f with badFcs := true } e1 e2
    else s.lpt port 2 :=
  (receive_sized hr hp hmin hmax).trans (if_pos (by simp [h]))

variable (hfcs : fcsGood f = true)
include hfcs

theorem receive_down (h : s.rxUp port = false) : s.receive port lane f e1 e2 = s.lpt port 5 :=
  (receive_sized hr hp hmin hmax).trans ((if_neg (by simp [hfcs])).trans (if_pos (by simp [h])))

variable (hup : s.rxUp port = true)
include hup

theorem receive_control (he : etherType (frameBody f) = 0x8808) : s.receive port lane f e1 e2 =
    if s.pfcOn port && isPfc (frameBody f) then s.pfcReceive port (frameBody f) (s.rxPkt port lane f).stamp else s.lpt port 6 :=
  (receive_sized hr hp hmin hmax).trans ((if_neg (by simp [hfcs])).trans ((if_neg (by simp [hup])).trans (if_pos he)))

theorem receive_data (he : etherType (frameBody f) ≠ 0x8808) :
    s.receive port lane f e1 e2 = s.macDeliver port (s.rxPkt port lane f) e1 e2 :=
  (receive_sized hr hp hmin hmax).trans ((if_neg (by simp [hfcs])).trans ((if_neg (by simp [hup])).trans (if_neg he)))

end Receive

theorem rxUp_iff (s : State) (port : Nat) :
    s.rxUp port = true ↔ s.adminUp port = true ∧ (s.inMode mRUN = true ∨ s.inMode mLULL = true) := by simp [State.rxUp]

theorem cutsThrough_iff (s : State) (port : Nat) (b : Bytes) : s.cutsThrough port b = true ↔
    (∃ h, ptpHdr (s.parse b).1 = some h ∧ ptpEvent b (s.parse b).1 h = true) ∧ (s.ptpMode port = 3 ∨ s.ptpMode port = 4)
      ∧ s.adminUp port = true ∧ (s.inMode mRUN = true ∨ s.inMode mLULL = true) := by
  simp only [State.cutsThrough, Bool.and_eq_true, Bool.or_eq_true, beq_iff_eq, ptpEventIn_iff, rxUp_iff, and_assoc]

theorem isTether_iff {p : Nat} (hp : p < 146) : isTether p = decide (144 ≤ p) := by
  rw [Bool.eq_iff_iff]
  simp only [isTether, Bool.or_eq_true, beq_iff_eq, decide_eq_true_eq]
  omega

section Deliver
variable {s : State} {port : Nat} {p : Pkt} {e1 e2 : PassEnv}

/-- A line port discards a management frame. -/
theorem macDeliver_managementOnLine (he : etherType p.bytes = 0x88B6) (hp : port < 144) :
    s.macDeliver port p e1 e2 = s.lpt port 5 := by
  have ht : isTether port = false := by rw [isTether_iff (by omega)]; simpa using hp
  simp [State.macDeliver, he, ht]

theorem macDeliver_management (he : etherType p.bytes = 0x88B6) (hp : 144 ≤ port) (hp' : port < 146)
    (hen : s.rd (F.LPT_CTRL_TMGMT_EN.at port) ≠ 0) (hl : s.link port = true)
    (ha : beN p.bytes 0 6 = s.rd64 (R.LPT_STATION_ADDR.at port)) : s.macDeliver port p e1 e2 = s.puntPacket 6 p := by
  have ht : isTether port = true := by rw [isTether_iff hp']; simpa using hp
  simp [State.macDeliver, State.on, he, ht, hen, hl, ha]

theorem macDeliver_idle (he : etherType p.bytes ≠ 0x88B6) (hi : s.byIdles port = true) :
    s.macDeliver port p e1 e2 = s.lpt port 5 := by
  simp [State.macDeliver, he, hi]

/-- A good frame at a line port outside LULL is counted and goes through the pipeline. -/
theorem macDeliver_onLine (he : etherType p.bytes ≠ 0x88B6) (hp : port < 144)
    (hl : (((s.lpt port 0).lpt port 1 (p.bytes.length + 4)).bwAdd port false p.bytes.length p.stamp).inMode mLULL = false) :
    s.macDeliver port p e1 e2
      = (((s.lpt port 0).lpt port 1 (p.bytes.length + 4)).bwAdd port false p.bytes.length p.stamp).pipeline p e1 e2 := by
  have ht : isTether port = false := by rw [isTether_iff (by omega)]; simpa using hp
  simp [State.macDeliver, State.byIdles, he, ht, hl]

end Deliver

/-! ### Priority flow control (R153, R154, R159) -/

theorem pauseExpired_some {s : State} {port pri : Nat}
    (h : s.pauses.filter (fun x => x.port == port && x.pri == pri) ≠ []) : s.pauseExpired port pri =
    (let l := s.pauses.filter (fun x => x.port == port && x.pri == pri)
    let u := s.advanceTo (l.foldl (fun m x => max m x.stop) 0 * tuFrac)
    { u with pauses := u.pauses.filter (fun x => !(x.port == port && x.pri == pri)) }.showPaused port) := by
  unfold State.pauseExpired
  split
  · next he => exact absurd he h
  · rfl

section Pfc
variable {s : State} {port : Nat} (hon : s.pfcOn port = true) (hm : s.mayStartFrame port = true)
include hon hm

theorem pfcBoundary_due (h : (s.pst port).pfcDue ≠ 0 ∨ (s.pst port).pfcRel ≠ 0) :
    s.pfcBoundary port = s.sendPfc port ((s.pst port).xoff &&& (s.pst port).pfcDue) (s.pst port).pfcRel :=
  if_pos (by simpa [hon, hm] using h)

theorem pfcRefresh_xoff (h : (s.pst port).xoff ≠ 0) : s.pfcRefresh port =
    (s.advanceUp ((s.pst port).pfcAt + max 1 (s.rd (F.LPT_PFC_REFRESH_REFRESH.at port)) * 1000)).sendPfc port (s.pst port).xoff
      (s.pst port).pfcRel :=
  if_pos (by simp [hon, hm, h])

end Pfc

theorem pfcStorm_paused {s : State} {port t a : Nat} (hp : port < 144) (ha : s.pausedSince port t = some a)
    (h : (s.advanceTo ((a + 10 ^ 8 * 65536 + 1) * tuFrac)).paused port t = true) :
    s.pfcStorm port t = (s.advanceTo ((a + 10 ^ 8 * 65536 + 1) * tuFrac)).portEvt port F.LPT_EVT_PFC_STORM := by
  unfold State.pfcStorm
  rw [ha]
  exact if_pos (by rw [h, decide_eq_true hp]; rfl)

theorem pfcStorm_over {s : State} {port t a : Nat} (ha : s.pausedSince port t = some a)
    (h : (s.advanceTo ((a + 10 ^ 8 * 65536 + 1) * tuFrac)).paused port t = false) : s.pfcStorm port t = s := by
  unfold State.pfcStorm
  rw [ha]
  exact if_neg (by rw [h, Bool.and_false]; exact Bool.false_ne_true)

/-- Settles O42: a frame by the checks of the MAC in their order, the PFC events each by the rule of its operation. -/
theorem framesAreCheckedAndPfcIsServed : Obligations.FramesAreCheckedAndPfcIsServed := by
  unfold Obligations.FramesAreCheckedAndPfcIsServed
  intro s
  refine ⟨fun r port lane f e1 e2 part => ?_, fun p pri hl => congrArg Host.Outcome.next (pauseExpired_some hl),
    fun p hon hm => ⟨fun h => congrArg Host.Outcome.next (pfcBoundary_due hon hm h),
      fun h => congrArg Host.Outcome.next (pfcRefresh_xoff hon hm h)⟩,
    fun p t a ha => ⟨fun h => congrArg Host.Outcome.next (pfcStorm_paused p.isLt ha h),
      fun h => congrArg Host.Outcome.next (pfcStorm_over ha h)⟩⟩
  intro s n b l p c
  have hexec : exec c r = .next (s.receive n lane.val f e1 e2) := rfl
  rw [hexec]
  refine ⟨fun h => congrArg _ (receive_deaf h), fun hr hn => ⟨fun h => congrArg _ (receive_short hr hn h),
    fun hmin h => congrArg _ (receive_long hr hn hmin h), fun hmin hmax => ?_⟩,
    fun hr hn => ⟨fun hb => congrArg _ (receive_channel_bad hr hn hb), fun hb => congrArg _ (receive_channel_good hr hn hb)⟩⟩
  intro up event through
  refine ⟨fun hfcs => ?_, fun hfcs hdown => ?_, fun hfcs hup he => ?_, fun hfcs hup he => ?_, fun hfcs hup hc he => ?_⟩
  · have hbad := receive_badFcs (lane := lane.val) (e1 := e1) (e2 := e2) hr hn hmin hmax hfcs
    refine ⟨fun hno => ?_, fun ⟨hev, hmode, hadm, hrun, hidle, hrun'⟩ => ?_⟩
    · have hcut : s.cutsThrough n (frameBody f) = false := Bool.eq_false_iff.mpr fun h => hno ((cutsThrough_iff s n b).mp h)
      exact congrArg _ (hbad.trans (if_neg (by simp [hcut])))
    · have hcut : s.cutsThrough n (frameBody f) = true := (cutsThrough_iff s n b).mpr ⟨hev, hmode, hadm, .inl hrun'⟩
      exact congrArg _ (hbad.trans (if_pos (by simp [hcut, hrun, hidle])))
  · exact congrArg _ (receive_down hr hn hmin hmax hfcs (Bool.eq_false_iff.mpr fun h => hdown ((rxUp_iff s n).mp h)))
  · have hctl := receive_control (lane := lane.val) (e1 := e1) (e2 := e2) hr hn hmin hmax hfcs ((rxUp_iff s n).mpr hup) he
    refine ⟨fun hon hpfc => congrArg _ (hctl.trans (if_pos ?_)), fun h => congrArg _ (hctl.trans (if_neg ?_))⟩
    · exact (Bool.and_eq_true _ _).mpr ⟨hon, hpfc⟩
    · rw [Bool.and_eq_true, not_and_or]
      exact h.imp Bool.eq_false_iff.mp Bool.eq_false_iff.mp
  · have hdata := receive_data (lane := lane.val) (e1 := e1) (e2 := e2) hr hn hmin hmax hfcs ((rxUp_iff s n).mpr hup)
      fun hc => absurd (he.symm.trans hc) (by decide)
    exact ⟨fun hl => congrArg _ (hdata.trans (macDeliver_managementOnLine he hl)),
      fun ht hen hlink ha => congrArg _ (hdata.trans (macDeliver_management he ht hn hen hlink ha))⟩
  · have hdata := receive_data (lane := lane.val) (e1 := e1) (e2 := e2) hr hn hmin hmax hfcs ((rxUp_iff s n).mpr hup) hc
    exact ⟨fun hl hlull => congrArg _ (hdata.trans (macDeliver_onLine he hl hlull)),
      fun _ hidle => congrArg _ (hdata.trans (macDeliver_idle he hidle))⟩

end Sys2Proof.Machine

namespace Sys2Proof.Machine

/-! ### Cold starts and supplies (R74, R75, R525–R529) -/

/-- Copying the words `f` of a list of keys into a map changes those keys only. -/
theorem mget_foldl_mset {V : Type} [DecidableEq V] (d f : Nat → V) (l : List Nat) (m : SMap V) (j : Nat) :
    mget d (l.foldl (fun m a => mset d m a (f a)) m) j = if j ∈ l then f j else mget d m j := by
  induction l generalizing m with
  | nil => simp
  | cons a l ih =>
    rw [List.foldl_cons, ih, mget_mset]
    by_cases hl : j ∈ l
    · simp [hl]
    · by_cases ha : j = a <;> simp [hl, ha]

/-- After a cold start a word is the one kept or at its Reset value; KPR_STATUS shows the life cycle. -/
theorem rdw_cold (s : State) {a : Nat} (h : a ≠ F.KPR_STATUS_LC.addr) :
    s.cold.rdw a = if a ∈ coldKept then s.rdw a else regReset a :=
  (rdw_wr_ne _ _ _ _ h).trans (mget_foldl_mset regReset s.rdw coldKept [] a)

section Dormant
variable (s : State)

theorem dormant_mode : s.dormant.mode = mDORMANT := rd_wr_same _ _ _ (by decide)

theorem dormant_rsqCount : s.dormant.rd F.MOD_RSQ_COUNT = 0 :=
  (rd_wr_apart _ _ _ _ (by decide)).trans (rd_wr_same _ _ _ (by decide))

theorem rdw_dormant {a : Nat} (hmode : a ≠ F.MOD_STATUS_MODE.addr) (hrsq : a ≠ F.MOD_RSQ_COUNT.addr)
    (hlc : a ≠ F.KPR_STATUS_LC.addr) : s.dormant.rdw a = if a ∈ coldKept then s.rdw a else regReset a :=
  (rdw_wr_ne _ _ _ _ hmode).trans ((rdw_wr_ne _ _ _ _ hrsq).trans (rdw_cold s hlc))

/-- DORMANT has the words that are not always on at their Reset values. -/
theorem rdw_dormant_reset {a : Nat} (h : a ∉ coldKept) (hmode : a ≠ F.MOD_STATUS_MODE.addr) (hlc : a ≠ F.KPR_STATUS_LC.addr) :
    s.dormant.rdw a = regReset a := by
  have hrsq : a ≠ F.MOD_RSQ_COUNT.addr := fun he => h (he ▸ by decide)
  rw [rdw_dormant s hmode hrsq hlc, if_neg h]

/-- DORMANT keeps the always-on words but MOD_RSQ. -/
theorem rdw_dormant_kept {a : Nat} (h : a ∈ coldKept) (hrsq : a ≠ R.MOD_RSQ.addr) : s.dormant.rdw a = s.rdw a := by
  have hmode : a ≠ F.MOD_STATUS_MODE.addr := fun he => absurd (he ▸ h) (by decide)
  have hlc : a ≠ F.KPR_STATUS_LC.addr := fun he => absurd (he ▸ h) (by decide)
  rw [rdw_dormant s hmode hrsq hlc, if_pos h]

end Dormant

/-- The conditions under which ASCENT starts (R75, R525). -/
def State.Ascends (s : State) : Prop :=
  s.mode = mDORMANT ∧ s.md.porst = true ∧ s.md.rails = 0 ∧ s.md.sysclkBad = false ∧ s.lc ≠ lcSCRAP

theorem mayAscend_starts {s : State} (h : s.Ascends) : s.mayAscend = s.startAscent 1 false := by
  obtain ⟨hm, hp, hr, hc, hl⟩ := h
  simp [State.mayAscend, State.inMode, hm, hp, hr, hc, hl]

theorem mayAscend_waits {s : State} (h : ¬s.Ascends) : s.mayAscend = s := by
  refine if_neg fun hc => h ?_
  simpa [State.Ascends, State.inMode, and_assoc] using hc

/-! ### ASCENT (R80, R81) -/

/-- Every gallery is in service. -/
def State.galleriesServe (s : State) : Bool := (List.range 8).all (fun g => s.galState g == gSERVICE)

theorem galleriesServe_iff (s : State) : s.galleriesServe = true ↔ ∀ g < 8, s.galState g = gSERVICE := by
  simp [State.galleriesServe]

/-- Every line port that is in use with ADMIN_UP has its link. -/
def State.linesUp (s : State) : Bool := (List.range 144).all (fun p => !(s.inUse p && s.adminUp p) || s.link p)

theorem linesUp_iff (s : State) :
    s.linesUp = true ↔ ∀ p < 144, s.inUse p = true → s.adminUp p = true → s.link p = true := by
  simp [State.linesUp, imp_iff_not_or, or_assoc]

/-- What step 4, 6, 7 or 8 waits for is not there. -/
def State.AscentWaits (s : State) : Prop :=
  (s.ascStep = 4 ∧ ∃ g < 8, s.galState g ≠ gSERVICE) ∨
  (s.ascStep = 6 ∧ ∃ p < 144, s.inUse p = true ∧ s.adminUp p = true ∧ s.link p = false) ∨
  (s.ascStep = 7 ∧ (s.link 144 = false ∨ s.link 145 = false)) ∨ (s.ascStep = 8 ∧ s.running = false)

section Ascent
variable {s : State} {e : StepEnv} (hm : s.inMode mASCENT = true)
include hm

theorem ascentStep_delri {x : State} (hn : s.ascStep = 1) (hx : (s.ascTime 1 e.us).flashStart.delriStart = some x) :
    s.ascentStep e = (x.ascBegin 2).bistStart := by
  simp [State.ascentStep, hm, hn, hx]

theorem ascentStep_noDelri (hn : s.ascStep = 1) (hx : (s.ascTime 1 e.us).flashStart.delriStart = none) :
    s.ascentStep e = (s.ascTime 1 e.us).flashStart.ascentFail 1 := by
  simp [State.ascentStep, hm, hn, hx]

theorem ascentStep_bist (hn : s.ascStep = 2) : s.ascentStep e = (let r := (s.ascTime 2 e.us).bistDone e
    if r.2 then r.1.ascentFail 2 else (r.1.ascBegin 3).wr F.BIS_STATUS_PHASE 4) := by
  simp [State.ascentStep, hm, hn]

theorem ascentStep_hbm (hn : s.ascStep = 3) : s.ascentStep e = (let r := (s.ascTime 3 e.us).hbmDone e
    if r.2 then r.1.ascentFail 3 else (r.1.ascBegin 4).step4Start) := by
  simp [State.ascentStep, hm, hn]

theorem ascentStep_firmware (hn : s.ascStep = 4) : s.ascentStep e =
    if s.galleriesServe then (s.ascTime 4 e.us).fwStarted.revertNotice.ascBegin 5 else s := by
  simp only [State.ascentStep, hm, hn, Bool.not_true, Bool.false_eq_true, if_false]
  rfl

theorem ascentStep_config (hn : s.ascStep = 5) : s.ascentStep e = (let r := (s.ascTime 5 e.us).configDone e
    if r.2 then r.1.linesStart else r.1) := by
  simp [State.ascentStep, hm, hn]

theorem ascentStep_lines (hn : s.ascStep = 6) : s.ascentStep e =
    if s.linesUp then (s.ascTime 6 e.us).tethersStart else s := by
  simp only [State.ascentStep, hm, hn, Bool.not_true, Bool.false_eq_true, if_false]
  rfl

theorem ascentStep_tethers (hn : s.ascStep = 7) : s.ascentStep e =
    if s.link 144 && s.link 145 then (s.ascTime 7 e.us).ascBegin 8 else s := by
  simp [State.ascentStep, hm, hn]

theorem ascentStep_run (hn : s.ascStep = 8) : s.ascentStep e = if s.running then (s.ascTime 8 e.us).declareRun else s := by
  simp [State.ascentStep, hm, hn]

theorem ascentStep_waits (h : s.AscentWaits) : s.ascentStep e = s := by
  obtain ⟨hn, g, hg, hoff⟩ | ⟨hn, p, hp, huse, hup, hdown⟩ | ⟨hn, hdown⟩ | ⟨hn, hstop⟩ := h
  · rw [ascentStep_firmware hm hn]
    exact if_neg fun h => hoff ((galleriesServe_iff s).mp h g hg)
  · rw [ascentStep_lines hm hn]
    exact if_neg fun h => absurd ((linesUp_iff s).mp h p hp huse hup) (by simp [hdown])
  · rw [ascentStep_tethers hm hn]
    exact if_neg (by simpa [imp_iff_not_or] using hdown)
  · rw [ascentStep_run hm hn]
    exact if_neg (by simp [hstop])

theorem ascTimeout_ends {n ms : Nat} (hn : s.ascStep = n) (next : State → State) :
    s.ascTimeout n ms next = next (s.ascTime n (ms * 1000)) := if_pos ⟨hm, hn⟩

end Ascent

theorem tcxoFail_holds {s : State} (hd : s.inMode mDORMANT = false) (hc : s.md.sysclkBad = false) : s.tcxoFail =
    (({ s with md := { s.md with tcxoBad := true } }.refSee 4 (some s.tb.up)).setRef 4 false).holdLast :=
  if_neg (by simp [hd, hc])

/-- Settles O36: a supply failure is `State.dormant`, a supply back `State.mayAscend`, a step of ASCENT the arm of its number. -/
theorem suppliesAndAscentLeadToRun : Obligations.SuppliesAndAscentLeadToRun := by
  unfold Obligations.SuppliesAndAscentLeadToRun
  intro s
  refine ⟨fun c x hc => ?_, fun c x hc => ?_, fun hm e => ⟨fun hn => ?_, fun hn => ?_, fun hn => ?_, fun hn hg => ?_, fun hn => ?_,
    fun hn hp => ?_, fun hn h0 h1 => ?_, fun hn hr => ?_, ?_, fun hn => ?_, fun hn => ?_⟩,
    fun hd hc => congrArg Host.Outcome.next (tcxoFail_holds hd hc)⟩
  · have hexec : exec c s = .next x.dormant ∧ x.regs = s.regs ∧ x.nvm = s.nvm := by
      simp only [List.mem_cons, List.not_mem_nil, or_false, Prod.mk.injEq] at hc
      obtain (⟨rfl, rfl⟩ | ⟨rfl, rfl⟩) | ⟨i, rfl, rfl⟩ := hc
      · exact ⟨rfl, rfl, rfl⟩
      · exact ⟨rfl, rfl, rfl⟩
      · exact ⟨rfl, rfl, rfl⟩
    obtain ⟨hexec, hregs, hnvm⟩ := hexec
    exact ⟨x.dormant, hexec, dormant_mode x, dormant_rsqCount x, hnvm, rfl, rfl, rfl, rfl, rfl,
      fun a hk hmode hlc => rdw_dormant_reset x hk hmode hlc,
      fun a hk hrsq => (rdw_dormant_kept x hk hrsq).trans (rdw_congr hregs a)⟩
  · have hexec : exec c s = .next x.mayAscend := by
      simp only [List.mem_cons, List.not_mem_nil, or_false, Prod.mk.injEq] at hc
      obtain (⟨rfl, rfl⟩ | ⟨rfl, rfl⟩) | ⟨i, rfl, rfl⟩ := hc
      · rfl
      · rfl
      · rfl
    rw [hexec]
    exact ⟨fun h => congrArg Host.Outcome.next (mayAscend_starts h), fun h => congrArg Host.Outcome.next (mayAscend_waits h)⟩
  · have hexec : exec (.ascentStepDone e) s = .next (s.ascentStep e) := rfl
    rw [hexec]
    intro u
    cases hx : u.delriStart with
    | some x => exact congrArg _ (ascentStep_delri hm hn hx)
    | none => exact congrArg _ (ascentStep_noDelri hm hn hx)
  · exact congrArg Host.Outcome.next (ascentStep_bist hm hn)
  · exact congrArg Host.Outcome.next (ascentStep_hbm hm hn)
  · exact congrArg Host.Outcome.next ((ascentStep_firmware hm hn).trans (if_pos ((galleriesServe_iff s).mpr hg)))
  · exact congrArg Host.Outcome.next (ascentStep_config hm hn)
  · exact congrArg Host.Outcome.next ((ascentStep_lines hm hn).trans (if_pos ((linesUp_iff s).mpr hp)))
  · exact congrArg Host.Outcome.next ((ascentStep_tethers hm hn).trans (if_pos (by simp [h0, h1])))
  · exact congrArg Host.Outcome.next ((ascentStep_run hm hn).trans (if_pos hr))
  · exact fun h => congrArg Host.Outcome.next (ascentStep_waits hm h)
  · exact congrArg Host.Outcome.next (ascTimeout_ends hm hn _)
  · exact congrArg Host.Outcome.next (ascTimeout_ends hm hn _)

end Sys2Proof.Machine

namespace Sys2Proof.Machine

/-! ### MOD_CMD (R75–R77, R88, R100, R101, R501) -/

/-- A RESTART accepted in SAFEHOLD clears MOD_RSQ.COUNT (R76). -/
def State.modAccepted (s : State) (cmd : Nat) : State := if cmd = 4 ∧ s.inMode mSAFEHOLD then s.wr F.MOD_RSQ_COUNT 0 else s

/-- A command waits for its tick, or for the end of a transition. -/
def State.modPend (s : State) (p : ModPend) : State := { s with md := { s.md with pend := some p } }.wr F.MOD_STATUS_CMD_PEND 1

/-- A command named for its tick, or late for the next (R88). -/
def State.modPendTick (s : State) (cmd : Nat) : State :=
  let n := s.rd64 R.MOD_CMD_TICK
  let late := decide (n < s.tb.nextTick)
  s.modPend ⟨cmd, some (if late then s.tb.nextTick else n), late⟩

theorem on_phase_modAccepted (s : State) (cmd : Nat) : (s.modAccepted cmd).on F.MOD_STATUS_PHASE = s.on F.MOD_STATUS_PHASE := by
  unfold State.modAccepted
  split
  · rw [State.on, rd_wr_apart _ _ _ _ (by decide), State.on]
  · rfl

section Submitted
variable {s : State} {cmd : Nat} (hd : s.inMode mDORMANT = false)
include hd

theorem modCmd_overtaken (atTick : Bool) :
    s.modCmd cmd atTick true = (if cmd = 2 then s.wakeNote 0 else s).modResult cmd 8 false := by
  simp [State.modCmd, hd]

theorem modCmd_refused {atTick : Bool} (h : s.modRefuse cmd (atTick && (cmd == 1 || cmd == 4)) ≠ 0) :
    s.modCmd cmd atTick false = s.modResult cmd (s.modRefuse cmd (atTick && (cmd == 1 || cmd == 4))) false := by
  simp [State.modCmd, hd, h]

/-- An accepted command: WAKE acts at once, the others at their tick, after the transition in progress, or at once. -/
theorem modCmd_accepted {atTick : Bool} (h : s.modRefuse cmd (atTick && (cmd == 1 || cmd == 4)) = 0) :
    s.modCmd cmd atTick false =
      if cmd = 2 then (s.modAccepted cmd).modCarry ⟨2, none, false⟩
      else if atTick && (cmd == 1 || cmd == 4) then (s.modAccepted cmd).modPendTick cmd
      else if (s.modAccepted cmd).on F.MOD_STATUS_PHASE then (s.modAccepted cmd).modPend ⟨cmd, none, false⟩
      else (s.modAccepted cmd).modCarry ⟨cmd, none, false⟩ := by
  simp only [State.modCmd, hd, h, Bool.false_eq_true, if_false, ne_eq, not_true_eq_false]
  rfl

theorem modCmd_atTick (hc : cmd = 1 ∨ cmd = 4) (h : s.modRefuse cmd true = 0) :
    s.modCmd cmd true false = (s.modAccepted cmd).modPendTick cmd := by
  have hat : (true && (cmd == 1 || cmd == 4)) = true := by simpa using hc
  rw [modCmd_accepted hd (by rw [hat, h]), if_neg (by omega), if_pos hat]

theorem modCmd_wake (h : s.modRefuse 2 false = 0) : s.modCmd 2 false false = (s.modAccepted 2).modCarry ⟨2, none, false⟩ :=
  (modCmd_accepted hd h).trans (if_pos rfl)

variable (hc : cmd ≠ 2) (h : s.modRefuse cmd false = 0)
include hc h

theorem modCmd_inTransition (hp : s.rd F.MOD_STATUS_PHASE ≠ 0) :
    s.modCmd cmd false false = (s.modAccepted cmd).modPend ⟨cmd, none, false⟩ := by
  have hon : (s.modAccepted cmd).on F.MOD_STATUS_PHASE = true := (on_phase_modAccepted s cmd).trans (decide_eq_true hp)
  rw [modCmd_accepted hd h, if_neg hc, if_neg (by simp), if_pos hon]

theorem modCmd_atRest (hp : s.rd F.MOD_STATUS_PHASE = 0) :
    s.modCmd cmd false false = (s.modAccepted cmd).modCarry ⟨cmd, none, false⟩ := by
  have hon : (s.modAccepted cmd).on F.MOD_STATUS_PHASE = false := (on_phase_modAccepted s cmd).trans (by simp [State.on, hp])
  rw [modCmd_accepted hd h, if_neg hc, if_neg (by simp), if_neg (by simp [hon])]

end Submitted

theorem modRefuse_unknown (s : State) {cmd : Nat} (h : cmd = 0 ∨ 5 < cmd) (atTick : Bool) : s.modRefuse cmd atTick = 11 := by
  obtain rfl | h := h
  · rfl
  · obtain ⟨k, rfl⟩ : ∃ k, cmd = k + 6 := ⟨cmd - 6, by omega⟩
    rfl

/-- A command is carried out: it no longer waits. -/
def State.modReady (s : State) : State := { s with md := { s.md with pend := none } }.wr F.MOD_STATUS_CMD_PEND 0

theorem modCarry_lull (s : State) (t : Option Nat) (l : Bool) : s.modCarry ⟨1, t, l⟩ = s.modReady.lullEnter ⟨1, t, l⟩ := rfl

theorem modCarry_wake (s : State) (t : Option Nat) (l : Bool) :
    s.modCarry ⟨2, t, l⟩ = (s.modReady.wake 0).modResult 2 0 false := rfl

theorem modCarry_restart (s : State) (t : Option Nat) (l : Bool) : s.modCarry ⟨4, t, l⟩ =
    (let w := if s.modReady.inMode mSAFEHOLD then s.modReady else (s.modReady.bypShut 0).bypShut 1;
      (((w.bypWait 0).bypWait 1).startAscent 4 false).modResult 4 0 l) := rfl

theorem modCarry_safehold (s : State) (t : Option Nat) (l : Bool) :
    s.modCarry ⟨5, t, l⟩ = (s.modReady.modResult 5 0 false).safehold 5 0 4 false := rfl

/-! #### Entry of PROBE (R501) -/

/-- PROBE is entered: its first step runs and no packet is left in a queue. -/
structure State.Probing (s : State) : Prop where
  step : s.md.probe = 2
  mode : s.mode = mPROBE
  egr : s.egr = []
  queue : s.sq.q = []

namespace State.Probing
variable {s : State}

theorem wr (h : s.Probing) {f : Fld} (hf : f.apart F.MOD_STATUS_MODE = true) (v : Nat) : (s.wr f v).Probing :=
  ⟨h.step, (rd_wr_apart _ _ _ _ hf).trans h.mode, h.egr, h.queue⟩

theorem galOff (h : s.Probing) (g : Nat) : (s.galOff g).Probing := by
  have hg : (F.GAL_STATUS_STATE.at g).apart F.MOD_STATUS_MODE = true := by
    have : (F.GAL_STATUS_STATE.at g).addr ≠ F.MOD_STATUS_MODE.addr := by
      simp only [Fld.at, F.GAL_STATUS_STATE, F.MOD_STATUS_MODE]; omega
    simp [Fld.apart, this]
  refine wr (s := State.mk ..) ?_ hg gOFF
  exact ⟨h.step, h.mode, h.egr, h.queue⟩

theorem raise (h : s.Probing) (src : Nat) : (s.raise src).Probing := by
  have hmode : (s.raise src).mode = mPROBE :=
    (rd_raise s src F.MOD_STATUS_MODE (.inr (by decide)) (.inr (by decide))).trans h.mode
  obtain ⟨r, ev, out, he⟩ := raise_form s src
  rw [he] at hmode ⊢
  exact ⟨h.step, hmode, h.egr, h.queue⟩

theorem wr64 (h : s.Probing) {r : Reg} (hr : F.MOD_STATUS_MODE.addr ≠ r.addr ∧ F.MOD_STATUS_MODE.addr ≠ r.addr + 4) (v : Nat) :
    (s.wr64 r v).Probing := ⟨h.step, (rd_wr64_ne _ _ _ _ hr).trans h.mode, h.egr, h.queue⟩

theorem trans (h : s.Probing) (trig frm to_ tick : Nat) : (s.trans trig frm to_ tick).Probing :=
  ((((h.wr (f := F.MOD_TRANS_TRIGGER) (by decide) trig).wr (f := F.MOD_TRANS_FROM) (by decide) frm).wr
    (f := F.MOD_TRANS_TO) (by decide) to_).wr64 (r := R.MOD_TRANS_TICK) (by decide) tick).raise (eg 3 0)

theorem modResult (h : s.Probing) (cmd code : Nat) (late : Bool) : (s.modResult cmd code late).Probing :=
  (((h.wr (f := F.MOD_CMD_RESULT_TICK_LATE) (by decide) (b2n late)).wr (f := F.MOD_CMD_RESULT_CMD) (by decide) cmd).wr
    (f := F.MOD_CMD_RESULT_CODE) (by decide) code).raise (eg 3 1)

end State.Probing

theorem rd_code_modResult (s : State) (cmd code : Nat) (late : Bool) :
    (s.modResult cmd code late).rd F.MOD_CMD_RESULT_CODE = code % 2 ^ 4 :=
  (rd_raise _ _ _ (.inr (by decide)) (.inr (by decide))).trans (rd_wr_same _ _ _ (by decide))

theorem rd_cmd_modResult (s : State) (cmd code : Nat) (late : Bool) :
    (s.modResult cmd code late).rd F.MOD_CMD_RESULT_CMD = cmd % 2 ^ 4 :=
  (rd_raise _ _ _ (.inr (by decide)) (.inr (by decide))).trans
    ((rd_wr_apart _ _ _ _ (by decide)).trans (rd_wr_same _ _ _ (by decide)))

@[simp] theorem dropTraffic_egr (s : State) : s.dropTraffic.egr = [] := rfl

@[simp] theorem dropTraffic_queue (s : State) : s.dropTraffic.sq.q = [] := rfl

/-- PROBE mode is shown with BIS_STATUS.PHASE of its first step. -/
def State.probeShown (s : State) : State := (s.wr F.MOD_STATUS_MODE mPROBE).wr F.BIS_STATUS_PHASE 5

theorem mode_probeShown (s : State) : s.probeShown.mode = mPROBE :=
  (rd_wr_apart _ _ _ _ (by decide)).trans (rd_wr_same _ _ _ (by decide))

theorem probing_of_mode {s : State} (hm : s.mode = mPROBE) (he : s.egr = []) (hq : s.sq.q = []) (cfg : Nat) :
    State.Probing { s with md := { s.md with probe := 2, probeCfg := cfg } } := ⟨rfl, hm, he, hq⟩

theorem probing_of_dropTraffic (s : State) (cfg : Nat) : State.Probing { s.dropTraffic.probeShown with
    md := { s.dropTraffic.probeShown.md with probe := 2, probeCfg := cfg } } :=
  probing_of_mode (mode_probeShown _) (by simp [State.probeShown]) (by simp [State.probeShown]) cfg

/-- PROBE is entered, and then the command answered. -/
theorem modCarry_probe (s : State) {p : ModPend} (hp : p.cmd = 3) :
    ∃ u : State, u.Probing ∧ s.modCarry p = u.modResult 3 0 false := by
  simp only [State.modCarry, hp]
  exact ⟨_, .trans (foldS_inv State.Probing _ _ _ (probing_of_dropTraffic _ _) fun g _ _ h => h.galOff g) .., rfl⟩

/-! ### Ticks, LULL and wake sources (R88, R89, R92–R94) -/

section Events
variable {s : State}

theorem modTickDue_issued {p : ModPend} {n : Nat} (hp : s.md.pend = some p) (ht : p.tick = some n) (hn : n < s.tb.nextTick)
    (hr : s.running = true) (hph : s.rd F.MOD_STATUS_PHASE = 0) : s.modTickDue = s.modCarry p := by
  obtain ⟨c, _, l⟩ := p
  subst ht
  simp only [State.modTickDue, hp]
  exact if_pos ⟨hn, hr, by simp [State.on, hph]⟩

theorem lullEntryDone_entering {p : ModPend} (hp : s.md.lullCmd = some p) : s.lullEntryDone = s.lullEntered.transEnded :=
  if_pos (by simp [hp])

/-- The level of WAKE_N is noted. -/
def State.wakeLevel (s : State) (low : Bool) : State := { s with md := { s.md with wakeLow := low } }

theorem wakePin_enabled (h : (s.wakeLevel true).rd F.MOD_LULL_CFG_WAKE_PIN_EN ≠ 0) : s.wakePin true = (s.wakeLevel true).wake 1 :=
  if_pos ((Bool.true_and _).trans (decide_eq_true h))

theorem wakePin_disabled (h : (s.wakeLevel true).rd F.MOD_LULL_CFG_WAKE_PIN_EN = 0) : s.wakePin true = s.wakeLevel true :=
  if_neg fun hc => (of_decide_eq_true ((Bool.true_and _).symm.trans hc) : _ ≠ 0) h

theorem wakeTick_reached (he : s.rd F.MOD_LULL_CFG_WAKE_TICK_EN ≠ 0) (hr : s.running = true) (ht : s.rd64 R.MOD_WAKE_TICK ≤ s.tick) :
    s.wakeTick = s.wake 4 := if_pos (by simp [State.on, he, hr, ht])

/-- The guard of W6 lets a wake in progress through. -/
theorem not_lullExitGuard (hl : s.inMode mLULL = true) (hp : s.rd F.MOD_STATUS_PHASE = 2) :
    ¬(!(s.inMode mLULL) || decide (s.rd F.MOD_STATUS_PHASE ≠ 2)) = true := by simp [hl, hp]

theorem gal0Return_off (hr : s.inMode mRUN = true) (hs : s.rd (F.GAL_STATUS_STEERED.at 0) ≠ 0) (hg : s.galState 0 = gOFF)
    (ht : s.bist.gt = none) : s.gal0Return = (s.hrdReclaim 0).loadGal 0 (engProg s.kpr.eng 0) :=
  if_pos (by simp [State.on, hr, hs, hg, ht])

theorem rsqClear_run (hr : s.inMode mRUN = true) {n : Nat} (hn : s.md.runAt = some n) : s.rsqClear =
    (let u := (s.advanceUp (n + 600 * 10 ^ 9)).wr F.MOD_RSQ_COUNT 0; { u with md := { u.md with runAt := none } }) := by
  simp only [State.rsqClear, hn, hr, if_true]

end Events

/-- The outcome of MOD_CMD `cmd`: SAFEHOLD lets a return to the factory go on (R108). -/
def modOutcome (cmd : Nat) (s : State) : Out1 := .next (if cmd = 5 then s.returnGo else s)

theorem modOutcome_safehold (s : State) : modOutcome 5 s = .next s.returnGo := congrArg Host.Outcome.next (if_pos rfl)

theorem modOutcome_other {cmd : Nat} (h : cmd ≠ 5) (s : State) : modOutcome cmd s = .next s :=
  congrArg Host.Outcome.next (if_neg h)

/-- Settles O37: each command by the rule that accepts or refuses it, each event by the rule of its operation. -/
theorem modeCommandsFollowTheirRules : Obligations.ModeCommandsFollowTheirRules := by
  unfold Obligations.ModeCommandsFollowTheirRules
  intro s
  refine ⟨fun hd => ?_, fun p n hp ht hn hr hph => congrArg Host.Outcome.next (modTickDue_issued hp ht hn hr hph),
    fun p hp => congrArg thenReturnGo (lullEntryDone_entering hp),
    ⟨fun h => congrArg Host.Outcome.next (wakePin_enabled h), fun h => congrArg Host.Outcome.next (wakePin_disabled h), rfl⟩,
    fun he hr ht => congrArg Host.Outcome.next (wakeTick_reached he hr ht),
    fun hl hp => congrArg thenReturnGo (if_neg (not_lullExitGuard hl hp)),
    fun hr => ⟨fun hs hg ht => congrArg Host.Outcome.next (gal0Return_off hr hs hg ht),
      fun n hn => congrArg Host.Outcome.next (rsqClear_run hr hn)⟩⟩
  intro fin counted
  refine ⟨fun at_ o x hx => ?_, fun c hc => ?_, fun x hx h => ?_, fun h => ?_, fun hp => ⟨fun h => ?_, fun h => ?_, fun h => ?_, fun h => ?_⟩,
    fun hp x hx h => ?_⟩
  · have hx : exec x.1 s = modOutcome x.2.1 (s.modCmd x.2.1 x.2.2 o) ∧ (x.2.2 && (x.2.1 == 1 || x.2.1 == 4)) = x.2.2 := by
      simp only [List.mem_cons, List.not_mem_nil, or_false] at hx
      obtain rfl | rfl | rfl | rfl | rfl := hx
      · exact ⟨(modOutcome_other (cmd := 1) (by decide) _).symm, Bool.and_true at_⟩
      · exact ⟨(modOutcome_other (cmd := 2) (by decide) _).symm, rfl⟩
      · exact ⟨(modOutcome_other (cmd := 3) (by decide) _).symm, rfl⟩
      · exact ⟨(modOutcome_other (cmd := 4) (by decide) _).symm, Bool.and_true at_⟩
      · exact ⟨(modOutcome_safehold _).symm, rfl⟩
    obtain ⟨hexec, hat⟩ := hx
    rw [hexec]
    refine ⟨?_, ?_⟩
    · rintro rfl
      exact congrArg (modOutcome _) (modCmd_overtaken hd _)
    · rintro rfl h
      have hcode := modCmd_refused hd (by rw [hat]; exact h)
      rw [hat] at hcode
      exact congrArg (modOutcome _) hcode
  · have hcode : s.modRefuse c.toNat false = 11 := modRefuse_unknown s (hc.imp (fun h => by rw [h]; rfl) id) false
    have hrefused := modCmd_refused (atTick := false) hd (cmd := c.toNat) (by rw [Bool.false_and, hcode]; decide)
    rw [Bool.false_and, hcode] at hrefused
    exact congrArg Host.Outcome.next hrefused
  · have hx : exec x.1 s = .next (s.modCmd x.2 true false) ∧ (x.2 = 1 ∨ x.2 = 4) := by
      simp only [List.mem_cons, List.not_mem_nil, or_false] at hx
      obtain rfl | rfl := hx
      · exact ⟨rfl, .inl rfl⟩
      · exact ⟨rfl, .inr rfl⟩
    obtain ⟨hexec, hcmd⟩ := hx
    exact hexec.trans (congrArg _ (modCmd_atTick hd hcmd h))
  · exact congrArg Host.Outcome.next ((modCmd_wake hd h).trans (modCarry_wake ..))
  · exact congrArg Host.Outcome.next ((modCmd_atRest hd (by decide) h hp).trans (modCarry_lull ..))
  · obtain ⟨u, hu, hcarry⟩ := modCarry_probe (s.modAccepted 3) (p := ⟨3, none, false⟩) rfl
    obtain ⟨hstep, hmode, hegr, hqueue⟩ := hu.modResult 3 0 false
    exact ⟨_, congrArg Host.Outcome.next ((modCmd_atRest hd (by decide) h hp).trans hcarry), hstep, hmode, hegr, hqueue,
      rd_code_modResult .., rd_cmd_modResult ..⟩
  · exact congrArg Host.Outcome.next ((modCmd_atRest hd (by decide) h hp).trans (modCarry_restart ..))
  · exact congrArg thenReturnGo ((modCmd_atRest hd (by decide) h hp).trans (modCarry_safehold ..))
  · have hx : exec x.1 s = modOutcome x.2 (s.modCmd x.2 false false) ∧ x.2 ≠ 2 := by
      simp only [List.mem_cons, List.not_mem_nil, or_false] at hx
      obtain rfl | rfl | rfl := hx
      · exact ⟨(modOutcome_other (by decide) _).symm, by decide⟩
      · exact ⟨(modOutcome_other (by decide) _).symm, by decide⟩
      · exact ⟨(modOutcome_safehold _).symm, by decide⟩
    obtain ⟨hexec, hcmd⟩ := hx
    exact hexec.trans (congrArg (modOutcome _) (modCmd_inTransition hd hcmd h hp))

end Sys2Proof.Machine

namespace Sys2Proof.Machine

/-! ### Numbers as bytes (R7) -/

@[simp] theorem length_leB (n v : Nat) : (leB n v).length = n := by
  induction n generalizing v with
  | zero => rfl
  | succ n ih => simp [leB, ih]

@[simp] theorem length_beB (n v : Nat) : (beB n v).length = n := by
  induction n with
  | zero => rfl
  | succ n ih => simp [beB, ih]

theorem byteN_append_left {a : Bytes} (b : Bytes) {i : Nat} (h : i < a.length) : byteN (a ++ b) i = byteN a i :=
  congrArg BitVec.toNat (List.getD_append _ _ _ _ h)

theorem byteN_append_right {a : Bytes} (b : Bytes) {i : Nat} (h : a.length ≤ i) : byteN (a ++ b) i = byteN b (i - a.length) :=
  congrArg BitVec.toNat (List.getD_append_right _ _ _ _ h)

theorem leN_append_left {a : Bytes} (b : Bytes) {i n : Nat} (h : i + n ≤ a.length) : leN (a ++ b) i n = leN a i n := by
  induction n with
  | zero => rfl
  | succ n ih => rw [leN, leN, byteN_append_left b (by omega), ih (by omega)]

theorem leN_append_right {a : Bytes} (b : Bytes) {i : Nat} (h : a.length ≤ i) (n : Nat) :
    leN (a ++ b) i n = leN b (i - a.length) n := by
  induction n with
  | zero => rfl
  | succ n ih => rw [leN, leN, byteN_append_right b (by omega), ih, Nat.sub_add_comm h]

theorem beN_append_right {a : Bytes} (b : Bytes) {i : Nat} (h : a.length ≤ i) (n : Nat) :
    beN (a ++ b) i n = beN b (i - a.length) n := by
  induction n with
  | zero => rfl
  | succ n ih => rw [beN, beN, byteN_append_right b (by omega), ih, Nat.sub_add_comm h]

theorem byteN_leB {n i : Nat} (h : i < n) (v : Nat) : byteN (leB n v) i = v / 256 ^ i % 256 := by
  induction n generalizing v i with
  | zero => omega
  | succ n ih =>
    cases i with
    | zero => simp [leB, byteN]
    | succ i =>
      have hi : byteN (leB (n + 1) v) (i + 1) = byteN (leB n (v / 256)) i := rfl
      rw [hi, ih (by omega), Nat.div_div_eq_div_mul, Nat.pow_succ']

theorem byteN_beB {n i : Nat} (h : i < n) (v : Nat) : byteN (beB n v) i = v / 256 ^ (n - 1 - i) % 256 := by
  induction n generalizing i with
  | zero => omega
  | succ n ih =>
    cases i with
    | zero => simp [beB, byteN]
    | succ i =>
      have hi : byteN (beB (n + 1) v) (i + 1) = byteN (beB n v) i := rfl
      rw [hi, ih (by omega)]
      congr 3
      omega

/-- The first `m` of `n` little-endian bytes hold the number modulo 256 ^ `m`. -/
theorem leN_leB_mod {n m : Nat} (h : m ≤ n) (v : Nat) : leN (leB n v) 0 m = v % 256 ^ m := by
  induction m with
  | zero => simp [leN, Nat.mod_one]
  | succ m ih =>
    rw [leN, Nat.zero_add, byteN_leB (by omega), ih (by omega), Nat.mod_pow_succ, Nat.mul_comm, Nat.add_comm]

/-- The first `m` of `n` big-endian bytes hold the number's high part. -/
theorem beN_beB_div {n m : Nat} (h : m ≤ n) {v : Nat} (hv : v < 256 ^ n) : beN (beB n v) 0 m = v / 256 ^ (n - m) := by
  induction m with
  | zero => simp [beN, Nat.div_eq_of_lt hv]
  | succ m ih =>
    have hpow : 256 ^ (n - m) = 256 ^ (n - (m + 1)) * 256 := by rw [← Nat.pow_succ]; congr 1; omega
    rw [beN, Nat.zero_add, byteN_beB (by omega), ih (by omega), hpow, ← Nat.div_div_eq_div_mul,
      show n - 1 - m = n - (m + 1) by omega, Nat.mul_comm, Nat.div_add_mod]

/-- A little-endian number at the front of a payload reads back. -/
theorem leN_leB_append {n v : Nat} (hv : v < 256 ^ n) (b : Bytes) : leN (leB n v ++ b) 0 n = v := by
  rw [leN_append_left b (by simp), leN_leB_mod le_rfl, Nat.mod_eq_of_lt hv]

theorem leN_leB {n v : Nat} (hv : v < 256 ^ n) : leN (leB n v) 0 n = v := by
  rw [leN_leB_mod le_rfl, Nat.mod_eq_of_lt hv]

theorem beN_beB {n v : Nat} (hv : v < 256 ^ n) : beN (beB n v) 0 n = v := by
  rw [beN_beB_div le_rfl hv, Nat.sub_self, Nat.pow_zero, Nat.div_one]

/-- What follows `n` little-endian bytes, read as a number. -/
theorem leN_after_leB (n v : Nat) (b : Bytes) (i m : Nat) : leN (leB n v ++ b) (n + i) m = leN b i m := by
  rw [leN_append_right b (by simp)]
  simp

/-! ### Requests and their capability rows (R103, R136, R137) -/

theorem on_iff (s : State) (f : Fld) : s.on f = true ↔ s.rd f ≠ 0 := decide_eq_true_iff

/-- The requests of the mailbox with their codes. -/
def mbxInstrs (m : Mbx) : List (Instr × Nat) := [
  (.kprGetInfo m, 0x01), (.imgBegin m, 0x02), (.imgData m, 0x03), (.imgEnd m, 0x04), (.arm m, 0x05), (.disarm m, 0x06),
  (.confirm m, 0x07), (.revert m, 0x08), (.settingsUnreadable m, 0x09), (.settingsRead m, 0x0A), (.settingsWrite m, 0x0B),
  (.getChallenge m, 0x0C), (.lcProvision m, 0x0D), (.lcField m, 0x0E), (.lcReturn m, 0x0F), (.lcScrap m, 0x10),
  (.keyProgram m, 0x11), (.keyRevoke m, 0x12), (.debugUnlock m, 0x13)]

/-- Each request's instruction has the Keeper serve its code. -/
theorem exec_mbxInstr (s : State) {m : Mbx} {x : Instr × Nat} (hx : x ∈ mbxInstrs m) : exec x.1 s = .next (s.mbx m x.2) := by
  have hmap : (mbxInstrs m).map (fun x => exec x.1 s) = (mbxInstrs m).map (fun x => .next (s.mbx m x.2)) := rfl
  exact List.map_inj_left.mp hmap x hx

/-- A request with its row of the capability table. -/
def State.mbxReq (s : State) (x : Instr × Nat) : Instr × Nat × Bool × Bool × Bool × Bool × (Bytes → MbxAns) :=
  let row := s.mbxRow x.2
  (x.1, x.2, row.host, row.fw, row.lc, row.nvm, row.body s)

/-! ### Serving a request (R103, R136, R138) -/

/-- What a request ends with: a failing erase or program of NVM ends one that writes NVM and would succeed, without effect. -/
def State.mbxEnd (s : State) (nvm : Option Word) (writes : Bool) (r : MbxAns) : MbxAns :=
  match nvm with
  | some off =>
    if writes && decide (r.status = mOK) then { s := s.raise (eg 0 9), status := mNVM_ERROR, detail := off.toNat } else r
  | none => r

/-- The answer goes to the host, and the core requests that waited behind it are served. -/
def hostReply (r : MbxAns) : Out1 := .next (r.next (r.s.mbxRespond r.status r.detail r.pay)).mbxWaiting

/-- The answer goes to control core `c`. -/
def coreReply (c seq : Nat) (r : MbxAns) : Out1 := .next (r.next (r.s.mbxToCore c seq r.status r.detail r.pay))

section Run
variable {s : State} {code : Nat} {may fmt : Bool} {nvm : Option Word} {pay : Bytes}

theorem mbxRun_denied (h : ¬(may = true ∧ (s.mbxRow code).lc = true)) :
    s.mbxRun code may fmt nvm pay = { s := s, status := mDENIED } := by
  have h' : (!may || !(s.mbxRow code).lc) = true := by
    rw [← Bool.not_and, Bool.not_eq_true', ← Bool.not_eq_true, Bool.and_eq_true]
    exact h
  rw [State.mbxRun, if_pos h']

variable (h : may = true ∧ (s.mbxRow code).lc = true)
include h

theorem mbxRun_malformed (hf : fmt = false) : s.mbxRun code may fmt nvm pay = { s := s, status := mBAD_ARG } := by
  simp [State.mbxRun, h.1, h.2, hf]

theorem mbxRun_permitted (hf : fmt = true) :
    s.mbxRun code may fmt nvm pay = s.mbxEnd nvm (s.mbxRow code).nvm ((s.mbxRow code).body s pay) := by
  simp only [State.mbxRun, h.1, h.2, hf, Bool.not_true, Bool.or_self, Bool.false_eq_true, if_false]
  rfl

end Run

section Host
variable {s : State} {m : Mbx} {code : Nat} (hs : s.kprServes = true) (hm : m.src = .host)
  (hp : s.rd F.KPR_MBX_STATUS_PENDING ≠ 0) (hc : s.mbxWord 0 % 256 = code)
include hs hm hp hc

theorem mbx_host : .next (s.mbx m code) = hostReply (s.mbxRun code
    ((s.mbxRow code).host && !bitN (s.rd F.KPR_CAP_MASK_DENY) code) s.mbxFormat m.nvm s.mbxPayload) := by
  have hon := (on_iff s F.KPR_MBX_STATUS_PENDING).mpr hp
  simp only [State.mbx, hs, hm, hon, hc, Bool.not_true, Bool.false_eq_true, if_false, decide_true, Bool.and_self, if_true]
  rfl

variable (hnvm : m.nvm = none) (hf : s.mbxFormat = true) (hdeny : (s.rd F.KPR_CAP_MASK_DENY).testBit code = false)
  (hhost : (s.mbxRow code).host = true) (hlc : (s.mbxRow code).lc = true) {u : State} {pay : Bytes}
include hnvm hf hdeny hhost hlc

/-- A permitted, well-formed request of the host that succeeds is answered with MBX_OK, and what it leads to follows. -/
theorem mbx_host_completes {next : State → State}
    (hbody : (s.mbxRow code).body s s.mbxPayload = { s := u, status := mOK, pay := pay, next := next }) :
    .next (s.mbx m code) = (.next (next (u.mbxRespond mOK 0 pay)).mbxWaiting : Out1) := by
  rw [mbx_host hs hm hp hc, mbxRun_permitted ⟨by simp [hhost, bitN, hdeny], hlc⟩ hf, hbody, hnvm]
  rfl

/-- A request that leads to nothing is only answered. -/
theorem mbx_host_answers (hbody : (s.mbxRow code).body s s.mbxPayload = { s := u, status := mOK, pay := pay }) :
    .next (s.mbx m code) = (.next (u.mbxRespond mOK 0 pay).mbxWaiting : Out1) := by
  rw [mbx_host_completes hs hm hp hc hnvm hf hdeny hhost hlc hbody, id_eq]

end Host

section Core
variable {s : State} {m : Mbx} {k : Fin 2} {q : BitVec 16} {p : Bytes} {code : Nat} (hs : s.kprServes = true)
  (hm : m.src = .core k q p) (hup : s.kpr.fwUp = true)
include hs hm hup

theorem mbx_core (hp : s.rd F.KPR_MBX_STATUS_PENDING = 0) : .next (s.mbx m code) = coreReply k.val q.toNat
    (s.mbxRun code (s.mbxRow code).fw (decide (p.length ≤ 4080)) m.nvm p) := by
  have hon : s.on F.KPR_MBX_STATUS_PENDING = false := decide_eq_false (not_not_intro hp)
  simp only [State.mbx, State.mbxCore, hs, hm, hon, hup, Bool.not_true, Bool.false_eq_true, if_false]
  rfl

theorem mbx_core_waits (hp : s.rd F.KPR_MBX_STATUS_PENDING ≠ 0) (hw : ∀ y ∈ s.kpr.wait, y.core ≠ k.val) :
    s.mbx m code = { s with kpr := { s.kpr with wait := s.kpr.wait ++ [⟨k.val, q.toNat, code, p, m.nvm⟩] } } := by
  have hon := (on_iff s F.KPR_MBX_STATUS_PENDING).mpr hp
  have hany : s.kpr.wait.any (fun y => y.core == k.val) = false := by simpa using hw
  simp only [State.mbx, hs, hm, hon, hup, hany, Bool.not_true, Bool.false_eq_true, Bool.or_self, if_false, if_true]

/-- A permitted, well-formed request of a control core that succeeds is answered with MBX_OK. -/
theorem mbx_core_completes (hp : s.rd F.KPR_MBX_STATUS_PENDING = 0) (hnvm : m.nvm = none) (hlen : p.length ≤ 4080)
    (hfw : (s.mbxRow code).fw = true) (hlc : (s.mbxRow code).lc = true) {u : State} {pay : Bytes} {next : State → State}
    (hbody : (s.mbxRow code).body s p = { s := u, status := mOK, pay := pay, next := next }) :
    .next (s.mbx m code) = (.next (next (u.mbxToCore k.val q.toNat mOK 0 pay)) : Out1) := by
  rw [mbx_core hs hm hup hp, mbxRun_permitted ⟨hfw, hlc⟩ (decide_eq_true hlen), hbody, hnvm]
  rfl

end Core

/-! ### Tokens, life cycle and keys (R104–R108, R121) -/

/-- The tokens held are `l`. -/
def State.holding (s : State) (l : List Bytes) : State := { s with kpr := { s.kpr with tokens := l } }

theorem withTokens_one {s : State} {t : Bytes} {l : List Bytes} {p : Bytes → Bool} (ht : s.kpr.tokens = t :: l) (hp : p t = true)
    (act : State → MbxAns) : s.withTokens [p] act = act (s.holding l) := by
  simp [State.withTokens, State.useTokens, State.holding, ht, hp, eraseFirst]

theorem withTokens_two {s : State} {t t' : Bytes} {l : List Bytes} {p p' : Bytes → Bool} (ht : s.kpr.tokens = t :: t' :: l)
    (hp : p t = true) (hp' : p' t' = true) (act : State → MbxAns) : s.withTokens [p, p'] act = act (s.holding l) := by
  simp [State.withTokens, State.useTokens, State.holding, ht, hp, hp', eraseFirst]

theorem getChallenge_draws (s : State) : s.getChallenge =
    (let n := (List.range 4).flatMap (fun i => leB 8 (Config.freeValue (s.free + i)).toNat);
      { s := { s with free := s.free + 4, kpr := { s.kpr with nonce := n, tokens := [] } }, status := mOK, pay := n }) := by
  simp [State.getChallenge, State.draw, List.range, List.range.loop, Nat.add_assoc]

theorem keyProgram_first {s : State} {i h : Nat} (hi : i < 4) (hh : h < 2 ^ 384) (hlc : s.lc = lcPROV)
    (hfree : ∀ j < 4, (s.keySlot j).prog = false) :
    s.keyProgram (leB 4 i ++ beB 48 h) = { s := s.keyUpd i (fun _ => ⟨true, false, h⟩), status := mOK } := by
  have hslot : leN (leB 4 i ++ beB 48 h) 0 4 = i := leN_leB_append (by omega) _
  have hhash : beN (leB 4 i ++ beB 48 h) 4 48 = h := by
    rw [beN_append_right _ (by simp), length_leB, Nat.sub_self, beN_beB (by omega)]
  have hnone : (List.range 4).all (fun j => !(s.keySlot j).prog) = true := by simpa using hfree
  simp [State.keyProgram, hslot, hhash, hfree i hi, hlc, hnone, Nat.not_le.mpr hi]

theorem kpr_raise (s : State) (n : Nat) : (s.raise n).kpr = s.kpr := by
  obtain ⟨r, e, o, h⟩ := raise_form s n
  rw [h]

theorem kpr_setLc (s : State) (n : Nat) : (s.setLc n).kpr = s.kpr := by
  unfold State.setLc
  split
  · rw [kpr_raise, wr_kpr]
  · rw [kpr_raise, wr_kpr, wr_kpr]

section Tokens
variable {s : State} {args t : Bytes} {l : List Bytes} (ht : s.kpr.tokens = t :: l)
include ht

theorem lcProvision_blank (hlc : s.lc = lcBLANK) (hok : s.tokenOk 0x0D args isMaker t = true) :
    s.lcProvision args = { s := (s.holding l).setLc lcPROV, status := mOK } := by
  have hne : ¬s.lc = lcRET := by rw [hlc]; decide
  rw [State.lcProvision, if_neg (fun h => hne h.1), withTokens_one ht hok]
  dsimp only
  rw [if_neg (c := (s.holding l).lc = lcRET) hne]

/-- The owner bank of a returned device is left behind for the next (R108). -/
theorem lcProvision_returned (hlc : s.lc = lcRET) (hn : s.rd F.KPR_LC_RETURNS < 3) (hok : s.tokenOk 0x0D args isMaker t = true) :
    s.lcProvision args = (let u := (s.holding l).wr F.KPR_LC_RETURNS (s.rd F.KPR_LC_RETURNS + 1)
      let v := (u.wr F.KPR_LC_OWNER_BANK (u.rd F.KPR_LC_OWNER_BANK + 1)).showKeys;
      { s := v.setLc lcPROV, status := mOK }) := by
  rw [State.lcProvision, if_neg (fun h => absurd h.2 (by omega)), withTokens_one ht hok]
  dsimp only
  rw [if_pos (c := (s.holding l).lc = lcRET) hlc, rd_wr_apart _ _ F.KPR_LC_OWNER_BANK _ (by decide)]
  rfl

theorem lcField_owner (hok : s.tokenOk 0x0E args (s.isOwner none) t = true) :
    s.lcField args = { s := (s.holding l).setLc lcFIELD, status := mOK } := withTokens_one ht hok _

theorem lcScrap_token (hok : s.tokenOk 0x10 args (if s.lc = lcFIELD then s.isOwner none else isMaker) t = true) :
    s.lcScrap args = { s := (s.holding l).setLc lcSCRAP, status := mOK, next := fun s => s.keeperCmd 5 } :=
  withTokens_one ht hok _

theorem lcReturn_tokens {t' : Bytes} {l' : List Bytes} (hl : l = t' :: l') (hmode : s.inMode mRUN = true ∨ s.inMode mSAFEHOLD = true)
    (hmaker : s.tokenOk 0x0F args isMaker t = true) (howner : s.tokenOk 0x0F args (s.isOwner none) t' = true) :
    s.lcReturn args = (let x := (s.holding l').setLc lcRET;
      { s := { x with kpr := { x.kpr with returning := true } }, status := mOK
        next := fun s => if s.inMode mRUN then (s.keeperCmd 5).returnGo else s.returnGo }) := by
  have hmode' : (!s.inMode mRUN && !s.inMode mSAFEHOLD) = false := by
    obtain h | h := hmode
    · rw [h]; rfl
    · rw [h]; exact Bool.and_false _
  rw [State.lcReturn, hmode', if_neg Bool.false_ne_true, withTokens_two (hl ▸ ht) hmaker howner]
  dsimp only
  rw [kpr_setLc]

theorem keyRevoke_owner {i : Nat} (hi : i < 4) (hargs : args = leB 4 i) (hlive : s.keyLive i = true)
    (hother : ∃ j < 4, j ≠ i ∧ s.keyLive j = true) (hok : s.tokenOk 0x12 args (s.isOwner (some i)) t = true) :
    s.keyRevoke args = { s := (s.holding l).keyUpd i (fun k => { k with revoked := true }), status := mOK } := by
  have hlen : args.length = 4 := by rw [hargs, length_leB]
  have hslot : leN args 0 4 = i := by rw [hargs, leN_leB (by omega)]
  have hmay : (!s.keyLive i || (List.range 4).all (fun j => j == i || !s.keyLive j)) = false := by
    obtain ⟨j, hj, hne, hlj⟩ := hother
    simpa [hlive] using ⟨j, hj, hne, hlj⟩
  simp only [State.keyRevoke, hlen, hslot, hmay, ne_eq, not_true_eq_false, false_or, Nat.not_le.mpr hi, Bool.false_eq_true, if_false]
  exact withTokens_one ht hok _

theorem debugUnlock_maker (hok : s.tokenOk 0x13 args isMaker t = true) :
    s.debugUnlock args = { s := (s.holding l).wr F.KPR_STATUS_MAKER_DBG 1, status := mOK } := withTokens_one ht hok _

end Tokens

end Sys2Proof.Machine

namespace Sys2Proof.Machine

/-! ### All requests (R103–R108, R121, R136–R138) -/

/-- Settles O39: the rows of the capability table are served by one rule each for the host and the cores, and each request that
completes does what its row says. -/
theorem theKeeperAnswersEveryRequest : Obligations.TheKeeperAnswersEveryRequest := by
  unfold Obligations.TheKeeperAnswersEveryRequest
  intro s m hs
  refine ⟨?_, fun hm hnvm hp hf => ?_⟩
  · intro reqs c code host fw lc nvm body hreq
    have hrows : reqs = (mbxInstrs m).map s.mbxReq := rfl
    obtain ⟨⟨c, code⟩, hx, hrow⟩ := List.mem_map.mp (hrows ▸ hreq)
    have hexec : exec c s = .next (s.mbx m code) := exec_mbxInstr s hx
    cases hrow
    rw [hexec]
    refine ⟨fun hm hp hc => ?_, fun k q p hm hup => ⟨fun hp => ?_, fun hp hw => congrArg _ (mbx_core_waits hs hm hup hp hw)⟩⟩
    · have hmay : ((s.mbxRow code).host = true ∧ (s.rd F.KPR_CAP_MASK_DENY).testBit code = false ∧ (s.mbxRow code).lc = true) ↔
          ((s.mbxRow code).host && !bitN (s.rd F.KPR_CAP_MASK_DENY) code) = true ∧ (s.mbxRow code).lc = true := by
        simp [bitN, and_assoc]
      rw [mbx_host hs hm hp hc]
      exact ⟨fun h => congrArg hostReply (mbxRun_denied (mt hmay.mpr h)),
        fun h hf => congrArg hostReply (mbxRun_malformed (hmay.mp h) hf),
        fun h hf => congrArg hostReply (mbxRun_permitted (hmay.mp h) hf)⟩
    · rw [mbx_core hs hm hup hp]
      exact ⟨fun h => congrArg (coreReply _ _) (mbxRun_denied h),
        fun h hlen => congrArg (coreReply _ _) (mbxRun_malformed h (decide_eq_false (Nat.not_le.mpr hlen))),
        fun h hlen => congrArg (coreReply _ _) (mbxRun_permitted h (decide_eq_true hlen))⟩
  · intro asks answered used
    have answers {code : Nat} (h : asks code) := mbx_host_answers hs hm hp h.1 hnvm hf h.2
    have completes {code : Nat} (h : asks code) := mbx_host_completes hs hm hp h.1 hnvm hf h.2
    refine ⟨fun h => answers h rfl rfl rfl, fun h => answers h rfl rfl (getChallenge_draws s),
      fun i h hk hi hh hpay hlc hfree => answers hk rfl ?_ ?_, fun t l ht => ?_⟩
    · exact (Bool.or_eq_true _ _).mpr (.inl (beq_iff_eq.mpr hlc))
    · rw [hpay]
      exact keyProgram_first hi hh hlc hfree
    · have inLc {a b : Nat} (h : s.lc = a ∨ s.lc = b) : (s.lc == a || s.lc == b) = true := by simpa using h
      refine ⟨fun h hlc hok => ?_, fun h hlc hn hok => ?_, fun h hlc hok => ?_, fun h hlc hok => ?_,
        fun i h hlc hi hpay hlive hother hok => ?_, fun h hlc hok => ?_, fun t' l' hl h hlc hmaker howner => ?_⟩
      · exact answers h rfl (inLc (.inl hlc)) (lcProvision_blank ht hlc hok)
      · exact answers h rfl (inLc (.inr hlc)) (lcProvision_returned ht hlc hn hok)
      · exact answers h rfl (beq_iff_eq.mpr hlc) (lcField_owner ht hok)
      · exact completes h rfl (bne_iff_ne.mpr hlc) (lcScrap_token ht hok)
      · exact answers h rfl (inLc hlc) (keyRevoke_owner ht hi hpay hlive hother hok)
      · exact answers h rfl (inLc hlc) (debugUnlock_maker ht hok)
      · intro x u hmode
        exact completes h rfl (beq_iff_eq.mpr hlc) (lcReturn_tokens ht hl hmode hmaker howner)

end Sys2Proof.Machine

namespace Sys2Proof.Machine

/-! ### Image requests (R120, R122, R123, R125, R132) -/

theorem imgMax_le (k : Nat) : imgMax k ≤ 2 ^ 25 := by
  unfold imgMax
  split <;> omega

section ImgBegin
variable {s : State} {p : Bytes} {k n : Nat} (hn : 0 < n) (hmax : n ≤ imgMax k) (hp : p = leB 4 k ++ leB 4 n)
include hn hmax hp

/-- The payload of IMG_BEGIN: a type and a length within its bounds. -/
theorem imgBeginPayload (h1 : 1 ≤ k) (h5 : k ≤ 5) :
    leN p 0 4 = k ∧ leN p 4 4 = n ∧ ¬(p.length ≠ 8 ∨ k = 0 ∨ 5 < k ∨ imgMax k < n ∨ n = 0) := by
  subst hp
  have hle := imgMax_le k
  exact ⟨leN_leB_append (by omega) _, (leN_after_leB 4 k _ 0 4).trans (leN_leB (by omega)), by simp; omega⟩

theorem imgBegin_image (h1 : 1 ≤ k) (h4 : k ≤ 4) (hst : (s.bcr.typ k).state < 2) : s.imgBegin p =
    (let u := (s.bcrWrite (s.bcr.upd k (fun t => { t with state := iIDLE }))).imgPut k (s.inactive k) [];
      { s := { u with kpr := { u.kpr with rx := some { typ := k, total := n } } }, status := mOK }) := by
  obtain ⟨htyp, htotal, hok⟩ := imgBeginPayload hn hmax hp (by omega) (by omega)
  simp only [State.imgBegin, htyp, htotal, if_neg hok, if_neg (show ¬k = 5 by omega), if_neg (Nat.not_le.mpr hst)]

theorem imgBegin_token (hk : k = 5) : s.imgBegin p =
    { s := { s with kpr := { s.kpr with rx := some { typ := k, total := n } } }, status := mOK } := by
  obtain ⟨htyp, htotal, hok⟩ := imgBeginPayload hn hmax hp (by omega) (by omega)
  simp only [State.imgBegin, htyp, htotal, if_neg hok, if_pos hk]

end ImgBegin

section Reception
variable {s : State} {rx : ImgRx} (hrx : s.kpr.rx = some rx)
include hrx

theorem imgData_appends {d : Bytes} (hlt : rx.data.length < 2 ^ 32) (hd : d ≠ []) (hfit : rx.data.length + d.length ≤ rx.total) :
    s.imgData (leB 4 rx.data.length ++ d) =
      (let u := { s with kpr := { s.kpr with rx := some { rx with data := rx.data ++ d } } };
        { s := if rx.typ = 5 then u else u.imgPut rx.typ (s.inactive rx.typ) (rx.data ++ d), status := mOK }) := by
  have hoff : leN (leB 4 rx.data.length ++ d) 0 4 = rx.data.length := leN_leB_append (by omega) _
  have hdrop : (leB 4 rx.data.length ++ d).drop 4 = d := List.drop_left' (length_leB _ _)
  have hpos : 0 < d.length := List.length_pos_iff.mpr hd
  have hok : ¬((leB 4 rx.data.length ++ d).length < 5 ∨ rx.data.length ≠ rx.data.length
      ∨ rx.total < rx.data.length + d.length) := by simp; omega
  simp only [State.imgData, hrx, hoff, hdrop, if_neg hok]
  rfl

variable (hall : rx.data.length = rx.total) (hgood : s.verify rx.typ rx.data = 0)
include hall hgood

theorem imgEnd_stages (hk : rx.typ ≠ 5) : s.imgEnd =
    (let u := { s with kpr := { s.kpr with rx := none } };
      { s := (u.bcrWrite (u.bcr.upd rx.typ (fun t => { t with state := iSTAGED }))).raise (eg 0 10), status := mOK }) := by
  simp only [State.imgEnd, hrx, hall, hgood, hk, ne_eq, not_true_eq_false, if_false]

theorem imgEnd_keeps_token (hk : rx.typ = 5) (hroom : s.kpr.tokens.length < 2) : s.imgEnd =
    { s := { s with kpr := { s.kpr with rx := none, tokens := s.kpr.tokens ++ [rx.data] } }, status := mOK } := by
  have hg : s.verify 5 rx.data = 0 := hk ▸ hgood
  simp only [State.imgEnd, hrx, hall, hk, hg, ne_eq, not_true_eq_false, if_false, if_true, Nat.not_le.mpr hroom]

end Reception

/-- The payload of ARM: its types, its mode and where its tick stands. -/
theorem armPayload {types mode : Nat} {x : Bytes} (ht : types < 16) (hm : mode = 1 ∨ mode = 2) (hx : x.length = 12) :
    (leB 4 types ++ leB 4 mode ++ x).length = 20 ∧ leN (leB 4 types ++ leB 4 mode ++ x) 0 4 = types
    ∧ leN (leB 4 types ++ leB 4 mode ++ x) 4 4 = mode ∧ leN (leB 4 types ++ leB 4 mode ++ x) 8 4 = leN x 0 4
    ∧ leN (leB 4 types ++ leB 4 mode ++ x) 12 8 = leN x 4 8 := by
  rw [List.append_assoc]
  refine ⟨by simp [hx], leN_leB_append (by omega) _, ?_, ?_, ?_⟩
  · exact (leN_after_leB 4 types _ 0 4).trans (leN_leB_append (by omega) _)
  · exact (leN_after_leB 4 types _ 4 4).trans (leN_after_leB 4 mode _ 0 4)
  · exact (leN_after_leB 4 types _ 8 8).trans (leN_after_leB 4 mode _ 4 8)

/-- A set is armed with a mode, for a tick if one is named. -/
def State.armed (s : State) (types mode : Nat) (tick : Option Nat) : State :=
  let u := s.bcrWrite (s.bcr.updSet types (fun t => { t with state := iARMED, armMode := mode }))
  { u with kpr := { u.kpr with armTick := tick } }

section Arm
variable {s : State} {types : Nat} {x : Bytes} (hpos : 0 < types) (hlt : types < 16) (htrial : s.trialSet = 0)
  (hcold : s.armedSet 1 = 0) (hwarm : s.armedSet 2 = 0)
  (hstaged : ∀ i < 4, types.testBit i = true → (s.bcr.typ (i + 1)).state = iSTAGED)
include hpos hlt htrial hcold hwarm hstaged

theorem imgArm_arms {b : Bytes} {mode : Nat} (hlen : b.length = 20) (htypes : leN b 0 4 = types) (hmode : leN b 4 4 = mode)
    (hm : mode = 1 ∨ mode = 2) (hok : mode = 2 → s.warmOk = true)
    (hwarmable : mode = 2 → ∀ i < 4, types.testBit i = true → (i = 1 ∨ i = 2) ∧
      leN (s.imgAt (i + 1) (s.inactive (i + 1))) 0x0E 2 % 2 = 1) :
    s.imgArm b =
      { s := s.armed types mode (if mode = 2 ∧ leN b 8 4 ≠ 0 then some (max (leN b 12 8)
          (s.bcrWrite (s.bcr.updSet types (fun t => { t with state := iARMED, armMode := mode }))).tb.nextTick) else none)
        status := mOK } := by
  subst htypes hmode
  have hargs : ¬(b.length ≠ 20 ∨ leN b 0 4 = 0 ∨ 16 ≤ leN b 0 4 ∨ (leN b 4 4 ≠ 1 ∧ leN b 4 4 ≠ 2)) := by omega
  have hidle : ¬(s.trialSet ≠ 0 ∨ s.armedSet 1 ≠ 0 ∨ s.armedSet 2 ≠ 0
      ∨ !((List.range 4).filter (fun i => bitN (leN b 0 4) i)).all (fun i => (s.bcr.typ (i + 1)).state == iSTAGED)) := by
    simpa [htrial, hcold, hwarm, bitN] using hstaged
  have hmay : ¬(leN b 4 4 = 2 ∧ !((List.range 4).filter (fun i => bitN (leN b 0 4) i)).all (fun i => (i == 1 || i == 2)
      && decide (leN (s.imgAt (i + 1) (s.inactive (i + 1))) 0x0E 2 % 2 = 1))) := by
    simpa [bitN] using hwarmable
  have hready : ¬(leN b 4 4 = 2 ∧ !s.warmOk) := by simpa using hok
  unfold State.imgArm
  dsimp only
  rw [if_neg hargs, if_neg hidle, if_neg hmay, if_neg hready]
  rfl

variable (hx : x.length = 12)
include hx

theorem imgArm_cold : s.imgArm (leB 4 types ++ leB 4 1 ++ x) = { s := s.armed types 1 none, status := mOK } := by
  obtain ⟨hlen, htypes, hmode, -, -⟩ := armPayload hlt (.inl rfl) hx
  have hne : ¬(1 : Nat) = 2 := by decide
  rw [imgArm_arms hpos hlt htrial hcold hwarm hstaged hlen htypes hmode (.inl rfl) (absurd · hne) (absurd · hne),
    if_neg (hne ·.1)]

theorem imgArm_warm (hok : s.warmOk = true) (hwarmable : ∀ i < 4, types.testBit i = true → (i = 1 ∨ i = 2) ∧
      leN (s.imgAt (i + 1) (s.inactive (i + 1))) 0x0E 2 % 2 = 1) :
    s.imgArm (leB 4 types ++ leB 4 2 ++ x) = { s := s.armed types 2 (if leN x 0 4 = 0 then none else some (max (leN x 4 8)
      (s.bcrWrite (s.bcr.updSet types (fun t => { t with state := iARMED, armMode := 2 }))).tb.nextTick)), status := mOK } := by
  obtain ⟨hlen, htypes, hmode, hnamed, htick⟩ := armPayload hlt (.inr rfl) hx
  rw [imgArm_arms hpos hlt htrial hcold hwarm hstaged hlen htypes hmode (.inr rfl) (fun _ => hok) (fun _ => hwarmable),
    hnamed, htick]
  simp only [true_and, ite_not]

end Arm

theorem imgDisarm_armed {s : State} (hne : s.armedSet 1 + s.armedSet 2 ≠ 0) (hswap : s.kpr.swap = none) : s.imgDisarm =
    (let u := s.bcrWrite (s.bcr.updSet (s.armedSet 1 + s.armedSet 2) (fun t => { t with state := iSTAGED, armMode := 0 }));
      { s := { u with kpr := { u.kpr with armTick := none } }, status := mOK }) := by
  have hmay : ¬(s.armedSet 1 + s.armedSet 2 = 0 ∨ s.kpr.swap.isSome) := by simp only [hne, hswap, Option.isSome_none]; decide
  exact if_neg hmay

section Trial
variable {s : State} (h : s.trialSet ≠ 0)
include h

theorem imgConfirm_trial : s.imgConfirm =
    (let b := s.bcr.updSet s.trialSet (fun t => { t with active := 1 - t.active % 2, state := iIDLE, armMode := 0 })
      let live := if s.half (1 - b.setLive) = [] then b.setLive else 1 - b.setLive
      let u := ((s.bcrWrite { b with setLive := live }).raiseSecVer s.trialSet).raise (eg 0 3);
      { s := { u with kpr := { u.kpr with winEnd := none } }, status := mOK }) := by
  simp only [State.imgConfirm, if_neg h, List.isEmpty_iff, kpr_raise]

theorem imgRevert_trial (hm : s.inMode mPROBE = false) :
    s.imgRevert = { s := s, status := mOK, next := fun u => u.revert s.trialSet 5 } := by
  rw [State.imgRevert, if_neg]
  simp [h, hm]

theorem setUnreadable_trial : s.setUnreadable =
    { s := (s.bcrWrite { s.bcr with setFlags := 1 }).raise (eg 0 6), status := mOK, next := fun u => u.revert s.trialSet 2 } :=
  if_neg h

theorem windowExpired_trial {t : Nat} (ht : s.kpr.winEnd = some t) :
    s.windowExpired = (s.advanceUp t).revert (s.advanceUp t).trialSet 1 := by
  simp only [State.windowExpired, ht]
  exact if_pos h

theorem windowLow_trial {t : Nat} (ht : s.kpr.winEnd = some t) (hup : s.tb.up ≤ t - 60 * 10 ^ 9) :
    s.windowLow = (s.advanceUp (t - 60 * 10 ^ 9)).raise (eg 0 11) := by
  simp only [State.windowLow, ht]
  exact if_pos ⟨h, hup⟩

end Trial

/-! ### Settings requests (R128, R129) -/

theorem settingsRead_live {s : State} {p : Bytes} {k : Nat} (hk : k < 2 ^ 128) (hp : p = leB 16 k ++ leB 4 0) : s.settingsRead p =
    { s := s, status := mOK
      pay := match (s.half s.bcr.setLive).reverse.find? (fun r => r.1 == k) with | some r => r.2 | none => [] } := by
  subst hp
  have hkey : leN (leB 16 k ++ leB 4 0) 0 16 = k := leN_leB_append (by omega) _
  have hsel : leN (leB 16 k ++ leB 4 0) 16 4 = 0 := (leN_after_leB 16 k _ 0 4).trans (leN_leB (by omega))
  unfold State.settingsRead
  dsimp only
  rw [hkey, hsel, if_neg (by simp)]
  exact if_neg (absurd ·.1 (by decide))

theorem settingsWrite_live {s : State} {k : Nat} {v : Bytes} (hk : k < 2 ^ 128) (hv : v.length ≤ 4064) (ht : s.trialSet = 0)
    (hfit : halfBytes (s.half s.bcr.setLive ++ [(k, v)]) ≤ halfMax) : s.settingsWrite (leB 16 k ++ v) =
    { s := s.halfPut s.bcr.setLive (s.half s.bcr.setLive ++ [(k, v)]), status := mOK } := by
  have hkey : leN (leB 16 k ++ v) 0 16 = k := leN_leB_append (by omega) _
  have hdrop : (leB 16 k ++ v).drop 16 = v := List.drop_left' (length_leB _ _)
  have hlen : ¬((leB 16 k ++ v).length < 16 ∨ 16 + 4064 < (leB 16 k ++ v).length) := by simp; omega
  simp only [State.settingsWrite, if_neg hlen, hkey, hdrop, ht, ne_eq, not_true_eq_false, if_false, if_pos hfit]

/-! ### Warm swaps (R132–R134) -/

theorem swapStart_due {s : State} (hs : s.kprServes = true) (hr : s.inMode mRUN = true) (hswap : s.kpr.swap = none)
    (ha : s.armedSet 2 ≠ 0) (hdue : s.kpr.armTick = none ∨ ∃ t, s.kpr.armTick = some t ∧ s.running = true ∧ t ≤ s.tick) :
    s.swapStart = ({ s with kpr := { s.kpr with armTick := none } }.swapAt
      { step := 1, back := false, set := s.armedSet 2, start := s.tb.up }).swapShow true := by
  have hdue' : (match s.kpr.armTick with | none => true | some t => s.running && decide (t ≤ s.tick)) = true := by
    obtain h | ⟨t, h, hrun, ht⟩ := hdue
    · rw [h]
    · simp [h, hrun, ht]
  exact if_pos ⟨ha, by simp [hswap], hdue', hr, hs⟩

theorem swapMax_eq (w : Swap) : w.max = if w.step = 1 then 250 else if w.step = 2 then 270 else if w.step = 3 then 330
    else if w.step = 4 then 900 else (if w.has 2 then 900 else 250) + 110 * (w.done + 1) := by
  unfold Swap.max
  split <;> simp_all

theorem kpr_showSecVer (s : State) (k : Nat) (b : Bytes) : (s.showSecVer k b).kpr = s.kpr := wr_kpr ..

section Swapping
variable {s : State} {w : Swap} (hw : s.kpr.swap = some w)
include hw

theorem swapStep_verified (h : w.step = 1) : s.swapStep = s.swapVerified w := by simp only [State.swapStep, hw, h]

theorem swapStep_prepared (h : w.step = 2) : s.swapStep = s.swapPrepared w := by simp only [State.swapStep, hw, h]

theorem swapStep_loaded (h : w.step = 3) : s.swapStep =
    (let u := s.showSecVer 2 s.kpr.fw
    { u with kpr := { u.kpr with fwUp := true } }.swapAt { w with step := 4 }) := by
  simp only [State.swapStep, hw, h, State.swapLoaded, kpr_showSecVer]

theorem swapStep_started (h : w.step = 4) :
    s.swapStep = (if w.back then s.fwStarted.revertNotice else s.fwStarted).swapGal w 0 := by simp only [State.swapStep, hw, h]

theorem swapStep_gallery (h : w.step = 5) (hg : s.galState w.gal = gSERVICE) :
    s.swapStep = s.swapGal { w with done := w.done + 1 } (w.gal + 1) := by
  simp only [State.swapStep, hw, h, if_pos hg]

theorem swapTimeout_back (h : w.back = true) : s.swapTimeout = (s.advanceUp (w.start + w.max * 10 ^ 6)).keeperCmd 4 := by
  simp only [State.swapTimeout, hw, if_pos h]

theorem swapTimeout_forward (h : w.back = false) : s.swapTimeout =
    ((s.advanceUp (w.start + w.max * 10 ^ 6)).bcrRevert w.set 6).swapBack w.set (decide (w.step ≠ 1))
      (w.has 2 && decide (3 ≤ w.step)) := by
  simp only [State.swapTimeout, hw, h, Bool.false_eq_true, if_false]

end Swapping

/-! ### The requests and the swap together -/

/-- Requests that only field firmware may make: CONFIRM and the requests about settings (R137). -/
def fwOnly : List Nat := [0x07, 0x09, 0x0A, 0x0B]

section Rows
variable (s : State)

theorem mbxRow_imgBegin : s.mbxRow 0x02 = ⟨true, true, true, true, State.imgBegin⟩ := rfl

theorem mbxRow_imgData : s.mbxRow 0x03 = ⟨true, true, true, true, State.imgData⟩ := rfl

theorem mbxRow_imgEnd : s.mbxRow 0x04 = ⟨true, true, true, true, fun s _ => s.imgEnd⟩ := rfl

theorem mbxRow_imgArm : s.mbxRow 0x05 = ⟨true, true, true, true, State.imgArm⟩ := rfl

theorem mbxRow_imgDisarm : s.mbxRow 0x06 = ⟨true, true, true, true, fun s _ => s.imgDisarm⟩ := rfl

theorem mbxRow_imgConfirm : s.mbxRow 0x07 = ⟨false, true, true, true, fun s _ => s.imgConfirm⟩ := rfl

theorem mbxRow_imgRevert : s.mbxRow 0x08 = ⟨true, true, true, true, fun s _ => s.imgRevert⟩ := rfl

theorem mbxRow_setUnreadable : s.mbxRow 0x09 = ⟨false, true, true, true, fun s _ => s.setUnreadable⟩ := rfl

theorem mbxRow_settingsRead : s.mbxRow 0x0A = ⟨false, true, true, false, State.settingsRead⟩ := rfl

theorem mbxRow_settingsWrite : s.mbxRow 0x0B = ⟨false, true, true, true, State.settingsWrite⟩ := rfl

end Rows

/-- A request with payload `p`, where it may be asked, completes by the answer of its row. -/
def State.Completes (s : State) (m : Mbx) (p : Bytes) (ans : State → (State → State) → Bytes → Out1) (asks : Nat → Prop) :
    Prop :=
  ∀ {code row u next pay}, asks code → s.mbxRow code = row → (row.host = true ∨ code ∈ fwOnly) → row.fw = true →
    row.lc = true → row.body s p = { s := u, status := mOK, pay := pay, next := next } →
    .next (s.mbx m code) = ans u next pay

section Requesters
variable {s : State} {m : Mbx} {p : Bytes} {ans : State → (State → State) → Bytes → Out1} {asks : Nat → Prop}
  (hs : s.kprServes = true) (hnvm : m.nvm = none)
include hs hnvm

theorem completes_of_host (hm : m.src = .host) (hp : s.rd F.KPR_MBX_STATUS_PENDING ≠ 0) (hf : s.mbxFormat = true)
    (hpay : s.mbxPayload = p) (hasks : ∀ code, asks code = (s.mbxWord 0 % 256 = code ∧ code ∉ fwOnly
      ∧ (s.rd F.KPR_CAP_MASK_DENY).testBit code = false))
    (hans : ∀ u f y, ans u f y = .next (f (u.mbxRespond mOK 0 y)).mbxWaiting) : s.Completes m p ans asks := by
  rintro code _ u next pay hask rfl hhost - hlc hbody
  obtain ⟨hc, hnot, hdeny⟩ := (hasks code).mp hask
  rw [hans]
  exact mbx_host_completes hs hm hp hc hnvm hf hdeny (hhost.resolve_right hnot) hlc (hpay ▸ hbody)

theorem completes_of_core {k : Fin 2} {q : BitVec 16} (hm : m.src = .core k q p) (hup : s.kpr.fwUp = true)
    (hp : s.rd F.KPR_MBX_STATUS_PENDING = 0) (hlen : p.length ≤ 4080)
    (hans : ∀ u f y, ans u f y = .next (f (u.mbxToCore k.val q.toNat mOK 0 y))) : s.Completes m p ans asks := by
  rintro code _ u next pay - rfl - hfw hlc hbody
  rw [hans]
  exact mbx_core_completes hs hm hup hp hnvm hlen hfw hlc hbody

end Requesters

/-- Settles O40: each request completes by its row, whoever asks, and each event of a trial or a swap by the rule of its
operation. -/
theorem keeperRequestsAndSwapsHaveTheirEffects : Obligations.KeeperRequestsAndSwapsHaveTheirEffects := by
  unfold Obligations.KeeperRequestsAndSwapsHaveTheirEffects
  intro s
  refine ⟨fun m p hs hnvm ans asks hwho => ?_, fun htrial t ht => ?_, fun hs hr hswap ha hdue => ?_, fun w hw => ?_⟩
  · have completes : s.Completes m p ans asks := by
      obtain ⟨hm, hp, hf, hpay, hasks, hans⟩ | ⟨k, q, hm, hup, hp, hlen, -, hans⟩ := hwho
      · exact completes_of_host hs hnvm hm hp hf hpay hasks hans
      · exact completes_of_core hs hnvm hm hup hp hlen hans
    refine ⟨?_, ?_, ?_, fun rx h hrx hall hgood => ⟨fun hk => ?_, fun hk hroom => ?_⟩, ?_, ?_,
      fun htrial => ⟨fun h => ?_, fun h hm => ?_, fun h => ?_⟩, ?_, ?_⟩
    · intro k n h h1 h4 hn hmax hst hpay
      exact completes h (mbxRow_imgBegin s) (.inl rfl) rfl rfl (imgBegin_image hn hmax hpay h1 h4 hst)
    · intro n h hn hmax hpay
      exact completes h (mbxRow_imgBegin s) (.inl rfl) rfl rfl (imgBegin_token hn hmax hpay rfl)
    · rintro rx d h hrx hlt hd hfit rfl
      exact completes h (mbxRow_imgData s) (.inl rfl) rfl rfl (imgData_appends hrx hlt hd hfit)
    · exact completes h (mbxRow_imgEnd s) (.inl rfl) rfl rfl (imgEnd_stages hrx hall hgood hk)
    · exact completes h (mbxRow_imgEnd s) (.inl rfl) rfl rfl (imgEnd_keeps_token hrx hall hgood hk hroom)
    · rintro types mode x h hpos hlt hx rfl htrial hcold hwarm hstaged
      refine ⟨?_, ?_⟩
      · rintro rfl
        exact completes h (mbxRow_imgArm s) (.inl rfl) rfl rfl (imgArm_cold hpos hlt htrial hcold hwarm hstaged hx)
      · rintro rfl hok hwarmable
        exact completes h (mbxRow_imgArm s) (.inl rfl) rfl rfl (imgArm_warm hpos hlt htrial hcold hwarm hstaged hx hok hwarmable)
    · rintro types h rfl hne hswap
      exact completes h (mbxRow_imgDisarm s) (.inl rfl) rfl rfl (imgDisarm_armed hne hswap)
    · exact completes h (mbxRow_imgConfirm s) (.inr (by decide)) rfl rfl (imgConfirm_trial htrial)
    · exact completes h (mbxRow_imgRevert s) (.inl rfl) rfl rfl (imgRevert_trial htrial hm)
    · exact completes h (mbxRow_setUnreadable s) (.inr (by decide)) rfl rfl (setUnreadable_trial htrial)
    · intro k h hk hpay
      exact completes h (mbxRow_settingsRead s) (.inr (by decide)) rfl rfl (settingsRead_live hk hpay)
    · rintro k v h hk hv rfl htrial hfit
      exact completes h (mbxRow_settingsWrite s) (.inr (by decide)) rfl rfl (settingsWrite_live hk hv htrial hfit)
  · exact ⟨congrArg Host.Outcome.next (windowExpired_trial htrial ht),
      fun hup => congrArg Host.Outcome.next (windowLow_trial htrial ht hup)⟩
  · exact congrArg Host.Outcome.next (swapStart_due hs hr hswap ha hdue)
  · exact ⟨fun h => congrArg Host.Outcome.next (swapStep_verified hw h),
      fun h => congrArg Host.Outcome.next (swapStep_prepared hw h),
      fun h => congrArg Host.Outcome.next (swapStep_loaded hw h),
      fun h => congrArg Host.Outcome.next (swapStep_started hw h),
      fun h hg => congrArg Host.Outcome.next (swapStep_gallery hw h hg), swapMax_eq w,
      fun h => congrArg Host.Outcome.next (swapTimeout_back hw h),
      fun h => congrArg Host.Outcome.next (swapTimeout_forward hw h)⟩

end Sys2Proof.Machine

namespace Sys2Proof.Machine

/-! ### Link state (R148, R149) -/

/-- The status bit of a port that shows a lost condition. -/
def State.lossShown (s : State) (p : Nat) : LinkCause → State
  | .alignment => s.wr (F.LPT_STATUS_ALIGNED.at p) 0
  | .hiBer => (s.wr (F.LPT_STATUS_HI_BER.at p) 1).portEvt p F.LPT_EVT_HI_BER
  | .localFault => s.wr (F.LPT_STATUS_LF.at p) 1
  | .remoteFault => s.wr (F.LPT_STATUS_RF.at p) 1

/-- The raw state of a port goes down for a cause: the frame in transmission is aborted and UP_HOLD ends. -/
def State.rawLost (s : State) (p : Nat) (c : LinkCause) : State :=
  ((s.lossShown p c).txAbort p).pstUpd p (fun x => { x with upAt := none, planned := [] })

/-- Every condition of a port shown to hold, its lanes measured (R59). -/
def State.rawFound (s : State) (p : Nat) (cal : List LaneCal) : State :=
  ((((s.wr (F.LPT_STATUS_ALIGNED.at p) 1).wr (F.LPT_STATUS_HI_BER.at p) 0).wr (F.LPT_STATUS_LF.at p) 0).wr
    (F.LPT_STATUS_RF.at p) 0).measure p cal

section Links
variable {s : State} {p : Nat}

section InUse
variable (hu : s.inUse p = true)
include hu

theorem rawDown_wasDown {c : LinkCause} (hr : s.rawUp p = false) : s.rawDown p c = s.lossShown p c :=
  (if_neg (by simp [hu])).trans (if_pos (by simp [hr]))

/-- The raw state goes down: what LINK does follows LINK and DOWN_HOLD as they stand then. -/
theorem rawDown_wasUp {c : LinkCause} (hr : s.rawUp p = true) : s.rawDown p c =
    (let x := s.rawLost p c
    if !x.link p then x
    else if x.rd (F.LPT_LINK_CFG_DOWN_HOLD.at p) = 0 then x.linkFalls p
    else x.pstUpd p (fun y => { y with downAt := some x.tb.up })) :=
  (if_neg (by simp [hu])).trans (if_neg (by simp [hr]))

/-- All conditions hold again: what LINK does follows ADMIN_UP, LINK and UP_HOLD as they stand then. -/
theorem rawUpAgain_inUse (cal : List LaneCal) : s.rawUpAgain p cal =
    (let x := s.rawFound p cal
    if !x.adminUp p then x
    else if x.link p then x.pstUpd p (fun y => { y with downAt := none })
    else if x.rd (F.LPT_LINK_CFG_UP_HOLD.at p) = 0 then x.linkRises p
    else x.pstUpd p (fun y => { y with upAt := some x.tb.up })) :=
  if_neg (by simp [hu])

section Down
variable {c : LinkCause} (hr : s.rawUp p = true)
include hr

theorem rawDown_linkDown (hl : (s.rawLost p c).link p = false) : s.rawDown p c = s.rawLost p c :=
  (rawDown_wasUp hu hr).trans (if_pos (by simp [hl]))

variable (hl : (s.rawLost p c).link p = true)
include hl

theorem rawDown_linkFalls (hd : (s.rawLost p c).rd (F.LPT_LINK_CFG_DOWN_HOLD.at p) = 0) :
    s.rawDown p c = (s.rawLost p c).linkFalls p :=
  (rawDown_wasUp hu hr).trans ((if_neg (by simp [hl])).trans (if_pos hd))

theorem rawDown_startsHold (hd : (s.rawLost p c).rd (F.LPT_LINK_CFG_DOWN_HOLD.at p) ≠ 0) :
    s.rawDown p c = (s.rawLost p c).pstUpd p (fun y => { y with downAt := some (s.rawLost p c).tb.up }) :=
  (rawDown_wasUp hu hr).trans ((if_neg (by simp [hl])).trans (if_neg hd))

end Down

section Up
variable {cal : List LaneCal}

theorem rawUpAgain_disabled (ha : (s.rawFound p cal).adminUp p = false) : s.rawUpAgain p cal = s.rawFound p cal :=
  (rawUpAgain_inUse hu cal).trans (if_pos (by simp [ha]))

variable (ha : (s.rawFound p cal).adminUp p = true)
include ha

theorem rawUpAgain_endsDownHold (hl : (s.rawFound p cal).link p = true) :
    s.rawUpAgain p cal = (s.rawFound p cal).pstUpd p (fun y => { y with downAt := none }) :=
  (rawUpAgain_inUse hu cal).trans ((if_neg (by simp [ha])).trans (if_pos hl))

variable (hl : (s.rawFound p cal).link p = false)
include hl

theorem rawUpAgain_linkRises (hd : (s.rawFound p cal).rd (F.LPT_LINK_CFG_UP_HOLD.at p) = 0) :
    s.rawUpAgain p cal = (s.rawFound p cal).linkRises p :=
  (rawUpAgain_inUse hu cal).trans ((if_neg (by simp [ha])).trans ((if_neg (by simp [hl])).trans (if_pos hd)))

theorem rawUpAgain_startsHold (hd : (s.rawFound p cal).rd (F.LPT_LINK_CFG_UP_HOLD.at p) ≠ 0) :
    s.rawUpAgain p cal = (s.rawFound p cal).pstUpd p (fun y => { y with upAt := some (s.rawFound p cal).tb.up }) :=
  (rawUpAgain_inUse hu cal).trans ((if_neg (by simp [ha])).trans ((if_neg (by simp [hl])).trans (if_neg hd)))

end Up

end InUse

theorem downHoldExpired_some {t : Nat} (h : (s.pst p).downAt = some t) :
    s.downHoldExpired p = (s.advanceUp (t + s.rd (F.LPT_LINK_CFG_DOWN_HOLD.at p) * 10 ^ 6)).linkFalls p := by
  simp only [State.downHoldExpired, h]

theorem upHoldExpired_some {t : Nat} (h : (s.pst p).upAt = some t) :
    s.upHoldExpired p = (s.advanceUp (t + s.rd (F.LPT_LINK_CFG_UP_HOLD.at p) * 10 ^ 6)).linkRises p := by
  simp only [State.upHoldExpired, h]

/-! ### ADMIN_UP (R149) -/

theorem wordShape_lptCtrl (p : Fin 146) : wordShape (R.LPT_CTRL.at p.val).addr = some ("LPT_CTRL", [p.val], .w32) := by
  decide +revert +kernel

theorem bar0Write_lptCtrl {n : Fin 146} (hs : s.serves (R.LPT_CTRL.at n.val).addr) (v : Word) :
    s.bar0Write (R.LPT_CTRL.at n.val).addr v = State.adminWritten s (s.hostPut (R.LPT_CTRL.at n.val).addr v) n.val :=
  bar0Write_stores hs (by simp [State.fabGone]) (wordShape_lptCtrl n) rfl rfl rfl _

section Admin
variable {u : State}

theorem adminWritten_off (ho : s.adminUp p = true) (hn : u.adminUp p = false) : State.adminWritten s u p =
    ((u.txAbort p).linkFalls p).pstUpd p (fun x => { x with txOn := false, att := .idle, downAt := none, upAt := none }) :=
  if_pos (by simp [ho, hn])

section On
variable (ho : s.adminUp p = false) (hn : u.adminUp p = true)
include ho hn

/-- A port is started, and its conditions of link up are looked at where they hold already. -/
theorem adminWritten_on : State.adminWritten s u p =
    (let x := u.startAttempt p
    if x.rawUp p && !x.link p then x.rawUpAgain p [] else x) :=
  (if_neg (by simp [ho])).trans (if_pos (by simp [ho, hn]))

theorem adminWritten_starts (h : (u.startAttempt p).rawUp p = false ∨ (u.startAttempt p).link p = true) :
    State.adminWritten s u p = u.startAttempt p := by
  refine (adminWritten_on ho hn).trans (if_neg ?_)
  obtain hr | hl := h
  · simp [hr]
  · simp [hl]

theorem adminWritten_startsUp (hr : (u.startAttempt p).rawUp p = true) (hl : (u.startAttempt p).link p = false) :
    State.adminWritten s u p = (u.startAttempt p).rawUpAgain p [] :=
  (adminWritten_on ho hn).trans (if_pos (by simp [hr, hl]))

end On

theorem adminWritten_same (h : s.adminUp p = u.adminUp p) : State.adminWritten s u p = u :=
  (if_neg (by simp [h])).trans (if_neg (by simp [h]))

end Admin

/-! ### Start attempts (R145, R150) -/

section Running
variable (h : (s.pst p).att = .running)
include h

theorem attemptTimeout_running : s.attemptTimeout p =
    (let u := s.advanceUp ((s.pst p).attAt + (if s.usesAn p then 3 else 2) * 10 ^ 9)
    u.pstUpd p (fun x => { x with att := .waiting, attAt := u.tb.up, adapt := none })) := by
  simp only [State.attemptTimeout, h]

theorem anComplete_running (ha : s.usesAn p = true) (ok : Bool) : s.anComplete p ok =
    if ok then s.wr (F.LPT_STATUS_AN_DONE.at p) 1 else (s.wr (F.LPT_STATUS_AN_FAIL.at p) 1).portEvt p F.LPT_EVT_AN_FAIL := by
  simp only [State.anComplete, h]
  exact if_neg (by simp [ha])

end Running

section Waiting
variable (h : (s.pst p).att = .waiting)
include h

theorem retryExpired_waiting : s.retryExpired p = (s.advanceUp ((s.pst p).attAt + 10 ^ 9)).startAttempt p := by
  simp only [State.retryExpired, h]

theorem partnerSignal_waiting : s.partnerSignal p = s.startAttempt p := by simp only [State.partnerSignal, h]

end Waiting

end Links

/-- Settles O41: each event by the rule of its operation; a write of ADMIN_UP stores LPT_CTRL and acts on the change of the bit. -/
theorem linksFollowCausesFiltersAndAttempts : Obligations.LinksFollowCausesFiltersAndAttempts := by
  unfold Obligations.LinksFollowCausesFiltersAndAttempts
  intro s p n
  refine ⟨fun hu => ⟨fun c => ?_, fun cal => ?_⟩, fun t ht => congrArg Host.Outcome.next (downHoldExpired_some ht),
    fun t ht => congrArg (fun x : State => Host.Outcome.next (x.directPump n)) (upHoldExpired_some ht), fun v hs => ?_,
    fun h => ⟨congrArg Host.Outcome.next (attemptTimeout_running h), fun ha =>
      ⟨congrArg Host.Outcome.next (anComplete_running h ha true), congrArg Host.Outcome.next (anComplete_running h ha false)⟩⟩,
    fun h => ⟨congrArg Host.Outcome.next (retryExpired_waiting h), congrArg Host.Outcome.next (partnerSignal_waiting h)⟩⟩
  · intro u x
    have hexec : exec (.linkRawDown p c) s = .next (s.rawDown n c) := rfl
    have hx : x = s.rawLost n c := rfl
    rw [hexec, hx]
    exact ⟨fun hr => congrArg _ (rawDown_wasDown hu hr), fun hr => ⟨fun hl => congrArg _ (rawDown_linkDown hu hr hl),
      fun hl hd => congrArg _ (rawDown_linkFalls hu hr hl hd), fun hl hd => congrArg _ (rawDown_startsHold hu hr hl hd)⟩⟩
  · intro u x
    have hexec : exec (.linkRawUp p cal) s = .next ((s.rawUpAgain n cal).directPump n) := rfl
    have hx : x = s.rawFound n cal := rfl
    have thenPump {t : State} (h : s.rawUpAgain n cal = t) : exec (.linkRawUp p cal) s = .next (t.directPump n) := h ▸ hexec
    rw [hx]
    exact ⟨fun ha => thenPump (rawUpAgain_disabled hu ha), fun ha => ⟨fun hl => thenPump (rawUpAgain_endsDownHold hu ha hl),
      fun hl hd => thenPump (rawUpAgain_linkRises hu ha hl hd), fun hl hd => thenPump (rawUpAgain_startsHold hu ha hl hd)⟩⟩
  · intro u
    have hexec : exec (.adminUpWrite p v) s = .next (State.adminWritten s u n) := congrArg Host.Outcome.next (bar0Write_lptCtrl hs v)
    rw [hexec]
    exact ⟨fun ho hn => congrArg _ (adminWritten_off ho hn), fun ho hn => ⟨fun h => congrArg _ (adminWritten_starts ho hn h),
      fun hr hl => congrArg _ (adminWritten_startsUp ho hn hr hl)⟩, fun h => congrArg _ (adminWritten_same h)⟩

end Sys2Proof.Machine

namespace Sys2Proof.Machine

/-! ### Entries of a sparse map, and Reset values (R12) -/

section Entries
variable {V : Type}

/-- A key that no entry has reads as its default. -/
theorem mget_of_forall_ne (d : Nat → V) {m : SMap V} {k : Nat} (h : ∀ e ∈ m, e.1 ≠ k) : mget d m k = d k := by
  induction m with
  | nil => rfl
  | cons e m ih =>
    rw [mget, if_neg (h e List.mem_cons_self)]
    exact ih fun x hx => h x (List.mem_cons_of_mem e hx)

/-- Keys that rise above a bound are above it. -/
theorem lt_of_mrising {b : Nat} {m : SMap V} (h : mrising (some b) m = true) {e : Nat × V} (he : e ∈ m) : b < e.1 := by
  induction m generalizing b with
  | nil => cases he
  | cons x m ih =>
    simp only [mrising, Bool.and_eq_true, decide_eq_true_eq] at h
    obtain ⟨hx, hm⟩ := h
    obtain rfl | he := List.mem_cons.mp he
    · exact hx
    · exact hx.trans (ih hm he)

/-- With rising keys each entry is what its key reads as. -/
theorem mget_of_mem (d : Nat → V) {b : Option Nat} {m : SMap V} (h : mrising b m = true) {e : Nat × V} (he : e ∈ m) :
    mget d m e.1 = e.2 := by
  induction m generalizing b with
  | nil => cases he
  | cons x m ih =>
    simp only [mrising, Bool.and_eq_true] at h
    obtain ⟨-, hm⟩ := h
    obtain rfl | he := List.mem_cons.mp he
    · exact if_pos rfl
    · exact (if_neg (lt_of_mrising hm he).ne).trans (ih hm he)

/-- Setting the entries of a list, whose values are those of `f`, changes the keys it names only. -/
theorem mget_foldl_mset_entries [DecidableEq V] (d f : Nat → V) {l : SMap V} (h : ∀ e ∈ l, e.2 = f e.1) (m : SMap V) (j : Nat) :
    mget d (l.foldl (fun m e => mset d m e.1 e.2) m) j = if j ∈ l.map Prod.fst then f j else mget d m j := by
  have hf : l.foldl (fun m e => mset d m e.1 e.2) m = l.foldl (fun m e => mset d m e.1 (f e.1)) m :=
    List.foldl_ext _ _ _ fun _ e he => by rw [h e he]
  rw [hf, ← mget_foldl_mset, List.foldl_map]

end Entries

/-- Words written one after the other read back. -/
theorem rdw_foldS_wrw (s : State) (a : Nat) (f : Nat → Word) {n i : Nat} (hi : i < n) :
    (foldS (List.range n) (fun i s => s.wrw (a + 4 * i) (f i)) s).rdw (a + 4 * i) = f i := by
  induction n with
  | zero => omega
  | succ n ih =>
    rw [foldS, List.range_succ, List.foldl_append, List.foldl_cons, List.foldl_nil, rdw_wrw]
    split
    · next he => rw [show i = n by omega]
    · next he => exact ih (by omega)

/-- The block of a word spans its offset. -/
theorem findBlock_spans {bs : List RegBlock} {a : Nat} {b : RegBlock} (h : findBlock bs a = some b) :
    b.base ≤ a ∧ a < b.base + b.span := by
  induction bs with
  | nil => cases h
  | cons c bs ih =>
    unfold findBlock at h
    split at h
    · next hc => cases h; simpa using hc
    · exact ih h

/-- The row of a word is a row of the block that spans it, without the fields reserved there. -/
theorem regRow_spans {a : Nat} {r : RegRow} {ix : List Nat} (h : regRow a = some (r, ix)) :
    ∃ b q p, b ∈ regBlocks ∧ b.base ≤ a ∧ a < b.base + b.span ∧ q ∈ b.rows ∧ r = { q with fields := q.fields.filter p } := by
  unfold regRow at h
  split at h
  · cases h
  · next b hb =>
    obtain ⟨⟨q, jx⟩, hq, he⟩ := Option.map_eq_some_iff.mp h
    obtain ⟨hq, -⟩ := Option.filter_eq_some_iff.mp hq
    obtain ⟨hbase, hspan⟩ := findBlock_spans hb
    cases he
    exact ⟨b, q, _, findBlock_mem hb, hbase, hspan, (findRow_mem hq).1, rfl⟩

/-- A word whose fields all have Reset value 0 is 0 at reset. -/
theorem regReset_eq_zero {a : Nat} (h : ∀ r ix, regRow a = some (r, ix) → ∀ f ∈ r.fields, fieldReset r ix f = 0) :
    regReset a = 0 := by
  unfold regReset
  split
  · rfl
  · next r ix hreg =>
    have hsum : r.fields.foldl (fun acc f => acc + fieldReset r ix f * 2 ^ f.lo) 0 = r.fields.foldl (fun acc _ => acc) 0 :=
      List.foldl_ext _ _ _ fun acc f hf => by rw [h r ix hreg f hf, Nat.zero_mul, Nat.add_zero]
    rw [hsum, List.foldl_fixed]
    rfl

/-- Every word in the span of the time-slot interchange is 0 at reset. -/
theorem regReset_tsi {a : Nat} (hlo : 0x300000 ≤ a) (hhi : a < 0x400000) : regReset a = 0 := by
  have hblocks : ∀ b ∈ regBlocks, b.base < 0x400000 → 0x300000 < b.base + b.span → ∀ q ∈ b.rows,
      q.name ≠ "EVT_MAP" ∧ q.name ≠ "CLS_QOS_MAP" ∧ ∀ f ∈ q.fields, f.reset = 0 := by decide +kernel
  refine regReset_eq_zero fun r ix hreg f hf => ?_
  obtain ⟨b, q, p, hb, hbase, hspan, hq, rfl⟩ := regRow_spans hreg
  obtain ⟨hevt, hqos, hzero⟩ := hblocks b hb (by omega) (by omega) q hq
  simp only [fieldReset, if_neg hevt, if_neg hqos]
  exact hzero f (List.mem_of_mem_filter hf)

/-! ### Lane signals (R163, R164) -/

section LaneSignal
variable {s : State} {g l k : Nat} (hk : s.ifOfLane g l = some k) (hr : (s.oif g k).run = true)
include hk hr

/-- The signal of a lane is as its dLOS bit shows it. -/
theorem laneSignal_same {ok : Bool} (hb : bitN (s.rd (ifc F.OTN_IF_STATUS_LANE_LOS g k)) (l - k) = !ok) :
    s.laneSignal g l ok = s := by
  simp [State.laneSignal, hk, hr, hb]

theorem laneSignal_found (hb : bitN (s.rd (ifc F.OTN_IF_STATUS_LANE_LOS g k)) (l - k) = true) :
    s.laneSignal g l true = ((s.wr (ifc F.OTN_IF_STATUS_LANE_LOS g k)
      (s.rd (ifc F.OTN_IF_STATUS_LANE_LOS g k) - 2 ^ (l - k))).raise (otnSrc g)).ifUp g k := by
  simp [State.laneSignal, hk, hr, hb]

theorem laneSignal_lost (hb : bitN (s.rd (ifc F.OTN_IF_STATUS_LANE_LOS g k)) (l - k) = false) :
    s.laneSignal g l false = (((s.wr (ifc F.OTN_IF_STATUS_LANE_LOS g k)
      (setBit (s.rd (ifc F.OTN_IF_STATUS_LANE_LOS g k)) (l - k))).raise (otnSrc g)).loseLane g k (l - k)).ifUp g k := by
  simp [State.laneSignal, hk, hr, hb]

end LaneSignal

/-! ### Alignment processes (R163, R164, R167) -/

theorem alignLock_idle {s : State} {g k : Nat} (hr : (s.oif g k).run = false) (p : AlignProc) : s.alignLock g k p = s :=
  if_pos (by simp [hr])

theorem alignLoss_idle {s : State} {g k : Nat} (hr : (s.oif g k).run = false) (p : AlignProc) : s.alignLoss g k p = s :=
  if_pos (by simp [hr])

section Align
variable {s : State} {g k : Nat} (hr : (s.oif g k).run = true)
include hr

/-- While the framer runs, what an alignment event does ends with UP as it then stands. -/
theorem run_then_ifUp {x t : State} (h : x = t) : (if !(s.oif g k).run then s else x.ifUp g k) = t.ifUp g k := by
  rw [h]
  exact if_neg (by simp [hr])

section Lane
variable {i : Nat} (hm : s.grpMode g ≠ 3)
include hm

theorem alignLock_lane (hi : i < s.ifLanes g k) (hl : bitN (s.rd (ifc F.OTN_IF_STATUS_LANE_LOS g k)) i = false) :
    s.alignLock g k (.lane i) = ((s.oifUpd g k (fun x => { x with am := setBit x.am i })).showLof g k).ifUp g k :=
  run_then_ifUp hr (if_pos (by simp [hm, hi, hl]))

theorem alignLoss_lane (ha : bitN (s.oif g k).am i = true) : s.alignLoss g k (.lane i) = (s.loseLane g k i).ifUp g k :=
  run_then_ifUp hr (if_pos (by simp [hm, ha]))

end Lane

section LaneMarkers
variable (hm : s.grpMode g = 3)
include hm

theorem alignLock_laneMarkers (hl : s.lanesOk g k = true) : s.alignLock g k .laneMarkers =
    ((s.oifUpd g k (fun x => { x with lol := true })).defect g k F.OTN_IF_STATUS_LOL false).ifUp g k :=
  run_then_ifUp hr (if_pos (by simp [hm, hl]))

theorem alignLoss_laneMarkers (hl : (s.oif g k).lol = true) :
    s.alignLoss g k .laneMarkers = (s.loseLane g k 0).ifUp g k :=
  run_then_ifUp hr (if_pos (by simp [hm, hl]))

end LaneMarkers

theorem alignLock_fas (ha : s.aboveFas g k = true) : s.alignLock g k .fas = (s.setFas g k true).ifUp g k :=
  run_then_ifUp hr (if_pos ha)

theorem alignLock_mfas (ha : s.aboveFas g k = true) (hf : (s.oif g k).fas = true) :
    s.alignLock g k .mfas = (s.setMfas g k true).ifUp g k :=
  run_then_ifUp hr (if_pos (by simp [ha, hf]))

/-- FAS does not lock below a process out of lock. -/
theorem alignLock_fas_below (ha : s.aboveFas g k = false) : s.alignLock g k .fas = s.ifUp g k :=
  run_then_ifUp hr (if_neg (by simp [ha]))

/-- MFAS does not lock below a process out of lock. -/
theorem alignLock_mfas_below (ha : s.aboveFas g k = false) : s.alignLock g k .mfas = s.ifUp g k :=
  run_then_ifUp hr (if_neg (by simp [ha]))

theorem alignLoss_fas (hf : (s.oif g k).fas = true) :
    s.alignLoss g k .fas = ((s.setFas g k false).setMfas g k false).ifUp g k :=
  run_then_ifUp hr (if_pos hf)

theorem alignLoss_mfas (hf : (s.oif g k).mfas = true) : s.alignLoss g k .mfas = (s.setMfas g k false).ifUp g k :=
  run_then_ifUp hr (if_pos hf)

theorem alignLoss_slice {i : Nat} (hi : s.sliceSeen g k i = true) : s.alignLoss g k (.slice i) =
    ((s.oifUpd g k (fun x => { x with skew := setBit x.skew i })).showLof g k).ifUp g k :=
  run_then_ifUp hr (if_pos hi)

theorem alignLock_slice {i : Nat} (hi : s.sliceSeen g k i = true) : s.alignLock g k (.slice i) =
    ((s.oifUpd g k (fun x => { x with skew := if bitN x.skew i then x.skew - 2 ^ i else x.skew })).showLof g k).ifUp g k :=
  run_then_ifUp hr (if_pos hi)

theorem alignLoss_bdi (hf : (s.oif g k).fas = true) : s.alignLoss g k .bdi =
    ((s.oifUpd g k (fun x => { x with farSeen := true })).defect g k F.OTN_IF_STATUS_BDI true).ifUp g k :=
  run_then_ifUp hr (if_pos hf)

theorem alignLock_bdi : s.alignLock g k .bdi = (s.defect g k F.OTN_IF_STATUS_BDI false).ifUp g k :=
  if_neg (by simp [hr])

section Maintenance
variable {c : Nat} (hc : c < 8) (hon : s.pcOn g c = true)
include hc hon

theorem alignLoss_maint : s.alignLoss g k (.maint c) = (s.pcSet g c (fun x => { x with maint := true })).ifUp g k :=
  run_then_ifUp hr (if_pos (by simp [hc, hon]))

theorem alignLock_maint : s.alignLock g k (.maint c) = (s.pcSet g c (fun x => { x with maint := false })).ifUp g k :=
  run_then_ifUp hr (if_pos (by simp [hc, hon]))

end Maintenance

theorem defectPersist_oof : s.defectPersist g k false = (let u := s.advanceUp ((s.oif g k).fasAt + 3 * 10 ^ 6)
    (u.defect g k F.OTN_IF_STATUS_LOF (u.on (ifc F.OTN_IF_STATUS_OOF g k))).ifUp g k) := by
  simp only [State.defectPersist, hr, Bool.not_true, Bool.false_eq_true, if_false]

theorem defectPersist_oom : s.defectPersist g k true = (let u := s.advanceUp ((s.oif g k).mfasAt + 3 * 10 ^ 6)
    (u.defect g k F.OTN_IF_STATUS_LOM (u.on (ifc F.OTN_IF_STATUS_OOM g k))).ifUp g k) := by
  simp only [State.defectPersist, hr, Bool.not_true, Bool.false_eq_true, if_false, if_true]

end Align

/-! ### Trail trace identifiers (R166) -/

/-- The accepted TTI of element `i` of a group is stored. -/
def State.ttiStored (s : State) (g i : Nat) (tti : Bytes) : State := s.wrBytes (ttiAddr g i + 0x80) 16 tti

/-- dTIM of an accepted TTI against the expected one of element `i`, by TIM_MODE of OIg.k. -/
def State.ttiMismatch (u : State) (g k i : Nat) (tti : Bytes) : Bool :=
  timOf (u.rd (ifc F.OTN_IF_CFG_TIM_MODE g k)) tti (u.rdBytes (ttiAddr g i) 8)

theorem ttiAccept_sm {s : State} {g i : Nat} (hi : i < 8) (hon : s.ifOn g i = true) (hm : (s.oif g i).mfas = true) (tti : Bytes) :
    s.ttiAccept g i tti = (let u := s.ttiStored g i tti
      (u.defect g i F.OTN_IF_STATUS_TIM (u.ttiMismatch g i i tti)).ifUp g i) := by
  simp only [State.ttiAccept, if_pos hi, hon, hm, Bool.not_true, Bool.or_self, Bool.false_eq_true, if_false]
  rfl

theorem ttiAccept_pm {s : State} {g i k : Nat} (hi : 8 ≤ i) (hon : s.pcOn g (i - 8) = true)
    (hif : s.rd (pcf F.OTN_PC_CFG_IF g (i - 8)) = k) (hm : (s.oif g k).mfas = true) (tti : Bytes) :
    s.ttiAccept g i tti = (let u := s.ttiStored g i tti
      u.pcSet g (i - 8) (fun x => { x with tim := u.ttiMismatch g k i tti })) := by
  simp only [State.ttiAccept, if_neg (not_lt.mpr hi), hif, hon, hm, Bool.not_true, Bool.or_self, Bool.false_eq_true, if_false]
  rfl

/-! ### Performance monitoring (R168–R172) -/

/-- An entity after its second: both of its ends are evaluated where its bin is valid. -/
def State.entEvaluated (v : State) (obs : List PmObs) (late day : Bool) (x : Nat × PmEnt) : PmEnt :=
  if x.2.cur.valid then (x.2.second false (v.secOf obs x.1 false late day)).second true (v.secOf obs x.1 true late day)
  else x.2

/-- Every entity is evaluated over the second that ends at SECONDS `t`. -/
def State.secEvaluated (v : State) (obs : List PmObs) (t : Nat) : State :=
  { v with
    pm := v.pm.map (fun x => (x.1, v.entEvaluated obs (decide (v.pmLate = some t)) (v.dayCloses t) x))
    pmLast := t
    pmLate := none }

section Evaluated
variable (v : State) (obs : List PmObs) (t : Nat)

theorem secEvaluated_pm : (v.secEvaluated obs t).pm =
    v.pm.map (fun x => (x.1, v.entEvaluated obs (decide (v.pmLate = some t)) (v.dayCloses t) x)) := rfl

theorem secEvaluated_rest :
    { v.secEvaluated obs t with pm := v.pm, pmLast := v.pmLast, pmLate := v.pmLate } = v := rfl

end Evaluated

/-- Time has reached the end of second `t`, and the closing instants before it are applied. -/
def State.secReached (s : State) (t : Nat) : State :=
  let u := s.advanceTo (t * 10 ^ 9 * tuNs)
  u.pmCatchUp u.pmSus (t - 1)

section Monitor
variable {s : State} (hd : s.inMode mDORMANT = false) (hl : s.inMode mLULL = false)
include hd hl

theorem pmSecond_on (obs : List PmObs) :
    s.pmSecond obs = ((s.secReached s.nextSecond).secEvaluated obs s.nextSecond).secBegin := by
  have hend (v : State) (late day : Bool) (x : Nat × PmEnt) : v.entEvaluated obs late day x =
      if !x.2.cur.valid then x.2
      else (x.2.second false (v.secOf obs x.1 false late day)).second true (v.secOf obs x.1 true late day) := by
    cases hv : x.2.cur.valid <;> simp [State.entEvaluated, hv]
  simp only [State.secEvaluated, hend]
  exact if_neg (by simp [hd, hl])

theorem pmBinClose_on : s.pmBinClose = (let u := s.advanceTo (s.pmNext * 10 ^ 9 * tuNs)
    u.pmCatchUp u.pmSus (u.ns / 10 ^ 9)) :=
  if_neg (by simp [hd, hl])

end Monitor

/-- OTN_PM_DATA shows the words of the selected current bin. -/
theorem rdw_pmSel_current (s : State) (g : Nat) {ent i : Nat} (he : ent < 16) (hi : i < 10) :
    (s.pmSel g ent 0).rdw ((R.OTN_PM_DATA.at g).addr + 4 * i) =
      BitVec.ofNat 32 ((mget (fun _ => ({} : PmEnt)) s.pm (g * 16 + ent)).cur.words.getD i 0) := by
  rw [State.pmSel, if_neg (by omega), if_pos rfl]
  exact rdw_foldS_wrw _ _ _ hi

theorem wordShape_pmSel (g : Fin 18) : wordShape (R.OTN_PM_SEL.at g.val).addr = some ("OTN_PM_SEL", [g.val], .w32) := by
  decide +revert +kernel

theorem bar0Write_pmSel {s : State} {g : Fin 18} (hs : s.serves (R.OTN_PM_SEL.at g.val).addr) (v : Word) :
    s.bar0Write (R.OTN_PM_SEL.at g.val).addr v = s.pmSel g.val (bits v.toNat 15 8) (bits v.toNat 7 0) :=
  bar0Write_taken hs (by simp [State.fabGone]) (wordShape_pmSel g) rfl rfl _

/-! ### A switch of the time-slot interchange (R177, R178) -/

theorem bar0Write_tsiCtrl {s : State} (hs : s.serves R.TSI_CTRL.addr) {v : Word} (hgo : bitN v.toNat 0 = true) :
    s.bar0Write R.TSI_CTRL.addr v = (s.hostPut R.TSI_CTRL.addr v).tsiGo := by
  rw [bar0Write_stores hs (by simp [State.fabGone]) (name := "TSI_CTRL") (ix := []) (by decide +kernel) rfl rfl rfl]
  exact if_pos hgo

/-- The first entry of the standby page that breaks a rule. -/
def State.tsiBad (s : State) : Option (Nat × Word) := (s.tsiPage R.TSI_STBY.addr).find? (fun e => s.tsiCheck e.1 e.2 != 0)

/-- TICK_LATE shows a switch whose tick has passed. -/
def State.tsiLate (s : State) : State :=
  if s.tickPassed (s.rd64 R.TSI_SW_TICK) then s.wr F.TSI_STATUS_TICK_LATE 1 else s

/-- TSI_STATUS and TSI_CTRL show a switch that pends. -/
def State.tsiMarked (s : State) : State :=
  ((s.tsiLate.wr F.TSI_STATUS_PENDING 1).wr F.TSI_STATUS_ERR 0).wr F.TSI_CTRL_GO 1

/-- The enabled interfaces, in order. -/
def State.ifsOn (s : State) : List Nat :=
  (List.range 18).flatMap (fun g => (List.range 8).filterMap (fun k => if s.ifOn g k then some (g * 8 + k) else none))

/-- The tick of a switch: the next one where its own has passed. -/
def State.tsiTickFor (s : State) : Nat :=
  if s.tickPassed (s.rd64 R.TSI_SW_TICK) then s.tb.nextTick else s.rd64 R.TSI_SW_TICK

/-- A switch pends for its tick, with every enabled interface to copy. -/
def State.tsiPend (s : State) : State := { s.tsiMarked with tsi := { tick := s.tsiTickFor, left := s.tsiMarked.ifsOn } }

section Go
variable {s : State} (hp : s.rd F.TSI_STATUS_PENDING = 0)
include hp

theorem tsiGo_stopped (hr : s.running = false) : s.tsiGo = s.tsiReject 3 0 :=
  (if_neg (by simp [State.on, hp])).trans (if_pos (by simp [hr]))

variable (hr : s.running = true)
include hr

theorem tsiGo_bad {e : Nat × Word} (h : s.tsiBad = some e) : s.tsiGo = s.tsiReject (s.tsiCheck e.1 e.2) e.1 := by
  rw [State.tsiBad] at h
  simp [State.tsiGo, State.on, hp, hr, h]

theorem tsiGo_good (h : s.tsiBad = none) : s.tsiGo = s.tsiPend := by
  rw [State.tsiBad] at h
  simp only [State.tsiGo, State.on, hp, hr, h, State.tsiPend, State.tsiMarked, State.ifsOn, State.tsiTickFor, State.tsiLate,
    ne_eq, not_true_eq_false, decide_false, Bool.not_true, Bool.false_eq_true, if_false]
  by_cases ht : s.tickPassed (s.rd64 R.TSI_SW_TICK) = true
  · simp only [ht, if_true, wr_tb]
  · simp only [if_neg ht]

end Go

theorem rd_pending_tsiPend (s : State) : s.tsiPend.rd F.TSI_STATUS_PENDING = 1 := by
  have hregs : s.tsiPend.regs = s.tsiMarked.regs := rfl
  rw [rd_congr hregs, State.tsiMarked, rd_wr_apart _ _ _ _ (by decide), rd_wr_apart _ _ _ _ (by decide),
    rd_wr_same _ _ _ (by decide)]
  rfl

theorem rd_err_tsiPend (s : State) : s.tsiPend.rd F.TSI_STATUS_ERR = 0 := by
  have hregs : s.tsiPend.regs = s.tsiMarked.regs := rfl
  rw [rd_congr hregs, State.tsiMarked, rd_wr_apart _ _ _ _ (by decide), rd_wr_same _ _ _ (by decide)]
  rfl

theorem tsiGroup_switches {s : State} {g k : Nat} (hp : s.rd F.TSI_STATUS_PENDING ≠ 0)
    (hleft : s.tsi.left.contains (g * 8 + k) = true) (hr : s.running = true) (hl : s.inMode mLULL = false) :
    s.tsiGroup g k = (let u := (s.advanceTo (s.tickNs s.tsi.tick * tuNs)).tsiCopy g k R.TSI_STBY.addr R.TSI_ACT.addr
      { u with tsi := { u.tsi with left := u.tsi.left.filter (· ≠ g * 8 + k) } }) :=
  if_pos (by rw [(on_iff s _).mpr hp, hleft, hr, hl]; rfl)

/-! ### Pages made equal (R177) -/

/-- An entry of a page is a listed word of the page's registers. -/
theorem mem_tsiPage {s : State} {base d : Nat} {w : Word} :
    (d, w) ∈ s.tsiPage base ↔ d < 5760 ∧ (base + d * 4, w) ∈ s.regs := by
  simp only [State.tsiPage, List.mem_map, List.mem_filter, Bool.and_eq_true, decide_eq_true_eq, Prod.mk.injEq]
  constructor
  · rintro ⟨⟨a, x⟩, ⟨hmem, ⟨hlo, hhi⟩, hmod⟩, rfl, rfl⟩
    dsimp only at *
    exact ⟨by omega, by rwa [show base + (a - base) / 4 * 4 = a by omega]⟩
  · rintro ⟨hd, hmem⟩
    exact ⟨(base + d * 4, w), ⟨hmem, ⟨by omega, by omega⟩, by omega⟩, by omega, rfl⟩

/-- The words outside the standby page. -/
def State.stbyCleared (s : State) : SMap Word :=
  s.regs.filter (fun e => decide (e.1 < R.TSI_STBY.addr) || decide (R.TSI_STBY.addr + 5760 * 4 ≤ e.1))

/-- The entries of the active page at the offsets of the standby page. -/
def State.stbyNew (s : State) : SMap Word := (s.tsiPage R.TSI_ACT.addr).map (fun e => (R.TSI_STBY.addr + e.1 * 4, e.2))

/-- The standby page takes the entries of the active one. -/
def State.pagesEqual (s : State) : State :=
  { s with regs := s.stbyNew.foldl (fun m (e : Nat × Word) => mset regReset m e.1 e.2) s.stbyCleared }

/-- The active word that belongs to an offset of the standby page. -/
def State.actFor (s : State) (a : Nat) : Word := s.rdw (a - R.TSI_STBY.addr + R.TSI_ACT.addr)

section Pages
variable {s : State}

theorem actFor_stby (d : Nat) : s.actFor (R.TSI_STBY.at d).addr = s.rdw (R.TSI_ACT.at d).addr := by
  have haddr : (R.TSI_STBY.at d).addr - R.TSI_STBY.addr + R.TSI_ACT.addr = (R.TSI_ACT.at d).addr := by
    simp only [Reg.at, R.TSI_STBY, R.TSI_ACT]
    omega
  rw [State.actFor, haddr]

/-- An entry taken is what the active page reads as. -/
theorem stbyNew_values (h : s.RegsCanon) : ∀ e ∈ s.stbyNew, e.2 = s.actFor e.1 := by
  simp only [State.RegsCanon, mwf, Bool.and_eq_true] at h
  obtain ⟨hrise, -⟩ := h
  simp only [State.stbyNew, List.mem_map]
  rintro _ ⟨⟨d, w⟩, hentry, rfl⟩
  obtain ⟨-, hmem⟩ := mem_tsiPage.mp hentry
  have hread : s.rdw (R.TSI_ACT.addr + d * 4) = w := mget_of_mem regReset hrise hmem
  exact hread.symm.trans (actFor_stby d).symm

variable {d : Nat} (hd : d < 5760)
include hd

/-- A slot of which no entry is taken has none in the active page. -/
theorem rdw_act_of_not_new (h : (R.TSI_STBY.at d).addr ∉ s.stbyNew.map Prod.fst) : s.rdw (R.TSI_ACT.at d).addr = 0 := by
  have hunlisted : s.rdw (R.TSI_ACT.at d).addr = regReset (R.TSI_ACT.at d).addr := by
    refine mget_of_forall_ne _ fun e he hkey => h ?_
    have hentry : (d, e.2) ∈ s.tsiPage R.TSI_ACT.addr := by
      refine mem_tsiPage.mpr ⟨hd, ?_⟩
      have haddr : R.TSI_ACT.addr + d * 4 = e.1 := hkey.symm
      rwa [haddr]
    exact List.mem_map_of_mem (List.mem_map_of_mem hentry)
  exact hunlisted.trans (regReset_tsi (by simp only [Reg.at, R.TSI_ACT]; omega) (by simp only [Reg.at, R.TSI_ACT]; omega))

theorem mget_stbyCleared : mget regReset s.stbyCleared (R.TSI_STBY.at d).addr = 0 := by
  have hgone : mget regReset s.stbyCleared (R.TSI_STBY.at d).addr = regReset (R.TSI_STBY.at d).addr := by
    refine mget_of_forall_ne _ fun e he => ?_
    obtain ⟨-, hout⟩ := List.mem_filter.mp he
    rw [Bool.or_eq_true, decide_eq_true_eq, decide_eq_true_eq] at hout
    simp only [Reg.at, R.TSI_STBY] at hout ⊢
    omega
  exact hgone.trans (regReset_tsi (by simp only [Reg.at, R.TSI_STBY]; omega) (by simp only [Reg.at, R.TSI_STBY]; omega))

/-- After the pages are made equal each standby entry reads as the active one. -/
theorem rdw_pagesEqual (h : s.RegsCanon) : s.pagesEqual.rdw (R.TSI_STBY.at d).addr = s.rdw (R.TSI_ACT.at d).addr := by
  refine (mget_foldl_mset_entries regReset s.actFor (stbyNew_values h) s.stbyCleared _).trans ?_
  split
  · exact actFor_stby d
  · next hnot => rw [mget_stbyCleared hd, rdw_act_of_not_new hd hnot]

end Pages

/-- A switch done: the pages are equal, PENDING and GO clear, DONE and the tick show. -/
def State.tsiEnded (s : State) : State :=
  (((s.pagesEqual.wr F.TSI_STATUS_PENDING 0).wr F.TSI_STATUS_DONE 1).wr F.TSI_CTRL_GO 0).wr64 R.TSI_SW_DONE_TICK s.tsi.tick

theorem tsiDone_ends {s : State} (hp : s.rd F.TSI_STATUS_PENDING ≠ 0) (hleft : s.tsi.left = []) :
    s.tsiDone = s.tsiEnded.raise (eg 6 9) :=
  if_pos (by rw [(on_iff s _).mpr hp, hleft]; rfl)

section Ended
variable (s : State)

theorem rd_pending_tsiEnded : s.tsiEnded.rd F.TSI_STATUS_PENDING = 0 := by
  rw [State.tsiEnded, rd_wr64_ne _ _ _ _ (by decide), rd_wr_apart _ _ _ _ (by decide), rd_wr_apart _ _ _ _ (by decide),
    rd_wr_same _ _ _ (by decide), Nat.zero_mod]

theorem rd_done_tsiEnded : s.tsiEnded.rd F.TSI_STATUS_DONE = 1 := by
  rw [State.tsiEnded, rd_wr64_ne _ _ _ _ (by decide), rd_wr_apart _ _ _ _ (by decide), rd_wr_same _ _ _ (by decide)]
  rfl

theorem rdw_stby_tsiEnded (d : Nat) : s.tsiEnded.rdw (R.TSI_STBY.at d).addr = s.pagesEqual.rdw (R.TSI_STBY.at d).addr := by
  have hne {a : Nat} (ha : a < 0x310000) : (R.TSI_STBY.at d).addr ≠ a := by simp only [Reg.at, R.TSI_STBY]; omega
  rw [State.tsiEnded, rdw_wr64_ne _ _ _ ⟨hne (by decide), hne (by decide)⟩, rdw_wr_ne _ _ _ _ (hne (by decide)),
    rdw_wr_ne _ _ _ _ (hne (by decide)), rdw_wr_ne _ _ _ _ (hne (by decide))]

end Ended

/-- Settles O43: each event by the rule of its operation; the pages are equal after a switch since each key of a canonical map has
one entry. -/
theorem otnSupervisionAndInterchangeFollowTheirRules : Obligations.OtnSupervisionAndInterchangeFollowTheirRules := by
  unfold Obligations.OtnSupervisionAndInterchangeFollowTheirRules
  intro s
  have nexts {x y : State} (h : x = y) : (.next x : Out1) = .next y := congrArg Host.Outcome.next h
  refine ⟨fun g l k hk hr => ?_, fun g k => ?_, fun hd hl => ⟨fun obs => ?_, nexts (pmBinClose_on hd hl)⟩, fun g v hs => ?_,
    fun v hs => ?_, fun g k hp hleft hr hl => nexts (tsiGroup_switches hp hleft hr hl), fun hp hleft => ?_⟩
  · exact ⟨fun hb => ⟨nexts (laneSignal_found hk hr hb), nexts (laneSignal_same hk hr hb)⟩,
      fun hb => ⟨nexts (laneSignal_same hk hr hb), nexts (laneSignal_lost hk hr hb)⟩⟩
  · refine ⟨fun hr p => ⟨nexts (alignLock_idle hr p), nexts (alignLoss_idle hr p)⟩, fun hr => ⟨fun i hm => ?_, fun hm => ?_,
      fun ha => ⟨nexts (alignLock_fas hr ha), fun hf => nexts (alignLock_mfas hr ha hf)⟩,
      fun ha => ⟨nexts (alignLock_fas_below hr ha), nexts (alignLock_mfas_below hr ha)⟩,
      fun hf => nexts (alignLoss_fas hr hf), fun hf => nexts (alignLoss_mfas hr hf),
      fun i hi => ⟨nexts (alignLoss_slice hr hi), nexts (alignLock_slice hr hi)⟩,
      fun hf => nexts (alignLoss_bdi hr hf), nexts (alignLock_bdi hr),
      fun c hc hon => ⟨nexts (alignLoss_maint hr hc hon), nexts (alignLock_maint hr hc hon)⟩,
      nexts (defectPersist_oof hr), nexts (defectPersist_oom hr)⟩, fun i tti hm => ⟨fun hi hon => ?_, fun hi hon hif => ?_⟩⟩
    · exact ⟨fun hi hb => nexts (alignLock_lane hr hm hi hb), fun ha => nexts (alignLoss_lane hr hm ha)⟩
    · exact ⟨fun hok => nexts (alignLock_laneMarkers hr hm hok), fun hlol => nexts (alignLoss_laneMarkers hr hm hlol)⟩
    · rw [← hi] at hon hm ⊢
      exact nexts (ttiAccept_sm (hi ▸ k.isLt) hon hm tti)
    · exact nexts (ttiAccept_pm hi hon hif hm tti)
  · intro t u v
    exact ⟨v.secEvaluated obs t, nexts (pmSecond_on hd hl obs), rfl, rfl, secEvaluated_pm v obs t, secEvaluated_rest v obs t⟩
  · refine ⟨_, nexts (bar0Write_pmSel hs v), fun hent hbin i hi => ?_⟩
    rw [hbin]
    exact rdw_pmSel_current s g.val hent hi
  · have hgo : exec (.tsiGo v) s = .next (s.hostPut R.TSI_CTRL.addr (v ||| 1)).tsiGo :=
      nexts (bar0Write_tsiCtrl hs (bitN_or_one v))
    intro u hp
    rw [hgo]
    exact ⟨fun hr => nexts (tsiGo_stopped hp hr), fun hr => ⟨fun e he => nexts (tsiGo_bad hp hr he), fun hnone =>
      ⟨u.tsiPend, nexts (tsiGo_good hp hr hnone), rd_pending_tsiPend u, rd_err_tsiPend u, rfl⟩⟩⟩
  · have hraise {a : Nat} (ha : 0x300000 ≤ a) : (s.tsiEnded.raise (eg 6 9)).rdw a = s.tsiEnded.rdw a :=
      rdw_raise _ _ _ (by omega) (by omega)
    refine ⟨_, nexts (tsiDone_ends hp hleft), ?_, ?_, ?_, fun hcanon d hd => ?_⟩
    · rw [State.rd, hraise (by decide)]
      exact rd_pending_tsiEnded s
    · rw [State.rd, hraise (by decide)]
      exact rd_done_tsiEnded s
    · rw [State.rd64, hraise (by decide), hraise (by decide)]
      exact rd64_wr64_same _ _ _
    · rw [hraise (by simp only [Reg.at, R.TSI_STBY]; omega), rdw_stby_tsiEnded, rdw_pagesEqual hd hcanon]

end Sys2Proof.Machine

namespace Sys2Proof.Machine

/-! ### A pause timer of a port that does not exist (R153, R204)

While time passes, `State.elapse` adds PAUSED_NS to the counter of every port that a pause timer names. O44 ranges over every state,
so also over those with a timer of a port above 145, which no page of LPT holds (R159). The counter of class 0 of port 835 would
stand at 0x100100 + 835 · 0x1000 + 24 · 8 = 0x4431C0, which is CLS_PUNT_CFG of reason 28 (0x443000 + 28 · 0x10): the microsecond
that passes until a refill changes the RATE that the refill gives. -/

/-- The Reset state with bucket 28 empty and priority 0 of port 835 paused from the epoch on. -/
def strayPause : State := { State.reset with pauses := [⟨835, 0, 0, 2 ^ 60⟩], punt := { tokens := [(28, 0)] } }

/-- Before the refill, bucket 28 is at its Reset RATE and ceiling. -/
theorem puntRate_strayPause : strayPause.puntRate 28 = (10000, 100 * 10 ^ 6) := by decide +kernel

/-- By the refill a microsecond later RATE has grown by the 1,000 ns of pause, and bucket 28 gains the sum. -/
theorem tokens_puntRefill_strayPause : strayPause.puntRefill.tokens 28 = 10000 + 1000 := by decide +kernel

/-- Refutes O44: its clause of the refill has bucket 28 of `strayPause` gain RATE as it stands before the microsecond, 10,000
units; it gains 11,000. -/
theorem not_classificationAclAndEchoTablesFollowTheirCommands :
    ¬ Obligations.ClassificationAclAndEchoTablesFollowTheirCommands := by
  unfold Obligations.ClassificationAclAndEchoTablesFollowTheirCommands
  intro h
  obtain ⟨-, -, -, hrefill, -⟩ := h strayPause
  obtain ⟨t, hnext, -, -, htokens⟩ := hrefill (Nat.zero_le _)
  obtain rfl : strayPause.puntRefill = t := Host.Outcome.next.inj hnext
  have hclaim := htokens 28 (by decide)
  rw [tokens_puntRefill_strayPause, puntRate_strayPause] at hclaim
  exact absurd hclaim (by decide +kernel)

end Sys2Proof.Machine

namespace Sys2Proof.Machine

/-! ### Commands that are taken (R473, R475, R477) -/

/-- The arguments of the command lie in a buffer that cannot be read (R475). -/
def CmdHdr.unreadable (h : CmdHdr) : Bool := h.bufFault && decide (40 < h.argLen) && h.tether.isNone

theorem CmdHdr.argLen_of_lenOk {h : CmdHdr} {need : Nat} (hl : h.lenOk need = true) : h.argLen = need := by
  rw [CmdHdr.lenOk, Bool.and_eq_true] at hl
  exact of_decide_eq_true hl.1

/-- Arguments of at most 40 bytes are in the command itself (R473). -/
theorem CmdHdr.readable_of_short {h : CmdHdr} (hs : h.argLen ≤ 40) : h.unreadable = false := by
  simp [CmdHdr.unreadable, Nat.not_lt.mpr hs]

theorem CmdHdr.lenOk_argLen_of_short {h : CmdHdr} (hs : h.argLen ≤ 40) : h.lenOk h.argLen = true := by
  simp [CmdHdr.lenOk, hs]

section Serve
variable {s : State} {h : CmdHdr} {op need : Nat} {body : State → State} (ht : s.canTake h = true)
include ht

theorem serve_badLen (hl : h.lenOk need = false) : s.serve h op need body = (s.take h).answer h op 0 hBAD_LEN := by
  simp [State.serve, ht, hl]

variable (hl : h.lenOk need = true)
include hl

theorem serve_bufFault (hb : h.unreadable = true) : s.serve h op need body = (s.take h).answer h op 0 hBUF_FAULT := by
  have hcond : (h.bufFault && decide (40 < h.argLen) && h.tether.isNone) = true := hb
  simp only [State.serve, ht, hl, hcond, Bool.not_true, Bool.false_eq_true, if_false, if_true]

theorem serve_body (hb : h.unreadable = false) : s.serve h op need body = body (s.take h) := by
  have hcond : (h.bufFault && decide (40 < h.argLen) && h.tether.isNone) = false := hb
  simp only [State.serve, ht, hl, hcond, Bool.not_true, Bool.false_eq_true, if_false]

/-- A command whose arguments are short runs whatever its buffer. -/
theorem serve_short (hs : need ≤ 40) : s.serve h op need body = body (s.take h) :=
  serve_body ht hl (CmdHdr.readable_of_short (CmdHdr.argLen_of_lenOk hl ▸ hs))

variable (hb : h.unreadable = false)
include hb

theorem serveTable_lull (hm : (s.take h).inMode mLULL = true) :
    s.serveTable h op need body = (s.take h).answer h op 0 hDOMAIN_OFF :=
  (serve_body ht hl hb).trans (if_pos hm)

theorem serveTable_body (hm : (s.take h).inMode mLULL = false) : s.serveTable h op need body = body (s.take h) :=
  (serve_body ht hl hb).trans (if_neg (ne_true_of_eq_false hm))

end Serve

/-- The header of a table command without arguments of its own is short. -/
theorem CmdHdr.readable_of_shortNeed {h : CmdHdr} (hl : h.lenOk h.shortNeed = true) : h.unreadable = false := by
  have hlen := CmdHdr.argLen_of_lenOk hl
  refine CmdHdr.readable_of_short ?_
  rw [hlen, CmdHdr.shortNeed]
  split <;> decide

/-! ### Table commands (R236, R476) -/

/-- The table commands with their opcodes and ARG_LEN. -/
def tableCmds (h : CmdHdr) (a : TblArgs) : List (Instr × Nat × Nat) :=
  let content := 40 + contentLen a.table.toNat
  let short := h.shortNeed
  [(.insert h a, 0x0010, content), (.delete h a, 0x0011, 40), (.modify h a, 0x0012, content),
    (.search h a, 0x0013, if a.table.toNat ≤ 16 then 40 else short), (.next_ h a, 0x0014, 40), (.flushPort h a, 0x0015, short),
    (.nhWrite h a, 0x0016, 56), (.adjWrite h a, 0x0017, 104), (.ecmpWrite h a, 0x0018, content), (.nhDelete h a, 0x0019, short),
    (.adjDelete h a, 0x001A, short), (.batchOpen h a, 0x001B, short), (.batchSubmit h a, 0x001C, short),
    (.batchAbort h a, 0x001D, short)]

/-- Each of them is served as a table command under its opcode and length. -/
theorem exec_tableCmd {h : CmdHdr} {a : TblArgs} {x : Instr × Nat × Nat} (hx : x ∈ tableCmds h a) :
    ∃ body, ∀ s, exec x.1 s = .next (s.serveTable h x.2.1 x.2.2 body) := by
  simp only [tableCmds, List.mem_cons, List.not_mem_nil, or_false] at hx
  obtain rfl | rfl | rfl | rfl | rfl | rfl | rfl | rfl | rfl | rfl | rfl | rfl | rfl | rfl := hx
  all_goals exact ⟨_, fun _ => rfl⟩

/-! ### Content writes (R236, R240, R244) -/

section Content
variable {s : State} {a : TblArgs} {kind : OpKind} {h : CmdHdr} {opc : Nat}

/-- The content write that a table command asks for. -/
def TblArgs.contentOp (a : TblArgs) (kind : OpKind) : BOp := ⟨kind, a.table.toNat, a.slice.toNat, a.key, a.content, a.static⟩

variable (ht : a.table.toNat ≤ 16)
include ht

theorem contentCmd_batched (hb : a.batch ≠ 0xFF) : s.contentCmd a kind h opc = s.intoBatch a (a.contentOp kind) h opc :=
  (if_neg (Nat.not_lt.mpr ht)).trans (if_neg hb)

variable (hb : a.batch = 0xFF)
include hb

/-- A single is accepted when it would stage (R244). -/
theorem contentCmd_single : s.contentCmd a kind h opc =
    (if (s.stageOp (a.contentOp kind) s.nextGen).2.1 = cOK then s.acceptSingle (a.contentOp kind) h opc true
      else s.answer h opc (s.stageOp (a.contentOp kind) s.nextGen).2.1 hOK) :=
  (if_neg (Nat.not_lt.mpr ht)).trans (if_pos hb)

theorem contentCmd_accepted (hc : (s.stageOp (a.contentOp kind) s.nextGen).2.1 = cOK) :
    s.contentCmd a kind h opc = s.acceptSingle (a.contentOp kind) h opc true :=
  (contentCmd_single ht hb).trans (if_pos hc)

theorem contentCmd_refused (hc : (s.stageOp (a.contentOp kind) s.nextGen).2.1 ≠ cOK) :
    s.contentCmd a kind h opc = s.answer h opc (s.stageOp (a.contentOp kind) s.nextGen).2.1 hOK :=
  (contentCmd_single ht hb).trans (if_neg hc)

end Content

/-- The commands that write the content of tables 0–16, with their opcodes and kinds. -/
def contentCmds (h : CmdHdr) (a : TblArgs) : List (Instr × Nat × Nat × OpKind) :=
  [(.insert h a, 0x0010, 40 + contentLen a.table.toNat, .insert), (.delete h a, 0x0011, 40, .delete),
    (.modify h a, 0x0012, 40 + contentLen a.table.toNat, .modify)]

theorem exec_contentCmd {s : State} {h : CmdHdr} {a : TblArgs} {x : Instr × Nat × Nat × OpKind} (hx : x ∈ contentCmds h a)
    (ht : s.canTake h = true) (hl : h.lenOk x.2.2.1 = true) (hb : h.unreadable = false) (hm : (s.take h).inMode mLULL = false)
    (h16 : a.table.toNat ≤ 16) : exec x.1 s = .next ((s.take h).contentCmd a x.2.2.2 h x.2.1) := by
  simp only [contentCmds, List.mem_cons, List.not_mem_nil, or_false] at hx
  obtain rfl | rfl | rfl := hx
  · exact congrArg Host.Outcome.next (serveTable_body ht hl hb hm)
  · exact congrArg Host.Outcome.next (serveTable_body ht hl hb hm)
  · exact congrArg Host.Outcome.next ((serveTable_body ht hl hb hm).trans (if_pos h16))

/-! ### Writes to tables 17–20 (R230, R234, R244) -/

section Entries
variable {s : State} {a : TblArgs} {h : CmdHdr} {opc : Nat}

/-- The entry a write names and the image it brings exist. -/
def TblArgs.fits (a : TblArgs) : Bool := decide (a.index.toNat < entCount a.table.toNat) && imgOk a.table.toNat a.content

/-- The refusals of the model are those of `TblArgs.fits`. -/
theorem not_fits_eq (a : TblArgs) :
    (decide (entCount a.table.toNat ≤ a.index.toNat) || !imgOk a.table.toNat a.content) = !a.fits := by
  rw [TblArgs.fits, Bool.not_and, ← decide_not, decide_eq_decide.mpr Nat.not_lt]

theorem entModify_accepted (hf : a.fits = true) : s.entModify a h opc = s.acceptEnt .modify a h opc :=
  if_neg (by rw [not_fits_eq, hf]; decide)

theorem entModify_refused (hf : a.fits = false) : s.entModify a h opc = s.answer h opc cBAD_ARG hOK :=
  if_pos (by rw [not_fits_eq, hf]; rfl)

theorem entWrite_accepted (hf : a.fits = true) : s.entWrite true a h opc = s.acceptEnt .write a h opc :=
  if_neg (by rw [Bool.not_true, Bool.false_or, not_fits_eq, hf]; decide)

theorem entWrite_refused {ok : Bool} (hf : ok = false ∨ a.fits = false) :
    s.entWrite ok a h opc = s.answer h opc cBAD_ARG hOK := by
  refine if_pos ?_
  rw [Bool.or_assoc, not_fits_eq, ← Bool.not_and]
  obtain hf | hf := hf
  · rw [hf]; rfl
  · rw [hf, Bool.and_false]; rfl

/-- The table that ADJ_DELETE or NH_DELETE takes. -/
def drainTable (adj : Bool) : Nat := if adj then 18 else 17

theorem entDelete_accepted {adj : Bool} (ht : a.table.toNat = drainTable adj) (hi : a.index.toNat < entCount a.table.toNat) :
    s.entDelete adj a h opc = s.acceptEnt .delete a h opc := by
  rw [ht] at hi
  exact if_neg (not_or.mpr ⟨not_not_intro ht, Nat.not_le.mpr hi⟩)

theorem entDelete_refused {adj : Bool} (hf : a.table.toNat ≠ drainTable adj ∨ entCount a.table.toNat ≤ a.index.toNat) :
    s.entDelete adj a h opc = s.answer h opc cBAD_ARG hOK := by
  refine if_pos ?_
  by_cases ht : a.table.toNat = drainTable adj
  · rw [ht] at hf
    exact hf.imp_left (absurd rfl)
  · exact .inl ht

variable (ht : s.canTake h = true) (hb : h.unreadable = false) (hm : (s.take h).inMode mLULL = false)
include ht hb hm

/-- The write commands of tables 17–20, with their opcodes, tables and content lengths. -/
def entWrites (h : CmdHdr) (a : TblArgs) : List (Instr × Nat × List Nat × Nat) :=
  [(.nhWrite h a, 0x0016, [17], contentLen 17), (.adjWrite h a, 0x0017, [18], contentLen 18),
    (.ecmpWrite h a, 0x0018, [19, 20], contentLen a.table.toNat)]

theorem exec_entWrite {x : Instr × Nat × List Nat × Nat} (hx : x ∈ entWrites h a) (hl : h.lenOk (40 + x.2.2.2) = true) :
    exec x.1 s = .next ((s.take h).entWrite (decide (a.table.toNat ∈ x.2.2.1)) a h x.2.1) := by
  simp only [entWrites, List.mem_cons, List.not_mem_nil, or_false] at hx
  obtain rfl | rfl | rfl := hx
  all_goals
    refine congrArg Host.Outcome.next ((serveTable_body ht hl hb hm).trans ?_)
    congr 1
    simp [Bool.beq_eq_decide_eq]

theorem exec_modify_entry (h17 : 17 ≤ a.table.toNat) (h20 : a.table.toNat ≤ 20)
    (hl : h.lenOk (40 + contentLen a.table.toNat) = true) : exec (.modify h a) s = .next ((s.take h).entModify a h 0x0012) :=
  congrArg Host.Outcome.next ((serveTable_body ht hl hb hm).trans ((if_neg (by omega)).trans (if_pos h20)))

/-- NH_DELETE and ADJ_DELETE are one command for two tables. -/
theorem exec_entDelete {x : Instr × Nat × Nat} (hx : x ∈ [(Instr.nhDelete h a, 0x0019, 17), (.adjDelete h a, 0x001A, 18)])
    (hl : h.lenOk h.shortNeed = true) :
    ∃ adj, drainTable adj = x.2.2 ∧ exec x.1 s = .next ((s.take h).entDelete adj a h x.2.1) := by
  simp only [List.mem_cons, List.not_mem_nil, or_false] at hx
  obtain rfl | rfl := hx
  · exact ⟨false, rfl, congrArg Host.Outcome.next (serveTable_body ht hl hb hm)⟩
  · exact ⟨true, rfl, congrArg Host.Outcome.next (serveTable_body ht hl hb hm)⟩

end Entries

/-! #### Made in the interval after -/

section Made
variable {s : State} {n : Nat} {o : EntOp}

/-- What the entry written by `o` becomes: ACTIVE with its content. -/
def State.entPut (s : State) (o : EntOp) : State :=
  (s.twPut (s.entAddr o.args.table.toNat o.args.index.toNat) (activeImg o.args.table.toNat (imgWords o.args.content))).stealSlots 1

/-- The status of `o` by the STATE of the entry it names. -/
def State.entStatus (s : State) (o : EntOp) : Nat :=
  entCode o.kind o.args.table.toNat (s.entState o.args.table.toNat o.args.index.toNat)

/-- The response to `o` at tick `n`. -/
def EntOp.done (o : EntOp) (n : Nat) (s : State) (c : Nat) : State := s.respond o.hdr o.opcode c hOK true [] (some n)

theorem entDo_refused {c : Nat} (hc : s.entStatus o = c) (hbad : c ≠ cOK) : s.entDo n o = o.done n s c := by
  subst hc
  exact congrArg (o.done n · _) (if_pos hbad)

theorem entDo_writes (hc : s.entStatus o = cOK) (hk : o.kind ≠ .delete) : s.entDo n o = o.done n (s.entPut o) cOK := by
  rw [← hc]
  exact congrArg (o.done n · _) ((if_neg (not_not_intro hc)).trans (if_neg hk))

theorem entDo_drains (hc : s.entStatus o = cOK) (hk : o.kind = .delete) : s.entDo n o =
    o.done n ((s.entDrain (o.args.table.toNat == 18) o.args.index.toNat).stealSlots 1) cOK := by
  rw [← hc]
  exact congrArg (o.done n · _) ((if_neg (not_not_intro hc)).trans (if_pos hk))

/-- ECMP groups and members have no STATE, so MODIFY replaces them at once (R230). -/
theorem entCode_modify_stateless {t : Nat} (h17 : t ≠ 17) (h18 : t ≠ 18) (st : Nat) : entCode .modify t st = cOK :=
  if_pos ⟨h17, h18⟩

theorem entCode_modify_active (t : Nat) : entCode .modify t 1 = cOK := ite_self _

theorem entCode_modify_stateful {t : Nat} (ht : t = 17 ∨ t = 18) (st : Nat) :
    entCode .modify t st = if st = 1 then cOK else if st = 2 then cDRAINING else cNOT_FOUND :=
  if_neg (by omega)

end Made

/-! ### SEARCH (R236) -/

section Search

section Em
variable {s : State} {a : TblArgs} {h : CmdHdr} {opc : Nat} (ht : a.table.toNat < 16)
  (hok : s.emArgOk a.table.toNat (leN a.key 0 16) = true)
include ht hok

theorem searchCmd_found {x : Nat × EmEnt} (hx : s.emFind a.table.toNat a.slice.toNat (leN a.key 0 16) s.genNow = some x) :
    s.searchCmd a h opc = s.respond h opc cOK hOK true (s.tBytes (s.emAddr x.1) 8) none := by
  simp only [State.searchCmd, ht, hok, hx, Bool.not_true, Bool.false_eq_true, if_true, if_false]

theorem searchCmd_absent (hx : s.emFind a.table.toNat a.slice.toNat (leN a.key 0 16) s.genNow = none) :
    s.searchCmd a h opc = s.answer h opc cNOT_FOUND hOK := by
  simp only [State.searchCmd, ht, hok, hx, Bool.not_true, Bool.false_eq_true, if_true, if_false]

end Em

/-- A search of tables 0–16 brings its key block (log entry 113). -/
theorem exec_search_keyed {s : State} {h : CmdHdr} {a : TblArgs} (ht : s.canTake h = true) (hb : h.unreadable = false)
    (hm : (s.take h).inMode mLULL = false) (h16 : a.table.toNat ≤ 16) (hl : h.lenOk 40 = true) :
    exec (.search h a) s = .next ((s.take h).searchCmd a h 0x0013) := by
  refine congrArg Host.Outcome.next (serveTable_body ht ?_ hb hm)
  rw [if_pos h16]
  exact hl

end Search

/-- Settles O45: every command is served or refused by one rule, and each that runs does what the rule of its operation says. -/
theorem tableCommandsActOrAnswerTheirCode : Obligations.TableCommandsActOrAnswerTheirCode := by
  unfold Obligations.TableCommandsActOrAnswerTheirCode
  intro s h a ht u t i sh bad
  have nexts {x y : State} (e : x = y) : (.next x : Out1) = .next y := congrArg Host.Outcome.next e
  refine ⟨fun x hx => ?_, fun hm hb => ⟨fun x hx => ?_, ?_, fun n k op d => ?_, fun h16 hl hok => ?_,
    fun hl => nexts (serveTable_body ht hl hb hm), fun hl => nexts (serveTable_body ht hl hb hm)⟩⟩
  · obtain ⟨body, hexec⟩ := exec_tableCmd hx
    rw [hexec]
    exact ⟨fun hl => nexts (serve_badLen ht hl), fun hl hb => nexts (serve_bufFault ht hl hb),
      fun hl hb hm => nexts (serveTable_lull ht hl hb hm)⟩
  · intro o hl h16
    rw [exec_contentCmd hx ht hl hb hm h16]
    exact ⟨fun hs hc => nexts (contentCmd_accepted h16 hs hc), fun hs hc => nexts (contentCmd_refused h16 hs hc),
      fun hs => nexts (contentCmd_batched h16 hs)⟩
  · intro kept fits
    refine ⟨fun x hx hl => ?_, fun h17 h20 hl => ?_, fun x hx hl => ?_⟩
    · rw [exec_entWrite ht hb hm hx hl]
      refine ⟨fun hmem hf => ?_, fun hbad => nexts (entWrite_refused (hbad.imp_left (decide_eq_false ·)))⟩
      rw [decide_eq_true hmem]
      exact nexts (entWrite_accepted hf)
    · rw [exec_modify_entry ht hb hm h17 h20 hl]
      exact ⟨fun hf => nexts (entModify_accepted hf), fun hf => nexts (entModify_refused hf)⟩
    · obtain ⟨adj, hadj, hexec⟩ := exec_entDelete ht hb hm hx hl
      rw [hexec, ← hadj]
      exact ⟨fun heq hi => nexts (entDelete_accepted heq hi), fun hbad => nexts (entDelete_refused hbad)⟩
  · intro o put at_
    have hstatus {c st : Nat} (hst : u.entState t i = st) (hc : entCode k t st = c) : u.entStatus o = c := by
      rw [← hc, ← hst]
      rfl
    refine ⟨rfl, fun hk => ?_, fun hk => ?_, fun hk => ?_⟩
    all_goals subst hk
    · exact ⟨fun hst => entDo_writes (hstatus hst rfl) nofun,
        fun hst => entDo_refused (hstatus rfl (if_neg hst)) (by decide)⟩
    · exact ⟨fun h17 h18 => entDo_writes (hstatus rfl (entCode_modify_stateless h17 h18 _)) nofun,
        fun hst => entDo_writes (hstatus hst (entCode_modify_active t)) nofun,
        fun h hst => entDo_refused (hstatus hst (entCode_modify_stateful h _)) (by decide),
        fun h hst => entDo_refused (hstatus hst (entCode_modify_stateful h _)) (by decide)⟩
    · exact ⟨fun hst => entDo_drains (hstatus hst rfl) rfl, fun hst => entDo_refused (hstatus hst rfl) (by decide),
        fun hst => entDo_refused (hstatus hst rfl) (by decide)⟩
  · rw [exec_search_keyed ht hb hm h16.le hl]
    exact ⟨fun x hx => nexts (searchCmd_found h16 hok hx), fun hx => nexts (searchCmd_absent h16 hok hx)⟩

end Sys2Proof.Machine

namespace Sys2Proof.Machine

/-! ### Batch commands (R236, R240, R242) -/

section BatchCmds
variable {s : State} {a : TblArgs} {h : CmdHdr} {opc : Nat}

theorem batchOpen_lowest {i : Nat} (hi : (List.range 16).find? (fun i => (s.batch i).isNone) = some i) :
    s.batchOpen a h opc = (let b : Batch := { id := i, aon := a.allOrNone, hdr := h }
      { s with cmt := { s.cmt with batches := s.cmt.batches ++ [b] } }.respond h opc cOK hOK true (leB 1 i) none) := by
  simp only [State.batchOpen, hi]

theorem batchSubmit_absent (hb : s.batch a.batch.toNat = none) : s.batchSubmit a h opc = s.answer h opc cBAD_ARG hOK := by
  simp only [State.batchSubmit, hb]

theorem batchAbort_absent (hb : s.batch a.batch.toNat = none) : s.batchAbort a h opc = s.answer h opc cBAD_ARG hOK := by
  simp only [State.batchAbort, hb]

variable {b : Batch} (hb : s.batch a.batch.toNat = some b)
include hb

theorem batchSubmit_twice (hs : b.submitted = true) : s.batchSubmit a h opc = s.answer h opc cBAD_ARG hOK := by
  simp only [State.batchSubmit, hb, hs, if_true]

theorem batchSubmit_full (hs : b.submitted = false) (hq : 8 ≤ s.queued.length) :
    s.batchSubmit a h opc = s.answer h opc cQUEUE_FULL hOK := by
  simp only [State.batchSubmit, hb, hs, hq, Bool.false_eq_true, if_false, if_true]

theorem batchSubmit_queued (hs : b.submitted = false) (hq : s.queued.length < 8) : s.batchSubmit a h opc =
    (let r := s.submit b a.tick.toNat h;
      r.1.respond h opc cOK hOK false (leB 4 r.2.1 ++ zeros 4 ++ leB 8 r.2.2) none) := by
  simp only [State.batchSubmit, hb, hs, Nat.not_le.mpr hq, Bool.false_eq_true, if_false]

theorem batchAbort_open (hs : b.submitted = false) :
    s.batchAbort a h opc = ((s.batchUpd b.id (fun _ => none)).answer h opc cOK hOK).showCommit := by
  simp only [State.batchAbort, hb, hs, Bool.false_and, Bool.false_eq_true, if_false]

theorem batchAbort_queued (hs : b.submitted = true) (hst : s.tick < b.stageAt) : s.batchAbort a h opc =
    ((((s.batchUpd b.id (fun _ => none)).dropGen b.gen).answer b.hdr 0x001C cABORTED hOK).answer h opc cOK hOK).showCommit := by
  simp only [State.batchAbort, hb, hs, Nat.not_le.mpr hst, decide_false, Bool.and_false, Bool.false_eq_true, if_false, if_true]

theorem batchAbort_staging (hs : b.submitted = true) (hst : b.stageAt ≤ s.tick) :
    s.batchAbort a h opc = s.answer h opc cBAD_ARG hOK := by
  simp only [State.batchAbort, hb, hs, hst, decide_true, Bool.and_self, if_true]

end BatchCmds

/-! ### Commits (R241, R243, R244) -/

section Commits
variable {s : State}

theorem batchCommit_held (hm : s.inMode mRUN = false) (id : Nat) : s.batchCommit id = s := if_pos (by rw [hm]; rfl)

theorem singleCommit_held (hm : s.inMode mRUN = false) : s.singleCommit = s := if_pos (by rw [hm]; rfl)

theorem settle_oldest {g inst : Nat} {l : List (Nat × Nat)} (h : s.cmt.settle = (g, inst) :: l) : s.settle =
    (let u := (s.advanceTo ((inst + 2000 * 65536) * tuFrac)).settleGen g;
      { u with cmt := { u.cmt with settle := l, hist := u.cmt.hist.take (l.length + 1) } }) := by
  simp only [State.settle, h]

/-- The commit of batch `b` at tick `n`, before its response (R243). -/
def State.batchSwitch (s : State) (id : Nat) (b : Batch) (n : Nat) : State :=
  ((s.batchUpd id (fun _ => none)).commitGen b.gen n).raise (eg 2 10)

/-- The FINAL response to the submission of batch `b` that commits at tick `n`. -/
def Batch.done (b : Batch) (n : Nat) (s : State) (c : Nat) : State :=
  (s.respond b.hdr 0x001C c hOK true (b.failed.flatMap (fun x => leB 4 (x.1 * 256 + x.2))) (some n)).showCommit

/-- The commit of single `q` at tick `n`, before its response (R244). -/
def State.singleSwitch (s : State) (q : Single) (n : Nat) : State :=
  { s with cmt := { s.cmt with singles := s.cmt.singles.filter (fun x => x.gen != q.gen) } }.commitGen q.gen n

/-- The response to single `q` that commits at tick `n`, when one is due. -/
def Single.done (q : Single) (n : Nat) (s : State) (c : Nat) : State :=
  if q.answer then s.respond q.hdr q.opcode c hOK true [] (some n) else s

variable (hm : s.inMode mRUN = true)
include hm

section Batch
variable {id : Nat} {b : Batch} {n : Nat} (hb : s.batch id = some b) (hd : b.due = some n)
include hb hd

theorem batchCommit_due : s.batchCommit id = (let u := s.batchSwitch id b n
    let late := decide (n ≠ b.commitAt)
    b.done n (if late then u.raise (eg 2 11) else u) (if late then cLATE else cOK)) := by
  simp only [State.batchCommit, hm, hb, hd, Bool.not_true, Bool.false_eq_true, if_false]
  rfl

theorem batchCommit_onTime (hn : n = b.commitAt) : s.batchCommit id = b.done n (s.batchSwitch id b n) cOK := by
  rw [batchCommit_due hm hb hd, decide_eq_false (not_not_intro hn)]
  rfl

theorem batchCommit_late (hn : n ≠ b.commitAt) :
    s.batchCommit id = b.done n ((s.batchSwitch id b n).raise (eg 2 11)) cLATE := by
  rw [batchCommit_due hm hb hd, decide_eq_true hn]
  rfl

end Batch

section Single
variable {q : Single} {n : Nat} (hq : s.cmt.singles.find? (fun q => q.due.isSome) = some q) (hd : q.due = some n)
include hq hd

theorem singleCommit_due : s.singleCommit = (let u := s.singleSwitch q n
    let late := decide (q.acceptedAt + 2 < n)
    q.done n (if late then u.raise (eg 2 11) else u) (if late then cLATE else cOK)) := by
  simp only [State.singleCommit, hm, hq, hd, Option.getD_some, Bool.not_true, Bool.false_eq_true, if_false]
  rfl

theorem singleCommit_onTime (hn : n ≤ q.acceptedAt + 2) : s.singleCommit = q.done n (s.singleSwitch q n) cOK := by
  rw [singleCommit_due hm hq hd, decide_eq_false (Nat.not_lt.mpr hn)]
  rfl

theorem singleCommit_late (hn : q.acceptedAt + 2 < n) :
    s.singleCommit = q.done n ((s.singleSwitch q n).raise (eg 2 11)) cLATE := by
  rw [singleCommit_due hm hq hd, decide_eq_true hn]
  rfl

end Single
end Commits

/-- An entry that is DRAINING and in no packet is FREE after its hold-off (R234). -/
theorem entFreed_drained {s : State} {adj : Bool} {i n : Nat}
    (hn : mget (fun _ => (none : Option Nat)) s.cmt.drainAt (i * 2 + b2n adj) = some n)
    (hst : bits (s.tw (if adj then s.adjAddr i else s.nhAddr i)) 31 30 = 2) (hfly : s.inflight adj i = 0) :
    s.entFreed adj i = (let a := if adj then s.adjAddr i else s.nhAddr i
      let u := (s.advanceUp (n + s.rd F.TBL_DRAIN_CFG_HOLDOFF * 1000)).setEntState a 0;
      ({ u with cmt := { u.cmt with drainAt := mset (fun _ => none) u.cmt.drainAt (i * 2 + b2n adj) none } }.raise (eg 8 0)).emit
        (.adjFreed adj i)) := by
  simp only [State.entFreed, hn]
  exact if_pos ⟨hst, hfly⟩

/-! ### Host commands (R475, R476) -/

section HostCmds
variable {s : State} {h : CmdHdr} (ht : s.canTake h = true)
include ht

theorem cmdPing_echoes (hs : h.argLen ≤ 40) (args : Bytes) :
    s.cmdPing h args = (s.take h).respond h 2 0 hOK true ((args ++ zeros h.argLen).take h.argLen) none := by
  rw [State.cmdPing, if_pos hs]
  exact serve_short ht (CmdHdr.lenOk_argLen_of_short hs) hs

theorem cmdPing_tooLong (hs : 40 < h.argLen) (args : Bytes) : s.cmdPing h args = (s.take h).answer h 2 0 hBAD_LEN := by
  rw [State.cmdPing, if_neg (Nat.not_le.mpr hs)]
  refine serve_badLen ht (Bool.eq_false_iff.mpr fun hl => ?_)
  have := CmdHdr.argLen_of_lenOk hl
  omega

theorem cmdServo_answers {op : Nat} (hop : op / 256 = 1) (hl : h.lenOk h.argLen = true) (hb : h.unreadable = false) :
    s.cmdServo h op = (let u := s.take h
      { u with free := u.free + 1 }.answer h op ((Config.freeValue u.free).toNat % 256) hOK) :=
  (if_neg (not_not_intro hop)).trans (serve_body ht hl hb)

theorem cmdUnknown_answers {op : Nat} (hop : opKnown op = false) : s.cmdUnknown h op = (s.take h).answer h op 0 hUNKNOWN :=
  if_neg (by rw [hop, ht]; decide)

section Confirm
variable (hl : h.lenOk 0 = true)
include hl

theorem cmdConfirm_serves (nvm : Bool) : s.cmdConfirm h nvm = (let u := s.take h
    if u.imgConfirm.status = mOK ∧ nvm then (u.raise (eg 0 9)).answer h 5 mNVM_ERROR hOK
    else u.imgConfirm.s.answer h 5 u.imgConfirm.status hOK) :=
  serve_short ht hl (by decide)

theorem cmdConfirm_confirms (hc : (s.take h).imgConfirm.status = mOK) :
    s.cmdConfirm h false = (s.take h).imgConfirm.s.answer h 5 mOK hOK := by
  rw [← hc]
  exact (cmdConfirm_serves ht hl false).trans (if_neg (by simp))

/-- A failing erase or program leaves everything but its event (R138, log entry 163). -/
theorem cmdConfirm_nvmFails (hc : (s.take h).imgConfirm.status = mOK) :
    s.cmdConfirm h true = ((s.take h).raise (eg 0 9)).answer h 5 mNVM_ERROR hOK :=
  (cmdConfirm_serves ht hl true).trans (if_pos ⟨hc, rfl⟩)

theorem cmdConfirm_refused (hc : (s.take h).imgConfirm.status ≠ mOK) (nvm : Bool) :
    s.cmdConfirm h nvm = (s.take h).imgConfirm.s.answer h 5 (s.take h).imgConfirm.status hOK :=
  (cmdConfirm_serves ht hl nvm).trans (if_neg (fun hn => hc hn.1))

end Confirm

section RegAccess
variable {o n : Nat} (hl : h.lenOk 8 = true)
include hl

theorem cmdRegRead_refused {c : Nat} (hc : accessRefused o n = some c) : s.cmdRegRead h o n = (s.take h).answer h 3 0 c := by
  rw [State.cmdRegRead, serve_short ht hl (by decide), hc]

theorem cmdRegRead_reads (hc : accessRefused o n = none) : s.cmdRegRead h o n =
    ((s.take h).readWords o n).1.respond h 3 0 hOK true ((s.take h).readWords o n).2 none := by
  rw [State.cmdRegRead, serve_short ht hl (by decide), hc]

end RegAccess

section RegWrite
variable {o : Nat} {ws : List Word} (hl : h.lenOk (8 + 4 * ws.length) = true) (hb : h.unreadable = false)
include hl hb

theorem cmdRegWrite_refused {c : Nat} (hc : accessRefused o ws.length = some c) :
    s.cmdRegWrite h o ws = (s.take h).answer h 4 0 c := by
  rw [State.cmdRegWrite, serve_body ht hl hb, hc]

variable (hc : accessRefused o ws.length = none)
include hc

/-- All words are checked before the first is written. -/
theorem cmdRegWrite_served : s.cmdRegWrite h o ws = (let u := s.take h
    if (List.range ws.length).all (fun i => mayRegWrite (o + 4 * i)) then (u.writeWords o ws).answer h 4 0 hOK
    else u.answer h 4 0 hDENIED) := by
  rw [State.cmdRegWrite, serve_body ht hl hb, hc]

theorem cmdRegWrite_writes (hmay : ∀ i < ws.length, mayRegWrite (o + 4 * i) = true) :
    s.cmdRegWrite h o ws = ((s.take h).writeWords o ws).answer h 4 0 hOK :=
  (cmdRegWrite_served ht hl hb hc).trans (if_pos (List.all_eq_true.mpr fun i hi => hmay i (List.mem_range.mp hi)))

theorem cmdRegWrite_denied {i : Nat} (hi : i < ws.length) (hmay : mayRegWrite (o + 4 * i) = false) :
    s.cmdRegWrite h o ws = (s.take h).answer h 4 0 hDENIED := by
  refine (cmdRegWrite_served ht hl hb hc).trans (if_neg fun hall => ?_)
  rw [List.all_eq_true.mp hall i (List.mem_range.mpr hi)] at hmay
  contradiction

end RegWrite
end HostCmds

/-! #### TIME_GET -/

@[simp] theorem wrTime_tb (s : State) (r : Reg) (t : Nat) : (s.wrTime r t).tb = s.tb := rfl

/-- A read of WRS_TIME writes the present time into its four words. -/
theorem regRead_time (s : State) :
    (s.regRead R.WRS_TIME.addr).1 = (s.wrTime R.WRS_TIME s.t16).rcClear R.WRS_TIME.addr := by
  have hshape : wordShape R.WRS_TIME.addr = some ("WRS_TIME", [], .w32) := by decide +kernel
  obtain ⟨r, hreg, hname, hrole⟩ := regRow_of_wordShape hshape
  have hf : s.fabGone "WRS_TIME" = false := by simp [State.fabGone]
  rw [regRead_w32 hreg (hname ▸ hf) hrole, hname]
  rfl

theorem regRead_time_tb (s : State) : (s.regRead R.WRS_TIME.addr).1.tb = s.tb := by
  rw [regRead_time, State.rcClear, wrw_tb, wrTime_tb]

/-- The time that TIME_GET returns: WRS_TIME as read and its three words behind it (R476). -/
def State.timeGot (s : State) : Bytes :=
  leB 4 (s.regRead R.WRS_TIME.addr).2.toNat
    ++ [4, 8, 12].flatMap (fun i => leB 4 ((s.regRead R.WRS_TIME.addr).1.rdw (R.WRS_TIME.addr + i)).toNat)

theorem length_timeGot (s : State) : s.timeGot.length = 16 := by simp [State.timeGot]

theorem cmdTime_answers {s : State} {h : CmdHdr} (ht : s.canTake h = true) (hl : h.lenOk 0 = true) :
    s.cmdTime h = (let x := ((s.take h).regRead R.WRS_TIME.addr).1
      x.respond h 6 0 hOK true ((s.take h).timeGot ++ leB 4 (x.rdr R.WRS_STATUS) ++ zeros 4 ++ leB 8 x.tick) none) :=
  serve_short ht hl (by decide)

/-- Settles O46: each command and event by the rule of its operation. -/
theorem batchesCommitAndHostCommandsAreAnswered : Obligations.BatchesCommitAndHostCommandsAreAnswered := by
  unfold Obligations.BatchesCommitAndHostCommandsAreAnswered
  intro s h
  have nexts {x y : State} (e : x = y) : (.next x : Out1) = .next y := congrArg Host.Outcome.next e
  refine ⟨fun a ht hl => ?_, fun hm => ⟨fun id => nexts (batchCommit_held hm id.toNat), nexts (singleCommit_held hm)⟩,
    fun id b n hm hb hd => ⟨fun hn => nexts (batchCommit_onTime hm hb hd hn), fun hn => nexts (batchCommit_late hm hb hd hn)⟩,
    fun q n hm hq hd => ⟨fun hn => nexts (singleCommit_onTime hm hq hd hn), fun hn => nexts (singleCommit_late hm hq hd hn)⟩,
    fun g inst l hset => nexts (settle_oldest hset), fun adj i n => ?_, fun ht => ?_⟩
  · intro u hm
    have served {op : Nat} {body : State → State} : s.serveTable h op h.shortNeed body = body u :=
      serveTable_body ht hl (CmdHdr.readable_of_shortNeed hl) hm
    refine ⟨fun i hi => nexts (served.trans (batchOpen_lowest hi)),
      fun b hb => ⟨fun hs => ?_, fun hs hq => ?_, fun hs hq => ?_, fun hs => ?_, fun hs hst => ?_, fun hs hst => ?_⟩, fun hb => ⟨?_, ?_⟩⟩
    · exact nexts (served.trans (batchSubmit_twice hb hs))
    · exact nexts (served.trans (batchSubmit_full hb hs hq))
    · exact nexts (served.trans (batchSubmit_queued hb hs hq))
    · exact nexts (served.trans (batchAbort_open hb hs))
    · exact nexts (served.trans (batchAbort_queued hb hs hst))
    · exact nexts (served.trans (batchAbort_staging hb hs hst))
    · exact nexts (served.trans (batchSubmit_absent hb))
    · exact nexts (served.trans (batchAbort_absent hb))
  · exact fun hn hst hfly => nexts (entFreed_drained hn hst hfly)
  · intro u bad
    refine ⟨fun hl => ⟨nexts (serve_short ht hl (by decide)), fun hc => ⟨?_, fun _ => ?_⟩, fun hc nvm => ?_, ?_⟩,
      fun hs args => nexts (cmdPing_echoes ht hs args), fun hs args => nexts (cmdPing_tooLong ht hs args),
      fun hl o n => ⟨fun c hc => ?_, fun hc => ?_⟩,
      fun o ws hl => ⟨fun hb => nexts (serve_bufFault ht hl hb), fun hb c hc => ?_,
        fun hb hc => ⟨fun hmay => ?_, fun i hi hmay => ?_⟩⟩,
      fun op => ⟨fun hop hl hb => nexts (cmdServo_answers ht hop hl hb), fun hop => nexts (cmdUnknown_answers ht hop)⟩⟩
    · exact nexts (cmdConfirm_confirms ht hl hc)
    · exact nexts (cmdConfirm_nvmFails ht hl hc)
    · exact nexts (cmdConfirm_refused ht hl hc nvm.isSome)
    · exact ⟨_, u.timeGot, nexts (cmdTime_answers ht hl), length_timeGot u, regRead_time_tb u⟩
    · exact nexts (cmdRegRead_refused ht hl hc)
    · exact nexts (cmdRegRead_reads ht hl hc)
    · exact nexts (cmdRegWrite_refused ht hl hb hc)
    · exact nexts (cmdRegWrite_writes ht hl hb hc hmay)
    · exact nexts (cmdRegWrite_denied ht hl hb hc hi hmay)

end Sys2Proof.Machine

namespace Sys2Proof.Machine

/-! ### ACL searches by engines (R254, R290) -/

/-- A write of a G register leaves the index of its thread. -/
theorem nextPc_gput (u : State) (d : Iss) (rd : GReg) (v : Nat) : nextPc (u.gput d rd v) d = nextPc u d := by
  unfold nextPc State.thrOf State.gput State.rgSet
  split
  · rfl
  · simp

section EngAcl
variable {s u : State} {d : Iss} {i : Instr} {next : Bool} {rd ra : GReg} {e : AclEnv} {v : Nat}

/-- An instruction whose body writes rd last, and then only advances. -/
theorem eng_gput {body : State → State × Ctl} (h : issues s d i) (hb : body s = (u.gput d rd v, .next)) :
    retired (u.gput d rd v) (s.eng d i body) d (nextPc u d) := by
  rw [eng_issues h, hb, ← nextPc_gput u d rd v]
  exact control_next _ d

/-- The search that ACL SEARCH or, with `next`, SEARCH NEXT makes for the block at `ra` (R290). -/
def State.engSearch (s : State) (d : Iss) (next : Bool) (ra : GReg) (e : AclEnv) : State × AclRes :=
  let b := s.dataBytes d (s.greg d ra) 96
  if next then s.aclStep d.c.g.val (leN b 0 80) (aclCursor (leN b 80 4)) e else s.aclSearch d.c.g.val (leN b 0 80) e

variable (h : issues s d i) (hf : bufFault (s.greg d ra) 96 = 0)
include h hf

theorem engAcl_lull (hm : s.inMode mLULL = true) :
    retired (s.gput d rd (2 ^ 61)) (s.engAcl d i next rd ra e) d (nextPc s d) :=
  eng_gput h ((if_neg (not_not_intro hf)).trans (if_pos hm))

variable (hm : s.inMode mLULL = false)
include hm

theorem engAcl_miss (hr : (s.engSearch d next ra e).2.hit = none) :
    retired ((s.engSearch d next ra e).1.gput d rd (b2n (s.engSearch d next ra e).2.exhausted * 2 ^ 61))
      (s.engAcl d i next rd ra e) d (nextPc (s.engSearch d next ra e).1 d) := by
  refine eng_gput h ((if_neg (not_not_intro hf)).trans ((if_neg (ne_true_of_eq_false hm)).trans ?_))
  show (match (s.engSearch d next ra e).2.hit with | none => _ | some (j, x) => _) = _
  rw [hr]
  rfl

theorem engAcl_hit {j : Nat} {x : AclEnt} (hr : (s.engSearch d next ra e).2.hit = some (j, x)) :
    let u := (s.engSearch d next ra e).1.memPut d.c.g.val d.c.ix (s.greg d ra + 88) (leB 8 x.action)
    retired (u.gput d rd (2 ^ 63 + b2n (s.engSearch d next ra e).2.multi * 2 ^ 62 + j % 16384 * 65536 + x.prio % 65536))
      (s.engAcl d i next rd ra e) d (nextPc u d) := by
  refine eng_gput h ((if_neg (not_not_intro hf)).trans ((if_neg (ne_true_of_eq_false hm)).trans ?_))
  show (match (s.engSearch d next ra e).2.hit with | none => _ | some (j, x) => _) = _
  rw [hr]
  rfl

end EngAcl

/-- Settles O17: one instruction of the model for both searches, in LULL, on a miss and on a hit. -/
theorem aclSearchesReturnTheGoverningMatch : Obligations.AclSearchesReturnTheGoverningMatch := by
  unfold Obligations.AclSearchesReturnTheGoverningMatch
  intro s d rd ra e hf a g b key found p hp hi
  obtain ⟨next, hexec, hsearch⟩ : ∃ next, exec p.1 s = .next (s.engAcl d p.1 next rd ra e) ∧ p.2 = s.engSearch d next ra e := by
    simp only [List.mem_cons, List.not_mem_nil, or_false] at hp
    obtain rfl | rfl := hp
    · exact ⟨false, rfl, rfl⟩
    · exact ⟨true, rfl, rfl⟩
  rw [hsearch, hexec]
  refine ⟨fun hm => ⟨_, rfl, engAcl_lull hi hf hm⟩, fun hm => ⟨fun hr => ⟨_, rfl, engAcl_miss hi hf hm hr⟩, fun j x hr => ⟨_, rfl, ?_⟩⟩⟩
  rw [show nextPc (found _ _ j x) d = nextPc _ d from nextPc_gput _ d rd _]
  exact engAcl_hit hi hf hm hr

end Sys2Proof.Machine

namespace Sys2Proof.Machine

/-! ### Echo scans complete (R264, R266, R269) -/

section ScanDone
variable {s : State} {g : Nat} {j : EchoJob} {l : List EchoJob}

/-- The result word of scan `j` of instance `g`, and whether it is a hit and has further matches. -/
def State.scanned (s : State) (g : Nat) (j : EchoJob) : Nat × Bool × Bool := scanResult ((s.ech g).bank (s.bankAt g j.stamp)) j

/-- `s` with scan `j` taken from its queue, of which `l` remains, and counted with its bytes, a hit and further matches. -/
def State.scanCounted (s : State) (g : Nat) (j : EchoJob) (l : List EchoJob) : State :=
  let u := (s.echPut g { s.ech g with jobs := l }).patCnt g
    (if j.cur.isSome = true then 0x38 else if j.noStart = true then 0x28 else 0x00)
  let u := if j.noStart = true then u else u.patCnt g 0x08 j.data.length
  let u := if (s.scanned g j).2.1 = true then u.patCnt g 0x10 else u
  if (s.scanned g j).2.2 = true then u.patCnt g 0x18 else u

/-- Counting a scan leaves the threads as they are. -/
theorem thrI_scanCounted (i : Nat) : (s.scanCounted g j l).thrI g i = s.thrI g i := by
  refine thrI_congr ?_ g i
  unfold State.scanCounted State.patCnt
  dsimp only
  split <;> split <;> split <;> simp only [cnt_gal] <;> rfl

/-- A token waits for the result of an Echo scan. -/
def awaitsScan (e : Nat × Option Tok) : Bool :=
  match e.2 with
  | some { req := .echo, discard := _, done := none } => true
  | _ => false

/-- What the completion of a token discards (R287): nothing (0), its status (1), or its result too (2), as where no request is left. -/
def discardOf : Option Tok → Nat
  | some t => t.discard
  | none => 2

variable (hj : (s.ech g).jobs = j :: l)
include hj

/-- The scan of an engine: its descriptor receives the result word unless the request is discarded. -/
theorem scanDone_engine (hh : j.handle = none) :
    let u := s.scanCounted g j l
    let v := if discardOf ((u.thrI g j.thr).tok j.tok) = 2 then u else u.memWr g j.thr (j.buf + 16) 8 (s.scanned g j).1
    s.scanDone g = v.draw.2.tokComplete g j.thr j.tok 0 v.draw.1.toNat := by
  unfold State.scanDone
  simp only [hj, hh]
  rfl

/-- The scan of an engine whose token's status is to be returned. -/
theorem scanDone_outstanding (hh : j.handle = none) {q : Req} (hq : (s.thrI g j.thr).tok j.tok = some { req := q }) :
    let v := (s.scanCounted g j l).memWr g j.thr (j.buf + 16) 8 (s.scanned g j).1
    s.scanDone g = v.draw.2.tokComplete g j.thr j.tok 0 v.draw.1.toNat := by
  have hkept : discardOf (((s.scanCounted g j l).thrI g j.thr).tok j.tok) ≠ 2 := by
    rw [thrI_scanCounted, hq]
    exact Nat.zero_ne_add_one 1
  rw [scanDone_engine hj hh, if_neg hkept]

variable {h : Nat} (hh : j.handle = some h)
include hh

/-- The scan of a packet that no thread holds yet. -/
theorem scanDone_undispatched (ht : (s.scanCounted g j l).handleThr g h = none) :
    let u := s.scanCounted g j l
    s.scanDone g = u.echPut g { u.ech g with ready := (u.ech g).ready ++ [(h, (s.scanned g j).1)] } := by
  unfold State.scanDone
  simp only [hj, hh]
  show (match (s.scanCounted g j l).handleThr g h with | some i => _ | none => _) = _
  rw [ht]
  rfl

/-- The scan of a packet of thread `i`. -/
theorem scanDone_dispatched {i n : Nat} {t : Option Tok} (ht : (s.scanCounted g j l).handleThr g h = some i)
    (hn : ((s.scanCounted g j l).thrI g i).toks.find? awaitsScan = some (n, t)) :
    s.scanDone g = (s.scanCounted g j l).tokResult g i n (s.scanned g j).1 := by
  unfold State.scanDone
  simp only [hj, hh]
  show (match (s.scanCounted g j l).handleThr g h with | some i => _ | none => _) = _
  rw [ht]
  show (match ((s.scanCounted g j l).thrI g i).toks.find? awaitsScan with | some e => _ | none => _) = _
  rw [hn]
  rfl

end ScanDone

/-! ### Pointer caches and waiters (R337, R343, R345) -/

/-- The oldest waiter that is not marked waits out its STARVE_US. -/
theorem poolStarved_marks {s : State} {k : Nat} {w : HrdWait} (hw : (s.waitOf k).find? (fun w => !w.starved) = some w) :
    let u := s.advanceUp (w.at_ + s.rd (F.HRD_POOL_CFG_STARVE_US.at (k - 2)) * 1000)
    s.poolStarved k = (u.waitShow k ((u.waitOf k).map (fun x => if x = w then { x with starved := true } else x))).setEvt
      R.HRD_EVT R.HRD_EVT_EN F.HRD_EVT_POOL_STARVED (eg 11 0) := by
  unfold State.poolStarved
  rw [hw]

/-- Settles O29: refill and spill by their guards, the waiter and the scan by what the model does with the first of their queue. -/
theorem cachesWaitersAndScans : Obligations.CachesWaitersAndScans := by
  unfold Obligations.CachesWaitersAndScans
  intro s
  have nexts {x y : State} (e : x = y) : (.next x : Out1) = .next y := congrArg Host.Outcome.next e
  refine ⟨fun k bad hlow => nexts (if_pos hlow), fun k hhigh => nexts (if_pos hhigh), fun k w hw => nexts (poolStarved_marks hw),
    fun g j l hj => ⟨fun hh q hq => ?_, fun h hh ht => ?_, fun h i n t hh ht hn => ?_⟩⟩
  · exact nexts (scanDone_outstanding hj hh hq)
  · exact nexts (scanDone_undispatched hj hh ht)
  · exact nexts (scanDone_dispatched hj hh ht hn)

end Sys2Proof.Machine

namespace Sys2Proof.Machine

/-! ### Words of engine instructions (R301–R304) -/

section Words

/-- The guard a word spells, on the thread of `v` (R301). -/
def issOf (v : EngEnv) (w : Nat) : Iss := ⟨v.c, decide (fieldOf w 31 31 = 1), BitVec.ofNat 3 (fieldOf w 30 28), v.ecc⟩

theorem fieldOf_lt (w hi lo : Nat) : fieldOf w hi lo < 2 ^ (hi + 1 - lo) := Nat.mod_lt _ (Nat.two_pow_pos _)

theorem b2n_le_one (b : Bool) : b2n b ≤ 1 := by cases b <;> decide

/-- A number of `n` bits is the bit vector that holds it. -/
theorem ofNat_eq_iff {n : Nat} (x : Nat) (b : BitVec n) : BitVec.ofNat n x = b ↔ x % 2 ^ n = b.toNat := by
  rw [← BitVec.toNat_inj, BitVec.toNat_ofNat]

/-- A bit of a word read as a flag. -/
theorem decide_one_iff {n : Nat} (h : n < 2) (b : Bool) : decide (n = 1) = b ↔ n = b2n b := by
  cases b <;> simp [b2n]; omega

variable {v : EngEnv} {d : Iss} (hc : v.c = d.c) (he : v.ecc = d.ecc)
include hc he

theorem issOf_eq_iff (w : Nat) : issOf v w = d ↔ fieldOf w 31 31 = b2n d.pn ∧ fieldOf w 30 28 = d.pg.toNat := by
  obtain ⟨c, pn, pg, ecc⟩ := d
  obtain rfl := hc
  obtain rfl := he
  have hpn : decide (fieldOf w 31 31 = 1) = pn ↔ fieldOf w 31 31 = b2n pn := decide_one_iff (fieldOf_lt w 31 31) pn
  have hpg : BitVec.ofNat 3 (fieldOf w 30 28) = pg ↔ fieldOf w 30 28 = pg.toNat := by
    rw [ofNat_eq_iff, Nat.mod_eq_of_lt (fieldOf_lt w 30 28 : fieldOf w 30 28 < 2 ^ 3)]
  simp only [issOf, Iss.mk.injEq, hpn, hpg, true_and, and_true]

/-- The word of a head and of fields below bit 22, field by field. -/
theorem encHead_eq_iff {op rest : Nat} (ho : op < 64) (hr : rest < 2 ^ 22) (w : Nat) :
    encHead d op + rest = w ↔ w < 2 ^ 32 ∧ issOf v w = d ∧ fieldOf w 27 22 = op ∧ fieldOf w 21 0 = rest := by
  rw [issOf_eq_iff hc he]
  have := b2n_le_one d.pn
  have := d.pg.isLt
  unfold encHead fieldOf
  omega

variable {op : Nat} (ho : op < 64) (w : Nat)
include ho

theorem encA_eq_iff (rd ra rb : GReg) {fn : Nat} (hf : fn < 128) :
    encA d op rd ra rb fn = w ↔ w < 2 ^ 32 ∧ issOf v w = d ∧ fieldOf w 27 22 = op ∧ BitVec.ofNat 5 (fieldOf w 21 17) = rd
      ∧ BitVec.ofNat 5 (fieldOf w 16 12) = ra ∧ BitVec.ofNat 5 (fieldOf w 11 7) = rb ∧ fieldOf w 6 0 = fn := by
  have := rd.isLt; have := ra.isLt; have := rb.isLt
  rw [encA, Nat.add_assoc, Nat.add_assoc, Nat.add_assoc, encHead_eq_iff hc he ho (by omega)]
  refine and_congr_right fun hw => and_congr_right fun _ => and_congr_right fun _ => ?_
  simp only [ofNat_eq_iff, fieldOf, Nat.reduceAdd, Nat.reduceSub, Nat.reducePow, Nat.div_one]
  omega

theorem encI_eq_iff (rd ra : GReg) {imm : Nat} (hi : imm < 4096) :
    encI d op rd ra imm = w ↔ w < 2 ^ 32 ∧ issOf v w = d ∧ fieldOf w 27 22 = op ∧ BitVec.ofNat 5 (fieldOf w 21 17) = rd
      ∧ BitVec.ofNat 5 (fieldOf w 16 12) = ra ∧ fieldOf w 11 0 = imm := by
  have := rd.isLt; have := ra.isLt
  rw [encI, Nat.add_assoc, Nat.add_assoc, encHead_eq_iff hc he ho (by omega)]
  refine and_congr_right fun hw => and_congr_right fun _ => and_congr_right fun _ => ?_
  simp only [ofNat_eq_iff, fieldOf, Nat.reduceAdd, Nat.reduceSub, Nat.reducePow, Nat.div_one]
  omega

theorem encM_eq_iff (rd ra : GReg) (sz : BitVec 2) (ofs : BitVec 10) :
    encM d op rd ra sz ofs = w ↔ w < 2 ^ 32 ∧ issOf v w = d ∧ fieldOf w 27 22 = op ∧ BitVec.ofNat 5 (fieldOf w 21 17) = rd
      ∧ BitVec.ofNat 5 (fieldOf w 16 12) = ra ∧ BitVec.ofNat 2 (fieldOf w 11 10) = sz ∧ BitVec.ofNat 10 (fieldOf w 9 0) = ofs := by
  have := rd.isLt; have := ra.isLt; have := sz.isLt; have := ofs.isLt
  rw [encM, Nat.add_assoc, Nat.add_assoc, Nat.add_assoc, encHead_eq_iff hc he ho (by omega)]
  refine and_congr_right fun hw => and_congr_right fun _ => and_congr_right fun _ => ?_
  simp only [ofNat_eq_iff, fieldOf, Nat.reduceAdd, Nat.reduceSub, Nat.reducePow, Nat.div_one]
  omega

theorem encW_eq_iff (rd : GReg) (x : Bool) (imm : BitVec 16) :
    encW d op rd x imm = w ↔ w < 2 ^ 32 ∧ issOf v w = d ∧ fieldOf w 27 22 = op ∧ BitVec.ofNat 5 (fieldOf w 21 17) = rd
      ∧ decide (fieldOf w 16 16 = 1) = x ∧ BitVec.ofNat 16 (fieldOf w 15 0) = imm := by
  have := rd.isLt; have := imm.isLt; have := b2n_le_one x
  rw [encW, Nat.add_assoc, Nat.add_assoc, encHead_eq_iff hc he ho (by omega)]
  refine and_congr_right fun hw => and_congr_right fun _ => and_congr_right fun _ => ?_
  have hx : decide (fieldOf w 16 16 = 1) = x ↔ fieldOf w 16 16 = b2n x := decide_one_iff (fieldOf_lt w 16 16) x
  rw [hx]
  simp only [ofNat_eq_iff, fieldOf, Nat.reduceAdd, Nat.reduceSub, Nat.reducePow, Nat.div_one]
  omega

theorem encF_eq_iff (rd ra : GReg) (pos len : BitVec 6) :
    encF d op rd ra pos len = w ↔ w < 2 ^ 32 ∧ issOf v w = d ∧ fieldOf w 27 22 = op ∧ BitVec.ofNat 5 (fieldOf w 21 17) = rd
      ∧ BitVec.ofNat 5 (fieldOf w 16 12) = ra ∧ fieldOf w 11 6 = pos.toNat ∧ fieldOf w 5 0 = len.toNat := by
  have := rd.isLt; have := ra.isLt; have := pos.isLt; have := len.isLt
  rw [encF, Nat.add_assoc, Nat.add_assoc, Nat.add_assoc, encHead_eq_iff hc he ho (by omega)]
  refine and_congr_right fun hw => and_congr_right fun _ => and_congr_right fun _ => ?_
  simp only [ofNat_eq_iff, fieldOf, Nat.reduceAdd, Nat.reduceSub, Nat.reducePow, Nat.div_one]
  omega

theorem encC_eq_iff (pd : PReg) (cb : BitVec 2) (ra rb : GReg) (cc : BitVec 3) {fn : Nat} (hf : fn < 16) :
    encC d op pd cb ra rb cc fn = w ↔ w < 2 ^ 32 ∧ issOf v w = d ∧ fieldOf w 27 22 = op ∧ BitVec.ofNat 3 (fieldOf w 21 19) = pd
      ∧ BitVec.ofNat 2 (fieldOf w 18 17) = cb ∧ BitVec.ofNat 5 (fieldOf w 16 12) = ra ∧ BitVec.ofNat 5 (fieldOf w 11 7) = rb
      ∧ BitVec.ofNat 3 (fieldOf w 6 4) = cc ∧ fieldOf w 3 0 = fn := by
  have := pd.isLt; have := cb.isLt; have := ra.isLt; have := rb.isLt; have := cc.isLt
  rw [encC, Nat.add_assoc, Nat.add_assoc, Nat.add_assoc, Nat.add_assoc, Nat.add_assoc, encHead_eq_iff hc he ho (by omega)]
  refine and_congr_right fun hw => and_congr_right fun _ => and_congr_right fun _ => ?_
  simp only [ofNat_eq_iff, fieldOf, Nat.reduceAdd, Nat.reduceSub, Nat.reducePow, Nat.div_one]
  omega

theorem encS_eq_iff (rd ra : GReg) {idx fn : Nat} (hi : idx < 256) (hf : fn < 16) :
    encS d op rd ra idx fn = w ↔ w < 2 ^ 32 ∧ issOf v w = d ∧ fieldOf w 27 22 = op ∧ BitVec.ofNat 5 (fieldOf w 21 17) = rd
      ∧ BitVec.ofNat 5 (fieldOf w 16 12) = ra ∧ fieldOf w 11 4 = idx ∧ fieldOf w 3 0 = fn := by
  have := rd.isLt; have := ra.isLt
  rw [encS, Nat.add_assoc, Nat.add_assoc, Nat.add_assoc, encHead_eq_iff hc he ho (by omega)]
  refine and_congr_right fun hw => and_congr_right fun _ => and_congr_right fun _ => ?_
  simp only [ofNat_eq_iff, fieldOf, Nat.reduceAdd, Nat.reduceSub, Nat.reducePow, Nat.div_one]
  omega

theorem encB_eq_iff (ofs : BitVec 22) :
    encB d op ofs = w ↔ w < 2 ^ 32 ∧ issOf v w = d ∧ fieldOf w 27 22 = op ∧ BitVec.ofNat 22 (fieldOf w 21 0) = ofs := by
  rw [encB, encHead_eq_iff hc he ho ofs.isLt, ofNat_eq_iff, Nat.mod_eq_of_lt (fieldOf_lt w 21 0 : fieldOf w 21 0 < 2 ^ 22)]

omit ho

theorem encK_eq_iff (pd : PReg) (cb : BitVec 2) (ra : GReg) (cc : BitVec 3) (imm : BitVec 9) :
    encK d pd cb ra cc imm = w ↔ w < 2 ^ 32 ∧ issOf v w = d ∧ fieldOf w 27 22 = 0x0B ∧ BitVec.ofNat 3 (fieldOf w 21 19) = pd
      ∧ BitVec.ofNat 2 (fieldOf w 18 17) = cb ∧ BitVec.ofNat 5 (fieldOf w 16 12) = ra ∧ BitVec.ofNat 3 (fieldOf w 11 9) = cc
      ∧ BitVec.ofNat 9 (fieldOf w 8 0) = imm := by
  have := pd.isLt; have := cb.isLt; have := ra.isLt; have := cc.isLt; have := imm.isLt
  rw [encK, Nat.add_assoc, Nat.add_assoc, Nat.add_assoc, Nat.add_assoc, encHead_eq_iff hc he (by decide) (by omega)]
  refine and_congr_right fun hw => and_congr_right fun _ => and_congr_right fun _ => ?_
  simp only [ofNat_eq_iff, fieldOf, Nat.reduceAdd, Nat.reduceSub, Nat.reducePow, Nat.div_one]
  omega

theorem encP_eq_iff (pd pa pb : PReg) (pf : BitVec 3) :
    encP d pd pa pb pf = w ↔ w < 2 ^ 32 ∧ issOf v w = d ∧ fieldOf w 27 22 = 0x0C ∧ BitVec.ofNat 3 (fieldOf w 21 19) = pd
      ∧ BitVec.ofNat 3 (fieldOf w 18 16) = pa ∧ BitVec.ofNat 3 (fieldOf w 15 13) = pb ∧ BitVec.ofNat 3 (fieldOf w 12 10) = pf
      ∧ fieldOf w 9 0 = 0 := by
  have := pd.isLt; have := pa.isLt; have := pb.isLt; have := pf.isLt
  rw [encP, Nat.add_assoc, Nat.add_assoc, Nat.add_assoc, encHead_eq_iff hc he (by decide) (by omega)]
  refine and_congr_right fun hw => and_congr_right fun _ => and_congr_right fun _ => ?_
  simp only [ofNat_eq_iff, fieldOf, Nat.reduceAdd, Nat.reduceSub, Nat.reducePow, Nat.div_one]
  omega

end Words
end Sys2Proof.Machine

namespace Sys2Proof.Machine

/-! ### What a decoded word spells -/

section Decoded

/-- A field taken into a register of its width is kept. -/
theorem toNat_field (w hi lo : Nat) : (BitVec.ofNat (hi + 1 - lo) (fieldOf w hi lo)).toNat = fieldOf w hi lo :=
  (BitVec.toNat_ofNat ..).trans (Nat.mod_eq_of_lt (fieldOf_lt w hi lo))

theorem guardI_eq_some {b : Bool} {i j : Instr} : guardI b i = some j ↔ b = true ∧ i = j := by
  unfold guardI
  cases b <;> simp

/-- `i` is a well-formed instruction with word `w` and the guard it spells. -/
def Spells (v : EngEnv) (w : Nat) (i : Instr) : Prop := encodeEngine i = some w ∧ i.wf = true ∧ i.iss = some (issOf v w)

variable {v : EngEnv} {w op fn : Nat} {i : Instr}

/-- A word spells an instruction that its fields encode. -/
theorem Spells.of_word {e : Nat} (he : e = w) (h : encodeEngine i = some e) (hwf : i.wf = true) (hi : i.iss = some (issOf v w)) :
    Spells v w i := ⟨he ▸ h, hwf, hi⟩

variable (hw : w < 2 ^ 32) (hop : fieldOf w 27 22 = op)
include hw hop

theorem encA_of_fields {rd ra rb : GReg} (hrd : BitVec.ofNat 5 (fieldOf w 21 17) = rd) (hra : BitVec.ofNat 5 (fieldOf w 16 12) = ra)
    (hrb : BitVec.ofNat 5 (fieldOf w 11 7) = rb) (hfn : fieldOf w 6 0 = fn) : encA (issOf v w) op rd ra rb fn = w :=
  (encA_eq_iff rfl rfl (hop ▸ fieldOf_lt w 27 22) w rd ra rb (hfn ▸ fieldOf_lt w 6 0)).2 ⟨hw, rfl, hop, hrd, hra, hrb, hfn⟩

theorem encI_of_fields {imm : Nat} (hi : fieldOf w 11 0 = imm) :
    encI (issOf v w) op (BitVec.ofNat 5 (fieldOf w 21 17)) (BitVec.ofNat 5 (fieldOf w 16 12)) imm = w :=
  (encI_eq_iff rfl rfl (hop ▸ fieldOf_lt w 27 22) w _ _ (hi ▸ fieldOf_lt w 11 0)).2 ⟨hw, rfl, hop, rfl, rfl, hi⟩

theorem encM_of_fields : encM (issOf v w) op (BitVec.ofNat 5 (fieldOf w 21 17)) (BitVec.ofNat 5 (fieldOf w 16 12))
    (BitVec.ofNat 2 (fieldOf w 11 10)) (BitVec.ofNat 10 (fieldOf w 9 0)) = w :=
  (encM_eq_iff rfl rfl (hop ▸ fieldOf_lt w 27 22) w _ _ _ _).2 ⟨hw, rfl, hop, rfl, rfl, rfl, rfl⟩

theorem encW_of_fields {rd : GReg} {x : Bool} (hrd : BitVec.ofNat 5 (fieldOf w 21 17) = rd) (hx : decide (fieldOf w 16 16 = 1) = x) :
    encW (issOf v w) op rd x (BitVec.ofNat 16 (fieldOf w 15 0)) = w :=
  (encW_eq_iff rfl rfl (hop ▸ fieldOf_lt w 27 22) w _ _ _).2 ⟨hw, rfl, hop, hrd, hx, rfl⟩

theorem encF_of_fields : encF (issOf v w) op (BitVec.ofNat 5 (fieldOf w 21 17)) (BitVec.ofNat 5 (fieldOf w 16 12))
    (BitVec.ofNat 6 (fieldOf w 11 6)) (BitVec.ofNat 6 (fieldOf w 5 0)) = w :=
  (encF_eq_iff rfl rfl (hop ▸ fieldOf_lt w 27 22) w _ _ _ _).2
    ⟨hw, rfl, hop, rfl, rfl, (toNat_field w 11 6).symm, (toNat_field w 5 0).symm⟩

theorem encC_of_fields {cb : BitVec 2} {rb : GReg} {cc : BitVec 3} (hcb : BitVec.ofNat 2 (fieldOf w 18 17) = cb)
    (hrb : BitVec.ofNat 5 (fieldOf w 11 7) = rb) (hcc : BitVec.ofNat 3 (fieldOf w 6 4) = cc) (hfn : fieldOf w 3 0 = fn) :
    encC (issOf v w) op (BitVec.ofNat 3 (fieldOf w 21 19)) cb (BitVec.ofNat 5 (fieldOf w 16 12)) rb cc fn = w :=
  (encC_eq_iff rfl rfl (hop ▸ fieldOf_lt w 27 22) w _ _ _ _ _ (hfn ▸ fieldOf_lt w 3 0)).2
    ⟨hw, rfl, hop, rfl, hcb, rfl, hrb, hcc, hfn⟩

theorem encB_of_fields : encB (issOf v w) op (BitVec.ofNat 22 (fieldOf w 21 0)) = w :=
  (encB_eq_iff rfl rfl (hop ▸ fieldOf_lt w 27 22) w _).2 ⟨hw, rfl, hop, rfl⟩

theorem encS_of_fields {rd ra : GReg} {idx : Nat} (hrd : BitVec.ofNat 5 (fieldOf w 21 17) = rd)
    (hra : BitVec.ofNat 5 (fieldOf w 16 12) = ra) (hidx : fieldOf w 11 4 = idx) (hfn : fieldOf w 3 0 = fn) :
    encS (issOf v w) op rd ra idx fn = w :=
  (encS_eq_iff rfl rfl (hop ▸ fieldOf_lt w 27 22) w _ _ (hidx ▸ fieldOf_lt w 11 4) (hfn ▸ fieldOf_lt w 3 0)).2
    ⟨hw, rfl, hop, hrd, hra, hidx, hfn⟩

theorem decodeAlu_spells (h0 : op = 0) (h : decodeAlu (issOf v w) (BitVec.ofNat 5 (fieldOf w 21 17)) (BitVec.ofNat 5 (fieldOf w 16 12))
    (BitVec.ofNat 5 (fieldOf w 11 7)) (fieldOf w 6 0) = some i) : Spells v w i := by
  subst h0
  unfold decodeAlu at h
  split at h
  case h_18 hfn | h_19 hfn | h_20 hfn | h_21 hfn | h_22 hfn | h_23 hfn =>
    obtain ⟨hrb, ⟨⟩⟩ := Option.ite_none_right_eq_some.mp h
    exact .of_word (encA_of_fields hw hop rfl rfl hrb hfn) rfl rfl rfl
  case h_27 => cases h
  all_goals
    rename_i hfn
    obtain rfl := Option.some.inj h
    exact .of_word (encA_of_fields hw hop rfl rfl rfl hfn) rfl rfl rfl

theorem decodeAtom_spells (h0 : op = 0x1D) (h : decodeAtom (issOf v w) (BitVec.ofNat 5 (fieldOf w 21 17))
    (BitVec.ofNat 5 (fieldOf w 16 12)) (BitVec.ofNat 5 (fieldOf w 11 7)) (fieldOf w 6 0) = some i) : Spells v w i := by
  subst h0
  unfold decodeAtom at h
  obtain ⟨hlt, h⟩ := Option.ite_none_left_eq_some.mp h
  have hfn {k : Nat} (hk : fieldOf w 6 0 % 8 = k) : fieldOf w 6 0 = k + 8 * b2n (decide (8 ≤ fieldOf w 6 0)) := by
    by_cases h8 : 8 ≤ fieldOf w 6 0 <;> simp only [h8, decide_true, decide_false, b2n] <;> simp <;> omega
  dsimp only at h
  split at h
  case h_8 _ h0 h1 h2 h3 h4 h5 h6 =>
    obtain rfl := Option.some.inj h
    simp only [imp_false] at h0 h1 h2 h3 h4 h5 h6
    exact .of_word (encA_of_fields hw hop rfl rfl rfl (hfn (k := 7) (by omega))) rfl rfl rfl
  all_goals
    rename_i hk
    obtain rfl := Option.some.inj h
    exact .of_word (encA_of_fields hw hop rfl rfl rfl (hfn hk)) rfl rfl rfl

theorem decodeLkp_spells (h0 : op = 0x1E) (h : decodeLkp (issOf v w) (BitVec.ofNat 5 (fieldOf w 21 17))
    (BitVec.ofNat 5 (fieldOf w 16 12)) (BitVec.ofNat 5 (fieldOf w 11 7)) (fieldOf w 6 0) = some i) : Spells v w i := by
  subst h0
  unfold decodeLkp at h
  split at h
  case isTrue hlt =>
    obtain rfl := Option.some.inj h
    have htbl : fieldOf w 6 0 = (BitVec.ofNat 4 (fieldOf w 6 0)).toNat := ((BitVec.toNat_ofNat ..).trans (Nat.mod_eq_of_lt hlt)).symm
    exact .of_word (encA_of_fields hw hop rfl rfl rfl htbl) rfl rfl rfl
  case isFalse =>
    split at h
    case h_6 => cases h
    all_goals
      rename_i hfn
      obtain rfl := Option.some.inj h
      exact .of_word (encA_of_fields hw hop rfl rfl rfl hfn) rfl rfl rfl

theorem decodeReq_spells (hrb : fieldOf w 11 7 = 0) (h : decodeReq v (issOf v w) (BitVec.ofNat 5 (fieldOf w 21 17))
    (BitVec.ofNat 5 (fieldOf w 16 12)) op (fieldOf w 6 0) = some i) : Spells v w i := by
  have hrb : BitVec.ofNat 5 (fieldOf w 11 7) = 0 := congrArg (BitVec.ofNat 5) hrb
  unfold decodeReq at h
  split at h
  case h_18 => cases h
  all_goals
    rename_i hfn
    obtain rfl := Option.some.inj h
    exact .of_word (encA_of_fields hw hop rfl rfl hrb hfn) rfl rfl rfl

theorem decodePkt_spells (h0 : op = 0x2D) (hrd : fieldOf w 21 17 = 0) (hra : fieldOf w 16 12 = 0)
    (h : decodePkt (issOf v w) (fieldOf w 11 4) (fieldOf w 3 0) = some i) : Spells v w i := by
  have hrd : BitVec.ofNat 5 (fieldOf w 21 17) = 0 := congrArg (BitVec.ofNat 5) hrd
  have hra : BitVec.ofNat 5 (fieldOf w 16 12) = 0 := congrArg (BitVec.ofNat 5) hra
  subst h0
  unfold decodePkt at h
  split at h
  case h_4 hfn =>
    obtain ⟨hidx, ⟨⟩⟩ := Option.ite_none_right_eq_some.mp h
    have hreason : fieldOf w 11 4 = (BitVec.ofNat 6 (fieldOf w 11 4)).toNat :=
      ((BitVec.toNat_ofNat ..).trans (Nat.mod_eq_of_lt hidx)).symm
    exact .of_word (encS_of_fields hw hop hrd hra hreason hfn) rfl rfl rfl
  case h_5 => cases h
  all_goals
    rename_i hfn
    obtain ⟨hidx, ⟨⟩⟩ := Option.ite_none_right_eq_some.mp h
    exact .of_word (encS_of_fields hw hop hrd hra hidx hfn) rfl rfl rfl

omit hop

/-- A word that decodes is the word of the instruction it decodes to (R301–R304). -/
theorem decodeEngine_spells (h : decodeEngine v w = some i) : Spells v w i := by
  have zero {n : Nat} (hn : n = 0) : BitVec.ofNat 5 n = (0 : GReg) := congrArg (BitVec.ofNat 5) hn
  unfold decodeEngine at h
  dsimp only at h
  split at h
  case h_1 hop => exact decodeAlu_spells hw hop rfl h
  -- ADDI, ANDI, ORI, XORI, HWADJ
  case h_2 hop | h_3 hop | h_4 hop | h_5 hop | h_23 hop =>
    obtain rfl := Option.some.inj h
    exact .of_word (encI_of_fields hw hop (toNat_field w 11 0).symm) rfl rfl rfl
  -- SHI
  case h_6 hop =>
    obtain ⟨hb, rfl⟩ := guardI_eq_some.mp h
    simp only [Bool.and_eq_true, decide_eq_true_eq] at hb
    obtain ⟨hsel, hz⟩ := hb
    have himm : fieldOf w 11 0 = (BitVec.ofNat 3 (fieldOf w 11 9)).toNat * 512 + (BitVec.ofNat 6 (fieldOf w 5 0)).toNat := by
      rw [toNat_field w 11 9, toNat_field w 5 0]
      simp only [fieldOf, Nat.reduceAdd, Nat.reduceSub, Nat.reducePow, Nat.div_one] at hz ⊢
      omega
    exact .of_word (encI_of_fields hw hop himm) rfl (decide_eq_true ((toNat_field w 11 9).trans_lt hsel)) rfl
  -- MOVI
  case h_7 hop =>
    obtain rfl := Option.some.inj h
    exact .of_word (encW_of_fields hw hop rfl rfl) rfl rfl rfl
  -- MOVK1 to MOVK3
  case h_8 hop | h_9 hop | h_10 hop =>
    obtain ⟨hx, rfl⟩ := guardI_eq_some.mp h
    exact .of_word (encW_of_fields hw hop rfl (by simpa using hx)) rfl rfl rfl
  -- CMP
  case h_11 hop =>
    obtain ⟨hfn, rfl⟩ := guardI_eq_some.mp h
    exact .of_word (encC_of_fields hw hop rfl rfl rfl (of_decide_eq_true hfn)) rfl rfl rfl
  -- CMPI
  case h_12 hop =>
    obtain rfl := Option.some.inj h
    exact .of_word ((encK_eq_iff rfl rfl w _ _ _ _ _).2 ⟨hw, rfl, hop, rfl, rfl, rfl, rfl, rfl⟩) rfl rfl rfl
  -- PSET
  case h_13 hop =>
    obtain ⟨hz, rfl⟩ := guardI_eq_some.mp h
    exact .of_word ((encP_eq_iff rfl rfl w _ _ _ _).2 ⟨hw, rfl, hop, rfl, rfl, rfl, rfl, of_decide_eq_true hz⟩) rfl rfl rfl
  -- BR, CALL
  case h_14 hop | h_15 hop =>
    obtain rfl := Option.some.inj h
    exact .of_word (encB_of_fields hw hop) rfl rfl rfl
  -- JR
  case h_16 hop =>
    obtain ⟨hz, rfl⟩ := guardI_eq_some.mp h
    simp only [Bool.and_eq_true, decide_eq_true_eq] at hz
    obtain ⟨⟨hrd, hrb⟩, hfn⟩ := hz
    exact .of_word (encA_of_fields hw hop (zero hrd) rfl (zero hrb) hfn) rfl rfl rfl
  -- EXT, EXTS, INS
  case h_17 hop | h_18 hop | h_19 hop =>
    obtain ⟨hfits, rfl⟩ := guardI_eq_some.mp h
    have hfits : (BitVec.ofNat 6 (fieldOf w 11 6)).toNat + (BitVec.ofNat 6 (fieldOf w 5 0)).toNat ≤ 63 := by
      rw [toNat_field w 11 6, toNat_field w 5 0]
      exact of_decide_eq_true hfits
    exact .of_word (encF_of_fields hw hop) rfl (decide_eq_true hfits) rfl
  -- EXTV
  case h_20 hop =>
    obtain ⟨hfn, rfl⟩ := guardI_eq_some.mp h
    have hfn := (decide_one_iff (of_decide_eq_true hfn) _).mp rfl
    exact .of_word (encA_of_fields hw hop rfl rfl rfl hfn) rfl rfl rfl
  -- HWL, HWS, LD, ST
  case h_21 hop | h_22 hop | h_26 hop | h_27 hop =>
    obtain rfl := Option.some.inj h
    exact .of_word (encM_of_fields hw hop) rfl rfl rfl
  -- LDX, STX
  case h_28 hop | h_29 hop =>
    obtain ⟨hfn, rfl⟩ := guardI_eq_some.mp h
    have hfn : fieldOf w 6 0 = (BitVec.ofNat 2 (fieldOf w 6 0)).toNat :=
      ((BitVec.toNat_ofNat ..).trans (Nat.mod_eq_of_lt (of_decide_eq_true hfn))).symm
    exact .of_word (encA_of_fields hw hop rfl rfl rfl hfn) rfl rfl rfl
  case h_30 hop => exact decodeAtom_spells hw hop rfl h
  case h_31 hop => exact decodeLkp_spells hw hop rfl h
  -- CNT
  case h_32 hop =>
    obtain ⟨hz, rfl⟩ := guardI_eq_some.mp h
    simp only [Bool.and_eq_true, decide_eq_true_eq] at hz
    obtain ⟨hrd, hfn⟩ := hz
    exact .of_word (encA_of_fields hw hop (zero hrd) rfl rfl hfn) rfl rfl rfl
  -- TEST
  case h_34 hop =>
    obtain ⟨hz, rfl⟩ := guardI_eq_some.mp h
    simp only [Bool.and_eq_true, decide_eq_true_eq] at hz
    obtain ⟨⟨⟨hcb, hrb⟩, hcc⟩, hfn⟩ := hz
    have hfn := (decide_one_iff hfn _).mp rfl
    exact .of_word (encC_of_fields hw hop (congrArg (BitVec.ofNat 2) hcb) (zero hrb) (congrArg (BitVec.ofNat 3) hcc) hfn) rfl rfl rfl
  -- MDS, FRES, FPUT, MTS: no rd
  case h_25 hop | h_35 hop | h_36 hop | h_43 hop =>
    obtain ⟨hz, rfl⟩ := guardI_eq_some.mp h
    simp only [Bool.and_eq_true, decide_eq_true_eq] at hz
    obtain ⟨hrd, hfn⟩ := hz
    exact .of_word (encS_of_fields hw hop (zero hrd) rfl (toNat_field w 11 4).symm hfn) rfl rfl rfl
  -- MDL, TIME, FCMT, FGET, FLEN, MFS: no ra
  case h_24 hop | h_33 hop | h_37 hop | h_38 hop | h_39 hop | h_42 hop =>
    obtain ⟨hz, rfl⟩ := guardI_eq_some.mp h
    simp only [Bool.and_eq_true, decide_eq_true_eq] at hz
    obtain ⟨hra, hfn⟩ := hz
    exact .of_word (encS_of_fields hw hop rfl (zero hra) (toNat_field w 11 4).symm hfn) rfl rfl rfl
  -- SVC
  case h_40 hop =>
    obtain ⟨hz, rfl⟩ := guardI_eq_some.mp h
    simp only [Bool.and_eq_true, decide_eq_true_eq, Bool.not_eq_true'] at hz
    obtain ⟨hrd, hx⟩ := hz
    exact .of_word (encW_of_fields hw hop (zero hrd) hx) rfl rfl rfl
  -- PKT
  case h_41 hop =>
    obtain ⟨hz, h⟩ := Option.ite_none_right_eq_some.mp h
    simp only [Bool.and_eq_true, decide_eq_true_eq] at hz
    obtain ⟨hrd, hra⟩ := hz
    exact decodePkt_spells hw hop rfl hrd hra h
  -- FENCE
  case h_44 hop =>
    obtain ⟨hz, rfl⟩ := guardI_eq_some.mp h
    have hword : encA (issOf v w) 0x30 0 0 0 0 = encHead (issOf v w) 0x30 + 0 := by simp [encA]
    have hhead : encHead (issOf v w) 0x30 + 0 = w := (encHead_eq_iff rfl rfl (by decide) (by decide) w).2 ⟨hw, rfl, hop, of_decide_eq_true hz⟩
    exact .of_word (hword.trans hhead) rfl rfl rfl
  -- ACL, ECHO, HRD, DMA, WAIT
  case h_45 =>
    obtain ⟨hz, h⟩ := Option.ite_none_right_eq_some.mp h
    simp only [Bool.and_eq_true, decide_eq_true_eq] at hz
    exact decodeReq_spells hw rfl hz.2 h

end Decoded
end Sys2Proof.Machine

namespace Sys2Proof.Machine

/-! ### Words of engine instructions decode -/

section Decodes

theorem fieldOf_eq_zero {w hi lo : Nat} (h : BitVec.ofNat (hi + 1 - lo) (fieldOf w hi lo) = 0) : fieldOf w hi lo = 0 := by
  rw [← toNat_field w hi lo, h]
  rfl

theorem ofNat_of_eq_toNat {n x : Nat} {b : BitVec n} (h : x = b.toNat) : BitVec.ofNat n x = b := by
  rw [ofNat_eq_iff, h, Nat.mod_eq_of_lt b.isLt]

/-- The instruction that the word of an instruction decodes to: the events of the supervisor's registers are MFS and MTS (R323). -/
def asDecoded : Instr → Instr
  | .notePop d r => .mfs d r 0x10
  | .thrRegWrite d r => .mts d r 0x13
  | .thrResume d r | .thrSkip d r | .thrJump d r | .thrRestart d r => .mts d r 0x14
  | .synthPost d r => .mts d r 0x15
  | .reclaim d r => .mts d r 0x16
  | i => i

/-- What the word of an instruction on the thread of `d` does not say: whether its store is lost, the soft errors of its search. -/
def envOf (d : Iss) : Instr → EngEnv
  | .st _ _ _ _ _ lost | .stx _ _ _ _ _ lost => ⟨d.c, d.ecc, lost, AclEnv.clean⟩
  | .aclSearch _ _ _ e | .aclSearchNext _ _ _ e => ⟨d.c, d.ecc, false, e⟩
  | _ => ⟨d.c, d.ecc, false, AclEnv.clean⟩

variable {v : EngEnv} {d : Iss} {w : Nat} {i : Instr}

/-- The word of a well-formed instruction has 32 bits and decodes to it, field by field of its format (R301–R304). -/
theorem decode_of_encode (hc : v.c = d.c) (he : v.ecc = d.ecc) (hl : v.lost = (envOf d i).lost) (ha : v.acl = (envOf d i).acl)
    (hi : i.iss = some d) (hwf : i.wf = true) (hw : encodeEngine i = some w) :
    w < 2 ^ 32 ∧ decodeEngine v w = some (asDecoded i) := by
  cases i with
  | add _ rd ra rb | sub _ rd ra rb | and_ _ rd ra rb | or_ _ rd ra rb | xor_ _ rd ra rb | andn _ rd ra rb | sll _ rd ra rb
  | srl _ rd ra rb | sra _ rd ra rb | rol _ rd ra rb | ror _ rd ra rb | mul _ rd ra rb | mulhu _ rd ra rb | min_ _ rd ra rb
  | max_ _ rd ra rb | minu _ rd ra rb | maxu _ rd ra rb | add32 _ rd ra rb | sub32 _ rd ra rb | csum16 _ rd ra rb
  | lkpLpm _ rd ra rb | lkpNh _ rd ra rb | lkpEcmpGroup _ rd ra rb | lkpEcmpMember _ rd ra rb | lkpAdj _ rd ra rb =>
    obtain rfl := Option.some.inj hi
    obtain ⟨hlt, rfl, hop, rfl, rfl, rfl, hfn⟩ := (encA_eq_iff hc he (by decide) w rd ra rb (by decide)).1 (Option.some.inj hw)
    exact ⟨hlt, by unfold decodeEngine; rw [hop, hfn]; rfl⟩
  | clz _ rd ra | ctz _ rd ra | popc _ rd ra | bswap64 _ rd ra | bswap32 _ rd ra | bswap16 _ rd ra =>
    obtain rfl := Option.some.inj hi
    obtain ⟨hlt, rfl, hop, rfl, rfl, hrb, hfn⟩ := (encA_eq_iff hc he (by decide) w rd ra 0 (by decide)).1 (Option.some.inj hw)
    exact ⟨hlt, by unfold decodeEngine; rw [hop, hrb, hfn]; rfl⟩
  | addi _ rd ra imm | andi _ rd ra imm | ori _ rd ra imm | xori _ rd ra imm | hwadj _ rd ra imm =>
    obtain rfl := Option.some.inj hi
    obtain ⟨hlt, rfl, hop, rfl, rfl, himm⟩ := (encI_eq_iff hc he (by decide) w rd ra imm.isLt).1 (Option.some.inj hw)
    obtain rfl := ofNat_of_eq_toNat himm
    exact ⟨hlt, by unfold decodeEngine; rw [hop]; rfl⟩
  | shi _ rd ra sel amt =>
    obtain rfl := Option.some.inj hi
    have hsel : sel.toNat < 4 := of_decide_eq_true hwf
    have hamt := amt.isLt
    obtain ⟨hlt, rfl, hop, rfl, rfl, himm⟩ :=
      (encI_eq_iff hc he (by decide) w rd ra (imm := sel.toNat * 512 + amt.toNat) (by omega)).1 (Option.some.inj hw)
    have hfields : fieldOf w 11 9 = sel.toNat ∧ fieldOf w 8 6 = 0 ∧ fieldOf w 5 0 = amt.toNat := by
      simp only [fieldOf, Nat.reduceAdd, Nat.reduceSub, Nat.reducePow, Nat.div_one] at himm ⊢
      omega
    obtain ⟨h9, h6, h0⟩ := hfields
    obtain rfl := ofNat_of_eq_toNat h9
    obtain rfl := ofNat_of_eq_toNat h0
    rw [← h9] at hsel
    exact ⟨hlt, by unfold decodeEngine; rw [hop]; exact guardI_eq_some.mpr ⟨by simp [hsel, h6], rfl⟩⟩
  | movi _ rd x imm =>
    obtain rfl := Option.some.inj hi
    obtain ⟨hlt, rfl, hop, rfl, rfl, rfl⟩ := (encW_eq_iff hc he (by decide) w rd x imm).1 (Option.some.inj hw)
    exact ⟨hlt, by unfold decodeEngine; rw [hop]; rfl⟩
  | movk1 _ rd imm | movk2 _ rd imm | movk3 _ rd imm =>
    obtain rfl := Option.some.inj hi
    obtain ⟨hlt, rfl, hop, rfl, hx, rfl⟩ := (encW_eq_iff hc he (by decide) w rd false imm).1 (Option.some.inj hw)
    exact ⟨hlt, by unfold decodeEngine; rw [hop, hx]; rfl⟩
  | cmp _ pd cb ra rb cc =>
    obtain rfl := Option.some.inj hi
    obtain ⟨hlt, rfl, hop, rfl, rfl, rfl, rfl, rfl, hfn⟩ :=
      (encC_eq_iff hc he (by decide) w pd cb ra rb cc (by decide)).1 (Option.some.inj hw)
    exact ⟨hlt, by unfold decodeEngine; rw [hop, hfn]; rfl⟩
  | cmpi _ pd cb ra cc imm =>
    obtain rfl := Option.some.inj hi
    obtain ⟨hlt, rfl, hop, rfl, rfl, rfl, rfl, rfl⟩ := (encK_eq_iff hc he w pd cb ra cc imm).1 (Option.some.inj hw)
    exact ⟨hlt, by unfold decodeEngine; rw [hop]; rfl⟩
  | pset _ pd pa pb pf =>
    obtain rfl := Option.some.inj hi
    obtain ⟨hlt, rfl, hop, rfl, rfl, rfl, rfl, hz⟩ := (encP_eq_iff hc he w pd pa pb pf).1 (Option.some.inj hw)
    exact ⟨hlt, by unfold decodeEngine; rw [hop, hz]; rfl⟩
  | br _ ofs | call _ ofs =>
    obtain rfl := Option.some.inj hi
    obtain ⟨hlt, rfl, hop, rfl⟩ := (encB_eq_iff hc he (by decide) w ofs).1 (Option.some.inj hw)
    exact ⟨hlt, by unfold decodeEngine; rw [hop]; rfl⟩
  | jr _ ra =>
    obtain rfl := Option.some.inj hi
    obtain ⟨hlt, rfl, hop, hrd, rfl, hrb, hfn⟩ := (encA_eq_iff hc he (by decide) w 0 ra 0 (by decide)).1 (Option.some.inj hw)
    exact ⟨hlt, by unfold decodeEngine; rw [hop, fieldOf_eq_zero hrd, fieldOf_eq_zero hrb, hfn]; rfl⟩
  | ext _ rd ra pos len | exts _ rd ra pos len | ins _ rd ra pos len =>
    obtain rfl := Option.some.inj hi
    have hfits : pos.toNat + len.toNat ≤ 63 := of_decide_eq_true hwf
    obtain ⟨hlt, rfl, hop, rfl, rfl, hpos, hlen⟩ := (encF_eq_iff hc he (by decide) w rd ra pos len).1 (Option.some.inj hw)
    rw [← hpos, ← hlen] at hfits
    obtain rfl := ofNat_of_eq_toNat hpos
    obtain rfl := ofNat_of_eq_toNat hlen
    exact ⟨hlt, by unfold decodeEngine; rw [hop]; exact guardI_eq_some.mpr ⟨decide_eq_true hfits, rfl⟩⟩
  | extv _ rd ra rb sgn =>
    obtain rfl := Option.some.inj hi
    have hs := b2n_le_one sgn
    obtain ⟨hlt, rfl, hop, rfl, rfl, rfl, hfn⟩ :=
      (encA_eq_iff hc he (by decide) w rd ra rb (fn := b2n sgn) (by omega)).1 (Option.some.inj hw)
    have hlt2 : fieldOf w 6 0 < 2 := by omega
    obtain rfl := (decide_one_iff hlt2 sgn).mpr hfn
    exact ⟨hlt, by unfold decodeEngine; rw [hop]; exact guardI_eq_some.mpr ⟨decide_eq_true hlt2, rfl⟩⟩
  | hwl _ r ra sz ofs | hws _ r ra sz ofs | ld _ r ra sz ofs =>
    obtain rfl := Option.some.inj hi
    obtain ⟨hlt, rfl, hop, rfl, rfl, rfl, rfl⟩ := (encM_eq_iff hc he (by decide) w r ra sz ofs).1 (Option.some.inj hw)
    exact ⟨hlt, by unfold decodeEngine; rw [hop]; rfl⟩
  | st _ r ra sz ofs lost =>
    obtain rfl := Option.some.inj hi
    obtain ⟨hlt, rfl, hop, rfl, rfl, rfl, rfl⟩ := (encM_eq_iff hc he (by decide) w r ra sz ofs).1 (Option.some.inj hw)
    obtain rfl : v.lost = lost := hl
    exact ⟨hlt, by unfold decodeEngine; rw [hop]; rfl⟩
  | ldx _ rd ra rb sz =>
    obtain rfl := Option.some.inj hi
    have hsz := sz.isLt
    obtain ⟨hlt, rfl, hop, rfl, rfl, rfl, hfn⟩ :=
      (encA_eq_iff hc he (by decide) w rd ra rb (fn := sz.toNat) (by omega)).1 (Option.some.inj hw)
    rw [← hfn] at hsz
    obtain rfl := ofNat_of_eq_toNat hfn
    exact ⟨hlt, by unfold decodeEngine; rw [hop]; exact guardI_eq_some.mpr ⟨decide_eq_true hsz, rfl⟩⟩
  | stx _ rd ra rb sz lost =>
    obtain rfl := Option.some.inj hi
    have hsz := sz.isLt
    obtain ⟨hlt, rfl, hop, rfl, rfl, rfl, hfn⟩ :=
      (encA_eq_iff hc he (by decide) w rd ra rb (fn := sz.toNat) (by omega)).1 (Option.some.inj hw)
    rw [← hfn] at hsz
    obtain rfl := ofNat_of_eq_toNat hfn
    obtain rfl : v.lost = lost := hl
    exact ⟨hlt, by unfold decodeEngine; rw [hop]; exact guardI_eq_some.mpr ⟨decide_eq_true hsz, rfl⟩⟩
  | atomAdd _ rd ra rb dbl | atomAnd _ rd ra rb dbl | atomOr _ rd ra rb dbl | atomXor _ rd ra rb dbl | atomSwap _ rd ra rb dbl
  | atomUmin _ rd ra rb dbl | atomUmax _ rd ra rb dbl | atomCas _ rd ra rb dbl =>
    obtain rfl := Option.some.inj hi
    cases dbl
    all_goals
      obtain ⟨hlt, rfl, hop, rfl, rfl, rfl, hfn⟩ := (encA_eq_iff hc he (by decide) w rd ra rb (by decide)).1 (Option.some.inj hw)
      exact ⟨hlt, by unfold decodeEngine; rw [hop, hfn]; rfl⟩
  | lkpEm _ rd ra rb tbl =>
    obtain rfl := Option.some.inj hi
    have htbl := tbl.isLt
    obtain ⟨hlt, rfl, hop, rfl, rfl, rfl, hfn⟩ :=
      (encA_eq_iff hc he (by decide) w rd ra rb (fn := tbl.toNat) (by omega)).1 (Option.some.inj hw)
    rw [← hfn] at htbl
    obtain rfl := ofNat_of_eq_toNat hfn
    exact ⟨hlt, by unfold decodeEngine; rw [hop]; exact if_pos htbl⟩
  | aclSearch _ rd ra e | aclSearchNext _ rd ra e =>
    obtain rfl := Option.some.inj hi
    obtain ⟨hlt, rfl, hop, rfl, rfl, hrb, hfn⟩ := (encA_eq_iff hc he (by decide) w rd ra 0 (by decide)).1 (Option.some.inj hw)
    obtain rfl : v.acl = e := ha
    exact ⟨hlt, by unfold decodeEngine; rw [hop, fieldOf_eq_zero hrb, hfn]; rfl⟩
  | echoScanRequest _ rd ra mem | echoStepRequest _ rd ra mem =>
    obtain rfl := Option.some.inj hi
    cases mem
    all_goals
      obtain ⟨hlt, rfl, hop, rfl, rfl, hrb, hfn⟩ := (encA_eq_iff hc he (by decide) w rd ra 0 (by decide)).1 (Option.some.inj hw)
      exact ⟨hlt, by unfold decodeEngine; rw [hop, fieldOf_eq_zero hrb, hfn]; rfl⟩
  | hrdAlloc _ rd ra | hrdFree _ rd ra | hrdRef _ rd ra | dmaPacketToLocal _ rd ra | dmaTableToLocal _ rd ra
  | dmaLocalToTable _ rd ra | dmaCellToLocal _ rd ra | dmaLocalToCell _ rd ra | waitToken _ rd ra | waitAny _ rd ra
  | waitEvent _ rd ra =>
    obtain rfl := Option.some.inj hi
    obtain ⟨hlt, rfl, hop, rfl, rfl, hrb, hfn⟩ := (encA_eq_iff hc he (by decide) w rd ra 0 (by decide)).1 (Option.some.inj hw)
    exact ⟨hlt, by unfold decodeEngine; rw [hop, fieldOf_eq_zero hrb, hfn]; rfl⟩
  | cnt _ ra rb =>
    obtain rfl := Option.some.inj hi
    obtain ⟨hlt, rfl, hop, hrd, rfl, rfl, hfn⟩ := (encA_eq_iff hc he (by decide) w 0 ra rb (by decide)).1 (Option.some.inj hw)
    exact ⟨hlt, by unfold decodeEngine; rw [hop, fieldOf_eq_zero hrd, hfn]; rfl⟩
  | test _ pd ra free =>
    obtain rfl := Option.some.inj hi
    have hf := b2n_le_one free
    obtain ⟨hlt, rfl, hop, rfl, hcb, rfl, hrb, hcc, hfn⟩ :=
      (encC_eq_iff hc he (by decide) w pd 0 ra 0 0 (fn := b2n free) (by omega)).1 (Option.some.inj hw)
    have hlt2 : fieldOf w 3 0 < 2 := by omega
    obtain rfl := (decide_one_iff hlt2 free).mpr hfn
    exact ⟨hlt, by
      unfold decodeEngine
      rw [hop, fieldOf_eq_zero hcb, fieldOf_eq_zero hrb, fieldOf_eq_zero hcc]
      exact guardI_eq_some.mpr ⟨decide_eq_true hlt2, rfl⟩⟩
  | mds _ ra idx | fres _ ra idx | fput _ ra idx | mts _ ra idx =>
    obtain rfl := Option.some.inj hi
    obtain ⟨hlt, rfl, hop, hrd, rfl, hidx, hfn⟩ := (encS_eq_iff hc he (by decide) w 0 ra idx.isLt (by decide)).1 (Option.some.inj hw)
    obtain rfl := ofNat_of_eq_toNat hidx
    exact ⟨hlt, by unfold decodeEngine; rw [hop, fieldOf_eq_zero hrd, hfn]; rfl⟩
  | mdl _ rd idx | time _ rd idx | fcmt _ rd idx | fget _ rd idx | flen _ rd idx | mfs _ rd idx =>
    obtain rfl := Option.some.inj hi
    obtain ⟨hlt, rfl, hop, rfl, hra, hidx, hfn⟩ := (encS_eq_iff hc he (by decide) w rd 0 idx.isLt (by decide)).1 (Option.some.inj hw)
    obtain rfl := ofNat_of_eq_toNat hidx
    exact ⟨hlt, by unfold decodeEngine; rw [hop, fieldOf_eq_zero hra, hfn]; rfl⟩
  | svc _ code =>
    obtain rfl := Option.some.inj hi
    obtain ⟨hlt, rfl, hop, hrd, hx, rfl⟩ := (encW_eq_iff hc he (by decide) w 0 false code).1 (Option.some.inj hw)
    exact ⟨hlt, by unfold decodeEngine; rw [hop, fieldOf_eq_zero hrd, hx]; rfl⟩
  | pktReady _ | pktSend _ | pktDrop _ =>
    obtain rfl := Option.some.inj hi
    obtain ⟨hlt, rfl, hop, hrd, hra, hidx, hfn⟩ := (encS_eq_iff hc he (by decide) w 0 0 (by decide) (by decide)).1 (Option.some.inj hw)
    exact ⟨hlt, by unfold decodeEngine; rw [hop, fieldOf_eq_zero hrd, fieldOf_eq_zero hra, hidx, hfn]; rfl⟩
  | pktPunt _ reason =>
    obtain rfl := Option.some.inj hi
    have hreason := reason.isLt
    obtain ⟨hlt, rfl, hop, hrd, hra, hidx, hfn⟩ :=
      (encS_eq_iff hc he (by decide) w 0 0 (idx := reason.toNat) (by omega) (by decide)).1 (Option.some.inj hw)
    rw [← hidx] at hreason
    obtain rfl := ofNat_of_eq_toNat hidx
    exact ⟨hlt, by unfold decodeEngine; rw [hop, fieldOf_eq_zero hrd, fieldOf_eq_zero hra, hfn]; exact if_pos hreason⟩
  | notePop _ rd =>
    obtain rfl := Option.some.inj hi
    obtain ⟨hlt, rfl, hop, rfl, hra, hidx, hfn⟩ := (encS_eq_iff hc he (by decide) w rd 0 (by decide) (by decide)).1 (Option.some.inj hw)
    exact ⟨hlt, by unfold decodeEngine; rw [hop, fieldOf_eq_zero hra, hidx, hfn]; rfl⟩
  | thrRegWrite _ ra | thrResume _ ra | thrSkip _ ra | thrJump _ ra | thrRestart _ ra | synthPost _ ra | reclaim _ ra =>
    obtain rfl := Option.some.inj hi
    obtain ⟨hlt, rfl, hop, hrd, rfl, hidx, hfn⟩ := (encS_eq_iff hc he (by decide) w 0 ra (by decide) (by decide)).1 (Option.some.inj hw)
    exact ⟨hlt, by unfold decodeEngine; rw [hop, fieldOf_eq_zero hrd, hidx, hfn]; rfl⟩
  | fence d =>
    obtain rfl := Option.some.inj hi
    have hword : encHead d 0x30 + 0 = w := .trans (by simp [encA]) (Option.some.inj hw)
    obtain ⟨hlt, rfl, hop, hz⟩ := (encHead_eq_iff hc he (by decide) (by decide) w).1 hword
    exact ⟨hlt, by unfold decodeEngine; rw [hop, hz]; rfl⟩
  | reservedOpcode _ _ => cases hw
  | _ => cases hi

/-- An instruction decodes to itself, the eight events of the supervisor's registers to the MFS or MTS they are. -/
theorem asDecoded_cases (hi : i.iss = some d) : asDecoded i = i ∨ ∃ r,
    (i = .notePop d r ∧ asDecoded i = .mfs d r 0x10)
    ∨ (i = .thrRegWrite d r ∧ asDecoded i = .mts d r 0x13)
    ∨ (i ∈ [Instr.thrResume d r, .thrSkip d r, .thrJump d r, .thrRestart d r] ∧ asDecoded i = .mts d r 0x14)
    ∨ (i = .synthPost d r ∧ asDecoded i = .mts d r 0x15)
    ∨ (i = .reclaim d r ∧ asDecoded i = .mts d r 0x16) := by
  unfold asDecoded
  split
  case h_9 => exact .inl rfl
  all_goals
    rename_i r
    obtain rfl := Option.some.inj hi
    exact .inr ⟨r, by simp⟩

end Decodes

/-- The guard a word spells, read from its bits [31:28]. -/
theorem issOf_eq (v : EngEnv) (w : Nat) :
    issOf v w = ⟨v.c, w.testBit 31, BitVec.ofNat 3 (w / 2 ^ 28), v.ecc⟩ := by
  have hpn : decide (fieldOf w 31 31 = 1) = w.testBit 31 := (Nat.testBit_eq_decide_div_mod_eq ..).symm
  have hpg : BitVec.ofNat 3 (fieldOf w 30 28) = BitVec.ofNat 3 (w / 2 ^ 28) := by
    rw [ofNat_eq_iff, BitVec.toNat_ofNat]
    exact Nat.mod_mod ..
  rw [issOf, hpn, hpg]

/-- Settles O58: each format is a bijection between its fields and the words of its opcode (`encA_eq_iff` and its like), read in one
direction for `decode_of_encode` and in the other for `decodeEngine_spells`. -/
theorem decodeAndEncodeAgree : Obligations.DecodeAndEncodeAgree := by
  unfold Obligations.DecodeAndEncodeAgree
  refine ⟨fun i d w hi hwf hw => ?_, fun v w i hw h => ?_⟩
  · have hc : (envOf d i).c = d.c ∧ (envOf d i).ecc = d.ecc := by unfold envOf; split <;> exact ⟨rfl, rfl⟩
    obtain ⟨hlt, hdec⟩ := decode_of_encode hc.1 hc.2 rfl rfl hi hwf hw
    refine ⟨hlt, _, hc.1, hc.2, ?_⟩
    rw [hdec]
    rcases asDecoded_cases hi with h | ⟨r, h⟩
    · exact .inl (congrArg some h)
    · simp only [Option.some.injEq]
      exact .inr ⟨r, h⟩
  · obtain ⟨henc, hwf, hi⟩ := decodeEngine_spells hw h
    exact ⟨henc, hwf, hi.trans (congrArg some (issOf_eq v w))⟩

end Sys2Proof.Machine

namespace Sys2Proof.Machine

/-- Settles O59: each word decodes by evaluation, whatever the thread. -/
theorem writtenOutWordsDecode : Obligations.WrittenOutWordsDecode := fun _ => ⟨rfl, rfl, rfl, rfl, rfl, rfl, rfl⟩

end Sys2Proof.Machine

namespace Sys2Proof.Machine

/-! ### The issue of an instruction: what its body decides (R301, R303) -/

/-- The next index is a function of the thread's index. -/
theorem nextPc_congr {s u : State} {d : Iss} (h : (u.thrOf d).pc = (s.thrOf d).pc) : nextPc u d = nextPc s d := by
  unfold nextPc
  rw [h]

@[simp] theorem thrOf_thrPut (s : State) (d : Iss) (f : Thr → Thr) : (s.thrPut d f).thrOf d = f (s.thrOf d) := by
  unfold State.thrPut State.thrOf
  simp

/-- Updates of a gallery that agree on it agree. -/
theorem galUpd_congr {s : State} {g : Nat} {f f' : Gal → Gal} (h : f (s.galI g) = f' (s.galI g)) : s.galUpd g f = s.galUpd g f' :=
  congrArg (fun y => ({ s with gal := mset (fun _ => {}) s.gal g y } : State)) h

/-- Updates of one thread that agree on it agree. -/
theorem thrUpd_congr {s : State} {g i : Nat} {f f' : Thr → Thr} (h : f (s.thrI g i) = f' (s.thrI g i)) :
    s.thrUpd g i f = s.thrUpd g i f' :=
  galUpd_congr (congrArg (fun x => { s.galI g with thr := mset (fun _ => ({} : Thr)) (s.galI g).thr i x }) h)

theorem thrPut_congr {s : State} {d : Iss} {f f' : Thr → Thr} (h : f (s.thrOf d) = f' (s.thrOf d)) : s.thrPut d f = s.thrPut d f' :=
  thrUpd_congr h

/-- Counting a performance event before an instruction retires is part of its retirement (R454). -/
theorem retired_of_pmcOf {u t : State} {d : Iss} {ev n : Nat} (h : retired (u.pmcOf d ev) t d n) : retired u t d n := by
  obtain ⟨r, l, hu⟩ := pmc_form u d.c.g.val d.c.ix ev
  have htb : (u.pmc d.c.g.val d.c.ix ev).tb = u.tb := by rw [hu]
  obtain ⟨h1, h2, h3, h4, h5, h6, h7, h8, k, h9⟩ := h
  unfold State.pmcOf at *
  simp only [State.thrOf, thrI_pmc, galI_pmc, htb] at h1 h2 h3 h4 h5 h6 h7
  refine ⟨h1, h2, h3, h4, h5, h6, h7, fun a ha => (h8 a ha).trans (rdw_pmc _ _ _ _ _ (ix_lt d.c) ha), l ++ k, ?_⟩
  rw [hu] at h9
  have h := congrArg (fun x : State => { x with regs := u.regs }) h9
  rw [← List.append_assoc]
  exact h

@[simp] theorem thrI_saTouch (s : State) (g i h j : Nat) : (s.saTouch g i).thrI h j = s.thrI h j := by
  unfold State.thrI
  rw [galI_saTouch]
  split
  · simp [*]
  · rfl

/-- A stall changes nothing else of its thread. -/
theorem control_stall (u : State) (g i : Nat) (w : Stall) : ∃ v : State,
    u.control g i (.stall w) = v.thrUpd g i (fun x => { x with run := .stall w }) ∧ v.thrI g i = u.thrI g i := by
  unfold State.control
  dsimp only
  split
  · exact ⟨u, rfl, rfl⟩
  · exact ⟨(u.saTouch g i).pmc g i 0x07, rfl, by simp⟩

section Issued
variable {s u : State} {d : Iss} {i : Instr} {body : State → State × Ctl} (h : issues s d i)
include h

/-- The body of an instruction that issues ends with its thread at the next index. -/
theorem eng_next (hb : body s = (u, .next)) : retired u (s.eng d i body) d (nextPc u d) := by
  rw [eng_issues h, hb]
  exact control_next u d

theorem eng_jump {n : Nat} (hb : body s = (u, .jump n)) : retired u (s.eng d i body) d n := by
  rw [eng_issues h, hb]
  exact control_jump u d n

theorem eng_fault {cause code : Nat} (hb : body s = (s, .flt cause code)) : s.eng d i body = s.faulted d cause code := by
  rw [eng_issues h, hb]
  rfl

theorem eng_done (hb : body s = (u, .done)) :
    s.eng d i body = (u.saTouch d.c.g.val d.c.ix).retire d.c.g.val d.c.ix := by
  rw [eng_issues h, hb]
  rfl

/-- The thread of a stalled instruction presents it again (R311). -/
theorem eng_stall {w : Stall} (hb : body s = (u, .stall w)) (hu : u.thrOf d = s.thrOf d) :
    (s.eng d i body).thrOf d = { s.thrOf d with run := .stall w } := by
  obtain ⟨v, hv, ht⟩ := control_stall u d.c.g.val d.c.ix w
  rw [eng_issues h, hb, hv, ← hu]
  unfold State.thrOf
  simp [ht]

end Issued

/-- Writes of a G register agree when their values agree modulo 2^64. -/
theorem gput_congr {s : State} {d : Iss} {rd : GReg} {v w : Nat} (h : v % 2 ^ 64 = w % 2 ^ 64) : s.gput d rd v = s.gput d rd w := by
  unfold State.gput State.rgSet
  rw [h]

/-- G registers hold 64 bits. -/
theorem greg_lt (s : State) (d : Iss) (r : GReg) : s.greg d r < 2 ^ 64 := by
  unfold State.greg State.rg
  split
  · decide
  · exact Nat.mod_lt _ (by decide)

/-- An instruction that writes a value to rd and no more. -/
theorem engRd_retires {s : State} {d : Iss} {i : Instr} {rd : GReg} {f : State → Nat} {v : Nat} (h : issues s d i)
    (hv : f s % 2 ^ 64 = v % 2 ^ 64) : retired (s.gput d rd v) (s.engRd d i rd f) d (nextPc s d) :=
  gput_congr hv ▸ eng_gput h rfl

end Sys2Proof.Machine

namespace Sys2Proof.Machine

/-! ### Numbers of the ALU as bit vectors (R303, R304) -/

/-- The model's signed reading of a number is that of the bit vector. -/
theorem sx_eq_toInt {w : Nat} (hw : 0 < w) (n : Nat) : sx w n = (BitVec.ofNat w n).toInt := by
  have h2 : 2 ^ w = 2 * 2 ^ (w - 1) := by rw [← Nat.pow_succ']; congr 1; omega
  rw [BitVec.toInt_eq_toNat_cond, BitVec.toNat_ofNat]
  unfold sx
  by_cases h : 2 ^ (w - 1) ≤ n % 2 ^ w
  · rw [if_pos h, if_neg (by omega)]; push_cast; rfl
  · rw [if_neg h, if_pos (by omega)]; push_cast; rfl

/-- The model's two's complement is that of the bit vector. -/
theorem tc_eq_toNat (w : Nat) (i : Int) : tc w i = (BitVec.ofInt w i).toNat := by
  rw [BitVec.toNat_ofInt, tc]; norm_cast

theorem tc_toInt {w : Nat} (x : BitVec w) : tc w x.toInt = x.toNat := by
  rw [tc_eq_toNat, BitVec.ofInt_toInt]

theorem sext_eq_signExtend {w : Nat} (hw : 0 < w) (n : Nat) : sext w n = ((BitVec.ofNat w n).signExtend 64).toNat := by
  rw [sext, sx_eq_toInt hw, tc_eq_toNat]
  rfl

section Alu
variable (a b : Nat)

theorem aluSub_eq : BitVec.ofNat 64 (aluSub a b) = BitVec.ofNat 64 a - BitVec.ofNat 64 b := by
  rw [ofNat_eq_iff, BitVec.toNat_sub, BitVec.toNat_ofNat, BitVec.toNat_ofNat]
  unfold aluSub w64
  omega

theorem andn_eq (hb : b < 2 ^ 64) : BitVec.ofNat 64 (a &&& (w64 - 1 - b)) = BitVec.ofNat 64 a &&& ~~~BitVec.ofNat 64 b := by
  rw [BitVec.ofNat_and]
  congr 1
  rw [ofNat_eq_iff, BitVec.toNat_not, BitVec.toNat_ofNat, Nat.mod_eq_of_lt hb]
  unfold w64
  omega

theorem aluSll_eq : BitVec.ofNat 64 (aluSll a b) = BitVec.ofNat 64 a <<< (b % 64) := by
  apply ofNat_of_eq_toNat
  rw [BitVec.toNat_shiftLeft, BitVec.toNat_ofNat, Nat.shiftLeft_eq, Nat.mod_mul_mod]
  rfl

theorem aluSrl_eq (ha : a < 2 ^ 64) : BitVec.ofNat 64 (aluSrl a b) = BitVec.ofNat 64 a >>> (b % 64) := by
  apply ofNat_of_eq_toNat
  rw [BitVec.toNat_ushiftRight, BitVec.toNat_ofNat, Nat.mod_eq_of_lt ha, Nat.shiftRight_eq_div_pow]
  rfl

theorem aluSra_eq : BitVec.ofNat 64 (aluSra a b) = (BitVec.ofNat 64 a).sshiftRight (b % 64) := by
  apply ofNat_of_eq_toNat
  rw [aluSra, sx_eq_toInt (by decide), ← tc_toInt, BitVec.toInt_sshiftRight, Int.shiftRight_eq_div_pow]

/-- The two parts of a rotation share no bit. -/
theorem rotate_add_eq_or {n : Nat} (ha : a < 2 ^ 64) (hn : n ≤ 64) :
    a * 2 ^ n % 2 ^ 64 + a / 2 ^ (64 - n) = a * 2 ^ n % 2 ^ 64 ||| a / 2 ^ (64 - n) := by
  have hsplit : (2 : Nat) ^ 64 = 2 ^ (64 - n) * 2 ^ n := by rw [← Nat.pow_add]; congr 1; omega
  have hhigh : a / 2 ^ (64 - n) < 2 ^ n := by
    rw [Nat.div_lt_iff_lt_mul (by positivity), Nat.mul_comm, ← hsplit]
    exact ha
  rw [hsplit, Nat.mul_mod_mul_right, ← Nat.shiftLeft_eq, Nat.shiftLeft_add_eq_or_of_lt hhigh]

theorem aluRol_eq (ha : a < 2 ^ 64) : BitVec.ofNat 64 (aluRol a b) = (BitVec.ofNat 64 a).rotateLeft (b % 64) := by
  apply ofNat_of_eq_toNat
  have hn : b % 64 < 64 := Nat.mod_lt _ (by decide)
  unfold aluRol BitVec.rotateLeft BitVec.rotateLeftAux
  rw [Nat.mod_mod, BitVec.toNat_or, BitVec.toNat_shiftLeft, BitVec.toNat_ushiftRight, BitVec.toNat_ofNat, Nat.mod_eq_of_lt ha,
    Nat.shiftLeft_eq, Nat.shiftRight_eq_div_pow]
  exact rotate_add_eq_or a ha (by omega)

theorem aluRor_eq (ha : a < 2 ^ 64) : BitVec.ofNat 64 (aluRor a b) = (BitVec.ofNat 64 a).rotateRight (b % 64) := by
  apply ofNat_of_eq_toNat
  have hn : b % 64 < 64 := Nat.mod_lt _ (by decide)
  unfold aluRor aluRol BitVec.rotateRight BitVec.rotateRightAux
  rw [Nat.mod_mod, BitVec.toNat_or, BitVec.toNat_shiftLeft, BitVec.toNat_ushiftRight, BitVec.toNat_ofNat, Nat.mod_eq_of_lt ha,
    Nat.shiftLeft_eq, Nat.shiftRight_eq_div_pow]
  by_cases h0 : b % 64 = 0
  · have hhigh : a * 2 ^ 64 % 2 ^ 64 = 0 := Nat.mul_mod_left ..
    simp only [h0, Nat.sub_zero, Nat.mod_self, Nat.pow_zero, Nat.mul_one, Nat.div_one, hhigh, Nat.or_zero]
    unfold w64
    omega
  · have hr : (64 - b % 64) % 64 = 64 - b % 64 := Nat.mod_eq_of_lt (by omega)
    have hl : 64 - (64 - b % 64) = b % 64 := by omega
    rw [hr, hl, Nat.or_comm]
    have h := rotate_add_eq_or (n := 64 - b % 64) a ha (by omega)
    rwa [hl] at h

theorem slt_iff_sx : (BitVec.ofNat 64 a).slt (BitVec.ofNat 64 b) = true ↔ sx 64 a < sx 64 b := by
  rw [sx_eq_toInt (by decide), sx_eq_toInt (by decide), BitVec.slt_iff_toInt_lt]

/-- Signed numbers that neither precede the other are one word. -/
theorem ofNat_eq_of_sx_eq (h : sx 64 a = sx 64 b) : BitVec.ofNat 64 a = BitVec.ofNat 64 b := by
  rwa [sx_eq_toInt (by decide), sx_eq_toInt (by decide), BitVec.toInt_inj] at h

theorem aluMin_eq : BitVec.ofNat 64 (aluMin a b)
    = if (BitVec.ofNat 64 a).slt (BitVec.ofNat 64 b) then BitVec.ofNat 64 a else BitVec.ofNat 64 b := by
  simp only [aluMin, slt_iff_sx]
  rcases lt_trichotomy (sx 64 a) (sx 64 b) with h | h | h
  · rw [if_pos h.le, if_pos h]
  · rw [if_pos h.le, if_neg h.not_lt, ofNat_eq_of_sx_eq a b h]
  · rw [if_neg h.not_ge, if_neg h.not_gt]

theorem aluMax_eq : BitVec.ofNat 64 (aluMax a b)
    = if (BitVec.ofNat 64 a).slt (BitVec.ofNat 64 b) then BitVec.ofNat 64 b else BitVec.ofNat 64 a := by
  simp only [aluMax, slt_iff_sx]
  rcases lt_trichotomy (sx 64 a) (sx 64 b) with h | h | h
  · rw [if_pos h.le, if_pos h]
  · rw [if_pos h.le, if_neg h.not_lt, ofNat_eq_of_sx_eq a b h]
  · rw [if_neg h.not_ge, if_neg h.not_gt]

theorem ult_iff_lt (ha : a < 2 ^ 64) (hb : b < 2 ^ 64) : (BitVec.ofNat 64 a).ult (BitVec.ofNat 64 b) = true ↔ a < b := by
  rw [BitVec.ult_iff_toNat_lt, BitVec.toNat_ofNat, BitVec.toNat_ofNat, Nat.mod_eq_of_lt ha, Nat.mod_eq_of_lt hb]

theorem minu_eq (ha : a < 2 ^ 64) (hb : b < 2 ^ 64) : BitVec.ofNat 64 (min a b)
    = if (BitVec.ofNat 64 a).ult (BitVec.ofNat 64 b) then BitVec.ofNat 64 a else BitVec.ofNat 64 b := by
  simp only [ult_iff_lt a b ha hb]
  split <;> congr 1 <;> omega

theorem maxu_eq (ha : a < 2 ^ 64) (hb : b < 2 ^ 64) : BitVec.ofNat 64 (max a b)
    = if (BitVec.ofNat 64 a).ult (BitVec.ofNat 64 b) then BitVec.ofNat 64 b else BitVec.ofNat 64 a := by
  simp only [ult_iff_lt a b ha hb]
  split <;> congr 1 <;> omega

theorem add32_eq : BitVec.ofNat 64 ((a + b) % 2 ^ 32)
    = ((BitVec.ofNat 64 a).setWidth 32 + (BitVec.ofNat 64 b).setWidth 32).setWidth 64 := by
  rw [BitVec.setWidth_ofNat_of_le (by decide), BitVec.setWidth_ofNat_of_le (by decide), ← BitVec.ofNat_add]
  apply ofNat_of_eq_toNat
  rw [BitVec.toNat_setWidth, BitVec.toNat_ofNat]
  omega

theorem sub32_eq : BitVec.ofNat 64 (aluSub a b % 2 ^ 32)
    = ((BitVec.ofNat 64 a).setWidth 32 - (BitVec.ofNat 64 b).setWidth 32).setWidth 64 := by
  rw [BitVec.setWidth_ofNat_of_le (by decide), BitVec.setWidth_ofNat_of_le (by decide)]
  apply ofNat_of_eq_toNat
  rw [BitVec.toNat_setWidth, BitVec.toNat_sub, BitVec.toNat_ofNat, BitVec.toNat_ofNat]
  unfold aluSub w64
  omega

theorem aluCsum_eq : aluCsum a b
    = if a % 65536 + b % 65536 < 65536 then a % 65536 + b % 65536 else a % 65536 + b % 65536 - 65535 := by
  unfold aluCsum
  dsimp only
  split <;> omega

end Alu

/-- An instruction that writes a 64-bit word to rd and no more. -/
theorem engRd_word {s : State} {d : Iss} {i : Instr} {rd : GReg} {f : State → Nat} {v : BitVec 64} (h : issues s d i)
    (hv : BitVec.ofNat 64 (f s) = v) : retired (s.gput d rd v.toNat) (s.engRd d i rd f) d (nextPc s d) :=
  engRd_retires h (((ofNat_eq_iff _ _).mp hv).trans (Nat.mod_eq_of_lt v.isLt).symm)

/-- Settles O1: every function is one write of rd, of the word that the function's lemma above gives. -/
theorem aluFunctionsWriteTheirResults : Obligations.AluFunctionsWriteTheirResults := by
  unfold Obligations.AluFunctionsWriteTheirResults
  intro s d rd ra rb a b A B n c p hp hi
  have ha : a < 2 ^ 64 := greg_lt s d ra
  have hb : b < 2 ^ 64 := greg_lt s d rb
  suffices h : ∃ f : State → Nat, exec p.1 s = .next (s.engRd d p.1 rd f) ∧ BitVec.ofNat 64 (f s) = p.2 by
    obtain ⟨f, hexec, hf⟩ := h
    exact ⟨_, hexec, engRd_word hi hf⟩
  simp only [List.mem_cons, List.not_mem_nil, or_false] at hp
  rcases hp with rfl | rfl | rfl | rfl | rfl | rfl | rfl | rfl | rfl | rfl | rfl | rfl | rfl | rfl | rfl | rfl | rfl | rfl | rfl | rfl
  · exact ⟨_, rfl, BitVec.ofNat_add a b⟩
  · exact ⟨_, rfl, aluSub_eq a b⟩
  · exact ⟨_, rfl, BitVec.ofNat_and⟩
  · exact ⟨_, rfl, BitVec.ofNat_or⟩
  · exact ⟨_, rfl, BitVec.ofNat_xor⟩
  · exact ⟨_, rfl, andn_eq a b hb⟩
  · exact ⟨_, rfl, aluSll_eq a b⟩
  · exact ⟨_, rfl, aluSrl_eq a b ha⟩
  · exact ⟨_, rfl, aluSra_eq a b⟩
  · exact ⟨_, rfl, aluRol_eq a b ha⟩
  · exact ⟨_, rfl, aluRor_eq a b ha⟩
  · exact ⟨_, rfl, BitVec.ofNat_mul a b⟩
  · exact ⟨_, rfl, rfl⟩
  · exact ⟨_, rfl, aluMin_eq a b⟩
  · exact ⟨_, rfl, aluMax_eq a b⟩
  · exact ⟨_, rfl, minu_eq a b ha hb⟩
  · exact ⟨_, rfl, maxu_eq a b ha hb⟩
  · exact ⟨_, rfl, add32_eq a b⟩
  · exact ⟨_, rfl, sub32_eq a b⟩
  · exact ⟨_, rfl, congrArg _ (aluCsum_eq a b)⟩

end Sys2Proof.Machine

namespace Sys2Proof.Machine

/-! ### Counts of bits and byte swaps (R304) -/

theorem aluClz_spec (n a : Nat) (ha : a < 2 ^ n) :
    aluClz n a ≤ n ∧ a < 2 ^ (n - aluClz n a) ∧ (aluClz n a < n → 2 ^ (n - 1 - aluClz n a) ≤ a) := by
  induction n with
  | zero => exact ⟨le_rfl, ha, fun h => absurd h (Nat.lt_irrefl 0)⟩
  | succ n ih =>
    unfold aluClz
    by_cases hn : a.testBit n = true
    · rw [if_pos hn]
      exact ⟨Nat.zero_le _, ha, fun _ => Nat.ge_two_pow_of_testBit hn⟩
    · have hlt : a < 2 ^ n := Nat.lt_pow_two_of_testBit a fun j hj => by
        rcases Nat.eq_or_lt_of_le hj with rfl | hj
        · simpa using hn
        · exact Nat.testBit_lt_two_pow (ha.trans_le (Nat.pow_le_pow_right (by decide) hj))
      obtain ⟨h1, h2, h3⟩ := ih hlt
      rw [if_neg hn, show n + 1 - (1 + aluClz n a) = n - aluClz n a by omega,
        show n + 1 - 1 - (1 + aluClz n a) = n - 1 - aluClz n a by omega]
      exact ⟨by omega, h2, fun h => h3 (by omega)⟩

theorem aluCtz_spec (n a : Nat) :
    aluCtz n a ≤ n ∧ a % 2 ^ aluCtz n a = 0 ∧ (aluCtz n a < n → a.testBit (aluCtz n a) = true) := by
  induction n generalizing a with
  | zero => exact ⟨le_rfl, Nat.mod_one a, fun h => absurd h (Nat.lt_irrefl 0)⟩
  | succ n ih =>
    unfold aluCtz
    by_cases hodd : a % 2 = 1
    · rw [if_pos hodd]
      exact ⟨Nat.zero_le _, Nat.mod_one a, fun _ => by simp [Nat.testBit_zero, hodd]⟩
    · obtain ⟨h1, h2, h3⟩ := ih (a / 2)
      have heven : a = 2 * (a / 2) := by omega
      rw [if_neg hodd, Nat.add_comm 1, Nat.testBit_succ]
      refine ⟨by omega, ?_, fun h => h3 (by omega)⟩
      rw [Nat.pow_succ', heven, Nat.mul_mod_mul_left, Nat.mul_div_cancel_left _ (by decide), h2]

theorem popCount_eq_countP (n a : Nat) : popCount n a = (List.range n).countP (fun i => a.testBit i) := by
  induction n generalizing a with
  | zero => rfl
  | succ n ih =>
    have hshift : (fun i => a.testBit i) ∘ Nat.succ = fun i => (a / 2).testBit i := funext fun i => Nat.testBit_succ ..
    rw [popCount, ih, List.range_succ_eq_map, List.countP_cons, List.countP_map, hshift, Nat.add_comm, Nat.testBit_zero]
    rcases Nat.mod_two_eq_zero_or_one a with h | h <;> simp [h]

theorem byteSwap_spec (n a : Nat) :
    byteSwap n a < 256 ^ n ∧ ∀ k < n, byteSwap n a / 256 ^ k % 256 = a / 256 ^ (n - 1 - k) % 256 := by
  induction n generalizing a with
  | zero => exact ⟨Nat.one_pos, fun k hk => absurd hk (Nat.not_lt_zero k)⟩
  | succ n ih =>
    obtain ⟨hlt, hk⟩ := ih (a / 256)
    have ha : a % 256 < 256 := Nat.mod_lt _ (by decide)
    have hpos : 0 < 256 ^ n := by positivity
    refine ⟨?_, fun k hkn => ?_⟩
    · have := Nat.mul_le_mul_right (256 ^ n) (Nat.succ_le_of_lt ha)
      rw [byteSwap, Nat.pow_succ']
      rw [Nat.succ_mul] at this
      omega
    · rw [byteSwap]
      rcases Nat.lt_or_ge k n with hkn' | hge
      · obtain ⟨m, rfl⟩ : ∃ m, n = k + (m + 1) := ⟨n - k - 1, by omega⟩
        have hhigh : a % 256 * 256 ^ (k + (m + 1)) = a % 256 * 256 ^ m * 256 * 256 ^ k := by ring
        rw [hhigh, Nat.add_comm, Nat.add_mul_div_right _ _ (by positivity), Nat.add_mul_mod_self_right, hk k hkn',
          Nat.div_div_eq_div_mul, ← Nat.pow_succ']
        congr 3
        omega
      · obtain rfl : k = n := by omega
        rw [Nat.add_comm, Nat.add_mul_div_right _ _ hpos, Nat.div_eq_of_lt hlt]
        simp

/-- Settles O2: each count and byte swap is one write of rd with the value its lemma above gives. -/
theorem aluCountsAndByteSwaps : Obligations.AluCountsAndByteSwaps := by
  unfold Obligations.AluCountsAndByteSwaps
  intro s d rd ra a
  have ha : a < 2 ^ 64 := greg_lt s d ra
  refine ⟨fun hi => ⟨_, _, rfl, engRd_retires hi rfl, aluClz_spec 64 a ha⟩, fun hi => ⟨_, _, rfl, engRd_retires hi rfl, aluCtz_spec 64 a⟩,
    fun hi => ⟨_, rfl, popCount_eq_countP 64 a ▸ engRd_retires hi rfl⟩, fun p hp hi => ?_⟩
  simp only [List.mem_cons, List.not_mem_nil, or_false] at hp
  rcases hp with rfl | rfl | rfl
  · exact ⟨_, _, rfl, engRd_retires hi rfl, byteSwap_spec 8 a⟩
  · exact ⟨_, _, rfl, engRd_retires hi rfl, byteSwap_spec 4 a⟩
  · exact ⟨_, _, rfl, engRd_retires hi rfl, byteSwap_spec 2 a⟩

end Sys2Proof.Machine

namespace Sys2Proof.Machine

/-! ### Immediates and bit fields (R302, R303) -/

theorem ofNat_sext {w : Nat} (hw : 0 < w) (imm : BitVec w) : BitVec.ofNat 64 (sext w imm.toNat) = imm.signExtend 64 := by
  have h := sext_eq_signExtend hw imm.toNat
  rw [BitVec.ofNat_toNat, BitVec.setWidth_eq] at h
  exact ofNat_of_eq_toNat h

/-- Bit `i` of a number with the `n` bits from `pos` replaced. -/
theorem testBit_insertBits (a v pos n i : Nat) :
    (insertBits a v pos n).testBit i = if pos ≤ i ∧ i < pos + n then v.testBit (i - pos) else a.testBit i := by
  have ha : a = 2 ^ pos * (2 ^ n * (a / 2 ^ (pos + n)) + a / 2 ^ pos % 2 ^ n) + a % 2 ^ pos := by
    rw [Nat.pow_add, ← Nat.div_div_eq_div_mul, Nat.div_add_mod, Nat.div_add_mod]
  have hins : insertBits a v pos n = 2 ^ pos * (2 ^ n * (a / 2 ^ (pos + n)) + v % 2 ^ n) + a % 2 ^ pos := by
    unfold insertBits
    rw [Nat.mul_add] at ha ⊢
    rw [Nat.mul_comm _ (2 ^ pos), Nat.mul_comm _ (2 ^ pos)]
    omega
  have hlow : a % 2 ^ pos < 2 ^ pos := Nat.mod_lt _ (by positivity)
  have hmid : v % 2 ^ n < 2 ^ n := Nat.mod_lt _ (by positivity)
  rw [hins, Nat.testBit_two_pow_mul_add _ hlow, Nat.testBit_two_pow_mul_add _ hmid]
  rcases Nat.lt_or_ge i pos with h1 | h1
  · rw [if_pos h1, if_neg (by omega), Nat.testBit_mod_two_pow]
    simp [h1]
  · rw [if_neg (by omega)]
    rcases Nat.lt_or_ge i (pos + n) with h2 | h2
    · rw [if_pos (by omega), if_pos ⟨h1, h2⟩, Nat.testBit_mod_two_pow]
      simp only [show i - pos < n by omega, decide_true, Bool.true_and]
    · rw [if_neg (by omega), if_neg (by omega), Nat.testBit_div_two_pow]
      congr 1
      omega

/-- Replacing a field of a word by masks. -/
theorem ofNat_insertBits (a v pos n : Nat) :
    BitVec.ofNat 64 (insertBits a v pos n) = (BitVec.ofNat 64 a &&& ~~~(BitVec.ofNat 64 (2 ^ n - 1) <<< pos))
      ||| ((BitVec.ofNat 64 v &&& BitVec.ofNat 64 (2 ^ n - 1)) <<< pos) := by
  apply BitVec.eq_of_getLsbD_eq
  intro i hi
  simp only [BitVec.getLsbD_ofNat, BitVec.getLsbD_or, BitVec.getLsbD_and, BitVec.getLsbD_not, BitVec.getLsbD_shiftLeft,
    testBit_insertBits, Nat.testBit_two_pow_sub_one, hi, decide_true, Bool.true_and]
  rcases Nat.lt_or_ge i pos with h1 | h1
  · simp [h1, Nat.not_le.mpr h1]
  · rcases Nat.lt_or_ge i (pos + n) with h2 | h2
    · simp [h1, h2, Nat.not_lt.mpr h1, show i - pos < 64 by omega, show i - pos < n by omega]
    · simp [h1, Nat.not_lt.mpr h2, Nat.not_lt.mpr h1, show ¬ i - pos < n by omega]

/-- MOVK: a 16-bit field of a word replaced by an immediate. -/
theorem ofNat_insertBits_imm (a pos : Nat) (x : BitVec 16) :
    BitVec.ofNat 64 (insertBits a x.toNat pos 16) = (BitVec.ofNat 64 a &&& ~~~((0xFFFF : BitVec 64) <<< pos)) ||| (x.setWidth 64 <<< pos) := by
  have hx : BitVec.ofNat 64 x.toNat &&& BitVec.ofNat 64 (2 ^ 16 - 1) = x.setWidth 64 := by
    rw [← BitVec.ofNat_and, Nat.and_two_pow_sub_one_eq_mod, Nat.mod_eq_of_lt x.isLt, BitVec.ofNat_toNat]
  rw [ofNat_insertBits, hx]
  rfl

/-- Settles O3: an immediate enters as the word it is extended to. -/
theorem immediateInstructionsWriteTheirResults : Obligations.ImmediateInstructionsWriteTheirResults := by
  unfold Obligations.ImmediateInstructionsWriteTheirResults
  intro s d rd ra imm x sx amt A D put p hp hi
  have ha : s.greg d ra < 2 ^ 64 := greg_lt s d ra
  have hamt : amt.toNat % 64 = amt.toNat := Nat.mod_eq_of_lt amt.isLt
  suffices h : ∃ f : State → Nat, exec p.1 s = .next (s.engRd d p.1 rd f) ∧ BitVec.ofNat 64 (f s) = p.2 by
    obtain ⟨f, hexec, hf⟩ := h
    exact ⟨_, hexec, engRd_word hi hf⟩
  simp only [List.mem_cons, List.not_mem_nil, or_false] at hp
  rcases hp with rfl | rfl | rfl | rfl | rfl | rfl | rfl | rfl | rfl | rfl | rfl | rfl
  · exact ⟨_, rfl, by rw [BitVec.ofNat_add, ofNat_sext (by decide)]⟩
  · exact ⟨_, rfl, by rw [BitVec.ofNat_and, BitVec.ofNat_toNat]⟩
  · exact ⟨_, rfl, by rw [BitVec.ofNat_or, BitVec.ofNat_toNat]⟩
  · exact ⟨_, rfl, by rw [BitVec.ofNat_xor, BitVec.ofNat_toNat]⟩
  · exact ⟨fun s => aluSll (s.greg d ra) amt.toNat, rfl, by rw [aluSll_eq, hamt]⟩
  · exact ⟨fun s => aluSrl (s.greg d ra) amt.toNat, rfl, by rw [aluSrl_eq _ _ ha, hamt]⟩
  · exact ⟨fun s => aluSra (s.greg d ra) amt.toNat, rfl, by rw [aluSra_eq, hamt]⟩
  · exact ⟨fun s => aluRol (s.greg d ra) amt.toNat, rfl, by rw [aluRol_eq _ _ ha, hamt]⟩
  · refine ⟨_, rfl, ?_⟩
    cases sx
    · exact BitVec.ofNat_toNat ..
    · exact ofNat_sext (by decide) x
  · exact ⟨_, rfl, ofNat_insertBits_imm _ 16 x⟩
  · exact ⟨_, rfl, ofNat_insertBits_imm _ 32 x⟩
  · exact ⟨_, rfl, ofNat_insertBits_imm _ 48 x⟩

theorem extract_eq (a pos len : Nat) (ha : a < 2 ^ 64) :
    BitVec.ofNat 64 (extract a pos len) = (BitVec.ofNat 64 a >>> pos) &&& BitVec.ofNat 64 (2 ^ (len + 1) - 1) := by
  have hshift : BitVec.ofNat 64 a >>> pos = BitVec.ofNat 64 (a / 2 ^ pos) := by
    apply BitVec.eq_of_toNat_eq
    rw [BitVec.toNat_ushiftRight, BitVec.toNat_ofNat, BitVec.toNat_ofNat, Nat.mod_eq_of_lt ha, Nat.shiftRight_eq_div_pow,
      Nat.mod_eq_of_lt ((Nat.div_le_self ..).trans_lt ha)]
  rw [hshift, ← BitVec.ofNat_and, Nat.and_two_pow_sub_one_eq_mod]
  rfl

theorem extractS_eq (a pos len : Nat) (hlen : len ≤ 63) (ha : a < 2 ^ 64) :
    BitVec.ofNat 64 (extractS a pos len) = ((BitVec.ofNat 64 a >>> pos) <<< (63 - len)).sshiftRight (63 - len) := by
  rw [extractS, ofNat_of_eq_toNat (sext_eq_signExtend (w := len + 1) (Nat.succ_pos len) _)]
  apply BitVec.eq_of_getLsbD_eq
  intro i hi
  have hbit (k : Nat) (hk : k ≤ len) :
      (BitVec.ofNat (len + 1) (extract a pos len)).getLsbD k = (BitVec.ofNat 64 a >>> pos).getLsbD k := by
    have htop : pos + k < 64 ∨ a.testBit (pos + k) = false := (Nat.lt_or_ge (pos + k) 64).imp_right fun h =>
      Nat.testBit_lt_two_pow (ha.trans_le (Nat.pow_le_pow_right (by decide) h))
    rw [BitVec.getLsbD_ofNat, extract, Nat.testBit_mod_two_pow, Nat.testBit_div_two_pow, BitVec.getLsbD_ushiftRight,
      BitVec.getLsbD_ofNat, Nat.add_comm k pos]
    rcases htop with h | h <;> simp [h, Nat.lt_succ_of_le hk]
  rw [BitVec.getLsbD_signExtend, BitVec.getLsbD_sshiftRight, BitVec.msb_eq_getLsbD_last, BitVec.msb_eq_getLsbD_last,
    Nat.add_sub_cancel, hbit len le_rfl]
  simp only [BitVec.getLsbD_shiftLeft, hi, decide_true, Bool.true_and, Nat.not_le.mpr hi, decide_false, Bool.not_false]
  rcases Nat.lt_or_ge len i with h | h
  · rw [if_neg (by omega), if_neg (by omega), show 64 - 1 - (63 - len) = len by omega]
    simp
  · rw [if_pos (by omega), if_pos (by omega), hbit i h, show 63 - len + i - (63 - len) = i by omega]
    simp [show 63 - len + i < 64 by omega]

section Fields
variable {s : State} {d : Iss} {i : Instr} {rd : GReg} {ps ls f : State → Nat} (h : issues s d i)
include h

/-- A bit-field instruction whose field lies within the register. -/
theorem engField_word {v : BitVec 64} (hfit : ps s + ls s ≤ 63) (hv : BitVec.ofNat 64 (f s) = v) :
    retired (s.gput d rd v.toNat) (s.engField d i rd ps ls f) d (nextPc s d) := by
  have hmod := ((ofNat_eq_iff _ _).mp hv).trans (Nat.mod_eq_of_lt v.isLt).symm
  exact gput_congr (d := d) (rd := rd) hmod ▸ eng_gput h (if_neg (Nat.not_lt.mpr hfit))

theorem engField_faults (hout : 63 < ps s + ls s) : s.engField d i rd ps ls f = s.faulted d 1 0 :=
  eng_fault h (if_pos hout)

end Fields

/-- Settles O6: the four are one instruction of the model, `engField`, with their position, length and result. -/
theorem bitFieldsAreExtractedAndInserted : Obligations.BitFieldsAreExtractedAndInserted := by
  unfold Obligations.BitFieldsAreExtractedAndInserted
  intro s d rd ra rb pos len sgn A D b ones field fieldS p hp hi
  have ha : s.greg d ra < 2 ^ 64 := greg_lt s d ra
  suffices h : ∃ ps ls f : State → Nat, exec p.1 s = .next (s.engField d p.1 rd ps ls f) ∧ ps s = p.2.1 ∧ ls s = p.2.2.1
      ∧ (p.2.1 + p.2.2.1 ≤ 63 → BitVec.ofNat 64 (f s) = p.2.2.2) by
    obtain ⟨ps, ls, f, hexec, hps, hls, hf⟩ := h
    rw [hexec, ← hps, ← hls]
    rw [← hps, ← hls] at hf
    exact ⟨fun hfit => ⟨_, rfl, engField_word hi hfit (hf hfit)⟩, fun hout => congrArg _ (engField_faults hi hout)⟩
  simp only [List.mem_cons, List.not_mem_nil, or_false] at hp
  rcases hp with rfl | rfl | rfl | rfl
  · exact ⟨_, _, _, rfl, rfl, rfl, fun _ => extract_eq _ _ _ ha⟩
  · exact ⟨_, _, _, rfl, rfl, rfl, fun hfit => extractS_eq _ _ _ (by omega) ha⟩
  · exact ⟨_, _, _, rfl, rfl, rfl, fun _ => ofNat_insertBits _ _ _ _⟩
  · refine ⟨_, _, _, rfl, rfl, rfl, fun hfit => ?_⟩
    cases sgn
    · exact extract_eq _ _ _ ha
    · exact extractS_eq _ _ _ (by omega) ha

end Sys2Proof.Machine

namespace Sys2Proof.Machine

/-! ### Compares, predicates and branches (R278, R301–R303) -/

/-- Condition CC over two words (R302). -/
def condWord (A B : BitVec 64) (cc : BitVec 3) : Bool :=
  if cc = 0 then A == B else if cc = 1 then A != B else if cc = 2 then A.slt B else if cc = 3 then !A.slt B
  else if cc = 4 then A.ult B else if cc = 5 then !A.ult B else if cc = 6 then (A &&& B) != 0 else (A &&& B) == 0

/-- CB: how a condition combines with the old predicate (R302). -/
def combWord (cb : BitVec 2) (p c : Bool) : Bool := if cb = 0 then c else if cb = 1 then p && c else if cb = 2 then p || c else p && !c

theorem ofNat64_inj {a b : Nat} (ha : a < 2 ^ 64) (hb : b < 2 ^ 64) : BitVec.ofNat 64 a = BitVec.ofNat 64 b ↔ a = b := by
  rw [ofNat_eq_iff, BitVec.toNat_ofNat, Nat.mod_eq_of_lt ha, Nat.mod_eq_of_lt hb]

theorem condCC_eq (cc : BitVec 3) {a b : Nat} (ha : a < 2 ^ 64) (hb : b < 2 ^ 64) :
    condCC cc.toNat a b = condWord (BitVec.ofNat 64 a) (BitVec.ofNat 64 b) cc := by
  have heq := ofNat64_inj ha hb
  have hslt := slt_iff_sx a b
  have hult := ult_iff_lt a b ha hb
  have hand : BitVec.ofNat 64 a &&& BitVec.ofNat 64 b = 0 ↔ a &&& b = 0 := by
    rw [← BitVec.ofNat_and]
    exact ofNat64_inj (Nat.and_lt_two_pow a hb) (by decide)
  have hcc : cc = 0 ∨ cc = 1 ∨ cc = 2 ∨ cc = 3 ∨ cc = 4 ∨ cc = 5 ∨ cc = 6 ∨ cc = 7 := by revert cc; decide
  rw [Bool.eq_iff_iff]
  rcases hcc with rfl | rfl | rfl | rfl | rfl | rfl | rfl | rfl
  · show (a == b) = true ↔ (BitVec.ofNat 64 a == BitVec.ofNat 64 b) = true
    rw [beq_iff_eq, beq_iff_eq, heq]
  · show (a != b) = true ↔ (BitVec.ofNat 64 a != BitVec.ofNat 64 b) = true
    rw [bne_iff_ne, bne_iff_ne, ne_eq, ne_eq, heq]
  · exact decide_eq_true_iff.trans hslt.symm
  · show decide (sx 64 b ≤ sx 64 a) = true ↔ (!(BitVec.ofNat 64 a).slt (BitVec.ofNat 64 b)) = true
    rw [decide_eq_true_iff, Bool.not_eq_true', ← Bool.not_eq_true, hslt, not_lt]
  · exact decide_eq_true_iff.trans hult.symm
  · show decide (b ≤ a) = true ↔ (!(BitVec.ofNat 64 a).ult (BitVec.ofNat 64 b)) = true
    rw [decide_eq_true_iff, Bool.not_eq_true', ← Bool.not_eq_true, hult, not_lt]
  · show decide (a &&& b ≠ 0) = true ↔ ((BitVec.ofNat 64 a &&& BitVec.ofNat 64 b) != 0) = true
    rw [decide_eq_true_iff, bne_iff_ne, ne_eq, ne_eq, hand]
  · show decide (a &&& b = 0) = true ↔ ((BitVec.ofNat 64 a &&& BitVec.ofNat 64 b) == 0) = true
    rw [decide_eq_true_iff, beq_iff_eq, hand]

theorem combine_eq (cb : BitVec 2) (p c : Bool) : combine cb.toNat p c = combWord cb p c := by
  have hcb : cb = 0 ∨ cb = 1 ∨ cb = 2 ∨ cb = 3 := by revert cb; decide
  rcases hcb with rfl | rfl | rfl | rfl <;> rfl

theorem sext_lt {w : Nat} (hw : 0 < w) (n : Nat) : sext w n < 2 ^ 64 := sext_eq_signExtend hw n ▸ BitVec.isLt _

/-- A write of a predicate leaves the index of its thread. -/
theorem nextPc_predPut (u : State) (d : Iss) (p : PReg) (v : Bool) : nextPc (u.predPut d p v) d = nextPc u d := by
  apply nextPc_congr
  unfold State.thrOf State.predPut State.pdSet
  split
  · rfl
  · simp

/-- An instruction whose body writes a predicate last, and then only advances. -/
theorem eng_predPut {s u : State} {d : Iss} {i : Instr} {body : State → State × Ctl} {p : PReg} {v : Bool} (h : issues s d i)
    (hb : body s = (u.predPut d p v, .next)) : retired (u.predPut d p v) (s.eng d i body) d (nextPc u d) :=
  nextPc_predPut u d p v ▸ eng_next h hb

/-- A compare puts the combination of the old predicate and the condition over the two words. -/
theorem compare_eq (s : State) (d : Iss) (pd : PReg) (cb : BitVec 2) (cc : BitVec 3) {a b : Nat} (ha : a < 2 ^ 64) (hb : b < 2 ^ 64) :
    s.compare d pd cb.toNat cc.toNat a b
      = s.predPut d pd (combWord cb (s.pred d pd) (condWord (BitVec.ofNat 64 a) (BitVec.ofNat 64 b) cc)) := by
  rw [State.compare, condCC_eq cc ha hb, combine_eq]

/-- Settles O4: `compare_eq` reads the condition over numbers as one over words. -/
theorem comparesCombineAConditionIntoAPredicate : Obligations.ComparesCombineAConditionIntoAPredicate := by
  unfold Obligations.ComparesCombineAConditionIntoAPredicate
  intro s d pd pa pb ra rb imm cond comb A B p x y
  have ha : s.greg d ra < 2 ^ 64 := greg_lt s d ra
  refine ⟨fun cb cc hi => ⟨_, rfl, eng_predPut hi ?_⟩, fun cb cc hi => ⟨_, rfl, eng_predPut hi ?_⟩, fun q hq hi => ?_⟩
  · rw [compare_eq _ _ _ _ _ ha (greg_lt s d rb)]
    rfl
  · rw [compare_eq _ _ _ _ _ ha (sext_lt (by decide) _), ofNat_sext (by decide)]
    rfl
  · simp only [List.mem_cons, List.not_mem_nil, or_false] at hq
    have hf : predFn q.1.toNat x y = q.2 := by
      rcases hq with rfl | rfl | rfl | rfl | rfl | rfl | rfl | rfl <;> rfl
    exact ⟨_, rfl, hf ▸ eng_predPut hi rfl⟩

theorem branchTo_eq (pc : Nat) (ofs : BitVec 22) : branchTo pc ofs.toNat = (((pc : Int) + ofs.toInt) % 65536).toNat := by
  rw [branchTo, sx_eq_toInt (by decide), BitVec.ofNat_toNat, BitVec.setWidth_eq]

/-- Settles O5: the target of the model is the sum modulo 2^16 (`branchTo_eq`). -/
theorem branchesGoToTheirTarget : Obligations.BranchesGoToTheirTarget := by
  unfold Obligations.BranchesGoToTheirTarget
  intro s d ofs ra target
  have htarget : branchTo (s.thrOf d).pc ofs.toNat = target.toNat := branchTo_eq _ ofs
  refine ⟨fun hi => ⟨_, rfl, ?_⟩, fun hi => ⟨_, rfl, ?_⟩, fun hi => ⟨_, rfl, eng_jump hi rfl⟩⟩
  · exact htarget ▸ eng_jump hi rfl
  · exact htarget ▸ eng_jump hi rfl

/-! ### Registers and predicates read as written (R278) -/

/-- An update of one field of one thread, made or not, changes nothing else of a thread. -/
theorem thrI_thrUpd_field {s : State} {g i : Nat} {f : Thr → Thr} {V : Type} {put : Thr → V → Thr} {get : Thr → V}
    (hput : ∀ x, put x (get x) = x) (hf : ∀ x, f x = put x (get (f x))) (h j : Nat) :
    (s.thrUpd g i f).thrI h j = put (s.thrI h j) (get ((s.thrUpd g i f).thrI h j)) := by
  rw [thrI_thrUpd]
  split
  · exact hf _
  · exact (hput _).symm

/-- An update of one thread changes nothing else of a gallery. -/
theorem galI_thrUpd_thr (s : State) (g i h : Nat) (f : Thr → Thr) :
    (s.thrUpd g i f).galI h = { s.galI h with thr := ((s.thrUpd g i f).galI h).thr } := by
  unfold State.thrUpd
  rw [galI_galUpd]
  split <;> rfl

section Written
variable (s : State) (d : Iss)

theorem gput_cases (r : GReg) (v : Nat) : s.gput d r v = s
    ∨ s.gput d r v = s.thrPut d (fun x => { x with regs := mset (fun _ => 0) x.regs r.toNat (v % 2 ^ 64) }) := by
  unfold State.gput State.rgSet
  split
  · exact .inl rfl
  · exact .inr rfl

theorem predPut_cases (p : PReg) (b : Bool) : s.predPut d p b = s ∨ ∃ f : Nat → Nat,
    s.predPut d p b = s.thrPut d (fun x => { x with preds := f x.preds }) := by
  unfold State.predPut State.pdSet
  split
  · exact .inl rfl
  · exact .inr ⟨fun n => if b then setBit n p.toNat else if bitN n p.toNat then n - 2 ^ p.toNat else n, rfl⟩

theorem thrI_gput (r : GReg) (v h j : Nat) :
    (s.gput d r v).thrI h j = { s.thrI h j with regs := ((s.gput d r v).thrI h j).regs } := by
  rcases gput_cases s d r v with e | e <;> rw [e]
  exact thrI_thrUpd_field (put := fun x l => { x with regs := l }) (fun _ => rfl) (fun _ => rfl) h j

theorem thrI_predPut (p : PReg) (b : Bool) (h j : Nat) :
    (s.predPut d p b).thrI h j = { s.thrI h j with preds := ((s.predPut d p b).thrI h j).preds } := by
  rcases predPut_cases s d p b with e | ⟨f, e⟩ <;> rw [e]
  exact thrI_thrUpd_field (put := fun x n => { x with preds := n }) (fun _ => rfl) (fun _ => rfl) h j

theorem galI_gput (r : GReg) (v h : Nat) : (s.gput d r v).galI h = { s.galI h with thr := ((s.gput d r v).galI h).thr } := by
  rcases gput_cases s d r v with e | e <;> rw [e]
  exact galI_thrUpd_thr ..

theorem galI_predPut (p : PReg) (b : Bool) (h : Nat) :
    (s.predPut d p b).galI h = { s.galI h with thr := ((s.predPut d p b).galI h).thr } := by
  rcases predPut_cases s d p b with e | ⟨f, e⟩ <;> rw [e]
  exact galI_thrUpd_thr ..

end Written

/-- Settles O8: reading after writing is `rg_rgSet` and `pd_pdSet`; a write is an update of one field of one thread, or none. -/
theorem registersReadAsWritten : Obligations.RegistersReadAsWritten := by
  unfold Obligations.RegistersReadAsWritten
  intro s d c r q p o v b
  refine ⟨?_, rfl, rfl, ?_, rfl, rfl, fun h j => ⟨thrI_gput s d r v h j, thrI_predPut s d p b h j⟩,
    fun h => ⟨galI_gput s d r v h, galI_predPut s d p b h⟩, ?_, ?_⟩
  · have hr : r.toNat = 0 ↔ r = 0 := BitVec.toNat_inj (y := 0)
    unfold State.greg State.gput
    simp only [rg_rgSet, Fin.val_inj, BitVec.toNat_inj, ne_eq, hr]
  · have hp : p.toNat = 0 ↔ p = 0 := BitVec.toNat_inj (y := 0)
    unfold State.pred State.predPut
    simp only [pd_pdSet, Fin.val_inj, BitVec.toNat_inj, ne_eq, hp]
  · rcases gput_cases s d r v with e | e
    · rw [e]
    · rw [e]; rfl
  · rcases predPut_cases s d p b with e | ⟨f, e⟩
    · rw [e]
    · rw [e]; rfl

end Sys2Proof.Machine

namespace Sys2Proof.Machine

/-! ### Every engine instruction is issued the same way (R299, R301, R303) -/

/-- What the word of an opcode that spells nothing does: LKP of kind 6 or 7 takes a token (log entry 74), every other faults. -/
def reservedBody (d : Iss) (w : Word) (s : State) : State × Ctl :=
  if bits w.toNat 27 22 = 0x1E ∧ 0x60 ≤ bits w.toNat 6 0 then
    let f := bufFault (s.rg d.c.g.val d.c.ix (bits w.toNat 11 7)) 8
    if f ≠ 0 then (s, .flt f 0)
    else if s.lull then s.requestDone d (BitVec.ofNat 5 (bits w.toNat 21 17)) 2
    else s.requestDone d (BitVec.ofNat 5 (bits w.toNat 21 17)) 3
  else (s, .flt 1 0)

theorem exec_reservedOpcode {d : Iss} {w : Word} (s : State) (h : decodeEngine ⟨d.c, d.ecc, false, AclEnv.clean⟩ w.toNat = none) :
    exec (.reservedOpcode d w) s = .next (s.eng d (.reservedOpcode d w) (reservedBody d w)) := by
  show execReservedOpcode d w s = _
  unfold execReservedOpcode
  rw [h]
  refine congrArg (fun b => Host.Outcome.next (s.eng d (.reservedOpcode d w) b)) (funext fun u => ?_)
  unfold reservedBody
  split <;> rfl

/-- A well-formed engine instruction, but for the four THR_CMD events, issues with its word and acts by a body of its own. -/
theorem exec_eng {i : Instr} {d : Iss} (s : State) (hi : i.iss = some d) (hwf : i.wf = true)
    (hcmd : ∀ ra, i ≠ .thrResume d ra ∧ i ≠ .thrSkip d ra ∧ i ≠ .thrJump d ra ∧ i ≠ .thrRestart d ra) :
    (engWord i).isSome = true ∧ ∃ body, exec i s = .next (s.eng d i body) := by
  cases i with
  | thrResume _ ra =>
    obtain rfl := Option.some.inj hi
    exact absurd rfl (hcmd ra).1
  | thrSkip _ ra =>
    obtain rfl := Option.some.inj hi
    exact absurd rfl (hcmd ra).2.1
  | thrJump _ ra =>
    obtain rfl := Option.some.inj hi
    exact absurd rfl (hcmd ra).2.2.1
  | thrRestart _ ra =>
    obtain rfl := Option.some.inj hi
    exact absurd rfl (hcmd ra).2.2.2
  | reservedOpcode _ w =>
    obtain rfl := Option.some.inj hi
    obtain ⟨hnone, -⟩ := (Bool.and_eq_true ..).mp hwf
    exact ⟨rfl, _, exec_reservedOpcode s (Option.isNone_iff_eq_none.mp hnone)⟩
  | _ => cases hi <;> exact ⟨rfl, _, rfl⟩

section Issue
variable (s : State) (d : Iss) (i : Instr) (body : State → State × Ctl)

theorem eng_cannotIssue (h : s.canIssue d.c.g.val d.c.ix = false) : s.eng d i body = s := by
  unfold State.eng State.issue
  exact if_pos (by rw [h]; rfl)

variable (hgo : s.canIssue d.c.g.val d.c.ix = true)
include hgo

theorem eng_fetchFault (h : (s.galI d.c.g.val).codeLen ≤ (s.thrOf d).pc) : s.eng d i body = s.haltThr d.c.g.val d.c.ix 2 0 := by
  unfold State.eng State.issue
  exact (if_neg (by rw [hgo]; decide)).trans (if_pos h)

variable (hpc : (s.thrOf d).pc < (s.galI d.c.g.val).codeLen)
include hpc

/-- A thread that can issue acts on the word it fetches. -/
theorem eng_fetches : s.eng d i body =
    if mget (fun _ => 0) (s.galI d.c.g.val).code (s.thrOf d).pc ≠ (engWord i).getD 0 then s
    else if s.pd d.c.g.val d.c.ix d.pg.toNat == d.pn then (s.pmc d.c.g.val d.c.ix 0x06).control d.c.g.val d.c.ix .next
    else if d.ecc then s.haltThr d.c.g.val d.c.ix 9 0
    else (body s).1.control d.c.g.val d.c.ix (body s).2 := by
  unfold State.eng State.issue
  exact (if_neg (by rw [hgo]; decide)).trans (if_neg (Nat.not_le.mpr hpc))

variable (hword : engWord i = some (mget (fun _ => 0) (s.galI d.c.g.val).code (s.thrOf d).pc))
include hword

theorem eng_falseGuard (hg : s.pd d.c.g.val d.c.ix d.pg.toNat = d.pn) : retired s (s.eng d i body) d (nextPc s d) := by
  rw [eng_fetches s d i body hgo hpc, hword, Option.getD_some, if_neg (not_not_intro rfl), if_pos (beq_iff_eq.mpr hg)]
  have hnext : nextPc (s.pmcOf d 0x06) d = nextPc s d := nextPc_congr (congrArg Thr.pc (thrI_pmc ..))
  exact hnext ▸ retired_of_pmcOf (control_next (s.pmcOf d 0x06) d)

theorem eng_readError (hg : s.pd d.c.g.val d.c.ix d.pg.toNat ≠ d.pn) (he : d.ecc = true) :
    s.eng d i body = s.haltThr d.c.g.val d.c.ix 9 0 := by
  rw [eng_fetches s d i body hgo hpc, hword, Option.getD_some, if_neg (not_not_intro rfl), if_neg (mt beq_iff_eq.mp hg), if_pos he]

end Issue

/-- A thread that fetches another word does not carry out the instruction. -/
theorem eng_otherWord {s : State} {d : Iss} {i : Instr} {body : State → State × Ctl} (hsome : (engWord i).isSome = true)
    (hpc : (s.thrOf d).pc < (s.galI d.c.g.val).codeLen)
    (h : engWord i ≠ some (mget (fun _ => 0) (s.galI d.c.g.val).code (s.thrOf d).pc)) : s.eng d i body = s := by
  cases hgo : s.canIssue d.c.g.val d.c.ix with
  | false => exact eng_cannotIssue s d i body hgo
  | true =>
    obtain ⟨w, hw⟩ := Option.isSome_iff_exists.mp hsome
    rw [eng_fetches s d i body hgo hpc]
    refine if_pos fun heq => h ?_
    rw [hw, heq, hw]
    rfl

/-- Settles O7: every instruction is the issue of a body (`exec_eng`), and the issue decides the guard before the body runs. -/
theorem falseGuardsOnlyAdvance : Obligations.FalseGuardsOnlyAdvance := by
  unfold Obligations.FalseGuardsOnlyAdvance
  intro s i d hi hwf hcmd
  obtain ⟨hsome, body, hexec⟩ := exec_eng s hi hwf hcmd
  rw [hexec]
  exact ⟨fun hgo hpc hword hg => ⟨_, rfl, eng_falseGuard s d i body hgo hpc hword hg⟩,
    fun hno => congrArg _ (eng_cannotIssue s d i body hno), fun hpc hother => congrArg _ (eng_otherWord hsome hpc hother)⟩

end Sys2Proof.Machine

namespace Sys2Proof.Machine

/-! ### Halts and their notifications (R299, R320, R324) -/

/-- `t` is `s` but for registers, the event bookkeeping and the output, which counting and raising change. -/
def raisedFrom (s t : State) : Prop := ∃ r e o, t = { s with regs := r, ev := e, out := o }

theorem raisedFrom.refl (s : State) : raisedFrom s s := ⟨s.regs, s.ev, s.out, rfl⟩

theorem raisedFrom.trans {s u t : State} (h : raisedFrom s u) (h' : raisedFrom u t) : raisedFrom s t := by
  obtain ⟨_, _, _, rfl⟩ := h
  obtain ⟨r, e, o, rfl⟩ := h'
  exact ⟨r, e, o, rfl⟩

theorem raisedFrom_galCnt (s : State) (g off n : Nat) : raisedFrom s (s.galCnt g off n) := by
  obtain ⟨m, h⟩ := wr64_form s _ _
  exact ⟨m, s.ev, s.out, h⟩

theorem raisedFrom_galEvt (s : State) (g : Nat) (f : Fld) : raisedFrom s (s.galEvt g f) := by
  unfold State.galEvt State.setEvt
  dsimp only
  split
  · obtain ⟨r, e, o, h⟩ := raise_form (s.wr (f.at g) 1) (eg 10 g)
    exact ⟨r, e, o, h⟩
  · exact ⟨_, s.ev, s.out, rfl⟩

/-- A halt and its notification, before it is counted (R320, R324). -/
def State.haltNoted (s : State) (g i cause code : Nat) : State :=
  (s.thrUpd g i (fun x => { x with run := .haltF, haltAt := s.tb.up, leashed := [], step := false })).note g
    (noteWord cause i code (s.thrI g i).pc)

theorem haltThr_form (s : State) (g i cause code : Nat) : raisedFrom (s.haltNoted g i cause code) (s.haltThr g i cause code) := by
  unfold State.haltThr
  dsimp only
  show raisedFrom (s.haltNoted g i cause code) (if i = 0
    then (if cause = 12 then s.haltNoted g i cause code else (s.haltNoted g i cause code).galCnt g 0x28).galEvt g F.GAL_EVT_SUPER_FAULT
    else if cause = 12 then s.haltNoted g i cause code else (s.haltNoted g i cause code).galCnt g 0x28)
  generalize s.haltNoted g i cause code = u
  have hcnt : raisedFrom u (if cause = 12 then u else u.galCnt g 0x28) := by
    split
    · exact .refl u
    · exact raisedFrom_galCnt ..
  split
  · exact hcnt.trans (raisedFrom_galEvt ..)
  · exact hcnt

theorem raisedFrom.galI {s t : State} (h : raisedFrom s t) (g : Nat) : t.galI g = s.galI g := by
  obtain ⟨_, _, _, rfl⟩ := h
  rfl

theorem raisedFrom.thrI {s t : State} (h : raisedFrom s t) (g i : Nat) : t.thrI g i = s.thrI g i := by
  obtain ⟨_, _, _, rfl⟩ := h
  rfl

/-- A notification joins the queue, which holds 512, and posts SYNTH to thread 0 (R320). -/
theorem galI_note (s : State) (g w h : Nat) : (s.note g w).galI h
    = { s.galI h with thr := ((s.note g w).galI h).thr, notes := ((s.note g w).galI h).notes } := by
  unfold State.note
  rw [galI_thrUpd_thr, galI_galUpd]
  split <;> rfl

theorem notes_note (s : State) (g w : Nat) : ((s.note g w).galI g).notes = ((s.galI g).notes ++ [w]).take 512 := by
  unfold State.note
  rw [galI_thrUpd_thr, galI_galUpd, if_pos rfl]

theorem galI_thrUpd_other (s : State) (i : Nat) (f : Thr → Thr) {g h : Nat} (hh : h ≠ g) : (s.thrUpd g i f).galI h = s.galI h := by
  unfold State.thrUpd
  rw [galI_galUpd, if_neg hh]

theorem galI_note_other (s : State) (w : Nat) {g h : Nat} (hh : h ≠ g) : (s.note g w).galI h = s.galI h := by
  unfold State.note
  rw [galI_thrUpd_other _ _ _ hh, galI_galUpd, if_neg hh]

theorem thrI_note (s : State) (g w h j : Nat) :
    (s.note g w).thrI h j = if h = g ∧ j = 0 then { s.thrI h j with events := (s.thrI h j).events ||| 2 } else s.thrI h j := by
  have hq : ∀ h j, (s.galUpd g (fun x => { x with notes := (x.notes ++ [w]).take 512 })).thrI h j = s.thrI h j := fun h j => by
    unfold State.thrI
    rw [galI_galUpd]
    split <;> rfl
  unfold State.note
  rw [thrI_thrUpd, hq]
  rfl

section HaltNoted
variable (s : State) (g i cause code : Nat)

theorem thrI_haltNoted (h j : Nat) : (s.haltNoted g i cause code).thrI h j =
    (let x := if h = g ∧ j = i then { s.thrI h j with run := .haltF, haltAt := s.tb.up, leashed := [], step := false } else s.thrI h j
    if h = g ∧ j = 0 then { x with events := x.events ||| 2 } else x) := by
  unfold State.haltNoted
  rw [thrI_note, thrI_thrUpd]

theorem galI_haltNoted (h : Nat) : (s.haltNoted g i cause code).galI h = { s.galI h with
    thr := ((s.haltNoted g i cause code).galI h).thr, notes := ((s.haltNoted g i cause code).galI h).notes } := by
  unfold State.haltNoted
  rw [galI_note, galI_thrUpd_thr]

theorem haltNoted_form : ∃ m, s.haltNoted g i cause code = { s with gal := m } := by
  unfold State.haltNoted State.note State.thrUpd State.galUpd
  exact ⟨_, rfl⟩

end HaltNoted

/-- Settles O14: a halt is the update of one thread and its notification; the causes come from the issue of an instruction. -/
theorem faultsHaltTheirThread : Obligations.FaultsHaltTheirThread := by
  unfold Obligations.FaultsHaltTheirThread
  refine ⟨fun s g i cause code => ?_, fun s d i hi hwf hcmd hgo => ?_, fun s d code hi => congrArg _ (eng_fault hi rfl),
    fun s d w hnone hkind hgo hpc hword hg he => ?_⟩
  · have hform := haltThr_form s g i cause code
    refine ⟨?_, fun hi => ?_, fun e j hej => ?_, ?_, fun e => ?_, fun e he => ?_, ?_⟩
    · rw [hform.thrI, thrI_haltNoted]
      simp
    · rw [hform.thrI, thrI_haltNoted]
      simp [Ne.symm hi]
    · rw [hform.thrI, thrI_haltNoted, if_neg fun h => hej ⟨h.1, .inr h.2⟩]
      exact if_neg fun h => hej ⟨h.1, .inl h.2⟩
    · rw [hform.galI]
      unfold State.haltNoted
      rw [notes_note, galI_thrUpd_thr]
    · rw [hform.galI]
      exact galI_haltNoted ..
    · rw [hform.galI]
      unfold State.haltNoted
      rw [galI_note_other _ _ he, galI_thrUpd_other _ _ _ he]
    · obtain ⟨r, e, o, h⟩ := hform
      obtain ⟨m, hm⟩ := haltNoted_form s g i cause code
      rw [h, hm]
  · obtain ⟨-, body, hexec⟩ := exec_eng s hi hwf hcmd
    rw [hexec]
    exact ⟨fun hpc => congrArg _ (eng_fetchFault s d i body hgo hpc),
      fun hpc hword hg he => congrArg _ (eng_readError s d i body hgo hpc hword hg he)⟩
  · rw [exec_reservedOpcode s hnone]
    have hi : issues s d (.reservedOpcode d w) := ⟨hgo, hpc, congrArg some hword.symm, hg, he⟩
    exact congrArg _ (eng_fault hi (if_neg hkind))

end Sys2Proof.Machine

namespace Sys2Proof.Machine

/-! ### Waits and tests (R286, R287, R296) -/

section Waits
variable {s : State} {d : Iss} {rd : GReg} {n w k : Nat} {q : Req}

theorem nextPc_thrPut {f : Thr → Thr} (hf : ∀ x, (f x).pc = x.pc) : nextPc (s.thrPut d f) d = nextPc s d :=
  nextPc_congr (by rw [thrOf_thrPut, hf])

theorem nextPc_tokSet (t : Option Tok) : nextPc (s.tokSet d.c.g.val d.c.ix n t) d = nextPc s d :=
  nextPc_thrPut (f := fun x => { x with toks := mset (fun _ => none) x.toks n t }) fun _ => rfl

theorem nextPc_thrPut_gput {f : Thr → Thr} (hf : ∀ x, (f x).pc = x.pc) (v : Nat) :
    nextPc ((s.thrPut d f).gput d rd v) d = nextPc s d := by
  rw [nextPc_gput, nextPc_thrPut hf]

/-- An instruction whose body updates its thread, writes a G register last, and then only advances. -/
theorem eng_thrPut_gput {i : Instr} {body : State → State × Ctl} {f : Thr → Thr} {v : Nat} (h : issues s d i)
    (hf : ∀ x, (f x).pc = x.pc) (hb : body s = ((s.thrPut d f).gput d rd v, .next)) :
    retired ((s.thrPut d f).gput d rd v) (s.eng d i body) d (nextPc s d) :=
  nextPc_thrPut_gput hf v ▸ eng_next h hb

/-- Taking a complete token returns its status word and frees it. -/
theorem tokTake_done (h : (s.thrOf d).tok n = some ⟨q, k, some w⟩) :
    s.tokTake d rd n = ((s.tokSet d.c.g.val d.c.ix n none).gput d rd w, .next) := by
  unfold State.tokTake
  rw [h]

theorem tokTake_outstanding (h : (s.thrOf d).tok n = some ⟨q, k, none⟩) : s.tokTake d rd n = (s, .stall (.tok (2 ^ n))) := by
  unfold State.tokTake
  rw [h]

/-- The retirement of a WAIT that takes a complete token. -/
theorem eng_taken {i : Instr} {body : State → State × Ctl} (h : issues s d i)
    (hb : body s = ((s.tokSet d.c.g.val d.c.ix n none).gput d rd w, .next)) :
    retired ((s.tokSet d.c.g.val d.c.ix n none).gput d rd w) (s.eng d i body) d (nextPc s d) :=
  eng_thrPut_gput (f := fun x => { x with toks := mset (fun _ => none) x.toks n none }) h (fun _ => rfl) hb

theorem waitTok_named {v : Nat} (hv : v < 16) (h : (s.thrOf d).tok v ≠ none) : s.waitTok d rd v = s.tokTake d rd v := by
  unfold State.waitTok
  refine if_neg ?_
  rintro (h' | h')
  · omega
  · exact h (Option.isNone_iff_eq_none.mp h')

/-- WAIT ANY of a mask that names a free token faults (log entry 80). -/
theorem waitAny_free {m : Nat} (hn : n < 16) (hm : bitN m n = true) (h : (s.thrOf d).tok n = none) :
    s.waitAny d rd m = (s, .flt 11 0) := by
  unfold State.waitAny
  refine if_pos (List.any_eq_true.mpr ⟨n, List.mem_filter.mpr ⟨List.mem_range.mpr hn, hm⟩, ?_⟩)
  rw [h]
  rfl

/-- WAIT ANY of tokens all in use looks for the lowest complete one. -/
theorem waitAny_used {m : Nat} (h : ∀ j < 16, bitN m j = true → (s.thrOf d).tok j ≠ none) :
    s.waitAny d rd m = match ((List.range 16).filter (fun n => bitN m n)).find? (fun n => bitN (s.thrOf d).tokDone n) with
      | some n => s.tokTake d rd n
      | none => (s, .stall (.tok (m % 65536))) := by
  unfold State.waitAny
  refine if_neg fun hany => ?_
  obtain ⟨j, hj, hfree⟩ := List.any_eq_true.mp hany
  obtain ⟨hlt, hbit⟩ := List.mem_filter.mp hj
  exact h j (List.mem_range.mp hlt) hbit (Option.isNone_iff_eq_none.mp hfree)

/-- The first number below a bound with a property, among those a mask names. -/
theorem find_filter_range {m b : Nat} {p : Nat → Bool} (hn : n < b) (hm : bitN m n = true) (hp : p n = true)
    (hmin : ∀ j < n, bitN m j = true → p j = false) : ((List.range b).filter (fun n => bitN m n)).find? p = some n := by
  rw [List.find?_filter, List.find?_range_eq_some]
  refine ⟨by simp [hm, hp], List.mem_range.mpr hn, fun j hj => ?_⟩
  cases hbit : bitN m j with
  | false => simp
  | true => simp [hmin j hj hbit]

theorem waitEv_fired {m : Nat} (h : s.eventsOf d.c.g.val d.c.ix &&& (m % 16) ≠ 0) :
    s.waitEv d rd m = ((s.thrPut d (fun x => { x with events := x.events &&& (15 - (s.eventsOf d.c.g.val d.c.ix &&& (m % 16))) })).gput
      d rd (s.eventsOf d.c.g.val d.c.ix &&& (m % 16)), .next) := if_neg h

end Waits

/-- TEST that frees its token or not leaves the index of its thread. -/
theorem nextPc_testTok (s : State) (d : Iss) (pd : PReg) (v : Nat) (free : Bool) : nextPc (s.testTok d pd v free) d = nextPc s d := by
  unfold State.testTok
  rw [nextPc_predPut]
  split
  · exact nextPc_tokSet none
  · rfl

/-- Settles O20: WAIT takes a complete token (`tokTake_done`) or leaves its instruction stalled (`eng_stall`). -/
theorem waitsReturnStatusesAndEvents : Obligations.WaitsReturnStatusesAndEvents := by
  unfold Obligations.WaitsReturnStatusesAndEvents
  intro s d rd ra pd free g i x v taken
  refine ⟨fun q k w hv ht hi => ⟨_, rfl, ?_⟩, fun q k hv ht hi => ⟨_, rfl, ?_⟩,
    fun n q k w hn hm ht hdone hmin hall hi => ⟨_, rfl, ?_⟩, fun hv hi => ?_,
    fun m hm hbit ht hi => congrArg Host.Outcome.next (eng_fault hi (waitAny_free hm hbit ht)), fun hall hi => ⟨_, rfl, ?_⟩,
    fun hz hi => ⟨_, rfl, ?_⟩, fun hne hi => ⟨_, rfl, ?_⟩, fun hi => ⟨_, rfl, ?_⟩⟩
  · exact eng_taken hi ((waitTok_named hv (by rw [ht]; simp)).trans (tokTake_done ht))
  · exact eng_stall hi ((waitTok_named hv (by rw [ht]; simp)).trans (tokTake_outstanding ht)) rfl
  · refine eng_taken hi ?_
    rw [waitAny_used hall, find_filter_range hn hm hdone hmin]
    exact tokTake_done ht
  · have hb : s.waitTok d rd v = (s, .flt 11 0) := if_pos (hv.imp_right Option.isNone_iff_eq_none.mpr)
    exact congrArg Host.Outcome.next (eng_fault hi hb)
  · refine eng_stall hi (u := s) ?_ rfl
    rw [waitAny_used fun j hj hbit => (hall j hj hbit).1, List.find?_eq_none.mpr]
    intro j hj
    obtain ⟨hlt, hbit⟩ := List.mem_filter.mp hj
    rw [(hall j (List.mem_range.mp hlt) hbit).2]
    decide
  · have hb : s.waitEv d rd v = (s, .stall (.events (v % 16))) := if_pos hz
    exact eng_stall hi hb rfl
  · exact eng_thrPut_gput hi (fun _ => rfl) (waitEv_fired hne)
  · exact nextPc_testTok s d pd v free ▸ eng_next hi rfl

end Sys2Proof.Machine

namespace Sys2Proof.Machine

/-! ### Counters, time and special registers (R294, R295, R298, R323) -/

/-- An instruction that reads a value at an index of TIME. -/
theorem eng_timeRead {s : State} {d : Iss} {rd : GReg} {idx : BitVec 8} {v : Nat} (h : issues s d (.time d rd idx))
    (hv : s.timeRead d idx.toNat = .inl v) :
    ∃ t, exec (.time d rd idx) s = .next t ∧ retired (s.gput d rd v) t d (nextPc s d) :=
  ⟨_, rfl, eng_gput h (by rw [hv])⟩

theorem eng_timeFault {s : State} {d : Iss} {rd : GReg} {idx : BitVec 8} {f : Nat} (h : issues s d (.time d rd idx))
    (hf : s.timeRead d idx.toNat = .inr f) : exec (.time d rd idx) s = .next (s.faulted d f 0) :=
  congrArg Host.Outcome.next (eng_fault h (by rw [hf]))

/-- TIME has no index beyond 4 (R295). -/
theorem timeRead_unlisted (s : State) (d : Iss) {n : Nat} (hn : 5 ≤ n) : s.timeRead d n = .inr 8 := by
  obtain ⟨m, rfl⟩ := Nat.exists_eq_add_of_le' hn
  rfl

/-- Settles O21: CNT by its guards in turn, TIME by its index. -/
theorem countersAndTimeReads : Obligations.CountersAndTimeReads := by
  unfold Obligations.CountersAndTimeReads
  intro s d rd ra rb k add
  refine ⟨fun hi => ⟨fun hlull hk => ⟨_, rfl, ?_⟩, fun hlull hk => congrArg Host.Outcome.next (eng_fault hi ?_),
    fun hlull => ⟨_, rfl, eng_next hi (if_pos hlull)⟩⟩, fun p hp hi => ?_, fun p hp hi => eng_timeRead hi ?_,
    fun hp hi => eng_timeFault hi ?_, fun idx hidx hi => eng_timeFault hi (timeRead_unlisted s d hidx)⟩
  · exact eng_next (u := s.cntAdd k (s.greg d rb)) hi ((if_neg (Bool.eq_false_iff.mp hlull)).trans (if_neg (Nat.not_le.mpr hk)))
  · exact (if_neg (Bool.eq_false_iff.mp hlull)).trans (if_pos hk)
  · simp only [List.mem_cons, List.not_mem_nil, or_false] at hp
    rcases hp with rfl | rfl | rfl | rfl <;> exact eng_timeRead hi rfl
  · show (match s.pktOf d with | some k => Sum.inl (compact k.p.stamp) | none => Sum.inr 7) = _
    rw [hp]
  · show (match s.pktOf d with | some k => Sum.inl (compact k.p.stamp) | none => Sum.inr 7) = _
    rw [hp]

section Special
variable {s u : State} {d : Iss}

/-- An instruction whose body updates its thread, keeping the index, and then only advances. -/
theorem eng_thrPut {i : Instr} {body : State → State × Ctl} {f : Thr → Thr} (h : issues s d i) (hf : ∀ x, (f x).pc = x.pc)
    (hb : body s = (s.thrPut d f, .next)) : retired (s.thrPut d f) (s.eng d i body) d (nextPc s d) :=
  nextPc_thrPut hf ▸ eng_next h hb

/-- An update of a gallery beside its threads leaves their indices. -/
theorem nextPc_galUpd {g : Nat} {f : Gal → Gal} (hf : ∀ y, (f y).thr = y.thr) : nextPc (s.galUpd g f) d = nextPc s d := by
  refine nextPc_congr ?_
  unfold State.thrOf State.thrI
  rw [galI_galUpd]
  split
  · rw [hf]
  · rfl

end Special

/-- An MFS that reads a value. -/
theorem eng_mfs {s u : State} {d : Iss} {i : Instr} {rd : GReg} {idx v : Nat} (h : issues s d i)
    (hv : s.mfsRead d idx = (u, .inl v)) : retired (u.gput d rd v) (s.engMfs d i rd idx) d (nextPc u d) :=
  eng_gput h (by rw [hv])

theorem eng_mfsFault {s : State} {d : Iss} {i : Instr} {rd : GReg} {idx f : Nat} (h : issues s d i)
    (hf : s.mfsRead d idx = (s, .inr f)) : s.engMfs d i rd idx = s.faulted d f 0 :=
  eng_fault h (by rw [hf])

/-- MFS of an index that is neither listed nor the supervisor's (R298). -/
theorem mfsRead_unlisted (s : State) (d : Iss) {n : Nat} (hn : (9 ≤ n ∧ n < 0x10) ∨ 0x20 ≤ n) : s.mfsRead d n = (s, .inr 1) := by
  have h9 : 9 ≤ n := by omega
  have hout : n < 0x10 ∨ 0x20 ≤ n := by omega
  obtain ⟨m, rfl⟩ := Nat.exists_eq_add_of_le' h9
  exact if_pos hout

section Supervisor
variable (s : State) (d : Iss)

/-- MFS of an index of the supervisor's range that is no register (R298). -/
theorem mfsRead_gap (h0 : d.c.ix = 0) {n : Nat} (hn : 0x18 ≤ n ∧ n < 0x20) : s.mfsRead d n = (s, .inr 1) := by
  obtain ⟨hlo, hhi⟩ := hn
  have hsup : ¬(d.c.ix ≠ 0) := not_not_intro h0
  interval_cases n <;> exact if_neg hsup

theorem mfsRead_note (h0 : d.c.ix = 0) : s.mfsRead d 0x10
    = (s.galUpd d.c.g.val (fun y => { y with notes := y.notes.tail }), .inl ((s.galI d.c.g.val).notes.headD 0)) :=
  if_neg (not_not_intro h0)

theorem mfsRead_noteLevel (h0 : d.c.ix = 0) : s.mfsRead d 0x11 = (s, .inl (s.galI d.c.g.val).notes.length) :=
  if_neg (not_not_intro h0)

theorem mfsRead_denied (h0 : d.c.ix ≠ 0) : s.mfsRead d 0x10 = (s, .inr 10) := if_pos h0

/-- MTS of an index of the supervisor's range (R298, R323). -/
theorem mtsWrite_supervisor {n : Nat} (v : Nat) (hn : 0x10 ≤ n ∧ n < 0x20) (h0 : d.c.ix ≠ 0) : s.mtsWrite d n v = (s, .flt 10 0) := by
  unfold State.mtsWrite
  simp only []
  rw [if_neg (by omega), if_neg (by omega), if_neg (by omega), if_pos h0]

theorem mtsWrite_unlisted {n : Nat} (v : Nat) (hn : (9 ≤ n ∧ n < 0x10) ∨ 0x20 ≤ n) : s.mtsWrite d n v = (s, .flt 1 0) := by
  unfold State.mtsWrite
  simp only []
  rw [if_neg (by omega), if_neg (by omega), if_pos (by omega)]

theorem mtsWrite_gap {n : Nat} (v : Nat) (h0 : d.c.ix = 0) (hn : 0x18 ≤ n ∧ n < 0x20) : s.mtsWrite d n v = (s, .flt 1 0) := by
  obtain ⟨hlo, hhi⟩ := hn
  have hsup : ¬(d.c.ix ≠ 0) := not_not_intro h0
  interval_cases n <;> exact if_neg hsup

theorem mtsWrite_readOnly {n : Nat} (v : Nat) (h5 : n ≠ 5) (hn : n ≤ 8) : s.mtsWrite d n v = (s, .flt 10 0) :=
  (if_neg h5).trans (if_pos hn)

theorem mtsWrite_select (v : Nat) (h0 : d.c.ix = 0) : s.mtsWrite d 0x12 v = (s.galUpd d.c.g.val (fun y => { y with
    sel := b2n (v.testBit 16) * 65536 + v / 256 % 32 * 256 + v / 16 % 8 * 16 + v % 8 }), .next) := by
  have hbits (hi lo : Nat) : bits v hi lo = v / 2 ^ lo % 2 ^ (hi + 1 - lo) := by rw [bits, Nat.shiftRight_eq_div_pow]
  have hreg : bits v 12 8 = v / 256 % 32 := hbits 12 8
  have heng : bits v 6 4 = v / 16 % 8 := hbits 6 4
  have hthr : bits v 2 0 = v % 8 := (hbits 2 0).trans (congrArg (· % 8) (Nat.div_one v))
  rw [← hreg, ← heng, ← hthr]
  exact if_neg (not_not_intro h0)

end Supervisor

/-- The indices that are no register: outside the supervisor's range, or in it and read by the supervisor. -/
theorem unlisted_or_gap {n : Nat} {sup : Prop} (hn : (9 ≤ n ∧ n < 0x10) ∨ 0x18 ≤ n) (h : sup ∨ n < 0x10 ∨ 0x20 ≤ n) :
    ((9 ≤ n ∧ n < 0x10) ∨ 0x20 ≤ n) ∨ sup ∧ 0x18 ≤ n ∧ n < 0x20 := by
  by_cases hgap : 0x18 ≤ n ∧ n < 0x20
  · exact .inr ⟨h.resolve_right (by omega), hgap⟩
  · exact .inl (by omega)

/-- Settles O24: MFS and MTS by the range of their index; the supervisor's range by its thread. -/
theorem specialRegistersReadAndWrite : Obligations.SpecialRegistersReadAndWrite := by
  unfold Obligations.SpecialRegistersReadAndWrite
  intro s d rd ra g x y v
  refine ⟨fun p hp hi => ?_, fun hi => ⟨_, rfl, ?_⟩, fun h0 => ⟨fun hi => ⟨_, rfl, ?_⟩, fun hi => ⟨_, rfl, ?_⟩, fun hi => ⟨_, rfl, ?_⟩⟩,
    fun h0 => ⟨fun hi => congrArg Host.Outcome.next (eng_mfsFault hi (mfsRead_denied s d h0)), fun idx hidx hi => ?_⟩, fun idx =>
    ⟨fun hout hsup => ⟨fun hi => congrArg Host.Outcome.next (eng_mfsFault hi ?_),
      fun hi => congrArg Host.Outcome.next (eng_fault hi ?_)⟩,
    fun hlo h5 hi => congrArg Host.Outcome.next (eng_fault hi (mtsWrite_readOnly s d v ?_ hlo))⟩⟩
  · simp only [List.mem_cons, List.not_mem_nil, or_false] at hp
    rcases hp with rfl | rfl | rfl | rfl | rfl | rfl | rfl | rfl | rfl <;> exact ⟨_, rfl, eng_mfs hi rfl⟩
  · exact eng_thrPut hi (fun _ => rfl) rfl
  · exact nextPc_galUpd (f := fun y => { y with notes := y.notes.tail }) (fun _ => rfl) ▸ eng_mfs hi (mfsRead_note s d h0)
  · exact eng_mfs hi (mfsRead_noteLevel s d h0)
  · refine nextPc_galUpd (s := s) (d := d) (g := g) (f := fun z => { z with
        sel := b2n (v.testBit 16) * 65536 + v / 256 % 32 * 256 + v / 16 % 8 * 16 + v % 8 }) (fun _ => rfl) ▸ eng_next hi ?_
    exact mtsWrite_select s d v h0
  · simp only [List.mem_cons, List.not_mem_nil, or_false] at hidx
    refine congrArg Host.Outcome.next (eng_fault hi (mtsWrite_supervisor s d v ?_ h0))
    rcases hidx with rfl | rfl | rfl | rfl | rfl <;> decide
  · rcases unlisted_or_gap hout hsup with hn | ⟨h0, hn⟩
    · exact mfsRead_unlisted s d hn
    · exact mfsRead_gap s d h0 hn
  · rcases unlisted_or_gap hout hsup with hn | ⟨h0, hn⟩
    · exact mtsWrite_unlisted s d v hn
    · exact mtsWrite_gap s d v h0 hn
  · exact fun h => h5 (BitVec.eq_of_toNat_eq h)

end Sys2Proof.Machine

namespace Sys2Proof.Machine

/-! ### Leash, still air and timers (R296, R319, R326) -/

theorem leash_expires {s : State} {g i : Nat} (hh : (s.thrI g i).halted = true) (hr : (s.thrI g i).resv ≠ []) :
    ¬((!(s.thrI g i).halted || (s.thrI g i).resv.isEmpty) = true) := by
  rw [hh, Bool.not_true, Bool.false_or, List.isEmpty_iff]
  exact hr

theorem stillAir_fires {s : State} {g : Nat} (hs : s.saHolds g = true) (hf : (s.galI g).saFired = false) :
    ¬((!s.saHolds g || (s.galI g).saFired) = true) := by
  rw [hs, hf]
  decide

/-- A timer that lies ahead fires when Windrose reaches it (R296). -/
theorem thrTimer_ahead {s : State} {g i : Nat} (ha : (s.thrI g i).armed = true)
    (hd : ((s.thrI g i).timer + 2 ^ 48 - s.ns % 2 ^ 48) % 2 ^ 48 < 2 ^ 47) : s.thrTimer g i =
    (s.advanceTo ((s.ns + ((s.thrI g i).timer + 2 ^ 48 - s.ns % 2 ^ 48) % 2 ^ 48) * tuNs)).thrUpd g i (fun x =>
      { x with armed := false, events := x.events ||| 8 }) := by
  unfold State.thrTimer
  dsimp only
  rw [ha, Bool.not_true, if_neg Bool.false_ne_true, if_pos hd]
  rfl

/-- Settles O26: each event is its update once its guard is passed. -/
theorem threadEventsNotify : Obligations.ThreadEventsNotify := by
  unfold Obligations.ThreadEventsNotify
  intro s c g i x
  exact ⟨fun hh hr => congrArg Host.Outcome.next (if_neg (leash_expires hh hr)),
    fun hs hf => congrArg Host.Outcome.next (if_neg (stillAir_fires hs hf)),
    fun ha hd => congrArg Host.Outcome.next (thrTimer_ahead ha hd)⟩

end Sys2Proof.Machine

namespace Sys2Proof.Machine

/-! ### The end of a thread's work on its packet (R277, R285, R297) -/

/-- Counting performance events leaves the mode. -/
theorem inMode_pmcOf (s : State) (d : Iss) (ev m : Nat) : (s.pmcOf d ev).inMode m = s.inMode m := by
  have hw : (s.pmcOf d ev).rdw 0x60000 = s.rdw 0x60000 := by
    refine rdw_pmc _ _ _ _ _ (ix_lt d.c) ?_
    have hg := d.c.g.isLt
    simp only [Reg.on, R.PMC_VAL]
    omega
  unfold State.inMode State.mode State.rd
  exact congrArg (fun w : Word => bits w.toNat 2 0 == m) hw

section Ends
variable {s : State} {d : Iss}

theorem eng_ends {i : Instr} {body : State → State × Ctl} {u : State} (h : issues s d i) (hb : body s = (u.dispatch d.c.g.val, .done)) :
    s.eng d i body = ((u.dispatch d.c.g.val).saTouch d.c.g.val d.c.ix).retire d.c.g.val d.c.ix := eng_done h hb

/-- The packet of a thread without outstanding tokens goes on. -/
theorem pktEnd_goes {k : GPkt} (out : State → GPkt → State) (hk : s.pktOf d = some k) (hb : (s.thrOf d).tokBusy = 0) :
    s.pktEnd d out = ((out ((s.thrPut d (fun x => { x with pkt := none, toks := [], run := .idle })).pmcOf d 0x11) k).dispatch d.c.g.val,
      .done) := by
  unfold State.pktEnd
  rw [hk]
  exact if_neg (not_not_intro hb)

theorem pktEnd_none (out : State → GPkt → State) (hk : s.pktOf d = none) : s.pktEnd d out = (s, .flt 7 0) := by
  unfold State.pktEnd
  rw [hk]

/-- A thread with outstanding tokens waits for them. -/
theorem pktEnd_waits (out : State → GPkt → State) (hk : s.pktOf d ≠ none) (hb : (s.thrOf d).tokBusy ≠ 0) :
    s.pktEnd d out = (s, .stall .pkt) := by
  obtain ⟨k, hk⟩ := Option.ne_none_iff_exists'.mp hk
  unfold State.pktEnd
  rw [hk]
  exact if_pos hb

end Ends

/-- PUNT with a reason of 16–63, or without a packet, ends the work like SEND and DROP. -/
theorem punt_ends (s : State) (d : Iss) {reason : BitVec 6} (h : s.pktOf d = none ∨ 16 ≤ reason.toNat) :
    ¬((s.pktOf d).isSome = true ∧ reason.toNat < 16) := by
  rintro ⟨hsome, hlt⟩
  rcases h with h | h
  · rw [h] at hsome
    cases hsome
  · omega

theorem punt_reason {n : Nat} (hn : n < 48) : 16 ≤ (BitVec.ofNat 6 (16 + n)).toNat := by
  rw [BitVec.toNat_ofNat, Nat.mod_eq_of_lt (by omega)]
  omega

theorem pktSend_run {u : State} (k : GPkt) (h : u.inMode mLULL = false) : u.pktSend k =
    if k.egr then u.egpUpd k.p.egrPort (fun x => { x with mac := x.mac ++ [k.p] }) else u.toPassage k.p :=
  if_neg (Bool.eq_false_iff.mp h)

theorem pktSend_lull {u : State} (k : GPkt) (h : u.inMode mLULL = true) : u.pktSend k =
    if (isTether k.p.port && u.link k.p.port) = true then u.sendDirect k.p.port k.p.bytes true
    else u.satInc F.MOD_LULL_DROPS_COUNT := if_pos h

/-- Settles O23: the end of a thread's work is `pktEnd`; the performance event it counts leaves the mode, so LULL is decided as before. -/
theorem packetDispositionsEndTheWork : Obligations.PacketDispositionsEndTheWork := by
  unfold Obligations.PacketDispositionsEndTheWork
  intro s d g ends stops
  refine ⟨fun hp hi => congrArg Host.Outcome.next (eng_ends hi (if_neg ?_)), fun k hk hb => ?_, fun hp => ⟨fun hi =>
      congrArg Host.Outcome.next (eng_fault hi (if_pos (Option.isSome_iff_ne_none.mpr hp))), fun reason hr hi =>
      congrArg Host.Outcome.next (eng_fault hi (if_pos ⟨Option.isSome_iff_ne_none.mpr hp, hr⟩))⟩,
    fun hp => ⟨fun hi => congrArg Host.Outcome.next (eng_fault hi (pktEnd_none _ hp)),
      fun hi => congrArg Host.Outcome.next (eng_fault hi (pktEnd_none _ hp)), fun reason hi =>
      congrArg Host.Outcome.next (eng_fault hi ((if_neg (punt_ends s d (.inl hp))).trans (pktEnd_none _ hp)))⟩,
    fun hp hb i hmem hi => ?_⟩
  · rw [hp]
    decide
  · intro idle gone
    have hlull (m : Nat) : idle.inMode m = s.inMode m := inMode_pmcOf ..
    refine ⟨fun hl hi => ?_, fun hl hi => ?_, fun hi => ?_, fun reason hr hi => ?_⟩
    · rw [← pktSend_run k ((hlull mLULL).trans hl)]
      exact congrArg Host.Outcome.next (eng_ends hi (pktEnd_goes _ hk hb))
    · rw [← pktSend_lull k ((hlull mLULL).trans hl)]
      exact congrArg Host.Outcome.next (eng_ends hi (pktEnd_goes _ hk hb))
    · exact congrArg Host.Outcome.next (eng_ends hi (pktEnd_goes _ hk hb))
    · exact congrArg Host.Outcome.next (eng_ends hi ((if_neg (punt_ends s d (.inr hr))).trans (pktEnd_goes _ hk hb)))
  · rcases List.mem_cons.mp hmem with rfl | hmem
    · exact ⟨_, rfl, eng_stall hi (pktEnd_waits _ hp hb) rfl⟩
    rcases List.mem_cons.mp hmem with rfl | hmem
    · exact ⟨_, rfl, eng_stall hi (pktEnd_waits _ hp hb) rfl⟩
    · obtain ⟨n, hn, rfl⟩ := List.mem_map.mp hmem
      exact ⟨_, rfl, eng_stall hi ((if_neg (punt_ends s d (.inr (punt_reason (List.mem_range.mp hn))))).trans
        (pktEnd_waits _ hp hb)) rfl⟩

end Sys2Proof.Machine

namespace Sys2Proof.Machine

/-! ### The data space: bytes of its words (R280, R281) -/

theorem pow256 (n : Nat) : 256 ^ n = 2 ^ (8 * n) := by rw [Nat.pow_mul]

/-- Bit `t` of the `n` bytes of a word from byte `o`. -/
theorem testBit_bytes (w o n t : Nat) : (w / 256 ^ o % 256 ^ n).testBit t = (decide (t < 8 * n) && w.testBit (8 * o + t)) := by
  rw [pow256, pow256, Nat.testBit_mod_two_pow, Nat.testBit_div_two_pow, Nat.add_comm t]

section Word
variable {w v o n : Nat}

/-- The bytes put into a word read back. -/
theorem bytes_put_same (h : o + n ≤ 8) : insertBits w v (8 * o) (8 * n) % 2 ^ 64 / 256 ^ o % 256 ^ n = v % 256 ^ n := by
  apply Nat.eq_of_testBit_eq
  intro t
  rw [testBit_bytes, pow256, Nat.testBit_mod_two_pow, Nat.testBit_mod_two_pow, testBit_insertBits]
  by_cases ht : t < 8 * n
  · rw [if_pos (by omega), Nat.add_sub_cancel_left, decide_eq_true (show 8 * o + t < 64 by omega), Bool.true_and]
  · simp [ht]

/-- A byte outside those put into a word stays. -/
theorem byte_put_other {c : Nat} (hc : c < 8) (h : c < o ∨ o + n ≤ c) :
    insertBits w v (8 * o) (8 * n) % 2 ^ 64 / 256 ^ c % 256 ^ 1 = w / 256 ^ c % 256 ^ 1 := by
  apply Nat.eq_of_testBit_eq
  intro t
  rw [testBit_bytes, testBit_bytes, Nat.testBit_mod_two_pow, testBit_insertBits]
  by_cases ht : t < 8 * 1
  · rw [if_neg (by omega), decide_eq_true (show 8 * c + t < 64 by omega), Bool.true_and]
  · simp [ht]

end Word

/-! ### Loads, stores and atomics (R280–R282, R304) -/

/-- An access without a fault is to a word of the data space and aligned (R280, R281). -/
theorem memFault_zero {i a n : Nat} {atom : Bool} (h : memFault i a n atom = 0) : (∃ r k, memKey i a = some (r, k)) ∧ a % n = 0 := by
  unfold memFault at h
  split at h
  · cases h
  · split at h
    next r k _ hk _ =>
      refine ⟨⟨r, k, hk⟩, ?_⟩
      by_contra hn
      split_ifs at h
    · cases h

section Mem
variable {s : State} {g i a n : Nat} {r : MemKind} {k : Nat}

theorem memRd_eq (h : memKey i a = some (r, k)) : s.memRd g i a n = s.gw g k / 256 ^ (a % 8) % 256 ^ n := by
  unfold State.memRd
  rw [h]

theorem memRd_none (h : memKey i a = none) : s.memRd g i a n = 0 := by
  unfold State.memRd
  rw [h]

/-- A store puts its bytes into the word it is to. -/
theorem memWr_eq (v : Nat) (h : memKey i a = some (r, k)) :
    s.memWr g i a n v = s.gwSet g k (insertBits (s.gw g k) v (8 * (a % 8)) (8 * n)) := by
  unfold State.memWr
  rw [h]
  dsimp only
  rw [pow256, pow256]
  rfl

/-- An access within one word of the data space is to one key. -/
theorem memKey_add (h : memKey i a = some (r, k)) {j : Nat} (hj : a % 8 + j < 8) : memKey i (a + j) = some (r, k) := by
  have hscr : a + j < 0x10000 ↔ a < 0x10000 := by omega
  have hal : a + j < 0x11000 ↔ a < 0x11000 := by omega
  have hgm : 0x100000 ≤ a + j ∧ a + j < 0x300000 ↔ 0x100000 ≤ a ∧ a < 0x300000 := by omega
  have hsh : 0x400000 ≤ a + j ∧ a + j < 0x400200 ↔ 0x400000 ≤ a ∧ a < 0x400200 := by omega
  have hown : 0x401000 ≤ a + j ∧ a + j < 0x401040 ↔ 0x401000 ≤ a ∧ a < 0x401040 := by omega
  have hdiv (b : Nat) (hb : b % 8 = 0) (hle : b ≤ a) : (a + j - b) / 8 = (a - b) / 8 := by omega
  unfold memKey at h ⊢
  simp only [hscr, hal, hgm, hsh, hown]
  split_ifs at h ⊢ with h1 h2 h3 h4 h5
  · rw [show (a + j) / 8 = a / 8 by omega, h]
  · rw [show (0x8000 + 0x1000 * (i % 8) + (a + j - 0x10000)) / 8 = (0x8000 + 0x1000 * (i % 8) + (a - 0x10000)) / 8 by omega, h]
  · rw [hdiv _ rfl h3.1, h]
  · rw [hdiv _ rfl h4.1, h]
  · rw [hdiv _ rfl h5.1, h]

end Mem

/-- A store changes the memories of its gallery only. -/
theorem memWr_form (s : State) (g i a n v : Nat) :
    s.memWr g i a n v = s ∨ ∃ f : SMap Nat → SMap Nat, s.memWr g i a n v = s.galUpd g (fun y => { y with mem := f y.mem }) := by
  cases h : memKey i a with
  | none =>
    left
    unfold State.memWr
    rw [h]
  | some rk =>
    right
    rw [memWr_eq v h]
    exact ⟨fun m => mset (fun _ => 0) m rk.2 _, rfl⟩

/-- A lost store counts, raises its event and notes itself (R328). -/
theorem thrI_writeLost (s : State) (g i a pc h j : Nat) :
    (s.writeLost g i a pc).thrI h j = { s.thrI h j with events := ((s.writeLost g i a pc).thrI h j).events } := by
  have hform : raisedFrom s ((s.galCnt g 0x30).galEvt g F.GAL_EVT_WRITE_LOST) := (raisedFrom_galCnt ..).trans (raisedFrom_galEvt ..)
  unfold State.writeLost
  dsimp only
  split
  · rw [thrI_note, hform.thrI]
    split <;> rfl
  · rw [hform.thrI]

theorem nextPc_writeLost (s : State) (d : Iss) (g i a pc : Nat) : nextPc (s.writeLost g i a pc) d = nextPc s d := by
  refine nextPc_congr ?_
  unfold State.thrOf
  rw [thrI_writeLost]

theorem nextPc_memWr (s : State) (d : Iss) (g i a n v : Nat) : nextPc (s.memWr g i a n v) d = nextPc s d := by
  rcases memWr_form s g i a n v with h | ⟨f, h⟩ <;> rw [h]
  exact nextPc_galUpd (f := fun y => { y with mem := f y.mem }) fun _ => rfl

section Accesses
variable {s : State} {d : Iss} {i : Instr} {body : State → State × Ctl} {r : GReg} {a n : Nat}

theorem dataAddr_eq (s : State) (d : Iss) (ra : GReg) (ofs : BitVec 10) (n : Nat) :
    s.dataAddr d ra ofs n = (((s.greg d ra : Int) + ofs.toInt * n) % 2 ^ 64).toNat := by
  rw [State.dataAddr, sx_eq_toInt (by decide), BitVec.ofNat_toNat, BitVec.setWidth_eq]
  rfl

theorem eng_load (h : issues s d i) (hf : memFault d.c.ix a n false = 0) (hb : body s = s.load d r a n) :
    retired (s.gput d r (s.memRd d.c.g.val d.c.ix a n)) (s.eng d i body) d (nextPc s d) :=
  eng_gput h (hb.trans (if_neg (not_not_intro hf)))

/-- Where a store that is lost was to (R320, R328). -/
def lostWord (i a : Nat) : Nat := match memKey i a with | some (_, k) => k % 8192 * 8 | none => 0

/-- The state after a store without a fault. -/
def State.stored (s : State) (d : Iss) (a n v : Nat) (lost : Bool) : State :=
  if (lost && inScratch a n) = true then s.writeLost d.c.g.val d.c.ix (lostWord d.c.ix a) (s.thrOf d).pc
  else s.memWr d.c.g.val d.c.ix a n v

theorem store_eq (v : Nat) (lost : Bool) (hf : memFault d.c.ix a n false = 0) :
    s.store d a n v lost = (s.stored d a n v lost, .next) := by
  refine (if_neg (not_not_intro hf)).trans ?_
  unfold State.stored
  split
  · unfold lostWord
    cases memKey d.c.ix a <;> rfl
  · rfl

theorem eng_store {v : Nat} {lost : Bool} (h : issues s d i) (hf : memFault d.c.ix a n false = 0) (hb : body s = s.store d a n v lost) :
    retired (s.stored d a n v lost) (s.eng d i body) d (nextPc s d) := by
  have hpc : nextPc (s.stored d a n v lost) d = nextPc s d := by
    unfold State.stored
    split
    · exact nextPc_writeLost ..
    · exact nextPc_memWr ..
  exact hpc ▸ eng_next h (hb.trans (store_eq v lost hf))

/-- An atomic access without a fault. -/
theorem eng_atom {rd ra rb : GReg} {dbl : Bool} {f : Nat → Nat → Nat → Nat} (h : issues s d i)
    (hf : memFault d.c.ix (s.greg d ra) (if dbl then 8 else 4) true = 0) :
    let n := if dbl then 8 else 4
    let old := s.memRd d.c.g.val d.c.ix (s.greg d ra) n
    retired ((s.memWr d.c.g.val d.c.ix (s.greg d ra) n (f old (s.greg d rb % 256 ^ n) (s.greg d rd % 256 ^ n))).gput d rd old)
      (s.engAtom d i rd ra rb dbl f) d (nextPc s d) := by
  intro n old
  rw [← nextPc_memWr s d d.c.g.val d.c.ix (s.greg d ra) n (f old (s.greg d rb % 256 ^ n) (s.greg d rd % 256 ^ n))]
  exact eng_gput h (if_neg (not_not_intro hf))

end Accesses

/-- Settles O9: an access without a fault is its load or store, and none of these moves the thread. -/
theorem loadsAndStoresAccessTheDataSpace : Obligations.LoadsAndStoresAccessTheDataSpace := by
  unfold Obligations.LoadsAndStoresAccessTheDataSpace
  intro s d r ra rb sz ofs lost g i n a x word after
  have ha : s.dataAddr d ra ofs n = a := dataAddr_eq ..
  exact ⟨fun hf => ⟨fun hi => ⟨_, rfl, eng_load hi hf (ha ▸ rfl)⟩, fun hi => ⟨_, rfl, eng_store hi hf (ha ▸ rfl)⟩⟩,
    fun hf => ⟨fun hi => ⟨_, rfl, eng_load hi hf rfl⟩, fun hi => ⟨_, rfl, eng_store hi hf rfl⟩⟩,
    fun hi => ⟨_, rfl, eng_next hi rfl⟩⟩

/-- A byte that no byte of a store covers reads as before. -/
theorem memRd_memWr_other (s : State) (g i a n v h j b : Nat) (hf : memFault i a n false = 0)
    (hn : a % 8 + n ≤ 8)
    (hother : h ≠ g ∨ ∀ k < n, (memKey j b).map (fun k => 8 * k.2 + b % 8) ≠ (memKey i (a + k)).map (fun q => 8 * q.2 + (a + k) % 8)) :
    (s.memWr g i a n v).memRd h j b 1 = s.memRd h j b 1 := by
  obtain ⟨⟨r, k, hk⟩, -⟩ := memFault_zero hf
  cases hb : memKey j b with
  | none => rw [memRd_none hb, memRd_none hb]
  | some q =>
    obtain ⟨r', k'⟩ := q
    rw [memRd_eq hb, memRd_eq hb, memWr_eq v hk, gw_gwSet]
    split
    next hsame =>
      obtain ⟨rfl, rfl⟩ := hsame
      refine byte_put_other (Nat.mod_lt _ (by decide)) ?_
      by_contra hin
      have hlt : b % 8 - a % 8 < n := by omega
      refine (hother.resolve_left (not_not_intro rfl)) _ hlt ?_
      rw [hb, memKey_add hk (by omega)]
      refine congrArg some ?_
      dsimp only
      omega
    · rfl

/-- Settles O10: an access lies within one 8-byte word, whose other bytes stay (`byte_put_other`). -/
theorem storesChangeExactlyTheirBytes : Obligations.StoresChangeExactlyTheirBytes := by
  unfold Obligations.StoresChangeExactlyTheirBytes
  intro s g i a n v hn hf place
  obtain ⟨⟨r, k, hk⟩, halign⟩ := memFault_zero hf
  have hword : a % 8 + n ≤ 8 := by
    rcases hn with rfl | rfl | rfl | rfl <;> omega
  refine ⟨?_, fun h j b hother => memRd_memWr_other s g i a n v h j b hf hword hother, fun h => ?_, ?_⟩
  · rw [memRd_eq hk, memWr_eq v hk, gw_gwSet, if_pos ⟨rfl, rfl⟩]
    exact bytes_put_same hword
  · rcases memWr_form s g i a n v with e | ⟨f, e⟩
    · rw [e]
    · rw [e, galI_galUpd]
      split <;> rfl
  · rcases memWr_form s g i a n v with e | ⟨f, e⟩
    · rw [e]
    · rw [e]; rfl

/-- Settles O11: the eight are one instruction of the model, `engAtom`, with their function of old value, rb and rd. -/
theorem atomicsReturnTheOldValue : Obligations.AtomicsReturnTheOldValue := by
  unfold Obligations.AtomicsReturnTheOldValue
  intro s d rd ra rb dbl g i n a old b p hp hi hf
  simp only [List.mem_cons, List.not_mem_nil, or_false] at hp
  suffices hp' : ∃ f, exec p.1 s = .next (s.engAtom d p.1 rd ra rb dbl f) ∧ f old b (s.greg d rd % 256 ^ n) = p.2 by
    obtain ⟨f, hexec, hf'⟩ := hp'
    exact ⟨_, hexec, hf' ▸ eng_atom hi hf⟩
  rcases hp with rfl | rfl | rfl | rfl | rfl | rfl | rfl | rfl <;> exact ⟨_, rfl, rfl⟩

end Sys2Proof.Machine

namespace Sys2Proof.Machine

/-! ### The header window (R283) -/

theorem byteN_lt (l : Bytes) (i : Nat) : byteN l i < 256 := BitVec.isLt _

theorem beN_lt (l : Bytes) (o n : Nat) : beN l o n < 256 ^ n := by
  induction n with
  | zero => exact Nat.one_pos
  | succ n ih =>
    have hb := byteN_lt l (o + n)
    rw [beN, Nat.pow_succ]
    omega

/-- The bytes of a big-endian number, the first one most significant (R7). -/
theorem beN_byte (l : Bytes) (o : Nat) {n j : Nat} (hj : j < n) : beN l o n / 256 ^ (n - 1 - j) % 256 = byteN l (o + j) := by
  induction n with
  | zero => omega
  | succ n ih =>
    have hb := byteN_lt l (o + n)
    rw [beN]
    rcases Nat.lt_succ_iff_lt_or_eq.mp hj with hlt | rfl
    · have hexp : n + 1 - 1 - j = (n - 1 - j) + 1 := by omega
      have hdrop : (beN l o n * 256 + byteN l (o + n)) / 256 = beN l o n := by omega
      rw [hexp, Nat.pow_succ', ← Nat.div_div_eq_div_mul, hdrop, ih hlt]
    · rw [Nat.add_sub_cancel, Nat.sub_self, Nat.pow_zero, Nat.div_one]
      omega

theorem nextPc_hwWrite (s : State) (d : Iss) (o n v : Nat) : nextPc (s.hwWrite d o n v) d = nextPc s d :=
  nextPc_thrPut (f := fun x => { x with pkt := x.pkt.map (fun k => { k with p := { k.p with bytes := splice k.p.bytes o (beB n v) } }) })
    fun _ => rfl

section Window
variable {s : State} {d : Iss} {k : GPkt} (hk : s.pktOf d = some k)
include hk

theorem hwBytes_eq : s.hwBytes d = k.p.bytes.take k.hwLen := by
  unfold State.hwBytes
  rw [hk]

theorem hwLen_eq : s.hwLen d = k.hwLen := by
  unfold State.hwLen
  rw [hk]

theorem hwWrite_eq (o n v : Nat) : s.hwWrite d o n v = s.thrPut d (fun x => { x with pkt := some { k with p := { k.p with
    bytes := splice k.p.bytes o (beB n v) } } }) := by
  refine thrPut_congr ?_
  have hpkt : (s.thrOf d).pkt = some k := hk
  simp only [hpkt, Option.map_some]

end Window

/-- The signed amount of HWADJ (R283). -/
theorem adjustment_eq (a : Nat) (imm : BitVec 12) :
    sx 64 (a + sext 12 imm.toNat) = (BitVec.ofNat 64 a + imm.signExtend 64).toInt := by
  rw [sx_eq_toInt (by decide), BitVec.ofNat_add, ofNat_sext (by decide)]

section Adjust
variable {s : State} {d : Iss} {k : GPkt} {dl : Int}

theorem mayAdjust_iff : k.mayAdjust dl = true ↔ -(k.hw0 : Int) ≤ k.delta + dl ∧ k.delta + dl ≤ 128 := by
  unfold GPkt.mayAdjust
  simp

/-- What HWADJ does by an amount. -/
def State.hwAdjust (s : State) (d : Iss) (r : GReg) (dl : Int) : State × Ctl :=
  match s.pktOf d with
  | none => if dl = 0 then (s.gput d r 0, .next) else (s, .flt 5 0)
  | some k =>
    if k.mayAdjust dl then ((s.thrPut d (fun x => { x with pkt := some (k.adjust dl) })).gput d r (k.adjust dl).hwLen, .next)
    else (s, .flt 5 0)

theorem exec_hwadj (s : State) (d : Iss) (r ra : GReg) (imm : BitVec 12) : exec (.hwadj d r ra imm) s
    = .next (s.eng d (.hwadj d r ra imm) fun u => u.hwAdjust d r (BitVec.ofNat 64 (u.greg d ra) + imm.signExtend 64).toInt) := by
  refine congrArg (fun b => Host.Outcome.next (s.eng d (.hwadj d r ra imm) b)) (funext fun u => ?_)
  rw [← adjustment_eq]
  rfl

theorem hwAdjust_within (r : GReg) (hk : s.pktOf d = some k) (h : k.mayAdjust dl = true) : s.hwAdjust d r dl
    = ((s.thrPut d (fun x => { x with pkt := some (k.adjust dl) })).gput d r (k.adjust dl).hwLen, .next) := by
  unfold State.hwAdjust
  rw [hk]
  exact if_pos h

theorem hwAdjust_beyond (r : GReg) (hk : s.pktOf d = some k) (h : ¬k.mayAdjust dl = true) : s.hwAdjust d r dl = (s, .flt 5 0) := by
  unfold State.hwAdjust
  rw [hk]
  exact if_neg h

theorem hwAdjust_noPkt (r : GReg) (hk : s.pktOf d = none) :
    s.hwAdjust d r dl = if dl = 0 then (s.gput d r 0, .next) else (s, .flt 5 0) := by
  unfold State.hwAdjust
  rw [hk]

end Adjust

/-- Without a packet the window holds no byte (log entry 76). -/
theorem hwRead_noPkt {s : State} {d : Iss} (h : s.pktOf d = none) (o n : Nat) : s.hwRead d o n = 0 := by
  unfold State.hwRead State.hwBytes
  rw [h]
  induction n with
  | zero => rfl
  | succ n ih =>
    rw [beN, ih]
    rfl

theorem hwLen_noPkt {s : State} {d : Iss} (h : s.pktOf d = none) : s.hwLen d = 0 := by
  unfold State.hwLen
  rw [h]

/-- Settles O12: HWL and HWS by the bytes of a big-endian number, HWADJ by its signed amount (`adjustment_eq`). -/
theorem headerWindowInstructionsActOnThePacket : Obligations.HeaderWindowInstructionsActOnThePacket := by
  unfold Obligations.HeaderWindowInstructionsActOnThePacket
  intro s d r ra sz ofs imm n o dl halt
  refine ⟨fun k hk => ⟨fun hi => ⟨fun hin => ⟨_, s.hwRead d o n, rfl, eng_gput hi (if_neg (Nat.not_lt.mpr hin)), ?_⟩,
      fun hout => congrArg Host.Outcome.next (eng_fault hi (if_pos hout))⟩,
      fun hi => ⟨fun hin => ⟨_, rfl, ?_⟩, fun hout => congrArg Host.Outcome.next (eng_fault hi (if_pos ?_))⟩,
      fun hi => ⟨fun hlo hhi => ⟨_, exec_hwadj .., ?_⟩, fun hout => (exec_hwadj ..).trans (congrArg Host.Outcome.next (eng_fault hi ?_))⟩⟩,
    fun hk => ⟨fun hi hin => ⟨_, rfl, ?_⟩, fun hi => congrArg Host.Outcome.next (eng_fault hi (if_pos (.inr ?_))),
      fun hi => ⟨fun hz => ⟨_, exec_hwadj .., ?_⟩, fun hz => (exec_hwadj ..).trans (congrArg Host.Outcome.next (eng_fault hi ?_))⟩⟩⟩
  · rw [← hwBytes_eq hk]
    exact ⟨beN_lt .., fun j hj => beN_byte _ _ hj⟩
  · rw [← hwWrite_eq hk]
    refine nextPc_hwWrite s d o n (s.greg d r) ▸ eng_next hi (if_neg ?_)
    rw [hwLen_eq hk]
    show ¬(640 < o + n ∨ k.hwLen < o + n)
    omega
  · rw [hwLen_eq hk]
    show 640 < o + n ∨ k.hwLen < o + n
    omega
  · exact eng_thrPut_gput hi (fun _ => rfl) (hwAdjust_within r hk (mayAdjust_iff.mpr ⟨hlo, hhi⟩))
  · refine hwAdjust_beyond r hk ?_
    rw [mayAdjust_iff]
    show ¬(-(k.hw0 : Int) ≤ k.delta + dl ∧ k.delta + dl ≤ 128)
    omega
  · rw [← hwRead_noPkt hk o n]
    exact eng_gput hi (if_neg (Nat.not_lt.mpr hin))
  · exact eng_gput hi ((hwAdjust_noPkt r hk).trans (if_pos hz))
  · exact (hwAdjust_noPkt r hk).trans (if_neg hz)
  · rw [hwLen_noPkt hk]
    show 0 < o + n
    exact Nat.add_pos_right _ (Nat.two_pow_pos _)

end Sys2Proof.Machine

namespace Sys2Proof.Machine

/-! ### Metadata fields (R284) -/

/-- The indices MDL finds no field at, by direction. -/
def mdMissing (egr : Bool) (n : Nat) : Prop :=
  n ∈ [0x1B, 0x1C, 0x1D, 0x1E, 0x1F, 0x24, 0x25, 0x26, 0x27, 0x28, 0x29, 0x2A, 0x2B, 0x2C, 0x2D, 0x2E] ∨ (0x48 ≤ n ∧ n < 0x8D)
    ∨ 0x9B ≤ n ∨ (egr = false ∧ 0x20 ≤ n ∧ n ≤ 0x23)
    ∨ (egr = true ∧ (n ∈ [0x06, 0x07, 0x09, 0x0A] ∨ (0x0C ≤ n ∧ n ≤ 0x1A) ∨ 0x8D ≤ n))

theorem mdRead_eq_none_iff (s : State) (k : GPkt) (n : Nat) : s.mdRead k n = none ↔ mdMissing k.egr n := by
  unfold mdMissing
  simp only [List.mem_cons, List.not_mem_nil, or_false]
  unfold State.mdRead
  dsimp only
  split
  · simp only [reduceCtorEq, false_iff]
    omega
  split
  · cases k.egr <;> simp <;> omega
  split
  · cases k.egr <;> simp <;> omega
  split
  · cases k.egr <;> simp <;> omega
  split
  case h_15 =>
    simp only [imp_false] at *
    cases k.egr <;> simp <;> omega
  all_goals cases k.egr <;> simp

section Fields
variable {s : State} {d : Iss} {k : GPkt} (hk : s.pktOf d = some k)
include hk

theorem eng_mdl {rd : GReg} {x : BitVec 8} {w : Nat} (h : s.mdRead k x.toNat = some w) (hi : issues s d (.mdl d rd x)) :
    ∃ t, exec (.mdl d rd x) s = .next t ∧ retired (s.gput d rd w) t d (nextPc s d) :=
  ⟨_, rfl, eng_gput hi (by rw [hk]; dsimp only; rw [h])⟩

theorem eng_mdlFault {rd : GReg} {x : BitVec 8} (h : s.mdRead k x.toNat = none) (hi : issues s d (.mdl d rd x)) :
    exec (.mdl d rd x) s = .next (s.faulted d 6 0) :=
  congrArg Host.Outcome.next (eng_fault hi (by rw [hk]; dsimp only; rw [h]))

theorem eng_mds {ra : GReg} {x : BitVec 8} {q : GPkt} (h : mdWrite (s.inMode mLULL) k x.toNat (s.greg d ra) = some q)
    (hi : issues s d (.mds d ra x)) :
    ∃ t, exec (.mds d ra x) s = .next t ∧ retired (s.thrPut d (fun y => { y with pkt := some q })) t d (nextPc s d) :=
  ⟨_, rfl, eng_thrPut hi (fun _ => rfl) (by rw [hk]; dsimp only; unfold State.lull; rw [h])⟩

theorem eng_mdsFault {ra : GReg} {x : BitVec 8} (h : mdWrite (s.inMode mLULL) k x.toNat (s.greg d ra) = none)
    (hi : issues s d (.mds d ra x)) : exec (.mds d ra x) s = .next (s.faulted d 6 0) :=
  congrArg Host.Outcome.next (eng_fault hi (by rw [hk]; dsimp only; unfold State.lull; rw [h]))

end Fields

/-- MDL of the words of the parsed headers (R284). -/
theorem mdRead_header (s : State) (k : GPkt) {n : Nat} (hn : n < 24) : s.mdRead k (0x30 + n)
    = some (match k.p.hdrs[n]? with | some h => h.kind % 256 * 65536 + h.off % 1024 | none => 0) := by
  refine (if_pos (by omega)).trans ?_
  rw [Nat.add_sub_cancel_left]
  rfl

theorem mdRead_look (s : State) {k : GPkt} (hk : k.egr = false) {n : Nat} (hn : n < 14) :
    s.mdRead k (0x0D + n) = some (k.p.look.getD n 0) := by
  refine (if_neg (by omega)).trans ((if_pos (by omega)).trans ?_)
  rw [Nat.add_sub_cancel_left, hk]
  rfl

theorem mdRead_look1 (s : State) {k : GPkt} (hk : k.egr = false) {n : Nat} (hn : n < 14) :
    s.mdRead k (0x8D + n) = some (k.p.look1.getD n 0) := by
  refine (if_neg (by omega)).trans ((if_neg (by omega)).trans ((if_pos (by omega)).trans ?_))
  rw [Nat.add_sub_cancel_left, hk]
  rfl

/-- MDL of the user words of an egress packet's adjacency (R284). -/
theorem mdRead_user (s : State) {k : GPkt} (hk : k.egr = true) {n : Nat} (hn : n < 4) : s.mdRead k (0x20 + n)
    = some (s.tw (s.adjAddr k.p.adj + 32 + 8 * n) + s.tw (s.adjAddr k.p.adj + 32 + 8 * n + 4) * 2 ^ 32) := by
  refine (if_neg (by omega)).trans ((if_neg (by omega)).trans ((if_neg (by omega)).trans ((if_pos (by omega)).trans ?_)))
  rw [Nat.add_sub_cancel_left, hk]
  rfl

/-- MDS of a field of neither direction. -/
theorem mdWrite_none {lull : Bool} {k : GPkt} {n : Nat} (v : Nat) (hing : ¬(k.egr = false ∧ n ∈ [0x04, 0x05, 0x06, 0x08, 0x0A]))
    (hport : ¬(lull = true ∧ n = 0x01)) : mdWrite lull k n v = none := by
  unfold mdWrite
  dsimp only
  split
  case h_7 => rfl
  case h_1 => exact if_neg fun h => hport ⟨h, rfl⟩
  all_goals exact if_pos (Bool.eq_true_of_not_eq_false fun h => hing ⟨h, by decide⟩)

/-- The index of a field that is one of several of a kind. -/
theorem toNat_index {a n : Nat} (h : a + n < 256) : (BitVec.ofNat 8 (a + n)).toNat = a + n := by
  rw [BitVec.toNat_ofNat, Nat.mod_eq_of_lt h]

/-- A free value changes no thread. -/
theorem nextPc_draw (s : State) (d : Iss) : nextPc s.draw.2 d = nextPc s d := rfl

/-- Settles O13: the fields by their indices. -/
theorem metadataFieldsReadAndWrite : Obligations.MetadataFieldsReadAndWrite := by
  unfold Obligations.MetadataFieldsReadAndWrite
  intro s d rd ra idx v reads
  refine ⟨fun k hk => ⟨fun e he hi => eng_mdl hk ?_ hi, fun j hi => eng_mdl hk ?_ hi, fun hing => ⟨fun e he hi => eng_mdl hk ?_ hi,
    fun j => ⟨fun hi => eng_mdl hk ?_ hi, fun hi => eng_mdl hk ?_ hi⟩, fun e he hi => eng_mds hk ?_ hi⟩,
    fun hl hi => eng_mds hk (if_pos hl) hi, fun hegr j hi => eng_mdl hk ?_ hi, mdRead_eq_none_iff s k _,
    fun h hi => eng_mdlFault hk h hi, fun hing hport hi => eng_mdsFault hk (mdWrite_none v hing ?_) hi⟩,
    fun hk => ⟨fun hi => ⟨_, rfl, nextPc_draw s d ▸ eng_gput hi ?_⟩, fun hi => ⟨_, rfl, eng_next hi ?_⟩⟩⟩
  · simp only [List.mem_cons, List.not_mem_nil, or_false] at he
    rcases he with rfl | rfl | rfl | rfl | rfl | rfl | rfl | rfl | rfl <;> rfl
  · rw [toNat_index (by omega)]
    exact mdRead_header s k j.isLt
  · simp only [List.mem_cons, List.not_mem_nil, or_false] at he
    rcases he with rfl | rfl | rfl | rfl | rfl <;> exact if_neg (Bool.eq_false_iff.mp hing)
  · rw [toNat_index (by omega)]
    exact mdRead_look s hing j.isLt
  · rw [toNat_index (by omega)]
    exact mdRead_look1 s hing j.isLt
  · simp only [List.mem_cons, List.not_mem_nil, or_false] at he
    rcases he with rfl | rfl | rfl | rfl | rfl <;> exact if_neg (Bool.eq_false_iff.mp hing)
  · rw [toNat_index (by omega)]
    exact mdRead_user s hegr j.isLt
  · exact fun h => hport ⟨h.1, BitVec.eq_of_toNat_eq h.2⟩
  · rw [hk]
  · rw [hk]

end Sys2Proof.Machine

namespace Sys2Proof.Machine

/-! ### Requests and their tokens (R286–R289) -/

theorem freeTok_of_lowestFree {x : Thr} {n : Nat} (h : x.lowestFree n) : x.freeTok = some n := by
  obtain ⟨hlt, hfree, hmin⟩ := h
  unfold Thr.freeTok
  rw [List.find?_range_eq_some]
  refine ⟨by rw [hfree]; rfl, List.mem_range.mpr hlt, fun j hj => ?_⟩
  rw [Bool.not_eq_true', Option.isNone_eq_false_iff, Option.isSome_iff_ne_none]
  exact hmin j hj

theorem freeTok_none {x : Thr} (h : ∀ m < 16, x.tok m ≠ none) : x.freeTok = none := by
  unfold Thr.freeTok
  rw [List.find?_eq_none]
  intro j hj
  rw [Option.isNone_iff_eq_none]
  exact h j (List.mem_range.mp hj)

section Request
variable {s : State} {d : Iss} {i : Instr} {body : State → State × Ctl} {rd : GReg} {n status : Nat} {r : Req}

theorem nextPc_asked : nextPc (s.asked d rd n r) d = nextPc s d :=
  (nextPc_gput _ _ _ _).trans (nextPc_tokSet _)

/-- The token a request takes is outstanding for it. -/
theorem tok_asked : ((s.asked d rd n r).thrOf d).tok n = some { req := r } := by
  unfold State.asked State.thrOf
  rw [thrI_gput]
  unfold State.tokSet
  rw [thrI_thrUpd, if_pos ⟨rfl, rfl⟩]
  show mget _ (mset (fun _ => none) _ n (some ({ req := r } : Tok))) n = _
  rw [mget_mset, if_pos rfl]

theorem request_takes (act : State → Nat → State) (h : (s.thrOf d).lowestFree n) :
    s.request d rd r act = (act (s.asked d rd n r) n, .next) := by
  unfold State.request
  rw [freeTok_of_lowestFree h]
  rfl

theorem request_waits (act : State → Nat → State) (h : ∀ m < 16, (s.thrOf d).tok m ≠ none) :
    s.request d rd r act = (s.pmcOf d 0x0E, .stall .full) := by
  unfold State.request
  rw [freeTok_none h]

/-- A token that is outstanding completes with its status word (R287). -/
theorem tokComplete_eq {u : State} {g i : Nat} {q : Req} (detail : Nat) (h : (u.thrI g i).tok n = some { req := q }) :
    u.tokComplete g i n status detail = (u.saTouch g i).tokSet g i n (some { req := q, done := some (statusWord status n detail) }) := by
  unfold State.tokComplete State.tokResult
  rw [h]
  rfl

/-- The status word of a completion without a detail. -/
theorem statusWord_zero : statusWord status n 0 = status * 2 ^ 56 + n * 2 ^ 52 := by
  rw [statusWord, Nat.zero_mod, Nat.add_zero]

theorem requestDone_answers (h : (s.thrOf d).lowestFree n) : s.requestDone d rd status = (s.answered d rd n status, .next) := by
  unfold State.requestDone
  rw [request_takes _ h, tokComplete_eq 0 tok_asked, statusWord_zero]
  rfl

theorem nextPc_saTouch (u : State) : nextPc (u.saTouch d.c.g.val d.c.ix) d = nextPc u d :=
  nextPc_congr (congrArg Thr.pc (thrI_saTouch ..))

theorem nextPc_answered : nextPc (s.answered d rd n status) d = nextPc s d :=
  (nextPc_tokSet _).trans ((nextPc_saTouch _).trans nextPc_asked)

/-- An instruction whose body ends with a performance event. -/
theorem eng_next_pmcOf {u : State} {ev : Nat} (hi : issues s d i) (hb : body s = (u.pmcOf d ev, .next)) :
    retired u (s.eng d i body) d (nextPc u d) := by
  have hpc : nextPc (u.pmcOf d ev) d = nextPc u d := nextPc_congr (congrArg Thr.pc (thrI_pmc ..))
  exact hpc ▸ retired_of_pmcOf (eng_next hi hb)

/-- An instruction that takes a token and is counted. -/
theorem eng_asked {ev : Nat} (hi : issues s d i) (h : (s.thrOf d).lowestFree n)
    (hb : body s = s.request d rd r (fun u _ => u.pmcOf d ev)) : retired (s.asked d rd n r) (s.eng d i body) d (nextPc s d) :=
  nextPc_asked ▸ eng_next_pmcOf hi (hb.trans (request_takes _ h))

theorem eng_answered (hi : issues s d i) (h : (s.thrOf d).lowestFree n) (hb : body s = s.requestDone d rd status) :
    retired (s.answered d rd n status) (s.eng d i body) d (nextPc s d) :=
  nextPc_answered ▸ eng_next hi (hb.trans (requestDone_answers h))

/-- A thread without a free token waits for one. -/
theorem eng_noToken {act : State → Nat → State} (hi : issues s d i) (h : ∀ m < 16, (s.thrOf d).tok m ≠ none)
    (hb : body s = s.request d rd r act) : (s.eng d i body).thrOf d = { s.thrOf d with run := .stall .full } :=
  eng_stall hi (hb.trans (request_waits act h)) (thrI_pmc ..)

end Request

/-! ### Lookups (R288, R289, R300) -/

/-- What the body of an LKP does. -/
def State.lkpBody (s : State) (d : Iss) (kind tbl : Nat) (rd ra rb : GReg) : State × Ctl :=
  if bufFault (s.greg d rb) (lkpSize kind) ≠ 0 then (s, .flt (bufFault (s.greg d rb) (lkpSize kind)) 0)
  else if kind ≤ 1 ∧ !inData d.c.ix (s.greg d ra) 24 then (s, .flt 3 0)
  else if s.lull then s.requestDone d rd 2
  else s.request d rd (.lkp (s.lkpReq d kind tbl (s.greg d ra) (s.greg d rb))) (fun s _ => s.pmcOf d 0x0A)

section Lkp
variable {s : State} {d : Iss} {i : Instr} {kind tbl n : Nat} {rd ra rb : GReg}

theorem engLkp_eq : s.engLkp d i kind tbl rd ra rb = s.eng d i (fun u => u.lkpBody d kind tbl rd ra rb) := rfl

theorem lkpBody_buffer (h : bufFault (s.greg d rb) (lkpSize kind) ≠ 0) :
    s.lkpBody d kind tbl rd ra rb = (s, .flt (bufFault (s.greg d rb) (lkpSize kind)) 0) := if_pos h

variable (hbuf : bufFault (s.greg d rb) (lkpSize kind) = 0)
include hbuf

theorem lkpBody_key (h : kind ≤ 1 ∧ inData d.c.ix (s.greg d ra) 24 = false) :
    s.lkpBody d kind tbl rd ra rb = (s, .flt 3 0) := by
  refine (if_neg (not_not_intro hbuf)).trans (if_pos ?_)
  rw [h.2]
  exact ⟨h.1, rfl⟩

variable (hkey : kind ≤ 1 → inData d.c.ix (s.greg d ra) 24 = true)
include hkey

theorem lkpBody_asks : s.lkpBody d kind tbl rd ra rb = if s.lull then s.requestDone d rd 2
    else s.request d rd (.lkp (s.lkpReq d kind tbl (s.greg d ra) (s.greg d rb))) (fun s _ => s.pmcOf d 0x0A) := by
  refine (if_neg (not_not_intro hbuf)).trans (if_neg ?_)
  rintro ⟨hk, hno⟩
  rw [hkey hk] at hno
  cases hno

theorem eng_lkp (hi : issues s d i) (hl : s.inMode mLULL = false) (hn : (s.thrOf d).lowestFree n) :
    retired (s.asked d rd n (.lkp (s.lkpReq d kind tbl (s.greg d ra) (s.greg d rb)))) (s.engLkp d i kind tbl rd ra rb) d (nextPc s d) :=
  eng_asked hi hn ((lkpBody_asks hbuf hkey).trans (if_neg (Bool.eq_false_iff.mp hl)))

end Lkp

section Forms
variable {s : State} {d : Iss} {rd ra rb : GReg} {n : Nat}

/-- An LKP that issues with a good buffer and key block takes a token for its request. -/
theorem lkp_runs {i : Instr} {kind tbl : Nat} {ok : LkpReq → Prop} (hexec : exec i s = .next (s.engLkp d i kind tbl rd ra rb))
    (hl : s.inMode mLULL = false) (hn : (s.thrOf d).lowestFree n) (hbuf : bufFault (s.greg d rb) (lkpSize kind) = 0)
    (hkey : kind ≤ 1 → inData d.c.ix (s.greg d ra) 24 = true)
    (hr : (s.lkpReq d kind tbl (s.greg d ra) (s.greg d rb)).buf = s.greg d rb)
    (hok : ok (s.lkpReq d kind tbl (s.greg d ra) (s.greg d rb))) (hi : issues s d i) :
    ∃ t r, exec i s = .next t ∧ retired (s.asked d rd n (.lkp r)) t d (nextPc s d) ∧ r.buf = s.greg d rb ∧ ok r :=
  ⟨_, _, hexec, eng_lkp hbuf hkey hi hl hn, hr, hok⟩

/-- An LKP that issues but makes no request: a fault, LULL, or no free token. -/
theorem lkp_otherwise {i : Instr} (kind tbl n : Nat) (hi : issues s d i) :
    let f := bufFault (s.greg d rb) (lkpSize kind)
    let t := s.engLkp d i kind tbl rd ra rb
    (f ≠ 0 → Host.Outcome.next t = (.next (s.faulted d f 0) : Out1))
    ∧ (f = 0 → (decide (kind ≤ 1) && !inData d.c.ix (s.greg d ra) 24) = true → Host.Outcome.next t = (.next (s.faulted d 3 0) : Out1))
    ∧ (f = 0 → (decide (kind ≤ 1) && !inData d.c.ix (s.greg d ra) 24) = false →
      (s.inMode mLULL = true → (s.thrOf d).lowestFree n →
        ∃ u, Host.Outcome.next t = (.next u : Out1) ∧ retired (s.answered d rd n 2) u d (nextPc s d))
      ∧ ((∀ m < 16, (s.thrOf d).tok m ≠ none) → ∃ u, Host.Outcome.next t = (.next u : Out1)
          ∧ u.thrOf d = { s.thrOf d with run := .stall .full })) := by
  intro f t
  refine ⟨fun hf => congrArg Host.Outcome.next (eng_fault hi (lkpBody_buffer hf)), fun hf hno =>
    congrArg Host.Outcome.next (eng_fault hi (lkpBody_key hf ?_)), fun hf hyes => ?_⟩
  · simpa using hno
  · have hkey : kind ≤ 1 → inData d.c.ix (s.greg d ra) 24 = true := by simpa using hyes
    refine ⟨fun hl hn => ⟨t, rfl, eng_answered hi hn ((lkpBody_asks hf hkey).trans (if_pos hl))⟩, fun hall => ⟨t, rfl, ?_⟩⟩
    cases hl : s.lull with
    | true => exact eng_noToken hi hall ((lkpBody_asks hf hkey).trans (if_pos hl))
    | false => exact eng_noToken hi hall ((lkpBody_asks hf hkey).trans (if_neg (Bool.eq_false_iff.mp hl)))

end Forms

theorem bad_range {b a : Nat} : decide (b ≤ a) = false ↔ a < b := by
  rw [decide_eq_false_iff_not, not_le]

/-- An exact-match request is good when its table is on and its key fits (log entry 78). -/
theorem bad_em {on : Bool} {w k : Nat} : (!on || decide (2 ^ w ≤ k)) = false ↔ on = true ∧ k < 2 ^ w := by
  rw [Bool.or_eq_false_iff, Bool.not_eq_false', bad_range]

/-- Settles O15: one body serves the six kinds, `lkpBody`; what is left is its request's fields. -/
theorem lookupRequestsTakeAToken : Obligations.LookupRequestsTakeAToken := by
  unfold Obligations.LookupRequestsTakeAToken
  intro s d rd ra rb tbl n a buf b runs
  refine ⟨fun hl hn => ⟨fun hbuf hkey => lkp_runs rfl hl hn hbuf (fun _ => hkey) rfl ⟨rfl, rfl, rfl, rfl, bad_em⟩,
    fun hbuf hkey => lkp_runs rfl hl hn hbuf (fun _ => hkey) rfl ⟨rfl, rfl, rfl, rfl, bad_range.trans Nat.lt_succ_iff⟩,
    fun hbuf => lkp_runs rfl hl hn hbuf (fun h => absurd h (by decide)) rfl ⟨rfl, rfl, bad_range⟩,
    fun hbuf => lkp_runs rfl hl hn hbuf (fun h => absurd h (by decide)) rfl ⟨rfl, rfl, bad_range⟩,
    fun hbuf => lkp_runs rfl hl hn hbuf (fun h => absurd h (by decide)) rfl ⟨rfl, rfl, bad_range⟩,
    fun hbuf => lkp_runs rfl hl hn hbuf (fun h => absurd h (by decide)) rfl ⟨rfl, rfl, bad_range⟩⟩, ?_, ?_⟩
  · intro p hp hi
    simp only [List.mem_cons, List.not_mem_nil, or_false] at hp
    suffices hp' : ∃ kind tb, exec p.1 s = .next (s.engLkp d p.1 kind tb rd ra rb) ∧ lkpSize kind = p.2.1 ∧ decide (kind ≤ 1) = p.2.2 by
      obtain ⟨kind, tb, hexec, hsize, hblock⟩ := hp'
      rw [hexec, ← hsize, ← hblock]
      exact lkp_otherwise kind tb n hi
    rcases hp with rfl | rfl | rfl | rfl | rfl | rfl <;> exact ⟨_, _, rfl, rfl, rfl⟩
  · intro w hwf hop hkind hn hi f
    obtain ⟨hnone, -⟩ := (Bool.and_eq_true ..).mp hwf
    rw [exec_reservedOpcode s (Option.isNone_iff_eq_none.mp hnone)]
    refine ⟨fun hf => congrArg Host.Outcome.next (eng_fault hi ?_), fun hf => ⟨_, rfl, eng_answered hi hn ?_⟩⟩
    · exact (if_pos ⟨hop, hkind⟩).trans (if_pos hf)
    · exact (if_pos ⟨hop, hkind⟩).trans ((if_neg (not_not_intro hf)).trans (apply_ite (s.requestDone d _) _ 2 3).symm)

end Sys2Proof.Machine

namespace Sys2Proof.Machine

/-! ### Echo, Hoard and DMA requests (R291–R293, R300) -/

/-- The bytes of a valid Echo descriptor: its length in range, its bytes in their source (R291). -/
def State.echoSource (s : State) (d : Iss) (mem : Bool) (a : Nat) : Option Bytes :=
  let b := s.dataBytes d a 24
  if 1 ≤ leN b 4 2 ∧ leN b 4 2 ≤ 12288 then s.echoData d mem (leN b 0 4) (leN b 4 2) else none

/-- The scan an Echo request queues as token `n`. -/
def State.echoJob (s : State) (d : Iss) (after : Bool) (a : Nat) (data : Bytes) (n : Nat) : EchoJob :=
  let b := s.dataBytes d a 24
  ⟨d.c.ix, n, none, a, data, if after then some (leN b 8 2, leN b 10 2) else none, false,
    match s.pktOf d with | some k => k.p.stamp | none => stamp16 s.t16⟩

/-- What the body of an Echo request with a good descriptor buffer does. -/
def State.echoBody (s : State) (d : Iss) (after mem : Bool) (rd ra : GReg) : State × Ctl :=
  let a := s.greg d ra
  let g := d.c.g.val
  if bufFault a 24 ≠ 0 then (s, .flt (bufFault a 24) 0)
  else if s.lull then
    s.request d rd .off (fun s n => (s.memWr g d.c.ix (a + 16) 8 (echoWord 5 none false 0)).tokComplete g d.c.ix n 0 0)
  else match s.echoSource d mem a with
    | none => s.requestDone d rd 3
    | some data =>
      if s.rd F.PAT_CFG_QMAX * 1024 < (s.ech g).bytes + leN (s.dataBytes d a 24) 4 2 then
        (s, .stall (.echoQ (leN (s.dataBytes d a 24) 4 2)))
      else s.request d rd .echo (fun u n => (u.echQueue g (s.echoJob d after a data n)).pmcOf d 0x0B)

theorem engEcho_eq (s : State) (d : Iss) (i : Instr) (after mem : Bool) (rd ra : GReg) :
    s.engEcho d i after mem rd ra = s.eng d i (fun u => u.echoBody d after mem rd ra) := rfl

/-- The scan result word of a scan in LULL (R266, R300). -/
theorem echoWord_lull : echoWord 5 none false 0 = 5 * 2 ^ 60 := by decide

section Echo
variable {s : State} {d : Iss} {i : Instr} {after mem : Bool} {rd ra : GReg} {n : Nat} {data : Bytes}
  (hbuf : bufFault (s.greg d ra) 24 = 0)

theorem echoSource_some (hlo : 1 ≤ leN (s.dataBytes d (s.greg d ra) 24) 4 2) (hhi : leN (s.dataBytes d (s.greg d ra) 24) 4 2 ≤ 12288)
    (hdata : s.echoData d mem (leN (s.dataBytes d (s.greg d ra) 24) 0 4) (leN (s.dataBytes d (s.greg d ra) 24) 4 2) = some data) :
    s.echoSource d mem (s.greg d ra) = some data := (if_pos ⟨hlo, hhi⟩).trans hdata

theorem echoSource_none (h : leN (s.dataBytes d (s.greg d ra) 24) 4 2 = 0 ∨ 12288 < leN (s.dataBytes d (s.greg d ra) 24) 4 2
      ∨ s.echoData d mem (leN (s.dataBytes d (s.greg d ra) 24) 0 4) (leN (s.dataBytes d (s.greg d ra) 24) 4 2) = none) :
    s.echoSource d mem (s.greg d ra) = none := by
  unfold State.echoSource
  dsimp only
  split
  · exact (h.resolve_left (by omega)).resolve_left (by omega)
  · rfl

include hbuf

theorem echoBody_lull (hl : s.inMode mLULL = true) : s.echoBody d after mem rd ra = s.request d rd .off (fun u n =>
    (u.memWr d.c.g.val d.c.ix (s.greg d ra + 16) 8 (5 * 2 ^ 60)).tokComplete d.c.g.val d.c.ix n 0 0) := by
  rw [← echoWord_lull]
  exact (if_neg (not_not_intro hbuf)).trans (if_pos hl)

variable (hl : s.inMode mLULL = false)
include hl

theorem echoBody_bad (h : s.echoSource d mem (s.greg d ra) = none) : s.echoBody d after mem rd ra = s.requestDone d rd 3 := by
  refine (if_neg (not_not_intro hbuf)).trans ((if_neg (Bool.eq_false_iff.mp hl)).trans ?_)
  rw [h]

theorem echoBody_full (h : s.echoSource d mem (s.greg d ra) = some data)
    (hq : s.rd F.PAT_CFG_QMAX * 1024 < (s.ech d.c.g.val).bytes + leN (s.dataBytes d (s.greg d ra) 24) 4 2) :
    s.echoBody d after mem rd ra = (s, .stall (.echoQ (leN (s.dataBytes d (s.greg d ra) 24) 4 2))) := by
  refine (if_neg (not_not_intro hbuf)).trans ((if_neg (Bool.eq_false_iff.mp hl)).trans ?_)
  rw [h]
  exact if_pos hq

theorem echoBody_queues (h : s.echoSource d mem (s.greg d ra) = some data)
    (hq : (s.ech d.c.g.val).bytes + leN (s.dataBytes d (s.greg d ra) 24) 4 2 ≤ s.rd F.PAT_CFG_QMAX * 1024) :
    s.echoBody d after mem rd ra = s.request d rd .echo (fun u n =>
      (u.echQueue d.c.g.val (s.echoJob d after (s.greg d ra) data n)).pmcOf d 0x0B) := by
  refine (if_neg (not_not_intro hbuf)).trans ((if_neg (Bool.eq_false_iff.mp hl)).trans ?_)
  rw [h]
  exact if_neg (Nat.not_lt.mpr hq)

end Echo

section Done
variable {s : State} {d : Iss} {i : Instr} {body : State → State × Ctl} {rd : GReg} {n : Nat}

/-- Updating a gallery's memories leaves its threads. -/
theorem thrI_memWr (u : State) (g i a m v h j : Nat) : (u.memWr g i a m v).thrI h j = u.thrI h j := by
  rcases memWr_form u g i a m v with e | ⟨f, e⟩
  · rw [e]
  · rw [e]
    unfold State.thrI
    rw [galI_galUpd]
    split <;> rfl

/-- An Echo request in LULL: its result word says so, its token is complete. -/
theorem eng_echoLull {a v : Nat} (hi : issues s d i) (hn : (s.thrOf d).lowestFree n)
    (hb : body s = s.request d rd .off (fun u n => (u.memWr d.c.g.val d.c.ix a 8 v).tokComplete d.c.g.val d.c.ix n 0 0)) :
    retired ((((s.asked d rd n .off).memWr d.c.g.val d.c.ix a 8 v).saTouch d.c.g.val d.c.ix).tokSet d.c.g.val d.c.ix n
      (some { req := .off, done := some (n * 2 ^ 52) })) (s.eng d i body) d (nextPc s d) := by
  have htok : (((s.asked d rd n .off).memWr d.c.g.val d.c.ix a 8 v).thrI d.c.g.val d.c.ix).tok n = some { req := .off } := by
    rw [thrI_memWr]
    exact tok_asked
  have hzero : statusWord 0 n 0 = n * 2 ^ 52 := by rw [statusWord_zero, Nat.zero_mul, Nat.zero_add]
  have hpc := (nextPc_tokSet (s := ((s.asked d rd n .off).memWr d.c.g.val d.c.ix a 8 v).saTouch d.c.g.val d.c.ix) (d := d) (n := n)
    (some { req := .off, done := some (n * 2 ^ 52) })).trans ((nextPc_saTouch _).trans ((nextPc_memWr ..).trans nextPc_asked))
  rw [← hpc]
  refine eng_next hi (hb.trans ((request_takes _ hn).trans ?_))
  rw [tokComplete_eq 0 htok, hzero]

/-- An instruction that takes a token, acts and is counted. -/
theorem eng_request {act : State → Nat → State} {r : Req} {ev : Nat} (hi : issues s d i) (hn : (s.thrOf d).lowestFree n)
    (hb : body s = s.request d rd r (fun u n => (act u n).pmcOf d ev)) :
    retired (act (s.asked d rd n r) n) (s.eng d i body) d (nextPc (act (s.asked d rd n r) n) d) :=
  eng_next_pmcOf hi (hb.trans (request_takes _ hn))

/-- An Echo request queues its scan (R291). -/
theorem eng_echo {after mem : Bool} {ra : GReg} {data : Bytes} (hi : issues s d i) (hn : (s.thrOf d).lowestFree n)
    (hbuf : bufFault (s.greg d ra) 24 = 0) (hl : s.inMode mLULL = false) (h : s.echoSource d mem (s.greg d ra) = some data)
    (hq : (s.ech d.c.g.val).bytes + leN (s.dataBytes d (s.greg d ra) 24) 4 2 ≤ s.rd F.PAT_CFG_QMAX * 1024) :
    let u := (s.asked d rd n .echo).echQueue d.c.g.val (s.echoJob d after (s.greg d ra) data n)
    retired u (s.engEcho d i after mem rd ra) d (nextPc u d) :=
  eng_request (act := fun u n => u.echQueue d.c.g.val (s.echoJob d after (s.greg d ra) data n)) hi hn (echoBody_queues hbuf hl h hq)

/-- HRD: Hoard serves the request (R292). -/
theorem eng_hrd {ra : GReg} {op : State → Nat → Nat → State} (hi : issues s d i) (hn : (s.thrOf d).lowestFree n)
    (hl : s.inMode mLULL = false) : retired (op (s.asked d rd n (.hrd none)) n (s.greg d ra)) (s.engHrd d i rd ra op) d
      (nextPc (op (s.asked d rd n (.hrd none)) n (s.greg d ra)) d) :=
  eng_request (act := fun u n => op u n (s.greg d ra)) hi hn (if_neg (Bool.eq_false_iff.mp hl))

theorem eng_hrdLull {ra : GReg} {op : State → Nat → Nat → State} (hi : issues s d i) (hn : (s.thrOf d).lowestFree n)
    (hl : s.inMode mLULL = true) : retired (s.answered d rd n 2) (s.engHrd d i rd ra op) d (nextPc s d) :=
  eng_answered hi hn (if_pos hl)

/-- The body of a DMA request (R293, R300). -/
def State.dmaBody (s : State) (d : Iss) (dir : Nat) (rd ra : GReg) : State × Ctl :=
  let r := s.dmaReq d dir (s.dataBytes d (s.greg d ra) 16)
  if !inData d.c.ix (s.greg d ra) 16 then (s, .flt 3 0)
  else if r.loc % 8 ≠ 0 ∨ ((dir = 1 ∨ dir = 2) ∧ r.remote % 8 ≠ 0) then (s, .flt 4 0)
  else if s.lull ∧ dir ≠ 0 then s.requestDone d rd 2
  else s.request d rd (.dma r) (fun s _ => s.pmcOf d 0x0D)

theorem engDma_eq (s : State) (d : Iss) (i : Instr) (dir : Nat) (rd ra : GReg) :
    s.engDma d i dir rd ra = s.eng d i (fun u => u.dmaBody d dir rd ra) := rfl

section Dma
variable {ra : GReg} {dir : Nat} (hin : inData d.c.ix (s.greg d ra) 16 = true)
  (hloc : (s.dmaReq d dir (s.dataBytes d (s.greg d ra) 16)).loc % 8 = 0)
  (hrem : dir = 1 ∨ dir = 2 → (s.dmaReq d dir (s.dataBytes d (s.greg d ra) 16)).remote % 8 = 0)
include hin hloc hrem

/-- A DMA with a descriptor in the data space and aligned addresses meets no fault. -/
theorem dmaBody_asks : s.dmaBody d dir rd ra = if s.lull ∧ dir ≠ 0 then s.requestDone d rd 2
    else s.request d rd (.dma (s.dmaReq d dir (s.dataBytes d (s.greg d ra) 16))) (fun s _ => s.pmcOf d 0x0D) := by
  refine (if_neg ?_).trans (if_neg ?_)
  · rw [hin]
    decide
  · rintro (h | ⟨hdir, h⟩)
    · exact h hloc
    · exact h (hrem hdir)

variable (hi : issues s d i) (hn : (s.thrOf d).lowestFree n)
include hi hn

theorem eng_dma (hl : s.inMode mLULL = false) :
    retired (s.asked d rd n (.dma (s.dmaReq d dir (s.dataBytes d (s.greg d ra) 16)))) (s.engDma d i dir rd ra) d (nextPc s d) :=
  eng_asked hi hn ((dmaBody_asks hin hloc hrem).trans (if_neg fun h => Bool.eq_false_iff.mp hl h.1))

theorem eng_dmaLull (hl : s.inMode mLULL = true) (hdir : dir ≠ 0) :
    retired (s.answered d rd n 2) (s.engDma d i dir rd ra) d (nextPc s d) :=
  eng_answered hi hn ((dmaBody_asks hin hloc hrem).trans (if_pos ⟨hl, hdir⟩))

end Dma

end Done

/-- Settles O18: Echo, HRD and DMA are three bodies around `State.request`, which takes the lowest free token. -/
theorem echoHoardAndDmaRequestsTakeAToken : Obligations.EchoHoardAndDmaRequestsTakeAToken := by
  unfold Obligations.EchoHoardAndDmaRequestsTakeAToken
  intro s d rd ra n hn a g i runs
  refine ⟨fun hl => ⟨?_, fun hi => ⟨_, rfl, eng_hrd hi hn hl⟩, fun hi => ⟨_, rfl, eng_hrd hi hn hl⟩,
    fun hi => ⟨_, rfl, eng_hrd hi hn hl⟩, ?_⟩, ?_, fun hl => ⟨?_, ?_⟩⟩
  · intro mem data hbuf b len hlo hhi hdata hq stamp
    have hsrc : s.echoSource d mem a = some data := echoSource_some hlo hhi hdata
    exact ⟨fun hi => ⟨_, rfl, eng_echo (after := false) hi hn hbuf hl hsrc hq⟩,
      fun hi => ⟨_, rfl, eng_echo (after := true) hi hn hbuf hl hsrc hq⟩⟩
  · intro hin p hp r hloc hrem
    simp only [List.mem_cons, List.not_mem_nil, or_false] at hp
    suffices hp' : exec p.1 s = .next (s.engDma d p.1 p.2 rd ra) ∧ r.dir = p.2 ∧ r.remote = leN (s.dataBytes d a 16) 0 8
        ∧ r.loc = leN (s.dataBytes d a 16) 8 4 ∧ r.len = leN (s.dataBytes d a 16) 12 4 by
      obtain ⟨hexec, hfields⟩ := hp'
      refine ⟨fun hi => ⟨_, hexec, ?_⟩, hfields⟩
      rw [nextPc_asked]
      exact eng_dma hin hloc hrem hi hn hl
    rcases hp with rfl | rfl | rfl | rfl | rfl <;> exact ⟨rfl, rfl, rfl, rfl, rfl⟩
  · intro mem hbuf b len done e he
    simp only [List.mem_cons, List.not_mem_nil, or_false] at he
    suffices he' : ∃ after, exec e s = .next (s.engEcho d e after mem rd ra) by
      obtain ⟨after, hexec⟩ := he'
      refine ⟨fun hl hbad hi => ⟨_, hexec, eng_answered hi hn (echoBody_bad hbuf hl (echoSource_none hbad))⟩,
        fun hl data hlo hhi hdata hq hi => ⟨_, hexec, ?_⟩, fun hl hi => ⟨_, hexec, ?_⟩⟩
      · exact eng_stall hi (echoBody_full hbuf hl (echoSource_some hlo hhi hdata) hq) rfl
      · exact eng_echoLull hi hn (echoBody_lull hbuf hl)
    rcases he with rfl | rfl <;> exact ⟨_, rfl⟩
  · intro e he hi
    simp only [List.mem_cons, List.not_mem_nil, or_false] at he
    rcases he with rfl | rfl | rfl <;> exact ⟨_, rfl, eng_hrdLull hi hn hl⟩
  · intro hin p hp r hloc hrem hi
    simp only [List.mem_cons, List.not_mem_nil, or_false] at hp
    suffices hp' : exec p.1 s = .next (s.engDma d p.1 p.2 rd ra) ∧ 1 ≤ p.2 by
      obtain ⟨hexec, hdir⟩ := hp'
      exact ⟨_, hexec, eng_dmaLull hin hloc (fun h => hrem (by omega)) hi hn hl (by omega)⟩
    rcases hp with rfl | rfl | rfl | rfl <;> exact ⟨rfl, Nat.succ_pos _⟩

end Sys2Proof.Machine

namespace Sys2Proof.Machine

/-! ### What the completions of requests leave of the galleries -/

section Gal
variable (s : State)

theorem gal_cnt (r : Reg) (off n : Nat) : (s.cnt r off n).gal = s.gal := by
  unfold State.cnt
  dsimp only
  obtain ⟨m, h⟩ := wr64_form s { r with addr := r.addr + off } (min (s.rd64 { r with addr := r.addr + off } + n) (2 ^ 64 - 1))
  rw [h]

theorem gal_spendCredit (sl need : Nat) : (s.spendCredit sl need).gal = s.gal := rfl

theorem gal_readLine (sl : Nat) (lpm : Bool) (l : Nat) : (s.readLine sl lpm l).1.gal = s.gal := by
  unfold State.readLine
  dsimp only
  split <;> rfl

theorem gal_readLines (sl : Nat) (lpm : Bool) (l : List Nat) : (s.readLines sl lpm l).1.gal = s.gal := by
  unfold State.readLines
  refine List.foldlRecOn (motive := fun a : State × Nat × Nat => a.1.gal = s.gal) l _ rfl fun a ha x _ => ?_
  exact (gal_readLine ..).trans ha

theorem gal_spendReads (sl : Nat) (em lpm : List Nat) (n : Nat) (short : Bool) : (s.spendReads sl em lpm n short).1.gal = s.gal := by
  unfold State.spendReads
  dsimp only
  split
  · rfl
  · dsimp only
    rw [gal_spendCredit, gal_cnt, gal_cnt, gal_cnt, gal_cnt, gal_readLines, gal_readLines]

theorem gal_bucketLines (p : Option Pivot) : (s.bucketLines p).1.gal = s.gal := by
  unfold State.bucketLines
  split <;> rfl

theorem gal_lkpReads (g : Nat) (r : LkpReq) : (s.lkpReads g r).1.gal = s.gal := by
  unfold State.lkpReads
  split
  · exact gal_spendReads ..
  · exact (gal_spendReads ..).trans (gal_bucketLines ..)
  · exact gal_spendReads ..

theorem gal_twPut (a : Nat) (l : List Nat) : (s.twPut a l).gal = s.gal := by
  induction l generalizing s a with
  | nil => rfl
  | cons w l ih => exact ih ..

theorem gal_tPut (a : Nat) (l : Bytes) : (s.tPut a l).gal = s.gal := by
  induction l generalizing s a with
  | nil => rfl
  | cons b l ih => exact ih ..

theorem gal_cellPut (h o : Nat) (l : Bytes) : (s.cellPut h o l).gal = s.gal := by
  induction l generalizing s o with
  | nil => rfl
  | cons b l ih => exact ih ..

theorem gal_openBytes (n : Nat) : (s.openBytes n).2.gal = s.gal := by
  induction n generalizing s with
  | zero => rfl
  | succ n ih => exact ih ..

theorem thrI_memPut (g i a : Nat) (l : Bytes) (h j : Nat) : (s.memPut g i a l).thrI h j = s.thrI h j := by
  induction l generalizing s a with
  | nil => rfl
  | cons b l ih => exact (ih ..).trans (thrI_memWr ..)

end Gal

/-! ### Completions (R286, R287, R289, R292, R293, R345) -/

section Completes
variable {s u : State} {g i n : Nat} {q : Req}

/-- The token `n` of thread `i` completed with a status and a detail. -/
def State.tokEnded (s : State) (g i n : Nat) (q : Req) (status detail : Nat) : State :=
  (s.saTouch g i).tokSet g i n (some { req := q, done := some (status * 2 ^ 56 + n * 2 ^ 52 + detail % 2 ^ 52) })

/-- A token completes when its result has entered memory. -/
theorem memPut_completes {status a : Nat} (b : Bytes) (hgal : u.gal = s.gal) (ht : (s.thrI g i).tok n = some { req := q }) :
    (u.memPut g i a b).tokComplete g i n status 0 = (u.memPut g i a b).tokEnded g i n q status 0 :=
  tokComplete_eq 0 (by rw [thrI_memPut, thrI_congr hgal]; exact ht)

section Lkp
variable {r : LkpReq} (ht : (s.thrI g i).tok n = some { req := .lkp r })
include ht

theorem lkpComplete_bad (h : r.bad = true) (ecc : Bool) : s.lkpComplete g i n ecc = s.tokEnded g i n (.lkp r) 3 0 := by
  unfold State.lkpComplete
  rw [ht]
  dsimp only
  rw [if_pos h]
  exact (if_pos h).trans (tokComplete_eq 0 ht)

theorem lkpComplete_good (h : r.bad = false) (ecc : Bool) : s.lkpComplete g i n ecc
    = if (s.lkpReads g r).2 then (s.lkpReads g r).1.lkpDone g i n { req := .lkp r } r ecc else (s.lkpReads g r).1 := by
  unfold State.lkpComplete
  rw [ht]
  dsimp only
  rw [if_neg (Bool.eq_false_iff.mp h)]

variable (hgal : u.gal = s.gal) (h : r.bad = false)
include hgal h

theorem lkpDone_miss (hf : u.lkpFind r = none) : u.lkpDone g i n { req := .lkp r } r false
    = (u.memPut g i r.buf (zeros (lkpSize r.kind))).tokEnded g i n (.lkp r) 1 0 := by
  rw [← memPut_completes _ hgal ht]
  unfold State.lkpDone
  dsimp only
  rw [if_neg (Bool.eq_false_iff.mp h), hf]
  rfl

theorem lkpDone_found {b : Bytes} (hf : u.lkpFind r = some (b, none)) : u.lkpDone g i n { req := .lkp r } r false
    = (u.memPut g i r.buf b).tokEnded g i n (.lkp r) 0 0 := by
  rw [← memPut_completes _ hgal ht]
  unfold State.lkpDone
  dsimp only
  rw [if_neg (Bool.eq_false_iff.mp h), hf]
  rfl

/-- HIT of the entry an exact match found, set where enabled (R227). -/
def State.hitSet (s : State) (r : LkpReq) (ix : Nat) (e : EmEnt) : State :=
  if s.on (F.TBL_EM_CFG_HIT_EN.at r.tbl) = true ∧ e.hit = false then s.emWrite ix { e with hit := true } else s

omit ht hgal h in
theorem hitSet_eq (r : LkpReq) (ix : Nat) (e : EmEnt) : u.hitSet r ix e
    = if (u.on (F.TBL_EM_CFG_HIT_EN.at r.tbl) && !e.hit) = true then u.emWrite ix { e with hit := true } else u := by
  unfold State.hitSet
  simp only [Bool.and_eq_true, Bool.not_eq_true']

omit ht hgal h in
theorem gal_hitSet (r : LkpReq) (ix : Nat) (e : EmEnt) : (u.hitSet r ix e).gal = u.gal := by
  unfold State.hitSet
  split
  · exact gal_twPut ..
  · rfl

theorem lkpDone_hit {b : Bytes} {ix : Nat} {e : EmEnt} (hf : u.lkpFind r = some (b, some (ix, e))) :
    u.lkpDone g i n { req := .lkp r } r false = ((u.hitSet r ix e).memPut g i r.buf b).tokEnded g i n (.lkp r) 0 0 := by
  rw [← memPut_completes _ ((gal_hitSet ..).trans hgal) ht, hitSet_eq]
  unfold State.lkpDone
  dsimp only
  rw [if_neg (Bool.eq_false_iff.mp h), hf]
  rfl

theorem lkpDone_ecc : u.lkpDone g i n { req := .lkp r } r true
    = ((u.openBytes (lkpSize r.kind)).2.memPut g i r.buf (u.openBytes (lkpSize r.kind)).1).tokEnded g i n (.lkp r) 4 0 := by
  rw [← memPut_completes _ ((gal_openBytes ..).trans hgal) ht]
  unfold State.lkpDone
  dsimp only
  rw [if_neg (Bool.eq_false_iff.mp h)]
  rfl

end Lkp

theorem hrdComplete_answered {w : Nat} (ht : (s.thrI g i).tok n = some { req := .hrd (some w) }) :
    s.hrdComplete g i n = s.tokEnded g i n (.hrd (some w)) (w / 2 ^ 52) (w % 2 ^ 52) := by
  unfold State.hrdComplete
  rw [ht]
  exact tokComplete_eq _ ht

section Dma
variable {r : DmaReq} (ht : (s.thrI g i).tok n = some { req := .dma r })
include ht

theorem dmaComplete_eq (ecc : Bool) : s.dmaComplete g i n ecc = s.dmaDone g i n { req := .dma r } r ecc := by
  unfold State.dmaComplete
  rw [ht]

theorem dmaComplete_bad (h : r.bad = true) : s.dmaComplete g i n false = s.tokEnded g i n (.dma r) 3 0 := by
  rw [dmaComplete_eq ht]
  exact (if_pos h).trans (tokComplete_eq 0 ht)

/-- The bytes a good DMA moves, by its direction (R293). -/
def State.dmaMoved (s : State) (g i : Nat) (r : DmaReq) : State :=
  match r.dir with
  | 0 => match (s.thrI g i).pkt with | some k => s.memPut g i r.loc (slice k.p.bytes r.remote r.len) | none => s
  | 1 => (s.tRead r.remote r.len).2.memPut g i r.loc (s.tRead r.remote r.len).1
  | 2 => s.tPut r.remote (s.memGet g i r.loc r.len)
  | 3 => s.memPut g i r.loc (s.cellBytes (r.remote / 2 ^ 32) (r.remote % 256) r.len)
  | _ => s.cellPut (r.remote / 2 ^ 32) (r.remote % 256) (s.memGet g i r.loc r.len)

theorem dmaComplete_good (h : r.bad = false) {u : State} (hm : s.dmaMoved g i r = u) (hu : u.thrI g i = s.thrI g i) :
    s.dmaComplete g i n false = u.tokEnded g i n (.dma r) 0 0 := by
  have htok : u.tokComplete g i n 0 0 = u.tokEnded g i n (.dma r) 0 0 := tokComplete_eq 0 (by rw [hu]; exact ht)
  rw [dmaComplete_eq ht, ← htok, ← hm]
  unfold State.dmaDone
  dsimp only
  rw [if_neg (Bool.eq_false_iff.mp h)]
  rfl

end Dma

end Completes

/-- Settles O16: no read or write before a completion touches a thread, so the token is still outstanding when it ends. -/
theorem completionsDeliverTheirResult : Obligations.CompletionsDeliverTheirResult := by
  unfold Obligations.CompletionsDeliverTheirResult
  intro s c n g i ends
  refine ⟨fun r ht => ⟨fun hbad => congrArg Host.Outcome.next (lkpComplete_bad ht hbad false), fun hgood => ?_⟩,
    fun r => ⟨fun hk => by simp only [State.lkpFind, hk], fun hk => by simp only [State.lkpFind, hk],
      fun hk => by simp only [State.lkpFind, hk]⟩,
    fun w ht => congrArg Host.Outcome.next (hrdComplete_answered ht),
    fun r ht => ⟨fun hbad => congrArg Host.Outcome.next (dmaComplete_bad ht hbad), fun hgood => ?_⟩⟩
  · have hgal : (s.lkpReads g r).1.gal = s.gal := gal_lkpReads s g r
    have hcomplete (ecc : Bool) : exec (.lkpComplete c n ecc) s = .next (if (s.lkpReads g r).2
        then (s.lkpReads g r).1.lkpDone g i n { req := .lkp r } r ecc else (s.lkpReads g r).1) :=
      congrArg Host.Outcome.next (lkpComplete_good ht hgood ecc)
    generalize s.lkpReads g r = reads at hgal hcomplete ⊢
    obtain ⟨u, ok⟩ := reads
    refine ⟨fun hok => ?_, fun hok => ?_⟩
    · rw [hcomplete, hok]
      rfl
    · subst hok
      refine ⟨fun hf => ?_, fun b hf => ?_, fun b ix e hf => ?_, ?_⟩
      · exact (hcomplete false).trans (congrArg Host.Outcome.next (lkpDone_miss ht hgal hgood hf))
      · exact (hcomplete false).trans (congrArg Host.Outcome.next (lkpDone_found ht hgal hgood hf))
      · exact (hcomplete false).trans (congrArg Host.Outcome.next (lkpDone_hit ht hgal hgood hf))
      · exact (hcomplete true).trans (congrArg Host.Outcome.next (lkpDone_ecc ht hgal hgood))
  · refine ⟨fun hd k hk => ?_, fun hd => ?_, fun hd => ?_, fun hd => ?_⟩
    · refine congrArg Host.Outcome.next (dmaComplete_good ht hgood ?_ (thrI_memPut ..))
      simp only [State.dmaMoved, hd, hk]
    · refine congrArg Host.Outcome.next (dmaComplete_good ht hgood ?_ (thrI_congr (gal_tPut ..) ..))
      simp only [State.dmaMoved, hd]
    · refine congrArg Host.Outcome.next (dmaComplete_good ht hgood ?_ (thrI_memPut ..))
      simp only [State.dmaMoved, hd]
    · refine congrArg Host.Outcome.next (dmaComplete_good ht hgood ?_ (thrI_congr (gal_cellPut ..) ..))
      simp only [State.dmaMoved, hd]

end Sys2Proof.Machine

namespace Sys2Proof.Machine

/-! ### The mode and the Keeper's state, which passing time and events of a gallery keep -/

/-- The word of MOD_STATUS and the Keeper's state of `t` are those of `s`. -/
def modeKept (s t : State) : Prop := t.rdw 0x60000 = s.rdw 0x60000 ∧ t.kpr = s.kpr

theorem modeKept.trans {s t u : State} (h : modeKept s t) (h' : modeKept t u) : modeKept s u :=
  ⟨h'.1.trans h.1, h'.2.trans h.2⟩

theorem modeKept.inMode {s t : State} (h : modeKept s t) (m : Nat) : t.inMode m = s.inMode m :=
  congrArg (fun w : Word => bits w.toNat 2 0 == m) h.1

section Kept
variable (s : State)

theorem modeKept_refl : modeKept s s := ⟨rfl, rfl⟩

theorem modeKept_wr (f : Fld) (v : Nat) (h : f.addr ≠ 0x60000) : modeKept s (s.wr f v) := ⟨rdw_wr_ne _ _ _ _ (Ne.symm h), rfl⟩

theorem kpr_wr64 (r : Reg) (v : Nat) : (s.wr64 r v).kpr = s.kpr := by
  obtain ⟨m, h⟩ := wr64_form s r v
  rw [h]

theorem modeKept_cnt (r : Reg) (off n : Nat) (h : 0x60000 < r.addr) : modeKept s (s.cnt r off n) := by
  unfold State.cnt
  dsimp only
  generalize hr : ({ r with addr := r.addr + off } : Reg) = c
  have hc : c.addr = r.addr + off := by rw [← hr]
  exact ⟨rdw_wr64_ne s c _ (by omega), kpr_wr64 ..⟩

theorem modeKept_pauseFrac (m : SMap Nat) : modeKept s { s with pauseFrac := m } := ⟨rfl, rfl⟩

theorem modeKept_countPause (port t a b : Nat) : modeKept s (s.countPause port t a b) := by
  unfold State.countPause
  dsimp only
  split
  · exact modeKept_refl s
  · have hcnt : modeKept s (s.cnt (R.LPT_CNT.on port) ((24 + t) * 8)
        ((mget (fun _ => 0) s.pauseFrac (port * 8 + t) + s.pausedIn port t a b) / 65536)) :=
      modeKept_cnt s _ _ _ (by simp only [Reg.on, R.LPT_CNT]; omega)
    generalize s.cnt (R.LPT_CNT.on port) ((24 + t) * 8) _ = u at hcnt ⊢
    exact hcnt.trans (modeKept_pauseFrac u _)

theorem modeKept_countPauses (a b : Nat) : modeKept s (s.countPauses a b) :=
  foldS_inv (fun u => modeKept s u) _ _ s (modeKept_refl s) fun _ _ _ ht => ht.trans (modeKept_countPause ..)

theorem modeKept_countHoldover : modeKept s s.countHoldover := by
  unfold State.countHoldover
  split
  · exact modeKept_wr s _ _ (by decide)
  · exact modeKept_refl s

/-- Passing time keeps the mode. -/
theorem modeKept_elapse (d e rem : Nat) : modeKept s (s.elapse d e rem) := by
  unfold State.elapse
  dsimp only
  generalize hu : (if s.tb.slewLeft ≠ 0 ∧ s.tb.slewLeft - slewIn s.tb.slewLeft s.slewRate e = 0 then _ else _) = u
  have h : modeKept s u := by
    rw [← hu]
    split
    · exact modeKept_wr _ _ _ (by decide)
    · exact modeKept_refl s
  split
  · exact (h.trans (modeKept_countPauses u ..)).trans ((modeKept_countPauses (State.freeze _) ..).trans (modeKept_countHoldover _))
  · exact (h.trans (modeKept_countPauses u ..)).trans (modeKept_countHoldover _)

theorem modeKept_advanceUp (n : Nat) : modeKept s (s.advanceUp n) := by
  unfold State.advanceUp
  split
  · exact modeKept_elapse ..
  · exact modeKept_refl s

theorem modeKept_raise (n : Nat) : modeKept s (s.raise n) :=
  ⟨rdw_raise s n _ (by decide) (by decide), kpr_raise s n⟩

theorem modeKept_galEvt (g : Nat) (f : Fld) (hf : 0x60000 < f.addr) : modeKept s (s.galEvt g f) := by
  have hwr : modeKept s (s.wr (f.at g) 1) := modeKept_wr s _ _ (by simp only [Fld.at]; omega)
  unfold State.galEvt State.setEvt
  dsimp only
  split
  · exact hwr.trans (modeKept_raise ..)
  · exact hwr

theorem modeKept_galOff (g : Nat) : modeKept s (s.galOff g) :=
  modeKept_wr (s := { s with gal := mset (fun _ => {}) s.gal g { winBase := (s.galI g).winBase, winSize := (s.galI g).winSize } }) _ _
    (by simp only [Fld.at, F.GAL_STATUS_STATE]; omega)

end Kept

/-! ### Galleries take packets, load and drain (R275, R277, R306, R331, R332) -/

/-- One mode at a time. -/
theorem inMode_ne {s : State} {m n : Nat} (h : s.inMode m = true) (hne : m ≠ n) : s.inMode n = false := by
  unfold State.inMode at *
  rw [beq_iff_eq] at h
  rw [beq_eq_false_iff_ne, h]
  exact hne

section Gallery
variable {s : State} {g : Nat}

theorem dispatch_head {i : Nat} {x : GIn} {l : List GIn} (hi : s.idleWorker g = some i) (hq : (s.galI g).inq = x :: l) :
    s.dispatch g = (s.galUpd g (fun y => { y with inq := l })).dispatchTo g i x := by
  unfold State.dispatch
  rw [hi, hq]

/-- The state in which the next arrival has its handle (R275). -/
def State.galTaken (s : State) (g : Nat) (x : GIn) : State :=
  { s with galIn := eraseFirst x s.galIn }.galUpd g (fun y => { y with handle := (s.galI g).handle + 1 })

/-- A gallery in service takes the earliest arrival. -/
theorem galleryInput_takes {x : GIn} (hx : s.nextArrival g = some x) (hs : s.galState g = gSERVICE) :
    s.galleryInput g =
      let r := if x.egr then (s.galTaken g x, true) else (s.galTaken g x).packetScan g ((s.galI g).handle + 1) x.p
      if r.2 then r.1.galAccept g { x with handle := (s.galI g).handle + 1 } else r.1.nhDone x.p := by
  unfold State.galleryInput
  rw [hx]
  exact if_neg (not_not_intro hs)

theorem packetScan_none {u : State} {h : Nat} {p : Pkt} (he : p.echo = none) : u.packetScan g h p = (u, true) := by
  unfold State.packetScan
  rw [he]

theorem packetScan_queues {u : State} {h k : Nat} {p : Pkt} (he : p.echo = some k)
    (hq : (u.ech g).bytes + ((u.scanRange k p).getD []).length ≤ u.rd F.PAT_CFG_QMAX * 1024) : u.packetScan g h p
      = (u.echQueue g ⟨0, 0, some h, 0, (u.scanRange k p).getD [], none, (u.scanRange k p).isNone, p.stamp⟩, true) := by
  unfold State.packetScan
  rw [he]
  exact if_neg (Nat.not_lt.mpr hq)

theorem packetScan_drops {u : State} {h k : Nat} {p : Pkt} (he : p.echo = some k)
    (hq : u.rd F.PAT_CFG_QMAX * 1024 < (u.ech g).bytes + ((u.scanRange k p).getD []).length)
    (hact : (u.echSkip g).on F.PAT_CFG_OVF_ACT = true) : u.packetScan g h p = (u.echSkip g, false) := by
  unfold State.packetScan
  rw [he]
  exact (if_pos hq).trans (if_pos hact)

theorem loadByKeeper_run (hk : s.keeperUp = true) (hm : s.inMode mRUN = true) (ht : s.bist.gt = none)
    (hf : bitN s.bist.gfail g = false) (hs : s.galState g = gOFF) :
    s.loadByKeeper g = (s.hrdReclaim g).loadGal g (engProg s.kpr.eng g) := by
  have hprog : s.progFor g = engProg s.kpr.eng g := if_neg (Bool.eq_false_iff.mp (inMode_ne hm (by decide)))
  unfold State.loadByKeeper
  rw [hprog]
  refine if_pos ?_
  rw [hk, hm, ht, hf, hs]
  simp

theorem loadTimeout_run {t0 : Nat} (ht : (s.galI g).loadAt = some t0) (hs : s.galState g = gLOADING) (hm : s.inMode mRUN = true)
    (hw : s.kpr.swap = none) : s.loadTimeout g = ((s.advanceUp (t0 + 10 ^ 6)).galOff g).galEvt g F.GAL_EVT_LOAD_FAIL := by
  have hkept : modeKept s (((s.advanceUp (t0 + 10 ^ 6)).galOff g).galEvt g F.GAL_EVT_LOAD_FAIL) :=
    ((modeKept_advanceUp ..).trans (modeKept_galOff ..)).trans (modeKept_galEvt _ g _ (by decide))
  have hascent := (hkept.inMode mASCENT).trans (inMode_ne hm (by decide))
  unfold State.loadTimeout
  rw [ht]
  refine (if_neg (not_not_intro hs)).trans ((if_neg (Bool.eq_false_iff.mp hascent)).trans ?_)
  rw [hkept.2, hw]

theorem drainEnd_loading (hs : s.galState g = gDRAINING) (ht : s.bist.gt = none) :
    s.drainEnd g = (s.galDrained g gLOADING).hrdReclaim g := by
  unfold State.drainEnd
  rw [ht]
  exact if_neg (not_not_intro hs)

end Gallery

/-- Settles O28: of the five, only the load's timeout looks again at the mode after time has passed, which `modeKept` covers. -/
theorem galleriesTakePacketsLoadAndDrain : Obligations.GalleriesTakePacketsLoadAndDrain := by
  unfold Obligations.GalleriesTakePacketsLoadAndDrain
  intro s g
  refine ⟨fun i x l hi hq => congrArg Host.Outcome.next (dispatch_head hi hq), fun x hx hs he => ?_, fun x k hx hs hegr he => ?_,
    fun hk hm ht hf hs => congrArg Host.Outcome.next (loadByKeeper_run hk hm ht hf hs),
    fun t0 ht hs hm hw => congrArg Host.Outcome.next (loadTimeout_run ht hs hm hw),
    fun hs ht => congrArg Host.Outcome.next (drainEnd_loading hs ht)⟩
  · refine congrArg Host.Outcome.next ((galleryInput_takes hx hs).trans ?_)
    rw [packetScan_none he, ite_self]
    rfl
  · have htake := galleryInput_takes hx hs
    rw [if_neg (Bool.eq_false_iff.mp hegr)] at htake
    intro h u data
    refine ⟨fun hq => congrArg Host.Outcome.next (htake.trans ?_), fun hq hact => congrArg Host.Outcome.next (htake.trans ?_)⟩
    · have hscan := packetScan_queues (u := s.galTaken g.val x) (h := h) he hq
      rw [hscan]
      rfl
    · have hscan := packetScan_drops (u := s.galTaken g.val x) (h := h) he hq hact
      rw [hscan]
      rfl

end Sys2Proof.Machine

namespace Sys2Proof.Machine

/-! ### Flues (R315–R318) -/

section Flues
variable {s : State} {d : Iss} {i : Instr} {idx : BitVec 8} {rd : GReg} {f k : Nat}

/-- On an enabled flue a flue instruction is its body. -/
theorem engFlue_enabled {body : State → State × Ctl} (hon : s.flueOn d.c.g.val idx.toNat = true) (hi : issues s d i) :
    s.engFlue d i idx body = s.eng d i body := by
  unfold State.engFlue
  rw [eng_issues hi, eng_issues hi]
  simp only [hon, Bool.not_true, Bool.false_eq_true, if_false]

/-- The thread's updates leave the flues' words. -/
theorem flueWords_thrPut (g : Nat) (h : Thr → Thr) : (s.thrPut d h).flueWords g f = s.flueWords g f := by
  unfold State.flueWords State.thrPut
  rw [galI_thrUpd_thr]

/-- FRES of a size that fits, with nobody in line, reserves it at once (R316). -/
theorem flueReserve_fits (hr : (s.thrOf d).resvIn f = none) (hline : s.inLine d f = false) (h1 : 1 ≤ k) (h32 : k ≤ 32)
    (hcap : k ≤ s.rd (flc F.GAL_FLUE_CAP d.c.g.val f)) (hfew : (s.thrOf d).resv.length < 4)
    (hwait : s.flueWait d.c.g.val f = []) (hspace : k ≤ s.flueSpace d.c.g.val f) :
    s.flueReserve d f k = ((s.thrPut d (fun x => { x with lost := x.lost.filter (· ≠ f) })).thrPut d (fun x =>
      { x with resv := x.resv ++ [⟨f, k, [], false⟩] }), .next) := by
  have hok : ¬(k = 0 ∨ 32 < k ∨ s.rd (flc F.GAL_FLUE_CAP d.c.g.val f) < k ∨ 4 ≤ (s.thrOf d).resv.length) := by omega
  unfold State.flueReserve
  simp only [hr, hline, hwait, hspace, hok, if_false, Bool.false_eq_true, List.isEmpty_nil, decide_true, Bool.and_self, if_true]

section Reserved
variable {r : Resv} (hr : (s.thrOf d).resvIn f = some r) (hl : (s.thrOf d).lost.contains f = false)
include hr hl

/-- FPUT within the reservation stages its word (R317). -/
theorem flueStage_room (v : Nat) (hroom : r.staged.length < r.size) : s.flueStage d f v = (s.thrPut d (fun x =>
    { x with resv := x.resv.map (fun q => if q.flue = f then { q with staged := q.staged ++ [v] } else q) }), .next) := by
  unfold State.flueStage
  simp only [hl, hr, Nat.not_le.mpr hroom, if_false, Bool.false_eq_true]

/-- FCMT commits what was staged (R317). -/
theorem flueCommit_staged (rd : GReg) : s.flueCommit d rd f = (((((s.thrPut d (fun x =>
    { x with resv := x.resv.filter (fun q => q.flue != f) })).fluePut d.c.g.val f (s.flueWords d.c.g.val f ++ r.staged)).flueFreed
      d.c.g.val f)).gput d rd r.staged.length, .next) := by
  unfold State.flueCommit
  simp only [hl, hr, Bool.false_eq_true, if_false, flueWords_thrPut]

end Reserved

/-- FGET by the receiving thread takes the oldest committed word (R318). -/
theorem flueGet_head (rd : GReg) {w : Nat} {l : List Nat} (hrx : s.flueRx d.c.g.val f = d.c.ix)
    (hw : s.flueWords d.c.g.val f = w :: l) :
    s.flueGet d rd f = (((s.fluePut d.c.g.val f l).flueFreed d.c.g.val f).gput d rd w, .next) := by
  unfold State.flueGet
  simp only [hrx, hw, ne_eq, not_true_eq_false, if_false]

end Flues

/-- Settles O22: on an enabled flue each instruction is its body (`engFlue_enabled`), which its guards decide. -/
theorem fluesCarryMessages : Obligations.FluesCarryMessages := by
  unfold Obligations.FluesCarryMessages
  intro s d rd ra idx hon g f k x
  refine ⟨fun hr hline h1 h32 hcap hfew hwait hspace hi => ⟨_, rfl, ?_⟩, fun r hr hl => ⟨fun hroom hi => ⟨_, rfl, ?_⟩,
    fun hi => ⟨_, rfl, ?_⟩⟩, fun hrx => ⟨fun w l hw hi => ⟨_, rfl, ?_⟩, fun hi => ⟨_, rfl, ?_⟩⟩⟩
  · have hpc : nextPc ((s.thrPut d (fun x => { x with lost := x.lost.filter (· ≠ f) })).thrPut d (fun x =>
        { x with resv := x.resv ++ [⟨f, k, [], false⟩] })) d = nextPc s d := nextPc_congr (by simp only [thrOf_thrPut])
    rw [engFlue_enabled hon hi, ← hpc]
    exact eng_next hi (flueReserve_fits hr hline h1 h32 hcap hfew hwait hspace)
  · rw [engFlue_enabled hon hi]
    exact eng_thrPut hi (fun _ => rfl) (flueStage_room hr hl _ hroom)
  · rw [engFlue_enabled hon hi]
    exact eng_next hi (flueCommit_staged hr hl rd)
  · rw [engFlue_enabled hon hi]
    exact eng_next hi (flueGet_head rd hrx hw)
  · rw [engFlue_enabled hon hi]
    exact eng_gput hi (if_neg (not_not_intro hrx))

end Sys2Proof.Machine

namespace Sys2Proof.Machine

/-! ### Commands of the supervisor on threads (R319, R322, R323) -/

theorem bits_eq_div_mod (v hi lo : Nat) : bits v hi lo = v / 2 ^ lo % 2 ^ (hi + 1 - lo) := by
  rw [bits, Nat.shiftRight_eq_div_pow]

section OnThreads
variable {s : State} {d : Iss} {ra : GReg} (h0 : d.c.ix = 0)
include h0

theorem mtsWrite_register (v : Nat) : s.mtsWrite d 0x13 v = (let sel := (s.galI d.c.g.val).sel
    s.haltedRegSet d.c.g.val (selThr sel) (bits sel 12 8) (bitN sel 16) v, .next) := if_neg (not_not_intro h0)

theorem mtsWrite_command (v : Nat) : s.mtsWrite d 0x14 v =
    (s.thrCmd d.c.g.val (selThr (s.galI d.c.g.val).sel) (v % 8) (bits v 31 16), .next) := if_neg (not_not_intro h0)

theorem mtsWrite_synth (v : Nat) : s.mtsWrite d 0x15 v = (s.synthPost d.c.g.val v, .next) := if_neg (not_not_intro h0)

theorem mtsWrite_reclaim (v : Nat) : s.mtsWrite d 0x16 v =
    (s.reclaim d.c.g.val (selThr (s.galI d.c.g.val).sel) (v % 128), .next) := if_neg (not_not_intro h0)

/-- An event of THR_CMD whose value names its operation does the operation and retires (R322). -/
theorem engThrCmd_retires {i : Instr} {op : Nat} {u : State} (hi : issues s d i) (hop : s.greg d ra % 8 = op)
    (hu : s.thrCmd d.c.g.val (selThr (s.galI d.c.g.val).sel) op (bits (s.greg d ra) 31 16) = u) :
    retired u (s.engThrCmd d i ra op) d (nextPc u d) := by
  subst hop
  have hcmd : s.engThrCmd d i ra (s.greg d ra % 8) = s.engMts d i ra 0x14 := if_pos rfl
  rw [hcmd, ← hu]
  exact eng_next hi (mtsWrite_command h0 _)

end OnThreads

section Commanded
variable {s : State} {g i : Nat}

theorem thrCmd_halted (h : (s.thrI g i).halted = true) (op idx : Nat) : s.thrCmd g i op idx = (match op with
    | 1 => s.thrGo g i
    | 2 => (s.thrUpd g i (fun x => { x with pc := (x.pc + 1) % 2 ^ 16 })).thrGo g i
    | 3 => (s.thrUpd g i (fun x => { x with pc := idx })).thrGo g i
    | 4 => s.thrRestart g i
    | _ => s) := by
  unfold State.thrCmd
  rw [h]
  rfl

theorem thrCmd_running (h : (s.thrI g i).halted = false) (op idx : Nat) : s.thrCmd g i op idx = s := by
  unfold State.thrCmd
  rw [h]
  rfl

theorem haltedRegSet_halted (h : (s.thrI g i).halted = true) (r : Nat) (pred : Bool) (v : Nat) : s.haltedRegSet g i r pred v =
    if pred then s.thrUpd g i (fun x => { x with preds := v % 256 / 2 * 2 }) else s.rgSet g i r v := by
  unfold State.haltedRegSet
  rw [h]
  rfl

theorem haltedRegSet_running (h : (s.thrI g i).halted = false) (r : Nat) (pred : Bool) (v : Nat) :
    s.haltedRegSet g i r pred v = s := by
  unfold State.haltedRegSet
  rw [h]
  rfl

theorem reclaim_halted {f : Nat} (h : (s.thrI g i).halted = true) (hf : ((s.thrI g i).resvIn f).isSome = true) : s.reclaim g i f =
    ((s.thrUpd g i (fun x => { x with lost := f :: x.lost })).dropResv g i (fun r => r.flue == f)).galCnt g 0x40 := by
  unfold State.reclaim
  refine if_pos ?_
  rw [h, hf]
  rfl

theorem reclaim_running (h : (s.thrI g i).halted = false) (f : Nat) : s.reclaim g i f = s := by
  unfold State.reclaim
  refine if_neg ?_
  rw [h]
  exact Bool.false_ne_true

end Commanded

/-- The thread THR_SEL names, by the arithmetic of its fields. -/
theorem selThr_eq (sel : Nat) : selThr sel = 8 * (sel / 16 % 8) + sel % 8 := by
  have hthr : bits sel 2 0 = sel % 8 := (bits_eq_div_mod sel 2 0).trans (congrArg (· % 8) (Nat.div_one sel))
  unfold selThr
  rw [hthr, bits_eq_div_mod]
  rfl

/-- Settles O25: each command is an MTS of the supervisor; whether its thread is halted decides its effect. -/
theorem supervisorCommandsActOnTheSelectedThread : Obligations.SupervisorCommandsActOnTheSelectedThread := by
  unfold Obligations.SupervisorCommandsActOnTheSelectedThread
  intro s d ra h0 g sel i v does
  have hsel : selThr (s.galI d.c.g.val).sel = i := selThr_eq sel
  have hcmd {c : Instr} {op : Nat} {u : State} (hc : exec c s = .next (s.engThrCmd d c ra op)) (hop : v % 8 = op)
      (hu : s.thrCmd g i op (bits v 31 16) = u) : does c u := fun hi => ⟨_, hc, engThrCmd_retires h0 hi hop (by rw [hsel]; exact hu)⟩
  have hreg {u : State} (hu : s.haltedRegSet g i (bits sel 12 8) (bitN sel 16) v = u) : does (.thrRegWrite d ra) u :=
    fun hi => ⟨_, rfl, eng_next hi ((mtsWrite_register h0 _).trans (congrArg (·, Ctl.next) ((congrArg (s.haltedRegSet g · _ _ v) hsel).trans hu)))⟩
  have hclaim {u : State} (hu : s.reclaim g i (v % 128) = u) : does (.reclaim d ra) u :=
    fun hi => ⟨_, rfl, eng_next hi (by rw [mtsWrite_reclaim h0, hsel]; exact congrArg (·, Ctl.next) hu)⟩
  refine ⟨fun hh => ⟨fun hv => hcmd rfl hv (thrCmd_halted hh ..), fun hv => hcmd rfl hv (thrCmd_halted hh ..), fun hv => ?_,
      fun hv => hcmd rfl hv (thrCmd_halted hh ..), fun hp => hreg ?_, fun hp => hreg ?_, fun hf => hclaim (reclaim_halted hh hf)⟩,
    fun hh => ⟨fun hv => hcmd rfl hv (thrCmd_running hh ..), fun hv => hcmd rfl hv (thrCmd_running hh ..),
      fun hv => hcmd rfl hv (thrCmd_running hh ..), fun hv => hcmd rfl hv (thrCmd_running hh ..), hreg (haltedRegSet_running hh ..),
      hclaim (reclaim_running hh _)⟩,
    fun hi => ⟨_, rfl, eng_next hi (mtsWrite_synth h0 _)⟩⟩
  · have hidx : v / 2 ^ 16 % 2 ^ 16 = bits v 31 16 := (bits_eq_div_mod v 31 16).symm
    rw [hidx]
    exact hcmd rfl hv (thrCmd_halted hh ..)
  · have hr : sel / 256 % 32 = bits sel 12 8 := (bits_eq_div_mod sel 12 8).symm
    rw [hr, haltedRegSet_halted hh]
    exact if_neg (Bool.eq_false_iff.mp hp)
  · rw [haltedRegSet_halted hh]
    exact if_pos hp

end Sys2Proof.Machine

namespace Sys2Proof.Machine

/-! ### Debug commands of the host (R324, R333) -/

/-- The written word of GAL_DBG_CTRL that names a thread and an operation. -/
def dbgValue (c : ThrId) (op : Nat) : Word := BitVec.ofNat 32 (c.e.val * 2 ^ 16 + c.t.val * 2 ^ 12 + op)

/-- GAL_DBG_CTRL once a thread is selected, over its old word. -/
def dbgSelected (old : Word) (c : ThrId) : Word :=
  putBits (putBits (putBits old 19 19 (bits old.toNat 19 19)) 18 16 c.e.val) 14 12 c.t.val

section Word
variable (c : ThrId) {op : Nat} (hop : op < 8)
include hop

theorem toNat_dbgValue : (dbgValue c op).toNat = c.e.val * 2 ^ 16 + c.t.val * 2 ^ 12 + op := by
  have he := c.e.isLt
  have ht := c.t.isLt
  rw [dbgValue, BitVec.toNat_ofNat, Nat.mod_eq_of_lt (by omega)]

theorem bits_dbgValue : bits (dbgValue c op).toNat 18 16 = c.e.val ∧ bits (dbgValue c op).toNat 14 12 = c.t.val
    ∧ bits (dbgValue c op).toNat 19 19 = 0 ∧ bits (dbgValue c op).toNat 2 0 = op := by
  have he := c.e.isLt
  have ht := c.t.isLt
  simp only [bits, toNat_dbgValue c hop, Nat.shiftRight_eq_div_pow]
  omega

end Word

/-- The row of GAL_DBG_CTRL. -/
def dbgRow : RegRow :=
  ⟨"GAL_DBG_CTRL", 0x20, [(8, 0x80000)], .w32, [rf 19 19 .w1c, rf 18 16 .rw, rf 14 12 .rw, rf 2 0 .sc]⟩

theorem regRow_dbgCtrl (g : Fin 8) : regRow (R.GAL_DBG_CTRL.at g.val).addr = some (dbgRow, [g.val]) := by
  decide +revert +kernel

/-- A host write of the row stores the thread it names and keeps DENIED (R11). -/
theorem merged_dbgRow (s : State) (ix : List Nat) (old : Word) (c : ThrId) {op : Nat} (hop : op < 8) :
    s.merged dbgRow ix old (dbgValue c op) = dbgSelected old c := by
  obtain ⟨he, ht, hd, -⟩ := bits_dbgValue c hop
  simp only [State.merged, dbgRow, List.foldl_cons, List.foldl_nil, rf, he, ht, hd, Nat.and_zero, Nat.sub_zero, dbgSelected]

section Selected
variable {s : State} {c : ThrId} {op : Nat}

/-- The host write of GAL_DBG_CTRL stores the thread it names and keeps DENIED. -/
theorem hostPut_dbgCtrl (hop : op < 8) : s.hostPut (R.GAL_DBG_CTRL.at c.g.val).addr (dbgValue c op) =
    s.wrw (R.GAL_DBG_CTRL.at c.g.val).addr (dbgSelected (s.rdw (R.GAL_DBG_CTRL.at c.g.val).addr) c) := by
  rw [State.hostPut, regRow_dbgCtrl]
  exact congrArg (s.wrw _) (merged_dbgRow s _ _ c hop)

theorem bits_dbgSelected (old : Word) (c : ThrId) : bits (dbgSelected old c).toNat 18 16 = c.e.val
    ∧ bits (dbgSelected old c).toNat 14 12 = c.t.val ∧ bits (dbgSelected old c).toNat 19 19 = bits old.toNat 19 19 := by
  have he := c.e.isLt
  have ht := c.t.isLt
  have hd := bits_lt old.toNat 19 19
  unfold dbgSelected
  refine ⟨?_, ?_, ?_⟩
  · rw [bits_putBits_disjoint _ _ _ _ _ _ (by decide) (by decide) (by decide), bits_putBits _ _ _ _ (by decide) (by decide)]
    exact Nat.mod_eq_of_lt he
  · rw [bits_putBits _ _ _ _ (by decide) (by decide)]
    exact Nat.mod_eq_of_lt ht
  · rw [bits_putBits_disjoint _ _ _ _ _ _ (by decide) (by decide) (by decide),
      bits_putBits_disjoint _ _ _ _ _ _ (by decide) (by decide) (by decide), bits_putBits _ _ _ _ (by decide) (by decide)]
    exact Nat.mod_eq_of_lt hd

/-- The state in which GAL_DBG_CTRL selects a thread. -/
def State.dbgSel (s : State) (c : ThrId) : State :=
  s.wrw (R.GAL_DBG_CTRL.at c.g.val).addr (dbgSelected (s.rdw (R.GAL_DBG_CTRL.at c.g.val).addr) c)

theorem dbgThr_dbgSel : (s.dbgSel c).dbgThr c.g.val = c.ix := by
  obtain ⟨he, ht, -⟩ := bits_dbgSelected (s.rdw (R.GAL_DBG_CTRL.at c.g.val).addr) c
  have heng : (s.dbgSel c).rd (F.GAL_DBG_CTRL_ENGINE.at c.g.val) = c.e.val := by
    have hw : (s.dbgSel c).rdw (F.GAL_DBG_CTRL_ENGINE.at c.g.val).addr = dbgSelected (s.rdw (R.GAL_DBG_CTRL.at c.g.val).addr) c :=
      (rdw_wrw ..).trans (if_pos rfl)
    rw [State.rd, hw]
    exact he
  have hthr : (s.dbgSel c).rd (F.GAL_DBG_CTRL_THREAD.at c.g.val) = c.t.val := by
    have hw : (s.dbgSel c).rdw (F.GAL_DBG_CTRL_THREAD.at c.g.val).addr = dbgSelected (s.rdw (R.GAL_DBG_CTRL.at c.g.val).addr) c :=
      (rdw_wrw ..).trans (if_pos rfl)
    rw [State.rd, hw]
    exact ht
  rw [State.dbgThr, heng, hthr, ThrId.ix]

/-- Selecting a thread leaves what permits its debugging. -/
theorem engDebug_dbgSel : (s.dbgSel c).engDebug = s.engDebug := by
  have hrd (f : Fld) (h : f.addr < 0x700000) : (s.dbgSel c).rd f = s.rd f :=
    rd_wrw_ne _ _ _ _ (by simp only [Reg.at, R.GAL_DBG_CTRL]; omega)
  have hon (f : Fld) (h : f.addr < 0x700000) : (s.dbgSel c).on f = s.on f := by rw [State.on, hrd f h, State.on]
  have hlc : (s.dbgSel c).lc = s.lc := hrd _ (by decide)
  simp only [State.engDebug, hlc, hon F.KPR_DBG_ENG_DBG_EN (by decide), hon F.KPR_STATUS_MAKER_DBG (by decide)]

theorem unitWrite_dbgCtrl (s : State) (ix : List Nat) (a : Nat) (v : Word) : s.unitWrite "GAL_DBG_CTRL" ix a v = none := by
  unfold State.unitWrite
  rfl

/-- What a write of GAL_DBG_CTRL starts. -/
theorem written_dbgCtrl (old s : State) (g a : Nat) (v : Word) (e : AclEnv) : State.written old s "GAL_DBG_CTRL" [g] a v e =
    if bits v.toNat 2 0 = 0 then s else s.dbgOp g (s.dbgThr g) (bits v.toNat 2 0) s.engDebug := by
  unfold State.written
  rfl

/-- A served write of GAL_DBG_CTRL selects the thread and does the operation. -/
theorem dbgWrite_serves (hs : s.serves (R.GAL_DBG_CTRL.at c.g.val).addr) (h0 : op ≠ 0) (hop : op < 8) :
    s.dbgWrite c op = (s.dbgSel c).dbgOp c.g.val c.ix op s.engDebug := by
  have hshape : wordShape (R.GAL_DBG_CTRL.at c.g.val).addr = some ("GAL_DBG_CTRL", [c.g.val], .w32) := by
    rw [wordShape, regRow_dbgCtrl]
    rfl
  have hput : s.hostPut (R.GAL_DBG_CTRL.at c.g.val).addr (dbgValue c op) = s.dbgSel c := hostPut_dbgCtrl hop
  obtain ⟨-, -, -, hbits⟩ := bits_dbgValue c hop
  refine (bar0Write_stores hs (by simp [State.fabGone]) hshape rfl (unitWrite_dbgCtrl ..) rfl _ (v := dbgValue c op)).trans ?_
  rw [written_dbgCtrl, hput, hbits, if_neg h0, dbgThr_dbgSel, engDebug_dbgSel]

end Selected

section Operations
variable {s : State} {g i : Nat}

theorem dbgOp_restart (allowed : Bool) : s.dbgOp g i 4 allowed = s.thrRestart g i := rfl

theorem dbgOp_denied {op : Nat} (h : op ≠ 4) : s.dbgOp g i op false = s.wr (F.GAL_DBG_CTRL_DENIED.at g) 1 := if_neg h

theorem dbgOp_halt (hh : (s.thrI g i).halted = false) (hr : (s.thrI g i).role ≠ 0) : s.dbgOp g i 1 true =
    ((s.dropWait g i).saTouch g i).thrUpd g i (fun x => { x with
      run := .haltD, haltAt := s.tb.up, leashed := [], step := false, was := match x.run with | .stall _ => .ready | r => r }) := by
  have hno : ¬((s.thrI g i).halted = true ∨ (s.thrI g i).role = 0) := by rw [hh]; simp [hr]
  exact if_neg hno

theorem dbgOp_step (hh : (s.thrI g i).run = .haltD) (hw : (s.thrI g i).was = .ready) : s.dbgOp g i 2 true =
    s.thrUpd g i (fun x => { x with run := .ready, step := true }) := if_pos ⟨hh, hw⟩

theorem dbgOp_resume (hh : (s.thrI g i).run = .haltD) : s.dbgOp g i 3 true = s.thrGo g i := if_pos hh

theorem dbgOp_running (hh : (s.thrI g i).run ≠ .haltD) : s.dbgOp g i 2 true = s ∧ s.dbgOp g i 3 true = s :=
  ⟨if_neg fun h => hh h.1, if_neg hh⟩

end Operations

/-- Settles O27: a served write selects the thread (`dbgWrite_serves`), and its operation is then done or denied. -/
theorem debugCommandsControlAThread : Obligations.DebugCommandsControlAThread := by
  unfold Obligations.DebugCommandsControlAThread
  intro s c g i a hs
  obtain ⟨he, ht, hd⟩ := bits_dbgSelected (s.rdw a) c
  refine ⟨dbgSelected (s.rdw a) c, he, ht, hd, ?_⟩
  intro u x
  have hop {op : Nat} (h0 : op ≠ 0) (h8 : op < 8) {allowed : Bool} (hal : s.engDebug = allowed) :
      s.dbgWrite c op = u.dbgOp g i op allowed := hal ▸ dbgWrite_serves hs h0 h8
  have hnext {op : Nat} {t : State} (h0 : op ≠ 0) (h8 : op < 8) {allowed : Bool} (hal : s.engDebug = allowed)
      (ht : u.dbgOp g i op allowed = t) : Host.Outcome.next (s.dbgWrite c op) = (.next t : Out1) :=
    congrArg _ ((hop h0 h8 hal).trans ht)
  refine ⟨fun hal => ⟨fun hh hr => hnext (by decide) (by decide) hal (dbgOp_halt hh hr),
      fun hh hw => hnext (by decide) (by decide) hal (dbgOp_step hh hw), fun hh => hnext (by decide) (by decide) hal (dbgOp_resume hh),
      fun hh => ⟨hnext (by decide) (by decide) hal (dbgOp_running hh).1, hnext (by decide) (by decide) hal (dbgOp_running hh).2⟩⟩,
    fun hal k hk => ?_, hnext (by decide) (by decide) rfl (dbgOp_restart _)⟩
  simp only [List.mem_cons, List.not_mem_nil, or_false] at hk
  rcases hk with rfl | rfl | rfl <;> exact hnext (by decide) (by decide) hal (dbgOp_denied (by decide))

end Sys2Proof.Machine

namespace Sys2Proof.Machine

/-! ### Scratch buffers (R336, R339, R342, R347) -/

section Scratch
variable {s u : State} {g i n : Nat} {t : Tok}

theorem gal_poolTake (u : State) (k m : Nat) : (u.poolTake k m).gal = u.gal := by
  unfold State.poolTake
  dsimp only
  rw [wr_gal, gal_cnt, wr_gal]

theorem gal_scrSet (s : State) (h m : Nat) : (s.scrSet h m).gal = s.gal := rfl

theorem gal_freeCell (s : State) (k : Nat) : (s.freeCell k).1.gal = s.gal := rfl

/-- Hoard's answer to an outstanding request, once its buffers are changed (R345). -/
theorem hrdAnswer_eq (hgal : u.gal = s.gal) (ht : (s.thrI g i).tok n = some t) (detail : Nat) :
    u.hrdAnswer g i n 0 detail = u.tokSet g i n (some { t with req := .hrd (some detail) }) := by
  unfold State.hrdAnswer
  rw [thrI_congr hgal, ht]
  simp only [Nat.zero_mul, Nat.zero_add]

/-- ALLOC from the gallery's own pool with a free cell. -/
theorem hrdAlloc_free (hc : s.scrCells (2 + g) ≠ 0) (hf : s.poolFree (2 + g) ≠ 0) : s.hrdAlloc g i n (2 + g) =
    (let c := s.freeCell (2 + g)
    (((c.1.scrSet c.2 1).cellZero c.2).poolTake (2 + g) 1).hrdAnswer g i n 0 c.2) := by
  unfold State.hrdAlloc
  rw [if_neg fun h => hc h.1, if_neg (not_not_intro rfl), if_neg hf]

section Handle
variable {h : Nat} (hok : s.handleOk h = true) (hk : h / 2 ^ 28 = 2 + g) (hr : s.scrRefs h ≠ 0)
include hok hk hr

/-- REF of an allocated cell of the gallery's own pool. -/
theorem hrdRef_counts (hmax : s.scrRefs h ≠ 255) :
    s.hrdRef g i n h = (s.scrSet h (s.scrRefs h + 1)).hrdAnswer g i n 0 (s.scrRefs h + 1) := by
  simp only [State.hrdRef, hok, hk, hr, hmax, Bool.not_true, Bool.false_eq_true, ne_eq, not_true_eq_false, if_false]

/-- FREE of one of several references. -/
theorem hrdFree_counts (hlast : s.scrRefs h ≠ 1) :
    s.hrdFree g i n h = (s.scrSet h (s.scrRefs h - 1)).hrdAnswer g i n 0 0 := by
  simp only [State.hrdFree, hok, hk, hr, hlast, Bool.not_true, Bool.false_eq_true, ne_eq, not_true_eq_false, if_false]

end Handle

end Scratch

/-- Settles O19: no change of a pool's cells touches a thread, so the request still stands when it is answered. -/
theorem hoardServesScratchRequests : Obligations.HoardServesScratchRequests := by
  unfold Obligations.HoardServesScratchRequests
  intro s g i n h t ht answer
  refine ⟨fun hc hf => ?_, fun hok hk hr => ⟨fun hmax => ?_, fun hlast => ?_⟩⟩
  · have hgal := gal_freeCell s (2 + g)
    rw [hrdAlloc_free hc hf]
    dsimp only [answer]
    generalize s.freeCell (2 + g) = c at hgal ⊢
    have hkept : (((c.1.scrSet c.2 1).cellZero c.2).poolTake (2 + g) 1).gal = s.gal := (gal_poolTake _ _ _).trans hgal
    exact hrdAnswer_eq hkept ht c.2
  · exact (hrdRef_counts hok hk hr hmax).trans (hrdAnswer_eq (gal_scrSet ..) ht _)
  · exact (hrdFree_counts hok hk hr hlast).trans (hrdAnswer_eq (gal_scrSet ..) ht _)

end Sys2Proof.Machine

namespace Sys2Proof.Machine

/-! ### Indirect commands (R382, R412, R437, R519) -/

/-- The host's store of a register changes registers only. -/
theorem hostPut_form (s : State) (a : Nat) (v : Word) : ∃ m, s.hostPut a v = { s with regs := m } := by
  unfold State.hostPut
  split
  · exact ⟨_, rfl⟩
  · exact ⟨s.regs, rfl⟩

theorem rdw_hostPut_ne (s : State) {a b : Nat} (v : Word) (h : b ≠ a) : (s.hostPut a v).rdw b = s.rdw b := by
  unfold State.hostPut
  split
  · rw [rdw_wrw, if_neg h]
  · rfl

theorem rd_hostPut_ne (s : State) {a : Nat} (v : Word) {f : Fld} (h : f.addr ≠ a) : (s.hostPut a v).rd f = s.rd f := by
  rw [State.rd, rdw_hostPut_ne s v h, State.rd]

theorem on_false {s : State} {f : Fld} (h : s.rd f = 0) : s.on f = false := by simp [State.on, h]

theorem on_true {s : State} {f : Fld} (h : s.rd f ≠ 0) : s.on f = true := by simp [State.on, h]

section Commands
variable {s : State}

/-- A served write of the IND_CMD of a block that is not busy stores its fields, and the command follows. -/
theorem bar0Write_indCmd {r : Reg} {busy ignored : Fld} {name : String} (h : s.takes r busy) (hf : s.fabGone name = false)
    (hw : wordShape r.addr = some (name, [], .w32)) (v : Word)
    (hb : s.writeBlocked name = if s.on busy then some (s.wr ignored 1) else none) (hun : s.unitWrite name [] r.addr v = none)
    (hin : s.inRange name [] (s.rdw r.addr) v = v) (e : AclEnv) :
    s.bar0Write r.addr v e = State.written s (s.hostPut r.addr v) name [] r.addr v e := by
  obtain ⟨hs, hbusy⟩ := h
  refine bar0Write_stores hs hf hw ?_ hun hin e
  rw [hb, on_false hbusy]
  rfl

theorem bar0Write_aclCmd (h : s.takes R.ACL_IND_CMD F.ACL_IND_STATUS_BUSY) (v : Word) (e : AclEnv) :
    s.bar0Write R.ACL_IND_CMD.addr v e = (let u := s.hostPut R.ACL_IND_CMD.addr v
      if bits v.toNat 2 0 = 0 then u else u.aclCmd (bits v.toNat 2 0) e) :=
  bar0Write_indCmd h (by simp [State.fabGone]) (name := "ACL_IND_CMD") (by decide +kernel) v rfl rfl rfl e

theorem bar0Write_queCmd (h : s.takes R.QUE_IND_CMD F.QUE_IND_STATUS_BUSY) (v : Word) :
    s.bar0Write R.QUE_IND_CMD.addr v = (let u := s.hostPut R.QUE_IND_CMD.addr v
      if bits v.toNat 2 0 = 0 then u else if bits v.toNat 2 0 = 1 then u.queWrite (bits v.toNat 25 8)
      else u.schCmd true (bits v.toNat 2 0) 0 (bits v.toNat 25 8)) :=
  bar0Write_indCmd h (by simp [State.fabGone]) (name := "QUE_IND_CMD") (by decide +kernel) v rfl rfl rfl _

theorem bar0Write_schCmd (h : s.takes R.SCH_IND_CMD F.SCH_IND_STATUS_BUSY) (v : Word) :
    s.bar0Write R.SCH_IND_CMD.addr v = (let u := s.hostPut R.SCH_IND_CMD.addr v
      if bits v.toNat 2 0 = 0 then u else u.schCmd false (bits v.toNat 2 0) (bits v.toNat 30 28) (bits v.toNat 27 12)) :=
  bar0Write_indCmd h (by simp [State.fabGone]) (name := "SCH_IND_CMD") (by decide +kernel) v rfl rfl rfl _

theorem bar0Write_shpCmd (h : s.takes R.SHP_IND_CMD F.SHP_IND_STATUS_BUSY) (v : Word) :
    s.bar0Write R.SHP_IND_CMD.addr v = (let u := s.hostPut R.SHP_IND_CMD.addr v
      if bits v.toNat 1 0 = 0 then u else u.shpCmd (bits v.toNat 1 0) (bits v.toNat 31 28) (bits v.toNat 27 8)) :=
  bar0Write_indCmd h (by simp [State.fabGone]) (name := "SHP_IND_CMD") (by decide +kernel) v rfl rfl rfl _

theorem bar0Write_gatCmd (h : s.takes R.GAT_IND_CMD F.GAT_IND_STATUS_BUSY) (v : Word) :
    s.bar0Write R.GAT_IND_CMD.addr v = (let u := s.hostPut R.GAT_IND_CMD.addr v
      if bits v.toNat 3 0 = 0 then u
      else u.gatCmd (bits v.toNat 3 0) (bits v.toNat 31 30) (bits v.toNat 29 14) (bits v.toNat 13 4)) :=
  bar0Write_indCmd h (by simp [State.fabGone]) (name := "GAT_IND_CMD") (by decide +kernel) v rfl rfl rfl _

theorem bar0Write_svyCmd (h : s.takes R.SVY_IND_CMD F.SVY_IND_STATUS_BUSY) (v : Word) :
    s.bar0Write R.SVY_IND_CMD.addr v = (let u := s.hostPut R.SVY_IND_CMD.addr v
      if bits v.toNat 2 0 = 0 then u else u.svyCmd (bits v.toNat 2 0) (bits v.toNat 27 12)) :=
  bar0Write_indCmd h (by simp [State.fabGone]) (name := "SVY_IND_CMD") (by decide +kernel) v rfl rfl rfl _

end Commands

section Undefined
variable {u : State} {op : Nat}

theorem aclCmd_undefined (hb : u.rd F.ACL_IND_STATUS_BUSY = 0) (hop : 6 ≤ op) (e : AclEnv) : u.aclCmd op e =
    if u.rd F.ACL_IND_CMD_SLICE_MASK = 0 then u.aclDone 2 else u.draw.2.aclDone (u.draw.1.toNat % 8) := by
  obtain ⟨k, rfl⟩ := Nat.exists_eq_add_of_le' hop
  unfold State.aclCmd
  rw [on_false hb]
  rfl

theorem schCmd_undefined {que : Bool} {l i : Nat} (hb : u.schBusy que = false) (hi : i < schCount l) (hl : que = true ∨ l ≠ 0)
    (hop : 5 ≤ op) : u.schCmd que op l i = u.schDone que 7 := by
  have hok : ¬(schCount l ≤ i ∨ ((!que) = true ∧ l = 0)) := by
    rintro (h | ⟨hq, h0⟩)
    · omega
    · rcases hl with rfl | h
      · cases hq
      · exact h h0
  obtain ⟨k, rfl⟩ := Nat.exists_eq_add_of_le' hop
  unfold State.schCmd
  rw [hb, if_neg Bool.false_ne_true, if_neg hok]
  rfl

theorem gatCmd_list {sp i j : Nat} (hb : u.rd F.GAT_IND_STATUS_BUSY = 0) (hsp : sp < 2) : u.gatCmd op sp i j = u.gatList op sp i j := by
  unfold State.gatCmd
  rw [on_false hb, if_neg Bool.false_ne_true, if_neg (by omega), if_neg (by omega)]

theorem gatCmd_context {sp i j : Nat} (hb : u.rd F.GAT_IND_STATUS_BUSY = 0) (hsp : sp = 2) :
    u.gatCmd op sp i j = u.gatContext op i := by
  unfold State.gatCmd
  rw [on_false hb, if_neg Bool.false_ne_true, if_neg (by omega), if_pos hsp]

theorem gatList_undefined {sp i j : Nat} (hi : gatIndexOk sp i 0 false = true) (hop : 9 ≤ op) : u.gatList op sp i j = u.gatDone 5 := by
  have hix : gatIndexOk sp i j false = gatIndexOk sp i 0 false := by
    unfold gatIndexOk
    simp only [Bool.not_false, Bool.true_or]
  obtain ⟨k, rfl⟩ := Nat.exists_eq_add_of_le' hop
  unfold State.gatList
  have hentry : (k + 9 == 1 || k + 9 == 2 || k + 9 == 3) = false := by simp
  simp only [hentry, hix, hi, Bool.not_true, Bool.false_eq_true, if_false]

theorem gatContext_undefined {i : Nat} (h : op ∉ [0, 1, 2, 9, 10]) : u.gatContext op i = u.gatDone 5 := by
  simp only [List.mem_cons, List.not_mem_nil, or_false, not_or] at h
  obtain ⟨h0, h1, h2, h9, h10⟩ := h
  unfold State.gatContext
  split
  case h_1 | h_2 | h_3 | h_4 => contradiction
  case h_5 => rfl

theorem svyCmd_undefined {i : Nat} (hop : 5 ≤ op) : u.svyCmd op i = u.svyDone 1 := by
  obtain ⟨k, rfl⟩ := Nat.exists_eq_add_of_le' hop
  rfl

end Undefined

/-- The block of an IND_CMD register that was stored is still not busy. -/
theorem rd_busy_hostPut {s : State} {r : Reg} {busy : Fld} (h : s.takes r busy) (hne : busy.addr ≠ r.addr) (v : Word) :
    (s.hostPut r.addr v).rd busy = 0 := (rd_hostPut_ne s v hne).trans h.2

/-- Settles O33: a served write of IND_CMD runs its command, whose last case is the undefined operation. -/
theorem undefinedIndirectOpsCompleteWithBadArg : Obligations.UndefinedIndirectOpsCompleteWithBadArg := by
  unfold Obligations.UndefinedIndirectOpsCompleteWithBadArg
  intro s v put
  have hexec (b : IndBlock) : exec (.indCmdBadOp b v) s = .next (s.bar0Write (indReg b).addr v) := rfl
  have hnz {hi n : Nat} (h : n < bits v.toNat hi 0) : bits v.toNat hi 0 ≠ 0 := by omega
  simp only [hexec, indReg]
  refine ⟨fun h hop => ?_, fun h hop hi => ?_, fun h hop hl hj => ?_, fun h => ⟨fun hsp hop hi => ?_, fun hsp hop => ?_⟩,
    fun h hop => ?_⟩
  · have hcmd := aclCmd_undefined (rd_busy_hostPut h (by decide) v) hop .clean
    rw [bar0Write_aclCmd h]
    simp only [if_neg (hnz hop)]
    rw [hcmd]
    exact ⟨fun hm => congrArg _ (if_pos hm), fun hm => congrArg _ (if_neg hm)⟩
  · have h1 : bits v.toNat 2 0 ≠ 1 := by omega
    rw [bar0Write_queCmd h]
    simp only [if_neg (hnz hop), if_neg h1]
    exact congrArg _ (schCmd_undefined (on_false (rd_busy_hostPut h (by decide) v)) hi (.inl rfl) hop)
  · rw [bar0Write_schCmd h]
    simp only [if_neg (hnz hop)]
    exact congrArg _ (schCmd_undefined (on_false (rd_busy_hostPut h (by decide) v)) hj (.inr hl) hop)
  · rw [bar0Write_gatCmd h]
    simp only [if_neg (hnz hop)]
    rw [gatCmd_list (rd_busy_hostPut h (by decide) v) hsp]
    exact congrArg _ (gatList_undefined hi hop)
  · have h0 : bits v.toNat 3 0 ≠ 0 := fun h0 => hop (by rw [h0]; decide)
    rw [bar0Write_gatCmd h]
    simp only [if_neg h0]
    rw [gatCmd_context (rd_busy_hostPut h (by decide) v) hsp]
    exact congrArg _ (gatContext_undefined hop)
  · rw [bar0Write_svyCmd h]
    simp only [if_neg (hnz hop)]
    exact congrArg _ (svyCmd_undefined hop)

end Sys2Proof.Machine

namespace Sys2Proof.Machine

/-! ### Submitted operations: the command a block's IND_CMD starts (R382, R412) -/

section Submitted
variable {s : State}

theorem cmdPut_form (s : State) (r : Reg) (v : Word) (hi op : Nat) : ∃ m, s.cmdPut r v hi op = { s with regs := m } :=
  hostPut_form s r.addr (putBits v hi 0 op)

theorem rd_busy_cmdPut {r : Reg} {busy : Fld} (h : s.takes r busy) (hne : busy.addr ≠ r.addr) (v : Word) (hi op : Nat) :
    (s.cmdPut r v hi op).rd busy = 0 := rd_busy_hostPut h hne (putBits v hi 0 op)

/-- The operation field of a submitted command. -/
theorem bits_submitted (v : Word) {hi op : Nat} (hop : op < 2 ^ (hi + 1)) (hhi : hi < 32) :
    bits (putBits v hi 0 op).toNat hi 0 = op := by
  rw [bits_putBits v hi 0 op (Nat.zero_le _) hhi, Nat.sub_zero, Nat.mod_eq_of_lt hop]

/-- The other fields of a submitted command. -/
theorem bits_submitted_above (v : Word) {hi : Nat} (op : Nat) {hi' lo' : Nat} (hhi : hi < 32) (h : hi < lo') :
    bits (putBits v hi 0 op).toNat hi' lo' = bits v.toNat hi' lo' :=
  bits_putBits_disjoint v hi 0 op hi' lo' (Nat.zero_le _) hhi (.inr h)

theorem indWrite_queWrite (h : s.takes R.QUE_IND_CMD F.QUE_IND_STATUS_BUSY) (v : Word) :
    s.indWrite R.QUE_IND_CMD v 2 1 = (s.cmdPut R.QUE_IND_CMD v 2 1).queWrite (bits v.toNat 25 8) := by
  rw [State.indWrite, bar0Write_queCmd h]
  simp only [bits_submitted v (hi := 2) (op := 1) (by decide) (by decide), bits_submitted_above v 1 (hi := 2) (hi' := 25)
    (lo' := 8) (by decide) (by decide), if_neg Nat.one_ne_zero, if_true]
  rfl

theorem indWrite_que (h : s.takes R.QUE_IND_CMD F.QUE_IND_STATUS_BUSY) (v : Word) {op : Nat} (h1 : 1 < op) (hop : op < 8) :
    s.indWrite R.QUE_IND_CMD v 2 op = (s.cmdPut R.QUE_IND_CMD v 2 op).schCmd true op 0 (bits v.toNat 25 8) := by
  have hne0 : op ≠ 0 := by omega
  have hne1 : op ≠ 1 := by omega
  rw [State.indWrite, bar0Write_queCmd h]
  simp only [bits_submitted v (hi := 2) hop (by decide), bits_submitted_above v op (hi := 2) (hi' := 25) (lo' := 8) (by decide)
    (by decide), if_neg hne0, if_neg hne1]
  rfl

theorem indWrite_sch (h : s.takes R.SCH_IND_CMD F.SCH_IND_STATUS_BUSY) (v : Word) {op : Nat} (h0 : op ≠ 0) (hop : op < 8) :
    s.indWrite R.SCH_IND_CMD v 2 op =
      (s.cmdPut R.SCH_IND_CMD v 2 op).schCmd false op (bits v.toNat 30 28) (bits v.toNat 27 12) := by
  rw [State.indWrite, bar0Write_schCmd h]
  simp only [bits_submitted v (hi := 2) hop (by decide), bits_submitted_above v op (hi := 2) (hi' := 30) (lo' := 28) (by decide)
    (by decide), bits_submitted_above v op (hi := 2) (hi' := 27) (lo' := 12) (by decide) (by decide), if_neg h0]
  rfl

theorem indWrite_shp (h : s.takes R.SHP_IND_CMD F.SHP_IND_STATUS_BUSY) (v : Word) {op : Nat} (h0 : op ≠ 0) (hop : op < 4) :
    s.indWrite R.SHP_IND_CMD v 1 op =
      (s.cmdPut R.SHP_IND_CMD v 1 op).shpCmd op (bits v.toNat 31 28) (bits v.toNat 27 8) := by
  rw [State.indWrite, bar0Write_shpCmd h]
  simp only [bits_submitted v (hi := 1) hop (by decide), bits_submitted_above v op (hi := 1) (hi' := 31) (lo' := 28) (by decide)
    (by decide), bits_submitted_above v op (hi := 1) (hi' := 27) (lo' := 8) (by decide) (by decide), if_neg h0]
  rfl

theorem indWrite_gat (h : s.takes R.GAT_IND_CMD F.GAT_IND_STATUS_BUSY) (v : Word) {op : Nat} (h0 : op ≠ 0) (hop : op < 16) :
    s.indWrite R.GAT_IND_CMD v 3 op =
      (s.cmdPut R.GAT_IND_CMD v 3 op).gatCmd op (bits v.toNat 31 30) (bits v.toNat 29 14) (bits v.toNat 13 4) := by
  rw [State.indWrite, bar0Write_gatCmd h]
  simp only [bits_submitted v (hi := 3) hop (by decide), bits_submitted_above v op (hi := 3) (hi' := 31) (lo' := 30) (by decide)
    (by decide), bits_submitted_above v op (hi := 3) (hi' := 29) (lo' := 14) (by decide) (by decide),
    bits_submitted_above v op (hi := 3) (hi' := 13) (lo' := 4) (by decide) (by decide), if_neg h0]
  rfl

theorem indWrite_svy (h : s.takes R.SVY_IND_CMD F.SVY_IND_STATUS_BUSY) (v : Word) {op : Nat} (h0 : op ≠ 0) (hop : op < 8) :
    s.indWrite R.SVY_IND_CMD v 2 op = (s.cmdPut R.SVY_IND_CMD v 2 op).svyCmd op (bits v.toNat 27 12) := by
  rw [State.indWrite, bar0Write_svyCmd h]
  simp only [bits_submitted v (hi := 2) hop (by decide), bits_submitted_above v op (hi := 2) (hi' := 27) (lo' := 12) (by decide)
    (by decide), if_neg h0]
  rfl

end Submitted

/-! ### The operations of QUE, SCH and SHP (R376, R380–R382, R409) -/

section Operations
variable {u : State}

/-- A command of a block that is not busy, on an entry that exists, is its operation. -/
theorem schCmd_op {que : Bool} {l i : Nat} (hb : u.schBusy que = false) (hi : i < schCount l) (hl : que = true ∨ l ≠ 0)
    (op : Nat) : u.schCmd que op l i = match op with
    | 1 => u.schWrite l i
    | 2 => (u.schShow l (u.schWords l i)).schDone que 0
    | 3 => if que then u.queFlush i else u.schRebuild l i
    | 4 => u.schReadCnt l i
    | _ => u.schDone que 7 := by
  have hok : ¬(schCount l ≤ i ∨ ((!que) = true ∧ l = 0)) := by
    rintro (h | ⟨hq, h0⟩)
    · omega
    · rcases hl with rfl | h
      · cases hq
      · exact h h0
  exact (if_neg (by rw [hb]; decide)).trans (if_neg hok)

/-- A refused WRITE completes with its code. -/
theorem schWrite_refused {l i e : Nat} (he : u.schRefuse l i { u.sent l i with
      w0 := (schClean l (u.schW l 0) (u.schW l 1) (u.schW l 2)).1
      w1 := (schClean l (u.schW l 0) (u.schW l 1) (u.schW l 2)).2.1
      w2 := (schClean l (u.schW l 0) (u.schW l 1) (u.schW l 2)).2.2 } = e) (h0 : e ≠ 0) :
    u.schWrite l i = u.schDone (l == 0) e := by
  unfold State.schWrite
  dsimp only
  rw [he]
  split
  · exact absurd rfl h0
  · rfl

/-- A WRITE that nothing refuses stores the writable bits and brings the entry and its parents up to date. -/
theorem schWrite_stored {l i : Nat} (he : u.schRefuse l i { u.sent l i with
      w0 := (schClean l (u.schW l 0) (u.schW l 1) (u.schW l 2)).1
      w1 := (schClean l (u.schW l 0) (u.schW l 1) (u.schW l 2)).2.1
      w2 := (schClean l (u.schW l 0) (u.schW l 1) (u.schW l 2)).2.2 } = 0) :
    u.schWrite l i = (
      let c := schClean l (u.schW l 0) (u.schW l 1) (u.schW l 2)
      let old := u.sent l i
      let new : SEnt := { old with w0 := c.1, w1 := c.2.1, w2 := c.2.2 }
      let a := if l < 6 ∧ old.parent ≠ new.parent then (u.schLeave l i).schUpdate (l + 1) old.parent else u
      let d := a.sentUpd l i (fun e => { e with w0 := c.1, w1 := c.2.1, w2 := c.2.2 })
      let e := if l < 6 ∧ new.en then d.schAttach (l + 1) new.parent else d
      (e.schUpdate l i).schDone (l == 0) 0) := by
  unfold State.schWrite
  dsimp only
  rw [he]
  rfl

theorem rd_err_schDone (u : State) {e : Nat} (he : e < 8) : (u.schDone true e).rd F.QUE_IND_STATUS_ERR = e := by
  have hdone : (u.schDone true e).rd F.QUE_IND_STATUS_ERR = ((u.wr F.QUE_IND_CMD_OP 0).wr F.QUE_IND_STATUS_ERR e).rd F.QUE_IND_STATUS_ERR :=
    (rd_wr_apart _ _ _ _ (by decide)).trans (rd_wr_apart _ _ _ _ (by decide))
  rw [hdone, rd_wr_same _ _ _ (by decide)]
  exact Nat.mod_eq_of_lt he

/-- A QUE WRITE that the write of the entry refuses leaves RESV. -/
theorem queWrite_refused {i e : Nat} (hb : u.schBusy true = false) (hi : i < schCount 0)
    (hw : u.schWrite 0 i = u.schDone true e) (h0 : e ≠ 0) (he : e < 8) : u.queWrite i = u.schDone true e := by
  have ht : u.schCmd true 1 0 i = u.schDone true e := (schCmd_op hb hi (.inl rfl) 1).trans hw
  have hgo : (u.schBusy true || decide (schCount 0 ≤ i)) = false := by
    simp only [hb, Bool.false_or, decide_eq_false_iff_not]
    omega
  have herr : (u.schDone true e).rd F.QUE_IND_STATUS_ERR ≠ 0 := by rw [rd_err_schDone u he]; exact h0
  unfold State.queWrite
  rw [hgo, if_neg Bool.false_ne_true]
  dsimp only
  rw [ht, if_pos herr]

theorem queFlush_suspended {q : Nat} (h : (u.sent 0 q).susp = true) :
    u.queFlush q = ({ u with sq := { u.sq with flush := some q } }).wr F.QUE_IND_STATUS_BUSY 1 := by
  unfold State.queFlush
  rw [h, Bool.not_true, if_neg Bool.false_ne_true]

theorem queFlush_refused {q : Nat} (h : (u.sent 0 q).susp = false) : u.queFlush q = u.schDone true 2 := by
  unfold State.queFlush
  rw [h, Bool.not_false, if_pos rfl]

theorem schRebuild_suspended {l i : Nat} (h : (u.sent l i).susp = true) :
    u.schRebuild l i = ({ u with sq := { u.sq with rebuild := some (sk l i) } }).wr F.SCH_IND_STATUS_BUSY 1 := by
  unfold State.schRebuild
  rw [h, Bool.not_true, if_neg Bool.false_ne_true]

theorem schRebuild_refused {l i : Nat} (h : (u.sent l i).susp = false) : u.schRebuild l i = u.schDone false 2 := by
  unfold State.schRebuild
  rw [h, Bool.not_false, if_pos rfl]

theorem queFlushed_drops {k : Nat} (h : u.sq.flush = some k) : u.queFlushed =
    (let t := foldS (u.queueOf k) (fun x s => (s.entryDrop k x).cnt R.QUE_CNT 8)
        ({ u with sq := { u.sq with flush := none } }.queuePut k []);
      ((t.voqTouch (t.l5Of k)).schUpdate 0 k).schDone true 0) := by
  unfold State.queFlushed
  rw [h]

theorem rebuilt_takes {k : Nat} (h : u.sq.rebuild = some k) : u.rebuilt =
    (let lv := k / 2 ^ 18
      let kids := u.childrenOf lv (k % 2 ^ 18)
      let a := foldS kids (fun c s => s.sentUpd (lv - 1) c (fun e => { e with lev := none, f := 0, flast := 0, d := 0 }))
        { u with sq := { u.sq with rebuild := none } }
      let b := a.sentUpd lv (k % 2 ^ 18) (fun e => { e with lv := [], disc := discOf kids.length })
      (foldS kids (fun c s => s.schUpdate (lv - 1) c) b).schDone false 0) := by
  unfold State.rebuilt
  rw [h]

theorem shpCmd_noIndex {op t i : Nat} (hb : u.rd F.SHP_IND_STATUS_BUSY = 0) (hi : shpIndexOk t i = false) :
    u.shpCmd op t i = u.shpDone 1 := by
  unfold State.shpCmd
  rw [on_false hb, if_neg Bool.false_ne_true, hi, Bool.not_false, if_pos rfl]

/-- An SHP command of a shaper that exists is its operation. -/
theorem shpCmd_op {t i : Nat} (hb : u.rd F.SHP_IND_STATUS_BUSY = 0) (hi : shpIndexOk t i = true) (op : Nat) :
    u.shpCmd op t i = (
      let k := shpKey t i
      let x := u.shpNow (u.shpI k)
      match op with
      | 1 => if shpBad t (u.shpW 0) (u.shpW 1) (bits (u.shpW 2) 7 0) (bits (u.shpW 3) 2 1) then u.shpDone 2 else
        (((u.shpPut k { x with
          cir := u.shpW 0, pir := u.shpW 1, cbs := bits (u.shpW 2) 31 8, adj := bits (u.shpW 2) 7 0, pbs := bits (u.shpW 3) 31 8
          aware := decide (t = 8) && bitN (u.shpW 3) 3, mode := if t = 8 then bits (u.shpW 3) 2 1 else 0
          en := decide (t = 7) && bitN (u.shpW 3) 0 }).shpNote k).shaperSync k).shpDone 0
      | 2 => (foldS (List.range 8) (fun j s => s.wrr (R.SHP_IND_DATA.at j) ((s.shpWords t x).getD j 0))
          ((u.shpPut k x).shaperSync k)).shpDone 0
      | 3 => ((u.shpPut k (u.shpFull x)).shaperSync k).shpDone 0
      | _ => u.shpDone 2) := by
  exact (if_neg (by rw [on_false hb]; decide)).trans (if_neg (by rw [hi]; decide))

end Operations

theorem unitWrite_sojSel (s : State) (a : Nat) (v : Word) :
    s.unitWrite "SHP_SOJ_SEL" [] a v = some (s.sojSel (bitN v.toNat 31) (bits v.toNat 17 0)) := by
  unfold State.unitWrite
  rfl

theorem bar0Write_sojSel {s : State} (h : s.serves R.SHP_SOJ_SEL.addr) (v : Word) :
    s.bar0Write R.SHP_SOJ_SEL.addr v = s.sojSel (bitN v.toNat 31) (bits v.toNat 17 0) :=
  bar0Write_taken h (by simp [State.fabGone]) (name := "SHP_SOJ_SEL") (by decide +kernel) rfl (unitWrite_sojSel s _ v) _

section Clauses
variable {s : State} {v : Word}

theorem queueCommands (h : s.takes R.QUE_IND_CMD F.QUE_IND_STATUS_BUSY) (hi : bits v.toNat 25 8 < 262144) :
    let q (op : Nat) : State := s.cmdPut R.QUE_IND_CMD v 2 op
    let i := bits v.toNat 25 8
    exec (.queRead v) s = .next (((q 2).schShow 0 ((q 2).schWords 0 i)).schDone true 0)
      ∧ ((s.sent 0 i).susp = true → exec (.queFlush v) s =
        .next (({ q 3 with sq := { s.sq with flush := some i } }).wr F.QUE_IND_STATUS_BUSY 1))
      ∧ ((s.sent 0 i).susp = false → exec (.queFlush v) s = .next ((q 3).schDone true 2))
      ∧ exec (.queReadCnt v) s = .next ((q 4).schReadCnt 0 i)
      ∧ exec (.queWrite v) s = .next ((q 1).queWrite i)
      ∧ ((q 1).schRefuse 0 i { s.sent 0 i with
            w0 := (schClean 0 ((q 1).schW 0 0) ((q 1).schW 0 1) ((q 1).schW 0 2)).1
            w1 := (schClean 0 ((q 1).schW 0 0) ((q 1).schW 0 1) ((q 1).schW 0 2)).2.1
            w2 := (schClean 0 ((q 1).schW 0 0) ((q 1).schW 0 1) ((q 1).schW 0 2)).2.2 } = 2 →
        exec (.queWrite v) s = .next ((q 1).schDone true 2)) := by
  intro q i
  have hexec (op : Nat) (h1 : 1 < op) (h8 : op < 8) := indWrite_que h v h1 h8
  have hb (op : Nat) : (q op).schBusy true = false := on_false (rd_busy_cmdPut h (by decide) v 2 op)
  have hop (op : Nat) := schCmd_op (l := 0) (hb op) hi (.inl rfl) op
  have hform (op : Nat) : ∃ m, q op = { s with regs := m } := cmdPut_form s _ v 2 op
  have hsent (op : Nat) : (q op).sent 0 i = s.sent 0 i := by obtain ⟨m, hm⟩ := hform op; rw [hm]; rfl
  have hsq (op : Nat) : (q op).sq = s.sq := by obtain ⟨m, hm⟩ := hform op; rw [hm]
  have hwr : exec (.queWrite v) s = .next ((q 1).queWrite i) := congrArg Host.Outcome.next (indWrite_queWrite h v)
  refine ⟨congrArg Host.Outcome.next ((hexec 2 (by decide) (by decide)).trans (hop 2)), fun hs => ?_, fun hs => ?_,
    congrArg Host.Outcome.next ((hexec 4 (by decide) (by decide)).trans (hop 4)), hwr, fun hr => ?_⟩
  · have hf := queFlush_suspended ((congrArg SEnt.susp (hsent 3)).trans hs)
    rw [hsq 3] at hf
    exact congrArg Host.Outcome.next ((hexec 3 (by decide) (by decide)).trans ((hop 3).trans hf))
  · have hf := queFlush_refused ((congrArg SEnt.susp (hsent 3)).trans hs)
    exact congrArg Host.Outcome.next ((hexec 3 (by decide) (by decide)).trans ((hop 3).trans hf))
  · rw [← hsent 1] at hr
    exact hwr.trans (congrArg Host.Outcome.next (queWrite_refused (hb 1) hi (schWrite_refused hr (by decide)) (by decide) (by decide)))

theorem nodeCommands (h : s.takes R.SCH_IND_CMD F.SCH_IND_STATUS_BUSY) (hj : bits v.toNat 27 12 < schCount (bits v.toNat 30 28))
    (hl : bits v.toNat 30 28 ≠ 0) :
    let n (op : Nat) : State := s.cmdPut R.SCH_IND_CMD v 2 op
    let j := bits v.toNat 27 12
    let l := bits v.toNat 30 28
    exec (.schRead v) s = .next (((n 2).schShow l ((n 2).schWords l j)).schDone false 0)
      ∧ ((s.sent l j).susp = true → exec (.schRebuild v) s =
        .next (({ n 3 with sq := { s.sq with rebuild := some (sk l j) } }).wr F.SCH_IND_STATUS_BUSY 1))
      ∧ ((s.sent l j).susp = false → exec (.schRebuild v) s = .next ((n 3).schDone false 2))
      ∧ exec (.schReadCnt v) s = .next ((n 4).schReadCnt l j)
      ∧ (let u := n 1
        let c := schClean l (u.schW l 0) (u.schW l 1) (u.schW l 2)
        let old := u.sent l j
        let new : SEnt := { old with w0 := c.1, w1 := c.2.1, w2 := c.2.2 }
        (u.schRefuse l j new ≠ 0 → exec (.schWrite v) s = .next (u.schDone false (u.schRefuse l j new)))
        ∧ (u.schRefuse l j new = 0 →
          let a := if l < 6 ∧ old.parent ≠ new.parent then (u.schLeave l j).schUpdate (l + 1) old.parent else u
          let d := a.sentUpd l j (fun e => { e with w0 := c.1, w1 := c.2.1, w2 := c.2.2 })
          let e := if l < 6 ∧ new.en then d.schAttach (l + 1) new.parent else d
          exec (.schWrite v) s = .next ((e.schUpdate l j).schDone false 0))) := by
  intro n j l
  have hexec (op : Nat) (h0 : op ≠ 0) (h8 : op < 8) := indWrite_sch h v h0 h8
  have hb (op : Nat) : (n op).schBusy false = false := on_false (rd_busy_cmdPut h (by decide) v 2 op)
  have hop (op : Nat) := schCmd_op (l := l) (hb op) hj (.inr hl) op
  have hform (op : Nat) : ∃ m, n op = { s with regs := m } := cmdPut_form s _ v 2 op
  have hsent (op : Nat) : (n op).sent l j = s.sent l j := by obtain ⟨m, hm⟩ := hform op; rw [hm]; rfl
  have hsq (op : Nat) : (n op).sq = s.sq := by obtain ⟨m, hm⟩ := hform op; rw [hm]
  have hl0 : (l == 0) = false := by simpa using hl
  have hwr : exec (.schWrite v) s = .next ((n 1).schWrite l j) :=
    congrArg Host.Outcome.next ((hexec 1 (by decide) (by decide)).trans (hop 1))
  refine ⟨congrArg Host.Outcome.next ((hexec 2 (by decide) (by decide)).trans (hop 2)), fun hs => ?_, fun hs => ?_,
    congrArg Host.Outcome.next ((hexec 4 (by decide) (by decide)).trans (hop 4)), ?_⟩
  · have hf := schRebuild_suspended ((congrArg SEnt.susp (hsent 3)).trans hs)
    rw [hsq 3] at hf
    exact congrArg Host.Outcome.next ((hexec 3 (by decide) (by decide)).trans ((hop 3).trans hf))
  · have hf := schRebuild_refused ((congrArg SEnt.susp (hsent 3)).trans hs)
    exact congrArg Host.Outcome.next ((hexec 3 (by decide) (by decide)).trans ((hop 3).trans hf))
  · intro u c old new
    rw [hwr]
    refine ⟨fun hr => ?_, fun hr => ?_⟩
    · exact congrArg Host.Outcome.next ((schWrite_refused rfl hr).trans (by rw [hl0]))
    · intro a d e
      exact congrArg Host.Outcome.next ((schWrite_stored hr).trans (by rw [hl0]))

theorem shaperCommands (h : s.takes R.SHP_IND_CMD F.SHP_IND_STATUS_BUSY) :
      let t := bits v.toNat 31 28
      let m := bits v.toNat 27 8
      let k := shpKey t m
      let p (op : Nat) : State := s.cmdPut R.SHP_IND_CMD v 1 op;
      (shpIndexOk t m = false → ∀ x ∈ [(Instr.shpWrite v, 1), (.shpRead v, 2), (.shpInit v, 3)], exec x.1 s = .next ((p x.2).shpDone 1))
      ∧ (shpIndexOk t m = true →
        (let u := p 1;
          shpBad t (u.shpW 0) (u.shpW 1) (bits (u.shpW 2) 7 0) (bits (u.shpW 3) 2 1) = true → exec (.shpWrite v) s = .next (u.shpDone 2))
        ∧ (let u := p 1;
          t < 7 → shpBad t (u.shpW 0) (u.shpW 1) (bits (u.shpW 2) 7 0) (bits (u.shpW 3) 2 1) = false →
            exec (.shpWrite v) s = .next ((((u.shpPut k { u.shpNow (u.shpI k) with
              cir := u.shpW 0, pir := u.shpW 1,
              cbs := bits (u.shpW 2) 31 8, adj := bits (u.shpW 2) 7 0, pbs := bits (u.shpW 3) 31 8, aware := false, mode := 0,
              en := false }).shpNote k).shaperSync k).shpDone 0))
        ∧ (let u := ((p 2).shpPut k ((p 2).shpNow ((p 2).shpI k))).shaperSync k
          exec (.shpRead v) s = .next ((foldS (List.range 8) (fun j s => s.wrr (R.SHP_IND_DATA.at j)
            ((s.shpWords t ((p 2).shpNow ((p 2).shpI k))).getD j 0)) u).shpDone 0))
        ∧ exec (.shpInit v) s = .next ((((p 3).shpPut k ((p 3).shpFull ((p 3).shpNow ((p 3).shpI k)))).shaperSync k).shpDone 0)) := by
  intro t m k p
  have hexec (op : Nat) (h0 : op ≠ 0) (h4 : op < 4) := indWrite_shp h v h0 h4
  have hb (op : Nat) : (p op).rd F.SHP_IND_STATUS_BUSY = 0 := rd_busy_cmdPut h (by decide) v 1 op
  refine ⟨fun hi x hx => ?_, fun hi => ⟨?_, ?_, ?_, ?_⟩⟩
  · have hno (op : Nat) (h0 : op ≠ 0) (h4 : op < 4) : s.indWrite R.SHP_IND_CMD v 1 op = (p op).shpDone 1 :=
      (hexec op h0 h4).trans (shpCmd_noIndex (hb op) hi)
    simp only [List.mem_cons, List.not_mem_nil, or_false] at hx
    obtain rfl | rfl | rfl := hx
    · exact congrArg Host.Outcome.next (hno 1 (by decide) (by decide))
    · exact congrArg Host.Outcome.next (hno 2 (by decide) (by decide))
    · exact congrArg Host.Outcome.next (hno 3 (by decide) (by decide))
  · intro u hbad
    exact congrArg Host.Outcome.next ((hexec 1 (by decide) (by decide)).trans ((shpCmd_op (hb 1) hi 1).trans (if_pos hbad)))
  · intro u ht hok
    have h8 : t ≠ 8 := by omega
    have h7 : t ≠ 7 := by omega
    have hw := (shpCmd_op (hb 1) hi 1).trans (if_neg (by rw [hok]; exact Bool.false_ne_true))
    simp only [h8, h7, decide_false, Bool.false_and, if_false] at hw
    exact congrArg Host.Outcome.next ((hexec 1 (by decide) (by decide)).trans hw)
  · exact congrArg Host.Outcome.next ((hexec 2 (by decide) (by decide)).trans (shpCmd_op (hb 2) hi 2))
  · exact congrArg Host.Outcome.next ((hexec 3 (by decide) (by decide)).trans (shpCmd_op (hb 3) hi 3))

end Clauses

/-- Settles O48: each served command is its block's operation on the state with IND_CMD stored. -/
theorem queueNodeAndShaperCommandsFollowTheirRules : Obligations.QueueNodeAndShaperCommandsFollowTheirRules := by
  unfold Obligations.QueueNodeAndShaperCommandsFollowTheirRules
  intro s v q n i j l
  refine ⟨fun h hi => queueCommands h hi, fun h hj hl => nodeCommands h hj hl, fun k hk => ?_, fun k hk => ?_,
    fun h => shaperCommands h, fun h => ?_⟩
  · exact congrArg Host.Outcome.next (queFlushed_drops hk)
  · exact congrArg Host.Outcome.next (rebuilt_takes hk)
  · have hbit : bitN v.toNat 31 = v.getLsbD 31 := rfl
    have hsel := bar0Write_sojSel h v
    rw [hbit] at hsel
    exact congrArg Host.Outcome.next hsel
end Sys2Proof.Machine

namespace Sys2Proof.Machine

/-! ### Commands on gate lists (R394, R395, R410) -/

section GateLists
variable {u : State}

/-- An update depends on the shaper only. -/
theorem gateUpd_congr {k : Nat} {f g : GateInst → GateInst} (h : f (u.gateI k) = g (u.gateI k)) : u.gateUpd k f = u.gateUpd k g := by
  simp only [State.gateUpd, mupd]
  rw [show f (mget (fun _ => {}) u.gate k) = g (mget (fun _ => {}) u.gate k) from h]

/-- An entry is in range only where its list is. -/
theorem gatIndexOk_list {sp i j : Nat} (h : gatIndexOk sp i j false = false) : gatIndexOk sp i j true = false := by
  unfold gatIndexOk at h ⊢
  split
  case h_1 | h_2 =>
    simp only [Bool.not_false, Bool.true_or, Bool.and_true, decide_eq_false_iff_not] at h
    simp [h]
  case h_3 => exact absurd h Bool.true_eq_false.mp
  case h_4 => rfl

theorem gatList_outside {op sp i j : Nat} (h : gatIndexOk sp i j (op == 1 || op == 2 || op == 3) = false) :
    u.gatList op sp i j = u.gatDone 1 := by
  unfold State.gatList
  rw [h]
  exact if_pos rfl

theorem gatList_absent {sp i j : Nat} (h : gatIndexOk sp i j false = false) (op : Nat) : u.gatList op sp i j = u.gatDone 1 := by
  refine gatList_outside ?_
  cases hop : op == 1 || op == 2 || op == 3 with
  | false => exact h
  | true => exact gatIndexOk_list h

/-- The instant of a pending switch has come. -/
def State.gateReached (s : State) (k : Nat) : Bool :=
  match s.gateNext (s.gateI k) with | some w => decide (w ≤ s.ns) | none => false

section Entry
variable {sp i j : Nat} (h : gatIndexOk sp i j true = true)
include h

theorem gatList_write : u.gatList 1 sp i j = if (u.gateI (gateKey sp i)).pending then u.gatDone 4
    else (u.gateUpd (gateKey sp i) (fun g => { g with adm := { g.adm with
      ents := mset (fun _ => (0, 0)) g.adm.ents j (u.gatW 0, u.gatW 1) } })).gatDone 0 :=
  if_neg (by simp [h])

theorem gatList_read : u.gatList 2 sp i j = (u.gatShow ((u.gateI (gateKey sp i)).adm.show j)).gatDone 0 := if_neg (by simp [h])

theorem gatList_readOper : u.gatList 3 sp i j = (u.gatShow ((u.gateI (gateKey sp i)).oper.show j)).gatDone 0 :=
  if_neg (by simp [h])

end Entry

section Header
variable {sp i j : Nat} (h : gatIndexOk sp i j false = true)
include h

theorem gatList_writeHdr : u.gatList 4 sp i j = if (u.gateI (gateKey sp i)).pending then u.gatDone 4
    else (u.gateUpd (gateKey sp i) (fun g => { g with
      adm := { g.adm with cycle := u.gatW 0 % 2 ^ 30, len := u.gatW 1 % 2 ^ 11 }
      swTick := u.gatW 2 + u.gatW 3 * 2 ^ 32 })).gatDone 0 :=
  if_neg (by simp [h])

theorem gatList_readHdr : u.gatList 5 sp i j = (u.gatShow (u.gateI (gateKey sp i)).header).gatDone 0 := if_neg (by simp [h])

theorem gatList_switch : u.gatList 6 sp i j = u.gatSwitch (gateKey sp i) := if_neg (by simp [h])

theorem gatList_restore : u.gatList 8 sp i j = u.gatRestore (gateKey sp i) := if_neg (by simp [h])

theorem gatList_noCounters : u.gatList 9 sp i j = u.gatDone 5 ∧ u.gatList 10 sp i j = u.gatDone 5 :=
  ⟨if_neg (by simp [h]), if_neg (by simp [h])⟩

/-- A CANCEL changes the lists only where a switch pends whose instant has not come. -/
theorem gatList_cancel : u.gatList 7 sp i j = (u.gateUpd (gateKey sp i) (fun g =>
    if g.pending && !g.copyDue && g.due.isNone && !u.gateReached (gateKey sp i) then { g with pending := false } else g)).gatDone 0 :=
  if_neg (by simp [h])

theorem gatList_cancel_withdraws (hp : (u.gateI (gateKey sp i)).pending = true)
    (hc : (u.gateI (gateKey sp i)).copyDue = false) (hd : (u.gateI (gateKey sp i)).due = none)
    (hn : u.running = true → u.ns < u.tickNs (max (u.gateI (gateKey sp i)).swTick u.tb.nextTick)) :
    u.gatList 7 sp i j = (u.gateUpd (gateKey sp i) (fun g => { g with pending := false })).gatDone 0 := by
  have hr : u.gateReached (gateKey sp i) = false := by
    cases hrun : u.running with
    | false => simp [State.gateReached, State.gateNext, hrun]
    | true => simpa [State.gateReached, State.gateNext, hrun, hp, hc] using hn hrun
  rw [gatList_cancel h, gateUpd_congr]
  simp only [hp, hc, hd, hr, Bool.not_false, Bool.and_true, Option.isNone_none, if_true]

theorem gatList_cancel_nothing (hn : (u.gateI (gateKey sp i)).pending = false ∨ (u.gateI (gateKey sp i)).copyDue = true ∨
      (u.gateI (gateKey sp i)).due ≠ none ∨
      (u.running = true ∧ u.tickNs (max (u.gateI (gateKey sp i)).swTick u.tb.nextTick) ≤ u.ns)) :
    u.gatList 7 sp i j = (u.gateUpd (gateKey sp i) id).gatDone 0 := by
  rw [gatList_cancel h, gateUpd_congr]
  refine if_neg ?_
  simp only [Bool.and_eq_true, Bool.not_eq_true', Option.isNone_iff_eq_none]
  rintro ⟨⟨⟨hp, hc⟩, hd⟩, hr⟩
  rcases hn with h | h | h | ⟨hrun, hle⟩
  · rw [h] at hp
    cases hp
  · rw [h] at hc
    cases hc
  · exact h hd
  · simp [State.gateReached, State.gateNext, hrun, hp, hc] at hr
    omega

end Header

theorem gatSwitch_pending {k : Nat} (h : (u.gateI k).pending = true) : u.gatSwitch k = u.gatDone 4 := if_pos h

section Idle
variable {k : Nat} (h : (u.gateI k).pending = false)
include h

theorem gatSwitch_stopped (hr : u.running = false) : u.gatSwitch k = u.gatDone 3 := by
  unfold State.gatSwitch
  simp only [h, hr, Bool.false_eq_true, if_false, Bool.not_false, if_true]

theorem gatSwitch_bad (hr : u.running = true) (hok : (u.gateI k).adm.ok k = false) : u.gatSwitch k = u.gatDone 2 := by
  unfold State.gatSwitch
  simp only [h, hr, hok, Bool.false_eq_true, if_false, Bool.not_false, Bool.not_true, if_true]

theorem gatSwitch_pends (hr : u.running = true) (hok : (u.gateI k).adm.ok k = true) :
    u.gatSwitch k = (u.gateUpd k (fun g => { g with
      pending := true, late := decide (g.swTick < u.tb.nextTick), due := none })).gatDone 0 := by
  unfold State.gatSwitch
  simp only [h, hr, hok, Bool.false_eq_true, if_false, Bool.not_true, State.tickPassed]
  exact congrArg (State.gatDone · 0) (gateUpd_congr rfl)

end Idle

theorem gatRestore_active {k : Nat} (h : (u.gateI k).active = true) : u.gatRestore k = u.gatDone 4 := if_pos h

theorem gatRestore_bad {k : Nat} (h : (u.gateI k).active = false) (hok : (u.gateI k).adm.ok k = false) :
    u.gatRestore k = u.gatDone 2 := by
  unfold State.gatRestore
  simp only [h, hok, Bool.false_eq_true, if_false, Bool.not_false, if_true]

theorem gatRestore_takes {k : Nat} (h : (u.gateI k).active = false) (hok : (u.gateI k).adm.ok k = true) :
    u.gatRestore k = (u.gateUpd k (fun g => u.gateTo g k g.swTick u.t16)).gatDone 0 := by
  unfold State.gatRestore
  simp only [h, hok, Bool.false_eq_true, if_false, Bool.not_true]

/-! ### Stream contexts and the instants of gates (R393, R394, R411) -/

theorem gatContext_read {i : Nat} : u.gatContext 2 i = (u.gatShow (u.stmI i).words).gatDone 0 := rfl

theorem gatContext_clear {i : Nat} : u.gatContext 10 i =
    (u.stmPut i { u.stmI i with oversize := false, closed := false, red := false, takeAny := true }).gatDone 0 := rfl

theorem gatContext_bad {i : Nat} (h : (!stmArgOk (u.gatW 0) (u.gatW 1) (u.gatW 2) (u.gatW 3)) = true) :
    u.gatContext 1 i = u.gatDone 5 := if_pos h

theorem gatContext_write {i : Nat} (h : (!stmArgOk (u.gatW 0) (u.gatW 1) (u.gatW 2) (u.gatW 3)) = false) :
    u.gatContext 1 i = (u.stmPut i { u.stmI i with
      w0 := u.gatW 0, w1 := u.gatW 1, takeAny := (u.stmI i).takeAny || (bitN (u.gatW 0) 31 && !(u.stmI i).bit 31)
      hist := (u.stmI i).hist % 2 ^ (bits (u.gatW 1) 21 12 + 1) }).gatDone 0 :=
  if_neg (by rw [h]; exact Bool.false_ne_true)

theorem gatContext_readCnt {i : Nat} : u.gatContext 9 i =
    (let t := (u.gatShow ((u.stmI i).cnt.flatMap (fun n => [n % 2 ^ 32, n / 2 ^ 32]))).gatDone 0
      if t.on F.SVY_CNT_CFG_COR then t.stmPut i { u.stmI i with cnt := List.replicate 11 0 } else t) := rfl

theorem gateSwitch_due {m n : Nat} (h : (u.gateI m).due = some n) : u.gateSwitch m =
    u.gateUpd m (fun _ => { u.gateTo (u.gateI m) m n (u.tickNs n * 65536) with copyDue := true }) := by
  have hcur : u.gateCur m = { u.gateTo (u.gateI m) m n (u.tickNs n * 65536) with copyDue := true } := by
    simp only [State.gateCur, h]
  unfold State.gateSwitch
  rw [h, hcur]

theorem gateIntervalEnd_none {m : Nat} (h : u.gateAt m u.ns = none) : u.gateIntervalEnd m = u := by
  unfold State.gateIntervalEnd
  rw [h]

section Interval
variable {m b : Nat} {l : GList} (h : u.gateAt m u.ns = some (l, b))
include h

theorem gateIntervalEnd_uncut (hn : u.gateNext (u.gateCur m) = none) :
    u.gateIntervalEnd m = u.advanceTo ((u.ns - l.offset b u.ns + (l.segAt (l.offset b u.ns)).2.1) * tuNs) := by
  unfold State.gateIntervalEnd
  simp only [h, hn]

theorem gateIntervalEnd_cut {w : Nat} (hn : u.gateNext (u.gateCur m) = some w) :
    u.gateIntervalEnd m = (let e := u.ns - l.offset b u.ns + (l.segAt (l.offset b u.ns)).2.1
      u.advanceTo ((if u.ns < w then min e w else e) * tuNs)) := by
  unfold State.gateIntervalEnd
  simp only [h, hn]

end Interval
end GateLists

section GateCommands
variable {s : State} {v : Word} (h : s.takes R.GAT_IND_CMD F.GAT_IND_STATUS_BUSY)

theorem gateI_cmdPut (s : State) (r : Reg) (v : Word) (hi op k : Nat) : (s.cmdPut r v hi op).gateI k = s.gateI k := by
  obtain ⟨m, hm⟩ := cmdPut_form s r v hi op
  rw [hm]
  rfl

theorem stmI_cmdPut (s : State) (r : Reg) (v : Word) (hi op k : Nat) : (s.cmdPut r v hi op).stmI k = s.stmI k := by
  obtain ⟨m, hm⟩ := cmdPut_form s r v hi op
  rw [hm]
  rfl

theorem tb_cmdPut (s : State) (r : Reg) (v : Word) (hi op : Nat) : (s.cmdPut r v hi op).tb = s.tb := by
  obtain ⟨m, hm⟩ := cmdPut_form s r v hi op
  rw [hm]

theorem ns_cmdPut (s : State) (r : Reg) (v : Word) (hi op : Nat) : (s.cmdPut r v hi op).ns = s.ns := by
  rw [State.ns, tb_cmdPut, State.ns]

theorem running_gatPut (s : State) (v : Word) (op : Nat) : (s.cmdPut R.GAT_IND_CMD v 3 op).running = s.running := by
  rw [State.running, State.on, State.cmdPut, rd_hostPut_ne s _ (by decide), State.running, State.on]

theorem tickNs_gatPut (s : State) (v : Word) (op n : Nat) : (s.cmdPut R.GAT_IND_CMD v 3 op).tickNs n = s.tickNs n := by
  rw [State.tickNs, State.cmdPut, rd_hostPut_ne s _ (by decide), rd_hostPut_ne s _ (by decide), State.tickNs]

include h

theorem indWrite_gateList {op : Nat} (h0 : op ≠ 0) (hop : op < 16) (hsp : bits v.toNat 31 30 < 2) :
    s.indWrite R.GAT_IND_CMD v 3 op =
      (s.cmdPut R.GAT_IND_CMD v 3 op).gatList op (bits v.toNat 31 30) (bits v.toNat 29 14) (bits v.toNat 13 4) :=
  (indWrite_gat h v h0 hop).trans (gatCmd_list (rd_busy_cmdPut h (by decide) v 3 op) hsp)

theorem indWrite_context {op : Nat} (h0 : op ≠ 0) (hop : op < 16) (hsp : bits v.toNat 31 30 = 2) :
    s.indWrite R.GAT_IND_CMD v 3 op = (s.cmdPut R.GAT_IND_CMD v 3 op).gatContext op (bits v.toNat 29 14) :=
  (indWrite_gat h v h0 hop).trans (gatCmd_context (rd_busy_cmdPut h (by decide) v 3 op) hsp)

theorem indWrite_noSpace {op : Nat} (h0 : op ≠ 0) (hop : op < 16) (hsp : bits v.toNat 31 30 = 3) :
    s.indWrite R.GAT_IND_CMD v 3 op = (s.cmdPut R.GAT_IND_CMD v 3 op).gatDone 1 := by
  rw [indWrite_gat h v h0 hop]
  unfold State.gatCmd
  rw [on_false (rd_busy_cmdPut h (by decide) v 3 op), if_neg Bool.false_ne_true, if_pos hsp]

omit h in
/-- The ten operations of GAT_IND_CMD, with their codes. -/
theorem exec_gatOp : ∀ x ∈ [(Instr.gatWrite v, 1), (.gatRead v, 2), (.gatReadOper v, 3), (.gatWriteHdr v, 4), (.gatReadHdr v, 5),
      (.gatSwitch v, 6), (.gatCancel v, 7), (.gatRestore v, 8), (.gatReadCnt v, 9), (.gatClear v, 10)],
    exec x.1 s = .next (s.indWrite R.GAT_IND_CMD v 3 x.2) ∧ x.2 ≠ 0 ∧ x.2 < 16 := by
  simp only [List.forall_mem_cons, List.not_mem_nil, false_implies, implies_true, and_true]
  refine ⟨⟨rfl, ?_⟩, ⟨rfl, ?_⟩, ⟨rfl, ?_⟩, ⟨rfl, ?_⟩, ⟨rfl, ?_⟩, ⟨rfl, ?_⟩, ⟨rfl, ?_⟩, ⟨rfl, ?_⟩, ⟨rfl, ?_⟩, rfl, ?_⟩ <;> decide

/-- Entries of a list in range: WRITE, READ and READ_OPER. -/
theorem gateEntryCommands (hsp : bits v.toNat 31 30 < 2)
    (hi : gatIndexOk (bits v.toNat 31 30) (bits v.toNat 29 14) (bits v.toNat 13 4) true = true) :
    let u (op : Nat) : State := s.cmdPut R.GAT_IND_CMD v 3 op
    let j := bits v.toNat 13 4
    let k := gateKey (bits v.toNat 31 30) (bits v.toNat 29 14)
    let g := s.gateI k
    (g.pending = true → exec (.gatWrite v) s = .next ((u 1).gatDone 4))
      ∧ (g.pending = false → exec (.gatWrite v) s = .next (((u 1).gateUpd k (fun g => { g with adm := { g.adm with
          ents := mset (fun _ => (0, 0)) g.adm.ents j ((u 1).gatW 0, (u 1).gatW 1) } })).gatDone 0))
      ∧ exec (.gatRead v) s = .next (((u 2).gatShow (g.adm.show j)).gatDone 0)
      ∧ exec (.gatReadOper v) s = .next (((u 3).gatShow (g.oper.show j)).gatDone 0) := by
  intro u j k g
  have hexec (op : Nat) (h0 : op ≠ 0) (h16 : op < 16) := indWrite_gateList h h0 h16 hsp
  have hgate (op : Nat) : (u op).gateI k = g := gateI_cmdPut s _ v 3 op k
  have hw : exec (.gatWrite v) s = .next ((u 1).gatList 1 _ _ _) := congrArg Host.Outcome.next (hexec 1 (by decide) (by decide))
  have hr : exec (.gatRead v) s = .next ((u 2).gatList 2 _ _ _) := congrArg Host.Outcome.next (hexec 2 (by decide) (by decide))
  have ho : exec (.gatReadOper v) s = .next ((u 3).gatList 3 _ _ _) := congrArg Host.Outcome.next (hexec 3 (by decide) (by decide))
  rw [hw, hr, ho, gatList_write hi, gatList_read hi, gatList_readOper hi, hgate 1, hgate 2, hgate 3]
  exact ⟨fun hp => congrArg Host.Outcome.next (if_pos hp),
    fun hp => congrArg Host.Outcome.next (if_neg (by rw [hp]; exact Bool.false_ne_true)), rfl, rfl⟩

/-- Lists in range: WRITE_HDR, READ_HDR, SWITCH, CANCEL and RESTORE. -/
theorem gateHeaderCommands (hsp : bits v.toNat 31 30 < 2)
    (hi : gatIndexOk (bits v.toNat 31 30) (bits v.toNat 29 14) (bits v.toNat 13 4) false = true) :
    let u (op : Nat) : State := s.cmdPut R.GAT_IND_CMD v 3 op
    let k := gateKey (bits v.toNat 31 30) (bits v.toNat 29 14)
    let g := s.gateI k
    (g.pending = true → exec (.gatWriteHdr v) s = .next ((u 4).gatDone 4) ∧ exec (.gatSwitch v) s = .next ((u 6).gatDone 4))
      ∧ (g.pending = false →
        exec (.gatWriteHdr v) s = .next (((u 4).gateUpd k (fun g => { g with
          adm := { g.adm with cycle := (u 4).gatW 0 % 2 ^ 30, len := (u 4).gatW 1 % 2 ^ 11 }
          swTick := (u 4).gatW 2 + (u 4).gatW 3 * 2 ^ 32 })).gatDone 0)
        ∧ (s.running = false → exec (.gatSwitch v) s = .next ((u 6).gatDone 3))
        ∧ (s.running = true → g.adm.ok k = false → exec (.gatSwitch v) s = .next ((u 6).gatDone 2))
        ∧ (s.running = true → g.adm.ok k = true → exec (.gatSwitch v) s = .next (((u 6).gateUpd k (fun g => { g with
          pending := true, late := decide (g.swTick < s.tb.nextTick), due := none })).gatDone 0)))
      ∧ exec (.gatReadHdr v) s = .next (((u 5).gatShow g.header).gatDone 0)
      ∧ (g.pending = true → g.copyDue = false → g.due = none → (s.running = true → s.ns < s.tickNs (max g.swTick s.tb.nextTick)) →
        exec (.gatCancel v) s = .next (((u 7).gateUpd k (fun g => { g with pending := false })).gatDone 0))
      ∧ (g.pending = false ∨ g.copyDue = true ∨ g.due ≠ none ∨ (s.running = true ∧ s.tickNs (max g.swTick s.tb.nextTick) ≤ s.ns) →
        exec (.gatCancel v) s = .next (((u 7).gateUpd k id).gatDone 0))
      ∧ (g.active = true → exec (.gatRestore v) s = .next ((u 8).gatDone 4))
      ∧ (g.active = false → g.adm.ok k = false → exec (.gatRestore v) s = .next ((u 8).gatDone 2))
      ∧ (g.active = false → g.adm.ok k = true →
        exec (.gatRestore v) s = .next (((u 8).gateUpd k (fun g => (u 8).gateTo g k g.swTick (u 8).t16)).gatDone 0))
      ∧ exec (.gatReadCnt v) s = .next ((u 9).gatDone 5) ∧ exec (.gatClear v) s = .next ((u 10).gatDone 5) := by
  intro u k g
  have hexec (op : Nat) (h0 : op ≠ 0) (h16 : op < 16) := indWrite_gateList h h0 h16 hsp
  have hgate (op : Nat) : (u op).gateI k = g := gateI_cmdPut s _ v 3 op k
  have hrun (op : Nat) : (u op).running = s.running := running_gatPut s v op
  have htb (op : Nat) : (u op).tb = s.tb := tb_cmdPut s _ v 3 op
  have hns (op : Nat) : (u op).ns = s.ns := ns_cmdPut s _ v 3 op
  have htick (op n : Nat) : (u op).tickNs n = s.tickNs n := tickNs_gatPut s v op n
  have hhdr : exec (.gatWriteHdr v) s = .next ((u 4).gatList 4 _ _ _) := congrArg Host.Outcome.next (hexec 4 (by decide) (by decide))
  have hread : exec (.gatReadHdr v) s = .next ((u 5).gatList 5 _ _ _) := congrArg Host.Outcome.next (hexec 5 (by decide) (by decide))
  have hswitch : exec (.gatSwitch v) s = .next ((u 6).gatList 6 _ _ _) := congrArg Host.Outcome.next (hexec 6 (by decide) (by decide))
  have hcancel : exec (.gatCancel v) s = .next ((u 7).gatList 7 _ _ _) := congrArg Host.Outcome.next (hexec 7 (by decide) (by decide))
  have hrestore : exec (.gatRestore v) s = .next ((u 8).gatList 8 _ _ _) := congrArg Host.Outcome.next (hexec 8 (by decide) (by decide))
  have hcnt : exec (.gatReadCnt v) s = .next ((u 9).gatList 9 _ _ _) := congrArg Host.Outcome.next (hexec 9 (by decide) (by decide))
  have hclear : exec (.gatClear v) s = .next ((u 10).gatList 10 _ _ _) := congrArg Host.Outcome.next (hexec 10 (by decide) (by decide))
  rw [hhdr, hread, hswitch, hcancel, hrestore, hcnt, hclear, gatList_writeHdr hi, gatList_readHdr hi, gatList_switch hi,
    gatList_restore hi, (gatList_noCounters hi).1, (gatList_noCounters hi).2, hgate 4, hgate 5]
  refine ⟨fun hp => ⟨congrArg Host.Outcome.next (if_pos hp), ?_⟩, fun hp => ⟨?_, fun hr => ?_, fun hr hok => ?_, fun hr hok => ?_⟩, rfl,
    fun hp hc hd hn => ?_, fun hn => ?_, fun ha => ?_, fun ha hok => ?_, fun ha hok => ?_, rfl, rfl⟩
  · exact congrArg Host.Outcome.next (gatSwitch_pending (by rw [hgate]; exact hp))
  · exact congrArg Host.Outcome.next (if_neg (by rw [hp]; exact Bool.false_ne_true))
  · exact congrArg Host.Outcome.next (gatSwitch_stopped (by rw [hgate]; exact hp) (by rw [hrun]; exact hr))
  · exact congrArg Host.Outcome.next (gatSwitch_bad (by rw [hgate]; exact hp) (by rw [hrun]; exact hr) (by rw [hgate]; exact hok))
  · have hs := gatSwitch_pends (u := u 6) (k := k) (by rw [hgate]; exact hp) (by rw [hrun]; exact hr) (by rw [hgate]; exact hok)
    rw [htb] at hs
    exact congrArg Host.Outcome.next hs
  · refine congrArg Host.Outcome.next (gatList_cancel_withdraws hi ?_ ?_ ?_ ?_)
    · rw [hgate]; exact hp
    · rw [hgate]; exact hc
    · rw [hgate]; exact hd
    · rw [hgate, hrun, hns, htb, htick]; exact hn
  · refine congrArg Host.Outcome.next (gatList_cancel_nothing hi ?_)
    rw [hgate, hrun, hns, htb, htick]
    exact hn
  · exact congrArg Host.Outcome.next (gatRestore_active (by rw [hgate]; exact ha))
  · exact congrArg Host.Outcome.next (gatRestore_bad (by rw [hgate]; exact ha) (by rw [hgate]; exact hok))
  · exact congrArg Host.Outcome.next (gatRestore_takes (by rw [hgate]; exact ha) (by rw [hgate]; exact hok))

/-- An operation on no list ends with 1. -/
theorem gateAbsent (hsp : bits v.toNat 31 30 = 3 ∨
      (bits v.toNat 31 30 < 2 ∧ gatIndexOk (bits v.toNat 31 30) (bits v.toNat 29 14) (bits v.toNat 13 4) false = false))
    {op : Nat} (h0 : op ≠ 0) (h16 : op < 16) :
    s.indWrite R.GAT_IND_CMD v 3 op = (s.cmdPut R.GAT_IND_CMD v 3 op).gatDone 1 := by
  rcases hsp with h3 | ⟨hsp, hi⟩
  · exact indWrite_noSpace h h0 h16 h3
  · exact (indWrite_gateList h h0 h16 hsp).trans (gatList_absent hi op)

/-- Commands on a stream context. -/
theorem contextCommands (hsp : bits v.toNat 31 30 = 2) :
    let u (op : Nat) : State := s.cmdPut R.GAT_IND_CMD v 3 op
    let i := bits v.toNat 29 14
    let x := s.stmI i
    let bad : Bool := !stmArgOk ((u 1).gatW 0) ((u 1).gatW 1) ((u 1).gatW 2) ((u 1).gatW 3)
    (bad = true → exec (.gatWrite v) s = .next ((u 1).gatDone 5))
      ∧ (bad = false → exec (.gatWrite v) s = .next (((u 1).stmPut i { x with
        w0 := (u 1).gatW 0, w1 := (u 1).gatW 1, takeAny := x.takeAny || (bitN ((u 1).gatW 0) 31 && !x.bit 31)
        hist := x.hist % 2 ^ (bits ((u 1).gatW 1) 21 12 + 1) }).gatDone 0))
      ∧ exec (.gatRead v) s = .next (((u 2).gatShow x.words).gatDone 0)
      ∧ (let t := ((u 9).gatShow (x.cnt.flatMap (fun n => [n % 2 ^ 32, n / 2 ^ 32]))).gatDone 0
        (t.rd F.SVY_CNT_CFG_COR = 0 → exec (.gatReadCnt v) s = .next t)
        ∧ (t.rd F.SVY_CNT_CFG_COR ≠ 0 → exec (.gatReadCnt v) s = .next (t.stmPut i { x with cnt := List.replicate 11 0 })))
      ∧ exec (.gatClear v) s = .next (((u 10).stmPut i { x with
        oversize := false, closed := false, red := false, takeAny := true }).gatDone 0)
      ∧ ∀ y ∈ [(Instr.gatReadOper v, 3), (.gatWriteHdr v, 4), (.gatReadHdr v, 5), (.gatSwitch v, 6), (.gatCancel v, 7), (.gatRestore v, 8)],
        exec y.1 s = .next ((u y.2).gatDone 5) := by
  intro u i x bad
  have hexec (op : Nat) (h0 : op ≠ 0) (h16 : op < 16) := indWrite_context h h0 h16 hsp
  have hx (op : Nat) : (u op).stmI i = x := stmI_cmdPut s _ v 3 op i
  have hw : exec (.gatWrite v) s = .next ((u 1).gatContext 1 i) := congrArg Host.Outcome.next (hexec 1 (by decide) (by decide))
  have hr : exec (.gatRead v) s = .next ((u 2).gatContext 2 i) := congrArg Host.Outcome.next (hexec 2 (by decide) (by decide))
  have hc : exec (.gatReadCnt v) s = .next ((u 9).gatContext 9 i) := congrArg Host.Outcome.next (hexec 9 (by decide) (by decide))
  have hl : exec (.gatClear v) s = .next ((u 10).gatContext 10 i) := congrArg Host.Outcome.next (hexec 10 (by decide) (by decide))
  rw [hw, hr, hc, hl, gatContext_read, gatContext_clear, gatContext_readCnt, hx 2, hx 9, hx 10]
  refine ⟨fun hb => ?_, fun hb => ?_, rfl, ?_, rfl, fun y hy => ?_⟩
  · exact congrArg Host.Outcome.next (gatContext_bad hb)
  · have hwrite := gatContext_write (u := u 1) (i := i) hb
    rw [hx 1] at hwrite
    exact congrArg Host.Outcome.next hwrite
  · intro t
    exact ⟨fun h0 => congrArg Host.Outcome.next (if_neg (by rw [on_false h0]; exact Bool.false_ne_true)),
      fun h1 => congrArg Host.Outcome.next (if_pos (on_true h1))⟩
  · obtain ⟨hop, h0, h16⟩ := exec_gatOp (s := s) (v := v) y
      (List.mem_append_right [_, _] (List.mem_append_left [_, _] hy))
    have hno : y.2 ∉ [0, 1, 2, 9, 10] := by
      revert y
      simp
    rw [hop, hexec y.2 h0 h16, gatContext_undefined hno]

end GateCommands

/-- Settles O49: each served command is its operation on the list or context it names, on the state with IND_CMD stored. -/
theorem gateListsAndContextsFollowTheirCommands : Obligations.GateListsAndContextsFollowTheirCommands := by
  unfold Obligations.GateListsAndContextsFollowTheirCommands
  intro s v u sp i j k g
  refine ⟨fun h => ⟨fun hsp hi => gateEntryCommands h hsp hi, fun hsp hi x hx => ?_, fun hsp hi => gateHeaderCommands h hsp hi,
    fun hsp x hx => ?_, fun hsp => contextCommands h hsp⟩, fun m n hd => ?_, fun m hc => ?_, fun m => ⟨fun hn => ?_, fun l b hl => ?_⟩⟩
  · obtain ⟨hop, h0, h16⟩ := exec_gatOp (s := s) (v := v) x (List.mem_append_left [_, _, _, _, _, _, _] hx)
    have hent : (x.2 == 1 || x.2 == 2 || x.2 == 3) = true := by
      revert x
      simp
    rw [hop, indWrite_gateList h h0 h16 hsp, gatList_outside (by rw [hent]; exact hi)]
  · obtain ⟨hop, h0, h16⟩ := exec_gatOp (s := s) (v := v) x hx
    rw [hop, gateAbsent h hsp h0 h16]
  · exact congrArg Host.Outcome.next (gateSwitch_due hd)
  · exact congrArg Host.Outcome.next (if_pos hc)
  · exact congrArg Host.Outcome.next (gateIntervalEnd_none hn)
  · exact ⟨fun hn => congrArg Host.Outcome.next (gateIntervalEnd_uncut hl hn),
      fun w hn => congrArg Host.Outcome.next (gateIntervalEnd_cut hl hn)⟩

end Sys2Proof.Machine

namespace Sys2Proof.Machine

/-! ### Admission (R351–R355) -/

section Admission
variable {s : State}

/-- What admission decides once none of the minima takes the packet. -/
inductive SharedOutcome (s : State) (n q p t c : Nat) : Prop
  | charge (h : s.admitTest n q p t c = .charge 3) (hdt : s.admDt n q p t c = true) (hs : ((s.admSU + n : Nat) : Int) ≤ s.admS)
  | headroom (h : s.admitTest n q p t c = .charge 4) (hl : s.lossless t = true)
      (hh : cntr s.adm.hu (8 * p + t) + n ≤ s.rd (F.ADM_PG_HDRM.at (8 * p + t)))
  | push (u v : Nat) (h : s.admitTest n q p t c = .push u v)
  | drop (h : s.admitTest n q p t c = .drop)

variable {n q p t : Nat} (c : Nat)

theorem admitTest_queue (h : cntr s.adm.qu q + n ≤ s.rd (F.ADM_PROF_MIN.at (s.sent 0 q).admProf)) :
    s.admitTest n q p t c = .charge 0 := if_pos h

section NoQueue
variable (hq : ¬cntr s.adm.qu q + n ≤ s.rd (F.ADM_PROF_MIN.at (s.sent 0 q).admProf))
include hq

theorem admitTest_port (h : cntr s.adm.pu p + n ≤ s.rd (F.ADM_PORT_MIN.at p)) : s.admitTest n q p t c = .charge 1 :=
  (if_neg hq).trans (if_pos h)

variable (hp : ¬cntr s.adm.pu p + n ≤ s.rd (F.ADM_PORT_MIN.at p))
include hp

theorem admitTest_class (h : cntr s.adm.cu t + n ≤ s.rd (F.ADM_CLASS_MIN.at t)) : s.admitTest n q p t c = .charge 2 :=
  (if_neg hq).trans ((if_neg hp).trans (if_pos h))

theorem admitTest_shared (hc : ¬cntr s.adm.cu t + n ≤ s.rd (F.ADM_CLASS_MIN.at t)) : SharedOutcome s n q p t c := by
  have htest : s.admitTest n q p t c =
      if s.admDt n q p t c && decide (((s.admSU + n : Nat) : Int) - s.admS ≤ 0) then .charge 3
      else if s.lossless t then
        if cntr s.adm.hu (8 * p + t) + n ≤ s.rd (F.ADM_PG_HDRM.at (8 * p + t)) then .charge 4 else .drop
      else if s.admDt n q p t c && s.on (F.ADM_CLASS_PUSH.at t) then
        match s.victim t (((s.admSU + n : Nat) : Int) - s.admS).toNat with
        | some (u, v) => .push u v
        | none => .drop
      else .drop := (if_neg hq).trans ((if_neg hp).trans (if_neg hc))
  split at htest
  next h3 =>
    obtain ⟨hdt, hle⟩ := Bool.and_eq_true_iff.mp h3
    exact .charge htest hdt (by have := of_decide_eq_true hle; omega)
  next =>
    split at htest
    next hl =>
      split at htest
      next hh => exact .headroom htest hl hh
      next => exact .drop htest
    next =>
      split at htest
      next =>
        split at htest
        next u v _ => exact .push u v htest
        next => exact .drop htest
      next => exact .drop htest

end NoQueue

/-- The charges of R353, each by the first test that holds. -/
theorem admitTest_charges (n q p t c : Nat) :
    (s.admitTest n q p t c = .charge 0 ↔ cntr s.adm.qu q + n ≤ s.rd (F.ADM_PROF_MIN.at (s.sent 0 q).admProf))
      ∧ (s.admitTest n q p t c = .charge 1 ↔
        s.rd (F.ADM_PROF_MIN.at (s.sent 0 q).admProf) < cntr s.adm.qu q + n ∧ cntr s.adm.pu p + n ≤ s.rd (F.ADM_PORT_MIN.at p))
      ∧ (s.admitTest n q p t c = .charge 2 ↔ s.rd (F.ADM_PROF_MIN.at (s.sent 0 q).admProf) < cntr s.adm.qu q + n
        ∧ s.rd (F.ADM_PORT_MIN.at p) < cntr s.adm.pu p + n ∧ cntr s.adm.cu t + n ≤ s.rd (F.ADM_CLASS_MIN.at t))
      ∧ (s.admitTest n q p t c = .charge 4 → s.lossless t = true
        ∧ cntr s.adm.hu (8 * p + t) + n ≤ s.rd (F.ADM_PG_HDRM.at (8 * p + t)))
      ∧ (s.admitTest n q p t c = .charge 3 → s.admDt n q p t c = true ∧ ((s.admSU + n : Nat) : Int) ≤ s.admS) := by
  by_cases hq : cntr s.adm.qu q + n ≤ s.rd (F.ADM_PROF_MIN.at (s.sent 0 q).admProf)
  · simp [admitTest_queue c hq, hq, Nat.not_lt.mpr hq]
  by_cases hp : cntr s.adm.pu p + n ≤ s.rd (F.ADM_PORT_MIN.at p)
  · simp [admitTest_port c hq hp, hq, hp, Nat.lt_of_not_le hq, Nat.not_lt.mpr hp]
  by_cases hc : cntr s.adm.cu t + n ≤ s.rd (F.ADM_CLASS_MIN.at t)
  · simp [admitTest_class c hq hp hc, hq, hp, hc, Nat.lt_of_not_le hq, Nat.lt_of_not_le hp]
  cases admitTest_shared c hq hp hc with
  | charge h hdt hs => simp only [h, hq, hp, hc, hdt, hs, and_false, iff_false]; simp
  | headroom h hl hh => simp only [h, hq, hp, hc, hl, hh, and_false, iff_false]; simp
  | push u v h => simp [h, hq, hp, hc]
  | drop h => simp [h, hq, hp, hc]

end Admission

section Arrival
variable {s a x : State} {p : Pkt}

/-- A packet of a queue that is not enabled. -/
theorem admitOne_disabled (h : (x.sent 0 p.queue).en = false) (n : Nat) (share : Option Nat) (mirror : Bool) (adj : Option Nat) :
    x.admitOne p n share mirror adj = (x.queDisabled, none) := by
  unfold State.admitOne
  simp only [h, Bool.not_false, if_true]

section Enabled
variable (h : (x.sent 0 p.queue).en = true) (n : Nat)
include h

theorem admitOne_drop (ht : x.admitTest n p.queue p.port p.tc p.colour = .drop) :
    x.admitOne p n none false none = (x.admDrop p.queue p, none) := by
  unfold State.admitOne
  simp only [h, ht, Bool.not_true, Bool.false_eq_true, if_false]

theorem admitOne_charge {k : Nat} (ht : x.admitTest n p.queue p.port p.tc p.colour = .charge k) :
    x.admitOne p n none false none = (let b := x.pktAlloc p.slice n p.bytes.length
      (b.1.admPut k n p.queue p b.2 false none, some b.2)) := by
  unfold State.admitOne
  simp only [h, ht, Bool.not_true, Bool.false_eq_true, if_false]

theorem admitOne_push {u v : Nat} (ht : x.admitTest n p.queue p.port p.tc p.colour = .push u v) :
    x.admitOne p n none false none = (let b := (x.evict u v p.tc).pktAlloc p.slice n p.bytes.length
      (b.1.admPut 3 n p.queue p b.2 false none, some b.2)) := by
  unfold State.admitOne
  simp only [h, ht, Bool.not_true, Bool.false_eq_true, if_false]

end Enabled

section First
variable {h : Held} {l : List Held} (harr : s.adm.arrive = h :: l)
include harr

theorem packetAdmit_streamed (hs : (s.admUpd (fun a => { a with arrive := l })).stream h.p = (x, none)) :
    s.packetAdmit = x.nhDone h.p := by
  unfold State.packetAdmit
  simp only [harr, hs]

section Passed
variable (hs : (s.admUpd (fun a => { a with arrive := l })).stream h.p = (x, some p))
include hs

theorem packetAdmit_dropped {y : State} (ha : x.admitOne p (cellsOf p.bytes.length) none false none = (y, none)) :
    s.packetAdmit = y.nhDone p := by
  unfold State.packetAdmit
  simp only [harr, hs, ha]

theorem packetAdmit_admitted {y : State} {b : Nat}
    (ha : x.admitOne p (cellsOf p.bytes.length) none false none = (y, some b)) :
    s.packetAdmit = y.mirrorIngress p (cellsOf p.bytes.length) b := by
  unfold State.packetAdmit
  simp only [harr, hs, ha]

end Passed
end First
end Arrival

/-! ### Selection and arrivals at the egress buffer (R360, R372, R378) -/

section Selection
variable {s u : State} (hrun : s.inMode mRUN = true)
include hrun

theorem schedule_none {x : State} (h : s.select = (x, none)) : s.schedule = x := by
  unfold State.schedule
  simp only [hrun, h, Bool.not_true, Bool.false_eq_true, if_false]

theorem schedule_loop {q : Nat} {x : QPkt} (h : s.select = (u, some (q, x))) (hd : (u.depart q x).standalone = true) :
    s.schedule = (u.depart q x).fabUpd (fun f => { f with arrive := f.arrive ++ [.loop x (u.sent 5 (u.l5Of q)).target] }) := by
  unfold State.schedule
  simp only [hrun, h, hd, Bool.not_true, Bool.false_eq_true, if_false, if_true]

theorem schedule_cells {q : Nat} {x : QPkt} (h : s.select = (u, some (q, x))) (hd : (u.depart q x).standalone = false) :
    s.schedule = (let d := u.depart q x
      let dst := (d.sent 6 (d.sent 5 (u.l5Of q)).parent).dest
      let target := (u.sent 5 (u.l5Of q)).target
      d.fabUpd (fun f => { f with data := f.data ++ packetCells x (d.rd F.FAB_CFG_DEV_ID) dst target })) := by
  unfold State.schedule
  simp only [hrun, h, hd, Bool.not_true, Bool.false_eq_true, if_false]

end Selection

section EgressArrival
variable {s u : State}

theorem egArrive_loop {x : QPkt} {target : Nat} {l : List Arrival} (h : s.fab.arrive = .loop x target :: l) :
    s.egArrive = (let u := s.fabUpd (fun f => { f with arrive := l })
      let port := u.adjPort (x.adjOver.getD x.p.adj)
      (u.outstanding target 0 x.cells).egEnter port x.p.tc
        { cells := x.cells, p := { x.p with egrPort := port }, adjOver := x.adjOver }) := by
  unfold State.egArrive
  simp only [h]

theorem egArrive_cell {src : Nat} {c : FCell} {l : List Arrival} (h : s.fab.arrive = .cell src c :: l) :
    s.egArrive = (let u := (s.fabUpd (fun f => { f with arrive := l })).outstanding c.target 0 1
      if c.sop then u.cellFirst src c else u.cellNext src c) := by
  unfold State.egArrive
  simp only [h]

theorem egArrive_gap {src : Nat} {l : List Arrival} (h : s.fab.arrive = .gap src :: l) :
    s.egArrive = (s.fabUpd (fun f => { f with arrive := l })).cellGap src := by
  unfold State.egArrive
  simp only [h]

theorem cellNext_none {src : Nat} {c : FCell} (h : u.openFrame src = none) : u.cellNext src c = u := by
  unfold State.cellNext
  rw [h]

theorem cellNext_open {src p t : Nat} {f : EgrFrame} {c : FCell} (h : u.openFrame src = some (p, t, f)) :
    u.cellNext src c = (let d := u.frameSet p t f { f with
        cells := f.cells + 1, p := { f.p with bytes := f.p.bytes ++ (if c.eop then c.pay.take (c.last + 1) else c.pay) }, whole := c.eop }
      if c.eop then d.frxUpd src (fun r => { r with at_ := none }) else d) := by
  unfold State.cellNext
  simp only [h]

theorem cellGap_none {src : Nat} (h : u.openFrame src = none) : u.cellGap src = u := by
  unfold State.cellGap
  rw [h]

theorem cellGap_open {src p t : Nat} {f : EgrFrame} (h : u.openFrame src = some (p, t, f)) :
    u.cellGap src = (u.frameSet p t f { f with cut := true }).frxUpd src (fun r => { r with at_ := none }) := by
  unfold State.cellGap
  simp only [h]

end EgressArrival

/-! ### Egress ports (R378, R390, R396, R399) -/

section EgressPort
variable {s : State} {p : Nat}

/-- The classes of a port with the heads that never leave dropped and the tags brought up to date. -/
def State.egReady (s : State) (p : Nat) : State :=
  (foldS (List.range 8) (fun c s => s.egTrim p c ((s.eq p c).length + 1)) s).egSync p

theorem egSelect_off (h : s.portTx p = false) : s.egSelect p = s := if_pos (by simp [h])

section On
variable (h : s.portTx p = true)
include h

theorem egSelect_none (hp : ((s.egReady p).egp p).pick = none) : s.egSelect p = s.egReady p := by
  unfold State.egReady at hp ⊢
  unfold State.egSelect
  simp only [h, hp, Bool.not_true, Bool.false_eq_true, if_false]

theorem egSelect_head {c : Nat} {f : EgrFrame} {l : List EgrFrame} (hp : ((s.egReady p).egp p).pick = some c)
    (hq : (s.egReady p).eqRest p c = f :: l) :
    s.egSelect p = (let u := s.egReady p
      let x := if f.chosen then u else (u.egServe p c f.p.bytes.length).egMark p c
      (x.pstUpd p (fun y => { y with planned := y.planned ++ [⟨c, u.planAt p f⟩] })).egpUpd
          p (fun y => { y with busy := u.planAt p f + u.planT p f * 65536 })) := by
  unfold State.egReady at hp hq ⊢
  unfold State.egSelect
  simp only [h, hp, hq, Bool.not_true, Bool.false_eq_true, if_false]

end On

/-- The first frame back from its gallery whose class is not paused. -/
def State.macHead (s : State) (p : Nat) : Option Pkt :=
  (s.egp p).mac.find? (fun x => !s.pausedAt p x.tc (max x.plan s.t16))

theorem portTransmit_off (h : s.portTx p = false) (lane : Nat) : s.portTransmit p lane = s := if_pos (by simp [h])

section Transmit
variable (h : s.portTx p = true) (lane : Nat)
include h

theorem portTransmit_mac {x : Pkt} (hm : s.macHead p = some x) :
    s.portTransmit p lane = (s.egpUpd p (fun y => { y with mac := eraseFirst x y.mac })).macFrame p lane x := by
  unfold State.macHead at hm
  unfold State.portTransmit
  simp only [h, hm, Bool.not_true, Bool.false_eq_true, if_false]

theorem portTransmit_planned (hm : s.macHead p = none) {pl : Planned} {l : List Planned} {f : EgrFrame} {r : List EgrFrame}
    (hpl : (s.pst p).planned = pl :: l) (hq : s.eq p pl.cls = f :: r) :
    s.portTransmit p lane =
      if s.pausedAt p pl.cls (max pl.start s.t16) then s.pstUpd p (fun x => { x with planned := l.filter (fun y => y.cls != pl.cls) })
      else ((s.pstUpd p (fun x => { x with planned := l })).egPop p pl.cls).editFrame p lane f
        { f.p with egrPort := p, plan := pl.start, entry := f.entry, tc := pl.cls } := by
  unfold State.macHead at hm
  unfold State.portTransmit
  simp only [h, hm, hpl, hq, Bool.not_true, Bool.false_eq_true, if_false]

end Transmit

/-- A plain copy is parsed and sent without an edit. -/
theorem editFrame_plain {lane : Nat} {f : EgrFrame} (x : Pkt) (h : f.plain = true) :
    s.editFrame p lane f x = (s.countParse (s.portSlice p) true (s.parse x.bytes).2).macFrame p lane x := by
  unfold State.editFrame
  simp only [h, if_true]

theorem holdEnd_flush {n : Nat} (hf : (s.pst p).fall = some n) (hh : s.rd (F.ADM_EPORT_HOLDING.at p) ≠ 0) :
    s.holdEnd p = (s.advanceTo ((n + (s.pst p).holdUs * 1000 * 65536) * tuFrac)).holdFlush p := by
  unfold State.holdEnd
  simp only [hf, on_true hh, if_true]

end EgressPort

/-! ### A changed egress queue leaves the registers of the ports' slices (R335, R338) -/

theorem regs_cells1Take (s : State) (n : Nat) : (s.cells1Take n).1.regs = s.regs := by
  induction n generalizing s with
  | zero => rfl
  | succ n ih => exact ih _

theorem regs_chainFill (s : State) (l : List EgrFrame) : (s.chainFill l).1.regs = s.regs := by
  induction l generalizing s with
  | nil => rfl
  | cons f l ih => exact (ih _).trans (regs_cells1Take s _)

section Below
variable (s : State) {a : Nat} (h : a < 0xb00000)
include h

/-- A write of a field of HRD or above leaves the words below HRD. -/
theorem rdw_wr_below {f : Fld} (hf : 0xb00000 ≤ f.addr) (v : Nat) : (s.wr f v).rdw a = s.rdw a :=
  rdw_wr_ne s f v a (by omega)

theorem rdw_cnt_below {r : Reg} (hr : 0xb00000 ≤ r.addr) (off n : Nat) : (s.cnt r off n).rdw a = s.rdw a :=
  rdw_wr64_ne s _ _ (by dsimp only; omega)

theorem rdw_poolTake_below (k n : Nat) : (s.poolTake k n).rdw a = s.rdw a := by
  have hfree : 0xb00000 ≤ (F.HRD_POOL_STATUS_FREE.at k).addr := Nat.le_trans (by decide) (Nat.le_add_right _ _)
  have hlow : 0xb00000 ≤ (F.HRD_POOL_STATUS_LOW_WATER.at k).addr := Nat.le_trans (by decide) (Nat.le_add_right _ _)
  have hcnt : 0xb00000 ≤ (R.HRD_CNT.at k).addr := Nat.le_trans (by decide) (Nat.le_add_right _ _)
  unfold State.poolTake
  dsimp only
  rw [rdw_wr_below _ h hlow, rdw_cnt_below _ h hcnt, rdw_wr_below _ h hfree]

theorem rdw_poolGive_below (k n : Nat) : (s.poolGive k n).rdw a = s.rdw a := by
  have hfree : 0xb00000 ≤ (F.HRD_POOL_STATUS_FREE.at k).addr := Nat.le_trans (by decide) (Nat.le_add_right _ _)
  have hcnt : 0xb00000 ≤ (R.HRD_CNT.at k).addr := Nat.le_trans (by decide) (Nat.le_add_right _ _)
  unfold State.poolGive
  rw [rdw_cnt_below _ h hcnt, rdw_wr_below _ h hfree]

theorem rdw_eqSet_below (p c : Nat) (l : List EgrFrame) : (s.eqSet p c l).rdw a = s.rdw a := by
  have hdepth : 0xb00000 ≤ (F.SCH_EQ_DEPTH_CELLS.at (8 * p + c)).addr := Nat.le_trans (by decide) (Nat.le_add_right _ _)
  have hfill : (s.chainFill l).1.rdw a = s.rdw a := rdw_congr (regs_chainFill s l) a
  unfold State.eqSet
  dsimp only
  rw [rdw_wr_below _ h (by decide)]
  split
  · rw [rdw_poolTake_below _ h, rdw_wr_below _ h hdepth]
    exact hfill
  · split
    · rw [rdw_poolGive_below _ h, rdw_wr_below _ h hdepth]
      exact hfill
    · rw [rdw_wr_below _ h hdepth]
      exact hfill

end Below

/-- The head of an egress queue leaves: the slice of the port stays. -/
theorem portSlice_egPop (s : State) {p : Nat} (hp : p < 400) (f : PortSt → PortSt) (c : Nat) :
    ((s.pstUpd p f).egPop p c).portSlice p = s.portSlice p := by
  have hrd (x : Fld) (hx : x.addr < 0xb00000) : ((s.pstUpd p f).egPop p c).rd x = s.rd x :=
    congrArg (fun w : Word => bits w.toNat x.hi x.lo) (rdw_eqSet_below (s.pstUpd p f) hx p c _)
  have hport : p < 144 → (F.LPT_CFG_SLICE.at p).addr < 0xb00000 := fun h => by
    simp only [Fld.at, F.LPT_CFG_SLICE]
    omega
  have hchan : ((F.OTN_PC_CFG_SLICE.on ((p - 256) / 8)).at ((p - 256) % 8)).addr < 0xb00000 := by
    simp only [Fld.at, Fld.on, F.OTN_PC_CFG_SLICE]
    omega
  unfold State.portSlice
  split
  next h => exact hrd _ (hport h)
  next =>
    split
    · rfl
    · exact hrd _ hchan

/-- Settles O47: each event of the TM die is read off by the case it takes. -/
theorem packetsAreAdmittedScheduledAndSent : Obligations.PacketsAreAdmittedScheduledAndSent := by
  unfold Obligations.PacketsAreAdmittedScheduledAndSent
  intro s
  refine ⟨fun h l harr => ⟨fun x hs => ?_, fun x p hs => ⟨fun hen => ?_, fun hen => ⟨fun ht => ?_, fun k ht => ?_, fun u v ht => ?_⟩⟩⟩,
    fun n q p t c => admitTest_charges n q p t c, fun hrun => ⟨fun x hs => ?_, fun u q x hs => ⟨fun hd => ?_, fun hd => ?_⟩⟩,
    fun x target l h => ?_, fun src c l h => ⟨fun hc => ?_, fun hc ho => ?_, fun p t f hc ho => ?_⟩,
    fun src l h => ⟨fun ho => ?_, fun p t f ho => ?_⟩, fun p h => ⟨fun hp => ?_, fun c f l hp hq => ?_⟩,
    fun p lane h => ⟨fun x hm => ?_, fun pl l f r hm hpl hq => ?_⟩, fun p lane h => ?_, fun p n hf hh => ?_⟩
  · exact congrArg Host.Outcome.next (packetAdmit_streamed harr hs)
  · exact congrArg Host.Outcome.next (packetAdmit_dropped harr hs (admitOne_disabled hen _ _ _ _))
  · exact congrArg Host.Outcome.next (packetAdmit_dropped harr hs (admitOne_drop hen _ ht))
  · exact congrArg Host.Outcome.next (packetAdmit_admitted harr hs (admitOne_charge hen _ ht))
  · exact congrArg Host.Outcome.next (packetAdmit_admitted harr hs (admitOne_push hen _ ht))
  · exact congrArg Host.Outcome.next (schedule_none hrun hs)
  · exact congrArg Host.Outcome.next (schedule_loop hrun hs hd)
  · exact congrArg Host.Outcome.next (schedule_cells hrun hs hd)
  · exact congrArg Host.Outcome.next (egArrive_loop h)
  · exact congrArg Host.Outcome.next ((egArrive_cell h).trans (if_pos hc))
  · exact congrArg Host.Outcome.next ((egArrive_cell h).trans ((if_neg (by simp [hc])).trans (cellNext_none ho)))
  · exact congrArg Host.Outcome.next ((egArrive_cell h).trans ((if_neg (by simp [hc])).trans (cellNext_open ho)))
  · exact congrArg Host.Outcome.next ((egArrive_gap h).trans (cellGap_none ho))
  · exact congrArg Host.Outcome.next ((egArrive_gap h).trans (cellGap_open ho))
  · exact congrArg Host.Outcome.next (egSelect_none h hp)
  · exact congrArg Host.Outcome.next (egSelect_head h hp hq)
  · exact congrArg Host.Outcome.next (portTransmit_mac h lane.val hm)
  · have hplan := portTransmit_planned h lane.val hm hpl hq
    refine ⟨fun hpause => congrArg Host.Outcome.next (hplan.trans (if_pos hpause)), fun hgo => ?_⟩
    have hedit := hplan.trans (if_neg (by simp [hgo]))
    refine ⟨fun hf => ?_, fun _ => congrArg Host.Outcome.next hedit⟩
    rw [editFrame_plain _ hf, portSlice_egPop s p.isLt] at hedit
    exact congrArg Host.Outcome.next hedit
  · exact ⟨congrArg Host.Outcome.next (portTransmit_off h lane.val), congrArg Host.Outcome.next (egSelect_off h)⟩
  · exact congrArg Host.Outcome.next (holdEnd_flush hf hh)

end Sys2Proof.Machine

namespace Sys2Proof.Machine

/-! ### SVY commands (R459, R461) -/

section Survey
variable {s u : State} {v : Word}

theorem svyCmd_writeCfg_refused {i : Nat} (hm : bitN (u.rdr (R.SVY_IND_DATA.at 0)) 29 = true)
    (he : u.on (F.SVY_MIRROR_EN.at (bits (u.rdr (R.SVY_IND_DATA.at 0)) 5 0)) = false) : u.svyCmd 1 i = u.svyDone 1 :=
  if_pos (by rw [hm, he]; rfl)

theorem svyCmd_writeCfg_stores {i : Nat} (h : bitN (u.rdr (R.SVY_IND_DATA.at 0)) 29 = false ∨
      u.on (F.SVY_MIRROR_EN.at (bits (u.rdr (R.SVY_IND_DATA.at 0)) 5 0)) = true) :
    u.svyCmd 1 i = (u.hctxPut i { u.hctx i with
      cfg := bits (u.rdr (R.SVY_IND_DATA.at 0)) 31 24 * 2 ^ 24 + bits (u.rdr (R.SVY_IND_DATA.at 0)) 5 0 }).svyDone 0 :=
  if_neg (by rcases h with h | h <;> simp [h])

theorem svyCmd_readCfg (i : Nat) : u.svyCmd 2 i = (u.svyShow [(u.hctx i).cfg]).svyDone 0 := rfl

theorem svyCmd_readHist {i k : Nat} (h : u.histLast = some k) : u.svyCmd 3 i = u.svyRead i k true := by
  simp only [State.svyCmd, h]

theorem svyCmd_readHist_none {i : Nat} (h : u.histLast = none) : u.svyCmd 3 i = (u.svyShow (HBank.show {} false)).svyDone 0 := by
  simp only [State.svyCmd, h]

theorem svyCmd_readCur (i : Nat) : u.svyCmd 4 i = u.svyRead i (if u.histOver then u.histWin u.t16 else u.svy.win) true := rfl

theorem bankFor_same {d k : Nat} (h : ((s.hctx d).bank k).win = k) : s.bankFor d k = (s, (s.hctx d).bank k) := if_pos h

/-- The command does not change what it reads: its configuration words and the mirror sessions. -/
theorem rdr_svyPut (s : State) (v : Word) (op : Nat) :
    (s.cmdPut R.SVY_IND_CMD v 2 op).rdr (R.SVY_IND_DATA.at 0) = s.rdr (R.SVY_IND_DATA.at 0) :=
  congrArg BitVec.toNat (rdw_hostPut_ne s _ (by decide))

theorem on_mirror_svyPut (s : State) (v : Word) (op n : Nat) :
    (s.cmdPut R.SVY_IND_CMD v 2 op).on (F.SVY_MIRROR_EN.at n) = s.on (F.SVY_MIRROR_EN.at n) := by
  have hne : (F.SVY_MIRROR_EN.at n).addr ≠ R.SVY_IND_CMD.addr := by
    simp only [Fld.at, F.SVY_MIRROR_EN, R.SVY_IND_CMD]
    omega
  rw [State.on, State.cmdPut, rd_hostPut_ne s _ hne, State.on]

theorem hctx_svyPut (s : State) (v : Word) (op i : Nat) : (s.cmdPut R.SVY_IND_CMD v 2 op).hctx i = s.hctx i := by
  obtain ⟨m, hm⟩ := cmdPut_form s R.SVY_IND_CMD v 2 op
  rw [hm]
  rfl

theorem surveyCommands (h : s.takes R.SVY_IND_CMD F.SVY_IND_STATUS_BUSY) :
    let u (op : Nat) : State := s.cmdPut R.SVY_IND_CMD v 2 op
    let i := bits v.toNat 27 12
    (let w := s.rdr (R.SVY_IND_DATA.at 0);
        (bitN w 29 = true → s.on (F.SVY_MIRROR_EN.at (bits w 5 0)) = false → exec (.svyWriteCfg v) s = .next ((u 1).svyDone 1))
        ∧ (bitN w 29 = false ∨ s.on (F.SVY_MIRROR_EN.at (bits w 5 0)) = true → exec (.svyWriteCfg v) s =
          .next (((u 1).hctxPut i { s.hctx i with cfg := bits w 31 24 * 2 ^ 24 + bits w 5 0 }).svyDone 0)))
      ∧ exec (.svyReadCfg v) s = .next (((u 2).svyShow [(s.hctx i).cfg]).svyDone 0)
      ∧ (let got (w : State) (k : Nat) : State :=
          if k < ((w.hctx i).bank k).win then (w.svyShow (HBank.show { win := k } false)).svyDone 0
          else let x := w.bankFor i k; ((x.1.hctxPut i ((x.1.hctx i).setBank k x.2)).svyShow (x.2.show true)).svyDone 0
        (∀ k, (u 3).histLast = some k → exec (.svyReadHist v) s = .next (got (u 3) k))
        ∧ ((u 3).histLast = none → exec (.svyReadHist v) s = .next (((u 3).svyShow (HBank.show {} false)).svyDone 0))
        ∧ exec (.svyReadCur v) s = .next (got (u 4) (if (u 4).histOver then (u 4).histWin (u 4).t16 else (u 4).svy.win))) := by
  intro u i
  have hexec (op : Nat) (h0 : op ≠ 0) (h8 : op < 8) := indWrite_svy h v h0 h8
  have hw : (u 1).rdr (R.SVY_IND_DATA.at 0) = s.rdr (R.SVY_IND_DATA.at 0) := rdr_svyPut s v 1
  have hen (n : Nat) : (u 1).on (F.SVY_MIRROR_EN.at n) = s.on (F.SVY_MIRROR_EN.at n) := on_mirror_svyPut s v 1 n
  have hctx (op : Nat) : (u op).hctx i = s.hctx i := hctx_svyPut s v op i
  have hwrite : exec (.svyWriteCfg v) s = .next ((u 1).svyCmd 1 i) := congrArg Host.Outcome.next (hexec 1 (by decide) (by decide))
  have hcfg : exec (.svyReadCfg v) s = .next ((u 2).svyCmd 2 i) := congrArg Host.Outcome.next (hexec 2 (by decide) (by decide))
  have hhist : exec (.svyReadHist v) s = .next ((u 3).svyCmd 3 i) := congrArg Host.Outcome.next (hexec 3 (by decide) (by decide))
  have hcur : exec (.svyReadCur v) s = .next ((u 4).svyCmd 4 i) := congrArg Host.Outcome.next (hexec 4 (by decide) (by decide))
  refine ⟨⟨fun hm he => ?_, fun hm => ?_⟩, ?_, fun k hk => ?_, fun hk => ?_, ?_⟩
  · rw [hwrite, svyCmd_writeCfg_refused (by rw [hw]; exact hm) (by rw [hw, hen]; exact he)]
  · rw [hwrite, svyCmd_writeCfg_stores (by rw [hw, hen]; exact hm), hw, hctx]
  · rw [hcfg, svyCmd_readCfg, hctx]
  · rw [hhist, svyCmd_readHist hk]
    rfl
  · rw [hhist, svyCmd_readHist_none hk]
  · rw [hcur, svyCmd_readCur]
    rfl

/-! ### The dump ring (R443, R451) -/

theorem dumpWaiting_urgent {r : DumpRec} {l : List DumpRec} (hu : s.svy.urgent = r :: l) (hr : s.dumpRoom r.len = true) :
    s.dumpWaiting = (s.dumpPut r).svyUpd (fun x => { x with urgent := l }) := by
  have hone : s.dumpOne = ((s.dumpPut r).svyUpd (fun x => { x with urgent := l }), true) := by
    unfold State.dumpOne
    simp only [hu, hr, Bool.not_true, Bool.false_eq_true, if_false]
  simp only [State.dumpWaiting, hone, if_true]

theorem dumpWaiting_snapshot {n : Nat} {r : DumpRec} {l : List (Nat × DumpRec)} (hu : s.svy.urgent = [])
    (hw : s.svy.work = (n, r) :: l) (hb : r.words.length / 2 ≤ s.svy.cntLeft) (hr : s.dumpRoom r.len = true) :
    s.dumpWaiting = (s.dumpPut r).svyUpd (fun x => { x with work := l, cntLeft := x.cntLeft - r.words.length / 2 }) := by
  have hone : s.dumpOne =
      ((s.dumpPut r).svyUpd (fun x => { x with work := l, cntLeft := x.cntLeft - r.words.length / 2 }), true) := by
    unfold State.dumpOne
    simp only [hu, hw, hr, if_neg (Nat.not_lt.mpr hb), Bool.not_true, Bool.false_eq_true, if_false]
  simp only [State.dumpWaiting, hone, if_true]

theorem dumpWaiting_report {d : Nat} {l : List Nat} (hu : s.svy.urgent = []) (hw : s.svy.work = []) (hd : s.svy.due = d :: l)
    (hb : s.svy.histLeft ≠ 0) (hr : s.dumpRoom 352 = true) :
    s.dumpWaiting = (s.reportPut d).svyUpd (fun x => { x with due := l, histLeft := x.histLeft - 1 }) := by
  have hone : s.dumpOne = (s, false) := by
    unfold State.dumpOne
    simp only [hu, hw]
  simp only [State.dumpWaiting, hone, Bool.false_eq_true, if_false, State.reportPump, hd, hb, hr, Bool.not_true]

theorem dumpPut_fits {r : DumpRec} (h : s.dumpPad r.len = 0) : s.dumpPut r =
    (((s.emit (.dmaWrite (s.rd64 R.SVY_RING_BASE + s.rd F.SVY_RING_PROD_OFS) (r.bytes s.svy.seq))).wr F.SVY_RING_PROD_OFS
      ((s.rd F.SVY_RING_PROD_OFS + r.len) % s.dumpSize)).cnt R.SVY_CNT (if r.hist then 0x18 else 0x10)).svyUpd
        (fun v => { v with seq := (v.seq + 1) % 2 ^ 64 }) := by
  unfold State.dumpPut
  simp only [h, if_true]

theorem dumpPut_next {r : DumpRec} (h : s.dumpPad r.len = 0) : (s.dumpPut r).svy.seq = (s.svy.seq + 1) % 2 ^ 64
    ∧ (s.dumpPut r).out = .dmaWrite (s.rd64 R.SVY_RING_BASE + s.rd F.SVY_RING_PROD_OFS) (r.bytes s.svy.seq) :: s.out := by
  rw [dumpPut_fits h]
  refine ⟨?_, ?_⟩
  · simp [State.svyUpd]
  · simp [State.svyUpd, State.emit]

end Survey

/-! ### Engine performance counters (R455, R457) -/

section Pmc
variable {s : State}

theorem rdw_pmcFree_ne (s : State) {g j a : Nat} (h : a ≠ ((R.PMC_VAL.on g).at j).addr ∧ a ≠ ((R.PMC_VAL.on g).at j).addr + 4) :
    (s.pmcFree g j).rdw a = s.rdw a := by
  unfold State.pmcFree
  split
  · exact rdw_wr64_ne _ _ _ h
  · rfl

/-- The words of a gallery's PMC page below its counters. -/
theorem rdw_pmcFrees_low (s : State) {g a : Nat} (h : a < R.PMC_VAL.addr + g * 0x10000) :
    (foldS (List.range 64) (fun j s => s.pmcFree g j) s).rdw a = s.rdw a := by
  refine foldS_inv (fun t => t.rdw a = s.rdw a) _ _ _ rfl (fun j _ t ht => (rdw_pmcFree_ne t ?_).trans ht)
  simp only [Reg.at, Reg.on, R.PMC_VAL] at h ⊢
  omega

theorem ok_run (g : Nat) : (F.PMC_CTRL_RUN.at g).ok = true := by simp [Fld.ok, Fld.at, F.PMC_CTRL_RUN]

theorem width_run (g : Nat) : (F.PMC_CTRL_RUN.at g).width = 1 := rfl

theorem rd_run_pmcSetRun (s : State) (g run : Nat) : (s.pmcSetRun g run).rd (F.PMC_CTRL_RUN.at g) = run % 2 := by
  rw [State.pmcSetRun, rd_wr_same _ _ _ (ok_run g), width_run, pow_one]

theorem ok_atTick (g : Nat) : (F.PMC_CTRL_AT_TICK.at g).ok = true := by simp [Fld.ok, Fld.at, F.PMC_CTRL_AT_TICK]

theorem width_atTick (g : Nat) : (F.PMC_CTRL_AT_TICK.at g).width = 1 := rfl

theorem rd_atTick_pmcSetRun (s : State) (g run : Nat) :
    (s.pmcSetRun g run).rd (F.PMC_CTRL_AT_TICK.at g) = s.rd (F.PMC_CTRL_AT_TICK.at g) := by
  have hlow : (F.PMC_CTRL_AT_TICK.at g).addr < R.PMC_VAL.addr + g * 0x10000 := by
    simp only [Fld.at, F.PMC_CTRL_AT_TICK, R.PMC_VAL]
    omega
  have hapart : (F.PMC_CTRL_RUN.at g).apart (F.PMC_CTRL_AT_TICK.at g) = true := by
    simp [Fld.apart, Fld.ok, Fld.at, F.PMC_CTRL_RUN, F.PMC_CTRL_AT_TICK]
  rw [State.pmcSetRun, rd_wr_apart _ _ _ _ hapart, State.rd, rdw_pmcFrees_low s hlow, State.rd]

theorem wordShape_pmcCtrl (g : Fin 8) : wordShape (R.PMC_CTRL.at g.val).addr = some ("PMC_CTRL", [g.val], .w32) := by
  decide +revert +kernel

theorem unitWrite_pmcCtrl (s : State) (g a : Nat) (v : Word) :
    s.unitWrite "PMC_CTRL" [g] a v = some (s.pmcRun g (bitN v.toNat 0) (bitN v.toNat 1)) := by
  unfold State.unitWrite
  rfl

theorem bar0Write_pmcCtrl {g : Fin 8} (h : s.serves (R.PMC_CTRL.at g.val).addr) (v : Word) :
    s.bar0Write (R.PMC_CTRL.at g.val).addr v = s.pmcRun g.val (bitN v.toNat 0) (bitN v.toNat 1) :=
  bar0Write_taken h (by simp [State.fabGone]) (wordShape_pmcCtrl g) rfl (unitWrite_pmcCtrl s g.val _ v) _

/-- The RUN write of a gallery that waits for its tick. -/
def State.pmcWaits (s : State) (g : Nat) : Option (Nat × Nat) := mget (fun _ => none) s.pmcSt.runAt g

/-- The RUN write that waits is replaced. -/
def State.pmcWait (s : State) (g : Nat) (x : Option (Nat × Nat)) (p : PmcState) : State :=
  { s with pmcSt := { p with runAt := mset (fun _ => none) p.runAt g x } }

theorem rd_pmcWait (s : State) (g : Nat) (x : Option (Nat × Nat)) (p : PmcState) (f : Fld) : (s.pmcWait g x p).rd f = s.rd f := rfl

theorem pmcWaits_pmcWait (s : State) (g : Nat) (x : Option (Nat × Nat)) (p : PmcState) : (s.pmcWait g x p).pmcWaits g = x := by
  simp [State.pmcWaits, State.pmcWait]

theorem pmcRun_atOnce (s : State) (g : Nat) (run : Bool) :
    (s.pmcRun g run false).rd (F.PMC_CTRL_AT_TICK.at g) = 0 ∧ (s.pmcRun g run false).rd (F.PMC_CTRL_RUN.at g) = b2n run
      ∧ (s.pmcRun g run false).pmcWaits g = none := by
  have hform : s.pmcRun g run false = ((s.wr (F.PMC_CTRL_AT_TICK.at g) 0).pmcSetRun g (b2n run)).pmcWait g none
      (s.wr (F.PMC_CTRL_AT_TICK.at g) 0).pmcSt := rfl
  have hrun : b2n run % 2 = b2n run := by cases run <;> rfl
  rw [hform, rd_pmcWait, rd_pmcWait, rd_atTick_pmcSetRun, rd_run_pmcSetRun, pmcWaits_pmcWait,
    rd_wr_same _ _ _ (ok_atTick g), width_atTick, pow_one]
  exact ⟨rfl, hrun, rfl⟩

theorem pmcRun_atTick (s : State) (g : Nat) (run : Bool) :
    (s.pmcRun g run true).rd (F.PMC_CTRL_AT_TICK.at g) = 1
      ∧ (s.pmcRun g run true).rd (F.PMC_CTRL_RUN.at g) = s.rd (F.PMC_CTRL_RUN.at g)
      ∧ (s.pmcRun g run true).pmcWaits g = some (b2n run, max (s.rd64 (R.PMC_TICK.at g)) s.tb.nextTick) := by
  have hform : s.pmcRun g run true = (s.wr (F.PMC_CTRL_AT_TICK.at g) 1).pmcWait g
      (some (b2n run, max ((s.wr (F.PMC_CTRL_AT_TICK.at g) 1).rd64 (R.PMC_TICK.at g))
        (s.wr (F.PMC_CTRL_AT_TICK.at g) 1).tb.nextTick)) (s.wr (F.PMC_CTRL_AT_TICK.at g) 1).pmcSt := rfl
  have htick : (s.wr (F.PMC_CTRL_AT_TICK.at g) 1).rd64 (R.PMC_TICK.at g) = s.rd64 (R.PMC_TICK.at g) := by
    refine rd64_wr_ne _ _ _ _ ?_
    simp only [Fld.at, Reg.at, F.PMC_CTRL_AT_TICK, R.PMC_TICK]
    omega
  have hapart : (F.PMC_CTRL_AT_TICK.at g).apart (F.PMC_CTRL_RUN.at g) = true := by
    simp [Fld.apart, Fld.ok, Fld.at, F.PMC_CTRL_RUN, F.PMC_CTRL_AT_TICK]
  rw [hform, htick, wr_tb, rd_pmcWait, rd_pmcWait, rd_wr_apart _ _ _ _ hapart, pmcWaits_pmcWait,
    rd_wr_same _ _ _ (ok_atTick g), width_atTick, pow_one]
  exact ⟨rfl, rfl, rfl⟩

theorem pmcRunDue_issued {g n t : Nat} (h : s.pmcWaits g = some (n, t)) (ht : t ≤ s.tick) (hr : s.running = true) :
    (s.pmcRunDue g).rd (F.PMC_CTRL_RUN.at g) = n % 2 ∧ (s.pmcRunDue g).pmcWaits g = none := by
  have hform : s.pmcRunDue g = (s.pmcSetRun g n).pmcWait g none s.pmcSt := by
    unfold State.pmcWaits at h
    unfold State.pmcRunDue State.pmcWait
    simp only [h, ht, hr, and_self, if_true]
  rw [hform, rd_pmcWait, rd_run_pmcSetRun, pmcWaits_pmcWait]
  exact ⟨rfl, rfl⟩

theorem bits_one (n i : Nat) : bits n i i = b2n (bitN n i) := by
  have hwidth : i + 1 - i = 1 := by omega
  have hbit : b2n (bitN n i) = (n.testBit i).toNat := by cases h : n.testBit i <;> simp [bitN, b2n, h]
  rw [bits, hwidth, pow_one, Nat.shiftRight_eq_div_pow, hbit, Nat.toNat_testBit]

/-- A served write of PMC_CTRL sets RUN at once, or leaves it and waits for a tick. -/
theorem runWrite_sets {g : Fin 8} (hs : s.serves (R.PMC_CTRL.at g.val).addr) (v : Word) :
    ∃ t, exec (.pmcRunWrite g v) s = .next t
        ∧ t.rd (F.PMC_CTRL_AT_TICK.at g.val) = bits v.toNat 1 1
        ∧ (v.getLsbD 1 = false → t.rd (F.PMC_CTRL_RUN.at g.val) = bits v.toNat 0 0 ∧ t.pmcWaits g.val = none)
        ∧ (v.getLsbD 1 = true → t.rd (F.PMC_CTRL_RUN.at g.val) = s.rd (F.PMC_CTRL_RUN.at g.val)
          ∧ t.pmcWaits g.val = some (bits v.toNat 0 0, max (s.rd64 (R.PMC_TICK.at g.val)) s.tb.nextTick)) := by
  refine ⟨_, congrArg Host.Outcome.next (bar0Write_pmcCtrl hs v), ?_⟩
  have hbit : v.getLsbD 1 = bitN v.toNat 1 := rfl
  rw [bits_one, bits_one, hbit]
  cases bitN v.toNat 1 with
  | false =>
    obtain ⟨hat, hrun, hwait⟩ := pmcRun_atOnce s g.val (bitN v.toNat 0)
    exact ⟨hat, fun _ => ⟨hrun, hwait⟩, nofun⟩
  | true =>
    obtain ⟨hat, hrun, hwait⟩ := pmcRun_atTick s g.val (bitN v.toNat 0)
    exact ⟨hat, nofun, fun _ => ⟨hrun, hwait⟩⟩

/-! ### The sample FIFO (R457) -/

theorem pmcFifo_pmcFifoSet (s : State) (g : Nat) (l : List Nat) : (s.pmcFifoSet g l).pmcFifo g = l := by
  rw [State.pmcFifo, State.pmcFifoSet, wr_pmcSt, wr64_pmcSt]
  dsimp only
  rw [mget_mset, if_pos rfl]

theorem rd64_sfifo_pmcFifoSet (s : State) (g : Nat) (l : List Nat) :
    (s.pmcFifoSet g l).rd64 (R.PMC_SFIFO.at g) = l.headD 0 % 2 ^ 64 := by
  rw [State.pmcFifoSet, rd64_wr_ne _ _ _ _ ?_, rd64_wr64_same]
  simp only [Fld.at, Reg.at, F.PMC_SFIFO_STATUS_LEVEL, R.PMC_SFIFO]
  omega

/-- What a read of the low word of a pair does before it pops: it latches the high word and clears what a read clears. -/
theorem lowRead_form (s : State) (a : Nat) (c : Bool) : ∃ m l,
    (let y := ((s.latched a).rcClear a).rcClear (a + 4)
      if c && y.on F.SVY_CNT_CFG_COR then y.wr64 ⟨a, 0, 0⟩ 0 else y) = { s with regs := m, latch := l } := by
  have hclear (u : State) (x : Nat) : ∃ m, u.rcClear x = { u with regs := m } := ⟨_, rfl⟩
  have hy : ∃ m l, ((s.latched a).rcClear a).rcClear (a + 4) = { s with regs := m, latch := l } := by
    obtain ⟨m1, h1⟩ := hclear (s.latched a) a
    obtain ⟨m2, h2⟩ := hclear ((s.latched a).rcClear a) (a + 4)
    rw [h2, h1, State.latched]
    exact ⟨m2, _, rfl⟩
  obtain ⟨m, l, hy⟩ := hy
  dsimp only
  rw [hy]
  split
  · obtain ⟨n, hn⟩ := wr64_form { s with regs := m, latch := l } ⟨a, 0, 0⟩ 0
    exact ⟨n, l, hn⟩
  · exact ⟨m, l, rfl⟩

/-- A served read of the low word of a pair completes after changes of registers and latches, and pops what it pops. -/
theorem bar0Read_low {a : Nat} {name : String} {ix : List Nat} (hs : s.serves a) (hf : s.fabGone name = false)
    (hw : wordShape a = some (name, ix, .lo)) (hlive : s.refresh name ix a = s) :
    ∃ m l w, s.bar0Read a = (State.popped { s with regs := m, latch := l } name ix a).emit (.read a w) := by
  obtain ⟨r, hreg, rfl, hrole⟩ := regRow_of_wordShape hw
  have hread := regRead_lo hreg hf hrole
  obtain ⟨m, l, hm⟩ := lowRead_form s a (isCounter r.fields)
  dsimp only at hread
  rw [hlive] at hread
  rw [bar0Read_serves hs, hread, hm]
  exact ⟨m, l, _, rfl⟩

theorem wordShape_sfifo (g : Fin 8) : wordShape (R.PMC_SFIFO.at g.val).addr = some ("PMC_SFIFO", [g.val], .lo) := by
  decide +revert +kernel

theorem popped_sfifo (s : State) (g : Nat) : s.popped "PMC_SFIFO" [g] (R.PMC_SFIFO.at g).addr = s.pmcPop g := by
  unfold State.popped
  simp only [List.headD_cons, if_true]

theorem refresh_sfifo (s : State) (g a : Nat) : s.refresh "PMC_SFIFO" [g] a = s := by
  unfold State.refresh
  rfl

theorem bar0Read_sfifo {g : Fin 8} (hs : s.serves (R.PMC_SFIFO.at g.val).addr) :
    ∃ m l w, s.bar0Read (R.PMC_SFIFO.at g.val).addr =
      (State.pmcPop { s with regs := m, latch := l } g.val).emit (.read (R.PMC_SFIFO.at g.val).addr w) := by
  obtain ⟨m, l, w, h⟩ := bar0Read_low hs (name := "PMC_SFIFO") (ix := [g.val]) (by simp [State.fabGone]) (wordShape_sfifo g)
    (refresh_sfifo ..)
  exact ⟨m, l, w, by rw [h, popped_sfifo]⟩

theorem pmcFifo_emit (s : State) (o : Out) (g : Nat) : (s.emit o).pmcFifo g = s.pmcFifo g := rfl

theorem rd64_emit (s : State) (o : Out) (r : Reg) : (s.emit o).rd64 r = s.rd64 r := rfl

theorem pmcPop_sfifo (s : State) (g : Nat) : (s.pmcPop g).pmcFifo g = (s.pmcFifo g).tail
    ∧ (s.pmcPop g).rd64 (R.PMC_SFIFO.at g) = (s.pmcFifo g).tail.headD 0 % 2 ^ 64 :=
  ⟨pmcFifo_pmcFifoSet _ _ _, rd64_sfifo_pmcFifoSet _ _ _⟩

theorem bar0Read_sfifo_pops {g : Fin 8} (hs : s.serves (R.PMC_SFIFO.at g.val).addr) :
    (s.bar0Read (R.PMC_SFIFO.at g.val).addr).pmcFifo g.val = (s.pmcFifo g.val).tail
      ∧ (s.bar0Read (R.PMC_SFIFO.at g.val).addr).rd64 (R.PMC_SFIFO.at g.val) = (s.pmcFifo g.val).tail.headD 0 % 2 ^ 64 := by
  obtain ⟨m, l, w, h⟩ := bar0Read_sfifo hs
  rw [h, pmcFifo_emit, rd64_emit]
  exact pmcPop_sfifo { s with regs := m, latch := l } g.val

/-- A sample enters the FIFO of a gallery, which holds `l`, or is counted in LOST. -/
def State.pmcPush (s : State) (g : Nat) (l : List Nat) (w : Nat) : State :=
  if 256 ≤ l.length then s.satInc (F.PMC_SFIFO_STATUS_LOST.at g)
  else if 128 ≤ l.length + 1 then (s.pmcFifoSet g (l ++ [w])).raise (eg 14 (1 + g))
  else s.pmcFifoSet g (l ++ [w])

/-- The word of a sample. -/
def sampleWord (ns e c t idx : Nat) : Nat := idx % 65536 * 2 ^ 48 + e * 2 ^ 45 + t * 2 ^ 42 + c * 2 ^ 39 + ns % 2 ^ 38

/-- Counter `j` of a gallery samples cycles and runs. -/
def State.pmcTimes (s : State) (g j : Nat) : Bool :=
  pmcTimed (s.rd ((F.PMC_SEL_EVENT.on g).at j)) && s.on (F.PMC_CTRL_RUN.at g) && s.on ((F.PMC_SEL_EN.on g).at j)
    && s.on ((F.PMC_SEL_SAMPLE_EN.on g).at j)

section Sample
variable {g e c t : Nat} (idx : Nat)

theorem pmcSample_due (h : s.pmcSt.due.contains (g, e, c, t) = true) : s.pmcSample g e c t idx =
    State.pmcPush { s with pmcSt := { s.pmcSt with due := s.pmcSt.due.erase (g, e, c, t) } } g (s.pmcFifo g)
      (sampleWord s.ns e c t idx) := by
  unfold State.pmcSample
  simp only [h, Bool.true_or, if_true]
  rfl

theorem pmcFifo_wr64 (s : State) (r : Reg) (v g : Nat) : (s.wr64 r v).pmcFifo g = s.pmcFifo g :=
  congrArg (fun p : PmcState => mget (fun _ => []) p.fifo g) (wr64_pmcSt ..)

theorem ns_wr64 (s : State) (r : Reg) (v : Nat) : (s.wr64 r v).ns = s.ns :=
  congrArg (fun b : TimeBase => b.now / tuNs) (wr64_tb ..)

variable (h : s.pmcSt.due.contains (g, e, c, t) = false)
include h

theorem pmcSample_timed (ht : s.pmcTimes g (8 * e + c) = true) : s.pmcSample g e c t idx =
    (s.wr64 ((R.PMC_VAL.on g).at (8 * e + c)) 0).pmcPush g (s.pmcFifo g) (sampleWord s.ns e c t idx) := by
  unfold State.pmcTimes at ht
  unfold State.pmcSample State.pmcPush sampleWord
  simp only [h, ht, Bool.false_or, Bool.false_eq_true, if_false, if_true, pmcFifo_wr64, ns_wr64]

theorem pmcSample_none (ht : s.pmcTimes g (8 * e + c) = false) : s.pmcSample g e c t idx = s := by
  unfold State.pmcTimes at ht
  unfold State.pmcSample
  simp only [h, ht, Bool.false_or, Bool.false_eq_true, if_false]

end Sample
end Pmc

/-- Settles O51: the SVY commands, the dump ring and the engine counters by the cases of their operations. -/
theorem surveyAndEngineCountersFollowTheirRules : Obligations.SurveyAndEngineCountersFollowTheirRules := by
  unfold Obligations.SurveyAndEngineCountersFollowTheirRules
  intro s v u i
  refine ⟨fun h => surveyCommands h, fun d k h => bankFor_same h,
    fun r l hu hr => congrArg Host.Outcome.next (dumpWaiting_urgent hu hr),
    fun n r l hu hw hb hr => congrArg Host.Outcome.next (dumpWaiting_snapshot hu hw hb hr),
    fun d l hu hw hd hb hr => congrArg Host.Outcome.next (dumpWaiting_report hu hw hd hb hr),
    fun r hp => dumpPut_next hp, fun g => ⟨fun hs => ?_, fun n t hw ht hr => ?_, fun hs => ?_, fun e n t idx => ?_⟩⟩
  · exact runWrite_sets hs v
  · exact ⟨_, rfl, pmcRunDue_issued hw ht hr⟩
  · exact ⟨_, rfl, bar0Read_sfifo_pops hs⟩
  · have hidx : idx.toNat % 65536 = idx.toNat := Nat.mod_eq_of_lt idx.isLt
    have hexec : exec (.pmcSample g e n t idx) s = .next (s.pmcSample g.val e.val n.val t.val idx.toNat) := rfl
    have hword : sampleWord s.ns e.val n.val t.val idx.toNat =
        idx.toNat * 2 ^ 48 + e.val * 2 ^ 45 + t.val * 2 ^ 42 + n.val * 2 ^ 39 + s.ns % 2 ^ 38 := by rw [sampleWord, hidx]
    intro j r l own w timed pushed
    rw [hexec]
    refine ⟨fun hd => ?_, fun hd ht => ?_, fun hd ht => ?_⟩
    · rw [pmcSample_due idx.toNat hd, hword]
      rfl
    · rw [pmcSample_timed idx.toNat hd ht, hword]
      rfl
    · rw [pmcSample_none idx.toNat hd ht]

end Sys2Proof.Machine

namespace Sys2Proof.Machine

/-! ### Raises and triggers (R485, R486) -/

section BitFields
variable {s : State}

/-- A write of one bit of a word: the bit reads back, the others stay. -/
theorem bitN_wr_bit (s : State) {a i : Nat} (b j : Nat) (hi : i < 32) :
    bitN ((s.wr ⟨a, 0, 0, i, i⟩ b).rdw a).toNat j = if j = i then decide (b % 2 = 1) else bitN (s.rdw a).toNat j := by
  rw [State.wr, rdw_wrw, if_pos rfl, bitN, testBit_putBits _ _ _ _ _ (Nat.le_refl _) hi]
  by_cases h : j = i
  · subst h
    simp [Nat.testBit_zero]
  · rw [if_neg (by omega), if_neg h, bitN]

/-- A vector that has its PBA bit written. -/
theorem pba_setPba (s : State) (v b w : Nat) : (s.setPba v b).pba w = if w = v then decide (b % 2 = 1) else s.pba w := by
  by_cases hword : w / 32 = v / 32
  · rw [State.pba, State.setPba, State.rdr, hword]
    rw [bitN_wr_bit s b _ (Nat.mod_lt _ (by decide))]
    by_cases hv : w = v
    · rw [if_pos hv, if_pos (by rw [hv])]
    · rw [if_neg hv, if_neg (by omega), State.pba, State.rdr, hword]
  · have hne : (R.HST_MSIX_PBA.at (w / 32)).addr ≠ (R.HST_MSIX_PBA.at (v / 32)).addr := by
      simp only [Reg.at, R.HST_MSIX_PBA]
      omega
    rw [if_neg (by rintro rfl; exact hword rfl), State.pba, State.setPba, State.rdr, rdw_wr_ne _ _ _ _ hne, State.pba, State.rdr]

theorem evtPend_setPend (s : State) (n m : Nat) : (s.setPend n).evtPend m = if m = n then true else s.evtPend m := by
  by_cases hword : m / 32 = n / 32
  · rw [State.evtPend, State.setPend, State.rdr, hword]
    rw [bitN_wr_bit s 1 _ (Nat.mod_lt _ (by decide))]
    by_cases hv : m = n
    · rw [if_pos hv, if_pos (by rw [hv])]
      rfl
    · rw [if_neg hv, if_neg (by omega), State.evtPend, State.rdr, hword]
  · have hne : (R.EVT_PEND.at (m / 32)).addr ≠ (R.EVT_PEND.at (n / 32)).addr := by
      simp only [Reg.at, R.EVT_PEND]
      omega
    rw [if_neg (by rintro rfl; exact hword rfl), State.evtPend, State.setPend, State.rdr, rdw_wr_ne _ _ _ _ hne, State.evtPend,
      State.rdr]

theorem rdw_setPend_ne (s : State) (n : Nat) {a : Nat} (h : a ≠ (R.EVT_PEND.at (n / 32)).addr) : (s.setPend n).rdw a = s.rdw a :=
  rdw_wr_ne _ _ _ _ h

theorem rdw_setPba_ne (s : State) (v b : Nat) {a : Nat} (h : a ≠ (R.HST_MSIX_PBA.at (v / 32)).addr) :
    (s.setPba v b).rdw a = s.rdw a := rdw_wr_ne _ _ _ _ h

end BitFields

section Trigger
variable {s : State} {v : Nat}

/-- A trigger changes one PBA word at most. -/
theorem rdw_trigger_ne (s : State) (v : Nat) {a : Nat} (h : a ≠ (R.HST_MSIX_PBA.at (v / 32)).addr) :
    (s.trigger v).rdw a = s.rdw a := by
  unfold State.trigger
  split
  · exact rdw_setPba_ne s v 1 h
  · split
    · unfold State.deferMsg
      split <;> rfl
    · rfl

theorem trigger_closed (h : s.vecOpen v = false) : s.trigger v = s.setPba v 1 := if_pos (by simp [h])

theorem trigger_sends (h : s.vecOpen v = true) (hd : s.pcie.d3hot = false) (hh : s.holdoffPassed v = true) :
    s.trigger v = s.sendMsg v := by
  unfold State.trigger
  simp only [h, hd, hh, Bool.not_true, Bool.false_eq_true, if_false, Bool.or_self]

theorem trigger_defers (h : s.vecOpen v = true) (hw : s.pcie.d3hot = true ∨ s.holdoffPassed v = false) :
    s.trigger v = s.deferMsg v := by
  have hwait : (s.pcie.d3hot || !s.holdoffPassed v) = true := by rcases hw with h | h <;> simp [h]
  unfold State.trigger
  simp only [h, hwait, Bool.not_true, Bool.false_eq_true, if_false, if_true]

theorem mem_deferMsg (s : State) (v : Nat) : v ∈ (s.deferMsg v).ev.deferred ∧ (s.deferMsg v).out = s.out := by
  unfold State.deferMsg
  split
  next h => exact ⟨by simpa using h, rfl⟩
  next => exact ⟨by simp, rfl⟩

end Trigger

section Raise
variable {s : State} {n : Nat}

/-- A raise noted for the digest and the event frame. -/
def State.noted (s : State) (n : Nat) : State :=
  { s with ev := { s.ev with raised := setBit s.ev.raised n, tmCur := setBit s.ev.tmCur n } }

theorem raise_reserved (h : sourceExists n = false) : s.raise n = s := if_pos (by simp [h])

variable (h : sourceExists n = true)
include h

theorem raise_pending (hp : s.evtPend n = true) : s.raise n = s.noted n := by
  have hp' : (s.noted n).evtPend n = true := hp
  unfold State.raise
  rw [h, if_neg (by decide)]
  exact if_pos hp'

/-- The bit rises without a trigger. -/
theorem raise_disabled (hp : s.evtPend n = false) (he : s.evtEn n = false) : s.raise n = (s.noted n).setPend n := by
  have hp' : (s.noted n).evtPend n = false := hp
  have he' : ((s.noted n).setPend n).evtEn n = false := by
    rw [State.evtEn, State.rdr, rdw_setPend_ne]
    · exact he
    · simp only [Reg.at, R.EVT_EN, R.EVT_PEND]
      have := sourceExists_lt h
      omega
  unfold State.raise
  rw [h, if_neg (by decide)]
  dsimp only
  exact (if_neg (by rw [← State.noted, hp']; decide)).trans (if_neg (by rw [← State.noted, he']; decide))

/-- The bit rises and triggers its vector. -/
theorem raise_enabled (hp : s.evtPend n = false) (he : s.evtEn n = true) :
    s.raise n = ((s.noted n).setPend n).trigger (s.rd (F.EVT_MAP_VECTOR.at n)) := by
  have hn := sourceExists_lt h
  have hp' : (s.noted n).evtPend n = false := hp
  have he' : ((s.noted n).setPend n).evtEn n = true := by
    rw [State.evtEn, State.rdr, rdw_setPend_ne]
    · exact he
    · simp only [Reg.at, R.EVT_EN, R.EVT_PEND]
      omega
  have hv : ((s.noted n).setPend n).rd (F.EVT_MAP_VECTOR.at n) = s.rd (F.EVT_MAP_VECTOR.at n) := by
    rw [State.rd, rdw_setPend_ne]
    · rfl
    · simp only [Reg.at, Fld.at, F.EVT_MAP_VECTOR, R.EVT_PEND]
      omega
  have hr : s.raise n = ((s.noted n).setPend n).trigger (((s.noted n).setPend n).rd (F.EVT_MAP_VECTOR.at n)) := by
    unfold State.raise
    rw [h, if_neg (by decide)]
    dsimp only
    exact (if_neg (by rw [← State.noted, hp']; decide)).trans (if_pos (by rw [← State.noted, he']))
  rw [hr, hv]

end Raise

section Risen
variable (s : State) {n : Nat} (hn : n < 256)

/-- The state in which the EVT_PEND bit of a source has risen. -/
def State.risen (s : State) (n : Nat) : State := (s.noted n).setPend n

theorem evtPend_risen (m : Nat) : (s.risen n).evtPend m = if m = n then true else s.evtPend m := evtPend_setPend (s.noted n) n m

include hn

theorem rdw_risen {a : Nat} (h : a < 0x20000 ∨ 0x20020 ≤ a) : (s.risen n).rdw a = s.rdw a := by
  rw [State.risen, rdw_setPend_ne]
  · rfl
  · simp only [Reg.at, R.EVT_PEND]
    omega

theorem rd_risen {f : Fld} (h : f.addr < 0x20000 ∨ 0x20020 ≤ f.addr) : (s.risen n).rd f = s.rd f := by
  rw [State.rd, rdw_risen s hn h, State.rd]

theorem vecOpen_risen (v : Nat) : (s.risen n).vecOpen v = s.vecOpen v := by
  have hmask : (s.risen n).rd (F.HST_MSIX_TABLE_MASK.at v) = s.rd (F.HST_MSIX_TABLE_MASK.at v) :=
    rd_risen s hn (.inr (Nat.le_trans (by decide) (Nat.le_add_right _ _)))
  rw [State.vecOpen, State.on, hmask, State.vecOpen, State.on]
  rfl

theorem holdoffPassed_risen (v : Nat) : (s.risen n).holdoffPassed v = s.holdoffPassed v := by
  have hcfg : (s.risen n).rd (F.EVT_VEC_CFG_HOLDOFF_US.at v) = s.rd (F.EVT_VEC_CFG_HOLDOFF_US.at v) :=
    rd_risen s hn (.inr (Nat.le_trans (by decide) (Nat.le_add_right _ _)))
  rw [State.holdoffPassed, hcfg, State.holdoffPassed]
  rfl

theorem out_sendMsg_risen (v : Nat) : ((s.risen n).sendMsg v).out =
    .msix v (s.rdr (R.HST_MSIX_TABLE.at v)) (s.rdw ((R.HST_MSIX_TABLE.at v).addr + 4)).toNat
      (s.rdw ((R.HST_MSIX_TABLE.at v).addr + 8)).toNat :: s.out := by
  have hrow (k : Nat) : (s.risen n).rdw ((R.HST_MSIX_TABLE.at v).addr + k) = s.rdw ((R.HST_MSIX_TABLE.at v).addr + k) :=
    rdw_risen s hn (.inr (Nat.le_trans (by decide : 0x20020 ≤ R.HST_MSIX_TABLE.addr) (by simp only [Reg.at]; omega)))
  have hmsg : ((s.risen n).sendMsg v).out = .msix v ((s.risen n).rdr (R.HST_MSIX_TABLE.at v))
      ((s.risen n).rdw ((R.HST_MSIX_TABLE.at v).addr + 4)).toNat
      ((s.risen n).rdw ((R.HST_MSIX_TABLE.at v).addr + 8)).toNat :: s.out := rfl
  rw [hmsg, hrow, hrow, State.rdr, State.rdr]
  exact congrArg (fun w : Word => Out.msix v w.toNat _ _ :: s.out) (hrow 0)

end Risen

section RaiseClauses
variable (s : State) {n : Nat}

/-- The vector of a source is one of 256. -/
theorem vector_lt (n : Nat) : s.rd (F.EVT_MAP_VECTOR.at n) < 256 := bits_lt _ _ _

/-- A raise changes the EVT_PEND word of its source and a PBA word. -/
theorem rdw_raise_words {a : Nat} (ha : ∀ w < 8, a ≠ (R.EVT_PEND.at w).addr ∧ a ≠ (R.HST_MSIX_PBA.at w).addr) :
    (s.raise n).rdw a = s.rdw a := by
  cases h : sourceExists n with
  | false => rw [raise_reserved h]
  | true =>
    have hn := sourceExists_lt h
    have hset : (s.risen n).rdw a = s.rdw a := by
      rw [State.risen, rdw_setPend_ne _ _ (ha (n / 32) (by omega)).1]
      rfl
    cases hp : s.evtPend n with
    | true =>
      rw [raise_pending h hp]
      rfl
    | false =>
      cases he : s.evtEn n with
      | false => exact (congrArg (State.rdw · a) (raise_disabled h hp he)).trans hset
      | true =>
        have hv := vector_lt s n
        rw [raise_enabled h hp he, rdw_trigger_ne _ _ (ha (_ / 32) (by omega)).2]
        exact hset

/-- A raise sets its bit and clears none. -/
theorem evtPend_raise (h : sourceExists n = true) {m : Nat} (hm : m < 256) :
    (s.raise n).evtPend m = if m = n then true else s.evtPend m := by
  cases hp : s.evtPend n with
  | true =>
    rw [raise_pending h hp]
    by_cases hmn : m = n
    · rw [if_pos hmn, hmn]
      exact hp
    · rw [if_neg hmn]
      rfl
  | false =>
    cases he : s.evtEn n with
    | false =>
      rw [raise_disabled h hp he]
      exact evtPend_risen s m
    | true =>
      have hv := vector_lt s n
      have hne : (R.EVT_PEND.at (m / 32)).addr ≠ (R.HST_MSIX_PBA.at (s.rd (F.EVT_MAP_VECTOR.at n) / 32)).addr := by
        simp only [Reg.at, R.EVT_PEND, R.HST_MSIX_PBA]
        omega
      rw [raise_enabled h hp he, State.evtPend, State.rdr, rdw_trigger_ne _ _ hne]
      exact evtPend_risen s m

theorem out_raise_quiet (h : sourceExists n = true) (hq : s.evtPend n = true ∨ s.evtEn n = false) : (s.raise n).out = s.out := by
  cases hp : s.evtPend n with
  | true =>
    rw [raise_pending h hp]
    rfl
  | false =>
    have he : s.evtEn n = false := hq.resolve_left (by rw [hp]; decide)
    rw [raise_disabled h hp he]
    rfl

section Rises
variable (h : sourceExists n = true) (hp : s.evtPend n = false) (he : s.evtEn n = true)
include h hp he

theorem raise_closed (hv : s.vecOpen (s.rd (F.EVT_MAP_VECTOR.at n)) = false) :
    (s.raise n).pba (s.rd (F.EVT_MAP_VECTOR.at n)) = true ∧ (s.raise n).out = s.out := by
  have hopen := (vecOpen_risen s (sourceExists_lt h) (s.rd (F.EVT_MAP_VECTOR.at n))).trans hv
  rw [raise_enabled h hp he, ← State.risen, trigger_closed hopen, pba_setPba, if_pos rfl]
  exact ⟨rfl, rfl⟩

theorem raise_sends (hv : s.vecOpen (s.rd (F.EVT_MAP_VECTOR.at n)) = true) (hd : s.pcie.d3hot = false)
    (hh : s.holdoffPassed (s.rd (F.EVT_MAP_VECTOR.at n)) = true) : (s.raise n).out =
      .msix (s.rd (F.EVT_MAP_VECTOR.at n)) (s.rdr (R.HST_MSIX_TABLE.at (s.rd (F.EVT_MAP_VECTOR.at n))))
        (s.rdw ((R.HST_MSIX_TABLE.at (s.rd (F.EVT_MAP_VECTOR.at n))).addr + 4)).toNat
        (s.rdw ((R.HST_MSIX_TABLE.at (s.rd (F.EVT_MAP_VECTOR.at n))).addr + 8)).toNat :: s.out := by
  have hn := sourceExists_lt h
  have hopen := (vecOpen_risen s hn (s.rd (F.EVT_MAP_VECTOR.at n))).trans hv
  have hpassed := (holdoffPassed_risen s hn (s.rd (F.EVT_MAP_VECTOR.at n))).trans hh
  rw [raise_enabled h hp he, ← State.risen, trigger_sends hopen hd hpassed, out_sendMsg_risen s hn]

theorem raise_defers (hv : s.vecOpen (s.rd (F.EVT_MAP_VECTOR.at n)) = true)
    (hw : s.pcie.d3hot = true ∨ s.holdoffPassed (s.rd (F.EVT_MAP_VECTOR.at n)) = false) :
    s.rd (F.EVT_MAP_VECTOR.at n) ∈ (s.raise n).ev.deferred ∧ (s.raise n).out = s.out := by
  have hn := sourceExists_lt h
  have hopen := (vecOpen_risen s hn (s.rd (F.EVT_MAP_VECTOR.at n))).trans hv
  have hwait : (s.risen n).pcie.d3hot = true ∨ (s.risen n).holdoffPassed (s.rd (F.EVT_MAP_VECTOR.at n)) = false := by
    rw [holdoffPassed_risen s hn]
    exact hw
  rw [raise_enabled h hp he, ← State.risen, trigger_defers hopen hwait]
  exact mem_deferMsg (s.risen n) _

end Rises
end RaiseClauses

theorem wordShape_evtForce (w : Fin 8) : wordShape (R.EVT_FORCE.at w.val).addr = some ("EVT_FORCE", [w.val], .w32) := by
  decide +revert +kernel

theorem unitWrite_evtForce (s : State) (i a : Nat) (v : Word) :
    s.unitWrite "EVT_FORCE" [i] a v = some (foldS (evtBits i v.toNat) (fun src s => s.raise src) s) := by
  unfold State.unitWrite
  rfl

theorem bar0Write_evtForce {s : State} {w : Fin 8} (h : s.serves (R.EVT_FORCE.at w.val).addr) (v : Word) :
    s.bar0Write (R.EVT_FORCE.at w.val).addr v = foldS (evtBits w.val v.toNat) (fun src s => s.raise src) s :=
  bar0Write_taken h (by simp [State.fabGone]) (wordShape_evtForce w) rfl (unitWrite_evtForce s w.val _ v) _

/-! ### Hold-offs and masks (R486) -/

theorem foldS_append_cons {α : Type} (before after : List α) (x : α) (f : α → State → State) (s : State) :
    foldS (before ++ x :: after) f s = foldS after f (f x (foldS before f s)) := by
  simp only [foldS, List.foldl_append, List.foldl_cons]

section Messages
variable {s : State} {v : Nat}

theorem holdoffEnds_held {t : Nat} (hd : s.ev.deferred.contains v = true) (h3 : s.pcie.d3hot = false)
    (ht : mget (fun _ => (none : Option Nat)) s.ev.lastMsg v = some t) :
    s.holdoffEnds v = (let u := s.advanceUp (t + s.rd (F.EVT_VEC_CFG_HOLDOFF_US.at v) * 1000)
      if u.vecOpen v then u.sendMsg v
      else { u.setPba v 1 with ev := { u.ev with deferred := u.ev.deferred.filter (· ≠ v) } }) := by
  unfold State.holdoffEnds
  simp only [hd, h3, ht, Bool.not_true, Bool.or_self, Bool.false_eq_true, if_false]

theorem pcie_deferMsg (s : State) (v : Nat) : (s.deferMsg v).pcie = s.pcie ∧ (s.deferMsg v).regs = s.regs := by
  unfold State.deferMsg
  split
  · exact ⟨rfl, rfl⟩
  · exact ⟨rfl, rfl⟩

/-- A vector that is unmasked keeps the function's state, and its PBA bit at most changes. -/
theorem unmasked_cases (s : State) (v : Nat) :
    (s.unmasked v = s ∧ (s.pba v = false ∨ s.vecOpen v = false)) ∨
      ((s.unmasked v).pcie = s.pcie ∧ (s.unmasked v).regs = (s.setPba v 0).regs) := by
  unfold State.unmasked
  cases hp : s.pba v with
  | false => exact .inl ⟨rfl, .inl rfl⟩
  | true =>
    cases hv : s.vecOpen v with
    | false => exact .inl ⟨rfl, .inr rfl⟩
    | true =>
      right
      rw [Bool.and_self, if_pos rfl]
      dsimp only
      split
      · exact pcie_deferMsg (s.setPba v 0) v
      · exact ⟨rfl, rfl⟩

theorem pcie_unmasked (s : State) (v : Nat) : (s.unmasked v).pcie = s.pcie := by
  rcases unmasked_cases s v with ⟨h, -⟩ | ⟨h, -⟩
  · rw [h]
  · exact h

theorem pba_congr {s t : State} (h : t.regs = s.regs) (v : Nat) : t.pba v = s.pba v := by
  rw [State.pba, State.rdr, rdw_congr h, State.pba, State.rdr]

theorem rd_mask_unmasked (s : State) (v : Nat) {w : Nat} (hw : w < 256) :
    (s.unmasked v).rd (F.HST_MSIX_TABLE_MASK.at w) = s.rd (F.HST_MSIX_TABLE_MASK.at w) := by
  rcases unmasked_cases s v with ⟨he, -⟩ | ⟨-, hr⟩
  · rw [he]
  · have hne : (F.HST_MSIX_TABLE_MASK.at w).addr ≠ (R.HST_MSIX_PBA.at (v / 32)).addr := by
      simp only [Fld.at, Reg.at, F.HST_MSIX_TABLE_MASK, R.HST_MSIX_PBA]
      omega
    rw [rd_congr hr, State.rd, rdw_setPba_ne _ _ _ hne, State.rd]

theorem pba_unmasked_self (s : State) (h : s.vecOpen v = true) : (s.unmasked v).pba v = false := by
  rcases unmasked_cases s v with ⟨he, hp | hv⟩ | ⟨-, hr⟩
  · rw [he, hp]
  · rw [h] at hv
    cases hv
  · rw [pba_congr hr, pba_setPba, if_pos rfl]
    rfl

theorem pba_unmasked_of_clear (s : State) (v : Nat) {w : Nat} (h : s.pba w = false) : (s.unmasked v).pba w = false := by
  rcases unmasked_cases s v with ⟨he, -⟩ | ⟨-, hr⟩
  · rw [he, h]
  · rw [pba_congr hr, pba_setPba]
    split
    · rfl
    · exact h

theorem vecOpen_of (he : s.pcie.msixEn = true) (hf : s.pcie.funcMask = false) (hm : s.rd (F.HST_MSIX_TABLE_MASK.at v) = 0) :
    s.vecOpen v = true := by
  simp [State.vecOpen, he, hf, on_false hm]

theorem pcie_unmaskAll (s : State) (l : List Nat) : (foldS l (fun v s => s.unmasked v) s).pcie = s.pcie :=
  foldS_inv (fun t => t.pcie = s.pcie) l _ s rfl (fun v _ t h => (pcie_unmasked t v).trans h)

/-- Every vector of the list that can send has its PBA bit cleared. -/
theorem pba_unmaskAll (he : s.pcie.msixEn = true) (hf : s.pcie.funcMask = false) (hv : v < 256)
    (hm : s.rd (F.HST_MSIX_TABLE_MASK.at v) = 0) (l : List Nat) (hl : v ∈ l) : (foldS l (fun v s => s.unmasked v) s).pba v = false := by
  obtain ⟨before, after, rfl⟩ := List.append_of_mem hl
  have hmask : (foldS before (fun v s => s.unmasked v) s).rd (F.HST_MSIX_TABLE_MASK.at v) = 0 :=
    foldS_inv (fun t => t.rd (F.HST_MSIX_TABLE_MASK.at v) = 0) before _ s hm (fun x _ t h => (rd_mask_unmasked t x hv).trans h)
  have hpcie := pcie_unmaskAll s before
  rw [foldS_append_cons]
  refine foldS_inv (fun t => t.pba v = false) after _ _ ?_ (fun x _ t h => pba_unmasked_of_clear t x h)
  exact pba_unmasked_self _ (vecOpen_of (by rw [hpcie]; exact he) (by rw [hpcie]; exact hf) hmask)

/-- The mask of a vector is cleared: it has no message pending where the function lets it send. -/
theorem unmask_vector (s : State) (v : Fin 256) :
    let t := (s.wr (F.HST_MSIX_TABLE_MASK.at v.val) 0).unmasked v.val
    t.rd (F.HST_MSIX_TABLE_MASK.at v.val) = 0
      ∧ (s.pcie.msixEn = true → s.pcie.funcMask = false → t.pba v.val = false) := by
  have hmask : (s.wr (F.HST_MSIX_TABLE_MASK.at v.val) 0).rd (F.HST_MSIX_TABLE_MASK.at v.val) = 0 := by
    rw [rd_wr_same _ _ _ (by simp [Fld.ok, Fld.at, F.HST_MSIX_TABLE_MASK]), Nat.zero_mod]
  refine ⟨(rd_mask_unmasked _ _ v.isLt).trans hmask, fun he hf => ?_⟩
  exact pba_unmasked_self _ (vecOpen_of he hf hmask)

theorem unmask_awake (hd : s.inMode mDORMANT = false) (u : Unmask) : s.unmask u =
    match u with
    | .vector v => (s.wr (F.HST_MSIX_TABLE_MASK.at v.val) 0).unmasked v.val
    | .function => foldS (List.range 256) (fun v s => s.unmasked v) { s with pcie := { s.pcie with funcMask := false } }
    | .enable => foldS (List.range 256) (fun v s => s.unmasked v) { s with pcie := { s.pcie with msixEn := true } } :=
  if_neg (by rw [hd]; decide)

end Messages

/-! ### A reset of the function (R463) -/

section FunctionReset
variable {s : State}

/-- A filter of keys: the others read as never written. -/
theorem mget_filter {V : Type} (d : Nat → V) (m : SMap V) (p : Nat → Bool) (k : Nat) :
    mget d (m.filter (fun x => p x.1)) k = if p k then mget d m k else d k := by
  induction m with
  | nil => simp [mget]
  | cons e m ih =>
    obtain ⟨a, v⟩ := e
    rw [List.filter_cons]
    by_cases ha : a = k
    · subst ha
      cases hp : p a with
      | true => simp [mget]
      | false => simpa [hp] using ih
    · cases hp : p a with
      | true => simpa [mget, ha] using ih
      | false => simpa [mget, ha] using ih

/-- The state a reset of the function leaves before the levels that stand are noted again. -/
def State.funcCleared (s : State) : State :=
  let keep (a : Nat) : Bool := !hostWord a || hostLive a
  { s with
    regs := s.regs.filter (fun x => keep x.1), held := s.held.filter (fun x => keep x.1)
    latch := s.latch.filter (fun x => keep x.1), pcie := {}, ring := {}
    ev := { s.ev with raised := 0, lastMsg := [], deferred := [], digPend := none } }

theorem funcReset_awake (hd : s.inMode mDORMANT = false) : s.funcReset =
    foldS levelSources (fun src s => if s.levelUp src then s.raise src else s) s.funcCleared :=
  if_neg (by rw [hd]; decide)

theorem rdw_funcCleared (s : State) (a : Nat) :
    s.funcCleared.rdw a = if !hostWord a || hostLive a then s.rdw a else regReset a :=
  mget_filter regReset s.regs (fun a => !hostWord a || hostLive a) a

/-- Every event enable reads zero at Reset. -/
theorem regReset_evtEn {w : Nat} (hw : w < 8) : regReset (R.EVT_EN.at w).addr = 0 := by
  decide +revert +kernel

/-- A word of HST or EVT that does not show live state. -/
theorem rdw_funcCleared_host {a : Nat} (h : hostWord a = true) (hl : hostLive a = false) : s.funcCleared.rdw a = regReset a := by
  rw [rdw_funcCleared, h, hl]
  rfl

theorem rdw_funcCleared_other {a : Nat} (h : hostWord a = false) : s.funcCleared.rdw a = s.rdw a := by
  rw [rdw_funcCleared, h]
  rfl

/-- What holds while the levels that stand are noted: the function is clear, and only EVT_PEND words have changed. -/
def functionClear (s t : State) : Prop :=
  t.pcie = {} ∧ t.ring = {} ∧ t.tsf = s.tsf ∧ ∀ a, (∀ w < 8, a ≠ (R.EVT_PEND.at w).addr) → t.rdw a = s.funcCleared.rdw a

theorem evtEn_of_functionClear {t : State} (h : functionClear s t) {n : Nat} (hn : n < 256) : t.evtEn n = false := by
  obtain ⟨-, -, -, hrdw⟩ := h
  have hne : ∀ w < 8, (R.EVT_EN.at (n / 32)).addr ≠ (R.EVT_PEND.at w).addr := by
    intro w hw
    simp only [Reg.at, R.EVT_EN, R.EVT_PEND]
    omega
  have hhost : hostWord (R.EVT_EN.at (n / 32)).addr = true := by
    simp only [hostWord, Bool.and_eq_true, decide_eq_true_eq]
    simp only [Reg.at, R.EVT_EN]
    omega
  have hlive : hostLive (R.EVT_EN.at (n / 32)).addr = false := by
    simp only [hostLive, Reg.at, R.EVT_EN, R.HST_PCIE_STATUS, R.HST_STATUS, Bool.or_eq_false_iff, beq_eq_false_iff_ne]
    omega
  rw [State.evtEn, State.rdr, hrdw _ hne, rdw_funcCleared_host hhost hlive, regReset_evtEn (by omega)]
  exact Nat.zero_testBit _

theorem raise_functionClear {t : State} (h : functionClear s t) (n : Nat) : functionClear s (t.raise n) := by
  obtain ⟨hpcie, hring, htsf, hrdw⟩ := h
  obtain ⟨r, e, o, hform⟩ := raise_form t n
  refine ⟨by rw [hform]; exact hpcie, by rw [hform]; exact hring, by rw [hform]; exact htsf, fun a ha => ?_⟩
  rw [← hrdw a ha]
  cases hx : sourceExists n with
  | false => rw [raise_reserved hx]
  | true =>
    have hn := sourceExists_lt hx
    cases hp : t.evtPend n with
    | true =>
      rw [raise_pending hx hp]
      rfl
    | false =>
      rw [raise_disabled hx hp (evtEn_of_functionClear ⟨hpcie, hring, htsf, hrdw⟩ hn)]
      exact rdw_setPend_ne (t.noted n) n (ha (n / 32) (by omega))

theorem functionClear_fold (l : List Nat) {t : State} (h : functionClear s t) :
    functionClear s (foldS l (fun src s => if s.levelUp src then s.raise src else s) t) := by
  refine foldS_inv (functionClear s) l _ t h (fun n _ u hu => ?_)
  split
  · exact raise_functionClear hu n
  · exact hu

/-- A level outside HST depends on registers above HST and on the two-step FIFO. -/
theorem levelUp_congr {t : State} (htsf : t.tsf = s.tsf) (hrdw : ∀ a, 0x40000 ≤ a → t.rdw a = s.rdw a) {n : Nat}
    (hn : n / 16 ≠ 15) : t.levelUp n = s.levelUp n := by
  have hsum (evt en : Reg) (i j : Nat) (h1 : 0x40000 ≤ evt.addr) (h2 : 0x40000 ≤ en.addr) :
      t.evtSum (evt.at i) (en.at j) = s.evtSum (evt.at i) (en.at j) := by
    have he : 0x40000 ≤ (evt.at i).addr := Nat.le_trans h1 (Nat.le_add_right _ _)
    have hen : 0x40000 ≤ (en.at j).addr := Nat.le_trans h2 (Nat.le_add_right _ _)
    rw [State.evtSum, State.rdr, State.rdr, hrdw _ he, hrdw _ hen, State.evtSum, State.rdr, State.rdr]
  have hport (p : Nat) := hsum R.LPT_EVT R.LPT_EVT_EN p p (by decide) (by decide)
  have hgal (g : Nat) := hsum R.GAL_EVT R.GAL_EVT_EN g g (by decide) (by decide)
  have hblock (evt en : Reg) (h1 : 0x40000 ≤ evt.addr) (h2 : 0x40000 ≤ en.addr) : t.evtSum evt en = s.evtSum evt en := by
    rw [State.evtSum, State.rdr, State.rdr, hrdw _ h1, hrdw _ h2, State.evtSum, State.rdr, State.rdr]
  have hhrd := hblock R.HRD_EVT R.HRD_EVT_EN (by decide) (by decide)
  have hadm := hblock R.ADM_EVT R.ADM_EVT_EN (by decide) (by decide)
  have hque := hblock R.QUE_EVT R.QUE_EVT_EN (by decide) (by decide)
  have hgat := hblock R.GAT_EVT R.GAT_EVT_EN (by decide) (by decide)
  have hfab := hblock R.FAB_EVT R.FAB_EVT_EN (by decide) (by decide)
  have hsvy := hblock R.SVY_EVT R.SVY_EVT_EN (by decide) (by decide)
  have hpmc (g : Nat) : t.rd (F.PMC_SFIFO_STATUS_LEVEL.at g) = s.rd (F.PMC_SFIFO_STATUS_LEVEL.at g) := by
    have hg : 0x40000 ≤ (F.PMC_SFIFO_STATUS_LEVEL.at g).addr := Nat.le_trans (by decide) (Nat.le_add_right _ _)
    rw [State.rd, hrdw _ hg, State.rd]
  simp only [State.levelUp, hport, hgal, hhrd, hadm, hque, hgat, hfab, hsvy, hpmc, htsf]
  split
  case h_9 h15 => exact absurd h15 hn
  all_goals rfl

theorem levelUp_functionClear {t : State} (h : functionClear s t) {n : Nat} (hn : n / 16 ≠ 15) : t.levelUp n = s.levelUp n := by
  obtain ⟨-, -, htsf, hrdw⟩ := h
  refine levelUp_congr htsf (fun a ha => ?_) hn
  have hpend : ∀ w < 8, a ≠ (R.EVT_PEND.at w).addr := by
    intro w hw
    simp only [Reg.at, R.EVT_PEND]
    omega
  have hhost : hostWord a = false := by
    simp only [hostWord, Bool.and_eq_false_iff, decide_eq_false_iff_not]
    omega
  rw [hrdw a hpend, rdw_funcCleared_other hhost]

theorem levelSources_exist : ∀ n ∈ levelSources, sourceExists n = true ∧ (n ≠ 240 → n / 16 ≠ 15) := by decide

/-- A level that stands has its bit set again. -/
theorem evtPend_funcReset (hd : s.inMode mDORMANT = false) {n : Nat} (hn : n ∈ levelSources) (hl : s.levelUp n = true)
    (h240 : n ≠ 240) : s.funcReset.evtPend n = true := by
  obtain ⟨hx, hgroup⟩ := levelSources_exist n hn
  obtain ⟨before, after, hsplit⟩ := List.append_of_mem hn
  have hclear : functionClear s s.funcCleared := ⟨rfl, rfl, rfl, fun _ _ => rfl⟩
  have hbefore := functionClear_fold before hclear
  have hup := (levelUp_functionClear hbefore (hgroup h240)).trans hl
  have hn256 := sourceExists_lt hx
  rw [funcReset_awake hd, hsplit]
  rw [foldS_append_cons, if_pos hup]
  refine foldS_inv (fun t => t.evtPend n = true) after _ _ ?_ (fun m hm t ht => ?_)
  · rw [evtPend_raise _ hx hn256, if_pos rfl]
  · obtain ⟨hxm, -⟩ := levelSources_exist m (by rw [hsplit]; simp [hm])
    split
    · rw [evtPend_raise _ hxm hn256]
      split
      · rfl
      · exact ht
    · exact ht

theorem funcReset_clear (hd : s.inMode mDORMANT = false) : functionClear s s.funcReset := by
  rw [funcReset_awake hd]
  exact functionClear_fold levelSources ⟨rfl, rfl, rfl, fun _ _ => rfl⟩

/-- Words outside HST and EVT stay. -/
theorem rdw_funcReset_other (hd : s.inMode mDORMANT = false) {a : Nat} (h : hostWord a = false) : s.funcReset.rdw a = s.rdw a := by
  obtain ⟨-, -, -, hrdw⟩ := funcReset_clear hd
  have hpend : ∀ w < 8, a ≠ (R.EVT_PEND.at w).addr := by
    intro w hw hw'
    simp only [hostWord, hw', Reg.at, R.EVT_PEND, Bool.and_eq_false_iff, decide_eq_false_iff_not] at h
    omega
  rw [hrdw a hpend, rdw_funcCleared_other h]

theorem rdw_funcReset_host (hd : s.inMode mDORMANT = false) {a : Nat} (h : hostWord a = true) (hl : hostLive a = false)
    (hp : ∀ w < 8, a ≠ (R.EVT_PEND.at w).addr) : s.funcReset.rdw a = regReset a := by
  obtain ⟨-, -, -, hrdw⟩ := funcReset_clear hd
  rw [hrdw a hp, rdw_funcCleared_host h hl]

end FunctionReset

/-! ### Rings (R469–R471) -/

section Rings
variable {s : State}

/-- The words of ring `n` that its writers do not touch: the enable word and CONS. -/
def ringOwned (n a : Nat) : Prop := a = (R.HST_RING.at n).addr + 8 ∨ a = (R.HST_RING.at n).addr + 16

theorem regs_shadowChange (s : State) (i : Nat) : (s.shadowChange i).regs = s.regs := by
  unfold State.shadowChange
  split
  · rfl
  · split
    · rfl
    · split <;> rfl

theorem rdw_ringIrq (s : State) (i : Nat) {a : Nat} (ha : a < 0x3a000) : (s.ringIrq i).rdw a = s.rdw a := by
  unfold State.ringIrq
  split
  · exact rdw_trigger s _ a (bits_lt _ 23 16) (.inl ha)
  · rfl

/-- Writing an entry changes the ring's PROD and its record count, and the PBA by its interrupt. -/
theorem rdw_produceEntry (s : State) (i : Nat) (b : Bytes) {a : Nat} (ha : a ≠ (R.HST_RING.at i).addr + 12) (hr : a < 0x32000) :
    (s.produceEntry i b).rdw a = s.rdw a := by
  have hprod : a ≠ (F.HST_RING_PROD.at i).addr := by
    simp only [Fld.at, F.HST_RING_PROD, Reg.at, R.HST_RING] at ha ⊢
    omega
  unfold State.produceEntry State.setProd
  rw [rdw_ringIrq _ _ (by omega), rdw_congr (regs_shadowChange _ i), rdw_wr_ne _ _ _ _ hprod]
  refine rdw_wr64_ne _ _ _ ?_
  simp only [Reg.at, R.HST_RING_CNT]
  omega

theorem rdw_rspWrite (l : List RspWait) (s : State) {a : Nat} (h : ringOwned 1 a) : (s.rspWrite l).rdw a = s.rdw a := by
  have hr : a ≠ (R.HST_RING.at rRSP).addr + 12 ∧ a < 0x32000 := by
    simp only [ringOwned, Reg.at, R.HST_RING, rRSP] at h ⊢
    omega
  induction l generalizing s with
  | nil => rfl
  | cons x l ih =>
    unfold State.rspWrite
    split
    · rw [ih, rdw_produceEntry s rRSP _ hr.1 hr.2]
    · rfl

theorem rdw_rspPump (s : State) {a : Nat} (h : ringOwned 1 a) : s.rspPump.rdw a = s.rdw a := by
  unfold State.rspPump
  split
  · rfl
  · exact rdw_rspWrite _ s h

/-- The registers of a ring that has been enabled, before waiting responses are written. -/
def State.ringStarted (s : State) (n : Nat) : State :=
  (((s.wr (F.HST_RING_EN.at n) 1).wr (F.HST_RING_STOPPED.at n) 0).wr (F.HST_RING_PROD.at n) 0).wr (F.HST_RING_CONS.at n) 0

theorem ringStarted_fields (s : State) (n : Nat) :
    (s.ringStarted n).rd (F.HST_RING_EN.at n) = 1 ∧ (s.ringStarted n).rd (F.HST_RING_STOPPED.at n) = 0
      ∧ (s.ringStarted n).rd (F.HST_RING_CONS.at n) = 0 ∧ (s.ringStarted n).rd (F.HST_RING_PROD.at n) = 0 := by
  have hap {f g : Fld} (h : f.addr ≠ g.addr) : f.apart g = true := by simp [Fld.apart, h]
  have hcp : (F.HST_RING_CONS.at n).addr ≠ (F.HST_RING_PROD.at n).addr := by simp only [Fld.at, F.HST_RING_CONS, F.HST_RING_PROD]; omega
  have hce : (F.HST_RING_CONS.at n).addr ≠ (F.HST_RING_EN.at n).addr := by simp only [Fld.at, F.HST_RING_CONS, F.HST_RING_EN]; omega
  have hcs : (F.HST_RING_CONS.at n).addr ≠ (F.HST_RING_STOPPED.at n).addr := hce
  have hpe : (F.HST_RING_PROD.at n).addr ≠ (F.HST_RING_EN.at n).addr := by simp only [Fld.at, F.HST_RING_PROD, F.HST_RING_EN]; omega
  have hps : (F.HST_RING_PROD.at n).addr ≠ (F.HST_RING_STOPPED.at n).addr := hpe
  have hse : (F.HST_RING_STOPPED.at n).apart (F.HST_RING_EN.at n) = true := by
    simp [Fld.apart, Fld.ok, Fld.at, F.HST_RING_STOPPED, F.HST_RING_EN]
  unfold State.ringStarted
  refine ⟨?_, ?_, ?_, ?_⟩
  · rw [rd_wr_apart _ _ _ _ (hap hce), rd_wr_apart _ _ _ _ (hap hpe), rd_wr_apart _ _ _ _ hse, rd_wr_same _ _ _ rfl]
    rfl
  · rw [rd_wr_apart _ _ _ _ (hap hcs), rd_wr_apart _ _ _ _ (hap hps), rd_wr_same _ _ _ rfl]
    rfl
  · rw [rd_wr_same _ _ _ rfl]
    rfl
  · rw [rd_wr_apart _ _ _ _ (hap hcp), rd_wr_same _ _ _ rfl]
    rfl

theorem ringEnable_unchanged {n : Nat} (h : s.on (F.HST_RING_EN.at n) = true ∨ s.ringSizeOk n = false) : s.ringEnable n = s := by
  unfold State.ringEnable
  rcases h with h | h <;> simp [h]

/-- After enabling, all words of the ring but the PROD of the response ring are those of the started ring. -/
theorem rdw_ringEnable {n : Nat} (hon : s.on (F.HST_RING_EN.at n) = false) (hsize : s.ringSizeOk n = true) {a : Nat}
    (h : n = 1 → ringOwned 1 a) : (s.ringEnable n).rdw a = (s.ringStarted n).rdw a := by
  have hshadow : (if s.ownIndex n = 0 then s.ringStarted n else (s.ringStarted n).shadowChange n).regs = (s.ringStarted n).regs := by
    split
    · rfl
    · exact regs_shadowChange _ n
  unfold State.ringEnable
  simp only [hon, hsize, Bool.not_true, Bool.or_self, Bool.false_eq_true, if_false]
  split
  · exact rdw_congr hshadow a
  · split
    case isTrue hn =>
      rw [rdw_rspPump _ (h hn)]
      exact rdw_congr hshadow a
    case isFalse => exact rdw_congr hshadow a

theorem ringEnable_fields {n : Nat} (hon : s.on (F.HST_RING_EN.at n) = false) (hsize : s.ringSizeOk n = true) :
    (s.ringEnable n).rd (F.HST_RING_EN.at n) = 1 ∧ (s.ringEnable n).rd (F.HST_RING_STOPPED.at n) = 0
      ∧ (s.ringEnable n).rd (F.HST_RING_CONS.at n) = 0 ∧ (n ≠ 1 → (s.ringEnable n).rd (F.HST_RING_PROD.at n) = 0) := by
  obtain ⟨hen, hstopped, hcons, hprod⟩ := ringStarted_fields s n
  have hrd {f : Fld} (h : n = 1 → ringOwned 1 f.addr) : (s.ringEnable n).rd f = (s.ringStarted n).rd f := by
    rw [State.rd, rdw_ringEnable hon hsize h, State.rd]
  refine ⟨?_, ?_, ?_, fun h1 => ?_⟩
  · rw [hrd (fun h => by subst h; exact .inl rfl), hen]
  · rw [hrd (fun h => by subst h; exact .inl rfl), hstopped]
  · rw [hrd (fun h => by subst h; exact .inr rfl), hcons]
  · rw [hrd (fun h => absurd h h1), hprod]

theorem digestBegun_regs (old s : State) (n : Nat) : (State.digestBegun old s n).regs = s.regs := by
  unfold State.digestBegun
  split <;> rfl

theorem digestBegun_same {old : State} {n : Nat} (h : old.on (F.HST_RING_EN.at n) = true ∨ s.on (F.HST_RING_EN.at n) = false) :
    State.digestBegun old s n = s := by
  refine if_neg ?_
  rcases h with h | h <;> simp [h]

theorem wordShape_ringCtl (i : Fin 72) :
    wordShape ((R.HST_RING.at i.val).addr + 8) = some ("HST_RING", [i.val], .w32) := by
  decide +revert +kernel

/-- The state in which a served write of a ring's control word acts: the other fields stored, EN as it was. -/
def State.ringPut (s : State) (n : Nat) (v : Word) : State :=
  (s.hostPut ((R.HST_RING.at n).addr + 8) v).wr (F.HST_RING_EN.at n) (s.rd (F.HST_RING_EN.at n))

theorem bar0Write_ringCtl (i : Fin 72) (h : s.serves ((R.HST_RING.at i.val).addr + 8)) (v : Word) :
    s.bar0Write ((R.HST_RING.at i.val).addr + 8) v =
      State.digestBegun s ((s.ringPut i.val v).ringWritten i.val (bitN v.toNat 31)) i.val := by
  have hun : s.unitWrite "HST_RING" [i.val] ((R.HST_RING.at i.val).addr + 8) v = none := by
    unfold State.unitWrite
    rfl
  refine (bar0Write_stores h (by simp [State.fabGone]) (wordShape_ringCtl i) rfl hun rfl _).trans ?_
  exact if_pos rfl

theorem rd_ringPut (s : State) (n : Nat) (v : Word) : (s.ringPut n v).rd (F.HST_RING_EN.at n) = s.rd (F.HST_RING_EN.at n) := by
  rw [State.ringPut, rd_wr_same _ _ _ rfl]
  exact Nat.mod_eq_of_lt (bits_lt _ 31 31)

theorem on_ringPut (s : State) (n : Nat) (v : Word) : (s.ringPut n v).on (F.HST_RING_EN.at n) = s.on (F.HST_RING_EN.at n) := by
  rw [State.on, State.on, rd_ringPut]

theorem bitN_or_top (v : Word) : bitN (v ||| 0x80000000).toNat 31 = true := by
  have htop : bitN (0x80000000 : Word).toNat 31 = true := by decide
  rw [bitN] at htop ⊢
  rw [BitVec.toNat_or, Nat.testBit_or, htop, Bool.or_true]

theorem bitN_and_top (v : Word) : bitN (v &&& 0x7FFFFFFF).toNat 31 = false := by
  have htop : bitN (0x7FFFFFFF : Word).toNat 31 = false := by decide
  rw [bitN] at htop ⊢
  rw [BitVec.toNat_and, Nat.testBit_and, htop, Bool.and_false]

theorem exec_ringEnable_write (s : State) (i : Fin 72) (v : Word) :
    exec (.ringEnable i v) s = .next (s.bar0Write ((R.HST_RING.at i.val).addr + 8) (v ||| 0x80000000)) := rfl

theorem exec_ringDisable_write (s : State) (i : Fin 72) :
    exec (.ringDisable i) s =
      .next (s.bar0Write ((R.HST_RING.at i.val).addr + 8) (s.rdw ((R.HST_RING.at i.val).addr + 8) &&& 0x7FFFFFFF)) := rfl

theorem exec_ringEnable (i : Fin 72) (h : s.serves ((R.HST_RING.at i.val).addr + 8)) (v : Word) :
    exec (.ringEnable i v) s = .next (State.digestBegun s ((s.ringPut i.val (v ||| 0x80000000)).ringEnable i.val) i.val) := by
  rw [exec_ringEnable_write, bar0Write_ringCtl i h, bitN_or_top]
  exact congrArg (fun t => Host.Outcome.next (State.digestBegun s t i.val)) (if_pos rfl)

/-- Enabling has an effect only on a disabled ring of legal size. -/
theorem exec_ringEnable_ignored (i : Fin 72) (h : s.serves ((R.HST_RING.at i.val).addr + 8)) (v : Word)
    (hno : s.on (F.HST_RING_EN.at i.val) = true ∨ (s.ringPut i.val (v ||| 0x80000000)).ringSizeOk i.val = false) :
    exec (.ringEnable i v) s = .next (s.ringPut i.val (v ||| 0x80000000)) := by
  have hon := on_ringPut s i.val (v ||| 0x80000000)
  rw [exec_ringEnable i h, ringEnable_unchanged (hno.imp_left hon.trans), digestBegun_same]
  rw [hon]
  cases s.on (F.HST_RING_EN.at i.val) with
  | true => exact .inl rfl
  | false => exact .inr rfl

theorem exec_ringEnable_restarts (i : Fin 72) (h : s.serves ((R.HST_RING.at i.val).addr + 8)) (v : Word)
    (hoff : s.on (F.HST_RING_EN.at i.val) = false) (hsize : (s.ringPut i.val (v ||| 0x80000000)).ringSizeOk i.val = true) :
    ∃ t, exec (.ringEnable i v) s = .next t
      ∧ t.rd (F.HST_RING_EN.at i.val) = 1 ∧ t.rd (F.HST_RING_STOPPED.at i.val) = 0 ∧ t.rd (F.HST_RING_CONS.at i.val) = 0
      ∧ (i.val ≠ 1 → t.rd (F.HST_RING_PROD.at i.val) = 0) := by
  have hrd (f : Fld) := rd_congr (digestBegun_regs s ((s.ringPut i.val (v ||| 0x80000000)).ringEnable i.val) i.val) f
  refine ⟨_, exec_ringEnable i h v, ?_⟩
  rw [hrd, hrd, hrd, hrd]
  exact ringEnable_fields ((on_ringPut s i.val _).trans hoff) hsize

/-- A ring stops: EN is 0 and STOPPED is 1. -/
def State.ringStop (s : State) (n : Nat) : State := (s.wr (F.HST_RING_EN.at n) 0).wr (F.HST_RING_STOPPED.at n) 1

theorem ringDisable_on {n : Nat} (h : s.on (F.HST_RING_EN.at n) = true) : s.ringDisable n = s.ringStop n := if_pos h

theorem ringStop_fields (s : State) (n : Nat) :
    (s.ringStop n).rd (F.HST_RING_EN.at n) = 0 ∧ (s.ringStop n).rd (F.HST_RING_STOPPED.at n) = 1 := by
  have hse : (F.HST_RING_STOPPED.at n).apart (F.HST_RING_EN.at n) = true := by
    simp [Fld.apart, Fld.ok, Fld.at, F.HST_RING_STOPPED, F.HST_RING_EN]
  unfold State.ringStop
  constructor
  · rw [rd_wr_apart _ _ _ _ hse, rd_wr_same _ _ _ rfl]
    rfl
  · rw [rd_wr_same _ _ _ rfl]
    rfl

/-- `t` is `s` but for its registers. -/
def onlyRegs (s t : State) : Prop := ∃ m, t = { s with regs := m }

theorem onlyRegs_wr {t : State} (h : onlyRegs s t) (f : Fld) (v : Nat) : onlyRegs s (t.wr f v) := by
  obtain ⟨m, rfl⟩ := h
  exact ⟨_, rfl⟩

theorem onlyRegs_restored {t : State} (h : onlyRegs s t) : { t with regs := s.regs } = s := by
  obtain ⟨m, rfl⟩ := h
  rfl

theorem onlyRegs_ringStop (n : Nat) (v : Word) : onlyRegs s ((s.ringPut n v).ringStop n) :=
  onlyRegs_wr (onlyRegs_wr (onlyRegs_wr (hostPut_form s _ v) _ _) _ _) _ _

theorem rdw_ringStop_ringPut {n : Nat} (v : Word) {x : Nat} (hx : x ≠ (R.HST_RING.at n).addr + 8) :
    ((s.ringPut n v).ringStop n).rdw x = s.rdw x := by
  have hen : x ≠ (F.HST_RING_EN.at n).addr := by
    simp only [Fld.at, F.HST_RING_EN, Reg.at, R.HST_RING] at hx ⊢
    omega
  have hstopped : x ≠ (F.HST_RING_STOPPED.at n).addr := hen
  rw [State.ringStop, rdw_wr_ne _ _ _ _ hstopped, rdw_wr_ne _ _ _ _ hen, State.ringPut, rdw_wr_ne _ _ _ _ hen,
    rdw_hostPut_ne s _ hx]

theorem exec_ringDisable (i : Fin 72) (h : s.serves ((R.HST_RING.at i.val).addr + 8))
    (hon : s.on (F.HST_RING_EN.at i.val) = true) : ∃ t, exec (.ringDisable i) s = .next t
      ∧ t.rd (F.HST_RING_EN.at i.val) = 0 ∧ t.rd (F.HST_RING_STOPPED.at i.val) = 1
      ∧ (∀ x, x ≠ (R.HST_RING.at i.val).addr + 8 → t.rdw x = s.rdw x) ∧ { t with regs := s.regs } = s := by
  have hon' := (on_ringPut s i.val (s.rdw ((R.HST_RING.at i.val).addr + 8) &&& 0x7FFFFFFF)).trans hon
  rw [exec_ringDisable_write, bar0Write_ringCtl i h, bitN_and_top, digestBegun_same (.inl hon), State.ringWritten,
    if_neg (by decide), ringDisable_on hon']
  obtain ⟨hen, hstopped⟩ := ringStop_fields (s.ringPut i.val (s.rdw ((R.HST_RING.at i.val).addr + 8) &&& 0x7FFFFFFF)) i.val
  exact ⟨_, rfl, hen, hstopped, fun x hx => rdw_ringStop_ringPut _ hx, onlyRegs_restored (onlyRegs_ringStop _ _)⟩

/-! ### DMA errors and index shadows -/

theorem rdw_hstEvt_ne (s : State) (f : Fld) {a : Nat} (hf : a ≠ f.addr) (h1 : 0x20020 ≤ a) (h2 : a < 0x3a000) :
    (s.hstEvt f).rdw a = s.rdw a := by
  unfold State.hstEvt State.setEvt
  dsimp only
  split
  · rw [rdw_raise _ _ a (.inr h1) (.inl h2), rdw_wr_ne _ _ _ _ hf]
  · rw [rdw_wr_ne _ _ _ _ hf]

theorem rd_hstEvt_same (s : State) {f : Fld} (hok : f.ok = true) (h1 : 0x20020 ≤ f.addr) (h2 : f.addr < 0x3a000) :
    (s.hstEvt f).rd f = 1 % 2 ^ f.width := by
  rw [← rd_wr_same s f 1 hok]
  unfold State.hstEvt State.setEvt
  dsimp only
  split
  · exact rd_raise _ _ f (.inr h1) (.inl h2)
  · rfl

theorem dmaError_off {n addr : Nat} (h : s.on (F.HST_RING_EN.at n) = false) : s.dmaError n addr = s :=
  if_neg (by rw [h]; decide)

/-- A ring DMA that fails stops its ring, and the error registers show the address and the ring (R471). -/
theorem dmaError_fields {n addr : Nat} (hn : n < 72) (ha : addr < 2 ^ 64) (h : s.on (F.HST_RING_EN.at n) = true) :
    (s.dmaError n addr).rd (F.HST_RING_EN.at n) = 0 ∧ (s.dmaError n addr).rd (F.HST_RING_STOPPED.at n) = 1
      ∧ (s.dmaError n addr).rd64 R.HST_DMA_ERR_ADDR = addr ∧ (s.dmaError n addr).rd F.HST_DMA_ERR_RING_RING = n
      ∧ (s.dmaError n addr).rd F.HST_EVT_DMA_ERR = 1 := by
  have hform : s.dmaError n addr = State.hstEvt (((s.ringStop n).wr64 R.HST_DMA_ERR_ADDR addr).wr
      F.HST_DMA_ERR_RING_RING n) F.HST_EVT_DMA_ERR := if_pos h
  obtain ⟨hen, hstopped⟩ := ringStop_fields s n
  have hkeep {u : State} {f : Fld} (h1 : 0x31000 ≤ f.addr) (h2 : f.addr < 0x32000) :
      (State.hstEvt ((u.wr64 R.HST_DMA_ERR_ADDR addr).wr F.HST_DMA_ERR_RING_RING n) F.HST_EVT_DMA_ERR).rd f = u.rd f := by
    have he : f.addr ≠ F.HST_EVT_DMA_ERR.addr := by simp only [F.HST_EVT_DMA_ERR]; omega
    have hr : f.addr ≠ F.HST_DMA_ERR_RING_RING.addr := by simp only [F.HST_DMA_ERR_RING_RING]; omega
    rw [State.rd, rdw_hstEvt_ne _ _ he (by omega) (by omega), rdw_wr_ne _ _ _ _ hr,
      rdw_wr64_ne _ _ _ (by simp only [R.HST_DMA_ERR_ADDR]; omega), State.rd]
  have hctl : 0x31000 ≤ (F.HST_RING_EN.at n).addr ∧ (F.HST_RING_EN.at n).addr < 0x32000 := by
    simp only [Fld.at, F.HST_RING_EN]
    omega
  rw [hform]
  refine ⟨?_, ?_, ?_, ?_, ?_⟩
  · rw [hkeep hctl.1 hctl.2, hen]
  · rw [hkeep (f := F.HST_RING_STOPPED.at n) hctl.1 hctl.2, hstopped]
  · rw [State.rd64, rdw_hstEvt_ne _ _ (by decide) (by decide) (by decide), rdw_hstEvt_ne _ _ (by decide) (by decide) (by decide),
      ← State.rd64, rd64_wr_ne _ _ _ _ (by decide), rd64_wr64_same]
    exact Nat.mod_eq_of_lt ha
  · rw [State.rd, rdw_hstEvt_ne _ _ (by decide) (by decide) (by decide), ← State.rd, rd_wr_same _ _ _ rfl]
    exact Nat.mod_eq_of_lt (Nat.lt_trans hn (by decide))
  · exact rd_hstEvt_same _ rfl (by decide) (by decide)

theorem shadowDue_none {n : Nat} (h : s.ring.shadowDue.contains n = false ∨ s.pcie.d3hot = true) : s.shadowDue n = s := by
  refine if_neg ?_
  rcases h with h | h <;> rw [h] <;> simp

theorem shadowDue_held {n t : Nat} (hdue : s.ring.shadowDue.contains n = true) (hd0 : s.pcie.d3hot = false)
    (ht : mget (fun _ => (none : Option Nat)) s.ring.shadowAt n = some t) :
    s.shadowDue n = (s.advanceUp (t + 100)).writeShadow n := by
  unfold State.shadowDue
  simp only [hdue, hd0, Bool.not_false, Bool.and_self, if_true, ht]

theorem writeShadow_due (s : State) (n : Nat) : n ∉ (s.writeShadow n).ring.shadowDue := by
  simp [State.writeShadow]

end Rings

/-- Settles O52: an event by its EVT_PEND bit and its vector's state, the messages by mask, hold-off and PBA, a reset of the
function by what holds while its levels are noted, the rings by the words that enabling, stopping and a DMA error write. -/
theorem eventsRingsAndTheFunctionFollowTheirRules : Obligations.EventsRingsAndTheFunctionFollowTheirRules := by
  unfold Obligations.EventsRingsAndTheFunctionFollowTheirRules
  intro s
  refine ⟨fun n => ⟨raise_reserved, fun hx => ?_, ?_⟩, fun w v h => ?_, fun v t hdue hd0 ht => ?_, fun hd => ?_,
    fun h => ?_, fun h => ?_, fun i v => ⟨fun h => ⟨?_, ?_, ?_⟩, fun addr => ⟨?_, ?_⟩, ?_, ?_⟩⟩
  · refine ⟨by rw [evtPend_raise s hx (sourceExists_lt hx), if_pos rfl], out_raise_quiet s hx, fun hp he => ⟨?_, ?_, ?_⟩⟩
    · exact raise_closed s hx hp he
    · exact raise_sends s hx hp he
    · exact raise_defers s hx hp he
  · exact fun a ha => rdw_raise_words s ha
  · exact congrArg Host.Outcome.next (bar0Write_evtForce h v)
  · have hend := holdoffEnds_held hdue hd0 ht
    refine ⟨fun hopen => ?_, fun hclosed => ?_⟩
    · exact congrArg Host.Outcome.next (hend.trans (if_pos hopen))
    · exact congrArg Host.Outcome.next (hend.trans (if_neg (by rw [hclosed]; decide)))
  · refine ⟨fun v => ?_, ?_, ?_, ?_, fun k => ?_⟩
    · exact ⟨_, congrArg Host.Outcome.next (unmask_awake hd (.vector v)), unmask_vector s v⟩
    · refine ⟨_, congrArg Host.Outcome.next (unmask_awake hd .function), pcie_unmaskAll _ _, fun he v hv hm => ?_⟩
      exact pba_unmaskAll (s := { s with pcie := { s.pcie with funcMask := false } }) he rfl hv hm _ (List.mem_range.2 hv)
    · refine ⟨_, congrArg Host.Outcome.next (unmask_awake hd .enable), pcie_unmaskAll _ _, fun hf v hv hm => ?_⟩
      exact pba_unmaskAll (s := { s with pcie := { s.pcie with msixEn := true } }) rfl hf hv hm _ (List.mem_range.2 hv)
    · exact congrArg Host.Outcome.next (if_neg (by rw [hd]; decide))
    · obtain ⟨hpcie, hring, -, -⟩ := funcReset_clear hd
      refine ⟨s.funcReset, by cases k <;> rfl, hpcie, hring, fun a ha => rdw_funcReset_other hd ha,
        fun a ha hl hp => rdw_funcReset_host hd ha hl hp, fun n hn hl h240 => evtPend_funcReset hd hn hl h240⟩
  · exact congrArg Host.Outcome.next (if_neg (by rw [h]; decide))
  · exact congrArg Host.Outcome.next (if_pos (by rw [h]; rfl))
  · exact exec_ringEnable_ignored i h v
  · exact exec_ringEnable_restarts i h v
  · exact exec_ringDisable i h
  · exact fun hoff => congrArg Host.Outcome.next (dmaError_off hoff)
  · exact fun hon => ⟨_, rfl, dmaError_fields i.isLt addr.isLt hon⟩
  · exact fun hno => congrArg Host.Outcome.next (shadowDue_none hno)
  · intro t hdue hd0 ht
    refine ⟨_, congrArg Host.Outcome.next (shadowDue_held hdue hd0 ht), writeShadow_due _ _, rfl⟩
end Sys2Proof.Machine


/-! # O53: an event frame behind a PTP message that waits

The event frame joins the frames that wait for its tether port, and all of them leave. A waiting PTP event message on a port
in two-step MODE is stamped on its way out, and its stamp raises the source of the two-step FIFO: EVT state then changes
beyond the digest of the event frame, against the clause that the rest of `ev` stays. The statement speaks of every state,
so also of one in which such a message still waits at a port that may send. -/

namespace Sys2Proof.Machine

/-- Tether port 145 in RUN with an event frame due, in PTP MODE 1, and a Sync of a control core waiting. -/
def tEventFrame : State :=
  let run := (State.reset.wr F.MOD_STATUS_MODE mRUN).wr F.MOD_STATUS_DP_READY 1
  let up := (((run.wr (F.LPT_CFG_SPEED.at 145) 2).wr (F.LPT_STATUS_ALIGNED.at 145) 1).wr (F.LPT_CTRL_ADMIN_UP.at 145) 1).wr
    (F.LPT_STATUS_LINK.at 145) 1
  let due := ((up.wr F.EVT_TMGMT_EN 1).wr (F.LPT_CTRL_TMGMT_EN.at 145) 1).wrr (R.EVT_EN.at 0) 1
  let sync := (due.wr (F.WRS_PORT_PTP_MODE.at 145) 1).pstUpd 145
    (fun x => { x with direct := [(true, zeros 12 ++ beB 2 0x88F7 ++ zeros 46)] })
  { sync with tmSrc := 1, ev := { tmRaised := 1 } }

theorem tEventFrame_due :
    tEventFrame.on F.EVT_TMGMT_EN = true ∧ tEventFrame.on (F.LPT_CTRL_TMGMT_EN.at 145) = true ∧ tEventFrame.link 145 = true
      ∧ tEventFrame.tmSrc ≠ 0 ∧ tEventFrame.tmDue = true ∧ tEventFrame.ev.tmAt = none ∧ tEventFrame.inMode mRUN = true := by
  decide +kernel

/-- The stamp of the Sync raises source 9 of group 1, the two-step FIFO. -/
theorem raised_eventFrame : tEventFrame.ev.raised = 0 ∧ bitN (tEventFrame.eventFrame 1).ev.raised (eg 1 9) = true := by
  decide +kernel

/-- Refutes O53: the Sync that waits before the event frame raises the source of the two-step FIFO, so `ev` changes in more
than the digest of the event frame. -/
theorem not_windowInjectEventFramesAndI2cFollowTheirRules : ¬ Obligations.WindowInjectEventFramesAndI2cFollowTheirRules := by
  intro h
  obtain ⟨hen, htx, hlink, hsrc, hdue, hat, hrun⟩ := tEventFrame_due
  obtain ⟨-, -, -, hframe, -⟩ := h tEventFrame
  obtain ⟨t, seq, hexec, hev, -⟩ := hframe 1 hen htx hlink hsrc hdue (by rw [hat]; intro t ht; cases ht) (.inl hrun)
  obtain ⟨hbefore, hafter⟩ := raised_eventFrame
  have ht : tEventFrame.eventFrame 1 = t := Host.Outcome.next.inj hexec
  rw [ht, hev, hbefore] at hafter
  exact absurd hafter (by decide)

end Sys2Proof.Machine


/-! # O54: gallery tests, PROBE, row remap, ECC errors and the logs of BIS -/

namespace Sys2Proof.Machine

/-! ### Writes that leave a field or the state behind the registers -/

section Frames
variable {s : State}

theorem rd_wr_ne (s : State) (f g : Fld) (v : Nat) (h : g.addr ≠ f.addr) : (s.wr f v).rd g = s.rd g := by
  rw [State.rd, rdw_wr_ne _ _ _ _ h, State.rd]

theorem rd_cnt_ne (s : State) (r : Reg) (off n : Nat) {f : Fld} (h : f.addr ≠ r.addr + off ∧ f.addr ≠ r.addr + off + 4) :
    (s.cnt r off n).rd f = s.rd f := rd_wr64_ne s _ _ f h

/-- Steering changes the two bits of a gallery and its neighbour, not the state of a gallery. -/
theorem galState_steer (s : State) (n : Nat) (on : Bool) (g : Nat) : (s.steer n on).galState g = s.galState g := by
  unfold State.steer State.galState
  rw [rd_wr_apart _ _ _ _ (by simp [Fld.apart, Fld.ok, Fld.at, F.GAL_STATUS_STATE, F.GAL_STATUS_SERVING_NBR]),
    rd_wr_apart _ _ _ _ (by simp [Fld.apart, Fld.ok, Fld.at, F.GAL_STATUS_STATE, F.GAL_STATUS_STEERED])]

theorem rd_steer_below (s : State) (n : Nat) (on : Bool) {f : Fld} (h : f.addr < 0x700000) : (s.steer n on).rd f = s.rd f := by
  unfold State.steer
  rw [rd_wr_ne _ _ _ _ (by simp only [Fld.at, F.GAL_STATUS_SERVING_NBR]; omega),
    rd_wr_ne _ _ _ _ (by simp only [Fld.at, F.GAL_STATUS_STEERED]; omega)]

theorem galState_wr_state (s : State) (g v : Nat) : (s.wr (F.GAL_STATUS_STATE.at g) v).galState g = v % 8 :=
  rd_wr_same _ _ _ rfl

theorem rd_wr_state_below (s : State) (g v : Nat) {f : Fld} (h : f.addr < 0x700000) :
    (s.wr (F.GAL_STATUS_STATE.at g) v).rd f = s.rd f :=
  rd_wr_ne _ _ _ _ (by simp only [Fld.at, F.GAL_STATUS_STATE]; omega)

theorem galState_wr_below (s : State) {f : Fld} (v g : Nat) (h : f.addr < 0x700000) : (s.wr f v).galState g = s.galState g :=
  rd_wr_ne _ _ _ _ (by simp only [Fld.at, F.GAL_STATUS_STATE]; omega)

theorem galState_cnt_below (s : State) {r : Reg} {off : Nat} (n g : Nat) (h : r.addr + off + 4 < 0x700000) :
    (s.cnt r off n).galState g = s.galState g :=
  rd_cnt_ne _ _ _ _ (by simp only [Fld.at, F.GAL_STATUS_STATE]; omega)

/-- A field that no event touches. -/
theorem rd_raise_at (s : State) (n : Nat) {f : Fld} (h : 0x60000 ≤ f.addr) : (s.raise n).rd f = s.rd f :=
  rd_raise _ _ _ (.inr (by omega)) (.inr (by omega))

theorem bist_raise (s : State) (n : Nat) : (s.raise n).bist = s.bist := by
  obtain ⟨r, e, o, h⟩ := raise_form s n
  rw [h]

theorem nvm_raise (s : State) (n : Nat) : (s.raise n).nvm = s.nvm := by
  obtain ⟨r, e, o, h⟩ := raise_form s n
  rw [h]

end Frames

/-! ### A request for a gallery test (R503) -/

section Request
variable {s : State}

/-- A request is judged by words other than those of the request itself. -/
theorem gtRefuse_wr (s : State) {f : Fld} (h : 0x70000 ≤ f.addr ∧ f.addr < 0x700000) (v g : Nat) (at_ : Bool) :
    (s.wr f v).gtRefuse g at_ = s.gtRefuse g at_ := by
  have hrd {x : Fld} (hx : x.addr < 0x70000 ∨ 0x700000 ≤ x.addr) : (s.wr f v).rd x = s.rd x := rd_wr_ne _ _ _ _ (by omega)
  have hmode := hrd (x := F.MOD_STATUS_MODE) (by decide)
  have hphase := hrd (x := F.MOD_STATUS_PHASE) (by decide)
  have hrun := hrd (x := F.CAD_STATUS_RUNNING) (by decide)
  have hstate := hrd (x := F.GAL_STATUS_STATE.at ((g + 1) % 8)) (.inr (Nat.le_trans (by decide) (Nat.le_add_right _ _)))
  have hnbr := hrd (x := F.GAL_STATUS_SERVING_NBR.at g) (.inr (Nat.le_trans (by decide) (Nat.le_add_right _ _)))
  unfold State.gtRefuse
  simp only [State.inMode, State.mode, State.on, State.galState, State.running, hmode, hphase, hrun, hstate, hnbr]
  rfl

theorem gtRefuse_eq_one (s : State) (g : Nat) (at_ : Bool) : s.gtRefuse g at_ = 1 ↔ s.bist.gt.isSome = true := by
  unfold State.gtRefuse
  split
  case isTrue h => exact ⟨fun _ => h, fun _ => rfl⟩
  case isFalse h =>
    refine ⟨fun h' => absurd h' ?_, fun h' => absurd h' h⟩
    repeat' split
    all_goals decide

theorem gtRefuse_eq_zero {g : Nat} {at_ : Bool} (h : s.gtRefuse g at_ = 0) :
    s.inMode mRUN = true ∧ s.rd F.MOD_STATUS_PHASE = 0 ∧ s.kpr.swap = none ∧ s.armedSet 2 = 0
      ∧ s.galState ((g + 1) % 8) = gSERVICE ∧ s.rd (F.GAL_STATUS_SERVING_NBR.at g) = 0 ∧ (at_ = true → s.running = true) := by
  unfold State.gtRefuse at h
  split at h
  · exact absurd h (by decide)
  split at h
  · exact absurd h (by decide)
  case isFalse hswap =>
  split at h
  · exact absurd h (by decide)
  case isFalse hmode =>
  split at h
  · exact absurd h (by decide)
  case isFalse hgal =>
  split at h
  · exact absurd h (by decide)
  case isFalse hrun =>
  simp [State.on] at hswap hmode hgal hrun
  exact ⟨hmode.1, hmode.2, hswap.1, hswap.2, hgal.1, hgal.2, hrun⟩

theorem gtRefuse_lt (s : State) (g : Nat) (at_ : Bool) : s.gtRefuse g at_ < 16 := by
  unfold State.gtRefuse
  repeat' split
  all_goals decide

/-- The state in which a request has shown its gallery and its code. -/
def State.gtShown (s : State) (g n : Nat) : State := (s.wr F.BIS_GTEST_STATUS_GAL g).wr F.BIS_GTEST_STATUS_REJECT n

theorem gtShown_fields (s : State) {g n : Nat} (hg : g < 8) (hn : n < 16) :
    (s.gtShown g n).rd F.BIS_GTEST_STATUS_GAL = g ∧ (s.gtShown g n).rd F.BIS_GTEST_STATUS_REJECT = n := by
  unfold State.gtShown
  rw [rd_wr_same _ F.BIS_GTEST_STATUS_REJECT _ rfl, rd_wr_apart _ _ _ _ (by decide), rd_wr_same _ _ _ rfl]
  exact ⟨Nat.mod_eq_of_lt hg, Nat.mod_eq_of_lt hn⟩

theorem bist_gtShown (s : State) (g n : Nat) : (s.gtShown g n).bist = s.bist := (wr_bist _ _ _).trans (wr_bist _ _ _)

theorem tb_gtShown (s : State) (g n : Nat) : (s.gtShown g n).tb = s.tb := (wr_tb _ _ _).trans (wr_tb _ _ _)

theorem gal_gtShown (s : State) (g n : Nat) : (s.gtShown g n).gal = s.gal := (wr_gal _ _ _).trans (wr_gal _ _ _)

theorem galState_gtShown (s : State) (g n h : Nat) : (s.gtShown g n).galState h = s.galState h :=
  (galState_wr_below _ _ _ (by decide)).trans (galState_wr_below _ _ _ (by decide))

/-- A request that is refused ends at once; one that is accepted starts, or waits for its tick. -/
theorem gtRequest_refused {g : Nat} {t : Option Nat} (h : s.gtRefuse g t.isSome ≠ 0) :
    s.gtRequest g t = ((s.gtShown g (s.gtRefuse g t.isSome)).wr F.BIS_GTEST_STATUS_DONE 1, false) := if_pos h

theorem gtRequest_starts {g : Nat} (h : s.gtRefuse g false = 0) : s.gtRequest g none = ((s.gtShown g 0).gtStart g, true) := by
  unfold State.gtRequest State.gtShown
  simp only [Option.isSome_none, h, ne_eq, not_true_eq_false, if_false]

/-- The instant of tick `t`, or of the next one when it has passed. -/
def State.gtAtTick (s : State) (t : Nat) : Nat := if s.tickPassed t then s.tb.nextTick else t

/-- A request for gallery `g` waits for tick `t`. -/
def State.gtWait (s : State) (g t : Nat) : State := { s with bist := { s.bist with gtAt := some (g, t) } }

theorem rd_gtWait (s : State) (g t : Nat) (f : Fld) : (s.gtWait g t).rd f = s.rd f := rfl

theorem bist_gtWait (s : State) (g t : Nat) : (s.gtWait g t).bist = { s.bist with gtAt := some (g, t) } := rfl

theorem gtRequest_waits {g t : Nat} (h : s.gtRefuse g true = 0) :
    s.gtRequest g (some t) = ((s.gtShown g 0).gtWait g ((s.gtShown g 0).gtAtTick t), true) := by
  unfold State.gtRequest State.gtWait State.gtShown State.gtAtTick
  simp only [Option.isSome_some, h, ne_eq, not_true_eq_false, if_false]

/-! ### The test starts (R504, T1) -/

/-- The gallery test is at `x`. -/
def State.gtPut (s : State) (x : Gtest) : State := { s with bist := { s.bist with gt := some x } }

theorem rd_gtPut (s : State) (x : Gtest) (f : Fld) : (s.gtPut x).rd f = s.rd f := rfl

theorem galState_gtPut (s : State) (x : Gtest) (g : Nat) : (s.gtPut x).galState g = s.galState g := rfl

theorem gt_gtPut (s : State) (x : Gtest) : (s.gtPut x).bist.gt = some x := rfl

/-- The state in which a test of gallery `g` shows that it runs. -/
def State.gtActive (s : State) (g : Nat) : State :=
  (((s.gtPut { g := g, step := 2 }).wr F.BIS_GTEST_STATUS_ACTIVE 1).wr F.BIS_GTEST_STATUS_RESULT 0).cnt R.BIS_CNT 0x38

theorem galState_gtActive (s : State) (g h : Nat) : (s.gtActive g).galState h = s.galState h := by
  unfold State.gtActive
  rw [galState_cnt_below _ _ _ (by decide), galState_wr_below _ _ _ (by decide), galState_wr_below _ _ _ (by decide), galState_gtPut]

theorem gt_gtActive (s : State) (g : Nat) : (s.gtActive g).bist.gt = some { g := g, step := 2 } := by
  unfold State.gtActive
  rw [cnt_bist, wr_bist, wr_bist, gt_gtPut]

theorem rd_gtActive (s : State) (g : Nat) {f : Fld} (h : f.addr < 0x72000)
    (ha : F.BIS_GTEST_STATUS_ACTIVE.apart f = true) (hr : F.BIS_GTEST_STATUS_RESULT.apart f = true) :
    (s.gtActive g).rd f = s.rd f := by
  unfold State.gtActive
  rw [rd_cnt_ne _ _ _ _ (by simp only [R.BIS_CNT]; omega), rd_wr_apart _ _ _ _ hr, rd_wr_apart _ _ _ _ ha,
    rd_gtPut]

theorem gtActive_fields (s : State) (g : Nat) :
    (s.gtActive g).rd F.BIS_GTEST_STATUS_ACTIVE = 1 ∧ (s.gtActive g).rd F.BIS_GTEST_STATUS_RESULT = 0 := by
  unfold State.gtActive
  rw [rd_cnt_ne _ _ _ _ (by decide), rd_cnt_ne _ _ _ _ (by decide), rd_wr_apart _ _ _ _ (by decide), rd_wr_same _ _ _ rfl,
    rd_wr_same _ _ _ rfl]
  exact ⟨rfl, rfl⟩

/-- A test of a gallery that is not in service: it has nothing to drain. -/
def State.gtIdle (s : State) (g : Nat) : State :=
  (((s.wr (F.GAL_STATUS_STATE.at g) gTEST).steer g true).wr F.BIS_STATUS_PHASE 6).gtPut { g := g, step := 3 }

theorem gtStart_eq (s : State) (g : Nat) : s.gtStart g =
    if (s.gtActive g).galState g = gSERVICE then (s.gtActive g).galDrain g else (s.gtActive g).gtIdle g := rfl

/-- A gallery in service begins to drain. -/
theorem galDrain_service {g : Nat} (h : s.galState g = gSERVICE) : s.galDrain g =
    ((s.galUpd g (fun x => { x with drainAt := some s.tb.up })).wr (F.GAL_STATUS_STATE.at g) gDRAINING).steer g true := if_pos h

theorem gtStart_service {g : Nat} (h : s.galState g = gSERVICE) : s.gtStart g = (s.gtActive g).galDrain g := by
  rw [gtStart_eq, galState_gtActive, if_pos h]

theorem gtStart_idle {g : Nat} (h : s.galState g ≠ gSERVICE) : s.gtStart g = (s.gtActive g).gtIdle g := by
  rw [gtStart_eq, galState_gtActive, if_neg h]

theorem rd_galDrain_below (s : State) (g : Nat) {f : Fld} (h : f.addr < 0x700000) : (s.galDrain g).rd f = s.rd f := by
  unfold State.galDrain
  split
  · rw [rd_steer_below _ _ _ h, rd_wr_state_below _ _ _ h, rd_galUpd]
  · rfl

theorem rd_gtIdle_below (s : State) (g : Nat) {f : Fld} (h : f.addr < 0x700000 ∧ f.addr ≠ F.BIS_STATUS_PHASE.addr) :
    (s.gtIdle g).rd f = s.rd f := by
  rw [State.gtIdle, rd_gtPut, rd_wr_ne _ _ _ _ h.2, rd_steer_below _ _ _ h.1, rd_wr_state_below _ _ _ h.1]

theorem rd_gtStart_below (s : State) (g : Nat) {f : Fld} (h : f.addr < 0x700000 ∧ f.addr ≠ F.BIS_STATUS_PHASE.addr) :
    (s.gtStart g).rd f = (s.gtActive g).rd f := by
  rw [gtStart_eq]
  split
  · exact rd_galDrain_below _ _ h.1
  · exact rd_gtIdle_below _ _ h

theorem galState_galDrain {g : Nat} (h : s.galState g = gSERVICE) : (s.galDrain g).galState g = gDRAINING := by
  rw [galDrain_service h, galState_steer, galState_wr_state]
  rfl

theorem galState_gtIdle (s : State) (g : Nat) : (s.gtIdle g).galState g = gTEST := by
  rw [State.gtIdle, galState_gtPut, galState_wr_below _ _ _ (by decide), galState_steer, galState_wr_state]
  rfl

theorem bist_galDrain (s : State) (g : Nat) : (s.galDrain g).bist = s.bist := by
  unfold State.galDrain State.steer
  split
  · rw [wr_bist, wr_bist, wr_bist, galUpd_bist]
  · rfl

/-- The test of a gallery in service drains it first; another gallery is tested at once. -/
theorem gtStart_steps (s : State) (g : Nat) :
    (s.galState g = gSERVICE → (s.gtStart g).bist.gt = some { g := g, step := 2 } ∧ (s.gtStart g).galState g = gDRAINING)
      ∧ (s.galState g ≠ gSERVICE → (s.gtStart g).bist.gt = some { g := g, step := 3 } ∧ (s.gtStart g).galState g = gTEST) := by
  refine ⟨fun h => ?_, fun h => ?_⟩
  · rw [gtStart_service h, bist_galDrain]
    exact ⟨gt_gtActive s g, galState_galDrain ((galState_gtActive s g g).trans h)⟩
  · rw [gtStart_idle h]
    exact ⟨gt_gtPut _ _, galState_gtIdle _ _⟩

/-! ### A write of BIS_GTEST_CTRL -/

/-- The arguments of a write of BIS_GTEST_CTRL are stored. -/
def State.gtArgs (s : State) (v : Nat) : State := (s.wr F.BIS_GTEST_CTRL_AT_TICK (bits v 31 31)).wr F.BIS_GTEST_CTRL_GAL (bits v 10 8)

theorem rd_gtArgs_ne (s : State) (v : Nat) {f : Fld} (h : f.addr ≠ 0x70040) : (s.gtArgs v).rd f = s.rd f := by
  unfold State.gtArgs
  rw [rd_wr_ne _ _ _ _ h, rd_wr_ne _ _ _ _ h]

theorem bist_gtArgs (s : State) (v : Nat) : (s.gtArgs v).bist = s.bist := (wr_bist _ _ _).trans (wr_bist _ _ _)

theorem gal_gtArgs (s : State) (v : Nat) : (s.gtArgs v).gal = s.gal := (wr_gal _ _ _).trans (wr_gal _ _ _)

theorem tb_gtArgs (s : State) (v : Nat) : (s.gtArgs v).tb = s.tb := (wr_tb _ _ _).trans (wr_tb _ _ _)

theorem gtRefuse_gtArgs (s : State) (v g : Nat) (at_ : Bool) : (s.gtArgs v).gtRefuse g at_ = s.gtRefuse g at_ := by
  unfold State.gtArgs
  rw [gtRefuse_wr _ (by decide), gtRefuse_wr _ (by decide)]

theorem go_gtArgs (s : State) (v : Nat) : (s.gtArgs v).rd F.BIS_GTEST_CTRL_GO = s.rd F.BIS_GTEST_CTRL_GO := by
  unfold State.gtArgs
  rw [rd_wr_apart _ _ _ _ (by decide), rd_wr_apart _ _ _ _ (by decide)]

theorem tick_gtArgs (s : State) (v : Nat) : (s.gtArgs v).rd64 R.BIS_GTEST_TICK = s.rd64 R.BIS_GTEST_TICK := by
  unfold State.gtArgs
  rw [rd64_wr_ne _ _ _ _ (by decide), rd64_wr_ne _ _ _ _ (by decide)]

/-- The tick that a request names, if any. -/
def State.gtTick (s : State) (at_ : Bool) : Option Nat := if at_ then some (s.rd64 R.BIS_GTEST_TICK) else none

theorem gtTick_gtArgs (s : State) (v : Nat) (at_ : Bool) : (s.gtArgs v).gtTick at_ = s.gtTick at_ := by
  rw [State.gtTick, State.gtTick, tick_gtArgs]

/-- A request is made, and GO shows whether it was accepted. -/
def State.gtGo (s : State) (g : Nat) (t : Option Nat) : State := (s.gtRequest g t).1.wr F.BIS_GTEST_CTRL_GO (b2n (s.gtRequest g t).2)

theorem gtWrite_eq (s : State) (v : Nat) : s.gtWrite v =
    if v % 2 = 1 ∧ !(s.gtArgs v).on F.BIS_GTEST_CTRL_GO then (s.gtArgs v).gtGo (bits v 10 8) ((s.gtArgs v).gtTick (bitN v 31))
    else s.gtArgs v := rfl

theorem on_gtArgs (s : State) (v : Nat) : (s.gtArgs v).on F.BIS_GTEST_CTRL_GO = s.on F.BIS_GTEST_CTRL_GO := by
  rw [State.on, State.on, go_gtArgs]

/-- GO reads 1 until the test it requested ends, and is ignored until then. -/
theorem gtWrite_busy {v : Nat} (h : s.on F.BIS_GTEST_CTRL_GO = true) : s.gtWrite v = s.gtArgs v := by
  rw [gtWrite_eq, on_gtArgs, h, if_neg (by simp)]

theorem gtWrite_go {v : Nat} (hv : v % 2 = 1) (h : s.on F.BIS_GTEST_CTRL_GO = false) :
    s.gtWrite v = (s.gtArgs v).gtGo (bits v 10 8) (s.gtTick (bitN v 31)) := by
  rw [gtWrite_eq, on_gtArgs, h, if_pos ⟨hv, rfl⟩, gtTick_gtArgs]

theorem rd_gtGo (s : State) (g : Nat) (t : Option Nat) {f : Fld} (h : f.addr ≠ 0x70040) :
    (s.gtGo g t).rd f = (s.gtRequest g t).1.rd f := rd_wr_ne _ _ _ _ h

theorem galState_gtGo (s : State) (g h : Nat) (t : Option Nat) : (s.gtGo g t).galState h = (s.gtRequest g t).1.galState h :=
  galState_wr_below _ _ _ (by decide)

theorem go_gtGo (s : State) (g : Nat) (t : Option Nat) :
    (s.gtGo g t).rd F.BIS_GTEST_CTRL_GO = if s.gtRefuse g t.isSome = 0 then 1 else 0 := by
  have haccepted : (s.gtRequest g t).2 = decide (s.gtRefuse g t.isSome = 0) := by
    by_cases h : s.gtRefuse g t.isSome = 0
    · cases t with
      | none => rw [gtRequest_starts h, decide_eq_true h]
      | some t => rw [gtRequest_waits h, decide_eq_true h]
    · rw [gtRequest_refused h, decide_eq_false h]
  rw [State.gtGo, rd_wr_same _ _ _ rfl, haccepted]
  by_cases h : s.gtRefuse g t.isSome = 0
  · rw [h]; rfl
  · rw [decide_eq_false h, if_neg h]; rfl

/-- A request shows its gallery and its code. -/
theorem gtRequest_shows (s : State) {g : Nat} (hg : g < 8) (t : Option Nat) :
    (s.gtRequest g t).1.rd F.BIS_GTEST_STATUS_GAL = g
      ∧ (s.gtRequest g t).1.rd F.BIS_GTEST_STATUS_REJECT = s.gtRefuse g t.isSome := by
  have hshown := gtShown_fields s hg (gtRefuse_lt s g t.isSome)
  by_cases h : s.gtRefuse g t.isSome = 0
  · rw [h] at hshown
    cases t with
    | none =>
      rw [gtRequest_starts h, h]
      have hkeep {f : Fld} (ha : F.BIS_GTEST_STATUS_ACTIVE.apart f = true) (hr : F.BIS_GTEST_STATUS_RESULT.apart f = true)
          (hf : f.addr = 0x70044) : ((s.gtShown g 0).gtStart g).rd f = (s.gtShown g 0).rd f :=
        (rd_gtStart_below _ _ (by rw [hf]; decide)).trans (rd_gtActive _ _ (by rw [hf]; decide) ha hr)
      rw [hkeep (by decide) (by decide) rfl, hkeep (by decide) (by decide) rfl]
      exact hshown
    | some t =>
      rw [gtRequest_waits h, h, rd_gtWait, rd_gtWait]
      exact hshown
  · rw [gtRequest_refused h]
    dsimp only
    rw [rd_wr_apart _ _ _ _ (by decide), rd_wr_apart _ _ _ _ (by decide)]
    exact hshown

theorem bits_or_one {hi lo : Nat} (v : Word) (h : 1 ≤ lo) : bits (v ||| 1).toNat hi lo = bits v.toNat hi lo := by
  refine Nat.eq_of_testBit_eq (fun i => ?_)
  have hone : (1 : Word).toNat.testBit (lo + i) = false := Nat.testBit_lt_two_pow (Nat.one_lt_two_pow (by omega))
  rw [testBit_bits, testBit_bits, BitVec.toNat_or, Nat.testBit_or, hone, Bool.or_false]

theorem bitN_or_one_of_pos {i : Nat} (v : Word) (h : 1 ≤ i) : bitN (v ||| 1).toNat i = bitN v.toNat i := by
  have hone : (1 : Word).toNat.testBit i = false := Nat.testBit_lt_two_pow (Nat.one_lt_two_pow (by omega))
  rw [bitN, bitN, BitVec.toNat_or, Nat.testBit_or, hone, Bool.or_false]

theorem or_one_odd (v : Word) : (v ||| 1).toNat % 2 = 1 := by
  have h := bitN_or_one v
  rwa [bitN, Nat.testBit_zero, decide_eq_true_eq] at h

theorem wordShape_gtestCtrl : wordShape R.BIS_GTEST_CTRL.addr = some ("BIS_GTEST_CTRL", [], .w32) := by decide +kernel

theorem unitWrite_gtestCtrl (s : State) (a : Nat) (v : Word) : s.unitWrite "BIS_GTEST_CTRL" [] a v = some (s.gtWrite v.toNat) := by
  unfold State.unitWrite
  rfl

theorem exec_gtestGo (h : s.serves R.BIS_GTEST_CTRL.addr) (v : Word) : exec (.gtestGo v) s = .next (s.gtWrite (v ||| 1).toNat) :=
  congrArg Host.Outcome.next (bar0Write_taken h (by simp [State.fabGone]) wordShape_gtestCtrl rfl (unitWrite_gtestCtrl s _ _) _)

/-- A GO while one is outstanding stores its arguments only. -/
theorem exec_gtestGo_busy (h : s.serves R.BIS_GTEST_CTRL.addr) (v : Word) (hgo : s.rd F.BIS_GTEST_CTRL_GO = 1) :
    exec (.gtestGo v) s =
      .next ((s.wr F.BIS_GTEST_CTRL_AT_TICK (b2n (v.getLsbD 31))).wr F.BIS_GTEST_CTRL_GAL (bits v.toNat 10 8)) := by
  rw [exec_gtestGo h, gtWrite_busy (on_true (by rw [hgo]; decide)), State.gtArgs, bits_or_one v (by decide), bits_or_one v (by decide),
    bits_one]
  rfl

theorem exec_gtestGo_go (h : s.serves R.BIS_GTEST_CTRL.addr) (v : Word) (hgo : s.rd F.BIS_GTEST_CTRL_GO = 0) :
    exec (.gtestGo v) s = .next ((s.gtArgs (v ||| 1).toNat).gtGo (bits v.toNat 10 8) (s.gtTick (v.getLsbD 31))) := by
  rw [exec_gtestGo h, gtWrite_go (or_one_odd v) (on_false hgo), bits_or_one v (by decide), bitN_or_one_of_pos v (by decide)]
  rfl

theorem isSome_gtTick (s : State) (at_ : Bool) : (s.gtTick at_).isSome = at_ := by
  cases at_ <;> rfl

/-- A GO that is taken: its code, and what an accepted request starts (R503). -/
theorem gtGo_result (v : Nat) {g : Nat} (hg : g < 8) (at_ : Bool) :
    let t := (s.gtArgs v).gtGo g (s.gtTick at_)
    t.rd F.BIS_GTEST_STATUS_GAL = g ∧ t.rd F.BIS_GTEST_STATUS_REJECT = s.gtRefuse g at_
      ∧ t.rd F.BIS_GTEST_CTRL_GO = (if s.gtRefuse g at_ = 0 then 1 else 0)
      ∧ (s.gtRefuse g at_ ≠ 0 → t.rd F.BIS_GTEST_STATUS_DONE = 1 ∧ t.bist = s.bist ∧ t.gal = s.gal)
      ∧ (s.gtRefuse g at_ = 0 → at_ = true → t.bist = { s.bist with gtAt := some (g,
        if s.tickPassed (s.rd64 R.BIS_GTEST_TICK) then s.tb.nextTick else s.rd64 R.BIS_GTEST_TICK) })
      ∧ (s.gtRefuse g at_ = 0 → at_ = false → t.rd F.BIS_GTEST_STATUS_ACTIVE = 1 ∧ t.rd F.BIS_GTEST_STATUS_RESULT = 0 ∧
        (s.galState g = gSERVICE → t.bist.gt = some { g := g, step := 2 } ∧ t.galState g = gDRAINING)
        ∧ (s.galState g ≠ gSERVICE → t.bist.gt = some { g := g, step := 3 } ∧ t.galState g = gTEST)) := by
  dsimp only
  have hcode : (s.gtArgs v).gtRefuse g (s.gtTick at_).isSome = s.gtRefuse g at_ := by rw [isSome_gtTick, gtRefuse_gtArgs]
  obtain ⟨hgal, hreject⟩ := gtRequest_shows (s.gtArgs v) hg (s.gtTick at_)
  rw [hcode] at hreject
  refine ⟨(rd_gtGo _ _ _ (by decide)).trans hgal, (rd_gtGo _ _ _ (by decide)).trans hreject, ?_, fun hno => ?_, fun hyes hat => ?_,
    fun hyes hat => ?_⟩
  · rw [go_gtGo, hcode]
  · have hreq := gtRequest_refused (hcode.trans_ne hno)
    refine ⟨?_, ?_, ?_⟩
    · rw [rd_gtGo _ _ _ (by decide), hreq, rd_wr_same _ _ _ rfl]
      rfl
    · rw [State.gtGo, hreq, wr_bist, wr_bist, bist_gtShown, bist_gtArgs]
    · rw [State.gtGo, hreq, wr_gal, wr_gal, gal_gtShown, gal_gtArgs]
  · subst hat
    have hreq := gtRequest_waits (t := s.rd64 R.BIS_GTEST_TICK) ((gtRefuse_gtArgs s v g true).trans hyes)
    rw [State.gtGo, State.gtTick, if_pos rfl, hreq, wr_bist]
    rw [bist_gtWait, bist_gtShown, bist_gtArgs, State.gtAtTick, State.tickPassed, tb_gtShown, tb_gtArgs, State.tickPassed]
  · subst hat
    have hreq := gtRequest_starts ((gtRefuse_gtArgs s v g false).trans hyes)
    have hgalS : ((s.gtArgs v).gtShown g 0).galState g = s.galState g := by
      rw [galState_gtShown, State.gtArgs, galState_wr_below _ _ _ (by decide), galState_wr_below _ _ _ (by decide)]
    have hnone : s.gtTick false = none := rfl
    obtain ⟨hservice, hidle⟩ := gtStart_steps ((s.gtArgs v).gtShown g 0) g
    obtain ⟨hactive, hresult⟩ := gtActive_fields ((s.gtArgs v).gtShown g 0) g
    rw [hgalS] at hservice hidle
    refine ⟨?_, ?_, fun hs => ?_, fun hs => ?_⟩
    · rw [hnone, rd_gtGo _ _ _ (by decide), hreq, rd_gtStart_below _ _ (by decide), hactive]
    · rw [hnone, rd_gtGo _ _ _ (by decide), hreq, rd_gtStart_below _ _ (by decide), hresult]
    · rw [hnone, galState_gtGo, State.gtGo, hreq, wr_bist]
      exact hservice hs
    · rw [hnone, galState_gtGo, State.gtGo, hreq, wr_bist]
      exact hidle hs

end Request
end Sys2Proof.Machine


namespace Sys2Proof.Machine

/-! ### The steps of a gallery test (R504) -/

section Steps
variable {s : State} {x : Gtest} {e : TestRes}

theorem gtAuto_turn (hcfg : s.rd F.BIS_CFG_GTEST_AUTO_S ≠ 0) (hup : s.kprServes = true) : s.gtAuto =
    (let g := s.bist.turn % 8
      let u := s.advanceUp (s.bist.autoAt + s.rd F.BIS_CFG_GTEST_AUTO_S * 10 ^ 9)
      let r := ({ u with bist := { u.bist with turn := (g + 1) % 8, autoAt := u.tb.up } } : State).gtRequest g none
      if r.2 then r.1 else r.1.cnt R.BIS_CNT 0x48) :=
  if_neg (by rw [on_true hcfg, hup]; decide)

theorem gtAuto_off (h : s.rd F.BIS_CFG_GTEST_AUTO_S = 0 ∨ s.kprServes = false) : s.gtAuto = s := by
  refine if_pos ?_
  rcases h with h | h
  · rw [on_false h]
    rfl
  · rw [h]
    exact Bool.or_true _

theorem gtTickDue_waiting {g t : Nat} (hat : s.bist.gtAt = some (g, t)) : s.gtTickDue =
    if s.running && s.inMode mRUN && decide (t ≤ s.tick) then
      (let r := ({ s with bist := { s.bist with gtAt := none } } : State).gtRequest g none;
        r.1.wr F.BIS_GTEST_CTRL_GO (b2n r.2))
    else s := by
  unfold State.gtTickDue
  rw [hat]

/-- The words below HRD and the self-test state of `t` are those of `s`. -/
def hrdOnly (s t : State) : Prop := t.bist = s.bist ∧ ∀ a < 0xb00000, t.rdw a = s.rdw a

theorem hrdOnly.trans {t u : State} (h : hrdOnly s t) (h' : hrdOnly t u) : hrdOnly s u :=
  ⟨h'.1.trans h.1, fun a ha => (h'.2 a ha).trans (h.2 a ha)⟩

theorem hrdOnly_refl (s : State) : hrdOnly s s := ⟨rfl, fun _ _ => rfl⟩

theorem hrdOnly_wr (s : State) {f : Fld} (v : Nat) (h : 0xb00000 ≤ f.addr) : hrdOnly s (s.wr f v) :=
  ⟨wr_bist _ _ _, fun _ ha => rdw_wr_below s ha h v⟩

theorem hrdOnly_cnt (s : State) {r : Reg} (off n : Nat) (h : 0xb00000 ≤ r.addr) : hrdOnly s (s.cnt r off n) :=
  ⟨cnt_bist _ _ _ _, fun _ ha => rdw_cnt_below s ha h off n⟩

theorem hrdOnly_waitShow (s : State) (k : Nat) (l : List HrdWait) : hrdOnly s (s.waitShow k l) :=
  hrdOnly_wr { s with hrd := { s.hrd with wait := mset (fun _ => []) s.hrd.wait k l } } _
    (Nat.le_trans (by decide) (Nat.le_add_right _ _))

theorem hrdOnly_hrdAnswer (s : State) (g i n status detail : Nat) : hrdOnly s (s.hrdAnswer g i n status detail) := by
  unfold State.hrdAnswer
  split
  · exact ⟨rfl, fun _ _ => rfl⟩
  · exact hrdOnly_refl s

theorem hrdOnly_poolTake (s : State) (k n : Nat) : hrdOnly s (s.poolTake k n) := by
  refine ⟨?_, fun _ ha => rdw_poolTake_below s ha k n⟩
  unfold State.poolTake
  dsimp only
  rw [wr_bist, cnt_bist, wr_bist]

theorem hrdOnly_poolGive (s : State) (k n : Nat) : hrdOnly s (s.poolGive k n) := by
  refine ⟨?_, fun _ ha => rdw_poolGive_below s ha k n⟩
  unfold State.poolGive
  rw [cnt_bist, wr_bist]

theorem hrdOnly_freeCell (s : State) (k : Nat) : hrdOnly s (s.freeCell k).1 := ⟨rfl, fun _ _ => rfl⟩

theorem hrdOnly_cellStart (s : State) (h : Nat) : hrdOnly s ((s.scrSet h 1).cellZero h) := ⟨rfl, fun _ _ => rfl⟩

theorem hrdOnly_serveWaiter (s : State) (k m : Nat) : hrdOnly s (s.serveWaiter k m) := by
  induction m generalizing s with
  | zero => exact hrdOnly_refl s
  | succ m ih =>
    unfold State.serveWaiter
    split
    · exact hrdOnly_refl s
    · split
      · exact hrdOnly_refl s
      · dsimp only
        split
        · exact (hrdOnly_waitShow s k _).trans (ih _)
        · refine (((((hrdOnly_waitShow s k _).trans (hrdOnly_freeCell _ k)).trans (hrdOnly_cellStart _ _)).trans
            (hrdOnly_poolTake _ k 1)).trans (hrdOnly_hrdAnswer _ _ _ _ _ _)).trans (ih _)

theorem hrdOnly_hrdReclaim (s : State) (g : Nat) : hrdOnly s (s.hrdReclaim g) := by
  have hcnt (u : State) (n : Nat) : hrdOnly u (u.cnt (R.HRD_CNT.at (2 + g)) 0x38 n) :=
    hrdOnly_cnt _ _ _ (Nat.le_trans (by decide) (Nat.le_add_right _ _))
  unfold State.hrdReclaim
  dsimp only
  split
  · exact hrdOnly_serveWaiter _ _ _
  · generalize hu : ({ s with hrd := _ } : State) = u
    have hs : hrdOnly s u := by
      subst hu
      exact ⟨rfl, fun _ _ => rfl⟩
    exact ((hs.trans (hrdOnly_poolGive _ _ _)).trans (hcnt _ _)).trans (hrdOnly_serveWaiter _ _ _)

/-- The scratch buffers of a gallery are reclaimed without a change of a gallery's state. -/
theorem galState_hrdReclaim (s : State) {g h : Nat} (hh : h < 8) : (s.hrdReclaim g).galState h = s.galState h := by
  have haddr : (F.GAL_STATUS_STATE.at h).addr < 0xb00000 := by
    simp only [Fld.at, F.GAL_STATUS_STATE]
    omega
  exact congrArg (fun w : Word => bits w.toNat 2 0) ((hrdOnly_hrdReclaim s g).2 _ haddr)

theorem galState_galDrained (s : State) (g next : Nat) : (s.galDrained g next).galState g = next % 8 := by
  unfold State.galDrained
  exact galState_wr_state _ _ _

theorem drainEnd_tested {g : Nat} (hd : s.galState g = gDRAINING) (ht : s.bist.gt = some x) (hx : x.g = g) :
    s.drainEnd g = (((s.galDrained g gTEST).hrdReclaim g).wr F.BIS_STATUS_PHASE 6).gtPut { x with step := 3 } := by
  unfold State.drainEnd
  rw [if_neg (by rw [hd]; exact fun h => h rfl), ht, State.gtPut, wr_bist]
  exact if_pos hx

/-- What a step of the test of gallery `x.g` does. -/
theorem gtStep_at (ht : s.bist.gt = some x) : s.gtStep e =
    match x.step with
    | 2 => s.drainEnd x.g
    | 3 => (s.lbistStore (e.within (galParts x.g)) (galParts x.g)).gtPut
        { x with step := 4, res := { x.res with lbist := (e.within (galParts x.g)).lbist } }
    | 4 => (s.failWords { e.within (galParts x.g) with lbist := x.res.lbist } 2 false).gtPut
        { x with step := 5, res := { e.within (galParts x.g) with lbist := x.res.lbist } }
    | 5 => s.gtRepair x
    | 6 =>
      let u := (((s.galOff x.g).galPower x.g).loadGal x.g (engProg s.kpr.eng x.g)).echAfterTest x.g
      if u.galState x.g = gLOADING then u.gtPut { x with step := 7 } else u.gtEnd x.g 3
    | _ => if s.galState x.g = gSERVICE then s.gtEnd x.g (if x.repaired then 2 else 1)
      else if s.galState x.g = gOFF then s.gtEnd x.g 3 else s := by
  unfold State.gtStep
  rw [ht]
  rfl

/-- A drained gallery is tested: its state, the step and the phase. -/
theorem drainEnd_fields (hd : s.galState x.g = gDRAINING) (ht : s.bist.gt = some x) (hg : x.g < 8) :
    (s.drainEnd x.g).galState x.g = gTEST ∧ (s.drainEnd x.g).bist.gt = some { x with step := 3 }
      ∧ (s.drainEnd x.g).rd F.BIS_STATUS_PHASE = 6 := by
  rw [drainEnd_tested hd ht rfl]
  refine ⟨?_, gt_gtPut _ _, ?_⟩
  · rw [galState_gtPut, galState_wr_below _ _ _ (by decide), galState_hrdReclaim _ hg, galState_galDrained]
    rfl
  · rw [rd_gtPut, rd_wr_same _ _ _ rfl]
    rfl

/-! ### The end of a test -/

/-- The self-test state is `b`. -/
def State.bistPut (s : State) (b : BistState) : State := { s with bist := b }

theorem rd_bistPut (s : State) (b : BistState) (f : Fld) : (s.bistPut b).rd f = s.rd f := rfl

theorem galState_bistPut (s : State) (b : BistState) (g : Nat) : (s.bistPut b).galState g = s.galState g := rfl

theorem bist_bistPut (s : State) (b : BistState) : (s.bistPut b).bist = b := rfl

/-- The registers at the end of a test with result `r`; GO still stands for a request that waits. -/
def State.gtClosed (s : State) (r go : Nat) : State :=
  ((((((s.bistPut { s.bist with gt := none }).wr F.BIS_GTEST_STATUS_RESULT r).wr F.BIS_GTEST_STATUS_ACTIVE 0).wr
    F.BIS_GTEST_STATUS_DONE 1).wr F.BIS_GTEST_CTRL_GO go).wr F.BIS_STATUS_PHASE 0).raise (eg 15 4)

theorem gtClosed_fields (s : State) {r : Nat} (go : Nat) (hr : r < 16) :
    (s.gtClosed r go).bist.gt = none ∧ (s.gtClosed r go).rd F.BIS_GTEST_STATUS_RESULT = r
      ∧ (s.gtClosed r go).rd F.BIS_GTEST_STATUS_ACTIVE = 0 ∧ (s.gtClosed r go).rd F.BIS_GTEST_STATUS_DONE = 1 := by
  have hkeep {f : Fld} (h : f.addr = 0x70044) (u : State) :
      (((u.wr F.BIS_GTEST_CTRL_GO go).wr F.BIS_STATUS_PHASE 0).raise (eg 15 4)).rd f = u.rd f := by
    rw [rd_raise_at _ _ (by rw [h]; decide), rd_wr_ne _ _ _ _ (by rw [h]; decide), rd_wr_ne _ _ _ _ (by rw [h]; decide)]
  unfold State.gtClosed
  refine ⟨?_, ?_, ?_, ?_⟩
  · rw [bist_raise, wr_bist, wr_bist, wr_bist, wr_bist, wr_bist, bist_bistPut]
  · rw [hkeep rfl, rd_wr_apart _ _ _ _ (by decide), rd_wr_apart _ _ _ _ (by decide), rd_wr_same _ _ _ rfl]
    exact Nat.mod_eq_of_lt hr
  · rw [hkeep rfl, rd_wr_apart _ _ _ _ (by decide), rd_wr_same _ _ _ rfl]
    rfl
  · rw [hkeep rfl, rd_wr_same _ _ _ rfl]
    rfl

/-- A gallery that failed its test stays off and is marked. -/
def State.gtFailed (s : State) (g : Nat) : State :=
  ((s.galOff g).cnt R.BIS_CNT 0x40).bistPut { s.bist with gfail := setBit s.bist.gfail g }

theorem gtEnd_eq (s : State) (g r : Nat) :
    ∃ go, s.gtEnd g r = if r = 3 then (s.gtClosed r go).gtFailed g else s.gtClosed r go := ⟨_, rfl⟩

theorem galState_gtFailed (s : State) (g : Nat) : (s.gtFailed g).galState g = gOFF := by
  rw [State.gtFailed, galState_bistPut, galState_cnt_below _ _ _ (by decide), State.galOff]
  exact galState_wr_state _ _ _

theorem rd_gtFailed (s : State) (g : Nat) {f : Fld} (h : f.addr < 0x72000) : (s.gtFailed g).rd f = s.rd f := by
  rw [State.gtFailed, rd_bistPut, rd_cnt_ne _ _ _ _ (by simp only [R.BIS_CNT]; omega), State.galOff]
  exact rd_wr_state_below _ _ _ (by omega)

theorem gt_gtFailed (s : State) (g : Nat) : (s.gtFailed g).bist.gt = s.bist.gt := by
  rw [State.gtFailed, bist_bistPut]

theorem gtEnd_failed (s : State) (g : Nat) :
    (s.gtEnd g 3).rd F.BIS_GTEST_STATUS_RESULT = 3 ∧ (s.gtEnd g 3).galState g = gOFF ∧ (s.gtEnd g 3).bist.gt = none := by
  obtain ⟨go, hend⟩ := gtEnd_eq s g 3
  obtain ⟨hgt, hresult, -, -⟩ := gtClosed_fields s (r := 3) go (by decide)
  rw [hend, if_pos rfl, rd_gtFailed _ _ (by decide)]
  exact ⟨hresult, galState_gtFailed _ _, (gt_gtFailed _ _).trans hgt⟩

theorem gtEnd_passed (s : State) (g : Nat) {r : Nat} (hr : r < 3) :
    (s.gtEnd g r).bist.gt = none ∧ (s.gtEnd g r).rd F.BIS_GTEST_STATUS_RESULT = r
      ∧ (s.gtEnd g r).rd F.BIS_GTEST_STATUS_ACTIVE = 0 ∧ (s.gtEnd g r).rd F.BIS_GTEST_STATUS_DONE = 1 := by
  obtain ⟨go, hend⟩ := gtEnd_eq s g r
  rw [hend, if_neg (by omega)]
  exact gtClosed_fields s go (by omega)

theorem gtRepair_bad (h : s.gtBad x.res x.g = true ∨ bitN s.bist.gfail x.g = true) : s.gtRepair x = s.gtEnd x.g 3 := by
  refine if_pos ?_
  rcases h with h | h <;> rw [h] <;> simp

theorem gtRepair_good (hbad : s.gtBad x.res x.g = false) (hfail : bitN s.bist.gfail x.g = false) :
    ∃ y, (s.gtRepair x).bist.gt = some y ∧ y.step = 6 ∧ y.g = x.g := by
  have hgood : s.gtRepair x = ((s.mapRepair x.res x.g).repair x.res false).gtPut
      { x with step := 6, repaired := s.spareCovers x.res x.g || !x.res.words.isEmpty } := if_neg (by rw [hbad, hfail]; decide)
  rw [hgood]
  exact ⟨_, gt_gtPut _ _, rfl, rfl⟩

/-- The last step ends with the gallery in service, or off. -/
theorem gtStep_last (ht : s.bist.gt = some x) (h : 7 ≤ x.step) : s.gtStep e =
    if s.galState x.g = gSERVICE then s.gtEnd x.g (if x.repaired then 2 else 1)
    else if s.galState x.g = gOFF then s.gtEnd x.g 3 else s := by
  rw [gtStep_at ht]
  split
  case h_6 => rfl
  all_goals omega

end Steps
end Sys2Proof.Machine


namespace Sys2Proof.Machine

/-! ### PROBE (R501, R502) -/

section Probe
variable {s : State} {e : ProbeEnv}

/-- What the test steps of PROBE keep: the mode state, the records of PROBE, and the words outside the registers of results. -/
def probeKept (s t : State) : Prop :=
  t.md = s.md ∧ t.bist.probeRecs = s.bist.probeRecs ∧ ∀ a, a < 0x70000 ∨ (0x70060 ≤ a ∧ a < 0x70400) → t.rdw a = s.rdw a

theorem probeKept_refl (s : State) : probeKept s s := ⟨rfl, rfl, fun _ _ => rfl⟩

theorem probeKept.trans {t u : State} (h : probeKept s t) (h' : probeKept t u) : probeKept s u := by
  obtain ⟨hmd, hrecs, hrdw⟩ := h
  obtain ⟨hmd', hrecs', hrdw'⟩ := h'
  exact ⟨hmd'.trans hmd, hrecs'.trans hrecs, fun a ha => (hrdw' a ha).trans (hrdw a ha)⟩

theorem probeKept.rd {t : State} (h : probeKept s t) {f : Fld} (hf : f.addr < 0x70000 ∨ (0x70060 ≤ f.addr ∧ f.addr < 0x70400)) :
    t.rd f = s.rd f := by
  obtain ⟨-, -, hrdw⟩ := h
  rw [State.rd, hrdw _ hf, State.rd]

theorem probeKept_wr (s : State) {f : Fld} (v : Nat) (h : 0x70000 ≤ f.addr ∧ (f.addr < 0x70060 ∨ 0x70400 ≤ f.addr)) :
    probeKept s (s.wr f v) :=
  ⟨wr_md _ _ _, congrArg BistState.probeRecs (wr_bist _ _ _), fun _ ha => rdw_wr_ne _ _ _ _ (by omega)⟩

theorem probeKept_wr64 (s : State) {r : Reg} (v : Nat) (h : 0x70000 ≤ r.addr ∧ r.addr < 0x7005c) :
    probeKept s (s.wr64 r v) :=
  ⟨wr64_md _ _ _, congrArg BistState.probeRecs (wr64_bist _ _ _), fun _ ha => rdw_wr64_ne _ _ _ (by omega)⟩

theorem probeKept_showFail (s : State) : probeKept s s.showFail :=
  (probeKept_wr64 s _ (by decide)).trans (probeKept_wr _ _ (by decide))

theorem probeKept_failPush (s : State) (r : Nat) : probeKept s (s.failPush r) := by
  unfold State.failPush State.satInc
  split
  · exact probeKept_wr _ _ (by decide)
  · generalize hu : ({ s with bist := _ } : State) = u
    have hs : probeKept s u := by
      subst hu
      exact ⟨rfl, rfl, fun _ _ => rfl⟩
    exact hs.trans (probeKept_showFail u)

theorem probeKept_failWords (s : State) (t : TestRes) (src : Nat) (fuse : Bool) : probeKept s (s.failWords t src fuse) :=
  foldS_inv (probeKept s) _ _ s (probeKept_refl s) fun _ _ _ h => h.trans (probeKept_failPush _ _)

theorem probeKept_lbistStore (s : State) (t : TestRes) (parts : List Nat) : probeKept s (s.lbistStore t parts) := by
  refine foldS_inv (probeKept s) _ _ s (probeKept_refl s) fun p _ u h => ?_
  have hres (f : Fld) (v : Nat) (w : State) (hf : 0x70400 ≤ f.addr) : probeKept w (w.wr (f.at p) v) :=
    probeKept_wr w v (by simp only [Fld.at]; omega)
  exact ((h.trans (hres _ _ _ (by decide))).trans (hres _ _ _ (by decide))).trans (hres _ _ _ (by decide))

theorem probeKept_repair (s : State) (t : TestRes) : probeKept s (s.repair t true) := by
  refine foldS_inv (probeKept s) _ _ s (probeKept_refl s) fun m _ u h => ?_
  split
  · exact h
  · exact h.trans ⟨rfl, rfl, fun _ _ => rfl⟩

theorem probeKept_hbmPush (s : State) (k : Nat) (x : HbmFail) : probeKept s (s.hbmPush k x) := by
  unfold State.hbmPush
  dsimp only
  split
  · exact probeKept_refl s
  · generalize hu : ({ s with bist := _ } : State) = u
    have hs : probeKept s u := by
      subst hu
      exact ⟨rfl, rfl, fun _ _ => rfl⟩
    exact hs.trans (probeKept_wr64 u _ (by decide))

theorem probeKept_hbmFound (s : State) (x : HbmFail) : probeKept s (s.hbmFound x) :=
  (show probeKept s s.draw.2 from ⟨rfl, rfl, fun _ _ => rfl⟩).trans (probeKept_hbmPush _ _ _)

theorem probeKept_probeFail (s : State) (b : Bool) : probeKept s (s.probeFail b) := ⟨rfl, rfl, fun _ _ => rfl⟩

/-- The partitions are tested. -/
def State.probeLbist (s : State) (t : TestRes) : State :=
  let s := (s.wrr R.BIS_PROBE_RES 0).lbistStore t (List.range 117)
  let n := s.lbistFails t
  (((s.bistPut { s.bist with probeBad := false }).probeFail (decide (n ≠ 0))).wr F.BIS_PROBE_RES_LBIST_FAILS (min n 255)).probeNext 3

/-- The memories are tested. -/
def State.probeMbist (s : State) (t : TestRes) : State :=
  let t := { t with lbist := [] }
  let fuse := bitN s.md.probeCfg 1 && (s.lc == lcBLANK || s.lc == lcPROV || s.lc == lcRET)
  let n := (s.unrepairable t).length
  let recs := (s.failRecords t 1 fuse).take 256
  let s := ({ s with bist := { s.bist with probeRecs := recs } }.failWords t 1 fuse).wr F.BIS_PROBE_RES_MEM_UNREP (min n 1023)
  ((if fuse then s.repair t true else s).probeFail (!t.words.isEmpty || !t.retest.isEmpty)).probeNext 4

/-- The stacks are tested. -/
def State.probeHbm (s : State) (e : ProbeEnv) : State :=
  ((foldS e.hbm (fun x s => s.hbmFound x) s).probeFail (!e.hbm.isEmpty)).probeNext 5

/-- The lane results are shown. -/
def State.lanesShown (s : State) (e : ProbeEnv) : State :=
  foldS (List.range 338) (fun i s => s.wrr (R.BIS_PROBE_LANE.at i) (laneWord (e.errors i))) s

/-- The lanes are tested, if PROBE_CFG asks for it. -/
def State.probeLaneTest (s : State) (e : ProbeEnv) : State :=
  let s :=
    if bitN s.md.probeCfg 0 then
      let bad := ((List.range 338).filter (fun i => Nat.blt 1 (e.errors i))).length
      ((s.lanesShown e).wr F.BIS_PROBE_RES_LANES_FAILED bad).probeFail (decide (bad ≠ 0))
    else s
  s.probeNext 6

/-- A PROBE step by its number. -/
theorem probeStep_at (h : s.inMode mPROBE = true) : s.probeStep e =
    match s.md.probe with
    | 2 => s.probeLbist (e.test.within s.partsTested)
    | 3 => s.probeMbist (e.test.within s.partsTested)
    | 4 => s.probeHbm e
    | 5 => s.probeLaneTest e
    | _ => s.probeEnd := if_neg (by rw [h]; decide)

theorem rdw_bistPut (s : State) (b : BistState) (a : Nat) : (s.bistPut b).rdw a = s.rdw a := rfl

theorem rdw_probeFail (s : State) (b : Bool) (a : Nat) : (s.probeFail b).rdw a = s.rdw a := rfl

theorem rdw_probeNext (s : State) (n a : Nat) : (s.probeNext n).rdw a = s.rdw a := rfl

/-- Which step follows, in the same mode. -/
theorem probeNext_of_kept {t : State} (hrdw : t.rdw 0x60000 = s.rdw 0x60000) (n : Nat) (hm : s.inMode mPROBE = true) :
    (t.probeNext n).md.probe = n ∧ (t.probeNext n).mode = mPROBE :=
  ⟨rfl, (congrArg (fun w : Word => bits w.toNat 2 0) hrdw).trans (eq_of_beq hm)⟩

theorem probeLbist_next (t : TestRes) (hm : s.inMode mPROBE = true) : (s.probeLbist t).md.probe = 3 ∧ (s.probeLbist t).mode = mPROBE := by
  have hwrr : probeKept s (s.wrr R.BIS_PROBE_RES 0) :=
    ⟨rfl, rfl, fun a ha => by rw [State.wrr, rdw_wrw, if_neg (by simp only [R.BIS_PROBE_RES]; omega)]⟩
  have hstore := hwrr.trans (probeKept_lbistStore _ t (List.range 117))
  unfold State.probeLbist
  dsimp only
  refine probeNext_of_kept ?_ 3 hm
  rw [rdw_wr_ne _ _ _ _ (by decide), rdw_probeFail, rdw_bistPut]
  obtain ⟨-, -, hrdw⟩ := hstore
  exact hrdw _ (by decide)

theorem probeMbist_next (t : TestRes) (hm : s.inMode mPROBE = true) : (s.probeMbist t).md.probe = 4 ∧ (s.probeMbist t).mode = mPROBE
    ∧ (s.probeMbist t).bist.probeRecs.length ≤ 256 := by
  unfold State.probeMbist
  dsimp only
  generalize hu : ({ s with bist := _ } : State) = u
  have hrecs : u.bist.probeRecs.length ≤ 256 := by
    subst hu
    exact List.length_take_le _ _
  have hword : u.rdw 0x60000 = s.rdw 0x60000 := by
    subst hu
    rfl
  generalize hfuse : (bitN s.md.probeCfg 1 && (s.lc == lcBLANK || s.lc == lcPROV || s.lc == lcRET)) = fuse
  generalize hn : min (s.unrepairable { t with lbist := [] }).length 1023 = n
  have hkept : probeKept u (if fuse then ((u.failWords { t with lbist := [] } 1 fuse).wr F.BIS_PROBE_RES_MEM_UNREP n).repair
      { t with lbist := [] } true else (u.failWords { t with lbist := [] } 1 fuse).wr F.BIS_PROBE_RES_MEM_UNREP n) := by
    have hlog := (probeKept_failWords u { t with lbist := [] } 1 fuse).trans (probeKept_wr _ (f := F.BIS_PROBE_RES_MEM_UNREP) n (by decide))
    split
    · exact hlog.trans (probeKept_repair _ _)
    · exact hlog
  obtain ⟨-, hkrecs, hkrdw⟩ := hkept
  obtain ⟨hnext, hmode⟩ := probeNext_of_kept ((hkrdw _ (by decide)).trans hword) 4 hm
  exact ⟨hnext, hmode, le_of_eq_of_le (congrArg List.length hkrecs) hrecs⟩

theorem probeKept_probeHbm (s : State) (e : ProbeEnv) : probeKept s (foldS e.hbm (fun x s => s.hbmFound x) s) :=
  foldS_inv (probeKept s) _ _ s (probeKept_refl s) fun _ _ _ h => h.trans (probeKept_hbmFound _ _)

theorem probeHbm_next (e : ProbeEnv) (hm : s.inMode mPROBE = true) : (s.probeHbm e).md.probe = 5 ∧ (s.probeHbm e).mode = mPROBE := by
  obtain ⟨-, -, hrdw⟩ := probeKept_probeHbm s e
  exact probeNext_of_kept ((rdw_probeFail (foldS e.hbm (fun x s => s.hbmFound x) s) _ _).trans (hrdw _ (by decide))) 5 hm

theorem rd_probeHbm (s : State) (e : ProbeEnv) {f : Fld} (h : 0x70060 ≤ f.addr ∧ f.addr < 0x70400) : (s.probeHbm e).rd f = s.rd f :=
  (probeKept_probeHbm s e).rd (.inr h)

/-- The words of a range of lanes after each is written. -/
theorem rdw_lanesWritten (s : State) (w : Nat → Nat) (n a : Nat) :
    (foldS (List.range n) (fun i s => s.wrr (R.BIS_PROBE_LANE.at i) (w i)) s).rdw a =
      if 0x71000 ≤ a ∧ a < 0x71000 + 4 * n ∧ a % 4 = 0 then BitVec.ofNat 32 (w ((a - 0x71000) / 4)) else s.rdw a := by
  induction n with
  | zero =>
    rw [if_neg (by omega)]
    rfl
  | succ n ih =>
    have hstep : foldS (List.range (n + 1)) (fun i s => s.wrr (R.BIS_PROBE_LANE.at i) (w i)) s =
        (foldS (List.range n) (fun i s => s.wrr (R.BIS_PROBE_LANE.at i) (w i)) s).wrr (R.BIS_PROBE_LANE.at n) (w n) := by
      rw [foldS, List.range_succ, List.foldl_append]
      rfl
    rw [hstep, State.wrr, rdw_wrw, ih]
    by_cases ha : a = (R.BIS_PROBE_LANE.at n).addr
    · have hval : a = 0x71000 + 4 * n := ha.trans (by simp only [Reg.at, R.BIS_PROBE_LANE]; omega)
      rw [if_pos ha, if_pos (by omega), hval]
      congr 2
      omega
    · have hval : a ≠ 0x71000 + 4 * n := fun h => ha (h.trans (by simp only [Reg.at, R.BIS_PROBE_LANE]; omega))
      rw [if_neg ha]
      by_cases hin : 0x71000 ≤ a ∧ a < 0x71000 + 4 * n ∧ a % 4 = 0
      · rw [if_pos hin, if_pos (by omega)]
      · rw [if_neg hin, if_neg (by omega)]

theorem laneWord_lt (n : Nat) : laneWord n < 2 ^ 32 := by
  have hb : b2n (decide (n ≤ 1)) ≤ 1 := by cases decide (n ≤ 1) <;> decide
  unfold laneWord
  omega

theorem rdr_lanesShown (s : State) (e : ProbeEnv) {i : Nat} (hi : i < 338) :
    (s.lanesShown e).rdr (R.BIS_PROBE_LANE.at i) = laneWord (e.errors i) := by
  have haddr : (R.BIS_PROBE_LANE.at i).addr = 0x71000 + 4 * i := by simp only [Reg.at, R.BIS_PROBE_LANE]; omega
  have hidx : (0x71000 + 4 * i - 0x71000) / 4 = i := by omega
  rw [State.rdr, State.lanesShown, rdw_lanesWritten s (fun i => laneWord (e.errors i)), haddr, if_pos (by omega), hidx, BitVec.toNat_ofNat]
  exact Nat.mod_eq_of_lt (laneWord_lt _)

theorem rdw_mode_lanesShown (s : State) (e : ProbeEnv) : (s.lanesShown e).rdw 0x60000 = s.rdw 0x60000 := by
  rw [State.lanesShown, rdw_lanesWritten s (fun i => laneWord (e.errors i)), if_neg (by decide)]

theorem probeLaneTest_next (e : ProbeEnv) (hm : s.inMode mPROBE = true) :
    (s.probeLaneTest e).md.probe = 6 ∧ (s.probeLaneTest e).mode = mPROBE
      ∧ (bitN s.md.probeCfg 0 = true → ∀ i < 338, (s.probeLaneTest e).rdr (R.BIS_PROBE_LANE.at i) = laneWord (e.errors i)) := by
  unfold State.probeLaneTest
  dsimp only
  split
  case isTrue hcfg =>
    have hmode : ((s.lanesShown e).wr F.BIS_PROBE_RES_LANES_FAILED
        ((List.range 338).filter (fun i => Nat.blt 1 (e.errors i))).length).rdw 0x60000 = s.rdw 0x60000 := by
      rw [rdw_wr_ne _ _ _ _ (by decide), rdw_mode_lanesShown]
    obtain ⟨hnext, hmode⟩ := probeNext_of_kept ((rdw_probeFail _ (decide
      (((List.range 338).filter (fun i => Nat.blt 1 (e.errors i))).length ≠ 0)) _).trans hmode) 6 hm
    refine ⟨hnext, hmode, fun _ i hi => ?_⟩
    rw [← rdr_lanesShown s e hi, State.rdr, rdw_probeNext, rdw_probeFail, State.rdr]
    refine congrArg BitVec.toNat (rdw_wr_ne _ _ _ _ ?_)
    simp only [Reg.at, R.BIS_PROBE_LANE, F.BIS_PROBE_RES_LANES_FAILED]
    omega
  case isFalse hcfg =>
    obtain ⟨hnext, hmode⟩ := probeNext_of_kept (t := s) rfl 6 hm
    exact ⟨hnext, hmode, fun h => absurd h hcfg⟩

/-! ### The end of PROBE -/

/-- The mode state is `m`. -/
def State.mdPut (s : State) (m : ModeState) : State := { s with md := m }

theorem mode_mdPut (s : State) (m : ModeState) : (s.mdPut m).mode = s.mode := rfl

theorem startAscent_eq (s : State) (trig : Nat) (fault : Bool) : ∃ m tick, s.startAscent trig fault =
    (((s.cold.wr F.MOD_STATUS_MODE mASCENT).wr F.MOD_STATUS_STEP 1).mdPut m).trans trig s.mode mASCENT tick := ⟨_, _, rfl⟩

theorem nvm_startAscent (s : State) (trig : Nat) (fault : Bool) : (s.startAscent trig fault).nvm = s.nvm := by
  unfold State.startAscent State.trans
  dsimp only
  rw [nvm_raise, wr64_nvm, wr_nvm, wr_nvm, wr_nvm]
  dsimp only
  rw [wr_nvm, wr_nvm, State.cold, wr_nvm]

theorem mode_trans (s : State) (trig frm to_ tick : Nat) : (s.trans trig frm to_ tick).mode = s.mode := by
  unfold State.trans State.mode
  dsimp only
  rw [rd_raise_at _ _ (by decide), rd_wr64_ne _ _ _ _ (by decide), rd_wr_ne _ _ _ _ (by decide), rd_wr_ne _ _ _ _ (by decide),
    rd_wr_ne _ _ _ _ (by decide)]

theorem mode_startAscent (s : State) (trig : Nat) (fault : Bool) : (s.startAscent trig fault).mode = mASCENT := by
  have hmode : ((s.cold.wr F.MOD_STATUS_MODE mASCENT).wr F.MOD_STATUS_STEP 1).mode = mASCENT := by
    rw [State.mode, rd_wr_apart _ _ _ _ (by decide), rd_wr_same _ _ _ rfl]
    rfl
  obtain ⟨m, tick, h⟩ := startAscent_eq s trig fault
  rw [h, mode_trans, mode_mdPut, hmode]

theorem mode_modResult (s : State) (cmd code : Nat) (late : Bool) : (s.modResult cmd code late).mode = s.mode := by
  unfold State.modResult State.mode
  dsimp only
  rw [rd_raise_at _ _ (by decide), rd_wr_ne _ _ _ _ (by decide), rd_wr_ne _ _ _ _ (by decide), rd_wr_ne _ _ _ _ (by decide)]

theorem nvm_modResult (s : State) (cmd code : Nat) (late : Bool) : (s.modResult cmd code late).nvm = s.nvm := by
  unfold State.modResult
  rw [nvm_raise, wr_nvm, wr_nvm, wr_nvm]

/-- The results of PROBE are complete. -/
def State.probeDone (s : State) : State := (s.wr F.BIS_PROBE_RES_VALID 1).wr F.BIS_PROBE_RES_PASS (b2n (!s.bist.probeBad))

theorem probeEnd_eq (s : State) : s.probeEnd =
    ({ s.probeDone with nvm := { s.probeDone.nvm with dev := { s.probeDone.nvm.dev with
      probe := s.probeDone.rdr R.BIS_PROBE_RES, lanes := s.probeDone.probeLanes, fails := s.probeDone.bist.probeRecs } } }.startAscent
        6 false).modResult 4 0 false := rfl

theorem probeDone_results (s : State) :
    bits (s.probeDone.rdr R.BIS_PROBE_RES) 31 31 = 1
      ∧ bits (s.probeDone.rdr R.BIS_PROBE_RES) 30 30 = (if s.bist.probeBad then 0 else 1) := by
  have hvalid : s.probeDone.rd F.BIS_PROBE_RES_VALID = 1 := by
    rw [State.probeDone, rd_wr_apart _ _ _ _ (by decide), rd_wr_same _ _ _ rfl]
    rfl
  have hpass : s.probeDone.rd F.BIS_PROBE_RES_PASS = if s.bist.probeBad then 0 else 1 := by
    rw [State.probeDone, rd_wr_same _ _ _ rfl]
    cases s.bist.probeBad <;> rfl
  exact ⟨hvalid, hpass⟩

theorem probeLanes_probeDone (s : State) : s.probeDone.probeLanes = s.probeLanes := by
  have hlane (i : Nat) : s.probeDone.rdr (R.BIS_PROBE_LANE.at i) = s.rdr (R.BIS_PROBE_LANE.at i) := by
    have hne : (R.BIS_PROBE_LANE.at i).addr ≠ 0x70054 := by
      simp only [Reg.at, R.BIS_PROBE_LANE]
      omega
    rw [State.rdr, State.probeDone, rdw_wr_ne _ _ _ _ hne, rdw_wr_ne _ _ _ _ hne, State.rdr]
  simp only [State.probeLanes, hlane]

/-- PROBE ends: its results are in the device record, and ASCENT starts. -/
theorem probeEnd_results (s : State) : s.probeEnd.mode = mASCENT ∧ s.probeEnd.nvm.dev.fails = s.bist.probeRecs
    ∧ s.probeEnd.nvm.dev.lanes = s.probeLanes ∧ bits s.probeEnd.nvm.dev.probe 31 31 = 1
    ∧ bits s.probeEnd.nvm.dev.probe 30 30 = (if s.bist.probeBad then 0 else 1) := by
  obtain ⟨hvalid, hpass⟩ := probeDone_results s
  rw [probeEnd_eq, mode_modResult, mode_startAscent, nvm_modResult, nvm_startAscent]
  dsimp only
  refine ⟨rfl, ?_, probeLanes_probeDone s, hvalid, hpass⟩
  rw [State.probeDone, wr_bist, wr_bist]

end Probe
end Sys2Proof.Machine


namespace Sys2Proof.Machine

/-! ### Rows and errors (R500, R507, R508, R510) -/

section Errors
variable {s : State}

theorem hbmCopy_eq (w : State) (x : HbmFail) : w.hbmCopy x =
    (let used := F.BIS_HBM_STATUS_REMAP_USED.at x.stack.val
      let y : State := { w with bist := { w.bist with rows := w.bist.rows.filter (fun r => r.1 ≠ x.rowNo) } }
      if 64 ≤ w.rd used then y else (((y.wr used (w.rd used + 1)).cnt R.BIS_CNT 0x28).hbmPush 2 x).raise (eg 15 3)) := rfl

/-- A row's error is counted on the die and for its stack. -/
def State.rowSeen (s : State) (x : HbmFail) (ue : Bool) : State :=
  (s.cnt R.BIS_CNT (if ue then 0x20 else 0x18)).cnt (R.HBM_CNT.at x.stack.val) (if ue then 0x18 else 0x10)

theorem hbmError_off (x : HbmFail) (ue : Bool) (hr : s.inMode mRUN = false) (hl : s.inMode mLULL = false) : s.hbmError x ue = s :=
  if_pos (by rw [hr, hl]; rfl)

theorem serving_of {s : State} (h : s.inMode mRUN = true ∨ s.inMode mLULL = true) : (s.inMode mRUN || s.inMode mLULL) = true := by
  rcases h with h | h <;> rw [h] <;> simp

theorem hbmError_on (x : HbmFail) (ue : Bool) (h : s.inMode mRUN = true ∨ s.inMode mLULL = true) : s.hbmError x ue =
    (let w := s.rowSeen x ue
      if ue then (w.uncorrected x.rowNo).hbmCopy x
      else let w := w.rowNote x
        if max 1 (w.rd F.BIS_CFG_ROW_THRESH) ≤ (w.bist.rows.filter (fun r => r.1 == x.rowNo)).length then w.hbmCopy x else w) := by
  have hserve : ¬((!s.inMode mRUN && !s.inMode mLULL) = true) := by rcases h with h | h <;> rw [h] <;> simp
  unfold State.hbmError State.rowSeen
  rw [if_neg hserve]

theorem hbmError_uncorrectable (x : HbmFail) (h : s.inMode mRUN = true ∨ s.inMode mLULL = true) :
    s.hbmError x true = ((s.rowSeen x true).uncorrected x.rowNo).hbmCopy x := by
  rw [hbmError_on x true h]
  exact if_pos rfl

theorem hbmRemap_some (s : State) (x : HbmFail) (k : EccKind) : s.hbmRemap x (some k) =
    if s.inMode mRUN || s.inMode mLULL then (s.hbmError x true).eccEffect k else s.hbmError x true := rfl

theorem hbmRemap_uncorrectable (x : HbmFail) (k : EccKind) (h : s.inMode mRUN = true ∨ s.inMode mLULL = true) :
    s.hbmRemap x (some k) = (((s.rowSeen x true).uncorrected x.rowNo).hbmCopy x).eccEffect k := by
  rw [hbmRemap_some, serving_of h, if_pos rfl, hbmError_uncorrectable x h]

theorem hbmRemap_none (s : State) (x : HbmFail) : s.hbmRemap x none = s.hbmError x false := rfl

theorem hbmRemap_correctable (x : HbmFail) (h : s.inMode mRUN = true ∨ s.inMode mLULL = true) : s.hbmRemap x none =
    (let w := (s.rowSeen x false).rowNote x
      if max 1 (w.rd F.BIS_CFG_ROW_THRESH) ≤ (w.bist.rows.filter (fun r => r.1 == x.rowNo)).length then w.hbmCopy x else w) := by
  rw [hbmRemap_none, hbmError_on x false h]
  exact if_neg (by decide)

theorem hbmRemap_off (x : HbmFail) (ue : Option EccKind) (hr : s.inMode mRUN = false) (hl : s.inMode mLULL = false) :
    s.hbmRemap x ue = s := by
  unfold State.hbmRemap
  rw [hbmError_off x _ hr hl, hr, hl]
  cases ue <;> rfl

/-- A row that is followed, or one of fewer than 256, has its error noted. -/
theorem rows_rowNote (x : HbmFail)
    (h : (s.bist.rows.filter (fun r => decide (s.tb.up < r.2 + 10 ^ 9))).any (fun r => r.1 == x.rowNo) = true
      ∨ (ascending ((s.bist.rows.filter (fun r => decide (s.tb.up < r.2 + 10 ^ 9))).map (·.1))).length < 256) :
    (s.rowNote x).bist.rows = s.bist.rows.filter (fun r => decide (s.tb.up < r.2 + 10 ^ 9)) ++ [(x.rowNo, s.tb.up)] := by
  unfold State.rowNote
  dsimp only
  rw [if_pos]
  rcases h with h | h
  · rw [h, Bool.true_or]
  · rw [decide_eq_true h, Bool.or_true]

theorem rowSeen_kept (s : State) (x : HbmFail) (ue : Bool) : (s.rowSeen x ue).bist = s.bist ∧ (s.rowSeen x ue).tb = s.tb := by
  unfold State.rowSeen
  rw [cnt_bist, cnt_bist, cnt_tb, cnt_tb]
  exact ⟨rfl, rfl⟩

theorem eccError_correctable (m a : Nat) (k : EccKind) (hd : s.inMode mDORMANT = false) : s.eccError m a k false =
    ((s.cnt R.BIS_CNT 0).eccLog m a false).raise (eg 15 1) := by
  unfold State.eccError
  simp only [hd, Bool.false_eq_true, if_false, Bool.not_false, if_true]

/-- An uncorrectable error is counted, logged and raised. -/
def State.eccNoted (s : State) (m a : Nat) : State := ((s.cnt R.BIS_CNT 8).eccLog m a true).raise (eg 15 2)

theorem eccError_uncorrectable (m a : Nat) (k : EccKind) (hd : s.inMode mDORMANT = false) :
    s.eccError m a k true = (s.eccNoted m a).eccEffect (k.of m) := by
  unfold State.eccError State.eccNoted
  simp only [hd, Bool.false_eq_true, if_false, Bool.not_true]

theorem eccKind_plain {m : Nat} (h : Config.memInfo m 1 % 2 = 0) : EccKind.of m .plain = .plain := if_neg (by omega)

theorem eccKind_fatal {m : Nat} (h : Config.memInfo m 1 % 2 = 1) : EccKind.of m .plain = .fatal := if_pos h

theorem eccEffect_fatal (h : s.keeperUp = true) : s.eccEffect .fatal =
    ({ s with nvm := { s.nvm with dev := { s.nvm.dev with fatal := some (s.rd64 R.BIS_ECC_LOG, s.tick) } } } : State).keeperCmd 4 :=
  if_pos h

theorem eccEffect_fatal_down (h : s.keeperUp = false) : s.eccEffect .fatal = s := if_neg (by rw [h]; decide)

theorem eccEffect_packet {q i : Nat} {f : EgrFrame} (h : (s.eq (q / 8) (q % 8))[i]? = some f) : s.eccEffect (.packet q i) =
    (s.frameSet (q / 8) (q % 8) f { f with cut := true }).cnt R.BIS_CNT 0x10 := by
  unfold State.eccEffect
  dsimp only
  rw [h]

/-! ### The logs and the memory words (R494, R513) -/

theorem wordShape_failLog : wordShape R.BIS_FAIL_LOG.addr = some ("BIS_FAIL_LOG", [], .lo) := by decide +kernel

theorem wordShape_hbmLog : wordShape R.BIS_HBM_LOG.addr = some ("BIS_HBM_LOG", [], .lo) := by decide +kernel

theorem popped_failLog (s : State) : s.popped "BIS_FAIL_LOG" [] R.BIS_FAIL_LOG.addr = s.failPop := by
  unfold State.popped
  rfl

theorem popped_hbmLog (s : State) : s.popped "BIS_HBM_LOG" [] R.BIS_HBM_LOG.addr = s.hbmPop := by
  unfold State.popped
  rfl

theorem failPop_eq (s : State) : s.failPop = ((s.bistPut { s.bist with failLog := s.bist.failLog.tail }).wr64 R.BIS_FAIL_LOG
    (s.bist.failLog.tail.headD 0)).wr F.BIS_FAIL_STATUS_LEVEL s.bist.failLog.tail.length := rfl

theorem hbmPop_eq (s : State) : s.hbmPop =
    (s.bistPut { s.bist with hbmLog := s.bist.hbmLog.tail }).wr64 R.BIS_HBM_LOG (s.bist.hbmLog.tail.headD 0) := rfl

theorem failPop_fields (s : State) : s.failPop.bist = { s.bist with failLog := s.bist.failLog.tail }
    ∧ s.failPop.rd64 R.BIS_FAIL_LOG = s.bist.failLog.tail.headD 0 % 2 ^ 64 := by
  rw [failPop_eq, wr_bist, wr64_bist, rd64_wr_ne _ _ _ _ (by decide), rd64_wr64_same]
  exact ⟨rfl, rfl⟩

theorem hbmPop_fields (s : State) : s.hbmPop.bist = { s.bist with hbmLog := s.bist.hbmLog.tail }
    ∧ s.hbmPop.rd64 R.BIS_HBM_LOG = s.bist.hbmLog.tail.headD 0 % 2 ^ 64 := by
  rw [hbmPop_eq, wr64_bist, rd64_wr64_same]
  exact ⟨rfl, rfl⟩

/-- A read of the fail log shows its head, which leaves it. -/
theorem bar0Read_failLog (h : s.serves R.BIS_FAIL_LOG.addr) :
    (s.bar0Read R.BIS_FAIL_LOG.addr).bist = { s.bist with failLog := s.bist.failLog.tail }
      ∧ (s.bar0Read R.BIS_FAIL_LOG.addr).rd64 R.BIS_FAIL_LOG = s.bist.failLog.tail.headD 0 % 2 ^ 64 := by
  obtain ⟨m, l, w, hr⟩ := bar0Read_low h (by simp [State.fabGone]) wordShape_failLog rfl
  rw [hr, popped_failLog]
  exact failPop_fields { s with regs := m, latch := l }

theorem bar0Read_hbmLog (h : s.serves R.BIS_HBM_LOG.addr) :
    (s.bar0Read R.BIS_HBM_LOG.addr).bist = { s.bist with hbmLog := s.bist.hbmLog.tail }
      ∧ (s.bar0Read R.BIS_HBM_LOG.addr).rd64 R.BIS_HBM_LOG = s.bist.hbmLog.tail.headD 0 % 2 ^ 64 := by
  obtain ⟨m, l, w, hr⟩ := bar0Read_low h (by simp [State.fabGone]) wordShape_hbmLog rfl
  rw [hr, popped_hbmLog]
  exact hbmPop_fields { s with regs := m, latch := l }

theorem wordShape_memSel : wordShape R.BIS_MEM_SEL.addr = some ("BIS_MEM_SEL", [], .w32) := by decide +kernel

theorem unitWrite_memSel (s : State) (v : Word) : s.unitWrite "BIS_MEM_SEL" [] R.BIS_MEM_SEL.addr v = some (s.memSel (bits v.toNat 16 0)) := by
  unfold State.unitWrite
  rfl

theorem exec_memSelWrite (h : s.serves R.BIS_MEM_SEL.addr) (v : Word) :
    exec (.bisMemSelWrite v) s = .next (s.memSel (bits v.toNat 16 0)) :=
  congrArg Host.Outcome.next (bar0Write_taken h (by simp [State.fabGone]) wordShape_memSel rfl (unitWrite_memSel s v) _)

/-- BIS_MEM_SEL and the words of BIS_MEM_INFO it loads. -/
theorem memSel_fields (s : State) {m : Nat} (hm : m < 2 ^ 17) :
    (s.memSel m).rd F.BIS_MEM_SEL_MEM = m ∧ (s.memSel m).rd F.BIS_MEM_SEL_PART = Config.memInfo m 0 % 128
      ∧ (s.memSel m).rd F.BIS_MEM_SEL_FATAL = Config.memInfo m 1 % 2 ∧ (s.memSel m).rd F.BIS_MEM_SEL_ROWS = Config.memInfo m 2 % 2 ^ 24
      ∧ (s.memSel m).rd F.BIS_MEM_SEL_WIDTH = Config.memInfo m 3 % 65536
      ∧ (s.memSel m).rd F.BIS_MEM_SEL_SPARE_ROWS = Config.memInfo m 4 % 256
      ∧ (s.memSel m).rd F.BIS_MEM_SEL_SPARE_COLS = Config.memInfo m 5 % 16 := by
  unfold State.memSel
  dsimp only
  refine ⟨?_, ?_, ?_, ?_, ?_, ?_, ?_⟩
  · repeat rw [rd_wr_ne _ _ _ _ (by decide)]
    rw [rd_wr_same _ _ _ rfl]
    exact Nat.mod_eq_of_lt hm
  · repeat rw [rd_wr_apart _ _ _ _ (by decide)]
    exact rd_wr_same _ _ _ rfl
  · repeat rw [rd_wr_apart _ _ _ _ (by decide)]
    exact rd_wr_same _ _ _ rfl
  · repeat rw [rd_wr_apart _ _ _ _ (by decide)]
    exact rd_wr_same _ _ _ rfl
  · repeat rw [rd_wr_apart _ _ _ _ (by decide)]
    exact rd_wr_same _ _ _ rfl
  · repeat rw [rd_wr_apart _ _ _ _ (by decide)]
    exact rd_wr_same _ _ _ rfl
  · repeat rw [rd_wr_apart _ _ _ _ (by decide)]
    exact rd_wr_same _ _ _ rfl

end Errors
end Sys2Proof.Machine


namespace Sys2Proof.Machine

/-! ### The statement -/

section Clauses
variable {s : State}

theorem gtTickDue_due {g t : Nat} (hat : s.bist.gtAt = some (g, t)) (hrun : s.running = true) (htick : t ≤ s.tick)
    (hmode : s.inMode mRUN = true) : s.gtTickDue =
    (let r := ({ s with bist := { s.bist with gtAt := none } } : State).gtRequest g none;
      r.1.wr F.BIS_GTEST_CTRL_GO (b2n r.2)) := by
  rw [gtTickDue_waiting hat, hrun, hmode, decide_eq_true htick]
  exact if_pos rfl

theorem gtTickDue_early {g t : Nat} (hat : s.bist.gtAt = some (g, t)) (h : s.tick < t ∨ s.inMode mRUN = false) :
    s.gtTickDue = s := by
  refine (gtTickDue_waiting hat).trans (if_neg ?_)
  rcases h with h | h
  · rw [decide_eq_false (by omega)]
    simp
  · rw [h]
    simp

section StepCases
variable {x : Gtest} {e : TestRes} (ht : s.bist.gt = some x)
include ht

theorem gtStep_drains (h : x.step = 2) : s.gtStep e = s.drainEnd x.g := by
  have hdo := gtStep_at (e := e) ht
  rw [h] at hdo
  exact hdo

theorem gtStep_lbist (h : x.step = 3) : s.gtStep e =
    (s.lbistStore (e.within (galParts x.g)) (galParts x.g)).gtPut
      { x with step := 4, res := { x.res with lbist := (e.within (galParts x.g)).lbist } } := by
  have hdo := gtStep_at (e := e) ht
  rw [h] at hdo
  exact hdo

theorem gtStep_mbist (h : x.step = 4) : s.gtStep e =
    (s.failWords { e.within (galParts x.g) with lbist := x.res.lbist } 2 false).gtPut
      { x with step := 5, res := { e.within (galParts x.g) with lbist := x.res.lbist } } := by
  have hdo := gtStep_at (e := e) ht
  rw [h] at hdo
  exact hdo

theorem gtStep_repairs (h : x.step = 5) : s.gtStep e = s.gtRepair x := by
  have hdo := gtStep_at (e := e) ht
  rw [h] at hdo
  exact hdo

theorem gtStep_loads (h : x.step = 6) : s.gtStep e =
    (let u := (((s.galOff x.g).galPower x.g).loadGal x.g (engProg s.kpr.eng x.g)).echAfterTest x.g
      if u.galState x.g = gLOADING then u.gtPut { x with step := 7 } else u.gtEnd x.g 3) := by
  have hdo := gtStep_at (e := e) ht
  rw [h] at hdo
  exact hdo

end StepCases

section ProbeCases
variable {e : ProbeEnv} (hm : s.inMode mPROBE = true)
include hm

theorem probeStep_lbist (h : s.md.probe = 2) : s.probeStep e = s.probeLbist (e.test.within s.partsTested) := by
  have hdo := probeStep_at (e := e) hm
  rw [h] at hdo
  exact hdo

theorem probeStep_mbist (h : s.md.probe = 3) : s.probeStep e = s.probeMbist (e.test.within s.partsTested) := by
  have hdo := probeStep_at (e := e) hm
  rw [h] at hdo
  exact hdo

theorem probeStep_hbm (h : s.md.probe = 4) : s.probeStep e = s.probeHbm e := by
  have hdo := probeStep_at (e := e) hm
  rw [h] at hdo
  exact hdo

theorem probeStep_lanes (h : s.md.probe = 5) : s.probeStep e = s.probeLaneTest e := by
  have hdo := probeStep_at (e := e) hm
  rw [h] at hdo
  exact hdo

theorem probeStep_end (h : s.md.probe < 2 ∨ 5 < s.md.probe) : s.probeStep e = s.probeEnd := by
  refine (probeStep_at hm).trans ?_
  split
  case h_5 => exact rfl
  all_goals omega

/-- A test step of PROBE leads to the next one in the same mode. -/
theorem probeStep_advances (h2 : 2 ≤ s.md.probe) (h5 : s.md.probe ≤ 5) :
    (s.probeStep e).md.probe = s.md.probe + 1 ∧ (s.probeStep e).mode = mPROBE := by
  obtain h | h | h | h : s.md.probe = 2 ∨ s.md.probe = 3 ∨ s.md.probe = 4 ∨ s.md.probe = 5 := by omega
  · rw [probeStep_lbist hm h, h]
    exact probeLbist_next _ hm
  · obtain ⟨hnext, hmode, -⟩ := probeMbist_next (e.test.within s.partsTested) hm
    rw [probeStep_mbist hm h, h]
    exact ⟨hnext, hmode⟩
  · rw [probeStep_hbm hm h, h]
    exact probeHbm_next e hm
  · obtain ⟨hnext, hmode, -⟩ := probeLaneTest_next e hm
    rw [probeStep_lanes hm h, h]
    exact ⟨hnext, hmode⟩

end ProbeCases

end Clauses

/-- Settles O54: a gallery test step by step, PROBE by what its steps keep, a row's error by its counts, an ECC error by what
is at stake, the logs by the read that pops them. -/
theorem selfTestAndErrorsFollowTheirRules : Obligations.SelfTestAndErrorsFollowTheirRules := by
  unfold Obligations.SelfTestAndErrorsFollowTheirRules
  intro s
  refine ⟨fun v hs => ⟨?_, ?_⟩, fun g at_ => ⟨gtRefuse_eq_one s g at_, gtRefuse_eq_zero⟩, ?_, ?_, fun g t hat hrun => ⟨?_, ?_⟩,
    fun x e ht hg => ⟨?_, ?_, ?_, ?_, ?_, ?_, ?_, ?_⟩, fun e hm => ?_, fun x => ⟨fun hserve => ⟨?_, ?_, ?_⟩, ?_⟩,
    fun m a k hd => ⟨?_, ?_⟩, fun hs => ?_, fun hs => ?_, fun v hs => ?_⟩
  · exact exec_gtestGo_busy hs v
  · intro hgo
    exact ⟨_, exec_gtestGo_go hs v hgo, gtGo_result _ (bits_lt _ 10 8) _⟩
  · exact fun hcfg hup => congrArg Host.Outcome.next (gtAuto_turn hcfg hup)
  · exact fun hoff => congrArg Host.Outcome.next (gtAuto_off hoff)
  · exact fun htick hmode => congrArg Host.Outcome.next (gtTickDue_due hat hrun htick hmode)
  · exact fun h => congrArg Host.Outcome.next (gtTickDue_early hat h)
  · exact fun hstep hdrain => ⟨_, congrArg Host.Outcome.next (gtStep_drains ht hstep), drainEnd_fields hdrain ht hg⟩
  · exact fun hstep => congrArg Host.Outcome.next (gtStep_lbist ht hstep)
  · exact fun hstep => congrArg Host.Outcome.next (gtStep_mbist ht hstep)
  · intro hstep hbad
    exact ⟨_, congrArg Host.Outcome.next ((gtStep_repairs ht hstep).trans (gtRepair_bad hbad)), gtEnd_failed s x.g⟩
  · intro hstep hbad hfail
    obtain ⟨y, hgt, h6, hy⟩ := gtRepair_good hbad hfail
    exact ⟨_, y, congrArg Host.Outcome.next (gtStep_repairs ht hstep), hgt, h6, hy⟩
  · intro hstep
    have hdo := gtStep_loads (e := e) ht hstep
    exact ⟨fun hload => congrArg Host.Outcome.next (hdo.trans (if_pos hload)),
      fun hload => congrArg Host.Outcome.next (hdo.trans (if_neg hload))⟩
  · intro hstep hoff
    refine congrArg Host.Outcome.next ((gtStep_last ht hstep).trans ?_)
    rw [hoff, if_neg (by decide), if_pos rfl]
  · intro hstep hservice
    exact ⟨_, congrArg Host.Outcome.next ((gtStep_last ht hstep).trans (if_pos hservice)), gtEnd_passed s x.g (by split <;> decide)⟩
  · refine ⟨_, rfl, probeStep_advances hm, fun h hcfg i hi => ?_, fun h => ?_, fun h k hk => ?_, fun h => ?_⟩
    · obtain ⟨-, -, hlanes⟩ := probeLaneTest_next e hm
      rw [probeStep_lanes hm h]
      exact hlanes hcfg i hi
    · obtain ⟨-, -, hrecs⟩ := probeMbist_next (e.test.within s.partsTested) hm
      rw [probeStep_mbist hm h]
      exact hrecs
    · rw [probeStep_hbm hm h]
      refine rd_probeHbm s e ?_
      simp only [Fld.at, F.BIS_HBM_STATUS_REMAP_USED]
      omega
    · rw [probeStep_end hm (.inr h)]
      exact probeEnd_results s
  · exact fun k => congrArg Host.Outcome.next (hbmRemap_uncorrectable x k hserve)
  · have hdo := hbmRemap_correctable x hserve
    exact ⟨fun hfew => congrArg Host.Outcome.next (hdo.trans (if_neg (Nat.not_le.2 hfew))),
      fun hmany => congrArg Host.Outcome.next (hdo.trans (if_pos hmany))⟩
  · intro l hrow
    obtain ⟨hbist, htb⟩ := rowSeen_kept s x false
    have hnote := rows_rowNote (s := s.rowSeen x false) x
    rw [hbist, htb] at hnote
    exact hnote hrow
  · exact fun hr hl ue => congrArg Host.Outcome.next (hbmRemap_off x ue hr hl)
  · exact congrArg Host.Outcome.next (eccError_correctable _ _ _ hd)
  · have hue (k : EccKind) := eccError_uncorrectable m.toNat a.toNat k hd
    refine ⟨fun hplain => ?_, fun hfatal => ?_, fun hup => ?_, fun hdown => ?_, fun q i f hf => ?_, fun l => ?_, fun n => ?_, fun p => ?_,
      fun n => ?_⟩
    · refine congrArg Host.Outcome.next ((hue .plain).trans ?_)
      rw [eccKind_plain hplain]
      rfl
    · refine congrArg Host.Outcome.next ((hue .plain).trans ?_)
      rw [eccKind_fatal hfatal]
      exact (hue .fatal).symm
    · exact congrArg Host.Outcome.next ((hue .fatal).trans (eccEffect_fatal hup))
    · exact congrArg Host.Outcome.next ((hue .fatal).trans (eccEffect_fatal_down hdown))
    · exact congrArg Host.Outcome.next ((hue (.packet q i)).trans (eccEffect_packet hf))
    · exact congrArg Host.Outcome.next (hue (.counter l))
    · exact congrArg Host.Outcome.next (hue (.pointers n))
    · exact congrArg Host.Outcome.next (hue (.metaLine p))
    · exact congrArg Host.Outcome.next (hue (.echo n))
  · exact ⟨_, rfl, bar0Read_failLog hs⟩
  · exact ⟨_, rfl, bar0Read_hbmLog hs⟩
  · exact ⟨_, exec_memSelWrite hs v, memSel_fields s (bits_lt _ 16 0)⟩

end Sys2Proof.Machine


/-! # O50: a second gap within one tick

RSQ_LOST is raised once per tick at most: with `lostSeen` set, a gap that times out leaves FAB_EVT as it is. The clause on a
gap that times out sets RSQ_LOST in that case too. After the host has cleared the bit within the tick the two differ. -/

namespace Sys2Proof.Machine

/-- Source 0 holds the cell of SEQ 1 while SEQ 0 is missing; RSQ_LOST was noted before and is clear again. -/
def tGapAgain : State :=
  { State.reset with fab := { lostSeen := true, rx := [(0, { gapAt := some 0, held := [(1, some {})] })] } }

theorem tGapAgain_waits : (tGapAgain.frx 0).gapAt = some 0 ∧ (tGapAgain.frx 0).lowest = some 1 := by decide +kernel

/-- The model leaves RSQ_LOST clear. -/
theorem rsqLost_gapTimeout : (tGapAgain.gapTimeout 0).rd F.FAB_EVT_RSQ_LOST = 0 := by decide +kernel

/-- Refutes O50: of a source whose gap times out while RSQ_LOST is already noted, the statement has the bit set again, and the
model leaves it as the host cleared it. -/
theorem not_tradewindCellsCreditAndLinksFollowTheirRules : ¬ Obligations.TradewindCellsCreditAndLinksFollowTheirRules := by
  intro h
  obtain ⟨-, -, -, -, hgap⟩ := h tGapAgain
  obtain ⟨hat, hlowest⟩ := tGapAgain_waits
  have hstate := Host.Outcome.next.inj (hgap 0 0 1 hat hlowest)
  have hbit := (congrArg (State.rd · F.FAB_EVT_RSQ_LOST) hstate).symm.trans rsqLost_gapTimeout
  exact absurd hbit (by decide +kernel)

end Sys2Proof.Machine
